-- ==== Sys2Proof/Word.lean ====
section
/-! DEFINITION. The word types of the model and the plainest arithmetic on them: little-endian byte lists (R6),
fields of a number, and signed readings. -/
namespace Sys2Proof

/-- One byte. -/
abbrev Byte := BitVec 8

/-- One 32-bit word. -/
abbrev Word := BitVec 32

/-- The low `n` bytes of `v`, least significant first (R6). -/
def le (n v : Nat) : List Byte :=
  match n with
  | 0 => []
  | n + 1 => BitVec.ofNat 8 v :: le n (v / 256)

/-- The number that a little-endian byte list spells (R6). -/
def leVal : List Byte → Nat
  | [] => 0
  | b :: bs => b.toNat + 256 * leVal bs

/-- A little-endian field of `n` bytes at `off` (R6). -/
def fieldAt (bs : List Byte) (off n : Nat) : Nat := leVal ((bs.drop off).take n)

/-- Bits [lo + w - 1 : lo] of a number. -/
def bits (v lo w : Nat) : Nat := v / 2 ^ lo % 2 ^ w

/-- Bit `i` of a number. -/
def bit (v i : Nat) : Bool := v / 2 ^ i % 2 == 1

/-- Two's complement reading of the low `w` bits. -/
def sgn (w v : Nat) : Int :=
  if v % 2 ^ w < 2 ^ (w - 1) then (v % 2 ^ w : Nat) else (v % 2 ^ w : Nat) - (2 ^ w : Nat)

/-- The low `w` bits of an integer as a number. -/
def uns (w : Nat) (v : Int) : Nat := (v % (2 ^ w : Nat)).toNat

/-- Bytes, in order, of a list of (width in bytes, value) fields. -/
def pk (fs : List (Nat × Nat)) : List Byte := fs.flatMap fun f => le f.1 f.2

/-- Sixteen bytes with (offset, width, value) fields placed in zeros: the DATA of an event (R66). -/
def evd (fs : List (Nat × Nat × Nat)) : List Byte :=
  le 16 (fs.foldl (fun a f => a + f.2.2 % 256 ^ f.2.1 * 256 ^ f.1) 0)

/-- Smallest multiple of `m` that is at least `n`. -/
def upTo (n m : Nat) : Nat := (n + m - 1) / m * m

/-- Quotient rounded up. -/
def cdiv (n m : Nat) : Nat := (n + m - 1) / m

/-- Saturating addition below 2 ^ w. -/
def satAdd (w a b : Nat) : Nat := min (a + b) (2 ^ w - 1)

/-- Number of ones among the low `n` bits. -/
def popcount : Nat → Nat → Nat
  | 0, _ => 0
  | n + 1, v => v % 2 + popcount n (v / 2)

/-- The positions of the ones among the low `n` bits, ascending. -/
def ones (n v : Nat) : List Nat := (List.range n).filter fun i => bit v i

end Sys2Proof
end

