-- ==== Sys2Proof/Syntax.lean ====
section
/-! DEFINITION. The commands of the block: one constructor for each row of the opcode table, with the operands its rule
gives it. Operand widths are checked by `wfInstr`. -/
namespace Sys2Proof

/-- Which mailbox slot holds the request that Breano serves (R55): the page of a function, and a slot of it. -/
structure Req where
  /-- function that owns the page, 0-15 -/
  page : Nat
  /-- slot, 0-15 -/
  slot : Nat
  deriving DecidableEq, Repr

/-- A guard: execute when Q[qg] XOR qn is 1. [04 R112] -/
structure Guard where
  /-- QG, 0-15 [04 R112] -/
  qg : Nat := 0
  /-- QN [04 R112] -/
  qn : Bool := false
  deriving DecidableEq, Repr

/-- Where a syllable issues: the core, and the other three words of its bundle (R113). -/
structure BCtx where
  /-- core, 0-1,023 -/
  core : Nat
  /-- slot L0 word -/
  l0 : Word
  /-- slot L1 word -/
  l1 : Word
  /-- slot X word -/
  x : Word
  /-- slot V word -/
  v : Word
  /-- the bundle meets a parity error in a register file [13 R378] -/
  parity : Bool := false
  deriving DecidableEq, Repr

/-- The commands. -/
inductive Instr where
  /-- DEVICE_SET_MODE (R21) -/
  | deviceSetMode (r : Req) (mode live : Nat)
  /-- MODE_LIVE_BOUNDARY (R23) -/
  | modeLiveBoundary
  /-- MODE_DRAIN_BOUNDARY (R24) -/
  | modeDrainBoundary
  /-- MODE_DRAIN_ABORT (R26) -/
  | modeDrainAbort
  /-- MODE_DONE (R26) -/
  | modeDone
  /-- DEVICE_GET_MODE (R37) -/
  | deviceGetMode (r : Req)
  /-- DEVICE_GET_CAPACITY (R17) -/
  | deviceGetCapacity (r : Req)
  /-- DEVICE_LOOK_BIND (R29) -/
  | deviceLookBind (r : Req) (stream dir chan domain : Nat)
  /-- DEVICE_LOOK_STATUS (R37) -/
  | deviceLookStatus (r : Req) (stream dir : Nat)
  /-- LOOK_TX_MESSAGE (R30) -/
  | lookTxMessage (stream : Nat)
  /-- LOOK_RX_MESSAGE (R31) -/
  | lookRxMessage (chan : Nat)
  /-- DEVICE_CONF_SET (R33) -/
  | deviceConfSet (r : Req) (carrier source model pci vslot start : Nat)
  /-- DEVICE_CONF_VECTOR_LOAD (R35) -/
  | deviceConfVectorLoad (r : Req) (vslot tracks frames rate : Nat) (samples : List Byte)
  /-- DEVICE_CONF_CAPTURE (R36) -/
  | deviceConfCapture (r : Req) (stream start frames : Nat)
  /-- CONF_CAPTURE_DONE (R36) -/
  | confCaptureDone
  /-- CONF_PLAN_FORM (R34) -/
  | confPlanForm (carrier frame slot : Nat) (threads : List Nat) (jobs : List Nat := [])
  /-- MB_RING (R59) -/
  | mbRing (func mask : Nat)
  /-- EVT_CONS_WRITE (R68) -/
  | evtConsWrite (func value : Nat)
  /-- BAR2_WIN_WRITE (R53) -/
  | bar2WinWrite (func value : Nat)
  /-- NTC_SNAPSHOT_TRIGGER (R54) -/
  | ntcSnapshotTrigger (func : Nat)
  /-- SNAP_SEQ_INCREMENT (R54) -/
  | snapSeqIncrement (func : Nat)
  /-- FUNCTION_LEVEL_RESET (R46) -/
  | functionLevelReset (func : Nat)
  /-- LINK_DOWN (R47) -/
  | linkDown (port : Nat)
  /-- PERST_ASSERT (R621) -/
  | perstAssert (port : Nat)
  /-- CONFIG_REQUEST (R604) -/
  | configRequest (func : Nat) (write : Bool) (field value : Nat)
  /-- HOST_MEMORY_READ (R636) -/
  | hostMemoryRead (func bar off len : Nat)
  /-- HOST_MEMORY_WRITE (R636) -/
  | hostMemoryWrite (func bar off : Nat) (data : List Byte) (ep : Bool)
  /-- REGISTER_WRITE (R7) -/
  | registerWrite (kind idx priv addr : Nat) (data : List Byte)
  /-- RC_REGISTER_READ (R12) -/
  | rcRegisterRead (kind idx priv addr len : Nat)
  /-- MSIX_UNMASK (R71) -/
  | msixUnmask (func vector : Nat)
  /-- MSIX_MODERATION_TIMEOUT (R71) -/
  | msixModerationTimeout (func vector : Nat)
  /-- HOST_SET_EVENT_RING (R67) -/
  | hostSetEventRing (r : Req) (addr log : Nat)
  /-- HOST_SET_VECTORS (R70) -/
  | hostSetVectors (r : Req) (counts : List Nat)
  /-- HOST_SET_MODERATION (R71) -/
  | hostSetModeration (r : Req) (vector count time : Nat)
  /-- HOST_ASSIGN_QUEUES (R42) -/
  | hostAssignQueues (r : Req) (owners : List Nat)
  /-- HOST_SET_QUEUE (R77) -/
  | hostSetQueue (r : Req) (queue addr entries dir vector noSnoop : Nat)
  /-- HOST_GET_FUNC_STATS (R77) -/
  | hostGetFuncStats (r : Req)
  /-- HOST_QUEUE_DOORBELL (R355) -/
  | hostQueueDoorbell (func queue value : Nat)
  /-- CAD_PORT_POST (R92) -/
  | cadPortPost (port who : Nat)
  /-- CAD_PORT_CANCEL (R638) -/
  | cadPortCancel (port who : Nat)
  /-- ATC_NOW_LOW_READ (R95) -/
  | atcNowLowRead (requester : Nat)
  /-- CADENCE_ENTRY_FIRE (R88) -/
  | cadenceEntryFire (found : Nat := 0)
  /-- AIR_CARRIER_ADD (R85) -/
  | airCarrierAdd (r : Req) (carrier std bw mu cp off hostCar : Nat)
  /-- AIR_CARRIER_REMOVE (R85) -/
  | airCarrierRemove (r : Req) (carrier : Nat)
  /-- AIR_GET_TIME (R108) -/
  | airGetTime (r : Req) (carrier : Nat)
  /-- CAD_POST (R92) -/
  | cadPost (r : Req) (trigger period count action flags target arg : Nat)
  /-- CAD_CANCEL (R638) -/
  | cadCancel (r : Req) (index : Nat)
  /-- CAD_ASSIGN_PORT (R93) -/
  | cadAssignPort (r : Req) (port owner pool : Nat)
  /-- AIR_SHADOW_ARM (R99) -/
  | airShadowArm (r : Req) (cls inst value : Nat)
  /-- AIR_SHADOW_STATUS (R108) -/
  | airShadowStatus (r : Req) (cls inst : Nat)
  /-- AIR_PLAN_SUBMIT (R104) -/
  | airPlanSubmit (r : Req) (carrier sfn slot flags count override : Nat) (records : List Byte) (times : List Nat) (threads : List Nat := []) (further : List Nat := [])
  /-- AIR_PLAN_CANCEL (R105) -/
  | airPlanCancel (r : Req) (carrier frame slot : Nat)
  /-- PLAN_GAP (R106) -/
  | planGap (carrier slot : Nat)
  /-- LEDGER_CHARGE_EXPIRE (R235) -/
  | ledgerChargeExpire
  /-- NOP (R114) -/
  | nop (c : BCtx) (g : Guard) (slot : Nat)
  /-- ADD (R114) -/
  | add (c : BCtx) (g : Guard) (d a b sub : Nat)
  /-- SUB (R114) -/
  | sub (c : BCtx) (g : Guard) (d a b sub : Nat)
  /-- AND (R114) -/
  | and (c : BCtx) (g : Guard) (d a b sub : Nat)
  /-- OR (R114) -/
  | or (c : BCtx) (g : Guard) (d a b sub : Nat)
  /-- XOR (R114) -/
  | xor (c : BCtx) (g : Guard) (d a b sub : Nat)
  /-- SHL (R114) -/
  | shl (c : BCtx) (g : Guard) (d a b sub : Nat)
  /-- SHR (R114) -/
  | shr (c : BCtx) (g : Guard) (d a b sub : Nat)
  /-- ADDI (R114) -/
  | addi (c : BCtx) (g : Guard) (d a imm : Nat)
  /-- MOVI (R114) -/
  | movi (c : BCtx) (g : Guard) (d imm : Nat)
  /-- MOVL (R115) -/
  | movl (c : BCtx) (g : Guard) (d : Nat)
  /-- CMP (R113) -/
  | cmp (c : BCtx) (g : Guard) (qd cond a b : Nat)
  /-- MAXI (R137) -/
  | maxi (c : BCtx) (g : Guard) (d a b sub : Nat)
  /-- MINI (R137) -/
  | mini (c : BCtx) (g : Guard) (d a b sub : Nat)
  /-- BR (R122) -/
  | br (c : BCtx) (g : Guard) (annul : Bool) (off : Nat)
  /-- CALL (R122) -/
  | call (c : BCtx) (g : Guard) (annul : Bool) (off : Nat)
  /-- JR (R122) -/
  | jr (c : BCtx) (g : Guard) (annul : Bool) (a : Nat)
  /-- REP (R125) -/
  | rep (c : BCtx) (g : Guard) (len : Nat) (rot : Bool) (stg : Nat) (ci : Bool) (cnt : Nat)
  /-- REP_ITERATION_END (R126) -/
  | repIterationEnd (core : Nat)
  /-- CSRR (R138) -/
  | csrr (c : BCtx) (g : Guard) (reg addr : Nat)
  /-- CSRW (R138) -/
  | csrw (c : BCtx) (g : Guard) (reg addr : Nat)
  /-- CSRS (R138) -/
  | csrs (c : BCtx) (g : Guard) (reg addr : Nat)
  /-- CSRC (R138) -/
  | csrc (c : BCtx) (g : Guard) (reg addr : Nat)
  /-- FENCE_W (R146) -/
  | fenceW (c : BCtx) (g : Guard)
  /-- FENCE_I (R114) -/
  | fenceI (c : BCtx) (g : Guard)
  /-- SCADJ (R136) -/
  | scadj (c : BCtx) (g : Guard)
  /-- WAIT (R150) -/
  | wait (c : BCtx) (g : Guard)
  /-- WAIT_RESUME (R150) -/
  | waitResume (core : Nat)
  /-- TRAP (R143) -/
  | trap (c : BCtx) (g : Guard) (code : Nat)
  /-- BREAK (R143) -/
  | brk (c : BCtx) (g : Guard)
  /-- RFE (R144) -/
  | rfe (c : BCtx) (g : Guard)
  /-- LDB (R130) -/
  | ldb (c : BCtx) (g : Guard) (l1 : Bool) (s p m am : Nat) (sx : Bool)
  /-- LDH (R130) -/
  | ldh (c : BCtx) (g : Guard) (l1 : Bool) (s p m am : Nat) (sx : Bool)
  /-- LDW (R130) -/
  | ldw (c : BCtx) (g : Guard) (l1 : Bool) (s p m am : Nat) (sx : Bool)
  /-- LDD (R130) -/
  | ldd (c : BCtx) (g : Guard) (l1 : Bool) (s p m am : Nat) (sx : Bool)
  /-- STB (R130) -/
  | stb (c : BCtx) (g : Guard) (l1 : Bool) (s p m am : Nat)
  /-- STH (R130) -/
  | sth (c : BCtx) (g : Guard) (l1 : Bool) (s p m am : Nat)
  /-- STW (R130) -/
  | stw (c : BCtx) (g : Guard) (l1 : Bool) (s p m am : Nat)
  /-- STD (R130) -/
  | std (c : BCtx) (g : Guard) (l1 : Bool) (s p m am : Nat)
  /-- LDW_D (R114) -/
  | ldwD (c : BCtx) (g : Guard) (l1 : Bool) (s p disp : Nat)
  /-- STW_D (R114) -/
  | stwD (c : BCtx) (g : Guard) (l1 : Bool) (s p disp : Nat)
  /-- PADD (R114) -/
  | padd (c : BCtx) (g : Guard) (l1 : Bool) (pd pa s : Nat)
  /-- PMOD (R131) -/
  | pmod (c : BCtx) (g : Guard) (l1 : Bool) (p m am : Nat)
  /-- PSET (R114) -/
  | pset (c : BCtx) (g : Guard) (l1 : Bool) (pd s : Nat)
  /-- PGET (R114) -/
  | pget (c : BCtx) (g : Guard) (l1 : Bool) (s p : Nat)
  /-- MSET (R114) -/
  | mset (c : BCtx) (g : Guard) (l1 : Bool) (md s : Nat)
  /-- MAC (R117) -/
  | mac (c : BCtx) (g : Guard) (an a b sub : Nat)
  /-- CMAC (R117) -/
  | cmac (c : BCtx) (g : Guard) (an a b sub : Nat)
  /-- MUL (R114) -/
  | mul (c : BCtx) (g : Guard) (d a b sub : Nat)
  /-- MVA (R133) -/
  | mva (c : BCtx) (g : Guard) (d an form : Nat)
  /-- ACLR (R114) -/
  | aclr (c : BCtx) (g : Guard) (an : Nat)
  /-- FAR_LOAD_ANSWER (R121) -/
  | farLoadAnswer (core resp : Nat) (data : List Byte)
  /-- WRITE_BUFFER_ANSWER (R147) -/
  | writeBufferAnswer (core resp : Nat)
  /-- PREEMPT_INTERRUPT (R221) -/
  | preemptInterrupt (core : Nat)
  /-- EVENT_INTERRUPT (R148) -/
  | eventInterrupt (core : Nat)
  /-- IMG_LOAD (R149) -/
  | imgLoad (r : Req) (slot : Nat) (image : List Byte)
  /-- IMG_BIND (R151) -/
  | imgBind (r : Req) (pool slot : Nat)
  /-- IMG_SWAP (R578) -/
  | imgSwap (r : Req) (pool slot prompt : Nat)
  /-- CORE_RELOAD (R578) -/
  | coreReload (core : Nat)
  /-- IMG_SWAPPED (R578) -/
  | imgSwapped (pool : Nat)
  /-- IMG_INFO (R152) -/
  | imgInfo (r : Req) (slot : Nat)
  /-- CORE_GET_STATE (R152) -/
  | coreGetState (r : Req) (core : Nat)
  /-- CORE_RESTART (R151) -/
  | coreRestart (r : Req) (core : Nat)
  /-- VSETVL (R162) -/
  | vsetvl (c : BCtx) (g : Guard) (s v s2 : Nat) (mk : Bool)
  /-- VADD (R162) -/
  | vadd (c : BCtx) (g : Guard) (vd va vb : Nat) (mk : Bool) (sub : Nat)
  /-- VSUB (R162) -/
  | vsub (c : BCtx) (g : Guard) (vd va vb : Nat) (mk : Bool) (sub : Nat)
  /-- VADDS (R162) -/
  | vadds (c : BCtx) (g : Guard) (vd va s : Nat) (mk : Bool) (sub : Nat)
  /-- VAND (R162) -/
  | vand (c : BCtx) (g : Guard) (vd va vb : Nat) (mk : Bool) (sub : Nat)
  /-- VOR (R162) -/
  | vor (c : BCtx) (g : Guard) (vd va vb : Nat) (mk : Bool) (sub : Nat)
  /-- VXOR (R162) -/
  | vxor (c : BCtx) (g : Guard) (vd va vb : Nat) (mk : Bool) (sub : Nat)
  /-- VSHL (R162) -/
  | vshl (c : BCtx) (g : Guard) (vd va s : Nat) (mk : Bool) (sub : Nat)
  /-- VSHR (R162) -/
  | vshr (c : BCtx) (g : Guard) (vd va s : Nat) (mk : Bool) (sub : Nat)
  /-- VMIN (R162) -/
  | vmin (c : BCtx) (g : Guard) (vd va vb : Nat) (mk : Bool) (sub : Nat)
  /-- VMAX (R162) -/
  | vmax (c : BCtx) (g : Guard) (vd va vb : Nat) (mk : Bool) (sub : Nat)
  /-- VABS (R162) -/
  | vabs (c : BCtx) (g : Guard) (vd va vb : Nat) (mk : Bool) (sub : Nat)
  /-- VMERGE (R162) -/
  | vmerge (c : BCtx) (g : Guard) (vd va vb : Nat) (mk : Bool) (sub : Nat)
  /-- VCONJ (R162) -/
  | vconj (c : BCtx) (g : Guard) (vd va vb : Nat) (mk : Bool) (sub : Nat)
  /-- VMUL (R162) -/
  | vmul (c : BCtx) (g : Guard) (vd va vb : Nat) (mk : Bool) (sub : Nat)
  /-- VMULS (R162) -/
  | vmuls (c : BCtx) (g : Guard) (vd va s : Nat) (mk : Bool) (sub : Nat)
  /-- VMAC (R162) -/
  | vmac (c : BCtx) (g : Guard) (vd va vb : Nat) (mk : Bool) (sub : Nat)
  /-- VWMAC (R165) -/
  | vwmac (c : BCtx) (g : Guard) (vd va vb : Nat) (mk : Bool) (sub : Nat)
  /-- VMAG2 (R162) -/
  | vmag2 (c : BCtx) (g : Guard) (vd va vb : Nat) (mk : Bool) (sub : Nat)
  /-- VFADD (R167) -/
  | vfadd (c : BCtx) (g : Guard) (vd va vb : Nat) (mk : Bool) (sub : Nat)
  /-- VFSUB (R167) -/
  | vfsub (c : BCtx) (g : Guard) (vd va vb : Nat) (mk : Bool) (sub : Nat)
  /-- VFMUL (R167) -/
  | vfmul (c : BCtx) (g : Guard) (vd va vb : Nat) (mk : Bool) (sub : Nat)
  /-- VFMA (R162) -/
  | vfma (c : BCtx) (g : Guard) (vd va vb : Nat) (mk : Bool) (sub : Nat)
  /-- VCVT (R168) -/
  | vcvt (c : BCtx) (g : Guard) (vd va vb : Nat) (mk : Bool) (sub : Nat)
  /-- VCMP (R162) -/
  | vcmp (c : BCtx) (g : Guard) (vd va vb : Nat) (mk : Bool) (sub : Nat)
  /-- VSLIDEUP (R162) -/
  | vslideup (c : BCtx) (g : Guard) (vd va s : Nat) (mk : Bool) (sub : Nat)
  /-- VSLIDEDN (R162) -/
  | vslidedn (c : BCtx) (g : Guard) (vd va s : Nat) (mk : Bool) (sub : Nat)
  /-- VZIP (R169) -/
  | vzip (c : BCtx) (g : Guard) (vd va vb : Nat) (mk : Bool) (sub : Nat)
  /-- VBCAST (R162) -/
  | vbcast (c : BCtx) (g : Guard) (s v s2 : Nat) (mk : Bool) (sub : Nat)
  /-- VEXT (R162) -/
  | vext (c : BCtx) (g : Guard) (s v s2 : Nat) (mk : Bool) (sub : Nat)
  /-- VINS (R162) -/
  | vins (c : BCtx) (g : Guard) (s v s2 : Nat) (mk : Bool) (sub : Nat)
  /-- VRSUM (R162) -/
  | vrsum (c : BCtx) (g : Guard) (an va : Nat) (mk : Bool) (sub : Nat)
  /-- VMAXI (R175) -/
  | vmaxi (c : BCtx) (g : Guard) (s v s2 : Nat) (mk : Bool) (sub : Nat)
  /-- VMINI (R175) -/
  | vmini (c : BCtx) (g : Guard) (s v s2 : Nat) (mk : Bool) (sub : Nat)
  /-- VMVA (R166) -/
  | vmva (c : BCtx) (g : Guard) (vd va vb : Nat) (mk : Bool) (sub : Nat)
  /-- VLD (R176) -/
  | vld (c : BCtx) (g : Guard) (l1 : Bool) (v p m am : Nat) (mk : Bool)
  /-- VST (R176) -/
  | vst (c : BCtx) (g : Guard) (l1 : Bool) (v p m am : Nat) (mk : Bool)
  /-- VLDS (R176) -/
  | vlds (c : BCtx) (g : Guard) (l1 : Bool) (v p m am : Nat) (mk : Bool)
  /-- VSTS (R176) -/
  | vsts (c : BCtx) (g : Guard) (l1 : Bool) (v p m am : Nat) (mk : Bool)
  /-- VGATH (R183) -/
  | vgath (c : BCtx) (g : Guard) (l1 : Bool) (v p vi : Nat) (mk : Bool) (sc : Nat)
  /-- VSCAT (R182) -/
  | vscat (c : BCtx) (g : Guard) (l1 : Bool) (v p vi : Nat) (mk : Bool) (sc : Nat)
  /-- VLDR (R176) -/
  | vldr (c : BCtx) (g : Guard) (l1 : Bool) (v p m am : Nat) (mk : Bool)
  /-- VSTR (R176) -/
  | vstr (c : BCtx) (g : Guard) (l1 : Bool) (v p m am : Nat) (mk : Bool)
  /-- COP0 (R200) -/
  | cop0 (c : BCtx) (g : Guard) (fn sa sb tag : Nat)
  /-- COP1 (R200) -/
  | cop1 (c : BCtx) (g : Guard) (fn ps pd sc : Nat)
  /-- COP2 (R201) -/
  | cop2 (c : BCtx) (g : Guard) (fn ps pd sc : Nat)
  /-- POP_R (R189) -/
  | popR (c : BCtx) (g : Guard) (sd : Nat) (mxu : Bool)
  /-- POP_D (R189) -/
  | popD (c : BCtx) (g : Guard) (sd : Nat) (mxu : Bool)
  /-- QUIESCE (R189) -/
  | quiesce (c : BCtx) (g : Guard) (mxu : Bool)
  /-- DISCARD (R189) -/
  | discard (c : BCtx) (g : Guard) (mxu : Bool)
  /-- COPST (R190) -/
  | copst (c : BCtx) (g : Guard) (qd : Nat) (mxu : Bool) (test : Nat)
  /-- COP_UNIT_START (R186) -/
  | copUnitStart (octet : Nat) (mxu : Bool)
  /-- SFU_RESULT_READY (R194) -/
  | sfuResultReady (core : Nat) (parity : Bool := false)
  /-- COP_BLOCK_DONE (R195) -/
  | copBlockDone (core : Nat) (mxu : Bool) (parity : Bool := false)
  /-- READY (R216) -/
  | ready (port : Nat) (flag : Bool) (thread : Nat)
  /-- CANCEL (R216) -/
  | cancel (port thread : Nat)
  /-- BLOCK (R216) -/
  | block (port : Nat) (reset : Bool)
  /-- YIELD (R216) -/
  | yield (port : Nat)
  /-- SPAWN (R217) -/
  | spawn (port : Nat) (flag : Bool) (thread : Nat)
  /-- SETDL (R216) -/
  | setdl (port thread : Nat)
  /-- SADDLE_LOAD (R220) -/
  | saddleLoad (pool : Nat)
  /-- SADDLE_LOAD_COMPLETE (R224) -/
  | saddleLoadComplete (core : Nat)
  /-- THREAD_SWITCH (R222) -/
  | threadSwitch (core : Nat)
  /-- WRITEBACK_DONE (R223) -/
  | writebackDone (core : Nat)
  /-- DEADLINE_MISS (R226) -/
  | deadlineMiss (thread : Nat)
  /-- PEL_POOL_CONFIG (R238) -/
  | pelPoolConfig (r : Req) (pool edfp cap : Nat)
  /-- PEL_RESIZE (R227) -/
  | pelResize (r : Req) (pool prompt mask : Nat)
  /-- RESIZE_DONE (R228) -/
  | resizeDone (pool : Nat)
  /-- PEL_THREAD_SET (R208) -/
  | pelThreadSet (r : Req) (thread pool band misspol flags escband ctxHome entry arg0 arg1 est user : Nat)
  /-- PEL_THREAD_FREE (R238) -/
  | pelThreadFree (r : Req) (thread : Nat)
  /-- PEL_THREAD_GET (R207) -/
  | pelThreadGet (r : Req) (thread : Nat)
  /-- PEL_OP (R238) -/
  | pelOp (r : Req) (op flag thread deadline arg0 arg1 : Nat)
  /-- PEL_POOL_DISABLE (R230) -/
  | pelPoolDisable (r : Req) (pool mode : Nat)
  /-- POOL_DISABLED (R230) -/
  | poolDisabled (pool : Nat)
  /-- PEL_POOL_ENABLE (R230) -/
  | pelPoolEnable (r : Req) (pool : Nat)
  /-- PEL_LEDGER_GET (R238) -/
  | pelLedgerGet (r : Req) (pool first count : Nat)
  /-- PEL_TRACE_SET (R236) -/
  | pelTraceSet (r : Req) (addr log2 mode events pools : Nat)
  /-- ENG_RING_DOORBELL (R243) -/
  | engRingDoorbell (who ring prod : Nat)
  /-- DESCRIPTOR_FETCH (R245) -/
  | descriptorFetch (ring : Nat)
  /-- JOB_START (R247) -/
  | jobStart (eng : Nat)
  /-- JOB_LATE (R249) -/
  | jobLate (ring : Nat)
  /-- JOB_END (R250) -/
  | jobEnd (eng : Nat) (parity : Bool := false)
  /-- ENG_RING_SET (R270) -/
  | engRingSet (r : Req) (ring cls mask prio owner pool base log2 : Nat)
  /-- ENG_RING_STATUS (R270) -/
  | engRingStatus (r : Req) (ring : Nat)
  /-- ENG_DISABLE (R269) -/
  | engDisable (r : Req) (mask mode : Nat)
  /-- ENG_ENABLE (R268) -/
  | engEnable (r : Req) (mask : Nat)
  /-- ENG_RING_DISABLE (R269) -/
  | engRingDisable (r : Req) (ring mode : Nat)
  /-- ENG_RING_ENABLE (R268) -/
  | engRingEnable (r : Req) (ring : Nat)
  /-- ENG_DISABLED (R269) -/
  | engDisabled (isRing : Bool) (ring : Nat)
  /-- ENG_GET_STATS (R270) -/
  | engGetStats (r : Req) (engine : Nat)
  /-- ENG_HARQ_CONFIG (R265) -/
  | engHarqConfig (r : Req) (func base size : Nat)
  /-- ENG_CLASS_CONFIG (R264) -/
  | engClassConfig (r : Req) (cls cap : Nat)
  /-- FE_STREAM_SET (R277) -/
  | feStreamSet (r : Req) (stream carrier fin fout hb rs side leadTx lagRx : Nat)
  /-- FE_SHADOW_WRITE (R278) -/
  | feShadowWrite (r : Req) (stream dir mask sectEn gain phase dlyInt dlyFrac mute : Nat)
  /-- FE_CASSETTE_WRITE (R283) -/
  | feCassetteWrite (r : Req) (stream dir cas mask : Nat) (coefs : List Nat)
  /-- FE_SHIFT (R286) -/
  | feShift (r : Req) (stream dir target len notify : Nat)
  /-- CASSETTE_DONE (R284) -/
  | cassetteDone (stream dir : Nat)
  /-- FE_STATUS (R298) -/
  | feStatus (r : Req) (stream dir : Nat)
  /-- FE_DETECT_SET (R294) -/
  | feDetectSet (r : Req) (stream dir det tap k att dec hi lo : Nat)
  /-- FE_DETECT_READ (R298) -/
  | feDetectRead (r : Req) (stream dir : Nat)
  /-- FE_GET_DELAY (R293) -/
  | feGetDelay (r : Req) (stream dir : Nat)
  /-- FE_STREAM_REMOVE (R277) -/
  | feStreamRemove (r : Req) (stream : Nat)
  /-- DETECT_WINDOW_END (R295) -/
  | detectWindowEnd (stream dir : Nat) (rms : Bool)
  /-- FE_ENVELOPE (R296) -/
  | feEnvelope (stream dir : Nat)
  /-- RESAMPLER_REANCHOR (R292) -/
  | resamplerReanchor (stream dir : Nat)
  /-- CMP_SHADOW_WRITE (R640) -/
  | cmpShadowWrite (r : Req) (stream dir mask mode m mMin mMax bound : Nat)
  /-- CMP_STATUS (R316) -/
  | cmpStatus (r : Req) (stream dir : Nat)
  /-- CMP_CLEAR (R316) -/
  | cmpClear (r : Req) (stream dir : Nat)
  /-- FABRIC_REQUEST (R322) -/
  | fabricRequest (src sport type pri tag addr len : Nat) (data : List Byte) (peer kind idx priv errNode errPort replays : Nat)
  /-- FABRIC_RESPONSE (R333) -/
  | fabricResponse
  /-- PACKET_AT_CLOSED_GATE (R339) -/
  | packetAtClosedGate
  /-- GATE_ISOLATED (R340) -/
  | gateIsolated (dom : Nat)
  /-- FAB_LINK_FAULT (R332) -/
  | fabLinkFault (node port : Nat)
  /-- LINK_SELFTEST_DONE (R332) -/
  | linkSelftestDone (node port : Nat) (errors : Bool)
  /-- ROUTE_FLIP (R336) -/
  | routeFlip
  /-- FLIP_HOLD_RELEASE (R336) -/
  | flipHoldRelease
  /-- FAB_EPOCH_RETIRED (R337) -/
  | fabEpochRetired
  /-- FAB_ROUTE_WRITE (R334) -/
  | fabRouteWrite (r : Req) (node bank turns : Nat) (table : List Nat)
  /-- FAB_ROUTE_COMMIT (R336) -/
  | fabRouteCommit (r : Req) (at_ : Nat)
  /-- FAB_ROUTE_STATUS (R346) -/
  | fabRouteStatus (r : Req)
  /-- FAB_PROBE_SET (R342) -/
  | fabProbeSet (r : Req) (probe enable node port dir mode srcLo srcHi destLo destHi pri vc type addrLo addrHi : Nat)
  /-- FAB_TRACE_SET (R344) -/
  | fabTraceSet (r : Req) (addr log mode : Nat)
  /-- FAB_GATE_STATUS (R346) -/
  | fabGateStatus (r : Req) (dom : Nat)
  /-- FAB_LINK_STATUS (R346) -/
  | fabLinkStatus (r : Req) (node port : Nat)
  /-- MOV_DOORBELL (R356) -/
  | movDoorbell (chan prod kind idx priv : Nat)
  /-- RESUME_RETRY (R363) -/
  | resumeRetry (chan kind idx priv : Nat)
  /-- RESUME_SKIP (R363) -/
  | resumeSkip (chan kind idx priv : Nat)
  /-- RESUME_ABORT (R363) -/
  | resumeAbort (chan kind idx priv : Nat)
  /-- DESCRIPTOR_COMPLETE (R357) -/
  | descriptorComplete (chan : Nat) (peer : List Byte)
  /-- MOV_HALTED (R362) -/
  | movHalted (chan : Nat) (peer : List Byte) (cause at_ : Nat) (write : Bool)
  /-- MOV_CHAN_SET (R365) -/
  | movChanSet (r : Req) (chan owner pool base log prio timed deadline srcBase srcSize dstBase dstSize : Nat)
  /-- MOV_CHAN_STATUS (R365) -/
  | movChanStatus (r : Req) (chan : Nat)
  /-- MOV_DISABLE (R364) -/
  | movDisable (r : Req) (chan mode : Nat)
  /-- MOV_ENABLE (R365) -/
  | movEnable (r : Req) (chan : Nat)
  /-- MOV_RESUME (R363) -/
  | movResume (r : Req) (chan action : Nat)
  /-- MOV_DISABLED (R364) -/
  | movDisabled (chan : Nat)
  /-- MOV_FUNC_WINDOW (R365) -/
  | movFuncWindow (r : Req) (func base size : Nat)
  /-- MEM_TESTED (R382) -/
  | memTested (kind unit : Nat) (failed : Bool)
  /-- SPLICE_FLASH_WRITE (R384) -/
  | spliceFlashWrite
  /-- SCRUB_READ (R379) -/
  | scrubRead (cls found : Nat)
  /-- MEM_UE_PERIOD_END (R388) -/
  | memUePeriodEnd (cls : Nat)
  /-- MEM_GET_MAP (R387) -/
  | memGetMap (r : Req)
  /-- MEM_PARTITION_SET (R370) -/
  | memPartitionSet (r : Req) (harq stream : Nat)
  /-- MEM_SCRUB_SET (R380) -/
  | memScrubSet (r : Req) (cls period : Nat)
  /-- MEM_SCRUB_STATUS (R387) -/
  | memScrubStatus (r : Req) (cls : Nat)
  /-- MEM_ERR_STATS (R387) -/
  | memErrStats (r : Req) (cls : Nat)
  /-- MEM_INJECT (R641) -/
  | memInject (r : Req) (addr kind : Nat)
  /-- MEM_SPLICE_LIST (R387) -/
  | memSpliceList (r : Req) (first count : Nat)
  /-- MEM_SPLICE_ADD (R384) -/
  | memSpliceAdd (r : Req) (addr : Nat)
  /-- MEM_REPAIR (R386) -/
  | memRepair (r : Req)
  /-- MEM_REPAIR_DONE (R386) -/
  | memRepairDone (unrepairable : List Nat)
  /-- MEM_SELFTEST (R382) -/
  | memSelftest (r : Req) (addr core cls : Nat)
  /-- SPK_CONFIG (R389) -/
  | spkConfig (r : Req) (spoke port profile fec rate cmp mRange domains timed ueLimit : Nat)
  /-- SPK_ENABLE (R400) -/
  | spkEnable (r : Req) (spoke : Nat)
  /-- SPK_DISABLE (R412) -/
  | spkDisable (r : Req) (spoke mode : Nat)
  /-- SPK_DISABLED (R412) -/
  | spkDisabled (spoke : Nat)
  /-- SPK_STATUS (R423) -/
  | spkStatus (r : Req) (spoke : Nat)
  /-- SPK_GET_LATENCY (R396) -/
  | spkGetLatency (r : Req) (spoke : Nat)
  /-- SPK_MAP_WRITE (R410) -/
  | spkMapWrite (r : Req) (spoke first count : Nat) (entries : List Nat)
  /-- SPK_RESIZE (R413) -/
  | spkResize (r : Req) (spoke port : Nat)
  /-- SPK_RESIZED (R413) -/
  | spkResized (spoke : Nat)
  /-- DETECT_PULSE (R400) -/
  | detectPulse (spoke : Nat) (hit : Bool)
  /-- CDR_LOCK_HELD (R400) -/
  | cdrLockHeld (spoke : Nat)
  /-- PCS_LOCK (R400) -/
  | pcsLock (spoke : Nat) (skewOk : Bool)
  /-- BRINGUP_TIMEOUT (R402) -/
  | bringupTimeout (spoke : Nat)
  /-- RETRY_WAIT_END (R402) -/
  | retryWaitEnd (spoke : Nat)
  /-- CAP_FRAME_SEND (R403) -/
  | capFrameSend (spoke : Nat)
  /-- CAP (R404) -/
  | cap (spoke : Nat) (payload : List Byte)
  /-- CONFIRM (R404) -/
  | confirm (spoke : Nat) (payload : List Byte)
  /-- SPOKE_FAULT (R406) -/
  | spokeFault (spoke kind ue : Nat)
  /-- LANE_SELFTEST_DONE (R407) -/
  | laneSelftestDone (lane : Nat) (errors : Bool)
  /-- LANE_TABLE_APPLY (R399) -/
  | laneTableApply (r : Req) (first count : Nat) (entries : List Byte)
  /-- LANE_TABLE_GET (R423) -/
  | laneTableGet (r : Req) (lane : Nat)
  /-- LANE_LOOP (R416) -/
  | laneLoop (r : Req) (lane loop echo : Nat)
  /-- LANE_PATGEN (R417) -/
  | lanePatgen (r : Req) (lane pat inv user raw : Nat)
  /-- LANE_PATCHK (R418) -/
  | lanePatchk (r : Req) (lane pat inv user enable : Nat)
  /-- LANE_INJECT (R419) -/
  | laneInject (r : Req) (lane point len every : Nat)
  /-- INJECT_INTERVAL (R419) -/
  | injectInterval (lane : Nat) (overlap : Bool)
  /-- LANE_CHK_READ (R418) -/
  | laneChkRead (r : Req) (lane clear : Nat)
  /-- LANE_EYESCAN (R420) -/
  | laneEyescan (r : Req) (lane kind n : Nat)
  /-- EYE_DONE (R422) -/
  | eyeDone (lane : Nat)
  /-- LANE_EYE_READ (R421) -/
  | laneEyeRead (r : Req) (lane : Nat)
  /-- LANE_SELFTEST (R407) -/
  | laneSelftest (r : Req) (lane : Nat)
  /-- FRAME_RECEIVE (R436) -/
  | frameReceive (port : Nat) (frame : List Byte) (symErr : Bool) (fecCorr fecUe : Nat)
  /-- PAUSE_EXPIRE (R447) -/
  | pauseExpire (port prio : Nat)
  /-- STREAM_HOLD_EXPIRE (R448) -/
  | streamHoldExpire (port : Nat)
  /-- FRAME_TRANSMIT (R444) -/
  | frameTransmit (port : Nat)
  /-- TX_UNDERRUN (R445) -/
  | txUnderrun (port : Nat)
  /-- PFC_SEND (R449) -/
  | pfcSend (port : Nat)
  /-- LPI_ENTER (R450) -/
  | lpiEnter (port : Nat)
  /-- LPI_WAKE (R450) -/
  | lpiWake (port : Nat)
  /-- DELAY_MEASUREMENT_TIMEOUT (R451) -/
  | delayMeasurementTimeout (port : Nat)
  /-- STEER_KEEP_EXPIRE (R435) -/
  | steerKeepExpire (port : Nat)
  /-- MAC_PORT_SET (R428) -/
  | macPortSet (r : Req) (port ownMac peerMac tci transport ownIp peerIp udp dscp maxFrame seg : Nat)
  /-- MAC_FILTER_SET (R436) -/
  | macFilterSet (r : Req) (port enable : Nat) (addrs : List Nat) (prom allmc keepBad vlanCheck : Nat)
  /-- MAC_FLOW_SET (R447) -/
  | macFlowSet (r : Req) (port rxPause pfcRx txPfc hold : Nat)
  /-- MAC_LPI_SET (R450) -/
  | macLpiSet (r : Req) (port en idle : Nat)
  /-- MAC_QUEUE_SET (R442) -/
  | macQueueSet (r : Req) (port rx tx : Nat)
  /-- MAC_STEER_WRITE (R435) -/
  | macSteerWrite (r : Req) (port first count : Nat) (entries : List Nat)
  /-- MAC_TXTHRESH_RESET (R446) -/
  | macTxthreshReset (r : Req) (port : Nat)
  /-- MAC_GET_STATS (R452) -/
  | macGetStats (r : Req) (port clear : Nat)
  /-- MAC_DELAY_MEASURE (R451) -/
  | macDelayMeasure (r : Req) (port two id : Nat)
  /-- MAC_PORT_STATUS (R453) -/
  | macPortStatus (r : Req) (port : Nat)
  /-- COP_CONFIG (R456) -/
  | copConfig (r : Req) (spoke mode mask lineAdv timed margin minMargin autoSwap syncWord syncTol syncBase syncStep ramp crcLimit : Nat)
  /-- COP_ENABLE (R486) -/
  | copEnable (r : Req) (spoke : Nat)
  /-- COP_DISABLE (R489) -/
  | copDisable (r : Req) (spoke mode : Nat)
  /-- COP_DISABLED (R489) -/
  | copDisabled (spoke : Nat)
  /-- COP_STATUS (R493) -/
  | copStatus (r : Req) (spoke : Nat)
  /-- COP_MASK_SET (R460) -/
  | copMaskSet (r : Req) (spoke nguard : Nat) (points notches : List Nat)
  /-- COP_LOAD_WRITE (R482) -/
  | copLoadWrite (r : Req) (pair dir force : Nat) (table : List Nat)
  /-- COP_LOAD_READ (R493) -/
  | copLoadRead (r : Req) (pair dir set : Nat)
  /-- COP_SNR_READ (R493) -/
  | copSnrRead (r : Req) (pair dir rp : Nat)
  /-- COP_BURST_SET (R476) -/
  | copBurstSet (r : Req) (pair rpMask : Nat) (plan : List Nat) (down up : Nat)
  /-- COP_PAIRS_SET (R490) -/
  | copPairsSet (r : Req) (spoke mask : Nat)
  /-- COP_PAIRS_DONE (R490) -/
  | copPairsDone (spoke : Nat)
  /-- COP_GET_LATENCY (R467) -/
  | copGetLatency (r : Req) (spoke : Nat)
  /-- COP_GET_STATS (R493) -/
  | copGetStats (r : Req) (pair rp clear : Nat)
  /-- COP_SELFTEST (R488) -/
  | copSelftest (r : Req) (pair : Nat)
  /-- COP_QUALIFY (R492) -/
  | copQualify (r : Req) (pair margin : Nat)
  /-- COP_QUALIFY_DONE (R492) -/
  | copQualifyDone (pair : Nat) (noPeer : Bool)
  /-- LINE_SUPERFRAME (R457) -/
  | lineSuperframe (spoke echo : Nat)
  /-- SYNC_MATCH (R477) -/
  | syncMatch (pair q errs power : Nat)
  /-- HEADER_DECISION (R478) -/
  | headerDecision (pair header : Nat)
  /-- BURST_END (R478) -/
  | burstEnd (pair : Nat)
  /-- LINK_FRAME_RECEIVE (R466) -/
  | linkFrameReceive (pair : Nat) (frame : List Byte)
  /-- COP_BRINGUP_TIMEOUT (R486) -/
  | copBringupTimeout (pair : Nat)
  /-- AUTO_SWAP (R482) -/
  | autoSwap (pair : Nat) (up : Bool)
  /-- COP_DOWN (R487) -/
  | copDown (spoke kind pair : Nat)
  /-- PAIR_SELFTEST_DONE (R488) -/
  | pairSelftestDone (pair : Nat) (pass : Bool)
  /-- TIME_GET (R523) -/
  | timeGet (r : Req)
  /-- TIME_SERVO_SET (R516) -/
  | timeServoSet (r : Req) (profile domain : Nat) (roles : List Nat) (tsin lane lockTh hold : Nat)
  /-- TIME_ADJ_FREQ (R515) -/
  | timeAdjFreq (r : Req) (ftrim : Int)
  /-- TIME_SLEW (R515) -/
  | timeSlew (r : Req) (off : Int) (rate : Nat)
  /-- SLEW_DONE (R515) -/
  | slewDone
  /-- TIME_STEP (R515) -/
  | timeStep (r : Req) (mode arg ns frac : Nat)
  /-- TIME_PORT_SET (R504) -/
  | timePortSet (r : Req) (ports : List Nat)
  /-- TIME_STAMP_READ (R502) -/
  | timeStampRead (r : Req) (port n clear : Nat)
  /-- TIME_TSIN_SET (R509) -/
  | timeTsinSet (r : Req) (input edges wake : Nat)
  /-- TIME_TSIN_READ (R510) -/
  | timeTsinRead (r : Req) (input n clear : Nat)
  /-- TSIN_EDGE (R509) -/
  | tsinEdge (input : Nat) (falling : Bool) (sub : Nat)
  /-- TIME_TSOUT_SET (R512) -/
  | timeTsoutSet (r : Req) (output mode pol ppsW : Nat)
  /-- PPS_PULSE (R512) -/
  | ppsPulse (output : Nat)
  /-- PULSE_END (R514) -/
  | pulseEnd (output : Nat)
  /-- TIME_SYNCE_SET (R520) -/
  | timeSynceSet (r : Req) (output lane div : Nat)
  /-- SYNCE_SQUELCH (R520) -/
  | synceSquelch (output : Nat)
  /-- TIME_UTC_SET (R519) -/
  | timeUtcSet (r : Req) (utc leap second : Nat)
  /-- LEAP_SECOND (R519) -/
  | leapSecond
  /-- SERVO_SOURCE_QUALIFY (R518) -/
  | servoSourceQualify (source parent : Nat) (off : Int)
  /-- SERVO_LOCK (R518) -/
  | servoLock (off : Int)
  /-- SERVO_HOLDOVER (R518) -/
  | servoHoldover (mean : Int)
  /-- SERVO_HOLDOVER_EXPIRE (R518) -/
  | servoHoldoverExpire
  /-- TRUE_MEASURE (R529) -/
  | trueMeasure (kind index gap : Nat) (residual toward : Int)
  /-- TRUE_GAP_EXPIRE (R527) -/
  | trueGapExpire (kind index : Nat)
  /-- TRUE_STALE (R532) -/
  | trueStale (kind index trim : Nat)
  /-- TRIM_STORE (R533) -/
  | trimStore
  /-- TRUE_SET (R536) -/
  | trueSet (r : Req) (kind index enable stale : Nat)
  /-- TRUE_STATUS (R535) -/
  | trueStatus (r : Req) (kind index : Nat)
  /-- TRUE_RESET (R533) -/
  | trueReset (r : Req) (kind index : Nat)
  /-- HEARTBEAT_SEND (R544) -/
  | heartbeatSend
  /-- HEARTBEAT_RECEIVE (R545) -/
  | heartbeatReceive (link group epoch servo : Nat) (captain dissolve : Bool) (boundary seq : Nat) (raw filtered : Int)
  /-- ECHO_EXCHANGE (R544) -/
  | echoExchange (link rtt turn : Nat)
  /-- HEARTBEAT_MISS (R551) -/
  | heartbeatMiss (mean : Int)
  /-- STATUS_FRAME (R551) -/
  | statusFrame (member : Nat) (received joins leaves : Bool) (boundary : Nat)
  /-- HELLO (R541) -/
  | hello (link group id peerLink epoch ident : Nat)
  /-- STOKER_ENTRY (R548) -/
  | stokerEntry
  /-- MEMBER_TIMEOUT (R549) -/
  | memberTimeout (member : Nat)
  /-- HANDBACK_BOUNDARY (R554) -/
  | handbackBoundary (at_ : Nat)
  /-- TANDEM_WINDOW_ACCESS (R557) -/
  | tandemWindowAccess (incoming : Bool) (member : Nat) (write : Bool) (kind idx priv addr len : Nat) (data : List Byte) (peer : Nat)
  /-- TND_GROUP_SET (R539) -/
  | tndGroupSet (r : Req) (group topology n : Nat)
  /-- TND_LINK_SET (R544) -/
  | tndLinkSet (r : Req) (link : Nat) (asym : Int)
  /-- TND_STATUS (R559) -/
  | tndStatus (r : Req)
  /-- TND_LINK_DISABLE (R542) -/
  | tndLinkDisable (r : Req) (link mode : Nat)
  /-- TND_LINK_DISABLED (R542) -/
  | tndLinkDisabled (link : Nat)
  /-- TND_LINK_ENABLE (R559) -/
  | tndLinkEnable (r : Req) (link : Nat)
  /-- TND_WINDOW_SET (R556) -/
  | tndWindowSet (r : Req) (window peer base : Nat)
  /-- TND_EXPORT_SET (R557) -/
  | tndExportSet (r : Req) (range base size mask : Nat)
  /-- TND_STREAM_SET (R555) -/
  | tndStreamSet (r : Req) (stream outlet spoke dirs pcid enable : Nat) (fits : Bool)
  /-- TND_XCHG_SET (R558) -/
  | tndXchgSet (r : Req) (chan owner pool base log prio timed deadline srcBase srcSize dstBase dstSize : Nat)
  /-- TND_HANDBACK (R554) -/
  | tndHandback (r : Req) (boundary : Nat)
  /-- TND_LINK_SELFTEST (R543) -/
  | tndLinkSelftest (r : Req) (link : Nat)
  /-- PAIR_HEARTBEAT (R562) -/
  | pairHeartbeat (pair : Nat)
  /-- PAIR_FAILED (R562) -/
  | pairFailed (pair cause : Nat)
  /-- MGMT_TAKEOVER (R564) -/
  | mgmtTakeover
  /-- CHECKPOINT (R563) -/
  | checkpoint
  /-- MGMT_STANDBY (R566) -/
  | mgmtStandby (pass : Bool)
  /-- MGMT_FATAL (R567) -/
  | mgmtFatal
  /-- MGMT_SUPERVISOR (R569) -/
  | mgmtSupervisor
  /-- WARM_RESTART (R570) -/
  | warmRestart (key : Nat) (go : Bool)
  /-- TRB_CLEAR (R572) -/
  | trbClear (w mask : Nat)
  /-- MGMT_SET (R567) -/
  | mgmtSet (r : Req) (coast persist : Nat)
  /-- MGMT_STATUS (R580) -/
  | mgmtStatus (r : Req)
  /-- MGMT_FAILOVER (R580) -/
  | mgmtFailover (r : Req)
  /-- TRB_LOG_READ (R574) -/
  | trbLogRead (r : Req) (first count source : Nat)
  /-- TRB_LOG_SAVE (R574) -/
  | trbLogSave (r : Req)
  /-- TRB_GET (R580) -/
  | trbGet (r : Req)
  /-- UPD_FW_LOAD (R576) -/
  | updFwLoad (r : Req) (sigOk : Bool) (release ckptVer : Nat)
  /-- UPD_FW_ACTIVATE (R577) -/
  | updFwActivate (r : Req)
  /-- UPD_FW_DONE (R577) -/
  | updFwDone (bootOk : Bool)
  /-- UPD_FW_STATUS (R580) -/
  | updFwStatus (r : Req)
  /-- UPD_ENG_MICROCODE (R579) -/
  | updEngMicrocode (r : Req) (cls mask force : Nat)
  /-- UPD_ENG_DONE (R579) -/
  | updEngDone
  /-- PWR_LEVEL_SET (R586) -/
  | pwrLevelSet (r : Req) (mask level at_ notify : Nat)
  /-- PWR_LEVEL_DONE (R584) -/
  | pwrLevelDone (dom : Nat)
  /-- PWR_SLEEP (R590) -/
  | pwrSleep (r : Req) (mask depth wake : Nat)
  /-- DOMAIN_ACK (R591) -/
  | domainAck (dom : Nat)
  /-- DOMAIN_STOPPED (R590) -/
  | domainStopped (dom : Nat)
  /-- PWR_SLEPT (R590) -/
  | pwrSlept
  /-- PWR_WAKE (R596) -/
  | pwrWake (r : Req) (mask : Nat)
  /-- PWR_WOKE (R596) -/
  | pwrWoke (dom : Nat)
  /-- PWR_STATUS (R600) -/
  | pwrStatus (r : Req)
  /-- PWR_DORMANT_SET (R598) -/
  | pwrDormantSet (r : Req) (mode wake : Nat)
  /-- DORMANT_WAKE (R598) -/
  | dormantWake
  /-- VIN_RISE (R617) -/
  | vinRise (mv : Nat)
  /-- VIN_FALL (R617) -/
  | vinFall (mv : Nat)
  /-- VIN_OVERVOLTAGE (R617) -/
  | vinOvervoltage (mv : Nat)
  /-- POWER_ON_RESET (R602) -/
  | powerOnReset (spliceOk : Bool)
  /-- CLOCK_LOCK (R602) -/
  | clockLock
  /-- BREANO_BOOT (R603) -/
  | breanoBoot (imgOk pairOk : Bool)
  /-- STARTUP_SELFTEST_DONE (R603) -/
  | startupSelftestDone (cores clusters rows rams : List Nat)
  /-- SERVICE_READY (R607) -/
  | serviceReady (standby : Bool)
  /-- STARTUP_STOP (R605) -/
  | startupStop (step reason : Nat)
  /-- STARTUP_TIMEOUT (R603) -/
  | startupTimeout
  /-- RESUME_DONE (R609) -/
  | resumeDone
  /-- RESUME_TIMEOUT (R609) -/
  | resumeTimeout
  /-- DEVICE_PROFILE_SAVE (R608) -/
  | deviceProfileSave (r : Req) (auto wait : Nat)
  /-- DEVICE_STARTUP_STATUS (R611) -/
  | deviceStartupStatus (r : Req)
  /-- DEVICE_RESUME (R609) -/
  | deviceResume (r : Req)
  /-- PFAIL (R619) -/
  | pfail
  /-- SENSOR_REFRESH (R627) -/
  | sensorRefresh (vin iin pin : Nat) (junction dramTemps : List Int)
  /-- THERMAL_SHUTDOWN (R627) -/
  | thermalShutdown (sensor : Nat)
  /-- DEVICE_GET_SENSORS (R633) -/
  | deviceGetSensors (r : Req)
  /-- DEVICE_BLOB_WRITE (R630) -/
  | deviceBlobWrite (r : Req) (blob : List Byte)
  /-- DEVICE_BLOB_READ (R633) -/
  | deviceBlobRead (r : Req) (source : Nat)
  /-- CADENCE_CYCLE (R81) -/
  | cadenceCycle
  /-- CHAIN_SAMPLE_ENTRY (R274) -/
  | chainSampleEntry (stream dir : Nat) (present : Bool) (re im : Nat) (buf : Nat := 0)
  /-- COEFFICIENT_UPDATE_REQUEST (R400) -/
  | coefficientUpdateRequest (lane : Nat)
  /-- CHECKER_LOCK (R418) -/
  | checkerLock (lane : Nat)
  /-- CHECKER_LOCK_LOSS (R418) -/
  | checkerLockLoss (lane : Nat)
  /-- PTP_EVENT_MESSAGE (R505) -/
  | ptpEventMessage (port : Nat) (event : Bool) (frame : List Byte)
  /-- VIN_OVERVOLTAGE_CLEAR (R617) -/
  | vinOvervoltageClear (mv : Nat)
  /-- PERST_DEASSERT (R621) -/
  | perstDeassert (port : Nat)
  deriving DecidableEq, Repr

end Sys2Proof
end

