-- ==== Sys2Proof/Decode.lean ====
section
/-! DEFINITION. Commands from words. The command table gives no row any bits: commands are host and block events, not encoded
words; so no word spells one. -/
namespace Sys2Proof

/-- The command that a word of `nbits` bits spells: none, since the table gives no row bits. -/
def decodeTableWord (nbits w : Nat) : Option Instr :=
  match nbits, w with
  | _, _ => none

end Sys2Proof
end

