-- ==== Sys2Proof/Config.lean ====
section
/-! DEFINITION. What the manual leaves open: constants of which nothing is known (log 8). -/
namespace Sys2Proof

/-- The free values, drawn in order: nothing is known of any of them (log 8). -/
opaque Config.freeNat : Nat → Nat

/-- Active bins of a symbol by standard, bandwidth and numerology: the manual refers to 3GPP for them (log 50). -/
opaque Config.activeBins : Nat → Nat → Nat → Nat

/-- The unique device number, sent as IDENT in the spoke handshake (R403); below 2^64 where it is used. -/
opaque Config.ident : Nat

/-- Whether the device sets Relaxed Ordering on the `n`-th access it makes to host memory, where it may (R73). -/
opaque Config.relaxes : Nat → Bool

/-- The half-band filter, which the manual describes and does not list (R289): tap by direction (true for a stage that raises the
rate) and distance from the middle, and how a stage rounds its sum to a chain word. -/
opaque Config.halfTap : Bool → Nat → Int
opaque Config.halfRound : Bool → Int → Int

/-- The prototype filter in ROM (R291): 24-bit tap by RS_PROFILE, phase and place in the phase. -/
opaque Config.protoTap : Nat → Nat → Nat → Nat

/-- The 17-bit magnitude of a sample of power P whose root does not fit 17 bits (R296). -/
opaque Config.envelopeOver : Nat → Nat

/-- The codes of 38.212 and 36.212, which the manual refers to and does not list (R4; log 50): bit by place of the circular buffer
(LDPC, turbo), or of the rate-matched block (polar, TBCC), from the op, the code fields and the block's bits. -/
opaque Config.codeBit : Nat → List Byte → List Bool → Nat → Bool

/-- Where Breano keeps the soft buffer of a HARQ handle, by owning function and handle (R260). -/
opaque Config.harqPlace : Nat → Nat → Nat

/-- What a decoder finds from the soft bits of a block: its bits, and the iterations it runs (R253, R254; log 50). -/
opaque Config.decodedBit : Nat → List Byte → List Int → Nat → Bool
opaque Config.decodeIters : Nat → List Byte → List Int → Nat

/-- A transform before its output scaling (R257, R258), real and imaginary part in units of 2^-32: from the op, what the twiddles
depend on, and the input samples, whose internal rounding the manual does not give (log 156). -/
opaque Config.transform : Nat → List Nat → List (Int × Int) → Nat → Int × Int

/-- The max-log LLR of DETECT (R259) in units of 2^-32, before its shift: from the matrix, the vector, the noise and QM. -/
opaque Config.maxLog : List Nat → List Nat → Nat → Nat → Nat → Int

end Sys2Proof
end

