-- ==== Sys2Proof/Machine/State.lean ====
section
/-! DEFINITION. The state of the block as plain data: every register, table, queue and mode the manual gives it, each
field with its width, the rule that names it, and its reset value; the faults and refusals; and `State.reset`. -/
namespace Sys2Proof.Machine

/-- Why a command stops the machine. No command of this block stops it: the manual gives every command an effect, so
nobody raises this fault; the type stands because a step has three outcomes. Never raised, so safe. -/
inductive Fault where
  /-- Raised by no command (safe). -/
  | none
  deriving DecidableEq, Repr

/-- Why a command has no meaning in this model. -/
inductive Refusal where
  /-- Raised by an arm of `exec` whose command has no meaning yet; it names the command. Safe: the run stops. -/
  | notModelled (mnemonic : String)
  deriving DecidableEq, Repr

/-! ### Tables -/

/-- A sparse table: key and value pairs. The canonical form (`Tab.wf`, Ops) has strictly rising keys and no
entry equal to the table's default. -/
abbrev Tab (α : Type) := List (Nat × α)

/-- How a DRAIN or ABORT disable stands for one unit. [08 R268] -/
inductive Dis where
  | off                                        -- unconfigured or never enabled
  | on                                         -- enabled
  | ending (abort : Bool) (tD : Nat) (tag : Nat) -- disable pending since T_D
  | disabled                                   -- disabled
  deriving DecidableEq, Repr

/-! ### Time -/

/-- The counters of network time and air time, and what only moves with them. -/
structure Clock where
  /-- NTC SEC, 64 bits [17 R495; reset 315,964,819] -/
  sec : Nat := 315964819
  /-- NTC NS, 0-999,999,999 [17 R495; reset 0] -/
  ns : Nat := 0
  /-- NTC remainder below 1 ns, in units of 1/3,072 ns, from which FRAC (16 bits) is read [17 R496; reset 0] -/
  rem : Nat := 0
  /-- ATC, 64 bits, Tc [03 R78, R81; reset 0 (17 R495)] -/
  atc : Nat := 0
  /-- the cadence clock runs (synthesiser locked) [22 R602; reset false] -/
  run : Bool := false
  deriving DecidableEq, Repr

/-! ### Chapter 01: modes, LOOKASIDE, CONFORMANCE -/

/-- Operating modes. [01 R18] -/
inductive Mode where
  | hub | captain | stoker | lookaside | relay | linetest | conformance | dormant
  deriving DecidableEq, Repr

/-- A mode change between acceptance and MODE_DONE. [01 R21-R27] -/
structure PendMode where
  /-- requested mode [01 R21] -/
  target : Mode
  /-- live (true) or drained (false) [01 R21] -/
  live : Bool
  /-- live boundary, or drain boundary D, ATC [01 R23, R24] -/
  boundary : Nat
  /-- TAG of the command [02 R61] -/
  tag : Nat
  /-- the drain boundary has been acted on [01 R26] -/
  drained : Bool := false
  /-- the 25 ms abort has been acted on [01 R26] -/
  aborted : Bool := false
  /-- requested by auto-resume [22 R609; 19 R548] -/
  auto : Bool := false
  deriving DecidableEq, Repr

/-- One LOOKASIDE binding with its counters. [01 R29-R31, R37] -/
structure LookBind where
  /-- host-mover channel, 0xFFFF when unbound [01 R29; reset 0xFFFF] -/
  chan : Nat := 0xFFFF
  /-- domain: 0 time, 1 frequency [01 R29; reset 0] -/
  domain : Nat := 0
  /-- messages, 64 bits [01 R37; reset 0] -/
  messages : Nat := 0
  /-- LOOK_NOBUF, 32 bits [01 R30; reset 0] -/
  noBuf : Nat := 0
  /-- LOOK_BADID, 32 bits [01 R31; reset 0] -/
  badId : Nat := 0
  /-- BADLEN, 32 bits [01 R37; reset 0] -/
  badLen : Nat := 0
  /-- FMT_MISMATCH, 32 bits [01 R37; reset 0] -/
  fmtMismatch : Nat := 0
  deriving DecidableEq, Repr

/-- A carrier's CONFORMANCE source. [01 R33] -/
structure ConfSrc where
  /-- 0 slot plans, 1 test model, 2 stored vector [01 R33; reset 0] -/
  source : Nat := 0
  /-- test-model code [01 R33; reset 0] -/
  model : Nat := 0
  /-- physical cell ID [01 R34; reset 0] -/
  pci : Nat := 0
  /-- vector slot [01 R35; reset 0] -/
  vslot : Nat := 0
  /-- start frame boundary, ATC [01 R34, R35; reset 0] -/
  start : Nat := 0
  deriving DecidableEq, Repr

/-- A stored vector. [01 R35] -/
structure VecSlot where
  /-- tracks, 1-16; 0 for an empty slot [01 R35; reset 0] -/
  tracks : Nat := 0
  /-- frames, 1-64 [01 R35; reset 0] -/
  frames : Nat := 0
  /-- air rate in kS/s [01 R35; reset 0] -/
  rate : Nat := 0
  /-- bytes stored [01 R35, R37; reset 0] -/
  bytes : Nat := 0
  /-- the samples: track after track, frame after frame, cint16 [01 R35; reset empty] -/
  data : List Byte := []
  deriving DecidableEq, Repr

/-- An armed or running capture. [01 R36] -/
structure Capture where
  /-- stream captured [01 R36] -/
  stream : Nat
  /-- frame boundary, ATC [01 R36] -/
  start : Nat
  /-- frames, 1-16 [01 R36] -/
  frames : Nat
  /-- TAG of the command [02 R61] -/
  tag : Nat
  /-- bytes stored so far [01 R36] -/
  stored : Nat := 0
  /-- ATC of the first captured sample [01 R38] -/
  first : Nat := 0
  deriving DecidableEq, Repr

structure DevMode where
  /-- current mode, 8 codes [01 R18; reset DORMANT (R19 gives it at service-ready; DESIGN CHOICE before, log 2)] -/
  mode : Mode := .dormant
  /-- ATC at which the current mode took effect [01 R21, R37; reset 0 DESIGN CHOICE log 2] -/
  since : Nat := 0
  /-- pending mode change [01 R27; reset none] -/
  pend : Option PendMode := none
  /-- LOOKASIDE bindings by 2 x stream + direction [01 R29; reset unbound] -/
  look : Tab LookBind := []
  /-- CONFORMANCE source by carrier [01 R33; reset slot plans] -/
  conf : Tab ConfSrc := []
  /-- the 16 vector slots [01 R35; reset empty] -/
  vec : Tab VecSlot := []
  /-- the armed capture [01 R36; reset none] -/
  capture : Option Capture := none
  /-- units a mode change has disabled and a later one enables again: kind (0 engine, 1 pool, 2 serial spoke or tandem
  link, 3 copper spoke) and index [01 R26; reset none] -/
  drained : List (Nat × Nat) := []
  /-- D of the drained change that took effect last: slots that end after it and began before `since` have no gap [01 R25;
  reset none] -/
  drainedAt : Option Nat := none
  /-- slots of test-model carriers whose plan the ledger has refused: carrier, frame, slot [01 R34; reset none] -/
  refused : List (Nat × Nat × Nat) := []
  deriving DecidableEq, Repr

/-! ### Chapter 02: host link and mailbox -/

/-- A command slot handed to the device and not yet answered. [02 R55-R59, R63] -/
structure Waiting where
  /-- function that owns the mailbox page [02 R57] -/
  page : Nat
  /-- slot 0-15 [02 R55] -/
  slot : Nat
  /-- CODE [02 R55] -/
  code : Nat
  /-- TAG [02 R55] -/
  tag : Nat
  /-- FLAGS, 16 bits [02 R56] -/
  flags : Nat
  /-- FUNC [02 R57] -/
  func : Nat
  /-- request buffer address (REF) [02 R63] -/
  reqAddr : Nat
  /-- request buffer length (REF) [02 R63] -/
  reqLen : Nat
  /-- response buffer address (REF) [02 R63] -/
  respAddr : Nat
  /-- response buffer length (REF) [02 R63] -/
  respLen : Nat
  /-- ATC at which the doorbell landed [02 R59, R61] -/
  rung : Nat
  /-- the header is refused with this STATUS and DETAIL once the slot may start [02 R55-R57, R63, R76, R637] -/
  refuse : Option (Nat × Nat) := none
  deriving DecidableEq, Repr

/-- One MSI-X vector of one function. [02 R70, R71; 03 PCI Express table layout, log 4] -/
structure Vect where
  /-- message address, 64 bits [02 R48; reset 0 PRESUMED log 4] -/
  addr : Nat := 0
  /-- message data, 32 bits [02 R48; reset 0 PRESUMED log 4] -/
  data : Nat := 0
  /-- mask bit of the vector control word [02 R71; reset 1 PRESUMED log 4] -/
  masked : Bool := true
  /-- PBA bit [02 R71; reset 0] -/
  pba : Bool := false
  /-- moderation count, 1-255 [02 R71; reset 1 DESIGN CHOICE log 4] -/
  count : Nat := 1
  /-- moderation time in us [02 R71; reset 0 DESIGN CHOICE log 4] -/
  time : Nat := 0
  /-- causes pending [02 R71; reset 0] -/
  causes : Nat := 0
  /-- ATC of the first pending cause [02 R71; reset 0] -/
  first : Nat := 0
  deriving DecidableEq, Repr

/-- A message-signalled interrupt the device has sent. [02 R60, R71] -/
structure Msix where
  /-- function [02 R70] -/
  func : Nat
  /-- vector [02 R70] -/
  vector : Nat
  deriving DecidableEq, Repr

/-- An event as posted, before it is laid out in a ring entry. [02 R66] -/
structure Event where
  /-- event code [02 R66] -/
  code : Nat
  /-- function the event concerns [02 R66] -/
  func : Nat
  /-- TAG of the command concerned [02 R66] -/
  tag : Nat
  /-- air time of the event [02 R66] -/
  atc : Nat
  /-- the 16 DATA bytes [02 R66] -/
  data : List Byte
  deriving DecidableEq, Repr

/-- One access of the device to host memory (an output of the block). [02 R41, R65, R67, R72, R73] -/
structure LinkAcc where
  /-- function whose Requester ID it carries, PF1 as 16 [02 R41, R65] -/
  func : Nat
  /-- a Memory Write -/
  write : Bool
  /-- host address -/
  addr : Nat
  /-- bytes -/
  len : Nat
  /-- No Snoop attribute [02 R72] -/
  noSnoop : Bool
  /-- Relaxed Ordering attribute, never on a write [02 R73] -/
  relaxed : Bool
  deriving DecidableEq, Repr

/-- The per-function interface: function 0 is PF0, 1-15 the virtual functions, 16 PF1. -/
structure Func where
  /-- event ring address; 0 while none is configured [02 R67; reset 0] -/
  ringAddr : Nat := 0
  /-- log2 of ring entries, 6-16 [02 R67, R77; reset 0] -/
  ringLog : Nat := 0
  /-- EVT_PROD, 16 bits [02 R68; reset 0] -/
  prod : Nat := 0
  /-- EVT_CONS, 16 bits [02 R68; reset 0] -/
  cons : Nat := 0
  /-- PHASE of the next entry [02 R67; reset 1] -/
  phase : Bool := true
  /-- events held while the ring is full, at most 256 [02 R68; reset empty] -/
  held : List Event := []
  /-- events dropped since the held ones, reported by EVENTS_LOST [02 R68; reset 0] -/
  lostRun : Nat := 0
  /-- EVT_LOST, 32 bits, RC [02 R52; reset 0] -/
  evtLost : Nat := 0
  /-- EVT_LOST total of HOST_GET_FUNC_STATS, 32 bits [02 R77; reset 0] -/
  evtLostTotal : Nat := 0
  /-- DB_BAD, 32 bits, RC [02 R52, R58; reset 0] -/
  dbBad : Nat := 0
  /-- DB_BAD total, 32 bits [02 R77; reset 0] -/
  dbBadTotal : Nat := 0
  /-- commands completed, 64 bits [02 R77; reset 0] -/
  completed : Nat := 0
  /-- commands refused, 32 bits [02 R77; reset 0] -/
  refused : Nat := 0
  /-- MB_OWNED, 16 bits [02 BAR0 0x1004; reset 0] -/
  owned : BitVec 16 := 0
  /-- SNAP_SEQ, 32 bits [02 R54; reset 0] -/
  snapSeq : Nat := 0
  /-- SNAP_SEC, 64 bits [02 R54; reset 0] -/
  snapSec : Nat := 0
  /-- SNAP_NS, 32 bits [02 R54; reset 0] -/
  snapNs : Nat := 0
  /-- SNAP_FRAC, 16 bits [02 R54; reset 0] -/
  snapFrac : Nat := 0
  /-- SNAP_ATC, 64 bits [02 R54; reset 0] -/
  snapAtc : Nat := 0
  /-- capture in progress: SEC, NS, FRAC, ATC captured [02 R54; reset none] -/
  snapBusy : Option (Nat × Nat × Nat × Nat) := none
  /-- vectors given by HOST_SET_VECTORS [02 R70; reset 128, or 64 for PF0 and PF1 in 2 x x8] -/
  vectors : Nat := 128
  /-- the MSI-X table of the function [02 R48; reset every vector masked] -/
  vect : Tab Vect := []
  /-- Enable No Snoop of Device Control [02 R72; reset true PRESUMED log 4] -/
  noSnoopEn : Bool := true
  /-- Enable Relaxed Ordering of Device Control [02 R73; reset true PRESUMED log 4] -/
  relaxEn : Bool := true
  /-- Max_Payload_Size of Device Control, 128 x 2^n bytes, n = 0-2 [02 R39; reset 0 PRESUMED log 4] -/
  mps : Nat := 0
  /-- Max_Read_Request_Size of Device Control, 128 x 2^n bytes, n = 0-5 [02 R39; reset 2 PRESUMED log 4] -/
  mrrs : Nat := 2
  deriving DecidableEq, Repr

structure HostIf where
  /-- functions 0-15 and PF1 as 16 [02 R43] -/
  funcs : Tab Func := []
  /-- mailbox pages: byte at 4,096 x function + offset [02 R48; reset 0 DESIGN CHOICE log 1] -/
  mb : Tab Byte := []
  /-- slots handed over and unanswered, in order of arrival [02 R59; reset empty] -/
  waiting : List Waiting := []
  /-- function served last, for round-robin [02 R59; reset 0] -/
  lastServed : Nat := 0
  /-- BAR2_WIN of PF0, 3 bits [02 R52, R53; reset 0] -/
  bar2Win : Nat := 0
  /-- VF Enable (SR-IOV capability) [02 R47, R70; reset false] -/
  vfEnable : Bool := false
  /-- MSI-X messages sent, newest last (an output of the block) [02 R60] -/
  msix : List Msix := []
  /-- the PCI Express link of port 0, port 1 is up [02 R47; 23 R621; reset false] -/
  linkUp : Bool × Bool := (false, false)
  /-- rate of the link of port 0, port 1: 1 for 2.5 GT/s to 6 for 64 GT/s, 0 while it is down [02 R39; reset 0] -/
  linkRate : Nat × Nat := (0, 0)
  /-- lanes of the link of port 0, port 1, 0 while it is down [02 R39; reset 0] -/
  linkWidth : Nat × Nat := (0, 0)
  /-- accesses made to host memory, newest last (an output of the block) [02 R65, R72, R73] -/
  link : List LinkAcc := []
  /-- PERST0_N, PERST1_N asserted [23 R621; reset true DESIGN CHOICE log 3] -/
  perst : Bool × Bool := (true, true)
  /-- 2 x x8 operation, read once at power-on [02 R40; 23 R631; reset false] -/
  twoX8 : Bool := false
  /-- host-mover channel owners: function by channel 0-63, 0xFF none [02 R77; reset 0xFF DESIGN CHOICE log 5] -/
  qOwner : Tab Nat := []
  /-- host-mover channel port by channel [02 R41, R42; reset 0] -/
  qPort : Tab Nat := []
  /-- host memory as the link reads and writes it: byte by address [02 R63-R68; outside the device, log 6] -/
  mem : Tab Byte := []
  /-- high word of ATC_NOW latched per requester [03 R95; reset none] -/
  atcLatch : Tab Nat := []
  /-- the last read completed outside a packet: PCI Express status (0 SC, 1 UR, 2 RRS, 4 CA, 8 SC with EP) and data (an
  output) [02 R636; 22 R604] -/
  cpl : Option (Nat × List Byte) := none
  deriving DecidableEq, Repr

/-! ### Chapter 03: carriers, Cadence, shadow sets, plans -/

/-- A configured carrier. [03 R82-R85, R108] -/
structure Carrier where
  /-- owning function [02 R43] -/
  owner : Nat
  /-- 1 NR, 2 LTE, 3 LTE-M, 4 NB-IoT [03 R108] -/
  std : Nat
  /-- bandwidth in 100 kHz [03 R85] -/
  bw : Nat
  /-- numerology mu [03 R82] -/
  mu : Nat
  /-- extended cyclic prefix [03 R82] -/
  ext : Bool
  /-- offset O in Tc [03 R82] -/
  off : Nat
  /-- host carrier, 0xFFFF for none [03 R85] -/
  hostCar : Nat
  /-- index of the standing mark's Cadence entry [03 R101] -/
  mark : Nat
  /-- slots whose start has been acted on: next absolute slot that PLAN_GAP examines [03 R106] -/
  nextSlot : Nat := 0
  /-- transmission has been ramped off with the device's (R24, R567) -/
  stopped : Bool := false
  /-- its function was reset: it stops at the end of the last admitted slot, at this ATC (R46, R47; log 34) -/
  stopAt : Option Nat := none
  deriving DecidableEq, Repr

/-- A Cadence entry as posted. [03 R86] -/
structure CadEntry where
  /-- next trigger, ATC [03 R86, R88] -/
  trigger : Nat
  /-- PERIOD [03 R86] -/
  period : Nat
  /-- COUNT, 0 for no limit [03 R86] -/
  count : Nat
  /-- ACTION [03 R87] -/
  action : Nat
  /-- FLAGS [03 R86] -/
  flags : Nat
  /-- TARGET [03 R87] -/
  target : Nat
  /-- ARG [03 R87] -/
  arg : Nat
  /-- firings so far [03 R109] -/
  fired : Nat := 0
  /-- ATC of the cycle in which the late firing of a late post is due, 0 for none [03 R92] -/
  lateAt : Nat := 0
  /-- the poster's event ring: function; PF0 for signal-core programs [03 R91] -/
  poster : Nat := 0
  /-- standing mark kept by Breano [03 R101] -/
  standing : Bool := false
  /-- entry was delayed and counted in CAD_CROWD [03 R89] -/
  crowded : Bool := false
  deriving DecidableEq, Repr

/-- One post port of the Cadence post window. [03 R93] -/
structure PostPort where
  /-- TRIGGER, 64 bits [03 R93; reset 0] -/
  trigger : Nat := 0
  /-- PERIOD, 32 bits [03 R93; reset 0] -/
  period : Nat := 0
  /-- COUNT, 32 bits [03 R93; reset 0] -/
  count : Nat := 0
  /-- FLAGS, 8 bits [03 R93; reset 0] -/
  flags : Nat := 0
  /-- ACTION, 8 bits [03 R93; reset 0] -/
  action : Nat := 0
  /-- TARGET, 32 bits [03 R93; reset 0] -/
  target : Nat := 0
  /-- ARG, 64 bits [03 R93; reset 0] -/
  arg : Nat := 0
  /-- INDEX, 13 bits [03 R93; reset 0] -/
  index : Nat := 0
  /-- DONE [03 R94; reset 1] -/
  done : Bool := true
  /-- RESULT and RES_INDEX of the post or cancel in progress, shown once it completes [03 R94; reset 0, 0] -/
  fin : Nat × Nat := (0, 0)
  /-- RES_INDEX, 13 bits [03 R93; reset 0] -/
  resIndex : Nat := 0
  /-- RESULT, 4 bits [03 R93; reset 0] -/
  result : Nat := 0
  /-- owner: 0 PF0, 1 pool, 0xFF none; Breano for ports 0-3 [03 R93; reset 0xFF DESIGN CHOICE log 7] -/
  owner : Nat := 0xFF
  /-- owning pool [03 R108; reset 0] -/
  pool : Nat := 0
  deriving DecidableEq, Repr

/-- Control part of one shadowed instance. [03 R96-R100] -/
structure Shadow where
  /-- ARM [03 R97; reset 0] -/
  arm : Bool := false
  /-- SEQ, 16 bits [03 R97; reset 0] -/
  seq : Nat := 0
  /-- MISSED, 32 bits [03 R97; reset 0] -/
  missed : Nat := 0
  /-- ATC of the last copy [03 R108; reset 0] -/
  lastCopy : Nat := 0
  /-- ATC of the cycle of the last mark [03 R97, R100; reset none] -/
  markAt : Option Nat := none
  /-- the mark at `markAt` has already been acted on with EXPECT [03 R97; reset false] -/
  expected : Bool := false
  /-- writes accepted of ARM or SHADOW: landing cycle, and ARM from then on [03 R97, R99, R100; reset none] -/
  next : List (Nat × Bool) := []
  deriving DecidableEq, Repr

/-- A job Breano is to post for an admitted plan. [08 R260, R263] -/
structure PlanJob where
  /-- class [08 R260] -/
  cls : Nat
  /-- op [08 R260] -/
  op : Nat
  /-- the 96-byte parameter block, addresses not filled in [08 R260] -/
  body : List Byte
  /-- release ATC, 0 for the admission time [07 R231] -/
  release : Nat
  /-- deadline ATC [07 R231] -/
  deadline : Nat
  deriving DecidableEq, Repr

/-- A slot plan that was admitted and not removed: admitted while it has charges, and kept until its slot is past.
[03 R103-R107] -/
structure Plan where
  /-- carrier [03 R107] -/
  carrier : Nat
  /-- frame number k [03 R103] -/
  frame : Nat
  /-- slot within the frame [03 R107] -/
  slot : Nat
  /-- ledger charges of the plan [07 R231] -/
  charges : List (Nat × Nat × Nat × Nat)
  /-- jobs not yet posted on a ring [08 R260; reset none] -/
  jobs : List PlanJob := []
  deriving DecidableEq, Repr

structure Air where
  /-- carriers 0-511 [03 R108; reset none configured] -/
  carriers : List (Nat × Carrier) := []
  /-- the 8,192 Cadence entries [03 R86; reset empty] -/
  cad : List (Nat × CadEntry) := []
  /-- post ports 0-63 [03 R93] -/
  ports : Tab PostPort := []
  /-- CAD_LATE, 32 bits, RC [03 R93; reset 0] -/
  cadLate : Nat := 0
  /-- CAD_CROWD, 32 bits, RC [03 R89; reset 0] -/
  cadCrowd : Nat := 0
  /-- CAD_ASLEEP, 32 bits, RC [03 R90; reset 0] -/
  cadAsleep : Nat := 0
  /-- firings made in the current cadence cycle, at most 16 [03 R89; reset 0] -/
  firedNow : Nat := 0
  /-- shadow control by 2^28 x class + instance [03 R96; reset ARM 0, SEQ 0, MISSED 0] -/
  shadow : Tab Shadow := []
  /-- admitted plans [03 R105; reset none] -/
  plans : List Plan := []
  deriving DecidableEq, Repr

/-! ### Chapters 04, 05, 06: signal cores, vectors, coprocessors -/

/-- Three-register integer operations of slot X. [04 R114] -/
inductive AluOp where
  | add | sub | and | or | xor | shl | shr | maxi | mini
  deriving DecidableEq, Repr

/-- Accumulator operations of slot V. [04 R114] -/
inductive AccOp where
  | mac | cmac | aclr
  deriving DecidableEq, Repr

/-- CSR access kinds. [04 R113] -/
inductive CsrOp where
  | r | w | s | c
  deriving DecidableEq, Repr

/-- Vector operations of the VV format. [05 R162] -/
inductive VvOp where
  | add | sub | and | or | xor | min | max | abs | merge | conj | mul | mac | wmac | mag2 | fadd | fsub | fmul | fma
  | cvt | cmp | zip | mva
  deriving DecidableEq, Repr

/-- Vector operations of the VS format. [05 R162] -/
inductive VsOp where
  | adds | shl | shr | muls | slideup | slidedn
  deriving DecidableEq, Repr

/-- Vector operations of the VX format. [05 R162] -/
inductive VxOp where
  | setvl | bcast | ext | ins | maxi | mini
  deriving DecidableEq, Repr

/-- One decoded syllable. [04 R113, R114; 05 R161; 06 R188] -/
inductive Syl where
  | nop
  | alu (op : AluOp) (d a b sub : Nat)
  | addi (d a imm : Nat)
  | movi (d imm : Nat)
  | movl (d lit : Nat)
  | cmp (qd cond a b : Nat)
  | br (call annul : Bool) (off : Nat)
  | jr (annul : Bool) (a : Nat)
  | rep (len : Nat) (rot : Bool) (stg : Nat) (ci : Bool) (cnt : Nat)
  | csr (op : CsrOp) (reg addr : Nat)
  | fenceW | fenceI | scadj | wait
  | trap (code : Nat)
  | brk | rfe
  | ld (size : Nat) (s p m am : Nat) (sx : Bool)
  | st (size : Nat) (s p m am : Nat)
  | ldwD (s p disp : Nat)
  | stwD (s p disp : Nat)
  | padd (pd pa s : Nat)
  | pmod (p m am : Nat)
  | pset (pd s : Nat)
  | pget (s p : Nat)
  | mset (md s : Nat)
  | acc (op : AccOp) (an a b sub : Nat)
  | mul (d a b sub : Nat)
  | mva (d an form : Nat)
  | vv (op : VvOp) (vd va vb : Nat) (msk : Bool) (sub : Nat)
  | vs (op : VsOp) (vd va s : Nat) (msk : Bool) (sub : Nat)
  | vx (op : VxOp) (s v s2 : Nat) (msk : Bool) (sub : Nat)
  | vrsum (an va : Nat) (msk : Bool) (sub : Nat)
  | vld (raw : Bool) (v p m am : Nat) (msk : Bool)
  | vst (raw : Bool) (v p m am : Nat) (msk : Bool)
  | vlds (v p m am : Nat) (msk : Bool)
  | vsts (v p m am : Nat) (msk : Bool)
  | vgath (v p vi : Nat) (msk : Bool) (sc : Nat)
  | vscat (v p vi : Nat) (msk : Bool) (sc : Nat)
  | cop0 (fn sa sb tag : Nat)
  | cop1 (fn ps pd sc : Nat)
  | cop2 (fn ps pd sc : Nat)
  | cop3 (sd : Nat) (mxu : Bool) (sub : Nat)
  | copst (qd : Nat) (mxu : Bool) (test : Nat)
  | illegal
  deriving DecidableEq, Repr

/-- A bundle as decoded: slot X, L0, L1, V with their guards. [04 R112] -/
structure Bundle where
  /-- slot X [04 R112] -/
  x : Guard × Syl
  /-- slot L0 [04 R112] -/
  l0 : Guard × Syl
  /-- slot L1 [04 R112] -/
  l1 : Guard × Syl
  /-- slot V [04 R112] -/
  v : Guard × Syl
  deriving DecidableEq, Repr

/-- A register write in flight, naming the physical register chosen at decode. [04 R116, R117, R128, R137] -/
inductive FlyOp where
  | s (n : Nat) (v : Word)
  | p (n : Nat) (v : Nat)
  | m (n : Nat) (v : Word)
  | q (n : Nat) (v : Bool)
  | acc (n : Nat) (set : Bool) (re im : Option Int)       -- add to, or set, the accumulator at its final stage
  | search (lo hi : Nat) (max uns : Bool) (a b : Word)    -- MAXI/MINI step on a pair, at its final stage
  | csr (op : CsrOp) (addr priv : Nat) (v : Word)          -- with the privilege of the writer
  | adjust (upto : Nat) (seen : Bool)                     -- an adjust point for the moves issued before bundle `upto`
  | grow                                                  -- a move sets GROW
  | vstat (fl : Nat)                                      -- a vector result sets its VSTAT flags
  | popped (mxu : Bool) (cmd flags : Nat)                 -- a pop of the command issued in bundle `cmd` commits
  | discard (mxu : Bool)                                  -- DISCARD takes effect
  | v (n lo : Nat) (val mask : Nat)                       -- bits of a vector register from bit lo on
  | vl (v : Nat)
  deriving DecidableEq, Repr

structure Fly where
  /-- bundle number from which the write is visible [04 R116] -/
  land : Nat
  /-- the write [04 R116] -/
  op : FlyOp
  /-- bundle of issue, by which writes that land together are ordered [04 R118] -/
  issued : Nat
  deriving DecidableEq, Repr

/-- A vector operation with beats still to run: everything it read at issue. [05 R162, R170-R172] -/
structure VOp where
  /-- the syllable [05 R162] -/
  syl : Syl
  /-- bundle of issue [05 R171] -/
  b : Nat
  /-- next beat [05 R170] -/
  beat : Nat
  /-- beats in all [05 R170] -/
  beats : Nat
  /-- guard was true [05 R163] -/
  live : Bool
  /-- VTYPE in force at issue [05 R162] -/
  vt : Nat
  /-- G in force at issue [05 R162] -/
  g : Nat
  /-- min(VL, VLMAX) in force at issue [05 R162] -/
  n : Nat
  /-- RRB at issue [04 R128] -/
  rrb : Nat
  /-- SCALE in force at issue [05 R166] -/
  scale : Int
  /-- HEADROOM in force at issue [05 R166] -/
  head : Nat
  /-- S operand or pair read at issue [05 R162] -/
  sv : Nat
  /-- chunks captured so far, in chunk order: Va and Vb of a whole-group operation, and V0 [05 R171, R172] -/
  caps : List (Nat × Nat × Nat) := []
  deriving DecidableEq, Repr

/-- A delay sequence. [04 R122, R143] -/
structure Delay where
  /-- branch target [04 R122] -/
  target : Nat
  /-- the branch was taken [04 R122] -/
  taken : Bool
  /-- the delay bundles are annulled [04 R122] -/
  annul : Bool
  /-- delay bundles still to run [04 R143] -/
  remain : Nat
  deriving DecidableEq, Repr

/-- REP loop state. REP_START, REP_END and REP_CNT are CSRs; the rest is what R129 needs. [04 R125, R126, R129] -/
structure Rep where
  /-- REP_START, 32 bits [04 R126; reset 0] -/
  start : Nat := 0
  /-- REP_END, 32 bits [04 R126; reset 0] -/
  last : Nat := 0
  /-- REP_CNT, 32 bits, 0 while no REP is active [04 R126; reset 0] -/
  cnt : Nat := 0
  /-- ROT of the active REP [04 R129; reset false] -/
  rot : Bool := false
  /-- count of the active REP [04 R129; reset 0] -/
  count : Nat := 0
  /-- iteration j [04 R129; reset 0] -/
  j : Nat := 0
  deriving DecidableEq, Repr

/-- One of the K and M trap register sets. [04 R138, R143] -/
structure TrapSet where
  /-- EPC, 32 bits [04 R138; reset 0] -/
  epc : Word := 0
  /-- CAUSE, 32 bits [04 R138; reset 0] -/
  cause : Word := 0
  /-- EADDR, 48 bits [04 R138; reset 0] -/
  eaddr : Nat := 0
  /-- STATUS, 32 bits [04 R138; reset 0] -/
  status : Word := 0
  /-- DSC_TGT, 32 bits [04 R138; reset 0] -/
  dscTgt : Word := 0
  /-- DSC_CTL: VALID [2], REMAIN [1:0] [04 R140; reset 0] -/
  dscCtl : Word := 0
  /-- REP_START, REP_END, REP_CNT and the rotation state of the interrupted loop [04 R143; reset 0] -/
  rep : Rep := {}
  /-- RRB, 5 bits [04 R138; reset 0] -/
  rrb : Nat := 0
  /-- TVEC, 32 bits [04 R138; reset FW: 0 until an image is bound, DESIGN CHOICE log 11] -/
  tvec : Word := 0
  /-- SCRATCH, 32 bits [04 R138; reset 0] -/
  scratch : Word := 0
  deriving DecidableEq, Repr

/-- A store waiting in the write buffer. [04 R146] -/
structure BufStore where
  /-- device address [04 R146] -/
  addr : Nat
  /-- bytes, at most 128 [04 R146] -/
  bytes : List Byte
  /-- privilege of the store [07 R215] -/
  priv : Nat := 0
  /-- further stored pieces of a vector store's run, each with its address, in element order [05 R181] -/
  more : List (Nat × List Byte) := []
  deriving DecidableEq, Repr

/-- Progress of a coprocessor command. [06 R186, R194] -/
inductive CopStage where
  | waiting | running | done
  deriving DecidableEq, Repr

/-- A command of one core in one unit; it holds its RESULT or DONE slot. [06 R185, R194] -/
structure CopCmd where
  /-- block command (DONE slot), else scalar (RESULT slot) [06 R185] -/
  block : Bool
  /-- function [06 R188] -/
  fn : Nat
  /-- operand a, or the source address [06 R188] -/
  a : Nat
  /-- operand b, or the destination address [06 R188] -/
  b : Nat
  /-- S control word of a block command [06 R188] -/
  ctl : Nat
  /-- tag [06 R188] -/
  tag : Nat
  /-- progress [06 R194] -/
  stage : CopStage
  /-- bundle of issue [06 R185] -/
  issued : Nat := 0
  /-- an issued pop has claimed the entry and has not committed [06 R190, R194] -/
  claimed : Bool := false
  /-- result, or completion status [06 R189, R196] -/
  result : Nat := 0
  /-- flags of the result, or ORed over the elements [06 R199, R200] -/
  flags : Nat := 0
  deriving DecidableEq, Repr

/-- What a core is doing. [04 R150, R151, R152; 13 R381, R382] -/
inductive CoreSt where
  | idle | running | halted | retired
  deriving DecidableEq, Repr

/-- Why a running thread must leave the core at its next switch point. [07 R216, R220, R221] -/
inductive Leave where
  | stay
  | block        -- it issued BLOCK
  | yield        -- it issued YIELD with a preceding saddled thread
  | preempt      -- a preemption request was taken
  | cancel (why : Nat) -- CANCEL (0), a miss cancel (1), an abort (2): the context is discarded
  deriving DecidableEq, Repr

/-- What a saddle holds. [07 R209, R220, R224] -/
inductive SaddleSt where
  | empty
  | loading (t : Nat)
  | full (t : Nat)
  deriving DecidableEq, Repr

structure Core where
  /-- what the core does [04 R152; reset idle] -/
  st : CoreSt := .idle
  /-- S0-S63, 32 bits, physical [04 R110; reset 0 (R111)] -/
  s : Tab Word := []
  /-- A0-A7: real and imaginary halves, 40 bits each, as signed values [04 R110; reset 0 (R111)] -/
  a : Tab (Int × Int) := []
  /-- P0-P15, 48 bits [04 R110; reset 0 (R111)] -/
  p : Tab Nat := []
  /-- M0-M15, 32 bits [04 R110; reset 0 (R111)] -/
  m : Tab Word := []
  /-- Q0-Q15, physical [04 R110; reset Q0 = 1, others 0 (R111)] -/
  q : BitVec 16 := 1
  /-- V0-V31, 4,096 bits, physical [04 R110; 05 R158; reset 0 (R111)] -/
  v : Tab Nat := []
  /-- PC, IM byte offset [04 R111, R151; reset 0] -/
  pc : Nat := 0
  /-- number of the next bundle, by which latencies count [04 R116; reset 0] -/
  n : Nat := 0
  /-- STATUS.TE [04 R139; reset 1] -/
  te : Bool := true
  /-- STATUS.IE [04 R139; reset 0] -/
  ie : Bool := false
  /-- STATUS.PRIV: 0 T, 1 K, 2 M [04 R139; reset 2] -/
  priv : Nat := 2
  /-- RRB, 5 bits [04 R128; reset 0 (R111)] -/
  rrb : Nat := 0
  /-- K trap set: KEPC ... KSCRATCH, TVEC_K [04 R138; reset 0] -/
  k : TrapSet := {}
  /-- M trap set: MEPC ... MSCRATCH, TVEC_M [04 R138; reset 0] -/
  mt : TrapSet := {}
  /-- REP_START, REP_END, REP_CNT [04 R126, R138; reset 0] -/
  rep : Rep := {}
  /-- the last body bundle has issued and the iteration end has not been acted on [04 R126; reset false] -/
  repEnd : Bool := false
  /-- delay sequence [04 R122; reset none] -/
  ds : Option Delay := none
  /-- REPMAX, 1-1,024 [04 R127; reset 1,024] -/
  repmax : Nat := 1024
  /-- SCL, 32 bits [04 R132; reset 0] -/
  scl : Word := 0
  /-- bundles of issue of the moves that have set GROW since it was last clear; a CSR write that sets it counts as one
  [04 R136; reset none] -/
  growBy : List Nat := []
  /-- CBASE0-3, 48 bits [04 R138; reset 0] -/
  cbase : Tab Nat := []
  /-- CLEN0-3, 32 bits [04 R138; reset 0] -/
  clen : Tab Nat := []
  /-- EVPEND, 32 bits [04 R138, R145; reset 0] -/
  evpend : Word := 0
  /-- the bits of EVPEND set last, with the ATC of their cycle: a clear of that cycle leaves them set [04 R145; reset none] -/
  evNow : Nat × Word := (0, 0)
  /-- EVMASK, 32 bits [04 R138, R148; reset 0] -/
  evmask : Word := 0
  /-- SERR, 48 bits [04 R138, R147; reset 0] -/
  serr : Nat := 0
  /-- PRBASE0-7, 32 bits [04 R138; reset 0] -/
  prbase : Tab Nat := []
  /-- PRLIM0-7, 32 bits [04 R138; reset 0] -/
  prlim : Tab Nat := []
  /-- PRPERM, 32 bits [04 R138; reset 0] -/
  prperm : Word := 0
  /-- CYCLE, 64 bits: issued bundles and the stall cycles the manual counts; the others are added where it is read
  [04 R138; reset 0; log 12] -/
  cycle : Nat := 0
  /-- stall cycles of unstated number have passed since CYCLE was last read [04 R121, R150; reset false; log 12] -/
  lost : Bool := false
  /-- ATC_HI latched by a read of ATC_LO [04 R138; reset none, DESIGN CHOICE log 13: reads the current high word] -/
  atcHi : Option Nat := none
  /-- writes in flight, oldest first [04 R116; reset none] -/
  fly : List Fly := []
  /-- vector operation with beats to run [05 R170; reset none] -/
  vop : Option VOp := none
  /-- bundle stalled in E1: far load, draining write buffer, coprocessor [04 R121, R146; 06 R192; reset none] -/
  stalled : Option Bundle := none
  /-- the stalled bundle waits for a coprocessor: COPSTALL counts its cycles [06 R192, R196; reset false] -/
  copWait : Bool := false
  /-- WAIT has stopped issue [04 R150; reset false] -/
  waiting : Bool := false
  /-- write buffer, at most 8 entries [04 R146; reset empty] -/
  wbuf : List BufStore := []
  /-- stores of the last bundle that wait for room in the write buffer: nothing issues while one does [04 R146; 05 R179;
  reset none] -/
  spill : List BufStore := []
  /-- VCFG, 32 bits: GRP [5:4], VTYPE [2:0] [05 R155; reset 0] -/
  vcfg : Word := 0
  /-- VL, 13 bits [05 R154; reset 0] -/
  vl : Nat := 0
  /-- VSTART, 13 bits [05 R154; reset 0] -/
  vstart : Nat := 0
  /-- VSTAT, 32 bits [05 R156; reset 0] -/
  vstat : Word := 0
  /-- COPEN, 32 bits [06 R196, R197; reset 0x66] -/
  copen : Word := 0x66
  /-- COPSTAT, 32 bits [06 R199; reset 0] -/
  copstat : Word := 0
  /-- COPSTALL, 32 bits [06 R192, R196; reset 0] -/
  copstall : Nat := 0
  /-- commands of this core in its SFU, in issue order [06 R185; reset none] -/
  sfu : List CopCmd := []
  /-- commands of this core in its MXU, in issue order [06 R185; reset none] -/
  mxu : List CopCmd := []
  /-- FLAGS of the bound image: bit 0 vector, bit 1 coprocessors [04 R149; 05 R160; 06 R198; reset 0] -/
  imgFlags : Nat := 0
  /-- image slot the core was loaded from, 0xFF none [04 R151; 20 R578; reset 0xFF] -/
  imgSlot : Nat := 0xFF
  /-- a BIST of the core runs [13 R382; reset false] -/
  bist : Bool := false
  /-- pool of the core [07 R205; reset unassigned] -/
  pool : Option Nat := none
  /-- the core is leaving its pool: prompt or not [07 R228; reset none] -/
  leaving : Option Bool := none
  /-- the pool a halted core has left, whose image CORE_RESTART starts [04 R151; reset none] -/
  leftPool : Option Nat := none
  /-- running thread [07 R204; reset none] -/
  thread : Option Nat := none
  /-- the running thread started fresh and its ATC of dispatch [07 R208; reset 0] -/
  dispAt : Nat := 0
  /-- why the running thread is to leave [07 R220; reset stay] -/
  leave : Leave := .stay
  /-- write-backs under way, oldest first: thread, what it becomes (0 IDLE, 1 as BLOCK gives, 2 READY), and the frame
  (0 F0, 1 F1) [07 R223; reset none] -/
  wb : List (Nat × Nat × Nat) := []
  /-- the request has been delivered as interrupt PREEMPT to a TRAPPRE thread [07 R221; reset false] -/
  preTaken : Bool := false
  /-- the saddle [07 R209; reset empty] -/
  saddle : SaddleSt := .empty
  /-- the seat frame is F1 [07 R208 saddle region; reset F0 (R213 SEAT)] -/
  seat1 : Bool := false
  /-- port DONE [07 R214; reset 1] -/
  portDone : Bool := true
  /-- port CODE, 4 bits [07 port; reset 0] -/
  portCode : Nat := 0
  /-- port NEWTHREAD, 16 bits [07 port; reset 0] -/
  portNew : Nat := 0
  /-- port ARG_DL, 64 bits [07 port; reset 0] -/
  argDl : Nat := 0
  /-- port ARG0, 32 bits [07 port; reset 0] -/
  arg0 : Nat := 0
  /-- port ARG1, 32 bits [07 port; reset 0] -/
  arg1 : Nat := 0
  /-- SWITCHES, 32 bits, RC [07 port; reset 0] -/
  switches : Nat := 0
  deriving DecidableEq, Repr

/-- A Holsil image slot. [04 R149] -/
structure Image where
  /-- the whole image: header, text, data [04 R149; reset empty slot] -/
  bytes : List Byte := []
  deriving DecidableEq, Repr

/-- A pending image swap of a pool. [20 R578] -/
structure Swap where
  /-- new image slot [20 R578] -/
  slot : Nat
  /-- prompt [20 R578] -/
  prompt : Bool
  /-- TAG [02 R61] -/
  tag : Nat
  /-- threads that held an old context at T_S and still do [20 R578] -/
  old : List Nat
  /-- threads that have started fresh on a new-image core [20 R578] -/
  fresh : List Nat := []
  /-- cores reloaded since T_S [20 R578] -/
  done : List Nat := []
  deriving DecidableEq, Repr

/-! ### Chapter 07: Peloton -/

/-- A pool. [07 R205, R226, R227, R230, R232] -/
structure Pool where
  /-- EDFP [07 R220; reset false] -/
  edfp : Bool := false
  /-- CAP in percent [07 R232; reset 90] -/
  cap : Nat := 90
  /-- enabled or disabled [07 R230; reset on] -/
  dis : Dis := .on
  /-- miss count, 32 bits saturating [07 R226, R238; reset 0] -/
  misses : Nat := 0
  /-- resize in progress: TAG [07 R227; reset none] -/
  resize : Option Nat := none
  /-- cores that joined and count from a bucket on: core, bucket [07 R232; reset none] -/
  joined : List (Nat × Nat) := []
  /-- bound image slot [04 R151; reset 0xFF none] -/
  image : Nat := 0xFF
  /-- image swap pending [20 R578; reset none] -/
  swap : Option Swap := none
  deriving DecidableEq, Repr

/-- What operations of one cadence cycle have done to one thread. [07 R219] -/
structure ThreadCycle where
  /-- thread [07 R219] -/
  t : Nat
  /-- ATC of the cycle [07 R219] -/
  atc : Nat
  /-- its state at the start of the cycle [07 R216] -/
  st0 : Nat := 0
  /-- PEND at the start of the cycle [07 R216] -/
  pend0 : Bool := false
  /-- a CANCEL is among them [07 R219] -/
  cancelled : Bool := false
  /-- source (kind and number) of the READY that has made the transition [07 R219] -/
  ready : Option (Nat × Nat) := none
  /-- sources of the SETDLs [07 R219] -/
  setdls : List (Nat × Nat) := []
  /-- DEADLINE before the first of them [07 R219] -/
  oldDl : Nat := 0
  /-- source rank of the deadline that stands [07 R219] -/
  rank : Nat := 0
  /-- source rank of the READY whose deadline stands in PENDDL; none where PENDDL is the current deadline [07 R216, R219] -/
  pendRank : Option Nat := none
  deriving DecidableEq, Repr

structure Pel where
  /-- pools 0-63 [07 R205; reset no core, CAP 90] -/
  pools : Tab Pool := []
  /-- operations of the current cadence cycle [07 R219; reset none] -/
  cyc : List ThreadCycle := []
  /-- threads whose current deadline has been missed in this release [07 R226; reset none] -/
  missed : List Nat := []
  /-- running time of the current release of a thread, ns [07 R236; reset 0] -/
  runAt : Tab Nat := []
  /-- TRC_PROD, 32 bits [07 R237; reset 0] -/
  trcProd : Nat := 0
  /-- TRC_CONS, 32 bits [07 R237; reset 0] -/
  trcCons : Nat := 0
  /-- TRC_DROP, 32 bits, RC [07 R237; reset 0] -/
  trcDrop : Nat := 0
  /-- TRC_MODE, 2 bits [07 R237; reset 0] -/
  trcMode : Nat := 0
  /-- trace ring address [07 R238; reset 0] -/
  trcAddr : Nat := 0
  /-- log2 of trace records [07 R238; reset 0] -/
  trcLog : Nat := 0
  /-- trace event mask [07 R238; reset 0] -/
  trcEvents : Nat := 0
  /-- trace pool mask [07 R238; reset 0] -/
  trcPools : Nat := 0
  /-- SEQ of the next trace record [07 R236; reset 0] -/
  trcSeq : Nat := 0
  deriving DecidableEq, Repr

structure Cores where
  /-- cores 0-1,023 [04 R110] -/
  core : Tab Core := []
  /-- image slots 0-31 [04 R149; reset empty] -/
  images : Tab Image := []
  /-- core served last in each coprocessor unit, by octet x 2 + unit [06 R186; reset 0 DESIGN CHOICE log 14] -/
  copLast : Tab Nat := []
  deriving DecidableEq, Repr

/-! ### Chapter 08: engines -/

/-- A job an engine has started. [08 R249] -/
structure RunJob where
  /-- ring [08 R246] -/
  ring : Nat
  /-- descriptor index, free-running [08 R246] -/
  idx : Nat
  /-- the 128 descriptor bytes as fetched [08 R248] -/
  desc : List Byte
  /-- ATC of the start [08 R249] -/
  start : Nat
  /-- an ABORT stops it at its stop point [08 R269] -/
  stop : Bool := false
  deriving DecidableEq, Repr

structure Engine where
  /-- enabled, draining, aborting or disabled [08 R268; reset enabled] -/
  dis : Dis := .on
  /-- the running job [08 R241; reset none] -/
  job : Option RunJob := none
  /-- jobs, 64 bits [08 R270; reset 0] -/
  jobs : Nat := 0
  /-- busy ns, 64 bits [08 R270; reset 0] -/
  busy : Nat := 0
  /-- jobs by status code, 8 x 32 bits [08 R270; reset 0] -/
  byStatus : List Nat := [0, 0, 0, 0, 0, 0, 0, 0]
  deriving DecidableEq, Repr

/-- A fetched job that waits to start. [08 R245, R246] -/
structure QueuedJob where
  /-- descriptor index, free-running [08 R246] -/
  idx : Nat
  /-- the 128 descriptor bytes as fetched [08 R245] -/
  desc : List Byte
  deriving DecidableEq, Repr

/-- A job ring. [08 ring registers, R243-R246, R269, R270] -/
structure Ring where
  /-- STATE: unconfigured, enabled, draining or aborting, disabled [08 ring registers; reset unconfigured] -/
  dis : Dis := .off
  /-- class [08 R270; reset 0] -/
  cls : Nat := 0
  /-- engine mask, 64 bits [08 R270; reset 0] -/
  mask : Nat := 0
  /-- priority 0-3 [08 R270; reset 0] -/
  prio : Nat := 0
  /-- owner: 0 Breano, 1 PF0, 2 pool, 0xFF none [08 R270; reset 0xFF; rings 0-63 Breano's] -/
  owner : Nat := 0xFF
  /-- owning pool [08 R270; reset 0] -/
  pool : Nat := 0
  /-- base address [08 R270; reset 0] -/
  base : Nat := 0
  /-- log2 of entries, 3-12 [08 R270; reset 0] -/
  log : Nat := 0
  /-- PROD, 16 bits [08 ring registers; reset 0] -/
  prod : Nat := 0
  /-- FETCH, 16 bits [08 ring registers; reset 0] -/
  fetch : Nat := 0
  /-- DONE, 16 bits [08 ring registers; reset 0] -/
  done : Nat := 0
  /-- STALL [08 R245; reset 0] -/
  stall : Bool := false
  /-- RING_BAD, 32 bits, RC [08 R243; reset 0] -/
  bad : Nat := 0
  /-- RING_LATE, 32 bits, RC [08 ring registers; reset 0] -/
  late : Nat := 0
  /-- fetched jobs not started, ring order [08 R246; reset none] -/
  queue : List QueuedJob := []
  /-- descriptors not yet fetched that were posted at or after T_D of a disable [08 R269; reset none] -/
  refused : List Nat := []
  /-- descriptors completed beyond DONE [08 R246; reset none] -/
  fin : List Nat := []
  /-- PROD at T_D: descriptors from here on are refused [08 R269; reset 0] -/
  tdProd : Nat := 0
  deriving DecidableEq, Repr

/-- An accepted ENG_DISABLE whose ENG_DISABLED has not been posted. [08 R269] -/
structure EngDis where
  /-- engine mask [08 R270] -/
  mask : Nat
  /-- ABORT [08 R268] -/
  abort : Bool
  /-- TAG [02 R61] -/
  tag : Nat
  deriving DecidableEq, Repr

structure Engines where
  /-- engines 0-55 [08 R240; reset enabled, idle] -/
  engines : Tab Engine := []
  /-- rings 0-255 [08 R243; reset unconfigured] -/
  rings : Tab Ring := []
  /-- CAP of classes 0-3 in percent [08 R264; reset 90] -/
  caps : Tab Nat := []
  /-- HARQ partitions by function: base and size [08 R265; reset none] -/
  harq : List (Nat × (Nat × Nat)) := []
  /-- pending ENG_DISABLE commands [08 R269; reset none] -/
  pend : List EngDis := []
  /-- plan jobs in flight that name a HARQ handle: ring, descriptor index, owning function and handle [08 R267; reset none] -/
  handles : List (Nat × Nat × Nat × Nat) := []
  deriving DecidableEq, Repr

/-! ### Chapters 09 and 10: front end and compression -/

/-- A shadowed instance's sets: ACTIVE, SHADOW, and the writes of SHADOW whose landing cycle is not past. [03 R96-R100] -/
structure Inst (α : Type) where
  /-- ACTIVE [03 R96] -/
  act : α
  /-- SHADOW [03 R96] -/
  sh : α
  /-- writes accepted: landing cycle, and SHADOW from then on [03 R97, R99, R100; reset none] -/
  next : List (Nat × α) := []
  deriving DecidableEq, Repr

/-- The class 0x1 fields of one direction. [09 R278] -/
structure FeSet where
  /-- SECT_EN, 8 bits [09 R278; reset 0 (R277)] -/
  sectEn : Nat := 0
  /-- GAIN, 16 bits [09 R278; reset 0x4000 (R277)] -/
  gain : Nat := 0x4000
  /-- PHASE, 16 bits [09 R278; reset 0 (R277)] -/
  phase : Nat := 0
  /-- DLY_INT, 0-16,383 [09 R278; reset 0 (R277)] -/
  dlyInt : Nat := 0
  /-- DLY_FRAC, 0-1,023 [09 R278; reset 0 (R277)] -/
  dlyFrac : Nat := 0
  /-- MUTE [09 R278; reset 0 (R277)] -/
  mute : Bool := false
  deriving DecidableEq, Repr

/-- The class 0x2 fields of one direction. [10 R310] -/
structure CmpSet where
  /-- MODE, 2 bits [10 R310; reset 0 (R277)] -/
  mode : Nat := 0
  /-- M, 5 bits [10 R310; reset 16 (R277)] -/
  m : Nat := 16
  /-- M_MIN, 5 bits [10 R310; reset 6 (R277)] -/
  mMin : Nat := 6
  /-- M_MAX, 5 bits [10 R310; reset 16 (R277)] -/
  mMax : Nat := 16
  /-- BOUND, 16 bits [10 R310; reset 0 (R277)] -/
  bound : Nat := 0
  deriving DecidableEq, Repr

/-- Static fields of a configured stream. [09 R276, R277] -/
structure Stream where
  /-- owning function [02 R43] -/
  owner : Nat
  /-- carrier [09 R276] -/
  carrier : Nat
  /-- FIN, kS/s [09 R276] -/
  fin : Nat
  /-- FOUT, kS/s [09 R276] -/
  fout : Nat
  /-- HB, 0-3 [09 R276] -/
  hb : Nat
  /-- RS_PROFILE [09 R276] -/
  rs : Nat
  /-- SECT_SIDE [09 R276] -/
  side : Nat
  /-- LEAD_TX, Tc [09 R274] -/
  leadTx : Nat
  /-- LAG_RX, Tc [09 R274] -/
  lagRx : Nat
  deriving DecidableEq, Repr

/-- A fade in progress. [09 R284] -/
structure Fade where
  /-- next fade sample n [09 R284] -/
  n : Nat
  /-- length L [09 R284] -/
  len : Nat
  /-- NOTIFY with the TAG of the command [09 R298] -/
  notify : Option Nat
  /-- ATC of the first cadence cycle whose samples it takes [09 R284] -/
  start : Nat := 0
  deriving DecidableEq, Repr

/-- A held shift. [09 R286] -/
structure Held where
  /-- target cassette [09 R286] -/
  target : Nat
  /-- length L [09 R286] -/
  len : Nat
  /-- NOTIFY with the TAG of the command [09 R298] -/
  notify : Option Nat
  deriving DecidableEq, Repr

/-- State registers of one section: s1 and s2 of the real, then of the imaginary component. [09 R282] -/
structure SectSt where
  /-- s1, real [09 R282; reset 0] -/
  re1 : Int := 0
  /-- s2, real [09 R282; reset 0] -/
  re2 : Int := 0
  /-- s1, imaginary [09 R282; reset 0] -/
  im1 : Int := 0
  /-- s2, imaginary [09 R282; reset 0] -/
  im2 : Int := 0
  deriving DecidableEq, Repr

/-- A peak or RMS detector. [09 R294, R295] -/
structure Detector where
  /-- tap [09 R294; reset 0] -/
  tap : Nat := 0
  /-- k: windows of 2^k samples [09 R295; reset 4 DESIGN CHOICE log 52] -/
  k : Nat := 4
  /-- settings of FE_DETECT_SET that apply from the next window [09 R295; reset none] -/
  next : Option (Nat × Nat) := none
  /-- largest P, or the sum of P, of the open window [09 R295; reset 0] -/
  acc : Nat := 0
  /-- samples in the open window [09 R295; reset 0] -/
  count : Nat := 0
  /-- ATC of the last sample seen [09 R295; reset 0] -/
  at_ : Nat := 0
  /-- latched report: P [09 R295; reset 0] -/
  p : Nat := 0
  /-- latched report: window end ATC [09 R295; reset 0] -/
  endAtc : Nat := 0
  /-- latched report: samples [09 R295; reset 0] -/
  samples : Nat := 0
  deriving DecidableEq, Repr

/-- The envelope detector. [09 R296] -/
structure Envelope where
  /-- tap [09 R294; reset 0] -/
  tap : Nat := 0
  /-- ATT [09 R296; reset 0] -/
  att : Nat := 0
  /-- DEC [09 R296; reset 0] -/
  dec : Nat := 0
  /-- HI, 16 fractional bits [09 R296; reset 0] -/
  hi : Nat := 0
  /-- LO, 16 fractional bits [09 R296; reset 0] -/
  lo : Nat := 0
  /-- e, 16 fractional bits [09 R296; reset 0] -/
  e : Nat := 0
  /-- configured, so that crossings are watched [09 R296; reset false] -/
  on : Bool := false
  /-- direction of the last crossing: 0 above HI, 1 below LO [09 R296; reset none] -/
  last : Option Nat := none
  /-- a crossing not yet posted: direction and level [09 R296; reset none] -/
  cross : Option (Nat × Int) := none
  /-- ATC of the last FE_ENVELOPE plus 1, 0 for none [09 R296; reset 0] -/
  posted : Nat := 0
  /-- suppressed crossings, 32 bits [09 R296; reset 0] -/
  suppressed : Nat := 0
  deriving DecidableEq, Repr

/-- A whole transmit symbol that has left the chain. [15 R432, R433; 01 R30] -/
structure TxSym where
  /-- ATC of the symbol's start [15 R444] -/
  start : Nat
  /-- frame number k [15 R432] -/
  frame : Nat
  /-- slot [15 R432] -/
  slot : Nat
  /-- symbol [15 R432] -/
  sym : Nat
  /-- samples, cint16 [15 R432] -/
  samples : List (Int × Int)
  deriving DecidableEq, Repr

/-- The class 0x1 set in force at a place of a chain, and those still to come there. [09 R279, R280] -/
structure FeSide where
  /-- set in force [09 R279; reset as R277] -/
  force : FeSet := {}
  /-- sets still to apply, each from the symbol that starts at an ATC [09 R279; reset none] -/
  next : List (Nat × FeSet) := []
  deriving DecidableEq, Repr

/-- One half-band stage. [09 R289] -/
structure HalfBand where
  /-- the last 47 samples at its higher rate, newest last [09 R289; reset none] -/
  hist : List (Int × Int) := []
  /-- samples taken at its higher rate [09 R289; reset 0] -/
  n : Nat := 0
  deriving DecidableEq, Repr

/-- One front-end chain with its compression unit. Chains are keyed 2 x stream + direction (0 transmit, 1 receive). -/
structure Chain where
  /-- cassette A: b0, b1, b2, a1, a2 of sections 0-7, signed 32 bits [09 R281, R283; reset pass-through] -/
  casA : List Int := (List.replicate 8 [2 ^ 29, 0, 0, 0, 0]).flatten
  /-- cassette B [09 R281, R283; reset pass-through] -/
  casB : List Int := (List.replicate 8 [2 ^ 29, 0, 0, 0, 0]).flatten
  /-- active cassette: 0 A, 1 B [09 R283; reset A] -/
  active : Nat := 0
  /-- fade in progress [09 R284; reset none] -/
  fade : Option Fade := none
  /-- held shift [09 R286; reset none] -/
  held : Option Held := none
  /-- section states under cassette A [09 R282; reset 0] -/
  stA : List SectSt := List.replicate 8 {}
  /-- section states under cassette B [09 R282; reset 0] -/
  stB : List SectSt := List.replicate 8 {}
  /-- front-end set before the resampler [09 R279; reset as R277] -/
  before : FeSide := {}
  /-- front-end set of the fractional stage [09 R279, R280; reset as R277] -/
  frac : FeSide := {}
  /-- front-end set after the resampler [09 R279; reset as R277] -/
  after : FeSide := {}
  /-- compression set in force [10 R311; reset as R277] -/
  cforce : CmpSet := {}
  /-- compression sets still to apply [10 R311; reset none] -/
  cnext : List (Nat × CmpSet) := []
  /-- FE_SAT, 32 bits [09 R273; reset 0] -/
  sat : Nat := 0
  /-- gap count, 32 bits [09 R274; reset 0] -/
  gaps : Nat := 0
  /-- samples replaced in the current frame [09 R274; reset 0] -/
  frameGaps : Nat := 0
  /-- frame number k of the samples now entering; none before the first [09 R292; reset none] -/
  frame : Option Nat := none
  /-- samples entered in the frame [09 R292; reset 0] -/
  nIn : Nat := 0
  /-- frame number k of the samples now leaving [09 R292; reset 0] -/
  outFrame : Nat := 0
  /-- samples that have left in that frame [09 R292; reset 0] -/
  nOut : Nat := 0
  /-- half-band stages before the fractional stage, in order [09 R272, R289; reset none] -/
  hbBefore : List HalfBand := []
  /-- half-band stages after the fractional stage, in order [09 R272, R289; reset none] -/
  hbAfter : List HalfBand := []
  /-- input samples of the fractional stage, newest first [09 R290; reset none] -/
  hist : List (Int × Int) := []
  /-- input samples that the fractional stage has taken [09 R290; reset 0] -/
  taken : Nat := 0
  /-- resampler position p, 64 bits, 40 of them fractional, from the frame's first input sample [09 R290, R292; reset 0] -/
  pos : Nat := 0
  /-- frame number k at the fractional stage [09 R292; reset 0] -/
  fracFrame : Nat := 0
  /-- re-anchors since the chain started [09 R292; reset 0] -/
  anchors : Nat := 0
  /-- outputs of the fractional stage in that frame [09 R292; reset 0] -/
  nFrac : Nat := 0
  /-- resampled words that have not passed the stages after the resampler [09 R272; reset none] -/
  ready : List (Int × Int) := []
  /-- integer delay line, oldest first [09 R278, R280; reset empty] -/
  dly : List (Int × Int) := []
  /-- peak detector [09 R294; reset 0] -/
  peak : Detector := {}
  /-- RMS detector [09 R294; reset 0] -/
  rms : Detector := {}
  /-- envelope detector [09 R296; reset 0] -/
  env : Envelope := {}
  /-- samples that wait for their entry time, by 2^24 x frame + index in the frame [09 R274; reset none] -/
  arrived : Tab (Int × Int) := []
  /-- output samples of the symbol now leaving [15 R432; reset none] -/
  out : List (Int × Int) := []
  /-- whole symbols that have left and have not been taken [15 R433; 01 R30; reset none] -/
  syms : List TxSym := []
  /-- receive output in the stream buffers, oldest first: that of the frame now leaving, and in RELAY what the transmit chain has
  not taken [09 R272; DESIGN CHOICE log 151; reset empty] -/
  buf : List (Int × Int) := []
  /-- blocks, 64 bits [10 R316; reset 0] -/
  blocks : Nat := 0
  /-- sum of m over blocks, 64 bits [10 R316; reset 0] -/
  sumM : Nat := 0
  /-- BOUND_MISS, 32 bits [10 R308; reset 0] -/
  boundMiss : Nat := 0
  /-- CMP_SAT, 32 bits [10 R306; reset 0] -/
  cmpSat : Nat := 0
  /-- BAD_HDR, 32 bits [10 R309; reset 0] -/
  badHdr : Nat := 0
  /-- air frame of the last CMP_BAD_HEADER plus 1, 0 for none [10 R309; reset 0] -/
  badPosted : Nat := 0
  deriving DecidableEq, Repr

structure FrontEnd where
  /-- configured streams 0-2,047 [09 R277; reset none] -/
  streams : List (Nat × Stream) := []
  /-- chains by 2 x stream + direction [09 R272] -/
  chains : Tab Chain := []
  /-- class 0x1 sets by 2 x stream + direction [09 R278; reset as R277] -/
  sets : Tab (Inst FeSet) := []
  /-- class 0x2 sets by 2 x stream + direction [10 R310; reset as R277] -/
  cmp : Tab (Inst CmpSet) := []
  deriving DecidableEq, Repr

/-! ### Chapters 11 and 12: fabric and movers -/

/-- A packet that has been injected and waits at a closed gate, or is held at its injection point. [11 R324, R336] -/
structure Packet where
  /-- SRC node [11 R324] -/
  src : Nat
  /-- SPORT [11 R324] -/
  sport : Nat
  /-- DEST node [11 R324] -/
  dest : Nat
  /-- TYPE 1-6 [11 R325] -/
  type : Nat
  /-- PRI as injected [11 R328] -/
  pri : Nat
  /-- EPOCH [11 R324] -/
  epoch : Nat
  /-- TAG [11 R324] -/
  tag : Nat
  /-- LEN: payload bytes - 1 [11 R324] -/
  len : Nat
  /-- ADDR [11 R324] -/
  addr : Nat
  /-- requester kind and index, of which RID is made [11 R324] -/
  rid : Nat × Nat
  /-- payload of a write, or of a data response [11 R324] -/
  data : List Byte
  /-- RESP of a response [11 R333] -/
  resp : Nat := 0
  /-- fabric cycle of injection, modulo 65,536 [11 R324] -/
  injT : Nat
  /-- switched domain whose gate it met, 32 for BASE [11 R338] -/
  dom : Nat
  /-- ATC at which it was held [11 R336] -/
  heldAt : Nat := 0
  /-- it was injected, so the drain count of its epoch holds it (R323, R337) -/
  counted : Bool := true
  /-- DPORT: a request's the local port of its destination, a response's the SPORT of its request [11 R324] -/
  dport : Nat := 0
  /-- privilege of a signal core that asks (R345) [04 R141] -/
  priv : Nat := 1
  /-- a tandem peer's answer, for a request that is held (R557) [19 R557] -/
  peer : Nat := 0
  deriving DecidableEq, Repr

/-- A probe. [11 R342-R345] -/
structure Probe where
  /-- EN [11 R345; reset 0] -/
  en : Bool := false
  /-- MODE: 0 count, 1 histogram, 2 trace [11 R345; reset 0] -/
  mode : Nat := 0
  /-- node of the point [11 R342; reset 0] -/
  node : Nat := 0
  /-- port of the point [11 R342; reset 0] -/
  port : Nat := 0
  /-- direction: 0 in, 1 out [11 R344; reset 0] -/
  dir : Nat := 0
  /-- SRC range [11 R342; reset 0] -/
  src : Nat × Nat := (0, 0)
  /-- DEST range [11 R342; reset 0] -/
  dest : Nat × Nat := (0, 0)
  /-- PRI mask [11 R342; reset 0] -/
  pri : Nat := 0
  /-- VC mask [11 R342; reset 0] -/
  vc : Nat := 0
  /-- TYPE mask [11 R342; reset 0] -/
  type : Nat := 0
  /-- address range [11 R342; reset 0] -/
  addr : Nat × Nat := (0, 0)
  /-- PKTS, 64 bits, RC [11 R345; reset 0] -/
  pkts : Nat := 0
  /-- FLITS, 64 bits, RC [11 R345; reset 0] -/
  flits : Nat := 0
  /-- HIST0-HIST15, 32 bits each, RC, saturating [11 R345; reset 0] -/
  hist : Tab Nat := []
  deriving DecidableEq, Repr

/-- A gate: open, closed or isolated, with its counters. [11 R338-R341, R346] -/
structure Gate where
  /-- 0 open, 1 closed, 2 isolated [11 R346; reset 0] -/
  st : Nat := 0
  /-- GATE_ASLEEP, 32 bits [11 R339; reset 0] -/
  asleep : Nat := 0
  /-- GATE_DROP, 32 bits [11 R339; reset 0] -/
  drop : Nat := 0
  /-- ATC of the last FAB_GATE_DROP plus 1, 0 for none [11 R339; reset 0] -/
  posted : Nat := 0
  /-- ATC of the first drop since then plus 1, 0 for none [11 R347; reset 0] -/
  first : Nat := 0
  deriving DecidableEq, Repr

/-- A link. [11 R332, R346] -/
structure Link where
  /-- failed [11 R346; reset false] -/
  failed : Bool := false
  /-- its self-test found an error: the fault is lasting [11 R332; reset false] -/
  lasting : Bool := false
  /-- epoch in which it failed [11 R332; reset 0] -/
  epoch : Nat := 0
  /-- replays, 32 bits [11 R346; reset 0] -/
  replays : Nat := 0
  /-- CRC errors, 32 bits [11 R346; reset 0] -/
  crc : Nat := 0
  deriving DecidableEq, Repr

structure Fabric where
  /-- route tables by 256 x bank + node: 128 output ports; where none is listed, the table Breano starts with
  [11 R334; reset DESIGN CHOICE log 70] -/
  routes : Tab (List Nat) := []
  /-- nodes whose bank has been written since the last commit [11 R334; reset none] -/
  written : List Nat := []
  /-- turn models of the epoch being written, 4 bits [11 R334; reset 0] -/
  turns : Nat := 0
  /-- EPOCH [11 R345; reset 0] -/
  epoch : Nat := 0
  /-- T_F of a commit that waits, with its TAG [11 R336; reset none] -/
  flipAt : Option (Nat × Nat) := none
  /-- the flip has come and the old epoch has not retired: TAG [11 R336, R337; reset none] -/
  flipping : Option Nat := none
  /-- OLD_DRAINED [11 R345; reset 1] -/
  oldDrained : Bool := true
  /-- DRAIN0, 32 bits [11 R345; reset 0] -/
  drain0 : Nat := 0
  /-- DRAIN1, 32 bits [11 R345; reset 0] -/
  drain1 : Nat := 0
  /-- ATC of the last retirement [11 R346; reset 0] -/
  retiredAt : Nat := 0
  /-- FLIP_STALL, 32 bits, RC [11 R345; reset 0] -/
  flipStall : Nat := 0
  /-- grants in a row for which a ready VC has been passed over, by 8 x node + VC [11 R327; reset 0] -/
  passed : Tab Nat := []
  /-- FAB_DEMOTE, 32 bits, RC [11 R345; reset 0] -/
  demote : Nat := 0
  /-- TRC_PROD, 32 bits [11 R345; reset 0] -/
  trcProd : Nat := 0
  /-- TRC_CONS, 32 bits [11 R345; reset 0] -/
  trcCons : Nat := 0
  /-- TRC_DROP, 32 bits, RC [11 R345; reset 0] -/
  trcDrop : Nat := 0
  /-- trace ring address [11 R346; reset 0] -/
  trcAddr : Nat := 0
  /-- log2 of trace records [11 R346; reset 0] -/
  trcLog : Nat := 0
  /-- trace mode [11 R346; reset 0] -/
  trcMode : Nat := 0
  /-- probes 0-31 [11 R342] -/
  probes : Tab Probe := []
  /-- gates by domain 0-31 [11 R338] -/
  gates : Tab Gate := []
  /-- links by 256 x node + port [11 R332] -/
  links : Tab Link := []
  /-- packets that have met a closed gate, oldest first [11 R339; reset none] -/
  atGate : List Packet := []
  /-- requests held at their injection points [11 R336; reset none] -/
  held : List Packet := []
  /-- responses on their way, oldest first [11 R333; reset none] -/
  rsp : List Packet := []
  /-- the last response delivered (an output) [11 R333; reset none] -/
  got : Option Packet := none
  deriving DecidableEq, Repr

/-- A mover channel. [12 R348-R365; 19 exchange channels] -/
structure Chan where
  /-- owner: 0 Breano, 1 PF0, 2 pool, 0xFF none; host-mover channels take theirs from HOST_ASSIGN_QUEUES
  [12 R350; reset 0xFF, Breano's own 0 by number] -/
  owner : Nat := 0xFF
  /-- owning pool [12 R365; reset 0] -/
  pool : Nat := 0
  /-- ring base [12 R365; reset 0] -/
  base : Nat := 0
  /-- log2 of entries [12 R365; reset 3 DESIGN CHOICE log 71] -/
  log : Nat := 3
  /-- priority [12 R349; reset 0] -/
  prio : Nat := 0
  /-- TIMED [12 R355; reset 0] -/
  timed : Bool := false
  /-- DEADLINE [12 R355; reset 0] -/
  deadline : Bool := false
  /-- source window: base, size [12 R354; reset 0] -/
  srcWin : Nat × Nat := (0, 0)
  /-- destination window: base, size [12 R354; reset 0] -/
  dstWin : Nat × Nat := (0, 0)
  /-- host channels: direction, 0 host to device, 1 device to host [02 R77; reset 0] -/
  dir : Nat := 0
  /-- host channels: MSI-X vector, 0xFFFF none [02 R77; reset 0] -/
  vector : Nat := 0
  /-- host channels: NOSNOOP [02 R72; reset 0] -/
  noSnoop : Bool := false
  /-- enable state [12 R355, R364; reset off] -/
  dis : Dis := .off
  /-- PROD, 16 bits [12 R355; reset 0] -/
  prod : Nat := 0
  /-- FETCH, 16 bits [12 R355; reset 0] -/
  fetch : Nat := 0
  /-- DONE, 16 bits [12 R355; reset 0] -/
  done : Nat := 0
  /-- halted [12 R355; reset false] -/
  halted : Bool := false
  /-- bytes of the head descriptor that a retry has behind it [12 R363; reset 0] -/
  from_ : Nat := 0
  /-- the head descriptor has been started and has halted once: it is not completed [12 R363, R364; reset false] -/
  started : Bool := false
  /-- bytes of the head descriptor whose writes have left, where it has halted [12 R364; reset 0] -/
  left : Nat := 0
  /-- the head descriptor had OWN = 0 when it was fetched: the ring waits for a PROD write [12 R356; reset false] -/
  stall : Bool := false
  /-- MOVER_START firings that have found a descriptor and not yet been used [12 R358; reset 0] -/
  starts : Nat := 0
  /-- PROD at T_D: descriptors from here on are refused [12 R364; reset 0] -/
  tdProd : Nat := 0
  /-- ERR_ADDR, 48 bits (64 on the host side) [12 R355; reset 0] -/
  errAddr : Nat := 0
  /-- ERR_DESC, 16 bits [12 R355; reset 0] -/
  errDesc : Nat := 0
  /-- ERR_DIR [12 R355; reset 0] -/
  errDir : Nat := 0
  /-- ERR_CAUSE, 4 bits [12 R355; reset 0] -/
  errCause : Nat := 0
  /-- ERR_DONE, 32 bits [12 R355; reset 0] -/
  errDone : Nat := 0
  /-- MISSED_START, 32 bits, RC [12 R355; reset 0] -/
  missed : Nat := 0
  /-- MOV_BAD, 32 bits, RC [12 R355; reset 0] -/
  bad : Nat := 0
  deriving DecidableEq, Repr

structure Movers where
  /-- channels 0-575, and the tandem exchange channels 576-591 [12 R348; 19] -/
  chans : Tab Chan := []
  /-- windows by function: base, size [12 R354, R365; reset 0, 0] -/
  windows : Tab (Nat × Nat) := []
  deriving DecidableEq, Repr

/-! ### Chapter 13: memory, error correction and repair -/

/-- What a code word decodes as when it is not clean. [13 R373] -/
inductive Ecc where
  | clean | ce | ue | poison
  deriving DecidableEq, Repr

/-- A stored error of one code word. [13 R373, R641] -/
structure EccWord where
  /-- the error the next read finds [13 R373; reset clean] -/
  kind : Ecc := .clean
  /-- made by MEM_INJECT, so neither tested nor classified [13 R382, R641; reset false] -/
  injected : Bool := false
  /-- the injection is pending: neither read nor fully written yet [13 R641; reset false] -/
  pending : Bool := false
  deriving DecidableEq, Repr

/-- Counters of one memory class (0 DRAM, 1 static RAM, 2 register files). [13 R383, R387] -/
structure MemStats where
  /-- CE, 32 bits [13 R387; reset 0] -/
  ce : Nat := 0
  /-- UE, 32 bits [13 R387; reset 0] -/
  ue : Nat := 0
  /-- transient, 32 bits [13 R383; reset 0] -/
  transient : Nat := 0
  /-- lasting, 32 bits [13 R383; reset 0] -/
  lasting : Nat := 0
  /-- unclassified, 32 bits [13 R383; reset 0] -/
  unclassified : Nat := 0
  /-- injected, 32 bits [13 R641; reset 0] -/
  injected : Nat := 0
  /-- spliced, 32 bits [13 R387; reset 0] -/
  spliced : Nat := 0
  /-- retired, 32 bits [13 R387; reset 0] -/
  retired : Nat := 0
  deriving DecidableEq, Repr

/-- The open MEM_UE period of one requester class. [13 R388] -/
structure UePeriod where
  /-- ATC at which the period opened [13 R388] -/
  start : Nat
  /-- UEs of the class since, not yet posted [13 R388] -/
  count : Nat
  /-- address of the first of them [13 R388] -/
  first : Nat
  deriving DecidableEq, Repr

/-- The patrol scrub of one class. [13 R379, R380, R387] -/
structure Scrub where
  /-- period: hours for DRAM, minutes for static RAM, 0 stopped [13 R380; reset 12 h / 10 min] -/
  period : Nat
  /-- code words read in the pass [13 R379, R387; reset 0] -/
  pos : Nat := 0
  /-- ATC of the pass start [13 R388; reset 0] -/
  start : Nat := 0
  /-- ATC of the last completed pass [13 R387; reset 0] -/
  last : Nat := 0
  /-- SCRUB_SLOW has been posted for this pass [13 R380; reset false] -/
  slow : Bool := false
  deriving DecidableEq, Repr

/-- A unit under, or waiting for, its targeted self-test. [13 R382, R383] -/
structure MemTest where
  /-- unit kind: 0 static-RAM row, 1 DRAM row, 2 signal core, 5 coprocessor, 6 engine [13 R378, R388; DESIGN CHOICE log 31, 157] -/
  kind : Nat
  /-- address of the row, or the core [13 R388] -/
  unit : Nat
  /-- TAG of the MEM_SELFTEST that asked for it [13 R387; 02 R61; reset none] -/
  asked : Option Nat := none
  deriving DecidableEq, Repr

/-- A soft splice: a macro row or column group and its spare. [13 R384] -/
structure Splice where
  /-- macro, 20 bits [13 R384] -/
  macroNo : Nat
  /-- row, 12 bits [13 R387] -/
  row : Nat
  /-- kind, 8 bits: 0 row, 1 column group [13 R387; DESIGN CHOICE log 32] -/
  kind : Nat
  /-- spare, 8 bits [13 R387] -/
  spare : Nat
  deriving DecidableEq, Repr

structure Mem where
  /-- cluster memory, system SRAM and DRAM: byte by device address [13 R367; reset 0 DESIGN CHOICE log 1] -/
  cells : Tab Byte := []
  /-- LDM: byte by core x 2^18 + offset [13 R367, R368; reset 0 DESIGN CHOICE log 1] -/
  ldm : Tab Byte := []
  /-- IM: byte by core x 2^17 + offset [13 R367, R368; reset 0 DESIGN CHOICE log 1] -/
  im : Tab Byte := []
  /-- stored errors by code-word address; LDM and IM words of a core above 2^48 [13 R372, R373; reset clean] -/
  ecc : Tab EccWord := []
  /-- counters by class [13 R387; reset 0] -/
  stats : Tab MemStats := []
  /-- open MEM_UE periods by requester class, the rows of R376 from 0 [13 R388; reset none] -/
  uePer : List (Nat × UePeriod) := []
  /-- DRAM scrub [13 R380; reset period 12 h] -/
  scrubD : Scrub := { period := 12 }
  /-- static-RAM scrub [13 R380; reset period 10 min] -/
  scrubS : Scrub := { period := 10 }
  /-- pending tests, at most 64 for a macro or channel [13 R383; reset none] -/
  tests : List MemTest := []
  /-- transient classifications in the last 24 h: kind, unit, ATC [13 R383; reset none] -/
  transients : List (Nat × Nat × Nat) := []
  /-- soft splice table, at most 4,096 entries [13 R384; reset empty] -/
  splices : List Splice := []
  /-- the flash copy of the soft splice table [13 R384; reset empty] -/
  flashSplices : List Splice := []
  /-- entries made since the last flash write, with the ATC of the oldest [13 R384; reset none] -/
  spliceDue : Option Nat := none
  /-- spare rows of a macro that the factory fuse map uses, by macro [13 R384; reset 0 DESIGN CHOICE log 33] -/
  fuseSpares : Tab Nat := []
  /-- DRAM rows listed for post-package repair (in flash) [13 R386; reset none] -/
  repair : List Nat := []
  /-- listed rows found unrepairable [13 R386; reset none] -/
  unrepairable : List Nat := []
  /-- MEM_REPAIRs in progress, oldest first: TAG, rows listed for it that an older one does not repair [13 R386; reset empty] -/
  repairing : List (Nat × Nat) := []
  /-- retired 4 KB pages [13 R385; reset none] -/
  retiredPages : List Nat := []
  /-- HARQ pool size in GB, 8-80 [13 R370; reset 80] -/
  harqGB : Nat := 80
  /-- stream and symbol buffers in GB, 4-32 [13 R370; reset 16] -/
  streamGB : Nat := 16
  deriving DecidableEq, Repr

/-! ### Chapters 14 and 15: serial spokes and their MAC ports -/

/-- States of a serial spoke. [14 R400, R402, R406; codes 0-5 in the table's order, 6 retry wait, 7 self-test: log 60] -/
inductive SpkSt where
  | disabled | detect | train | lock | exchange | active | wait | test
  deriving DecidableEq, Repr

/-- What the two sides of a handshake agree on. [14 R404] -/
structure Agreement where
  /-- SPOKE rate agreed [14 R404] -/
  fast : Bool
  /-- FEC bit number: 0 bypass, 1 RS(528,514), 2 RS(544,514) [14 R404] -/
  fec : Nat
  /-- CMP mask [14 R404] -/
  cmp : Nat
  /-- smallest and largest m, less 6 [14 R404] -/
  mLo : Nat
  /-- largest m less 6 [14 R404] -/
  mHi : Nat
  /-- DOMAINS mask [14 R404] -/
  domains : Nat
  deriving DecidableEq, Repr

/-- One entry of a spoke stream map. [14 R408] -/
structure MapEntry where
  /-- stream [14 R408] -/
  stream : Nat
  /-- transmit [14 R408] -/
  tx : Bool
  /-- receive [14 R408] -/
  rx : Bool
  /-- domain: 0 time, 1 frequency [14 R408] -/
  domain : Nat
  /-- transmit PC_ID [14 R408] -/
  pcid : Nat
  deriving DecidableEq, Repr

/-- A configured serial spoke. [14 R389-R414] -/
structure Spoke where
  /-- port type [14 R390] -/
  port : Nat
  /-- profile: 0 STANDARD, 1 SPOKE [14 R391] -/
  profile : Nat
  /-- FEC preference [14 R404] -/
  fecPref : Nat
  /-- SPOKE rate allowed [14 R423] -/
  fastOk : Bool
  /-- CMP mask [14 R403] -/
  cmp : Nat
  /-- MRANGE byte [14 R403] -/
  mRange : Nat
  /-- DOMAINS [14 R403] -/
  domains : Nat
  /-- TIMED_WINDOW [14 R411] -/
  timed : Bool
  /-- FEC_UE_LIMIT, 16 bits [14 R406] -/
  ueLimit : Nat
  /-- state [14 R400] -/
  st : SpkSt := .disabled
  /-- ATC at which the state was entered [14 R400] -/
  since : Nat := 0
  /-- end of the retry wait, ATC [14 R402] -/
  waitEnd : Nat := 0
  /-- consecutive failures n, 8 bits [14 R402] -/
  fails : Nat := 0
  /-- reason of the last failure [14 R423] -/
  reason : Nat := 0
  /-- SPK_DOWN of the present DETECT stay, or of the 16th failure, has been posted [14 R400, R402] -/
  told : Bool := false
  /-- ATC of the last detect pulse plus 1, 0 for none [14 R400] -/
  pulse : Nat := 0
  /-- lanes run at the SPOKE rate [14 R401] -/
  fast : Bool := false
  /-- agreement of the first EXCHANGE at the standard rate [14 R401] -/
  first : Option Agreement := none
  /-- agreement in force, or being confirmed [14 R404] -/
  agreed : Option Agreement := none
  /-- the last CAP payload this side sent [14 R403] -/
  ownCap : List Byte := []
  /-- the CAP payload of the peer that formed the agreement [14 R404] -/
  peerCap : List Byte := []
  /-- SEQ of the next handshake frame, 8 bits [14 R403] -/
  seq : Nat := 0
  /-- ATC at which the next handshake frame is due [14 R403] -/
  nextSend : Nat := 0
  /-- pending or completed disable [14 R412] -/
  dis : Dis := .off
  /-- a resize in progress: the new port type [14 R413] -/
  resize : Option Nat := none
  /-- a resize whose spoke is coming up again: the new port type and the TAG [14 R413; 02 R61] -/
  resized : Option (Nat × Nat) := none
  /-- transmit window is open [14 R411] -/
  window : Bool := false
  /-- FEC corrected, 64 bits [14 R423] -/
  corr : Nat := 0
  /-- FEC uncorrectable, 64 bits [14 R423] -/
  uncorr : Nat := 0
  /-- ATC and number of the uncorrectable codewords of the last second [14 R406; reset empty] -/
  ues : List (Nat × Nat) := []
  /-- MISMATCH, 64 bits [14 R405] -/
  mismatch : Nat := 0
  /-- WIN_DROP, 64 bits [14 R411] -/
  winDrop : Nat := 0
  /-- WIN_BAD, 64 bits [14 R411] -/
  winBad : Nat := 0
  deriving DecidableEq, Repr

/-- A tandem link: port type 0x08 at the SPOKE rate with RS(544,514). [19 R540, R541] -/
def Spoke.tandem : Spoke :=
  { port := 8, profile := 1, fecPref := 2, fastOk := true, cmp := 7, mRange := 0xA0, domains := 3, timed := false
    ueLimit := 100 }

/-- A pattern setting of a generator or a checker. [14 R417] -/
structure Pattern where
  /-- pattern: 0 none, 1-8 in the order of R417 (DESIGN CHOICE log 61) [14 R417; reset 0] -/
  pat : Nat := 0
  /-- inverted [14 R417; reset false] -/
  inv : Bool := false
  /-- USER pattern, 64 bits [14 R417; reset 0] -/
  user : Nat := 0
  deriving DecidableEq, Repr

/-- An eye scan: kind, n, ATC of its end. [14 R420, R422] -/
structure Scan where
  /-- 0 fast, 1 full [14 R421] -/
  kind : Nat
  /-- dwell exponent n [14 R420] -/
  n : Nat
  /-- ATC at which it completes, rounded up [14 R422] -/
  ends : Nat
  /-- it has been aborted [14 R422] -/
  aborted : Bool := false
  /-- TAG of the LANE_EYESCAN [02 R61] -/
  tag : Nat := 0
  deriving DecidableEq, Repr

/-- A completed eye scan. [14 R421] -/
structure Eye where
  /-- 0 fast, 1 full [14 R421] -/
  kind : Nat
  /-- ATC of completion [14 R423] -/
  atc : Nat
  /-- per eye: width, height, centre phase, threshold row [14 R421] -/
  eyes : List (Nat × Nat × Nat × Nat)
  /-- the map, 1,024 bytes, of a full scan [14 R421] -/
  map : List Byte
  deriving DecidableEq, Repr

/-- One serial lane. [14 R397, R407, R415-R422] -/
structure Lane where
  /-- RETIRED [14 R407; reset false] -/
  retired : Bool := false
  /-- self-test running since this ATC plus 1, 0 for none [14 R407; reset 0] -/
  testAt : Nat := 0
  /-- TAG of the LANE_SELFTEST that asked for the running self-test [14 R407; 02 R61; reset none] -/
  asked : Option Nat := none
  /-- loop: 0 none, 1 NES, 2 NEP, 3 FE [14 R416; reset 0] -/
  loop : Nat := 0
  /-- ECHO [14 R416; reset false] -/
  echo : Bool := false
  /-- generator [14 R417; reset none] -/
  gen : Pattern := {}
  /-- raw rate in kb/s, 0 for the port rate [14 R415; reset 0] -/
  raw : Nat := 0
  /-- checker pattern [14 R417; reset none] -/
  chk : Pattern := {}
  /-- checker enabled [14 R423; reset false] -/
  chkOn : Bool := false
  /-- checker locked [14 R418; reset false] -/
  locked : Bool := false
  /-- ATC from which bits of the present lock are still to be counted [14 R418; reset 0] -/
  lockAt : Nat := 0
  /-- bits checked, 48 bits [14 R418; reset 0] -/
  nBits : Nat := 0
  /-- bit errors, 48 bits [14 R418; reset 0] -/
  nErr : Nat := 0
  /-- symbol errors, 48 bits [14 R418; reset 0] -/
  nSym : Nat := 0
  /-- lock losses, 48 bits [14 R418; reset 0] -/
  nLoss : Nat := 0
  /-- injection point: 0 generator, 1 PCS [14 R419; reset 0] -/
  injPoint : Nat := 0
  /-- injection burst length, 0 for none [14 R419; reset 0] -/
  injLen : Nat := 0
  /-- INTERVAL, 0 for once [14 R419; reset 0] -/
  injEvery : Nat := 0
  /-- bursts injected (an output) [14 R419; reset 0] -/
  injected : Nat := 0
  /-- skipped injections, 32 bits [14 R423; reset 0] -/
  skipped : Nat := 0
  /-- scan in progress [14 R420; reset none] -/
  scan : Option Scan := none
  /-- last completed scan [14 R421; reset none] -/
  eye : Option Eye := none
  deriving DecidableEq, Repr

structure Spokes where
  /-- configured spokes 0-127, and the tandem links as 256-263 [14 R389; 19 R540; reset the eight links, disabled] -/
  spokes : List (Nat × Spoke) := (List.range 8).map fun k => (256 + k, Spoke.tandem)
  /-- lanes 0-127, and the tandem lanes as 256-271 [14 R407; 19 R543] -/
  lanes : Tab Lane := []
  /-- class 0x4 maps by spoke: entry number and entry [14 R408; reset empty] -/
  maps : Tab (Inst (List (Nat × MapEntry))) := []
  /-- maps that apply per stream from a symbol on: by spoke, each change with the ATC of its mark, the map before and
  after it [14 R409; reset none] -/
  mapMarks : Tab (List (Nat × List (Nat × MapEntry))) := []
  /-- the lane table in force: 128 entries of 48 bytes [14 R397; 22 R602; reset empty, read from the blob at boot] -/
  table : List Byte := []
  /-- the tandem lane table in force: 16 entries of 48 bytes [19; 23 R631; reset empty, read from the blob at boot] -/
  tandemTable : List Byte := []
  deriving DecidableEq, Repr

/-- A frame that waits in a transmit class of a port. [15 R443, R444, R448] -/
structure TxFrame where
  /-- class 1-4 of R444 [15 R444] -/
  cls : Nat
  /-- frame bytes without the FCS [15 R443] -/
  bytes : List Byte
  /-- stream messages: stream number [15 R444] -/
  stream : Nat := 0
  /-- stream messages: symbol start ATC; host frames: LAUNCH [15 R443, R444] -/
  at_ : Nat := 0
  /-- ATC at which it became ready [15 R448] -/
  ready : Nat := 0
  /-- PCP [15 R444, R447] -/
  pcp : Nat := 0
  /-- host frame: STAMP asked for [15 R443] -/
  stamp : Bool := false
  /-- host frame: STAMP_ID [15 R443] -/
  stampId : Nat := 0
  /-- host frame: host transmit channel [15 R443] -/
  chan : Nat := 0
  /-- what is inserted at departure: 0 nothing, 1 a PTP event message's stamp, 2 t1 of a one-step request, 3 none, but
  t1 is kept for a follow-up [15 R451; 17 R505] -/
  insert : Nat := 0
  /-- departure instant once started, 2^-16 ns since the epoch [17 R499, R500] -/
  depart : Nat := 0
  deriving DecidableEq, Repr

/-- A one-way delay measurement in progress. [15 R451] -/
structure DelayMeas where
  /-- measurement ID [15 R451] -/
  id : Nat
  /-- two-step form [15 R451] -/
  two : Bool
  /-- ATC at which it began [15 R451] -/
  start : Nat
  /-- t1 in 2^-16 ns since the epoch [15 R451; reset none before departure] -/
  t1 : Option Nat := none
  /-- TAG of the MAC_DELAY_MEASURE that asked for it, 0 for one the peer asked for [02 R61] -/
  tag : Nat := 0
  deriving DecidableEq, Repr

/-- One MAC port. [15 R425-R452] -/
structure Port where
  /-- OWN_MAC, 48 bits [15 R428; reset 0 DESIGN CHOICE log 62] -/
  ownMac : Nat := 0
  /-- PEER_MAC, 48 bits [15 R428; reset 0 DESIGN CHOICE log 62] -/
  peerMac : Nat := 0
  /-- STREAM_TCI, 16 bits [15 R428; reset 0 DESIGN CHOICE log 62] -/
  tci : Nat := 0
  /-- TRANSPORT [15 R428; reset 0 DESIGN CHOICE log 62] -/
  transport : Nat := 0
  /-- OWN_IP, 128 bits [15 R428; reset 0 DESIGN CHOICE log 62] -/
  ownIp : Nat := 0
  /-- PEER_IP, 128 bits [15 R428; reset 0 DESIGN CHOICE log 62] -/
  peerIp : Nat := 0
  /-- UDP_PORT [15 R428; reset 0 DESIGN CHOICE log 62] -/
  udp : Nat := 0
  /-- DSCP [15 R428; reset 0 DESIGN CHOICE log 62] -/
  dscp : Nat := 0
  /-- MAXFRAME, 1,518-9,600 [15 R426; reset 1,518 DESIGN CHOICE log 62] -/
  maxFrame : Nat := 1518
  /-- SEG, 16-2,048 [15 R433; reset 16 DESIGN CHOICE log 62] -/
  seg : Nat := 16
  /-- enabled address filter entries, 16 bits [15 R436; reset 0 DESIGN CHOICE log 62] -/
  fltOn : Nat := 0
  /-- the 16 filter addresses [15 R436; reset 0 DESIGN CHOICE log 62] -/
  flt : List Nat := List.replicate 16 0
  /-- PROM [15 R436; reset false DESIGN CHOICE log 62] -/
  prom : Bool := false
  /-- ALLMC [15 R436; reset false DESIGN CHOICE log 62] -/
  allmc : Bool := false
  /-- KEEPBAD [15 R441; reset false DESIGN CHOICE log 62] -/
  keepBad : Bool := false
  /-- VLAN_CHECK [15 R436; reset false DESIGN CHOICE log 62] -/
  vlanCheck : Bool := false
  /-- RX_PAUSE [15 R447; reset false DESIGN CHOICE log 62] -/
  rxPause : Bool := false
  /-- PFC_RX mask [15 R447; reset 0 DESIGN CHOICE log 62] -/
  pfcRx : Nat := 0
  /-- TX_PFC mask [15 R449; reset 0 DESIGN CHOICE log 62] -/
  txPfc : Nat := 0
  /-- STREAM_HOLD in us [15 R448; reset 20] -/
  hold : Nat := 20
  /-- LPI_EN [15 R450; reset false DESIGN CHOICE log 62] -/
  lpiEn : Bool := false
  /-- LPI_IDLE in us [15 R450; reset 1 DESIGN CHOICE log 62] -/
  lpiIdle : Nat := 1
  /-- Tw in us once the LLDP negotiation has completed [15 R450; reset none] -/
  tw : Option Nat := none
  /-- LPI: 0 awake, 1 idle, 2 waking [15 R450; reset 0] -/
  lpi : Nat := 0
  /-- ATC at which the LPI state began, or the last frame ended [15 R450; reset 0] -/
  lpiAt : Nat := 0
  /-- host receive channel, 0xFFFF none [15 R442; reset 0xFFFF DESIGN CHOICE log 62] -/
  rxChan : Nat := 0xFFFF
  /-- host transmit channel, 0xFFFF none [15 R442; reset 0xFFFF DESIGN CHOICE log 62] -/
  txChan : Nat := 0xFFFF
  /-- START_TH [15 R445; reset 256] -/
  startTh : Nat := 256
  /-- ATC at which START_TH was last raised plus 1, for R446 [15 R446; reset 0] -/
  raisedAt : Nat := 0
  /-- pause end per priority 0-7, ATC; entry 8 for PAUSE [15 R447; reset 0] -/
  pause : List Nat := List.replicate 9 0
  /-- ATC at which pause began to hold a ready frame plus 1, 0 for none [15 R452; reset 0] -/
  heldAt : Nat := 0
  /-- frames that wait [15 R444; reset none] -/
  queue : List TxFrame := []
  /-- bytes of the last frame sent (an output), FCS included [15 R444; reset empty] -/
  sent : List Byte := []
  /-- the last frame sent was ended with an inverted FCS [15 R445; reset false] -/
  sentBad : Bool := false
  /-- the frame in progress and the ATC of its end [15 R444; reset none] -/
  busy : Option (TxFrame × Nat) := none
  /-- transmit sequence number by PC_ID [15 R432; reset 0] -/
  txSeq : Tab Nat := []
  /-- next expected receive sequence number by PC_ID, plus 1; 0 for none seen [15 R434; reset 0] -/
  rxSeq : Tab Nat := []
  /-- set of steering replaced by the last copy, ATC of its mark [15 R435; reset none] -/
  oldSteer : Option (Nat × List (Nat × Nat × Nat)) := none
  /-- ATC of the last MAC_PCID_MISS plus 1, misses since, first PC_ID [15 R434; reset none] -/
  missed : Nat × Nat × Nat := (0, 0, 0)
  /-- ATC of the last MAC_UNDERRUN plus 1, underruns since [15 R445; reset none] -/
  under : Nat × Nat := (0, 0)
  /-- delay measurement in progress [15 R451; reset none] -/
  meas : Option DelayMeas := none
  /-- PFC has been sent with a pause and its release is due; ATC of the last one [15 R449; reset none] -/
  pfcAt : Option Nat := none
  /-- the 28 counters, 64 bits each, by index [15 R452; reset 0] -/
  stats : Tab Nat := []
  deriving DecidableEq, Repr

structure Macs where
  /-- ports 0-127 [15 R425] -/
  ports : Tab Port := []
  /-- class 0x3 steering by port: entry number, PC_ID and stream [15 R435; reset empty] -/
  steer : Tab (Inst (List (Nat × Nat × Nat))) := []
  deriving DecidableEq, Repr

/-! ### Chapter 16: copper spokes -/

/-- States of a pair channel. [16 R486; codes 0-5 in the table's order, 6 retry wait, 7 self-test: log 60] -/
inductive PairLine where
  | disabled | detect | probe | echo | load | active | wait | test
  deriving DecidableEq, Repr

/-- A configured copper spoke. [16 R456-R492] -/
structure CopSpoke where
  /-- mode: 0 full-duplex, 1 TDD burst [16 R456] -/
  mode : Nat
  /-- pair mask [16 R456] -/
  mask : Nat
  /-- LINE_ADV, Tc [16 R457] -/
  lineAdv : Nat
  /-- TIMED_WINDOW [16 R473] -/
  timed : Bool
  /-- MARGIN, 0.1 dB [16 R463] -/
  margin : Nat
  /-- MIN_MARGIN, 0.1 dB [16 R482] -/
  minMargin : Nat
  /-- AUTO_SWAP [16 R482] -/
  autoSwap : Bool
  /-- SYNC_WORD, 64 bits [16 R469] -/
  syncWord : Nat
  /-- SYNC_TOL, 0-12 [16 R477] -/
  syncTol : Nat
  /-- SYNC_BASE [16 R469] -/
  syncBase : Nat
  /-- SYNC_STEP [16 R469] -/
  syncStep : Nat
  /-- RAMP, 8-256 [16 R470] -/
  ramp : Nat
  /-- CRC_LIMIT [16 R487] -/
  crcLimit : Nat
  /-- reason of the last failure [16 R493] -/
  reason : Nat := 0
  /-- consecutive failures n [16 R486] -/
  fails : Nat := 0
  /-- COP_DOWN of the present DETECT stay, or of the 16th failure, has been posted [16 R486] -/
  told : Bool := false
  /-- the spoke is ACTIVE [16 R486] -/
  active : Bool := false
  /-- pending or completed disable [16 R489] -/
  dis : Dis := .off
  /-- transmit window is open (full-duplex) [16 R473] -/
  window : Bool := false
  /-- ATCs of the CRC failures of the last 1 s, newest first [16 R487] -/
  crcWin : List Nat := []
  /-- pair change in progress: new mask, TAG [16 R490] -/
  change : Option (Nat × Nat) := none
  /-- accepted messages that wait for the line: pair and link frame [16 R465, R489] -/
  queue : List (Nat × List Byte) := []
  /-- bytes of the first waiting frame that the line has carried, by the pair that leads its line stream [16 R465] -/
  part : Tab Nat := []
  /-- link frames that have ended on the line since the superframe's start (an output): pair and frame [16 R465] -/
  sent : List (Nat × List Byte) := []
  /-- superframe number of the last LINE_SUPERFRAME plus 1 [16 R457] -/
  frame : Nat := 0
  /-- Cadence entry of the standing mark, 0xFFFF for none [03 R101] -/
  mark : Nat := 0xFFFF
  /-- sequence number of the next SYNC_TIME, 16 bits [17 R508] -/
  timeSeq : Nat := 0
  deriving DecidableEq, Repr

/-- The mask of a copper spoke, kept before and after it is configured. [16 R460, R461] -/
structure CopMask where
  /-- breakpoints: index, level in 0.1 dBm/Hz [16 R460; reset -60.0 dBm/Hz over the usable band, DESIGN CHOICE log 80] -/
  points : List (Nat × Int) := [(17, -600), (4079, -600)]
  /-- NGUARD, 0-64 [16 R461; reset 8] -/
  nguard : Nat := 8
  /-- notches: first, last [16 R461; reset none] -/
  notches : List (Nat × Nat) := []
  deriving DecidableEq, Repr

/-- A sync candidate. [16 R477, R478, R480] -/
structure SyncCand where
  /-- Q, ATC of its first sample [16 R477] -/
  q : Nat
  /-- bit errors [16 R477] -/
  errs : Nat
  /-- latched strength, 0.125 dB [16 R480] -/
  strength : Int
  deriving DecidableEq, Repr

/-- The two bit-loading tables of a pair channel: 4,096 entries of 16 bits, or empty for zeros. [16 R462] -/
structure LoadTab where
  /-- downstream [16 R462; reset 0] -/
  down : List Nat := []
  /-- upstream [16 R462; reset 0] -/
  up : List Nat := []
  deriving DecidableEq, Repr

/-- A downstream burst that is being sent. [16 R473-R475] -/
structure BurstTx where
  /-- ATC of its first payload symbol [16 R474] -/
  first : Nat
  /-- LEN [16 R475] -/
  len : Nat
  /-- line-stream bits of a symbol, without the pointer [16 R465] -/
  bits : Nat
  /-- bytes of the first frame that an earlier burst carried [16 R465] -/
  part : Nat
  /-- the frames taken for it [16 R465] -/
  frames : List (List Byte)
  deriving DecidableEq, Repr

/-- A pair channel. [16 R455-R492] -/
structure PairCh where
  /-- retired [16 R488; reset false] -/
  retired : Bool := false
  /-- state [16 R486; reset DISABLED] -/
  st : PairLine := .disabled
  /-- ATC at which the state was entered [16 R486; reset 0] -/
  since : Nat := 0
  /-- end of the retry wait, ATC [16 R486; reset 0] -/
  waitEnd : Nat := 0
  /-- radio points of the segment [16 R476; reset none] -/
  rpMask : Nat := 0
  /-- per radio point: start symbol, largest LEN [16 R476; reset 0] -/
  plan : List (Nat × Nat) := List.replicate 16 (0, 0)
  /-- downstream and upstream share, 1/65,536 [16 R484; reset 0 DESIGN CHOICE log 80] -/
  share : Nat × Nat := (0, 0)
  /-- radio points that have answered and hold tables [16 R486; reset none] -/
  up : Nat := 0
  /-- radio point being probed or loaded, and last polled [16 R486; reset 0] -/
  rp : Nat := 0
  /-- PROBE_REPORT received in this PROBE [16 R486; reset false] -/
  reported : Bool := false
  /-- radio points whose TABLE_ACK is awaited, as masks: downstream, upstream [16 R468, R482; reset none] -/
  need : Nat × Nat := (0, 0)
  /-- the tables are armed once no TABLE_ACK is awaited [16 R482; reset false] -/
  toArm : Bool := false
  /-- the tables in use before the last copy applies [16 R483; reset 0] -/
  oldTab : LoadTab := {}
  /-- the downstream burst that is being sent [16 R473; reset none] -/
  tx : Option BurstTx := none
  /-- line direction: 0 idle, 1 transmitting, 2 receiving [16 R473; reset 0] -/
  dir : Nat := 0
  /-- ATC at which reception opened [16 R477; reset 0] -/
  openAt : Nat := 0
  /-- sync candidate [16 R478; reset none] -/
  cand : Option SyncCand := none
  /-- search is suspended until this ATC: end of the burst, its RP, whether its payload is used [16 R478, R483; reset none] -/
  burst : Option (Nat × Nat × Bool) := none
  /-- consecutive superframes without sync (full-duplex) [16 R472; reset 0] -/
  lost : Nat := 0
  /-- the current superframe's header has validated [16 R472; reset false] -/
  synced : Bool := false
  /-- the replaced upstream table is decoded until this ATC, with its SEQ mod 16 [16 R483; reset none] -/
  oldSeq : Option (Nat × Nat) := none
  /-- ATC from whose first later superframe the ACTIVE tables apply, and SEQ mod 16 in use before [16 R483; reset none] -/
  swapAt : Option (Nat × Nat) := none
  /-- SNR and noise by direction x 16 + RP: 4,096 values of 0.25 dB [16 R463, R493; reset none] -/
  snr : Tab (List Nat × List Nat) := []
  /-- burst strength and ATC of the sync by RP [16 R480; reset none] -/
  strength : Tab (Int × Nat) := []
  /-- CRC_ERR, FALSE_SYNC, BURST_CUT, BURST_LONG, SWAP_MISMATCH, WIN_BAD, REFUSED by index, 64 bits each [16 R493; reset 0] -/
  stats : Tab Nat := []
  /-- header bits of the last burst or superframe sent (an output) [16 R469; reset 0] -/
  header : Nat := 0
  /-- self-test running since this ATC plus 1, and the TAG of the COP_SELFTEST that asked for it [16 R488; 02 R61; reset 0] -/
  test : Nat × Option Nat := (0, none)
  /-- qualification running: TAG, MARGIN, address and length of the response buffer [16 R492; reset none] -/
  qualify : Option (Nat × Nat × Nat × Nat) := none
  /-- radio point that joins an ACTIVE segment, whether it is in LOAD, and since when [16 R486; reset none] -/
  join : Option (Nat × Bool × Nat) := none
  deriving DecidableEq, Repr

structure Copper where
  /-- configured spokes 128-143 [16 R456; reset none] -/
  spokes : List (Nat × CopSpoke) := []
  /-- masks by spoke [16 R460] -/
  masks : Tab CopMask := []
  /-- pair channels 0-63 [16 R455] -/
  pairs : Tab PairCh := []
  /-- class 0x5 tables by pair channel [16 R482; reset 0] -/
  tables : Tab (Inst LoadTab) := []
  /-- steering that a copy of a copper map replaced: ATC of its mark and the map, by spoke [16 R485; reset none] -/
  oldMap : Tab (Nat × List (Nat × MapEntry)) := []
  /-- next expected receive sequence number plus 1, by 2^16 x spoke + PC_ID [15 R434; 16 R485; reset 0] -/
  rxSeq : Tab Nat := []
  /-- transmit sequence number, by 2^16 x spoke + PC_ID [15 R432; 16 R485; reset 0] -/
  txSeq : Tab Nat := []
  /-- message counters of R452 that copper spokes keep, by 64 x spoke + index [16 R485; reset 0] -/
  stats : Tab Nat := []
  deriving DecidableEq, Repr

/-! ### Chapters 17 and 18: network time, stamps, truing -/

/-- A stamp queue of a port or an edge input: at most 64 entries. [17 R500-R503, R509, R510] -/
structure StampQ where
  /-- entries of 16 bytes, oldest first [17 R500; reset empty] -/
  q : List (List Byte) := []
  /-- OVF [17 R501; reset 0] -/
  ovf : Bool := false
  /-- LOST, 32 bits [17 R501; reset 0] -/
  lost : Nat := 0
  /-- a read has left the queue empty [17 R503; reset true DESIGN CHOICE log 90] -/
  emptied : Bool := true
  /-- ATC of the last STAMP_OVERFLOW plus 1 [17 R501; reset 0] -/
  ovfAt : Nat := 0
  /-- ATC of the last STAMP_AVAIL or TSIN_AVAIL plus 1 [17 R503; reset 0] -/
  availAt : Nat := 0
  /-- ATC of the last entry, for reads in its cycle [17 R502; reset 0] -/
  lastAt : Nat := 0
  /-- ATC of the last loss plus 1 [17 R502; reset 0] -/
  lostAt : Nat := 0
  /-- OVF and LOST as that cycle began [17 R502; reset 0] -/
  was : Bool × Nat := (false, 0)
  /-- that cycle's losses hold an overflow [17 R502; reset false] -/
  ovfNow : Bool := false
  deriving DecidableEq, Repr

/-- An edge input. [17 R509-R511] -/
structure Tsin where
  /-- edges: 0 off, 1 rising, 2 falling, 3 both [17 R509; reset 0 DESIGN CHOICE log 90] -/
  edges : Nat := 0
  /-- WAKE [17 R511; reset false DESIGN CHOICE log 90] -/
  wake : Bool := false
  /-- edge sequence number, 16 bits [17 R509; reset 0] -/
  seq : Nat := 0
  /-- time of the last detected edge in 2^-16 ns since the epoch, plus 1; 0 for none [17 R509; reset 0] -/
  last : Nat := 0
  /-- queue [17 R510; reset empty] -/
  q : StampQ := {}
  deriving DecidableEq, Repr

/-- A pulse output. [17 R512-R514] -/
structure Tsout where
  /-- mode: 0 off, 1 Cadence, 2 PPS [17 R512; reset 0 DESIGN CHOICE log 90] -/
  mode : Nat := 0
  /-- polarity [17 R512; reset 0 DESIGN CHOICE log 90] -/
  pol : Nat := 0
  /-- PPS_W in ns [17 R512; reset 8 DESIGN CHOICE log 90] -/
  ppsW : Nat := 8
  /-- the output is active until this instant, in 2^-16 ns since the epoch; 0 inactive [17 R514; reset 0] -/
  until_ : Nat := 0
  /-- leading edge of the last pulse, in 2^-16 ns since the epoch (an output) [17 R513; reset 0] -/
  edge : Nat := 0
  deriving DecidableEq, Repr

/-- A recovered-clock output. [17 R520] -/
structure SyncE where
  /-- lane, 0xFF none [17 R520; reset 0xFF DESIGN CHOICE log 90] -/
  lane : Nat := 0xFF
  /-- DIV, 16-65,535 [17 R520; reset 16 DESIGN CHOICE log 90] -/
  div : Nat := 16
  /-- squelched [17 R520; reset true DESIGN CHOICE log 90] -/
  squelched : Bool := true
  deriving DecidableEq, Repr

/-- A slew in progress. [17 R515] -/
structure Slew where
  /-- offset, 2^-16 ns [17 R515] -/
  off : Int
  /-- rate, ns/s [17 R515] -/
  rate : Nat
  /-- ATC at which it began [17 R515] -/
  start : Nat
  /-- TAG [02 R61] -/
  tag : Nat
  deriving DecidableEq, Repr

/-- The servo's settings. [17 R516, R523] -/
structure ServoSet where
  /-- profile: 0 host, 1 G.8275.1, 2 G.8275.2 [17 R516; reset 0 (R495)] -/
  profile : Nat := 0
  /-- domain number [17 R523; reset 0 DESIGN CHOICE log 90] -/
  domain : Nat := 0
  /-- role and local priority of the eight timing ports [17 R523; reset 0 DESIGN CHOICE log 90] -/
  roles : List (Nat × Nat) := List.replicate 8 (0, 0)
  /-- TSIN source, 0xFF none [17 R517; reset 0xFF DESIGN CHOICE log 90] -/
  tsin : Nat := 0xFF
  /-- SyncE lane, 0xFF none [17 R517; reset 0xFF DESIGN CHOICE log 90] -/
  lane : Nat := 0xFF
  /-- LOCK_TH in ns [17 R518; reset 10] -/
  lockTh : Nat := 10
  /-- HOLD_LIMIT in s [17 R518; reset 0 DESIGN CHOICE log 90] -/
  hold : Nat := 0
  deriving DecidableEq, Repr

structure NetTime where
  /-- servo settings [17 R516] -/
  set : ServoSet := {}
  /-- servo state: 0 FREERUN, 1 ACQUIRING, 2 LOCKED, 3 HOLDOVER, 4 HOLDOVER_EXPIRED, 5 HOST [17 R495, R518; reset 0] -/
  st : Nat := 0
  /-- ATC at which the state was entered [17 R518; reset 0] -/
  since : Nat := 0
  /-- source: 0 none, 1 PTP, 2 TSIN [17 R523; reset 0] -/
  source : Nat := 0
  /-- parent port [17 R523; reset 0 DESIGN CHOICE log 90] -/
  parent : Nat := 0
  /-- filtered offset, 2^-16 ns, signed [17 R523; reset 0] -/
  offset : Int := 0
  /-- FTRIM, 2^-44, signed [17 R496; reset 0] -/
  ftrim : Int := 0
  /-- FSLEW, 2^-44, signed [17 R496; reset 0] -/
  fslew : Int := 0
  /-- slew in progress [17 R515; reset none] -/
  slew : Option Slew := none
  /-- UTC offset, 16 bits [17 R519; reset 0 DESIGN CHOICE log 90] -/
  utc : Nat := 0
  /-- pending leap second: 1 insert, 2 delete; its NTC second [17 R519; reset none] -/
  leap : Option (Nat × Nat) := none
  /-- timing ports, 0xFF none [17 R504; reset none] -/
  tports : List Nat := List.replicate 8 0xFF
  /-- transmit stamp queues by port [17 R500; reset empty] -/
  stamps : Tab StampQ := []
  /-- edge inputs 0-7 [17 R509] -/
  tsin : Tab Tsin := []
  /-- pulse outputs 0-7 [17 R512] -/
  tsout : Tab Tsout := []
  /-- recovered-clock outputs 0-1 [17 R520] -/
  synce : Tab SyncE := []
  deriving DecidableEq, Repr

/-- One trim. [18 R525, R532, R535] -/
structure Trim where
  /-- code, signed 16 bits [18 R525; reset 0, 128 for HYBRID (R533)] -/
  code : Int := 0
  /-- consecutive measurements within CONV [18 R532; reset 0] -/
  count : Nat := 0
  /-- last residual, signed 32 bits [18 R536; reset 0] -/
  residual : Int := 0
  /-- ATC of the last measurement [18 R536; reset 0] -/
  at_ : Nat := 0
  /-- it has been measured [18 R535; reset false] -/
  seen : Bool := false
  /-- it reached the end of its range, and moves no more [18 R534; reset false] -/
  stuck : Bool := false
  deriving DecidableEq, Repr

/-- A unit that truing serves. [18 R525-R535] -/
structure TrueUnit where
  /-- trim enable mask, 16 bits [18 R536; reset 0xFFFF DESIGN CHOICE log 91] -/
  enable : Nat := 0xFFFF
  /-- STALE in ms, 10-1,000 [18 R532; reset 100] -/
  stale : Nat := 100
  /-- trims by ID [18 R525] -/
  trims : Tab Trim := []
  /-- trim served last, 0xFF none [18 R529; reset 0xFF] -/
  last : Nat := 0xFF
  /-- end of an open Cadence gap, ATC; 0 none [18 R527; reset 0] -/
  gap : Nat := 0
  /-- length of the open Cadence gap in Tc; 0 once it has served its trim [18 R529; reset 0] -/
  gapLen : Nat := 0
  /-- GAP_IGNORED, 32 bits [18 R527; reset 0] -/
  ignored : Nat := 0
  /-- GAP_BROKEN, 32 bits [18 R528; reset 0] -/
  broken : Nat := 0
  /-- eye widths x 3, eye heights x 3, residual latency TX, RX, residual offsets x 8, image rejection [18 R535; reset 0] -/
  figures : List Int := List.replicate 17 0
  /-- ATC of the last TRUE_CONVERGED and of the last TRUE_LOST plus 1 [18 R532; reset 0] -/
  posted : Nat × Nat := (0, 0)
  deriving DecidableEq, Repr

structure Truing where
  /-- units by 256 x kind + index [18 R525] -/
  units : Tab TrueUnit := []
  /-- trim codes stored in flash, by 16 x unit + ID [18 R533; reset 0 DESIGN CHOICE log 91] -/
  flash : Tab Int := []
  /-- ATC of the last store [18 R533; reset 0] -/
  storedAt : Nat := 0
  deriving DecidableEq, Repr

/-! ### Chapter 19: tandem groups -/

/-- What one tandem link keeps beside its bring-up, which stands among the spokes as number 256 + link. [19 R540-R545] -/
structure TndLink where
  /-- ASYM in ps, signed 32 bits [19 R544; reset 0] -/
  asym : Int := 0
  /-- d in 2^-16 ns [19 R544; reset 0] -/
  delay : Nat := 0
  /-- peer ID from HELLO, 0xFF none [19 R541; reset 0xFF] -/
  peer : Nat := 0xFF
  /-- ATC at which the link left ACTIVE [19 R549; reset 0] -/
  downAt : Nat := 0
  deriving DecidableEq, Repr

/-- A tandem stream. [19 R555] -/
structure TndStream where
  /-- outlet ID [19 R555] -/
  outlet : Nat
  /-- outlet spoke [19 R555] -/
  spoke : Nat
  /-- directions [19 R555] -/
  dirs : Nat
  /-- transmit PC_ID [19 R555] -/
  pcid : Nat
  deriving DecidableEq, Repr

structure Tandem where
  /-- GROUP_ID, topology, N, once set [19 R539; reset none] -/
  group : Option (Nat × Nat × Nat) := none
  /-- group epoch, 8 bits [19 R552; reset 0 DESIGN CHOICE log 100] -/
  epoch : Nat := 0
  /-- links 0-7 [19 R540] -/
  links : Tab TndLink := []
  /-- member mask [19 R549; reset 0] -/
  members : Nat := 0
  /-- members whose entry is due at a live boundary: ID and ATC [19 R549; reset none] -/
  joining : List (Nat × Nat) := []
  /-- FOLLOWING [19 R545; reset false] -/
  following : Bool := false
  /-- filtered offset, 2^-16 ns, signed [19 R545; reset 0] -/
  offset : Int := 0
  /-- consecutive heartbeats within 50 ps [19 R545; reset 0] -/
  good : Nat := 0
  /-- ATC of the last heartbeat plus 1, 0 none [19 R548, R551; reset 0] -/
  beatAt : Nat := 0
  /-- ID of the captain whose heartbeat came last, 0xFF none [19 R545; reset 0xFF] -/
  captain : Nat := 0xFF
  /-- sequence number of the last heartbeat, 32 bits [19 R547; reset 0] -/
  beatSeq : Nat := 0
  /-- sequence number of the next heartbeat sent [19 R545; reset 0] -/
  seq : Nat := 0
  /-- servo state and source of the captain [19 R546; reset 0] -/
  capServo : Nat := 0
  /-- missed heartbeats in a row [19 R552; reset 0] -/
  missed : Nat := 0
  /-- ATC of the last miss decision, in whole ms, plus 1 [19 R551; reset 0] -/
  missAt : Nat := 0
  /-- ATC of the last member report of a received heartbeat plus 1 [19 R552; reset 0] -/
  reportAt : Nat := 0
  /-- the captain has dissolved the group from this ATC [19 R550; reset none] -/
  dissolve : Option Nat := none
  /-- handback boundary of this acting captain [19 R554; reset none] -/
  handback : Option (Nat × Nat) := none
  /-- members whose exit from STOKER is due at a boundary: ID and ATC [19 R549; reset none] -/
  leaving : List (Nat × Nat) := []
  /-- epoch of the last captain's heartbeat [19 R554; reset 0] -/
  capEpoch : Nat := 0
  /-- windows 0-7: peer ID and base [19 R556; reset unmapped] -/
  windows : Tab (Nat × Nat) := []
  /-- export ranges 0-7: base, size, ID mask [19 R557; reset none] -/
  exports : Tab (Nat × Nat × Nat) := []
  /-- tandem streams [19 R555; reset none] -/
  streams : List (Nat × TndStream) := []
  /-- the last frame sent on a link (an output) [19 R544; reset empty] -/
  sent : List Byte := []
  deriving DecidableEq, Repr

/-! ### The stored profile -/

/-- The stored profile: a copy in flash of the settings Breano journals. [22 R608, R609] -/
structure Profile where
  /-- AUTO [22 R608] -/
  auto : Bool
  /-- RESUME_WAIT in s, 0-3,600 [22 R608, R611] -/
  wait : Nat
  /-- mode [22 R609] -/
  mode : Mode
  /-- carriers [22 R609] -/
  carriers : List (Nat × Carrier)
  /-- streams and the sets of classes 0x1 and 0x2 [22 R608] -/
  fe : FrontEnd
  /-- spokes, lanes and maps [22 R608] -/
  spk : Spokes
  /-- MAC ports and steering [22 R608] -/
  mac : Macs
  /-- copper spokes [22 R608] -/
  cop : Copper
  /-- servo settings, timing ports, FTRIM [22 R608; 17 R518] -/
  servo : ServoSet
  /-- timing ports [17 R504] -/
  tports : List Nat
  /-- FTRIM [17 R518] -/
  ftrim : Int
  /-- pools [22 R608] -/
  pools : Tab Pool
  /-- pool of each core of a pool [22 R608] -/
  members : List (Nat × Nat)
  /-- tandem group and ASYM of its links, which a stored mode of a group needs [22 R608; 19 R548; DEDUCED log 46] -/
  group : Option (Nat × Nat × Nat)
  /-- links with their ASYM [19 R544; DEDUCED log 46] -/
  links : Tab TndLink
  /-- enabled tandem links [19 R540; DEDUCED log 46] -/
  linksOn : List Nat
  /-- image slots [22 R608] -/
  images : Tab Image
  deriving DecidableEq, Repr

/-! ### Chapters 20, 21, 22, 23: management, power, start-up, package -/

/-- Whether a management pair runs Breano, stands by, or is out of service. [20 R561, R566, R580] -/
inductive PairSt where
  | active | ready | loading | testing | retired
  deriving DecidableEq, Repr

/-- An entry of the trouble log. [20 R573] -/
structure LogEntry where
  /-- ATC of the cause [20 R573] -/
  atc : Nat
  /-- CODE [20 R573] -/
  code : Nat
  /-- BLOCK [20 R573] -/
  block : Nat
  /-- SEVERITY [20 R573] -/
  sev : Nat
  /-- SEQ [20 R573] -/
  seq : Nat
  /-- REPEAT, saturating at 65,535 [20 R573, R574] -/
  rep : Nat
  /-- DATA, 14 bytes [20 R573] -/
  data : List Byte
  deriving DecidableEq, Repr

/-- A Breano image slot in flash. [20 R576, R580] -/
structure FwSlot where
  /-- the slot holds a loaded image [20 R576; reset booted slot only] -/
  loaded : Bool := false
  /-- release 4.x as 32 bits [20 R576; reset 0 DESIGN CHOICE log 40] -/
  release : Nat := 0
  /-- CKPT_VER [20 R576; reset 0 DESIGN CHOICE log 40] -/
  ckpt : Nat := 0
  deriving DecidableEq, Repr

/-- A running firmware activation. [20 R577] -/
structure FwRun where
  /-- step of R577, 1-4; 5 a revert is to be reported; 6 step 1 with the new image booted; 11 step 1 failed [20 R577, R580] -/
  step : Nat
  /-- ATC at which the step began [20 R577] -/
  since : Nat
  /-- TAG of UPD_FW_ACTIVATE [02 R61] -/
  tag : Nat
  deriving DecidableEq, Repr

/-- A running UPD_ENG_MICROCODE. [20 R579] -/
structure EngUpd where
  /-- class [20 R580] -/
  cls : Nat
  /-- engines still to update, mask [20 R580] -/
  todo : Nat
  /-- engines updated, mask [20 R581] -/
  done : Nat
  /-- FORCE [20 R579] -/
  force : Bool
  /-- TAG [02 R61] -/
  tag : Nat
  /-- the engine being updated, as a mask [20 R579] -/
  cur : Nat := 0
  deriving DecidableEq, Repr

structure Mgmt where
  /-- pair A [20 R561; reset loading, standing for held in reset, DESIGN CHOICE log 41] -/
  pairA : PairSt := .loading
  /-- pair B [20 R561; reset loading, DESIGN CHOICE log 41] -/
  pairB : PairSt := .loading
  /-- ACTIVE_PAIR: false A, true B [20 R571; reset A] -/
  activeB : Bool := false
  /-- ATC of each pair's last heartbeat [20 R562; reset 0 DESIGN CHOICE log 41] -/
  beat : Nat × Nat := (0, 0)
  /-- SVC_READY [20 R571; reset 0] -/
  svc : Bool := false
  /-- LIMP [20 R571; reset 0] -/
  limp : Bool := false
  /-- limp: cause byte, ATC of detection and TAG of the MGMT_FAILOVER that asked for it [20 R581; 02 R61; reset none] -/
  limpCause : Option (Nat × Nat × Nat) := none
  /-- COASTING [20 R571; reset 0] -/
  coasting : Bool := false
  /-- boundary B and FATAL_CAUSE of the coast [20 R567; reset none] -/
  coastEnd : Option (Nat × Nat) := none
  /-- FATAL [20 R571; reset 0] -/
  fatal : Bool := false
  /-- FATAL_CAUSE, 8 bits [20 R571; reset 0] -/
  fatalCause : Nat := 0
  /-- UPDATING [20 R571; reset 0] -/
  updating : Bool := false
  /-- TAKEOVERS, 32 bits [20 R571; reset 0] -/
  takeovers : Nat := 0
  /-- SUP_RESTARTS, 32 bits [20 R571; reset 0] -/
  supRestarts : Nat := 0
  /-- COAST_MS, 16 bits [20 R571; reset FW: 32 without a stored profile] -/
  coastMs : Nat := 32
  /-- LAST_TAKEOVER, 64 bits [20 R571; reset 0] -/
  lastTakeover : Nat := 0
  /-- FATAL_AT, 64 bits [20 R571; reset 0] -/
  fatalAt : Nat := 0
  /-- TRB0-TRB36, 16 bits each, by word [20 R571, R572; reset 0] -/
  trb : Tab (BitVec 16) := []
  /-- LOG_PROD, 32 bits [20 R571; reset 0] -/
  logProd : Nat := 0
  /-- LOG_CONS, 32 bits [20 R571; reset 0] -/
  logCons : Nat := 0
  /-- LOG_LOST, 32 bits, RC [20 R571; reset 0] -/
  logLost : Nat := 0
  /-- the log ring, newest first, at most 4,096 entries [20 R573; reset empty] -/
  log : List LogEntry := []
  /-- the flash copy of the log, newest first [20 R574; reset none] -/
  logFlash : Option (List LogEntry) := none
  /-- ATC of supervisor restarts within the last 1 s [20 R569; reset none] -/
  supTimes : List Nat := []
  /-- the supervisor is held stopped [20 R569; reset false] -/
  supHeld : Bool := false
  /-- ATC of the last checkpoint [20 R563, R580; reset 0] -/
  ckptAt : Nat := 0
  /-- journal records since the checkpoint, 16 bits [20 R563, R580; reset 0] -/
  journal : Nat := 0
  /-- flash slots 0 and 1 of Breano [20 R576, R580; slot 0 holds the running image, log 40] -/
  fw0 : FwSlot := { loaded := true }
  /-- flash slot 1 [20 R576; reset empty] -/
  fw1 : FwSlot := {}
  /-- booted slot [20 R577, R580; reset 0 DESIGN CHOICE log 40] -/
  booted : Nat := 0
  /-- release of the running image, from which FW_MINOR is read [02 R52; 20 R577; reset 0 DESIGN CHOICE log 40] -/
  running : Nat := 0
  /-- activation in progress [20 R577; reset none] -/
  fwRun : Option FwRun := none
  /-- microcode update in progress [20 R579; reset none] -/
  engUpd : Option EngUpd := none
  /-- PLAN_GAP events of Breano held during limp [20 R565; reset none] -/
  limpHeld : List (Nat × Event) := []
  deriving DecidableEq, Repr

/-! #### Power -/

/-- State of a switched domain. [21 R590, R596, R600] -/
inductive DomSt where
  | awake | entering | asleep | waking
  deriving DecidableEq, Repr

structure Dom where
  /-- awake, entering, asleep or waking [21 R600; reset awake (R607)] -/
  st : DomSt := .awake
  /-- depth held or being entered: 1 Freewheel, 2 Coast, 3 Park; 0 awake [21 R588; reset 0] -/
  depth : Nat := 0
  /-- level in force at the start of a change, PL0-PL7 [21 R583; reset 7 (R607)] -/
  level : Nat := 7
  /-- target level [21 R585, R600; reset 7] -/
  target : Nat := 7
  /-- ATC at which the running level change fired [21 R584; reset none] -/
  firedAt : Option Nat := none
  /-- NOTIFY of the running change, with TAG [21 R584; reset none] -/
  notify : Option Nat := none
  /-- ATC at which the wake event reached the domain [21 R588; reset 0] -/
  wakeAt : Nat := 0
  /-- cause of the running wake [21 R601; reset 0] -/
  wakeCause : Nat := 0
  /-- TAG of the PWR_WAKE that wakes it [02 R61; reset 0] -/
  wakeTag : Nat := 0
  deriving DecidableEq, Repr

/-- The sleep group in progress. [21 R590-R595] -/
structure SleepGroup where
  /-- domain mask [21 R600] -/
  mask : Nat
  /-- depth [21 R600] -/
  depth : Nat
  /-- wake ATC, 0 for none [21 R600] -/
  wake : Nat
  /-- TAG [02 R61] -/
  tag : Nat
  /-- domain being asked or stopping, and whether it has acknowledged [21 R590] -/
  asking : Option (Nat × Bool) := none
  /-- ATC at which `asking` was asked [21 R590] -/
  askedAt : Nat := 0
  /-- domains stopped, in order of entry [21 R590] -/
  stopped : List Nat := []
  /-- the refusing domain and its reason, while rolling back [21 R593] -/
  refusal : Option (Nat × Nat) := none
  /-- latched wakes: domain, cause and TAG [21 R594] -/
  latched : List (Nat × Nat × Nat) := []
  /-- the group is the DORMANT entry [21 R597] -/
  dormant : Bool := false
  deriving DecidableEq, Repr

structure Power where
  /-- D0-D31 [21 R582; reset awake at PL7] -/
  doms : Tab Dom := []
  /-- group in progress [21 R595; reset none] -/
  group : Option SleepGroup := none
  /-- wakes replayed, 32 bits [21 R600; reset 0] -/
  replayed : Nat := 0
  /-- wakes discarded, 32 bits [21 R600; reset 0] -/
  discarded : Nat := 0
  /-- DORMANT wake mode [21 R598; reset 0x01 HUB DESIGN CHOICE log 42] -/
  wakeMode : Nat := 1
  /-- DORMANT wake ATC, 0 for none [21 R598; reset 0] -/
  wakeAtc : Nat := 0
  /-- domains of clusters that the start-up self-test has retired: they stay down [13 R381; reset none] -/
  down : List Nat := []
  /-- entry indexes of the PERF_LEVEL requests that asked for NOTIFY, with their TAG [21 R584] -/
  levelNotify : List (Nat × Nat) := []
  deriving DecidableEq, Repr

/-! #### Start-up -/

/-- Where the device stands between power and service. [22 R602, R605; 23 R617, R619, R627] -/
inductive Phase where
  | off            -- converters stopped
  | held           -- rails within limits, power-on reset not yet released
  | reset          -- power-on reset released
  | clocks         -- synthesiser locked
  | boot           -- Breano booted and blob read
  | tested         -- start-up self-tests done
  | service        -- SVC_READY = 1
  | stopped        -- start-up stopped (R605)
  | powerFail      -- PFAIL_N has fallen (R619)
  | thermal        -- thermal shutdown (R627)
  deriving DecidableEq, Repr

structure Startup where
  /-- phase of start-up [22 R602; reset: rails within limits, reset held] -/
  phase : Phase := .held
  /-- ATC of the end of each start-up step, 6 x 64 bits [22 R611; reset 0] -/
  ends : List Nat := [0, 0, 0, 0, 0, 0]
  /-- stop step and reason, 0xFF none [22 R611; reset 0xFF] -/
  stop : Nat × Nat := (0xFF, 0xFF)
  /-- resume state: 0 none, 1 held, 2 done, 3 timed out [22 R611; reset 0] -/
  resume : Nat := 0
  /-- ATC of service-ready [22 R609; reset 0] -/
  readyAt : Nat := 0
  /-- start-up runs under a warm restart, from the cadence cycle W [22 R610; reset none] -/
  warm : Option Nat := none
  /-- PCI Express configuration requests are completed [22 R604, R605; reset false] -/
  cfgOk : Bool := false
  /-- auto-resume has ended in HUB and waits for the condition of STOKER [19 R548; reset false] -/
  stokerWait : Bool := false
  /-- a profile is stored: AUTO and WAIT in s [22 R606, R611; reset none] -/
  profile : Option Profile := none
  /-- COAST_MS stored for the next start [20 R571; reset none] -/
  profCoast : Option Nat := none
  deriving DecidableEq, Repr

/-! #### Package -/

structure Pkg where
  /-- VIN in mV, as last reported [23 R617, R633; reset 12,000 DESIGN CHOICE log 43] -/
  vin : Nat := 12000
  /-- input current in mA [23 R633; reset 0 DESIGN CHOICE log 43] -/
  iin : Nat := 0
  /-- input power in mW [23 R633; reset 0 DESIGN CHOICE log 43] -/
  pin : Nat := 0
  /-- junction sensors 0-23 in 0.1 C, signed 16 bits [23 R626; reset 0 DESIGN CHOICE log 43] -/
  junction : List Int := List.replicate 24 0
  /-- DRAM stack sensors 0-3 in 0.1 C [23 R626; reset 0 DESIGN CHOICE log 43] -/
  dramTemps : List Int := List.replicate 4 0
  /-- ATC of the readings [23 R633; reset 0] -/
  readAt : Nat := 0
  /-- a warning has been posted and not cleared [23 R627; reset false] -/
  hot : Bool := false
  /-- ATC of the last THERMAL_WARN of each direction (cleared, reached), plus 1; 0 for none [23 R627; reset 0] -/
  warnAt : Nat × Nat := (0, 0)
  /-- first reading at or over 115 C of each sensor, ATC plus 1; 0 for none [23 R627; reset 0] -/
  over115 : Tab Nat := []
  /-- PFAIL_N is low [23 R619; reset false] -/
  pfail : Bool := false
  /-- DEV_FAULT driven low [22 R605; 23 R622; reset false] -/
  devFault : Bool := false
  /-- TANDEM_ID0-2 straps at the lands [23 R615, R622; reset 0 DESIGN CHOICE log 44] -/
  tandemStrap : Nat := 0
  /-- BLOB_FORCE strap at the lands [23 R615, R630; reset 0 DESIGN CHOICE log 44] -/
  blobForceStrap : Bool := false
  /-- TANDEM_ID as sampled at reset release [23 R622; 19 R538; reset 0] -/
  tandemId : Nat := 0
  /-- BLOB_FORCE as sampled at reset release [23 R622; reset 0] -/
  blobForce : Bool := false
  /-- blob flash copy, 8,192 bytes, or none readable [23 R630; reset none DESIGN CHOICE log 45] -/
  blobFlash : Option (List Byte) := none
  /-- board EEPROM copy, 8,192 bytes, or none readable [23 R630; reset none DESIGN CHOICE log 45] -/
  blobBoard : Option (List Byte) := none
  /-- the copy in use since the boot step [23 R630; reset empty] -/
  blob : List Byte := []
  deriving DecidableEq, Repr

/-! ### The whole block -/

/-- What has happened in the cadence cycle under way (log 142). -/
structure Cycle where
  /-- the RC registers as the cycle began, without those read in it: value by register [00 R12; reset empty] -/
  rc : Tab Nat := []
  /-- trouble bits that an event has set in this cycle, by trouble word [00 R11; reset empty] -/
  trb : Tab (BitVec 16) := []
  /-- movers' channels whose MOVER_START firing of this cycle found no descriptor ready, one entry a firing [12 R358; reset empty] -/
  missed : List Nat := []
  /-- the MAC ports' counters as the cycle began, without those that MAC_GET_STATS has cleared in it [15 R452; reset empty] -/
  mac : Tab (Tab Nat) := []
  /-- the pair channels' counters as the cycle began, without those that COP_GET_STATS has cleared in it [16 R493; reset empty] -/
  cop : Tab (Tab Nat) := []
  deriving DecidableEq, Repr

/-- The block without its clock and its queue. -/
structure Dev where
  /-- modes, LOOKASIDE, CONFORMANCE [01] -/
  devmode : DevMode := {}
  /-- host link, mailboxes, events, interrupts [02] -/
  host : HostIf := {}
  /-- carriers, Cadence, shadow control, plans [03] -/
  air : Air := {}
  /-- signal cores [04, 05, 06] -/
  cores : Cores := {}
  /-- Peloton [07] -/
  pel : Pel := {}
  /-- baseband engines [08] -/
  eng : Engines := {}
  /-- front end and compression [09, 10] -/
  fe : FrontEnd := {}
  /-- fabric [11] -/
  fab : Fabric := {}
  /-- movers [12] -/
  mov : Movers := {}
  /-- memory [13] -/
  mem : Mem := {}
  /-- serial spokes [14] -/
  spk : Spokes := {}
  /-- frame MACs [15] -/
  mac : Macs := {}
  /-- copper spokes [16] -/
  cop : Copper := {}
  /-- network time [17] -/
  time : NetTime := {}
  /-- truing [18] -/
  truing : Truing := {}
  /-- tandem [19] -/
  tnd : Tandem := {}
  /-- management [20] -/
  mgmt : Mgmt := {}
  /-- power domains [21] -/
  power : Power := {}
  /-- start-up [22] -/
  startup : Startup := {}
  /-- package [23] -/
  pkg : Pkg := {}
  /-- the cadence cycle under way [00] -/
  cyc : Cycle := {}
  /-- the model's own counter of free values drawn (log 8) [none; reset 0] -/
  free : Nat := 0
  deriving DecidableEq, Repr

def Dev.updDevmode (d : Dev) (f : DevMode → DevMode) : Dev := { d with devmode := f d.devmode }
def Dev.updHost (d : Dev) (f : HostIf → HostIf) : Dev := { d with host := f d.host }
def Dev.updAir (d : Dev) (f : Air → Air) : Dev := { d with air := f d.air }
def Dev.updCores (d : Dev) (f : Cores → Cores) : Dev := { d with cores := f d.cores }
def Dev.updPel (d : Dev) (f : Pel → Pel) : Dev := { d with pel := f d.pel }
def Dev.updEng (d : Dev) (f : Engines → Engines) : Dev := { d with eng := f d.eng }
def Dev.updFe (d : Dev) (f : FrontEnd → FrontEnd) : Dev := { d with fe := f d.fe }
def Dev.updFab (d : Dev) (f : Fabric → Fabric) : Dev := { d with fab := f d.fab }
def Dev.updMov (d : Dev) (f : Movers → Movers) : Dev := { d with mov := f d.mov }
def Dev.updMem (d : Dev) (f : Mem → Mem) : Dev := { d with mem := f d.mem }
def Dev.updSpk (d : Dev) (f : Spokes → Spokes) : Dev := { d with spk := f d.spk }
def Dev.updMac (d : Dev) (f : Macs → Macs) : Dev := { d with mac := f d.mac }
def Dev.updCop (d : Dev) (f : Copper → Copper) : Dev := { d with cop := f d.cop }
def Dev.updTime (d : Dev) (f : NetTime → NetTime) : Dev := { d with time := f d.time }
def Dev.updTruing (d : Dev) (f : Truing → Truing) : Dev := { d with truing := f d.truing }
def Dev.updTnd (d : Dev) (f : Tandem → Tandem) : Dev := { d with tnd := f d.tnd }
def Dev.updMgmt (d : Dev) (f : Mgmt → Mgmt) : Dev := { d with mgmt := f d.mgmt }
def Dev.updPower (d : Dev) (f : Power → Power) : Dev := { d with power := f d.power }
def Dev.updStartup (d : Dev) (f : Startup → Startup) : Dev := { d with startup := f d.startup }
def Dev.updCyc (d : Dev) (f : Cycle → Cycle) : Dev := { d with cyc := f d.cyc }
def Dev.updPkg (d : Dev) (f : Pkg → Pkg) : Dev := { d with pkg := f d.pkg }

/-- The state: the clock, the block, and the commands that wait, first in first out. -/
structure State where
  /-- network time, air time and the cadence clock [03, 17] -/
  clk : Clock := {}
  /-- the block -/
  dev : Dev := {}
  /-- commands waiting, first in first out (the model's own queue) [reset empty] -/
  pending : List Instr := []
  deriving DecidableEq, Repr

/-- The state right after reset: every field at the value its docstring names. -/
def State.reset : State := {}

end Sys2Proof.Machine
end

