-- ==== Sys2Proof/Machine/Flags.lean ====
section
/-! DEFINITION. Flag and saturation computations: rounding (R133), saturation, headroom (R134), compare conditions
(R113), integer results of the scalar operations (R114), and the SCL register (R132, R136). -/
namespace Sys2Proof.Machine

/-- Clamp to `w`-bit signed range. -/
def satS (w : Nat) (v : Int) : Int := max (-(2 ^ (w - 1) : Int)) (min v (2 ^ (w - 1) - 1))

/-- Clamp to `w`-bit unsigned range. -/
def satU (w : Nat) (v : Int) : Int := max 0 (min v (2 ^ w - 1))

/-- Arithmetic right shift with round-half-even (R133); a shift of 0 leaves the value. -/
def rsh (x : Int) (s : Nat) : Int :=
  let q := x / (2 ^ s : Int)
  let r := x - q * (2 ^ s : Int)
  let half := (2 ^ s : Int)
  if 2 * r > half || (2 * r = half && q % 2 = 1) then q + 1 else q

/-- shift(x, s) of R133: rounding right shift for s > 0, exact left shift for s < 0. -/
def scaleShift (x : Int) (s : Int) : Int := if 0 < s then rsh x s.toNat else x * (2 ^ (-s).toNat : Int)

/-- A rounded value trips the headroom flag for a field of `w` bits (R134). -/
def growHit (w head : Nat) (v : Int) : Bool :=
  v ≥ (2 ^ (w - 1 - head) : Int) || v < -(2 ^ (w - 1 - head) : Int)

/-- Wrap to a signed value of `w` bits. -/
def wrapS (w : Nat) (v : Int) : Int := sgn w (uns w v)

/-- Compare conditions (R113). -/
def condHolds (cond : Nat) (a b : Word) : Bool :=
  if cond = 0 then a = b
  else if cond = 1 then a != b
  else if cond = 2 then a.toInt < b.toInt
  else if cond = 3 then a.toInt ≥ b.toInt
  else if cond = 4 then a.toNat < b.toNat
  else if cond = 5 then a.toNat ≥ b.toNat
  else if cond = 6 then a &&& b != 0
  else a &&& b = 0

/-- A word of two 16-bit lanes. -/
def lanes (lo hi : Int) : Word := BitVec.ofNat 32 (uns 16 lo + 65536 * uns 16 hi)
def laneLo (w : Word) : Int := sgn 16 w.toNat
def laneHi (w : Word) : Int := sgn 16 (w.toNat / 65536)

/-- ADD and SUB by sub-code: wrap, saturate, two lanes wrapping, two lanes saturating (R114). -/
def addSub (neg : Bool) (sub : Nat) (a b : Word) : Word :=
  let f := fun (x y : Int) => if neg then x - y else x + y
  if sub = 0 then BitVec.ofInt 32 (f a.toInt b.toInt)
  else if sub = 1 then BitVec.ofInt 32 (satS 32 (f a.toInt b.toInt))
  else if sub = 2 then lanes (f (laneLo a) (laneLo b)) (f (laneHi a) (laneHi b))
  else lanes (satS 16 (f (laneLo a) (laneLo b))) (satS 16 (f (laneHi a) (laneHi b)))

/-- SHL by sub-code: logical, saturating (R114). -/
def shlOp (sub : Nat) (a : Word) (n : Nat) : Word :=
  if sub = 0 then a <<< n else BitVec.ofInt 32 (satS 32 (a.toInt * (2 ^ n : Int)))

/-- SHR by sub-code: logical, arithmetic, arithmetic with round-half-even (R114). -/
def shrOp (sub : Nat) (a : Word) (n : Nat) : Word :=
  if sub = 0 then a >>> n
  else if sub = 1 then BitVec.ofInt 32 (a.toInt / (2 ^ n : Int))
  else BitVec.ofInt 32 (rsh a.toInt n)

/-- The result of a three-register integer operation that is not a search step (R114). -/
def aluResult (op : AluOp) (sub : Nat) (a b : Word) : Word :=
  match op with
  | .add => addSub false sub a b
  | .sub => addSub true sub a b
  | .and => a &&& b
  | .or => a ||| b
  | .xor => a ^^^ b
  | .shl => shlOp sub a (b.toNat % 32)
  | .shr => shrOp sub a (b.toNat % 32)
  | .maxi => a
  | .mini => a

/-! ### SCL -/

/-- SCALE, signed (R132). -/
def sclScale (w : Word) : Int := sgn 5 w.toNat
def sclHead (w : Word) : Nat := bits w.toNat 8 3
def sclAuto (w : Word) : Bool := bit w.toNat 12
def sclGrow (w : Word) : Bool := bit w.toNat 16
def sclScnt (w : Word) : Nat := bits w.toNat 24 8

/-- SCL from its fields. -/
def sclMake (scnt : Nat) (sat grow auto : Bool) (head : Nat) (scale : Int) : Word :=
  BitVec.ofNat 32 (scnt % 256 * 2 ^ 24 + sat.toNat * 2 ^ 17 + grow.toNat * 2 ^ 16 + auto.toNat * 2 ^ 12 +
    head % 8 * 2 ^ 8 + uns 5 scale)

/-- What a write of `w` to SCL stores: reserved bits zero, SCALE clamped to -8 .. 8 (R8, R132). -/
def sclWrite (w : Word) : Word :=
  let n := w.toNat
  sclMake (bits n 24 8) (bit n 17) (bit n 16) (bit n 12) (bits n 8 3) (max (-8) (min (sgn 5 n) 8))

def sclSetGrow (w : Word) (g : Bool) : Word :=
  let n := w.toNat
  sclMake (bits n 24 8) (bit n 17) g (bit n 12) (bits n 8 3) (sgn 5 n)

/-- The step of an adjust point when it takes effect: SCALE and SCNT rise by 1, or SCSAT sets at SCALE = 8 (R136). -/
def sclAdjust (w : Word) : Word :=
  let n := w.toNat
  if sclScale w = 8 then sclMake (bits n 24 8) true (bit n 16) (bit n 12) (bits n 8 3) 8
  else sclMake (bits n 24 8 + 1) (bit n 17) (bit n 16) (bit n 12) (bits n 8 3) (sclScale w + 1)

/-- An MVA result by form, with the headroom flag it sets (R133, R134). -/
def mvaResult (form : Nat) (re im : Int) (scale : Int) (head : Nat) : Word × Bool :=
  if form = 0 then
    let s := (15 + scale).toNat
    let x := rsh re s
    let y := rsh im s
    (lanes (satS 16 x) (satS 16 y), growHit 16 head x || growHit 16 head y)
  else
    let v := scaleShift (if form = 1 then re else im) scale
    (BitVec.ofInt 32 (satS 32 v), growHit 32 head v)

end Sys2Proof.Machine
end

