-- ==== Sys2Proof/Machine/Fixed.lean ====
section
/-! DEFINITION. Elementary functions in fixed point, to far more places than any result the manual bounds: what ties a value to its
exact result where the manual gives the function and not its rounding. -/
namespace Sys2Proof.Machine

/-- ln 2 and pi in units of 2^-160. -/
def ln2F : Nat := 1013035739299659071135698605846798551586536899366
def piF : Nat := 4591442807048218921384805199743311128454155024418

/-- Sum of the series t, t * num(1) / den(1), ... in units of 2^-160: each term from the last. -/
def series (step : Nat → Int → Int) : Nat → Nat → Int → Int → Int
  | 0, _, _, acc => acc
  | n + 1, i, t, acc => series step n (i + 1) (step i t) (acc + t)

/-- e^r for |r| < 1, r in units of 2^-160. -/
def expF (r : Int) : Int := series (fun i t => t * r / 2 ^ 160 / ((i : Int) + 1)) 48 0 (2 ^ 160) 0

/-- Odd series z - s z^3/3 + z^5/5 ...: s = 1 gives atan, s = -1 gives atanh; terms carry z^(2i+1). -/
def oddF (s : Int) (z : Int) : Nat → Nat → Int → Int → Int
  | 0, _, _, acc => acc
  | n + 1, i, p, acc => oddF s z n (i + 1) (-s * (p * z / 2 ^ 160 * z / 2 ^ 160)) (acc + p / (2 * (i : Int) + 1))

def atanF (z : Int) : Int := oddF 1 z 70 0 z 0
def atanhF (z : Int) : Int := oddF (-1) z 56 0 z 0

/-- Sine and cosine of an angle in [0, pi/2], in units of 2^-160. -/
def cosF (x : Int) : Int :=
  series (fun i t => -(t * x / 2 ^ 160 * x / 2 ^ 160) / ((2 * (i : Int) + 1) * (2 * i + 2))) 30 0 (2 ^ 160) 0
def sinF (x : Int) : Int :=
  series (fun i t => -(t * x / 2 ^ 160 * x / 2 ^ 160) / ((2 * (i : Int) + 2) * (2 * i + 3))) 30 0 x 0

/-- Cosine and sine of `t` times pi/32,768, `t` below 65,536, in units of 2^-160; exact at the quarter turns. -/
def turnF (t : Nat) : Int × Int :=
  let x : Int := (t % 16384 : Nat) * (piF : Int) / 32768
  let c := cosF x
  let s := sinF x
  match t / 16384 with
  | 0 => (c, s)
  | 1 => (-s, c)
  | 2 => (-c, -s)
  | _ => (s, -c)

/-- An integer within `k` of `num / 2^s`. -/
def nearInt (k : Nat) (num : Int) (s free : Nat) : Int :=
  let lo := -((-(num - k * 2 ^ s)) / (2 ^ s : Int))
  let hi := (num + k * 2 ^ s) / (2 ^ s : Int)
  lo + (free : Int) % (hi - lo + 1)

end Sys2Proof.Machine
end

