-- ==== Sys2Proof/Machine/Commands.lean ====
section
/-! DEFINITION. The mailbox command codes: who may send each (R37, R77, R108 and the command tables of the later
chapters), the least request length, and whether Breano journals it (R563). -/
namespace Sys2Proof.Machine

/-- One row of a command table. -/
structure CmdInfo where
  /-- CODE -/
  code : Nat
  /-- PF0 only: DENIED from a virtual function -/
  pf0 : Bool
  /-- bytes of the fixed part of the request -/
  len : Nat
  /-- changes settings, so it is journalled (R563) -/
  journal : Bool
  deriving DecidableEq, Repr

/-- Commands of chapter 01. -/
def cmds01 : List CmdInfo :=
  [⟨0x0101, true, 9, true⟩,
   ⟨0x0102, false, 0, false⟩,
   ⟨0x0103, false, 0, false⟩,
   ⟨0x010A, false, 6, true⟩,
   ⟨0x010B, false, 3, false⟩,
   ⟨0x010C, true, 15, true⟩,
   ⟨0x010D, true, 7, true⟩,
   ⟨0x010E, true, 11, true⟩]

/-- Commands of chapter 02. -/
def cmds02 : List CmdInfo :=
  [⟨0x0110, false, 9, true⟩,
   ⟨0x0111, true, 34, true⟩,
   ⟨0x0112, false, 5, true⟩,
   ⟨0x0113, true, 128, true⟩,
   ⟨0x0114, false, 15, true⟩,
   ⟨0x0115, false, 0, false⟩]

/-- Commands of chapter 03. -/
def cmds03 : List CmdInfo :=
  [⟨0x0201, true, 13, true⟩,
   ⟨0x0202, true, 2, true⟩,
   ⟨0x0203, false, 2, false⟩,
   ⟨0x0210, true, 30, true⟩,
   ⟨0x0211, true, 2, true⟩,
   ⟨0x0212, true, 3, true⟩,
   ⟨0x0220, false, 6, true⟩,
   ⟨0x0221, false, 5, false⟩,
   ⟨0x0230, false, 16, true⟩,
   ⟨0x0231, false, 7, true⟩]

/-- Commands of chapter 04. -/
def cmds04 : List CmdInfo :=
  [⟨0x0401, true, 1, true⟩,
   ⟨0x0402, true, 2, true⟩,
   ⟨0x0403, true, 3, true⟩,
   ⟨0x0404, true, 1, false⟩,
   ⟨0x0410, true, 2, false⟩,
   ⟨0x0411, true, 2, true⟩]

/-- Commands of chapter 07. -/
def cmds07 : List CmdInfo :=
  [⟨0x0301, true, 3, true⟩,
   ⟨0x0302, true, 130, true⟩,
   ⟨0x0303, true, 157, true⟩,
   ⟨0x0304, true, 2, true⟩,
   ⟨0x0305, true, 2, false⟩,
   ⟨0x0306, true, 20, true⟩,
   ⟨0x0307, true, 2, true⟩,
   ⟨0x0308, true, 1, true⟩,
   ⟨0x0309, true, 10, false⟩,
   ⟨0x030A, true, 20, true⟩]

/-- Commands of chapter 08. -/
def cmds08 : List CmdInfo :=
  [⟨0x0501, true, 22, true⟩,
   ⟨0x0502, true, 1, false⟩,
   ⟨0x0503, true, 9, true⟩,
   ⟨0x0504, true, 8, true⟩,
   ⟨0x0505, true, 2, true⟩,
   ⟨0x0506, true, 1, true⟩,
   ⟨0x0507, true, 1, false⟩,
   ⟨0x0508, true, 17, true⟩,
   ⟨0x0509, true, 2, true⟩]

/-- Commands of chapter 09. -/
def cmds09 : List CmdInfo :=
  [⟨0x0601, false, 23, true⟩,
   ⟨0x0602, false, 14, true⟩,
   ⟨0x0603, false, 5, true⟩,
   ⟨0x0604, false, 7, true⟩,
   ⟨0x0605, false, 3, false⟩,
   ⟨0x0606, false, 16, true⟩,
   ⟨0x0607, false, 3, false⟩,
   ⟨0x0608, false, 3, false⟩,
   ⟨0x0609, false, 2, true⟩]

/-- Commands of chapter 10. -/
def cmds10 : List CmdInfo :=
  [⟨0x0690, false, 10, true⟩,
   ⟨0x0691, false, 3, false⟩,
   ⟨0x0692, false, 3, true⟩]

/-- Commands of chapter 11. -/
def cmds11 : List CmdInfo :=
  [⟨0x0EC0, true, 131, true⟩,
   ⟨0x0EC1, true, 8, true⟩,
   ⟨0x0EC2, true, 0, false⟩,
   ⟨0x0EC3, true, 30, true⟩,
   ⟨0x0EC4, true, 10, true⟩,
   ⟨0x0EC5, true, 1, false⟩,
   ⟨0x0EC6, true, 2, false⟩]

/-- Commands of chapter 12. -/
def cmds12 : List CmdInfo :=
  [⟨0x0E80, true, 48, true⟩,
   ⟨0x0E81, false, 2, false⟩,
   ⟨0x0E82, false, 3, true⟩,
   ⟨0x0E83, false, 2, true⟩,
   ⟨0x0E84, false, 3, true⟩,
   ⟨0x0E85, true, 17, true⟩]

/-- Commands of chapter 13. -/
def cmds13 : List CmdInfo :=
  [⟨0x0E01, true, 0, false⟩,
   ⟨0x0E02, true, 2, true⟩,
   ⟨0x0E03, true, 3, true⟩,
   ⟨0x0E04, true, 1, false⟩,
   ⟨0x0E05, true, 1, false⟩,
   ⟨0x0E06, true, 9, true⟩,
   ⟨0x0E07, true, 4, false⟩,
   ⟨0x0E08, true, 8, true⟩,
   ⟨0x0E09, true, 0, true⟩,
   ⟨0x0E0A, true, 11, true⟩]

/-- Commands of chapter 14. -/
def cmds14 : List CmdInfo :=
  [⟨0x0701, true, 11, true⟩,
   ⟨0x0702, true, 1, true⟩,
   ⟨0x0703, true, 2, true⟩,
   ⟨0x0704, true, 1, false⟩,
   ⟨0x0705, true, 1, false⟩,
   ⟨0x0706, true, 3, true⟩,
   ⟨0x0707, true, 2, true⟩,
   ⟨0x0710, true, 2, true⟩,
   ⟨0x0711, true, 1, false⟩,
   ⟨0x0712, true, 3, true⟩,
   ⟨0x0713, true, 15, true⟩,
   ⟨0x0714, true, 12, true⟩,
   ⟨0x0715, true, 11, true⟩,
   ⟨0x0716, true, 2, false⟩,
   ⟨0x0717, true, 3, true⟩,
   ⟨0x0718, true, 1, false⟩,
   ⟨0x0719, true, 1, true⟩]

/-- Commands of chapter 15. -/
def cmds15 : List CmdInfo :=
  [⟨0x0801, true, 55, true⟩,
   ⟨0x0802, true, 103, true⟩,
   ⟨0x0803, true, 6, true⟩,
   ⟨0x0804, true, 4, true⟩,
   ⟨0x0805, true, 5, true⟩,
   ⟨0x0806, true, 3, true⟩,
   ⟨0x0807, true, 1, true⟩,
   ⟨0x0808, true, 2, false⟩,
   ⟨0x0809, true, 3, true⟩,
   ⟨0x080A, true, 1, false⟩]

/-- Commands of chapter 16. -/
def cmds16 : List CmdInfo :=
  [⟨0x0901, true, 32, true⟩,
   ⟨0x0902, true, 1, true⟩,
   ⟨0x0903, true, 2, true⟩,
   ⟨0x0904, true, 1, false⟩,
   ⟨0x0905, true, 2, true⟩,
   ⟨0x0906, true, 8195, true⟩,
   ⟨0x0907, true, 3, false⟩,
   ⟨0x0908, true, 3, false⟩,
   ⟨0x0909, true, 7, true⟩,
   ⟨0x090A, true, 2, true⟩,
   ⟨0x090B, true, 1, false⟩,
   ⟨0x090C, true, 3, false⟩,
   ⟨0x090D, true, 1, true⟩,
   ⟨0x090E, true, 3, true⟩]

/-- Commands of chapter 17. -/
def cmds17 : List CmdInfo :=
  [⟨0x0A01, false, 0, false⟩,
   ⟨0x0A02, true, 26, true⟩,
   ⟨0x0A03, true, 8, true⟩,
   ⟨0x0A04, true, 12, true⟩,
   ⟨0x0A05, true, 9, true⟩,
   ⟨0x0A06, true, 8, true⟩,
   ⟨0x0A07, true, 3, false⟩,
   ⟨0x0A08, true, 3, true⟩,
   ⟨0x0A09, true, 3, false⟩,
   ⟨0x0A0A, true, 7, true⟩,
   ⟨0x0A0B, true, 4, true⟩,
   ⟨0x0A0C, true, 11, true⟩]

/-- Commands of chapter 18. -/
def cmds18 : List CmdInfo :=
  [⟨0x0B01, true, 6, true⟩,
   ⟨0x0B02, true, 2, false⟩,
   ⟨0x0B03, true, 2, true⟩]

/-- Commands of chapter 19. -/
def cmds19 : List CmdInfo :=
  [⟨0x0C01, true, 4, true⟩,
   ⟨0x0C02, true, 5, true⟩,
   ⟨0x0C03, true, 0, false⟩,
   ⟨0x0C04, true, 2, true⟩,
   ⟨0x0C05, true, 1, true⟩,
   ⟨0x0C06, true, 10, true⟩,
   ⟨0x0C07, true, 18, true⟩,
   ⟨0x0C08, true, 8, true⟩,
   ⟨0x0C09, true, 48, true⟩,
   ⟨0x0C0A, true, 8, true⟩,
   ⟨0x0C0B, true, 1, true⟩]

/-- Commands of chapter 20. -/
def cmds20 : List CmdInfo :=
  [⟨0x0F01, true, 3, true⟩,
   ⟨0x0F02, true, 0, false⟩,
   ⟨0x0F03, true, 0, false⟩,
   ⟨0x0F10, true, 7, false⟩,
   ⟨0x0F11, true, 0, false⟩,
   ⟨0x0F12, true, 0, false⟩,
   ⟨0x1001, true, 1, true⟩,
   ⟨0x1002, true, 0, true⟩,
   ⟨0x1003, true, 0, false⟩,
   ⟨0x1004, true, 10, true⟩]

/-- Commands of chapter 21. -/
def cmds21 : List CmdInfo :=
  [⟨0x0D01, true, 14, true⟩,
   ⟨0x0D02, true, 13, true⟩,
   ⟨0x0D03, true, 4, true⟩,
   ⟨0x0D04, true, 0, false⟩,
   ⟨0x0D05, true, 9, true⟩]

/-- Commands of chapter 22. -/
def cmds22 : List CmdInfo :=
  [⟨0x0104, true, 3, true⟩,
   ⟨0x0105, true, 0, false⟩,
   ⟨0x0106, true, 0, true⟩]

/-- Commands of chapter 23. -/
def cmds23 : List CmdInfo :=
  [⟨0x0107, true, 0, false⟩,
   ⟨0x0108, true, 8192, true⟩,
   ⟨0x0109, true, 1, false⟩]

/-- Every command. -/
def cmdTable : List CmdInfo :=
  cmds01 ++ cmds02 ++ cmds03 ++ cmds04 ++ cmds07 ++ cmds08 ++ cmds09 ++ cmds10 ++ cmds11 ++ cmds12 ++ cmds13 ++ cmds14 ++ cmds15 ++ cmds16 ++ cmds17 ++ cmds18 ++ cmds19 ++ cmds20 ++ cmds21 ++ cmds22 ++ cmds23

/-- The row of a code: none for a code the tables do not assign (BADCODE). -/
def cmdInfo (code : Nat) : Option CmdInfo := cmdTable.find? fun i => i.code = code

/-- Breano journals the command (R563). -/
def journalled (code : Nat) : Bool := (cmdInfo code).any (·.journal)

end Sys2Proof.Machine
end

