-- ==== Sys2Proof/Machine/Ops.lean ====
section
/-! DEFINITION. The operations every family shares: sparse tables, byte memories, function interfaces, MSI-X
(R70, R71), the event ring (R66-R68), the trouble record (R572-R574), the command slots and their answers
(R55-R65), and the free values. -/
namespace Sys2Proof.Machine

/-! ### Sparse tables -/

/-- The value at `k`, `d` where none is listed. -/
def tget {α : Type} (d : α) : Tab α → Nat → α
  | [], _ => d
  | (k', v) :: m, k => if k = k' then v else tget d m k

/-- The value listed at `k`, if any. -/
def tfind {α : Type} : Tab α → Nat → Option α
  | [], _ => none
  | (k', v) :: m, k => if k = k' then some v else tfind m k

/-- The table without an entry at `k`. -/
def tdel {α : Type} : Tab α → Nat → Tab α
  | [], _ => []
  | (k', v) :: m, k => if k = k' then tdel m k else (k', v) :: tdel m k

/-- The table with `v` listed at `k`, keys rising. -/
def tput {α : Type} : Tab α → Nat → α → Tab α
  | [], k, v => [(k, v)]
  | (k', v') :: m, k, v =>
    if k < k' then (k, v) :: (k', v') :: m else if k = k' then (k, v) :: m else (k', v') :: tput m k v

/-- The canonical write: the default is never listed. -/
def tset {α : Type} [DecidableEq α] (d : α) (m : Tab α) (k : Nat) (v : α) : Tab α :=
  if v = d then tdel m k else tput m k v

/-- Update one entry through `f`. -/
def tmod {α : Type} [DecidableEq α] (d : α) (m : Tab α) (k : Nat) (f : α → α) : Tab α := tset d m k (f (tget d m k))

/-- Keys strictly rise from above `lo`. -/
def rising {α : Type} : Nat → Tab α → Bool
  | _, [] => true
  | lo, (k, _) :: m => lo ≤ k && rising (k + 1) m

/-- The canonical form of a table with default `d`: keys strictly rising, no entry equal to the default. -/
def Tab.wf {α : Type} [DecidableEq α] (d : α) (m : Tab α) : Bool := rising 0 m && m.all fun e => e.2 != d

/-- Bytes `a`, `a + 1`, ... of a byte memory. -/
def readBytes (m : Tab Byte) (a n : Nat) : List Byte := (List.range n).map fun i => tget 0 m (a + i)

/-- A byte memory with `bs` stored from `a` on. -/
def writeBytes (m : Tab Byte) : Nat → List Byte → Tab Byte
  | _, [] => m
  | a, b :: bs => writeBytes (tset 0 m a b) (a + 1) bs

/-- The little-endian number of `n` bytes at `a` (R6). -/
def readLe (m : Tab Byte) (a n : Nat) : Nat := leVal (readBytes m a n)

/-- `x` placed before the first entry that it precedes. -/
def insertBy {α : Type} (before : α → α → Bool) (x : α) : List α → List α
  | [] => [x]
  | y :: ys => if before x y then x :: y :: ys else y :: insertBy before x ys

/-- A list in the order of `before`; equal entries keep their order. -/
def sortBy {α : Type} (before : α → α → Bool) (l : List α) : List α := l.foldr (insertBy before) []

/-! ### Free values -/

/-- One free value: nothing is known of it (log 8). -/
def draw (d : Dev) : Nat × Dev := (Config.freeNat d.free, { d with free := d.free + 1 })

/-! ### Functions -/

def Dev.func (d : Dev) (f : Nat) : Func := tget {} d.host.funcs f

def Dev.updFunc (d : Dev) (f : Nat) (g : Func → Func) : Dev :=
  d.updHost fun h => { h with funcs := tmod {} h.funcs f g }

/-- The device accesses host memory with the Requester ID of function `f` (R41, R65). A write carries neither attribute; a read
may carry Relaxed Ordering where it is enabled, and No Snoop where its queue asks for it and it is enabled (R72, R73). -/
def HostIf.access (h : HostIf) (f : Nat) (write : Bool) (a n : Nat) (queueNoSnoop : Bool) : HostIf :=
  let g := tget {} h.funcs f
  { h with link := h.link ++ [{ func := f, write := write, addr := a, len := n
                                noSnoop := !write && queueNoSnoop && g.noSnoopEn
                                relaxed := !write && g.relaxEn && Config.relaxes h.link.length }] }

/-- The device reads host memory for function `f`. -/
def HostIf.fetch (h : HostIf) (f a n : Nat) (queueNoSnoop : Bool := false) : HostIf := h.access f false a n queueNoSnoop

/-- The device writes `bs` to host memory for function `f`. -/
def HostIf.store (h : HostIf) (f a : Nat) (bs : List Byte) : HostIf :=
  { h.access f true a bs.length false with mem := writeBytes h.mem a bs }

/-- Vectors of a function: its own setting, or the default division of R70. -/
def Dev.vectorsOf (d : Dev) (f : Nat) : Nat := if f = 16 && !d.host.twoX8 then 0 else (d.func f).vectors

/-- Send vector `v` of function `f`, or set its PBA bit while it is masked, if a cause is pending and the count
or the time of R71 has been reached. -/
def Dev.tryVector (c : Clock) (d : Dev) (f v : Nat) : Dev :=
  let x := tget {} (d.func f).vect v
  if x.causes = 0 then d
  else if x.time = 0 || x.count ≤ x.causes || x.time * 196608 ≤ (c.atc - x.first) * 100 then
    let d := d.updFunc f fun g =>
      { g with vect := tset {} g.vect v { x with causes := 0, first := 0, pba := x.masked || x.pba } }
    if x.masked then d else d.updHost fun h => { h with msix := h.msix ++ [⟨f, v⟩] }
  else d

/-- One interrupt cause of vector `v` of function `f` (R71). Vectors the function does not hold signal nothing. -/
def Dev.cause (c : Clock) (d : Dev) (f v : Nat) : Dev :=
  if v < d.vectorsOf f then
    (d.updFunc f fun g => { g with vect := tmod {} g.vect v fun x =>
      { x with causes := x.causes + 1, first := if x.causes = 0 then c.atc else x.first } }).tryVector c f v
  else d

/-! ### Trouble bits -/

/-- Names of the trouble bits (R572). -/
def trbCE : Nat := 0
def trbUE : Nat := 1
def trbPARITY : Nat := 2
def trbFABRIC : Nat := 3
def trbREG : Nat := 4
def trbDROP : Nat := 5
def trbTRANSIENT : Nat := 6
def trbLASTING : Nat := 7
def trbRETIRED : Nat := 8
def trbSPLICED : Nat := 9
def trbTIMING : Nat := 10
def trbLINK : Nat := 11
def trbOVERFLOW : Nat := 12
def trbHALT : Nat := 13
def trbCONFIG : Nat := 14
def trbFATAL : Nat := 15

/-- Set trouble bit `b` of word `w` (R572), and note that an event has set it in this cycle (R11). -/
def Dev.trouble (d : Dev) (w b : Nat) : Dev :=
  let on := fun (t : Tab (BitVec 16)) => tmod 0 t w fun x => x ||| BitVec.ofNat 16 (2 ^ b)
  (d.updMgmt fun m => { m with trb := on m.trb }).updCyc fun y => { y with trb := on y.trb }

/-! ### The event ring -/

/-- An entry as laid out in the ring (R66). -/
def Event.bytes (e : Event) (phase : Bool) : List Byte :=
  pk [(2, e.code), (1, e.func), (1, phase.toNat), (2, e.tag), (2, 0), (8, e.atc)] ++ e.data

/-- The ring length of a function. -/
def Func.ringLen (g : Func) : Nat := 2 ^ g.ringLog

/-- The ring is full: advancing EVT_PROD would make it equal to EVT_CONS modulo the ring length (R68). -/
def Func.ringFull (g : Func) : Bool := (g.prod + 1) % g.ringLen == g.cons % g.ringLen

/-- Write one entry at EVT_PROD, its bytes [3:0] last, advance EVT_PROD, and signal vector 1 (R67). -/
def Dev.writeEvent (c : Clock) (d : Dev) (f : Nat) (e : Event) : Dev :=
  let g := d.func f
  let a := g.ringAddr + 32 * g.prod
  let b := e.bytes g.phase
  let d := d.updHost fun h => (h.store f (a + 4) (b.drop 4)).store f a (b.take 4)
  let p := (g.prod + 1) % g.ringLen
  (d.updFunc f fun g => { g with prod := p, phase := if p = 0 then !g.phase else g.phase }).cause c f 1

/-- Post one event to the ring of function `f`: discarded without a ring, held up to 256 while the ring is full,
counted in EVT_LOST beyond (R68). EVT_LOST and its total stop at 2^32 - 1, which the manual does not say (log 126). -/
def Dev.post (c : Clock) (d : Dev) (f : Nat) (e : Event) : Dev :=
  let g := d.func f
  if g.ringAddr = 0 then d
  else if g.ringFull || !g.held.isEmpty || g.lostRun != 0 then
    if g.held.length < 256 then d.updFunc f fun g => { g with held := g.held ++ [e] }
    else (d.trouble 33 trbOVERFLOW).updFunc f fun g =>
      { g with lostRun := g.lostRun + 1, evtLost := satAdd 32 g.evtLost 1, evtLostTotal := satAdd 32 g.evtLostTotal 1 }
  else d.writeEvent c f e

/-- Write held events, then EVENTS_LOST, while the ring has space (R68). -/
def Dev.flushHeld (c : Clock) (f : Nat) : Nat → Dev → Dev
  | 0, d => d
  | n + 1, d =>
    let g := d.func f
    if g.ringAddr = 0 || g.ringFull then d
    else match g.held with
      | e :: es => ((d.updFunc f fun g => { g with held := es }).writeEvent c f e).flushHeld c f n
      | [] =>
        if g.lostRun = 0 then d
        else (d.updFunc f fun g => { g with lostRun := 0 }).writeEvent c f
          { code := 0x0181, func := f, tag := 0, atc := c.atc, data := evd [(0, 4, g.lostRun)] }

/-- Discard the events held for a function, each adding 1 to EVT_LOST (R68). -/
def Func.dropHeld (g : Func) : Func :=
  { g with held := [], lostRun := 0, evtLost := satAdd 32 g.evtLost g.held.length,
           evtLostTotal := satAdd 32 g.evtLostTotal g.held.length }

/-- Event `code` about function `own`, to the ring of `ring`. -/
def Dev.evt (c : Clock) (d : Dev) (ring own code tag : Nat) (fs : List (Nat × Nat × Nat)) : Dev :=
  d.post c ring { code := code, func := own, tag := tag, atc := c.atc, data := evd fs }

/-- An event to PF0. -/
def Dev.evt0 (c : Clock) (d : Dev) (code tag : Nat) (fs : List (Nat × Nat × Nat)) : Dev := d.evt c 0 0 code tag fs

/-- An event that Breano generates: held during limp and posted after it (R565). -/
def Dev.evtBreano (c : Clock) (d : Dev) (ring own code tag : Nat) (fs : List (Nat × Nat × Nat)) : Dev :=
  if d.mgmt.limp then
    d.updMgmt fun m => { m with limpHeld := m.limpHeld ++
      [(ring, { code := code, func := own, tag := tag, atc := c.atc, data := evd fs })] }
  else d.evt c ring own code tag fs

/-! ### The trouble record -/

/-- Severity of a cause by its trouble bit (DESIGN CHOICE, log 9: R573 names the four and assigns none). -/
def severityOf (b : Nat) : Nat :=
  if b = trbFATAL then 3
  else if b = trbUE || b = trbPARITY || b = trbLASTING || b = trbRETIRED || b = trbHALT then 2
  else if b = trbCE || b = trbSPLICED then 0 else 1

/-- Fold a cause into an identical entry less than 1 ms old (R574): none where there is none. -/
def foldLog (now code block : Nat) (data : List Byte) : List LogEntry → Option (List LogEntry)
  | [] => none
  | e :: es =>
    if now < e.atc + 1966080 && e.code = code && e.block = block && e.data.take 6 = data.take 6 then
      some ({ e with rep := min (e.rep + 1) 65535 } :: es)
    else (foldLog now code block data es).map (e :: ·)

/-- Write a cause into the trouble log, or fold it into an entry (R573, R574). -/
def Dev.logOnly (c : Clock) (d : Dev) (w sev code : Nat) (data : List Byte) : Dev :=
  let data := (data ++ List.replicate 14 0).take 14
  d.updMgmt fun m =>
    match foldLog c.atc code w data m.log with
    | some l => { m with log := l }
    | none =>
      let e : LogEntry := { atc := c.atc, code := code, block := w, sev := sev, seq := m.logProd, rep := 0, data := data }
      let old := (m.log.drop 4095).head?
      { m with
        log := e :: m.log.take 4095
        logProd := (m.logProd + 1) % 2 ^ 32
        logLost := match old with
          | some o => if m.logCons ≤ o.seq then satAdd 32 m.logLost 1 else m.logLost
          | none => m.logLost }

/-- A cause of block `w`: its trouble bit and its log entry. -/
def Dev.log (c : Clock) (d : Dev) (w b code : Nat) (data : List Byte) : Dev :=
  (d.trouble w b).logOnly c w (severityOf b) code data

/-- An event to `ring` that is also a cause of block `w`: posted, its trouble bit set, and logged under its own
code (R573). -/
def Dev.evtLog (c : Clock) (d : Dev) (ring own code tag w b : Nat) (fs : List (Nat × Nat × Nat)) : Dev :=
  (d.evt c ring own code tag fs).log c w b code (evd fs)

/-- An event to PF0 that is also a cause of block `w` which sets no trouble bit of its own: posted and logged (R573). -/
def Dev.evtNote (c : Clock) (d : Dev) (code tag w : Nat) (fs : List (Nat × Nat × Nat)) : Dev :=
  (d.evt0 c code tag fs).logOnly c w 1 code (evd fs)

/-- Breano is away: from a failure of the active pair to the end of the takeover, and in the coast (R565, R567). -/
def Dev.breanoAway (d : Dev) : Bool := d.mgmt.limp || d.mgmt.coasting || d.mgmt.fatal

/-- Every spoke sends idle only: after the coast, and after a power failure (R567, R619). -/
def Dev.idleOnly (d : Dev) : Bool := d.mgmt.fatal || d.startup.phase = .powerFail

/-! ### Answers to commands -/

/-- Status codes (R75). -/
def stOK : Nat := 0x0000
def stACCEPTED : Nat := 0x0001
def stBUSY : Nat := 0x0010
def stNOTREADY : Nat := 0x0011
def stASLEEP : Nat := 0x0012
def stBADCODE : Nat := 0x0020
def stBADARG : Nat := 0x0021
def stBADSTATE : Nat := 0x0022
def stDENIED : Nat := 0x0030
def stOVERLOAD : Nat := 0x0031
def stLATE : Nat := 0x0032
def stREFUSED : Nat := 0x0040
def stABORTED : Nat := 0x0041
def stFAULT : Nat := 0x0050
def stTIMEOUT : Nat := 0x0051

/-- What a command answers: STATUS, DETAIL and response data. -/
structure Reply where
  status : Nat
  detail : Nat := 0
  payload : List Byte := []
  deriving DecidableEq, Repr

def rOk (fs : List (Nat × Nat) := []) : Reply := { status := stOK, payload := pk fs }
def rAcc (fs : List (Nat × Nat) := []) : Reply := { status := stACCEPTED, payload := pk fs }
def rSt (s : Nat) : Reply := { status := s }
/-- BADARG at the payload byte `off` (R637). -/
def rBad (off : Nat) : Reply := { status := stBADARG, detail := off }

/-- Who asks: the acting function, the page that owns the slot, and what later events need. -/
structure Ctx where
  /-- mailbox page: the function that sent the command -/
  page : Nat
  /-- FUNC: the function the command acts for (R57) -/
  func : Nat
  tag : Nat
  /-- ATC of the doorbell -/
  rung : Nat
  clk : Clock
  deriving DecidableEq, Repr

/-- An object of `owner` is visible to the acting function (R44). -/
def Ctx.sees (x : Ctx) (owner : Nat) : Bool := x.func = 0 || x.func = owner

/-- Where a slot lies in the mailbox bytes. -/
def slotBase (page slot : Nat) : Nat := 4096 * page + 256 * slot

/-- Write the response of slot `w`: the response data of a request by reference to its buffer and their number inline, others
inline, with the header before them (R55, R63, R64). A BADARG writes nothing to the buffer, and its inline bytes are the required
length where it names one. The slot waits no more. -/
def HostIf.answer (h : HostIf) (w : Waiting) (r : Reply) : HostIf :=
  let byRef := bit w.flags 0
  let toBuf := byRef && r.status != stBADARG
  let inl := if byRef && (toBuf || r.payload.isEmpty) then le 4 (if toBuf then r.payload.length else 0) else r.payload
  let hdr := pk [(2, w.code), (2, w.tag), (2, inl.length), (2, w.flags), (1, w.func), (1, 0), (2, r.status), (4, r.detail)]
  let k := if toBuf && !r.payload.isEmpty then h.store w.page w.respAddr r.payload else h
  { k with mb := writeBytes h.mb (slotBase w.page w.slot) (hdr ++ inl)
           waiting := h.waiting.filter fun v => !(v.page = w.page && v.slot = w.slot) }

/-- Write the response of a slot and release it (R60); the reply fits. The counts of HOST_GET_FUNC_STATS are those of the page:
every answer completes a command, and every status but OK and ACCEPTED refuses one (log 143). -/
def Dev.respond (c : Clock) (d : Dev) (w : Waiting) (r : Reply) : Dev :=
  let d := d.updHost fun h => h.answer w r
  let d := d.updFunc w.page fun g =>
    { g with owned := g.owned &&& ~~~(BitVec.ofNat 16 (2 ^ w.slot)), completed := (g.completed + 1) % 2 ^ 64,
             refused := if r.status = stOK || r.status = stACCEPTED then g.refused else satAdd 32 g.refused 1 }
  let d := if bit w.flags 1 then d.evt c w.page w.func 0x0180 w.tag [(0, 2, w.code), (2, 2, r.status)] else d
  if bit w.flags 2 then d else d.cause c w.page 0

/-- A reply that does not fit where it must go: BADARG with the required length (R64, R637). -/
def misfit (w : Waiting) (r : Reply) : Option Reply :=
  let n := r.payload.length
  if bit w.flags 0 then
    if w.respLen < n then some { status := stBADARG, detail := 24, payload := le 4 n } else none
  else if 240 < n then some { status := stBADARG, detail := 0xFFFFFFFF, payload := le 4 n } else none

/-- A slot may start: a SERIAL command waits for every earlier one of its function, and no later one passes it
(R59). -/
def mayStart : List Waiting → Waiting → Bool
  | [], _ => false
  | v :: vs, w =>
    if v = w then true
    else if v.page = w.page && (bit v.flags 3 || bit w.flags 3) then false else mayStart vs w

/-- The function whose turn it is: the first after the one served last that has a ready command (R59). -/
def turn (h : HostIf) : Option Nat :=
  ((List.range 16).map fun i => (h.lastServed + 1 + i) % 16).find? fun p =>
    h.waiting.any fun w => w.page = p && mayStart h.waiting w

/-- The waiting slot that Breano serves with command `code`: none where the command is not there to serve. -/
def Dev.pick (d : Dev) (r : Req) (code : Nat) : Option Waiting :=
  match d.host.waiting.find? fun w => w.page = r.page && w.slot = r.slot && w.code = code && w.refuse.isNone with
  | some w => if mayStart d.host.waiting w && turn d.host = some w.page then some w else none
  | none => none

/-- Answer the slots whose headers are refused and that may start: at once, outside the round-robin turn, which is for commands
that Breano serves (R59; log 125). -/
def Dev.settleHeaders (c : Clock) : Nat → Dev → Dev
  | 0, d => d
  | n + 1, d =>
    match d.host.waiting.find? fun w => w.refuse.isSome && mayStart d.host.waiting w with
    | some w =>
      let r := w.refuse.getD (0, 0)
      (d.respond c w { status := r.1, detail := r.2 }).settleHeaders c n
    | none => d

/-- Serve one waiting command: `h` gives the answer and the new state; an answer that does not fit has had no
effect (R64). Where the slot is not waiting with this code, or its turn has not come, nothing occurs (log 10). -/
def serve (code : Nat) (r : Req) (h : Ctx → Dev → Reply × Dev) (c : Clock) (d : Dev) : Dev :=
  match d.pick r code with
  | none => d
  | some w =>
    let o := h { page := w.page, func := w.func, tag := w.tag, rung := w.rung, clk := c } d
    match misfit w o.1 with
    | some b => ((d.updHost fun h => { h with lastServed := w.page }).respond c w b).settleHeaders c d.host.waiting.length
    | none =>
      let d := if (o.1.status = stOK || o.1.status = stACCEPTED) && journalled code then
          o.2.updMgmt fun m => { m with journal := min (m.journal + 1) 65535 } else o.2
      ((d.updHost fun h => { h with lastServed := w.page }).respond c w o.1).settleHeaders c d.host.waiting.length

/-- Serve, and let `post` follow a response OK or ACCEPTED: what the command sets going once it is answered. -/
def serveThen (code : Nat) (r : Req) (h : Ctx → Dev → Reply × Dev) (post : Ctx → Dev → Dev) (c : Clock) (d : Dev) :
    Dev :=
  match d.pick r code with
  | none => d
  | some w =>
    let x : Ctx := { page := w.page, func := w.func, tag := w.tag, rung := w.rung, clk := c }
    let o := h x d
    let d' := serve code r h c d
    if (misfit w o.1).isNone && (o.1.status = stOK || o.1.status = stACCEPTED) then post x d' else d'

/-- Answer every slot that has not completed with `status` (R62, R567, R619). -/
def Dev.answerAll (c : Clock) (d : Dev) (status : Nat) : Dev :=
  d.host.waiting.foldl (fun d w => d.respond c w (rSt status)) d

/-- The common shape of a handler that answers without an effect. -/
def noFx (r : Ctx → Dev → Reply) : Ctx → Dev → Reply × Dev := fun x d => (r x d, d)

/-! ### The shape of a meaning -/

/-- What a command answers with. -/
abbrev Out := Host.Outcome State Fault Refusal

/-- A command whose effect lies in the device and moves no time. -/
def onDev (f : Clock → Dev → Dev) (s : State) : Out := .next { s with dev := f s.clk s.dev }

/-- A command that may also move time. -/
def onBoth (f : Clock → Dev → Clock × Dev) (s : State) : Out :=
  .next { s with clk := (f s.clk s.dev).1, dev := (f s.clk s.dev).2 }

end Sys2Proof.Machine
end

