-- ==== Sys2Proof/Machine/Memory.lean ====
section
/-! DEFINITION. Memory as every requester sees it (chapter 13): the address map, code words and their errors, reads and
writes of device memory; and the accessors of domains and cores that later files share. -/
namespace Sys2Proof.Machine

/-! ### Domains and cores -/

def Dev.dom (d : Dev) (n : Nat) : Dom := tget {} d.power.doms n

def Dev.updDom (d : Dev) (n : Nat) (f : Dom → Dom) : Dev := d.updPower fun p => { p with doms := tmod {} p.doms n f }

/-- The domain answers its neighbours: awake, or entering sleep and not yet stopped (R590). -/
def Dev.awake (d : Dev) (n : Nat) : Bool := (d.dom n).st = .awake || (d.dom n).st = .entering

/-- The domain has been asked to sleep: its blocks take no new work (R590). -/
def Dev.asked (d : Dev) (n : Nat) : Bool :=
  d.power.group.any fun g => g.stopped.contains n || g.asking.any fun a => a.1 = n

def Dev.core (d : Dev) (n : Nat) : Core := tget {} d.cores.core n

def Dev.setCore (d : Dev) (n : Nat) (k : Core) : Dev := d.updCores fun x => { x with core := tset {} x.core n k }

def Dev.updCore (d : Dev) (n : Nat) (f : Core → Core) : Dev := d.setCore n (f (d.core n))

/-! ### The address map -/

/-- Where a device address lies (R367). The core-local aliases are decoded in the core (R368). -/
inductive Region where
  | cluster (c : Nat) | sram | regs | dram | host | none
  deriving DecidableEq, Repr

def regionOf (a : Nat) : Region :=
  if 0x0100000000 ≤ a && a < 0x0110000000 && a % 0x01000000 < 0x800000 then .cluster ((a - 0x0100000000) / 0x01000000)
  else if 0x0200000000 ≤ a && a ≤ 0x0203FFFFFF then .sram
  else if 0x0300000000 ≤ a && a ≤ 0x03FFFFFFFF then .regs
  else if 0x1000000000 ≤ a && a ≤ 0x2FFFFFFFFF then .dram
  else if 0x4000000000 ≤ a && a ≤ 0x7FFFFFFFFF then .host
  else .none

/-- Where the LDM and IM bytes of a core stand among code-word keys: above the 48-bit space (log 31). -/
def ldmKey (core off : Nat) : Nat := 2 ^ 48 + core * 2 ^ 18 + off
def imKey (core off : Nat) : Nat := 2 ^ 49 + core * 2 ^ 17 + off

/-- Where entry `i` of the Cadence entry table stands among code-word keys (R372, R376; log 31). -/
def cadKey (i : Nat) : Nat := 2 ^ 50 + 64 * i

/-- Bytes of a code word (R372). -/
def cwSize (a : Nat) : Nat := if 0x1000000000 ≤ a && a < 2 ^ 48 then 32 else 8

/-- Base of the code word that holds `a`. -/
def cwBase (a : Nat) : Nat := a / cwSize a * cwSize a

/-- Memory class: 0 DRAM, 1 static RAM (R387). -/
def memClass (a : Nat) : Nat := if 0x1000000000 ≤ a && a < 2 ^ 48 then 0 else 1

/-- The core whose LDM or IM a key above the address space names. -/
def keyCore (a : Nat) : Nat := if a < 2 ^ 49 then (a - 2 ^ 48) / 2 ^ 18 else (a - 2 ^ 49) / 2 ^ 17

/-- The switched domain of a memory address, none for BASE (R369, R582). -/
def memDomain (a : Nat) : Option Nat :=
  if 2 ^ 50 ≤ a then none
  else if 2 ^ 48 ≤ a then some (keyCore a / 64)
  else match regionOf a with
    | .cluster c => some c
    | .dram => some (if a < 0x2000000000 then 28 else 29)
    | _ => none

/-- The trouble word of a memory address (R572). -/
def memBlock (a : Nat) : Nat := (memDomain a).getD 32

/-- The row that holds an address: 64 bytes of a static-RAM macro, or a 256-byte DRAM unit (log 31). -/
def rowOf (a : Nat) : Nat := if memClass a = 0 then a / 256 * 256 else a / 64 * 64

/-- The macro of a static-RAM address; the numbering is the model's (log 32). -/
def macroOf (a : Nat) : Nat :=
  if 2 ^ 50 ≤ a then 8192
  else if 2 ^ 49 ≤ a then 4096 + keyCore a
  else if 2 ^ 48 ≤ a then 2048 + keyCore a
  else match regionOf a with
    | .cluster c => c * 32 + bits a 12 2 * 8 + bits a 20 3
    | _ => 512 + (a - 0x0200000000) / 2 ^ 18

/-- The row number within its macro: offset [17:6] of the local offset (worked example of chapter 13). -/
def rowNo (a : Nat) : Nat :=
  match regionOf a with
  | .cluster _ => bits a 14 6 * 64 + bits a 6 6
  | _ => bits a 6 12

/-- DRAM tests queue per channel, static-RAM tests per macro (R383). -/
def testQueue (a : Nat) : Nat := if memClass a = 0 then 2 ^ 20 + bits a 9 1 + 2 * (if a < 0x2000000000 then 0 else 1)
  else macroOf a

/-- Base and size of the six partitions (R370). -/
def Mem.map (m : Mem) : List (Nat × Nat) :=
  let gb := 2 ^ 30
  let s := m.streamGB * gb
  let h := m.harqGB * gb
  [(0x1000000000, 2 * gb), (0x1080000000, 8 * gb), (0x1280000000, 4 * gb), (0x1380000000, s),
   (0x1380000000 + s, 0x3000000000 - h - (0x1380000000 + s)), (0x3000000000 - h, h)]

/-! ### Errors -/

/-- The requester classes of R376, by row. -/
def rqFetch : Nat := 0
def rqScalar : Nat := 1
def rqVector : Nat := 2
def rqCop : Nat := 3
def rqEngine : Nat := 4
def rqMover : Nat := 5
def rqSaddle : Nat := 6
def rqFront : Nat := 7
def rqCadence : Nat := 8
def rqHost : Nat := 9
def rqMgmt : Nat := 10
def rqScrub : Nat := 11

def Dev.memStat (d : Dev) (cls : Nat) (f : MemStats → MemStats) : Dev :=
  d.updMem fun m => { m with stats := tmod {} m.stats cls f }

/-- MEM_UE for a class with no period open at once, otherwise counted in the period (R388). -/
def Dev.noteUe (c : Clock) (d : Dev) (cls a : Nat) : Dev :=
  match tfind d.mem.uePer cls with
  | some p =>
    let q := { p with count := p.count + 1, first := if p.count = 0 then a else p.first }
    d.updMem fun m => { m with uePer := tput m.uePer cls q }
  | none =>
    let q : UePeriod := { start := c.atc, count := 0, first := 0 }
    (d.updMem fun m => { m with uePer := tput m.uePer cls q }).evt0 c 0x0E90 0
      [(0, 1, cls), (2, 2, 1), (8, 8, a)]

/-- Queue the targeted test of the row that holds `a` (R382): counted unclassified where 64 tests wait (R383); an
error in a row already under test is classified by that test. -/
def Dev.queueTest (d : Dev) (a : Nat) : Dev :=
  let t : MemTest := { kind := if memClass a = 0 then 1 else 0, unit := rowOf a }
  if d.mem.tests.any fun u => u.kind = t.kind && u.unit = t.unit then d
  else if 64 ≤ (d.mem.tests.filter fun u => u.kind = t.kind && testQueue u.unit = testQueue a).length then
    (d.trouble (memBlock a) trbOVERFLOW).memStat (memClass a) fun s => { s with unclassified := satAdd 32 s.unclassified 1 }
  else d.updMem fun m => { m with tests := m.tests ++ [t] }

/-- Units a targeted self-test names beside a DRAM row, a static-RAM row and a core, by the kind of the test: a coprocessor unit
(octet and unit) and an engine (R378, R382; log 157). -/
def utCOP : Nat := 5
def utENGINE : Nat := 6

/-- A parity error, which nothing corrects, counts as uncorrectable in the class of register files (R372, R387); the unit then receives
its targeted self-test, and the trouble word of `block` shows it (R378, R572). -/
def Dev.parityTest (d : Dev) (kind unit block : Nat) : Dev :=
  let d := (d.trouble block trbPARITY).memStat 2 fun s => { s with ue := satAdd 32 s.ue 1 }
  if d.mem.tests.any fun u => u.kind = kind && u.unit = unit then d
  else d.updMem fun m => { m with tests := m.tests ++ [{ kind := kind, unit := unit }] }

/-- A disturbance of the array at a code word that held no error: 1 a correctable and 2 an uncorrectable one. -/
def Dev.disturb (d : Dev) (cw found : Nat) : Dev :=
  if found != 0 && (tget {} d.mem.ecc cw).kind = .clean then
    d.updMem fun m => { m with ecc := tset {} m.ecc cw { kind := if found = 1 then .ce else .ue } }
  else d

/-- The code words of a row as a test, a splice or a repair restores them: each with its corrected data, poisoned words as
poisoned (R382, R384, R386). -/
def Dev.restoreRow (d : Dev) (row : Nat) : Dev :=
  d.updMem fun m =>
    { m with ecc := m.ecc.filterMap fun e =>
        if rowOf e.1 != row || e.2.kind = .poison then some e
        else if e.2.kind = .ue then some (e.1, { e.2 with kind := .poison, pending := false })
        else none }

/-- One code word is read (R373): corrected and written back, or poisoned. Answers whether the data is marked. -/
def Dev.readWord (c : Clock) (d : Dev) (cw cls rid : Nat) : Bool × Dev :=
  let e := tget {} d.mem.ecc cw
  match e.kind with
  | .clean => (false, d)
  | .ce =>
    let d := (d.updMem fun m => { m with ecc := tset {} m.ecc cw {} }).memStat (memClass cw) fun s =>
      { s with ce := satAdd 32 s.ce 1 }
    let d := d.trouble (memBlock cw) trbCE
    (false, if e.injected then d else d.queueTest cw)
  | _ =>
    let d := (d.updMem fun m => { m with ecc := tset {} m.ecc cw { e with kind := .poison, pending := false } }).memStat
      (memClass cw) fun s => { s with ue := satAdd 32 s.ue 1 }
    let d := d.log c (memBlock cw) trbUE 0x0F44 (pk [(6, cw), (2, rid), (1, cls)])
    let d := d.noteUe c cls cw
    (true, if e.injected then d else d.queueTest cw)

/-- The code words that the bytes a .. a + n - 1 touch. -/
def codeWords (a n : Nat) : List Nat :=
  if n = 0 then [] else (List.range ((cwBase (a + n - 1) - cwBase a) / cwSize a + 1)).map fun i => cwBase a + i * cwSize a

/-- Read every code word of a range: whether any is marked (R373). -/
def Dev.checkRead (c : Clock) (d : Dev) (a n cls rid : Nat) : Bool × Dev :=
  (codeWords a n).foldl (fun o cw => let r := o.2.readWord c cw cls rid; (o.1 || r.1, r.2)) (false, d)

/-- The byte memory that holds key `a`, read and written. -/
def Dev.cellBytes (d : Dev) (a n : Nat) : List Byte :=
  if 2 ^ 49 ≤ a then readBytes d.mem.im (a - 2 ^ 49) n
  else if 2 ^ 48 ≤ a then readBytes d.mem.ldm (a - 2 ^ 48) n
  else readBytes d.mem.cells a n

def Dev.putCells (d : Dev) (a : Nat) (bs : List Byte) : Dev :=
  d.updMem fun m =>
    if 2 ^ 49 ≤ a then { m with im := writeBytes m.im (a - 2 ^ 49) bs }
    else if 2 ^ 48 ≤ a then { m with ldm := writeBytes m.ldm (a - 2 ^ 48) bs }
    else { m with cells := writeBytes m.cells a bs }

/-- A read of memory bytes: the bytes, and whether they are marked poisoned (R373). -/
def Dev.memRead (c : Clock) (d : Dev) (a n cls rid : Nat) : List Byte × Bool × Dev :=
  let r := d.checkRead c a n cls rid
  (d.cellBytes a n, r.1, r.2)

/-- The part of a write that falls in one code word: a full write clears its error; a partial write corrects a CE
first, and is not performed on a UE or poisoned word (R374). Answers whether bytes were lost. -/
def Dev.writeWord (d : Dev) (cw a : Nat) (bs : List Byte) : Bool × Dev :=
  let lo := max a cw
  let hi := min (a + bs.length) (cw + cwSize cw)
  let part := (bs.drop (lo - a)).take (hi - lo)
  let e := tget {} d.mem.ecc cw
  if hi - lo = cwSize cw then (false, (d.updMem fun m => { m with ecc := tset {} m.ecc cw {} }).putCells lo part)
  else match e.kind with
    | .clean => (false, d.putCells lo part)
    | .ce =>
      let d := ((d.updMem fun m => { m with ecc := tset {} m.ecc cw {} }).memStat (memClass cw) fun s =>
        { s with ce := satAdd 32 s.ce 1 }).trouble (memBlock cw) trbCE
      (false, (if e.injected then d else d.queueTest cw).putCells lo part)
    | _ =>
      let d := ((d.updMem fun m => { m with ecc := tset {} m.ecc cw { e with kind := .poison, pending := false } }).memStat
        (memClass cw) fun s => { s with ue := satAdd 32 s.ue 1 }).trouble (memBlock cw) trbUE
      (true, if e.injected then d else d.queueTest cw)

/-- A write of memory bytes, code word by code word: whether any part was lost to a poisoned word (R374). -/
def Dev.memWrite (d : Dev) (a : Nat) (bs : List Byte) : Bool × Dev :=
  (codeWords a bs.length).foldl (fun o cw => let r := o.2.writeWord cw a bs; (o.1 || r.1, r.2)) (false, d)

/-- A host write carrying the Poisoned attribute poisons every code word it covers (R375). -/
def Dev.poisonWrite (d : Dev) (a n : Nat) : Dev :=
  (codeWords a n).foldl (fun d cw => d.updMem fun m => { m with ecc := tset {} m.ecc cw { kind := .poison } }) d

/-! ### Classification -/

/-- Transient classifications of unit (kind, unit) within the last 24 h, this one included (R383). -/
def recentTransients (now kind unit : Nat) (l : List (Nat × Nat × Nat)) : List (Nat × Nat × Nat) :=
  (kind, unit, now) :: l.filter fun t => now < t.2.2 + 24 * 3600 * 1966080000

def fourth (kind unit : Nat) (l : List (Nat × Nat × Nat)) : Bool :=
  4 ≤ (l.filter fun t => t.1 = kind && t.2.1 = unit).length

end Sys2Proof.Machine
end

