-- ==== Sys2Proof/Machine/Timeline.lean ====
section
/-! DEFINITION. Carrier timelines (R82-R85): frames, half-subframes, symbols and slots as ATC values. -/
namespace Sys2Proof.Machine

/-- Frame length in Tc (R82). -/
def frameTc : Nat := 19660800

/-- Useful part of a symbol (R83). -/
def Carrier.useful (k : Carrier) : Nat := 131072 / 2 ^ k.mu

/-- Length of every symbol but the first of a half-subframe (R83). -/
def Carrier.symLen (k : Carrier) : Nat := k.useful + (if k.ext then k.useful / 4 else 9216 / 2 ^ k.mu)

/-- Length of the first symbol of a half-subframe (R83). -/
def Carrier.firstLen (k : Carrier) : Nat := k.symLen + (if k.ext then 0 else 1024)

/-- Symbols of a half-subframe. -/
def Carrier.symsHalf (k : Carrier) : Nat := (if k.ext then 6 else 7) * 2 ^ k.mu

/-- Symbols of a slot (R83). -/
def Carrier.perSlot (k : Carrier) : Nat := if k.ext then 12 else 14

/-- Slots of a frame. -/
def Carrier.slotsFrame (k : Carrier) : Nat := 20 * k.symsHalf / k.perSlot

/-- Start of symbol `g` of a frame, from the frame's start. -/
def Carrier.symStart (k : Carrier) (g : Nat) : Nat :=
  let i := g % k.symsHalf
  g / k.symsHalf * 983040 + (if i = 0 then 0 else k.firstLen + (i - 1) * k.symLen)

/-- The symbol of a frame that holds instant `x` after the frame's start. -/
def Carrier.symAt (k : Carrier) (x : Nat) : Nat :=
  let y := x % 983040
  x / 983040 * k.symsHalf + (if y < k.firstLen then 0 else 1 + (y - k.firstLen) / k.symLen)

/-- The frame of the carrier that holds ATC `t`; ATC before the offset counts as frame 0. -/
def Carrier.frameAt (k : Carrier) (t : Nat) : Nat := (t - k.off) / frameTc

/-- ATC of the start of frame `f` (R82). -/
def Carrier.frameStart (k : Carrier) (f : Nat) : Nat := k.off + f * frameTc

/-- First symbol start after ATC `t`. -/
def Carrier.nextSymbol (k : Carrier) (t : Nat) : Nat :=
  if t < k.off then k.off
  else
    let f := k.frameAt t
    k.frameStart f + k.symStart (k.symAt (t - k.frameStart f) + 1)

/-- ATC of the start of slot `n` of frame `f`; slots below zero count back into earlier frames. -/
def Carrier.slotStart (k : Carrier) (f : Nat) (n : Int) : Int :=
  let per : Int := k.slotsFrame
  let q := n / per
  let r := (n % per).toNat
  (k.off : Int) + ((f : Int) + q) * frameTc + k.symStart (r * k.perSlot)

/-- Frame, slot and symbol at ATC `t`. -/
def Carrier.place (k : Carrier) (t : Nat) : Nat × Nat × Nat :=
  let f := k.frameAt t
  let g := k.symAt (t - k.frameStart f)
  (f, g / k.perSlot, g % k.perSlot)

def Dev.carrier (d : Dev) (n : Nat) : Option Carrier := tfind d.air.carriers n

def Dev.stream (d : Dev) (n : Nat) : Option Stream := tfind d.fe.streams n

/-- The carrier of a stream. -/
def Dev.carrierOf (d : Dev) (s : Stream) : Option Carrier := d.carrier s.carrier

/-- Modes in which stream messages use spokes (R18, R32). -/
def Mode.spokes : Mode → Bool
  | .hub => true
  | .captain => true
  | .stoker => true
  | .relay => true
  | .conformance => true
  | .lookaside => false
  | .linetest => false
  | .dormant => false

/-- Standing charge of a stream in 1/64 unit, from its carrier's standard and bandwidth (R13). -/
def Carrier.charge (k : Carrier) : Nat :=
  if k.std = 1 then cdiv (64 * k.bw) 1000
  else if k.std = 2 then
    (if k.bw = 14 then 2 else if k.bw = 30 then 3 else if k.bw = 50 then 4 else if k.bw = 100 then 8
     else if k.bw = 150 then 12 else 16)
  else 1

/-- Sum of the standing charges of the streams a predicate selects. -/
def Dev.standing (d : Dev) (p : Stream → Bool) : Nat :=
  d.fe.streams.foldl (fun a e => if p e.2 then a + ((d.carrierOf e.2).map (·.charge)).getD 0 else a) 0

/-- The slot has a plan that was admitted and not removed (R105, R106). -/
def Dev.planned (d : Dev) (car frame slot : Nat) : Bool :=
  d.air.plans.any fun p => p.carrier = car && p.frame = frame && p.slot = slot

/-- A carrier has admitted plans: plans with a charge that has not ended (R105). -/
def Dev.hasPlans (d : Dev) (car : Nat) : Bool := d.air.plans.any fun p => p.carrier = car && !p.charges.isEmpty

/-- A slot ends after a drain boundary (R25). -/
def Dev.afterDrain (d : Dev) (ends : Int) : Bool :=
  match d.devmode.pend with
  | some p => !p.live && (p.boundary : Int) < ends
  | none => false

/-- The source of a carrier: other than slot plans only in CONFORMANCE (R33). -/
def Dev.sourceOf (d : Dev) (carrier : Nat) : Nat :=
  if d.devmode.mode = .conformance then (tget {} d.devmode.conf carrier).source else 0

/-- The largest LAG_RX (R274): how long after a slot its last sample may enter a receive chain. -/
def maxLag : Nat := 983040

/-- The carrier no longer transmits in a slot that ends at `ends` (R24, R46). -/
def Carrier.quiet (k : Carrier) (ends : Int) : Bool := k.stopped || k.stopAt.any fun t => (t : Int) < ends

/-- The carrier transmits and receives in a slot: it runs, the slot does not end after a drain boundary, and the slot has an
admitted plan (R24, R46, R106). RELAY only forwards, and a stored vector plays without plans (R18, R35). -/
def Dev.slotRuns (d : Dev) (car : Nat) (k : Carrier) (frame slot : Nat) : Bool :=
  let ends := k.slotStart frame ((slot : Int) + 1)
  !k.quiet ends && !d.afterDrain ends &&
  (d.devmode.mode = .relay ||
   (if d.sourceOf car = 2 then (tget {} d.devmode.conf car).start ≤ k.frameStart frame else d.planned car frame slot))

/-! ### Entries that are due (R88-R92) -/

/-- ATC of the cycle in which an entry falls due (R88, R92). -/
def CadEntry.dueAt (e : CadEntry) : Nat := if e.lateAt = 0 then upTo e.trigger 2 else e.lateAt

/-- Entries that are due at ATC `now`, in the order of R89: the oldest due cycle first, ascending index within it. -/
def Air.due (a : Air) (now : Nat) : List (Nat × CadEntry) :=
  sortBy (fun x y => x.2.dueAt < y.2.dueAt || (x.2.dueAt = y.2.dueAt && x.1 ≤ y.1))
    (a.cad.filter fun e => e.2.dueAt ≤ now)

/-- The entries that fire in the cycle at ATC `now`: up to 16 in all (R89). -/
def Air.firing (a : Air) (now : Nat) : List (Nat × CadEntry) := (a.due now).take (16 - a.firedNow)

/-! ### Shadowed instances (R96-R100) -/

def Dev.shadow (d : Dev) (cls inst : Nat) : Shadow := tget {} d.air.shadow (cls * 2 ^ 28 + inst)

def Dev.updShadow (d : Dev) (cls inst : Nat) (f : Shadow → Shadow) : Dev :=
  d.updAir fun a => { a with shadow := tmod {} a.shadow (cls * 2 ^ 28 + inst) f }

/-- The value in force once the writes that `p` selects by their landing cycle have landed. -/
def landed {α : Type} (base : α) (l : List (Nat × α)) (p : Nat → Bool) : α := ((l.filter fun e => p e.1).getLast?.map (·.2)).getD base

/-- The cycle in which the next write of an instance lands: one write a cycle, in arrival order (R99). -/
def Shadow.landing (s : Shadow) (now : Nat) : Nat :=
  match s.next.getLast? with
  | some e => if now ≤ e.1 then e.1 + 2 else now
  | none => now

/-- ARM at ATC `now`. -/
def Shadow.armNow (s : Shadow) (now : Nat) : Bool := landed s.arm s.next (· ≤ now)

/-- ARM as it stood at the end of the cycle before `now`: what a mark samples (R97, R100). -/
def Shadow.armAt (s : Shadow) (now : Nat) : Bool := landed s.arm s.next (· < now)

/-- ARM once every accepted write has landed. -/
def Shadow.latest (s : Shadow) : Bool := landed s.arm s.next fun _ => true

/-- A write of SHADOW or ARM is accepted: it gives ARM the value `arm` in its landing cycle (R97, R99). -/
def Shadow.touched (s : Shadow) (now : Nat) (arm : Bool) : Shadow :=
  { s with arm := s.armAt now, next := (s.next.filter fun e => now ≤ e.1) ++ [(s.landing now, arm)] }

/-- A mark finds ARM set: ARM clears and SEQ advances, and the writes of this cycle stand (R97, R100). -/
def Shadow.taken (s : Shadow) (now : Nat) : Shadow :=
  { s with arm := false, next := s.next.filter fun e => now ≤ e.1, seq := (s.seq + 1) % 65536, lastCopy := now }

/-- SHADOW at ATC `now`. -/
def Inst.shNow {α : Type} (i : Inst α) (now : Nat) : α := landed i.sh i.next (· ≤ now)

/-- SHADOW once every accepted write has landed. -/
def Inst.latest {α : Type} (i : Inst α) : α := landed i.sh i.next fun _ => true

/-- SHADOW as it stood at the end of the cycle before `now`. -/
def Inst.shAt {α : Type} (i : Inst α) (now : Nat) : α := landed i.sh i.next (· < now)

/-- A SHADOW write accepted at `now` that lands in cycle `land` (R99). -/
def Inst.write {α : Type} (now land : Nat) (f : α → α) (i : Inst α) : Inst α :=
  { i with sh := i.shAt now, next := (i.next.filter fun e => now ≤ e.1) ++ [(land, f i.latest)] }

/-- The copy of a mark: ACTIVE takes SHADOW as it stood at the end of the previous cycle, which SHADOW then equals but for the
writes of this cycle (R97, R98, R100). -/
def Inst.copy {α : Type} (now : Nat) (i : Inst α) : Inst α :=
  { act := i.shAt now, sh := i.shAt now, next := i.next.filter fun e => now ≤ e.1 }

/-- Every accepted write has landed: what a step of network time leaves. -/
def Inst.settle {α : Type} (i : Inst α) : Inst α := { i with sh := i.latest, next := [] }

/-! ### The start of a cadence cycle (R11, R12) -/

/-- The registers that lie `step` bytes apart from `base`, one group for each entry of a table: offset in the group, and value. -/
def Tab.fields {α : Type} (base step : Nat) (t : Tab α) (fs : List (Nat × (α → Nat))) : Tab Nat :=
  t.flatMap fun e => fs.map fun f => (base + step * e.1 + f.1, f.2 e.2)

/-- The RC registers that are not 0: value by offset in the device-register range, or by `funcKey` (R7). -/
def Dev.rcNow (d : Dev) : Tab Nat :=
  let hist := (List.range 16).map fun b => (0x40 + 4 * b, fun (x : Probe) => tget 0 x.hist b)
  ([(0x2100C, d.air.cadLate), (0x21010, d.air.cadCrowd), (0x21014, d.air.cadAsleep)] ++
   Tab.fields 0x400000 0x100 d.cores.core [(0x2C, Core.switches)] ++
   [(0x440008, d.pel.trcDrop)] ++
   Tab.fields 0x480000 0x40 d.eng.rings [(0x10, Ring.bad), (0x14, Ring.late)] ++
   Tab.fields 0x500000 0x100 d.fab.probes ([(8, Probe.pkts), (0x10, Probe.flits)] ++ hist) ++
   [(0x50200C, d.fab.flipStall), (0x502010, d.fab.demote), (0x50201C, d.fab.trcDrop)] ++
   Tab.fields 0x580000 0x40 d.mov.chans [(0x24, Chan.missed), (0x28, Chan.bad)] ++
   [(0x700028, d.mgmt.logLost)] ++
   Tab.fields 0x1000000 0x10000 d.host.funcs [(0x2008, Func.evtLost), (0x200C, Func.dbBad)]).filter fun e => e.2 != 0

/-- A cadence cycle begins: what came before it is past. -/
def Dev.newCycle (d : Dev) : Dev :=
  { d with cyc := { rc := d.rcNow, mac := d.mac.ports.map fun e => (e.1, e.2.stats),
                    cop := d.cop.pairs.map fun e => (e.1, e.2.stats) } }

/-! ### Steps of network time (R80) -/

/-- Every accepted write of the instances of a table has landed. -/
def Tab.settled {α : Type} (t : Tab (Inst α)) : Tab (Inst α) := t.map fun e => (e.1, e.2.settle)

/-- The writes of every shadowed instance have landed. -/
def Dev.settleSets (d : Dev) : Dev :=
  let d := d.updFe fun x => { x with sets := Tab.settled x.sets, cmp := Tab.settled x.cmp }
  let d := d.updMac fun x => { x with steer := Tab.settled x.steer }
  let d := d.updSpk fun x => { x with maps := Tab.settled x.maps }
  d.updCop fun x => { x with tables := Tab.settled x.tables }

/-- Cadence re-evaluates its entries when ATC steps to `now`: a one-shot entry that has been passed is late, a periodic one
advances by whole periods. Marks and writes of the cycle before the step are past. -/
def Dev.stepCadence (d : Dev) (now : Nat) : Dev :=
  let gone := fun (e : Nat × CadEntry) => e.2.period = 0 && e.2.trigger ≤ now && !bit e.2.flags 0
  let move := fun (e : CadEntry) =>
    if now < e.trigger then e
    else if e.period = 0 then { e with lateAt := now + 2 }
    else { e with trigger := e.trigger + ((now - e.trigger) / e.period + 1) * e.period }
  let n := (d.air.cad.filter fun e => e.2.period = 0 && e.2.trigger ≤ now).length
  d.settleSets.newCycle.updAir fun a =>
    { a with cad := (a.cad.filter fun e => !gone e).map fun e => (e.1, move e.2)
             cadLate := satAdd 32 a.cadLate n, firedNow := 0
             shadow := a.shadow.map fun e => (e.1, { e.2 with arm := e.2.latest, next := [], markAt := none }) }

end Sys2Proof.Machine
end

