-- ==== Sys2Proof/Machine/FrontEnd.lean ====
section
/-! DEFINITION. The front-end chain (chapter 09): static and shadowed settings, cassettes and fades, second-order
sections, detectors, and the commands about them. -/
namespace Sys2Proof.Machine

def fePass : Inst FeSet := { act := {}, sh := {} }
def cmpPass : Inst CmpSet := { act := {}, sh := {} }

def chainKey (stream dir : Nat) : Nat := 2 * stream + dir

def Dev.chain (d : Dev) (s dir : Nat) : Chain := tget {} d.fe.chains (chainKey s dir)

def Dev.updChain (d : Dev) (s dir : Nat) (f : Chain → Chain) : Dev :=
  d.updFe fun x => { x with chains := tmod {} x.chains (chainKey s dir) f }

def Dev.feSet (d : Dev) (s dir : Nat) : Inst FeSet := tget fePass d.fe.sets (chainKey s dir)
def Dev.cmpSet (d : Dev) (s dir : Nat) : Inst CmpSet := tget cmpPass d.fe.cmp (chainKey s dir)

/-- Directions that a direction field names. -/
def dirsOf (dir : Nat) : List Nat := if dir = 2 then [0, 1] else [dir]

/-- The stream is configured and the acting function may see it (R44, R639). -/
def Dev.seesStream (d : Dev) (x : Ctx) (s : Nat) : Bool := (d.stream s).any fun y => x.sees y.owner

/-- A spoke stream map names the stream (R276). -/
def Dev.mapNames (d : Dev) (s : Nat) : Bool :=
  d.spk.maps.any fun e => (e.2.act ++ e.2.latest).any fun y => y.2.stream = s && (y.2.tx || y.2.rx)

/-- The stream's settings must rest: an admitted plan, or a map names it (R276). -/
def Dev.streamBusy (d : Dev) (s : Nat) (y : Stream) : Bool := d.hasPlans y.carrier || d.mapNames s

/-! ### Sections and fades (R281-R286) -/

/-- One component through one section: output, new s1 and s2, and whether the output saturated (R282). -/
def sectStep (co : List Int) (x s1 s2 : Int) : Int × Int × Int × Bool :=
  let w := rsh (co.getD 0 0 * x + s1) 29
  let y := satS 32 w
  (y, satS 63 (co.getD 1 0 * x - co.getD 3 0 * y + s2), satS 63 (co.getD 2 0 * x - co.getD 4 0 * y), w != y)

/-- A sample through the eight sections of a cassette: output, states, saturations. -/
def sections (co : List Int) (en : Nat) (st : List SectSt) (x : Int × Int) : (Int × Int) × List SectSt × Nat :=
  (List.range 8).foldl (fun o i =>
    let s := o.2.1.getD i {}
    if bit en i then
      let c := (co.drop (5 * i)).take 5
      let a := sectStep c o.1.1 s.re1 s.re2
      let b := sectStep c o.1.2 s.im1 s.im2
      ((a.1, b.1), o.2.1.set i { re1 := a.2.1, re2 := a.2.2.1, im1 := b.2.1, im2 := b.2.2.1 },
       o.2.2 + a.2.2.2.toNat + b.2.2.2.toNat)
    else o) (x, st, 0)

def Chain.cas (k : Chain) (n : Nat) : List Int := if n = 0 then k.casA else k.casB
def Chain.st (k : Chain) (n : Nat) : List SectSt := if n = 0 then k.stA else k.stB
def Chain.setSt (k : Chain) (n : Nat) (s : List SectSt) : Chain := if n = 0 then { k with stA := s } else { k with stB := s }

def zeroSect : List SectSt := List.replicate 8 {}

/-- The section stage with its fade, under the enables `en` (R284, R285). A fade takes the samples of the cycles after its
request's, up to its last. -/
def Chain.sectStage (k : Chain) (now en : Nat) (x : Int × Int) : (Int × Int) × Chain :=
  let old := sections (k.cas k.active) en (k.st k.active) x
  let k1 := { (k.setSt k.active old.2.1) with sat := satAdd 32 k.sat old.2.2 }
  match k.fade.filter fun f => f.start ≤ now && f.n < f.len with
  | none => (old.1, k1)
  | some f =>
    let inc := 1 - k.active
    let new := sections (k.cas inc) en (k.st inc) x
    let k2 := { (k1.setSt inc new.2.1) with sat := satAdd 32 k1.sat new.2.2, fade := some { f with n := f.n + 1 } }
    let wt : Int := (65536 * (f.n + 1) / f.len : Nat)
    let mix := fun (a b : Int) => satS 32 (rsh (a * (65536 - wt) + b * wt) 16)
    ((mix old.1.1 new.1.1, mix old.1.2 new.1.2), k2)

/-- The settled cassette (R286). -/
def Chain.settled (k : Chain) : Nat :=
  match k.held with
  | some h => h.target
  | none => if k.fade.isSome then 1 - k.active else k.active

/-- Start a fade to the inactive cassette, its sections from zero state, with the samples of the cycle `start` on (R284,
R285). -/
def Chain.startFade (k : Chain) (len : Nat) (notify : Option Nat) (start : Nat) : Chain :=
  { (k.setSt (1 - k.active) zeroSect) with fade := some { n := 0, len := len, notify := notify, start := start } }

/-- A shift request to one chain in the cycle at `now` (R286): outcome code and chain, or none for BUSY. -/
def Chain.shift (k : Chain) (now target len : Nat) (notify : Option Nat) : Option (Nat × Chain) :=
  if target = 0xFF then
    some (if k.held.isSome then (3, { k with held := none }) else (4, k))
  else if target = k.settled then some (2, k)
  else if k.fade.isNone then some (0, k.startFade len notify (now + 2))
  else if k.held.isNone then some (1, { k with held := some { target := target, len := len, notify := notify } })
  else none

/-- A shift on several directions: all, or none (R288). -/
def Dev.shiftAll (d : Dev) (now s : Nat) (dirs : List Nat) (target len : Nat) (notify : Option Nat) : Option (List Nat × Dev) :=
  dirs.foldl (fun o dir => match o with
    | none => none
    | some (codes, d) => ((d.chain s dir).shift now target len notify).map fun r =>
        (codes ++ [r.1], d.updChain s dir fun _ => r.2)) (some ([], d))

/-- A CASSETTE_SHIFT firing (R288). -/
def Dev.cassetteAction (c : Clock) (d : Dev) (stream arg entry : Nat) : Dev :=
  let l := bits arg 16 12
  let len := if l = 0 then 4096 else l
  let bad := fun (why : Nat) =>
    d.evtLog c 0 0 0x0681 0 27 trbCONFIG [(0, 2, stream), (2, 1, arg % 2), (3, 1, why), (4, 2, entry)]
  if (d.stream stream).isNone then bad 2
  else if 1 ≤ l && l ≤ 15 then bad 1
  else match d.shiftAll c.atc stream [0, 1] (arg % 2) len none with
    | some r => r.2
    | none => bad 0

/-- A CASSETTE_SHIFT firing of this cycle that names the stream has not fired yet: front-end commands of the cycle come after it
(R287). -/
def Dev.shiftDue (c : Clock) (d : Dev) (stream : Nat) : Bool :=
  (d.air.firing c.atc).any fun e => e.2.action = 5 && e.2.target = stream

/-- A front-end command of one stream, served after the cycle's firings (R287). -/
def afterShifts (stream : Nat) (f : State → Out) (s : State) : Out := if s.dev.shiftDue s.clk stream then .next s else f s

def execFeShift (r : Req) (stream dir target len notify : Nat) : State → Out := afterShifts stream <| onDev <| serve 0x0604 r fun x d =>
  if !d.seesStream x stream then (rBad 0, d)
  else if 2 < dir then (rBad 2, d)
  else if 1 < target && target != 0xFF then (rBad 3, d)
  else if target != 0xFF && (len < 16 || 4096 < len) then (rBad 4, d)
  else match d.shiftAll x.clk.atc stream (dirsOf dir) target len (if notify = 0 then none else some x.tag) with
    | some r => (rOk (r.1.map fun n => (1, n)), r.2)
    | none => (rSt stBUSY, d)

/-- The fade's last sample has passed: the new cassette is active, and a held shift starts (R284, R286). -/
def execCassetteDone (stream dir : Nat) : State → Out := onDev fun c d =>
  let k := d.chain stream dir
  match k.fade with
  | none => d
  | some f =>
    if f.n < f.len then d
    else
      let k1 := { (k.setSt k.active zeroSect) with active := 1 - k.active, fade := none, held := none }
      let k2 := match k.held with
        | some h => k1.startFade h.len h.notify 0
        | none => k1
      let d := d.updChain stream dir fun _ => k2
      match f.notify, d.stream stream with
      | some tag, some y => d.evt c y.owner y.owner 0x0680 tag [(0, 2, stream), (2, 1, dir), (3, 1, k1.active)]
      | _, _ => d

/-- Coefficients written into the masked sections of a cassette. -/
def putCoefs (co : List Int) : List Nat → List Nat → List Int
  | [], _ => co
  | i :: is, vs =>
    putCoefs ((co.take (5 * i)) ++ ((vs.take 5).map fun v => sgn 32 v) ++ co.drop (5 * i + 5)) is (vs.drop 5)

def execFeCassetteWrite (r : Req) (stream dir cas mask : Nat) (coefs : List Nat) : State → Out :=
  afterShifts stream <| onDev <| serve 0x0603 r fun x d =>
    let secs := ones 8 mask
    if !d.seesStream x stream then (rBad 0, d)
    else if 1 < dir then (rBad 2, d)
    else if 1 < cas then (rBad 3, d)
    else if coefs.length != 5 * secs.length then (rBad 5, d)
    else
      let k := d.chain stream dir
      if k.active = cas || k.fade.isSome || k.held.any (fun h => h.target = cas) then (rSt stBUSY, d)
      else (rOk, d.updChain stream dir fun k =>
        if cas = 0 then { k with casA := putCoefs k.casA secs coefs } else { k with casB := putCoefs k.casB secs coefs })

/-! ### Static settings (R275-R277, R289) -/

/-- Lower rate, higher rate, and 2^HB: the fractional stage runs between the lower and the higher divided by 2^HB. -/
def rateFault (fin fout hb rs : Nat) : Option Nat :=
  let lo := min fin fout
  let hi := max fin fout
  let f := 2 ^ hb
  let inRange := fun r => 1920 ≤ r && r ≤ 491520
  if !inRange fin then some 4
  else if !inRange fout then some 8
  else if 3 < hb || (0 < hb && fin = fout) || hi < 1920 * f || 2 * lo * f < hi || 2 * hi < lo * f then some 12
  else if 1 < rs || (rs = 1 && (245760 < lo || 245760 * f < hi)) then some 13
  else none

/-- Charges in force: 0 in RELAY (R16). -/
def Dev.inForce (d : Dev) (p : Stream → Bool) : Nat := if d.devmode.mode = .relay then 0 else d.standing p

/-- Both chains of a stream start afresh under new static fields (R283). -/
def Dev.restartChains (d : Dev) (s : Nat) : Dev :=
  [0, 1].foldl (fun d dir => d.updChain s dir fun k =>
    { k with casA := ({} : Chain).casA, casB := ({} : Chain).casB, active := 0, fade := none, held := none
             stA := zeroSect, stB := zeroSect, frame := none, nIn := 0, hbBefore := [], hbAfter := [], hist := [], taken := 0
             pos := 0, fracFrame := 0, anchors := 0, nFrac := 0, ready := [], outFrame := 0, nOut := 0, out := [], syms := []
             buf := [] }) d

/-- Classes 0x1 and 0x2 of a stream return to their reset values (R277). -/
def Dev.resetStreamSets (d : Dev) (s : Nat) : Dev :=
  let d := d.updFe fun x =>
    { x with sets := tdel (tdel x.sets (chainKey s 0)) (chainKey s 1)
             cmp := tdel (tdel x.cmp (chainKey s 0)) (chainKey s 1)
             chains := tdel (tdel x.chains (chainKey s 0)) (chainKey s 1) }
  (d.updShadow 1 s fun _ => {}).updShadow 2 s fun _ => {}

def execFeStreamSet (r : Req) (stream carrier fin fout hb rs side leadTx lagRx : Nat) : State → Out :=
  onDev <| serve 0x0601 r fun x d =>
    let st := d.stream stream
    if 2048 ≤ stream || st.any (fun y => !x.sees y.owner) then (rBad 0, d)
    else if st.any (fun y => y.carrier != carrier) then (rBad 2, d)
    else if st.isNone && !((d.carrier carrier).any fun k => k.owner = x.func) then (rBad 2, d)
    else match rateFault fin fout hb rs with
      | some o => (rBad o, d)
      | none =>
        if 1 < side then (rBad 14, d)
        else if leadTx < 19661 || 983040 < leadTx then (rBad 15, d)
        else if lagRx < 9831 || 983040 < lagRx then (rBad 19, d)
        else
          let y : Stream := { owner := (st.map (·.owner)).getD x.func, carrier := carrier, fin := fin, fout := fout
                              hb := hb, rs := rs, side := side, leadTx := leadTx, lagRx := lagRx }
          let put := fun (d : Dev) => (d.updFe fun f => { f with streams := tput f.streams stream y }).restartChains stream
          match st with
          | some o => if d.streamBusy stream o then (rSt stBUSY, d) else (rOk, put d)
          | none =>
            let ch := ((d.carrier carrier).map (·.charge)).getD 0
            if d.hasPlans carrier then (rSt stBUSY, d)
            else if 2048 ≤ d.fe.streams.length ||
                (d.devmode.mode != .relay && 65536 < d.standing (fun _ => true) + ch) then (rSt stOVERLOAD, d)
            else (rOk, put (d.resetStreamSets stream))

def execFeStreamRemove (r : Req) (stream : Nat) : State → Out := onDev <| serve 0x0609 r fun x d =>
  match d.stream stream with
  | none => (rBad 0, d)
  | some y =>
    if !x.sees y.owner then (rBad 0, d)
    else if d.streamBusy stream y then (rSt stBUSY, d)
    else
      let ch := if d.devmode.mode = .relay then 0 else ((d.carrierOf y).map (·.charge)).getD 0
      let d := (d.updFe fun f => { f with streams := tdel f.streams stream }).resetStreamSets stream
      let d := d.updDevmode fun m => { m with look := tdel (tdel m.look (chainKey stream 0)) (chainKey stream 1) }
      (rOk [(2, ch)], d)

/-! ### Shadow sets (R278-R280) -/

/-- A write of class 0x1 or 0x2 of a stream in the given directions, by one update a direction. -/
def Dev.feWrite (c : Clock) (d : Dev) (s : Nat) (dirs : List Nat) (f : FeSet → FeSet) : Dev :=
  let land := (d.shadow 1 s).landing c.atc
  let d := [0, 1].foldl (fun d dir => d.updFe fun x =>
    { x with sets := tmod fePass x.sets (chainKey s dir) (Inst.write c.atc land (if dirs.contains dir then f else id)) }) d
  d.updShadow 1 s fun y => y.touched c.atc false

def execFeShadowWrite (r : Req) (stream dir mask sectEn gain phase dlyInt dlyFrac mute : Nat) : State → Out :=
  onDev <| serve 0x0602 r fun x d =>
    if !d.seesStream x stream then (rBad 0, d)
    else if 2 < dir then (rBad 2, d)
    else if 64 ≤ mask then (rBad 3, d)
    else if bit mask 3 && 16383 < dlyInt then (rBad 9, d)
    else if bit mask 4 && 1023 < dlyFrac then (rBad 11, d)
    else if bit mask 5 && 1 < mute then (rBad 13, d)
    else if mask = 0 then (rOk, d)
    else (rOk, d.feWrite x.clk stream (dirsOf dir) fun s =>
      { sectEn := if bit mask 0 then sectEn else s.sectEn, gain := if bit mask 1 then gain else s.gain
        phase := if bit mask 2 then phase else s.phase, dlyInt := if bit mask 3 then dlyInt else s.dlyInt
        dlyFrac := if bit mask 4 then dlyFrac else s.dlyFrac, mute := if bit mask 5 then mute = 1 else s.mute })

/-- The first symbol to which a set copied at the mark M applies, per direction (R279). -/
def Dev.applyAt (d : Dev) (y : Stream) (dir m : Nat) : Nat :=
  match d.carrierOf y with
  | some k => k.nextSymbol (if dir = 0 then m + y.leadTx else m - y.lagRx)
  | none => m

/-- A set comes into force in the whole chain from the symbol that starts at `t` (R279). -/
def Chain.later (k : Chain) (t : Nat) (s : FeSet) : Chain :=
  let add := fun (x : FeSide) => { x with next := x.next ++ [(t, s)] }
  { k with before := add k.before, frac := add k.frac, after := add k.after }

/-- The copy of a class 0x1 instance at a mark: ACTIVE changes, and each chain takes it from its symbol (R97, R279). -/
def Dev.copyFe (c : Clock) (d : Dev) (s : Nat) : Dev :=
  [0, 1].foldl (fun d dir =>
    let d := d.updFe fun x => { x with sets := tmod fePass x.sets (chainKey s dir) (Inst.copy c.atc) }
    match d.stream s with
    | some y => d.updChain s dir fun k => k.later (d.applyAt y dir c.atc) (d.feSet s dir).act
    | none => d) d

/-- A compression set comes into force from the symbol that starts at `t` (R311). Sets that no symbol still on its way can need,
those replaced 2 ms ago, are dropped. -/
def Chain.cmpLater (k : Chain) (now t : Nat) (s : CmpSet) : Chain :=
  let l := k.cnext ++ [(t, s)]
  let past := (l.filter fun n => n.1 + 3932160 < now).dropLast
  { k with cforce := (past.getLast?.map (·.2)).getD k.cforce, cnext := l.drop past.length }

/-- The copy of a class 0x2 instance at a mark (R311). -/
def Dev.copyCmp (c : Clock) (d : Dev) (s : Nat) : Dev :=
  [0, 1].foldl (fun d dir =>
    let d := d.updFe fun x => { x with cmp := tmod cmpPass x.cmp (chainKey s dir) (Inst.copy c.atc) }
    match d.stream s with
    | some y => d.updChain s dir fun k => k.cmpLater c.atc (d.applyAt y dir c.atc) (d.cmpSet s dir).act
    | none => d) d

/-! ### Detectors (R294-R297) -/

/-- Square root rounded down, by bits. -/
def rootDown (n : Nat) : Nat :=
  (List.range 40).foldl (fun r i => let t := r + 2 ^ (39 - i); if t * t ≤ n then t else r) 0

/-- Square root rounded to the nearest integer, in 17 bits (R296); of a power whose root does not fit the manual states no
value. -/
def rootNear (n : Nat) : Nat :=
  let r := rootDown n
  let m := if r * r + r < n then r + 1 else r
  if m < 2 ^ 17 then m else Config.envelopeOver n % 2 ^ 17

/-- Floor of the base-10 logarithm, with fuel. -/
def log10 : Nat → Nat → Nat
  | 0, _ => 0
  | f + 1, n => if n < 10 then 0 else log10 f (n / 10) + 1

/-- Level of P = num / 2^sh in 0.125 dBFS (R297): -32,768 for 0. -/
def levelOf (num sh : Nat) : Int :=
  if num = 0 then -32768
  else
    let y := num ^ 160 * 10 ^ 4000 / 2 ^ (160 * (30 + sh))
    ((log10 9000 y : Int) - 3999) / 2

/-- Power of a chain word at a detector (R294). -/
def powerOf (w : Int × Int) : Nat :=
  let a := rsh w.1 12
  let b := rsh w.2 12
  (a * a + b * b).toNat

/-- A sample at a peak or RMS detector. -/
def Detector.see (x : Detector) (rms : Bool) (p now : Nat) : Detector :=
  { x with acc := if rms then x.acc + p else max x.acc p, count := x.count + 1, at_ := now }

/-- The open window ends, full or cut short: its report is latched, and new settings apply (R295). -/
def Detector.close (x : Detector) (rms : Bool) : Detector :=
  let x := if x.count = 0 then x else
    { x with p := if rms then x.acc / x.count else x.acc, endAtc := x.at_, samples := x.count, acc := 0, count := 0 }
  match x.next with
  | some n => { x with tap := n.1, k := n.2, next := none }
  | none => x

def Detector.full (x : Detector) : Bool := 2 ^ x.k ≤ x.count

/-- A sample at the envelope detector (R296): crossings beyond one a millisecond are counted. -/
def Envelope.see (x : Envelope) (p now : Nat) : Envelope :=
  let m := rootNear p * 65536
  let e := if x.e < m then (x.e * 2 ^ x.att + (m - x.e)) / 2 ^ x.att else (x.e * 2 ^ x.dec - (x.e - m)) / 2 ^ x.dec
  let dir := if x.e ≤ x.hi && x.hi < e then some 0 else if x.lo ≤ x.e && e < x.lo then some 1 else none
  let y := { x with e := e }
  match dir with
  | none => y
  | some q =>
    if !x.on || x.last = some q then y
    else if x.cross.isSome || now + 1 < x.posted + 1966080 then
      { y with last := some q, suppressed := satAdd 32 x.suppressed 1 }
    else { y with last := some q, cross := some (q, levelOf (e * e) 32) }

/-- The detectors whose tap is `tap` see a sample. -/
def Chain.detect (k : Chain) (tap now : Nat) (w : Int × Int) : Chain :=
  let p := powerOf w
  { k with
    peak := if k.peak.tap = tap then k.peak.see false p now else k.peak
    rms := if k.rms.tap = tap then k.rms.see true p now else k.rms
    env := if k.env.tap = tap then k.env.see p now else k.env }

def execDetectWindowEnd (stream dir : Nat) (rms : Bool) : State → Out := onDev fun _ d =>
  d.updChain stream dir fun k =>
    if rms then (if k.rms.full then { k with rms := k.rms.close true } else k)
    else if k.peak.full then { k with peak := k.peak.close false } else k

/-- The crossing found by the envelope detector is posted (R296, R299). -/
def execFeEnvelope (stream dir : Nat) : State → Out := onDev fun c d =>
  match (d.chain stream dir).env.cross, d.stream stream with
  | some (q, lv), some y =>
    (d.updChain stream dir fun k => { k with env := { k.env with cross := none, posted := c.atc + 1 } }).evt c y.owner y.owner
      0x0682 0 [(0, 2, stream), (2, 1, dir), (3, 1, q), (4, 2, uns 16 lv)]
  | _, _ => d

def execFeDetectSet (r : Req) (stream dir det tap k att dec hi lo : Nat) : State → Out :=
  onDev <| serve 0x0606 r fun x d =>
    if !d.seesStream x stream then (rBad 0, d)
    else if 1 < dir then (rBad 2, d)
    else if 2 < det then (rBad 3, d)
    else if 2 < tap then (rBad 4, d)
    else if det < 2 && (k < 4 || 20 < k) then (rBad 5, d)
    else if det = 2 && 15 < att then (rBad 6, d)
    else if det = 2 && 23 < dec then (rBad 7, d)
    else
      let set := fun (x : Detector) => if x.count = 0 then { x with tap := tap, k := k } else { x with next := some (tap, k) }
      (rOk, d.updChain stream dir fun y =>
        if det = 0 then { y with peak := set y.peak }
        else if det = 1 then { y with rms := set y.rms }
        else { y with env := { y.env with tap := tap, att := att, dec := dec, hi := hi, lo := lo, on := true } })

def execFeDetectRead (r : Req) (stream dir : Nat) : State → Out := onDev <| serve 0x0607 r <| noFx fun x d =>
  if !d.seesStream x stream then rBad 0
  else if 1 < dir then rBad 2
  else
    let k := d.chain stream dir
    rOk [(4, k.peak.p), (2, uns 16 (levelOf k.peak.p 0)), (8, k.peak.endAtc), (4, k.rms.p), (2, uns 16 (levelOf k.rms.p 0)),
         (8, k.rms.endAtc), (4, k.rms.samples), (4, k.env.e), (2, uns 16 (levelOf (k.env.e * k.env.e) 32)),
         (4, k.env.suppressed)]

end Sys2Proof.Machine
end

