-- ==== Sys2Proof/Machine/Chain.lean ====
section
/-! DEFINITION. The course of a sample through a front-end chain (chapter 09): entry times, the stages in their order, half-band
stages, the fractional resampler, frame boundaries, and what a chain's output goes to. The manual describes the half-band filter
and the prototype filter and lists neither: their taps are constants of which nothing is known (log 52). -/
namespace Sys2Proof.Machine

/-! ### Rates and times (R274, R289-R292) -/

/-- Input and output rate of a chain in kS/s. -/
def Stream.rateIn (y : Stream) (dir : Nat) : Nat := if dir = 0 then y.fin else y.fout
def Stream.rateOut (y : Stream) (dir : Nat) : Nat := if dir = 0 then y.fout else y.fin

/-- Rates of the fractional stage as numerators over 2^HB (R289). -/
def Stream.fracRates (y : Stream) (dir : Nat) : Nat × Nat :=
  let one := fun r o => if o < r then r else r * 2 ^ y.hb
  (one (y.rateIn dir) (y.rateOut dir), one (y.rateOut dir) (y.rateIn dir))

/-- STEP = round-half-even(2^40 r_in / r_out) (R290). -/
def Stream.step (y : Stream) (dir : Nat) : Nat :=
  let f := y.fracRates dir
  let n := 2 ^ 40 * f.1
  let q := n / f.2
  let rem := n % f.2
  if 2 * rem < f.2 then q else if f.2 < 2 * rem then q + 1 else q + q % 2

/-- Air time of input sample `n` of frame `f`. -/
def sampleAt (k : Carrier) (y : Stream) (dir f n : Nat) : Nat := k.frameStart f + n * 1966080 / y.rateIn dir

/-- ATC at which that sample enters (R274). -/
def entryAt (k : Carrier) (y : Stream) (dir f n : Nat) : Nat :=
  let t := sampleAt k y dir f n
  if dir = 0 then t - y.leadTx else t + y.lagRx

/-- The first frame whose first sample has not entered at ATC `now`. -/
def firstFrame (k : Carrier) (y : Stream) (dir now : Nat) : Nat :=
  if dir = 0 then (now + y.leadTx - k.off) / frameTc + 1 else (now - y.lagRx - k.off) / frameTc + 1

/-- Half-band stages before and after the fractional stage: they sit on the side of the higher rate (R272). -/
def Stream.stagesBefore (y : Stream) (dir : Nat) : Nat := if y.rateOut dir < y.rateIn dir then y.hb else 0
def Stream.stagesAfter (y : Stream) (dir : Nat) : Nat := if y.rateIn dir < y.rateOut dir then y.hb else 0

/-- The first output of the fractional stage, counted from the chain's start, at or after the start of its frame `a`. -/
def Stream.fracFirst (y : Stream) (dir a : Nat) : Nat := cdiv (a * y.rateOut dir * 10) (2 ^ y.stagesAfter dir)

/-- Where frame `a` begins at the input of the fractional stage, in 2^-40 samples from the chain's start. -/
def Stream.anchor (y : Stream) (dir a : Nat) : Nat := a * y.rateIn dir * 10 * 2 ^ 40 / 2 ^ y.stagesBefore dir

/-- Chain output samples from a frame's start to its first fractional-stage output: 0 but where the frame holds no whole number
of them. -/
def Stream.skew (y : Stream) (dir a : Nat) : Nat := y.fracFirst dir a * 2 ^ y.stagesAfter dir - a * y.rateOut dir * 10

/-- p at a re-anchor (R292): the frame's first output falls on its first input. -/
def Stream.anchored (y : Stream) (dir a : Nat) : Nat := y.skew dir a * y.step dir / 2 ^ y.stagesAfter dir % 2 ^ 64

/-- Air time of output sample `n` of frame `f`. -/
def leaveAt (k : Carrier) (y : Stream) (dir f n : Nat) : Nat := k.frameStart f + n * 1966080 / y.rateOut dir

/-! ### The sets in force (R279, R280) -/

/-- The sections and the integer delay lie before the resampler (R272). -/
def Stream.sectsBefore (y : Stream) (dir : Nat) : Bool := if dir = 0 then y.side = 0 else y.side = 1
def lineBefore (dir : Nat) : Bool := dir = 1

/-- What a change of set does to the states of the stages it reaches (R280). -/
def Chain.change (k : Chain) (sects line : Bool) (old s : FeSet) : Chain :=
  let changed := old.sectEn ^^^ s.sectEn
  let clear := fun (l : List SectSt) => if sects then l.mapIdx fun i x => if bit changed i then {} else x else l
  let dly := if !line then k.dly
    else if old.dlyInt < s.dlyInt then k.dly ++ List.replicate (s.dlyInt - old.dlyInt) (0, 0)
    else k.dly.take (k.dly.length - (old.dlyInt - s.dlyInt))
  { k with stA := clear k.stA, stB := clear k.stB, dly := dly }

/-- The sets of a place whose symbol has come at air time `t`, and the place once they apply. -/
def FeSide.turn (s : FeSide) (t : Nat) : List FeSet × FeSide :=
  let due := (s.next.filter fun n => n.1 ≤ t).map (·.2)
  (due, { force := due.getLast?.getD s.force, next := s.next.filter fun n => t < n.1 })

/-- Sets that apply one after another, from the set in force. -/
def Chain.changes (k : Chain) (sects line : Bool) : FeSet → List FeSet → Chain
  | _, [] => k
  | old, s :: l => (k.change sects line old s).changes sects line s l

/-- The sets before the resampler that apply to an input sample of air time `t`. -/
def Chain.turnBefore (k : Chain) (y : Stream) (dir t : Nat) : Chain :=
  let r := k.before.turn t
  { k.changes (y.sectsBefore dir) (lineBefore dir) k.before.force r.1 with before := r.2 }

/-- The sets after the resampler that apply to an output sample of air time `t`. -/
def Chain.turnAfter (k : Chain) (y : Stream) (dir t : Nat) : Chain :=
  let r := k.after.turn t
  { k.changes (!y.sectsBefore dir) (!lineBefore dir) k.after.force r.1 with after := r.2 }

/-! ### Gain, delay and output (R273, R278) -/

/-- An integer between two bounds that the manual does not choose between. -/
def between (lo hi : Int) (d : Dev) : Int × Dev :=
  if lo = hi then (lo, d) else let v := draw d; (lo + (v.1 : Int) % (hi - lo + 1), v.2)

/-- A product of the gain stage, in units of 2^-174, within `err`: rounded down or up, the manual does not say which; of one
that fits no chain word it states no value. -/
def gainWord (num : Int) (err : Nat) (d : Dev) : Int × Dev :=
  let lo := (num - err) / (2 ^ 174 : Int)
  let hi := -(-(num + err) / (2 ^ 174 : Int))
  if -(2 ^ 31) ≤ lo && hi < 2 ^ 31 then between lo hi d else let v := draw d; (sgn 32 v.1, v.2)

/-- Gain and rotation (R278): GAIN / 2^14 times the rotation by PHASE pi/32,768. -/
def gainStage (s : FeSet) (w : Int × Int) (d : Dev) : (Int × Int) × Dev :=
  let t := turnF (s.phase % 65536)
  let err := if s.phase % 16384 = 0 then 0 else s.gain * (w.1.natAbs + w.2.natAbs) * 2 ^ 60
  let re := gainWord (s.gain * (w.1 * t.1 - w.2 * t.2)) err d
  let im := gainWord (s.gain * (w.1 * t.2 + w.2 * t.1)) err re.2
  ((re.1, im.1), im.2)

/-- The integer delay line: a sample in, the oldest out. -/
def delayStage (k : Chain) (w : Int × Int) : (Int × Int) × Chain :=
  match k.dly ++ [w] with
  | o :: rest => (o, { k with dly := rest })
  | [] => (w, k)

/-- The output of a chain: sat16(rsh(w, 12)), zero while muted (R273, R278); the detectors at the output see it (R294). -/
def outStage (now : Nat) (k : Chain) (w : Int × Int) : (Int × Int) × Chain :=
  let f := fun v => (satS 16 (rsh v 12), (satS 16 (rsh v 12) != rsh v 12 : Bool).toNat)
  let a := f w.1
  let b := f w.2
  let o : Int × Int := if k.after.force.mute then (0, 0) else (a.1, b.1)
  (o, { k with sat := satAdd 32 k.sat (a.2 + b.2) }.detect 2 now (o.1 * 4096, o.2 * 4096))

/-! ### Half-band stages (R289) -/

/-- One component of a half-band stage's output from the 47 samples about it, newest last: a filter that delays by 23 samples at
its higher rate is symmetrical about its middle tap. -/
def halfOut (up : Bool) (l : List Int) : Int :=
  sgn 32 (uns 32 (Config.halfRound up ((List.range 47).foldl (fun a i =>
    a + Config.halfTap up (max i 23 - min i 23) * l.getD i 0) 0)))

/-- A half-band stage takes a sample at its higher rate and gives the output whose 23 later samples are there, with its place. -/
def HalfBand.push (up : Bool) (s : HalfBand) (w : Int × Int) : Option (Nat × (Int × Int)) × HalfBand :=
  let h := (s.hist ++ [w]).drop (s.hist.length + 1 - 47)
  let z := List.replicate (47 - h.length) (0, 0) ++ h
  (if s.n < 23 then none else some (s.n - 23, halfOut up (z.map (·.1)), halfOut up (z.map (·.2))), { hist := h, n := s.n + 1 })

/-- A sample through stages that each halve the rate. -/
def halve : List HalfBand → Int × Int → Option (Int × Int) × List HalfBand
  | [], w => (some w, [])
  | s :: ss, w =>
    let r := s.push false w
    match r.1 with
    | some (i, v) => if i % 2 = 0 then let q := halve ss v; (q.1, r.2 :: q.2) else (none, r.2 :: ss)
    | none => (none, r.2 :: ss)

/-- A sample through a stage that doubles the rate: it and a zero enter. -/
def HalfBand.double (s : HalfBand) (w : Int × Int) : List (Int × Int) × HalfBand :=
  let a := s.push true w
  let b := a.2.push true (0, 0)
  ((a.1.map (·.2)).toList ++ (b.1.map (·.2)).toList, b.2)

/-- Samples through stages that each double the rate. -/
def double : List HalfBand → List (Int × Int) → List (Int × Int) × List HalfBand
  | [], ws => (ws, [])
  | s :: ss, ws =>
    let r := ws.foldl (fun (o : List (Int × Int) × HalfBand) w => let q := o.2.double w; (o.1 ++ q.1, q.2)) ([], s)
    let q := double ss r.1
    (q.1, r.2 :: q.2)

/-! ### The fractional stage (R290, R291) -/

/-- Taps per phase T (R291). -/
def Stream.taps (y : Stream) : Nat := if y.rs = 0 then 32 else 64

/-- Prototype tap `j` of phase `k`; phase 1,024 is phase 0 one input sample on (R290). -/
def Stream.tap (y : Stream) (k j : Nat) : Int :=
  if k < 1024 then sgn 24 (Config.protoTap y.rs k j)
  else if j + 1 < y.taps then sgn 24 (Config.protoTap y.rs 0 (j + 1)) else 0

/-- dot(h(k), x, i), with the samples x[i + T/2], x[i + T/2 - 1], ... (R290). -/
def Stream.dot (y : Stream) (k : Nat) (x : List Int) : Int :=
  (List.range y.taps).foldl (fun a j => a + y.tap k j * x.getD j 0) 0

/-- One component of an output before it saturates: y of R290. -/
def Stream.fracOut (y : Stream) (ph sub : Nat) (x : List Int) : Int :=
  rsh (y.dot ph x * (16384 - sub) + y.dot (ph + 1) x * sub) 36

/-- The outputs of the fractional stage whose newest input sample is there, at most `fuel` and none past the end of the frame
(R290). They pass the half-band stages that follow and wait for the stages after the resampler. -/
def Chain.resample (car : Carrier) (y : Stream) (dir : Nat) : Nat → Chain → Chain
  | 0, k => k
  | fuel + 1, k =>
    if y.fracFirst dir (k.anchors + 1) ≤ y.fracFirst dir k.anchors + k.nFrac then k
    else
      let at_ := leaveAt car y dir k.fracFrame (y.skew dir k.anchors + k.nFrac * 2 ^ y.stagesAfter dir)
      let side := (k.frac.turn at_).2
      let q := y.anchor dir k.anchors + (k.pos + side.force.dlyFrac * 2 ^ 30) % 2 ^ 64
      let newest := q / 2 ^ 40 + y.taps / 2
      if k.taken ≤ newest then k
      else
        let x := k.hist.drop (k.taken - 1 - newest)
        let ph := q / 2 ^ 30 % 1024
        let sub := q / 2 ^ 16 % 16384
        let re := y.fracOut ph sub (x.map (·.1))
        let im := y.fracOut ph sub (x.map (·.2))
        let out : Int × Int := (satS 32 re, satS 32 im)
        let r := double k.hbAfter [out]
        Chain.resample car y dir fuel
          { k with frac := side, pos := (k.pos + y.step dir) % 2 ^ 64, nFrac := k.nFrac + 1, hbAfter := r.2
                   ready := k.ready ++ r.1, sat := satAdd 32 k.sat ((out.1 != re).toNat + (out.2 != im).toNat) }

/-- The frame at the fractional stage has given all its outputs: it waits for the re-anchor. -/
def Chain.anchorDue (y : Stream) (dir : Nat) (k : Chain) : Bool :=
  k.frame.isSome && y.fracFirst dir (k.anchors + 1) ≤ y.fracFirst dir k.anchors + k.nFrac

/-- A sample enters the fractional stage. -/
def Chain.take (y : Stream) (k : Chain) (w : Int × Int) : Chain :=
  { k with hist := (w :: k.hist).take (y.taps + 8), taken := k.taken + 1 }

/-! ### The stages (R272) -/

/-- What precedes the resampler, from the input on: the word that enters it. -/
def beforeResampler (y : Stream) (dir now : Nat) (x : Int × Int) (k : Chain) (d : Dev) : (Int × Int) × Chain × Dev :=
  let w : Int × Int := (x.1 * 4096, x.2 * 4096)
  let k := k.detect 0 now w
  let en := k.before.force.sectEn
  if dir = 0 then
    let r := if y.side = 0 then k.sectStage now en w else (w, k)
    let g := gainStage k.before.force r.1 d
    (g.1, r.2.detect 1 now r.1, g.2)
  else
    let r := delayStage k w
    let r := if y.side = 1 then r.2.sectStage now en r.1 else r
    (r.1, r.2, d)

/-- A resampled word through what follows the resampler, to the output. -/
def afterResampler (y : Stream) (dir now : Nat) (w : Int × Int) (k : Chain) (d : Dev) : (Int × Int) × Chain × Dev :=
  let en := k.after.force.sectEn
  if dir = 0 then
    let r := if y.side = 1 then k.sectStage now en w else (w, k)
    let r := delayStage r.2 r.1
    let o := outStage now r.2 r.1
    (o.1, o.2, d)
  else
    let r := if y.side = 0 then k.sectStage now en w else (w, k)
    let g := gainStage k.after.force r.1 d
    let o := outStage now (r.2.detect 1 now r.1) g.1
    (o.1, o.2, g.2)

/-- A sample leaves a transmit chain: it joins the symbol now leaving; a finished symbol waits for its spokes or its host
channel (R432, R433; R30). -/
def Chain.collect (car : Carrier) (y : Stream) (k : Chain) (v : Int × Int) : Chain :=
  let at_ := fun m => car.symAt (m * 1966080 / y.fout)
  let g := at_ k.nOut
  let out := k.out ++ [v]
  if at_ (k.nOut + 1) != g || k.nOut + 1 = y.fout * 10 then
    { k with out := []
             syms := k.syms ++ [{ start := car.frameStart k.outFrame + car.symStart g, frame := k.outFrame, slot := g / car.perSlot
                                  sym := g % car.perSlot, samples := out }] }
  else { k with out := out }

/-- A detector at this tap of a direction lies after the resampler (R294). -/
def tapAfter (dir tap : Nat) : Bool := tap = 2 || (tap = 1 && dir = 1)

/-- A frame boundary passes the detectors on one side of the resampler: their windows are cut (R295). -/
def Chain.cutWindows (k : Chain) (dir : Nat) (after : Bool) : Chain :=
  { k with peak := if tapAfter dir k.peak.tap = after then k.peak.close false else k.peak
           rms := if tapAfter dir k.rms.tap = after then k.rms.close true else k.rms }

/-- Something at the chain is due that comes before its next sample: the end of a window or of a fade (R284, R295). -/
def Chain.endDue (k : Chain) : Bool := k.peak.full || k.rms.full || k.fade.any fun q => q.len ≤ q.n

/-- An output sample is counted; the frame's last one ends the frame on the output side. -/
def Chain.counted (y : Stream) (dir : Nat) (relay : Bool) (k : Chain) : Chain :=
  if k.nOut + 1 < y.rateOut dir * 10 then { k with nOut := k.nOut + 1 }
  else { k.cutWindows dir true with nOut := 0, outFrame := k.outFrame + 1, buf := if relay then k.buf else [] }

/-- Bytes of cint16 samples. -/
def iqBytes (l : List (Int × Int)) : List Byte := l.flatMap fun v => le 2 (uns 16 v.1) ++ le 2 (uns 16 v.2)

/-- The capture area: the last 1 GB of the images and data partition (R36). -/
def captureBase : Nat := 0x1240000000

/-- A sample of air time `t` that leaves a receive chain goes to an armed capture of its stream (R36). -/
def Dev.captureSample (d : Dev) (stream t rate : Nat) (v : Int × Int) : Dev :=
  match d.devmode.capture with
  | some q =>
    let total := q.frames * rate * 10 * 4
    if q.stream != stream || t < q.start || total ≤ q.stored || d.devmode.mode != .conformance then d
    else
      let bs := (iqBytes [v]).take (total - q.stored)
      let d := (d.memWrite (captureBase + q.stored) bs).2
      let q := { q with stored := q.stored + bs.length, first := if q.stored = 0 then t else q.first }
      d.updDevmode fun m => { m with capture := some q }
  | none => d

/-- The stored vector that feeds a transmit chain in CONFORMANCE, if its carrier has one (R33, R35): the sample of
index `n` of frame `f`. The manual gives no order of the samples in the loaded buffer: track after track, in a track frame after
frame, each sample as I then Q, is the model's choice (DESIGN CHOICE, log 148). -/
def Dev.vectorSample (d : Dev) (stream : Nat) (y : Stream) (car : Carrier) (f n : Nat) : Option (Int × Int) :=
  match tfind d.devmode.conf y.carrier with
  | some q =>
    if d.devmode.mode = .conformance && q.source = 2 && q.start ≤ car.frameStart f then
      let v := tget {} d.devmode.vec q.vslot
      let track := (d.fe.streams.filter fun e => e.2.carrier = y.carrier && e.1 < stream).length
      let frame := (car.frameStart f - q.start) / frameTc % max v.frames 1
      let i := ((track * v.frames + frame) * (v.rate * 10) + n) * 4
      some (sgn 16 (fieldAt v.data i 2), sgn 16 (fieldAt v.data (i + 2) 2))
    else none
  | none => none

/-- One resampled word leaves the chain: a transmit sample for its symbol, a receive sample into the stream buffers (R272). -/
def Dev.leave (c : Clock) (d : Dev) (stream dir : Nat) (y : Stream) (car : Carrier) (w : Int × Int) : Dev :=
  let k := d.chain stream dir
  let t := leaveAt car y dir k.outFrame k.nOut
  let r := afterResampler y dir c.atc w (k.turnAfter y dir t) d
  let k := if dir = 0 then r.2.1.collect car y r.1 else { r.2.1 with buf := r.2.1.buf ++ [r.1] }
  let d := r.2.2.updChain stream dir fun _ => k.counted y dir (d.devmode.mode = .relay)
  if dir = 0 then d else d.captureSample stream t y.fin r.1

/-- The resampled words leave, until something that is due stops them. -/
def Dev.leaveAll (c : Clock) (stream dir : Nat) (y : Stream) (car : Carrier) : Nat → Dev → Dev
  | 0, d => d
  | fuel + 1, d =>
    let k := d.chain stream dir
    match k.ready with
    | [] => d
    | w :: ws =>
      if k.endDue then d
      else Dev.leaveAll c stream dir y car fuel ((d.updChain stream dir fun k => { k with ready := ws }).leave c stream dir y car w)

/-! ### A sample enters (R274) -/

/-- What a chain's input sample `n` of frame `f` is, if it is there: what has arrived by message, and for a transmit chain a stored
vector's, in RELAY the oldest sample that the stream's receive chain has left (DESIGN CHOICE, log 151), or what the stream
buffers hold as the command gives it. -/
def Dev.given (d : Dev) (stream dir : Nat) (y : Stream) (car : Carrier) (f n : Nat) (buffers : Option (Int × Int)) :
    Option (Int × Int) :=
  match tfind (d.chain stream dir).arrived (2 ^ 24 * f + n) with
  | some v => some v
  | none =>
    if dir != 0 then none
    else match d.vectorSample stream y car f n with
      | some v => some v
      | none => if d.devmode.mode = .relay then (d.chain stream 1).buf.head? else buffers

/-- A transmit sample is read at `buf` of the stream buffers (0: from a place that holds no memory error): it is there unless its
code word is poisoned or its memory sleeps (R376). -/
def Dev.bufferRead (c : Clock) (d : Dev) (stream buf : Nat) : Bool × Dev :=
  if regionOf buf != .dram then (true, d)
  else if !(memDomain buf).all d.awake then (false, d)
  else let r := d.checkRead c buf 4 rqFront stream; (!r.1, r.2)

/-- A sample enters its chain at its fixed time, or zero in its place (R274), and passes the stages. Ends of windows, fades and
frames that are due come first. In a slot that the carrier does not run nothing is transmitted or received: its samples are
zero and no gaps (R24, R106). -/
def Dev.sampleEntry (c : Clock) (d : Dev) (stream dir : Nat) (present : Bool) (re im buf : Nat) : Dev :=
  match d.stream stream with
  | none => d
  | some y =>
    match d.carrierOf y, (d.chain stream dir).frame with
    | some car, some f =>
      let k := d.chain stream dir
      let n := k.nIn
      if y.rateIn dir * 10 ≤ n || c.atc < entryAt car y dir f n || k.endDue || k.anchorDue y dir then d
      else
        let t := sampleAt car y dir f n
        let runs := d.slotRuns y.carrier car f (car.symAt (t - car.frameStart f) / car.perSlot)
        let b := if runs && dir = 0 && present then d.bufferRead c stream buf else (present, d)
        let present := b.1
        let d := b.2
        let v := if runs then d.given stream dir y car f n (if present then some (sgn 16 re, sgn 16 im) else none) else none
        let d := if dir = 0 && runs && d.devmode.mode = .relay then d.updChain stream 1 fun k => { k with buf := k.buf.drop 1 }
          else d
        let k := { k with arrived := k.arrived.filter fun e => 2 ^ 24 * f + n < e.1, nIn := n + 1 }
        let k := if runs && v.isNone then { k with gaps := satAdd 32 k.gaps 1, frameGaps := k.frameGaps + 1 } else k
        let b := beforeResampler y dir c.atc (v.getD (0, 0)) (k.turnBefore y dir t) d
        let h := halve b.2.1.hbBefore b.1
        let k := { b.2.1 with hbBefore := h.2 }
        let k := match h.1 with
          | some w => (k.take y w).resample car y dir 8
          | none => k
        (b.2.2.updChain stream dir fun _ => k).leaveAll c stream dir y car (k.ready.length + 1)
    | _, _ => d

/-- A frame boundary of the stream's carrier (R274, R292, R295). A chain that has not begun begins with the first whole frame.
Where the frame's samples have all entered, windows before the resampler are cut, gaps are reported, and the next frame's enter;
where the fractional stage has given all its outputs, it re-anchors. -/
def execResamplerReanchor (stream dir : Nat) : State → Out := onDev fun c d =>
  match d.stream stream with
  | none => d
  | some y =>
    match d.carrierOf y with
    | none => d
    | some car =>
      let k := d.chain stream dir
      match k.frame with
      | none =>
        let f := firstFrame car y dir c.atc
        d.updChain stream dir fun k =>
          { k with frame := some f, fracFrame := f, outFrame := f, nIn := 0, nFrac := 0, nOut := 0, anchors := 0, pos := 0
                   hbBefore := List.replicate (y.stagesBefore dir) {}, hbAfter := List.replicate (y.stagesAfter dir) {}
                   hist := [], taken := 0, ready := [], frameGaps := 0 }
      | some f =>
        let d := if !k.anchorDue y dir then d
          else d.updChain stream dir fun k =>
            { k with anchors := k.anchors + 1, fracFrame := k.fracFrame + 1, nFrac := 0, pos := y.anchored dir (k.anchors + 1) }
        if k.nIn < y.rateIn dir * 10 then d
        else
          let d := d.updChain stream dir fun k =>
            { k.cutWindows dir false with frame := some (f + 1), nIn := 0, frameGaps := 0 }
          if k.frameGaps = 0 then d
          else d.evtLog c y.owner y.owner 0x0683 0 27 trbTIMING
            [(0, 2, stream), (2, 1, dir), (4, 4, k.frameGaps), (8, 4, f)]

/-! ### Status and delay (R293, R298) -/

def execFeStatus (r : Req) (stream dir : Nat) : State → Out := onDev <| serve 0x0605 r <| noFx fun x d =>
  if !d.seesStream x stream then rBad 0
  else if 1 < dir then rBad 2
  else
    let k := d.chain stream dir
    rOk [(1, k.active), (2, (k.fade.map (·.n)).getD 0xFFFF), (1, (k.held.map (·.target)).getD 0xFF),
         (2, (k.held.map (·.len)).getD 0), (4, k.sat), (4, k.gaps)]

/-- A fraction rounded down, or with a free unit more where it is no whole number: the manual gives no rounding. -/
def ratioFree (n m : Nat) (d : Dev) : Nat × Dev := if n % m = 0 then (n / m, d) else let r := draw d; (n / m + r.1 % 2, r.2)

def execFeGetDelay (r : Req) (stream dir : Nat) : State → Out := onDev <| serve 0x0608 r fun x d =>
  if !d.seesStream x stream then (rBad 0, d)
  else if 1 < dir then (rBad 2, d)
  else match d.stream stream with
    | none => (rBad 0, d)
    | some y =>
      let s := (d.feSet stream dir).act
      let hi := max y.fin y.fout
      let fi := (y.fracRates dir).1
      let u := 1966080 * 65536
      let taps := if y.rs = 0 then 16 else 32
      let hb := (List.range y.hb).foldl (fun a i => a + 23 * 2 ^ i) 0
      let fixed := ratioFree ((hb * fi + taps * 2 ^ y.hb * hi) * u) (hi * fi) d
      let conf := ratioFree ((s.dlyInt * fi * 1024 + s.dlyFrac * 2 ^ y.hb * y.fout) * u) (y.fout * fi * 1024) fixed.2
      (rOk [(8, fixed.1), (8, conf.1), (8, fixed.1 + conf.1)], conf.2)

end Sys2Proof.Machine
end

