-- ==== Sys2Proof/Machine/Llr.lean ====
section
/-! DEFINITION. The HARQ LLR codes (R312-R315): entries, levels and packed soft buffers. -/
namespace Sys2Proof.Machine

/-- Levels of the four-bit code (R314). -/
def llrLevels4 : List Nat := [0, 2, 5, 10, 18, 32, 56, 100]

/-- Levels of the five-bit code (R315). -/
def llrLevels5 : List Nat := [0, 1, 2, 3, 4, 6, 8, 11, 15, 20, 27, 36, 48, 64, 86, 116]

/-- enc of R313: code of one LLR. -/
def llrEnc (lev : List Nat) (x : Int) : Nat :=
  let a := x.natAbs
  let i := (List.range (lev.length - 1)).foldl
    (fun i j => if i = j && lev.getD j 0 + lev.getD (j + 1) 0 < 2 * a then i + 1 else i) 0
  if i = 0 then 0 else (if x < 0 then lev.length else 0) + i

/-- The level an entry stands for (R313). -/
def llrDec (lev : List Nat) (c : Nat) : Int :=
  let v : Int := lev.getD (c % lev.length) 0
  if lev.length ≤ c then -v else v

/-- Bits of an entry by LLRCODE (R312). -/
def llrBits (code : Nat) : Nat := if code = 0 then 4 else if code = 1 then 5 else 8

/-- One entry by LLRCODE (R312-R315). -/
def llrEntry (code : Nat) (x : Int) : Nat :=
  if code = 0 then llrEnc llrLevels4 x else if code = 1 then llrEnc llrLevels5 x else uns 8 x

def llrValue (code c : Nat) : Int :=
  if code = 0 then llrDec llrLevels4 c else if code = 1 then llrDec llrLevels5 c else sgn 8 c

/-- A buffer of `len` bytes: entry k at bits [bk + b - 1 : bk] of the stream, the rest zero (R312). -/
def llrPack (code len : Nat) (xs : List Int) : List Byte :=
  le len (xs.foldl (fun o x => (o.1 + llrEntry code x * 2 ^ o.2, o.2 + llrBits code)) (0, 0)).1

/-- Entry `k` of a buffer (R312). -/
def llrAt (code : Nat) (bs : List Byte) (k : Nat) : Int :=
  llrValue code (bits (leVal bs) (llrBits code * k) (llrBits code))

/-- Clamp to the range of an LLR sum (R266). -/
def sat127 (x : Int) : Int := max (-127) (min x 127)

/-- An input LLR: -128 is read as -127 (R253). -/
def llrIn (b : Byte) : Int := max (-127) (sgn 8 b.toNat)

end Sys2Proof.Machine
end

