-- ==== Sys2Proof/Machine/Compression.lean ====
section
/-! DEFINITION. IQ and LLR compression (chapter 10): the block floating-point codec of the spokes, bit for bit
(R302-R309), and its shadowed settings and commands (R310, R311, R316, R640). -/
namespace Sys2Proof.Machine

/-! ### Bits (R303) -/

/-- The low `n` bits of a number, most significant first. -/
def msb (n v : Nat) : List Bool := (List.range n).map fun i => bit v (n - 1 - i)

/-- The number that bits spell, most significant first. -/
def ofMsb (l : List Bool) : Nat := l.foldl (fun a b => 2 * a + b.toNat) 0

/-- Bytes of a bit string, its last byte completed with zero bits (R303). -/
def packBits (fuel : Nat) (l : List Bool) : List Byte :=
  match fuel with
  | 0 => []
  | f + 1 =>
    if l.isEmpty then []
    else BitVec.ofNat 8 (ofMsb ((l ++ List.replicate 7 false).take 8)) :: packBits f (l.drop 8)

def toBytes (l : List Bool) : List Byte := packBits (l.length / 8 + 1) l

/-- The bits of bytes, bit 7 of the first byte first (R303). -/
def ofBytes (l : List Byte) : List Bool := l.flatMap fun b => msb 8 b.toNat

/-! ### Blocks (R305-R308) -/

/-- q(x, e) of R305. -/
def quant (x : Int) (e : Nat) : Int := if e = 0 then x else rsh x e

/-- Every rounded component fits m bits. -/
def allFit (c : List Int) (m e : Nat) : Bool :=
  c.all fun x => quant x e ≤ 2 ^ (m - 1) - 1 && -(2 ^ (m - 1) : Int) ≤ quant x e

/-- choose_e of R305: the smallest fitting e. -/
def chooseE (c : List Int) (m : Nat) : Nat := ((List.range 16).find? fun e => allFit c m e).getD 15

/-- A decoded component (R306). -/
def decodeComp (mant : Int) (e : Nat) : Int := satS 16 (mant * 2 ^ e)

/-- The largest absolute error over the components of a block coded in m bits (R308). -/
def blockError (c : List Int) (m : Nat) : Nat :=
  let e := chooseE c m
  c.foldl (fun a x => max a (decodeComp (quant x e) e - x).natAbs) 0

/-- The width BOUNDED mode keeps, and whether none qualified (R308). -/
def chooseM (c : List Int) (s : CmpSet) : Nat × Bool :=
  match ((List.range (s.mMax + 1 - s.mMin)).map fun i => s.mMin + i).find? fun m => blockError c m ≤ s.bound with
  | some m => (m, false)
  | none => (s.mMax, true)

/-- One block's bits, its width, and whether BOUND was missed (R302-R305, R308). -/
def encodeBlock (s : CmpSet) (c : List Int) : List Bool × Nat × Bool :=
  let mants := fun m e => c.flatMap fun x => msb m (uns m (quant x e))
  if s.mode = 0 then (c.flatMap fun x => msb 16 (uns 16 x), 16, false)
  else if s.mode = 1 then let e := chooseE c s.m; (msb 4 e ++ mants s.m e, s.m, false)
  else
    let r := chooseM c s
    let e := chooseE c r.1
    (msb 4 e ++ msb 4 (r.1 % 16) ++ mants r.1 e, r.1, r.2)

/-- The components of a message cut into blocks of 16 samples, the last filled with zeros (R301). -/
def cutBlocks : Nat → List (Int × Int) → List (List Int)
  | 0, _ => []
  | f + 1, l =>
    if l.isEmpty then []
    else ((l ++ List.replicate 15 (0, 0)).take 16).flatMap (fun v : Int × Int => [v.1, v.2]) :: cutBlocks f (l.drop 16)

/-- A message payload: its bytes, blocks, sum of widths, and misses (R301-R308). -/
def compress (s : CmpSet) (l : List (Int × Int)) : List Byte × Nat × Nat × Nat :=
  let r := (cutBlocks (l.length / 16 + 1) l).map (encodeBlock s)
  (toBytes (r.flatMap (·.1)), r.length, r.foldl (fun a b => a + b.2.1) 0, (r.filter fun b => b.2.2).length)

/-- A width code of a BOUNDED header is valid (R304). -/
def headerWidth (code : Nat) : Option Nat := if code = 0 then some 16 else if code ≤ 5 then none else some code

/-- One block's mantissas decoded: components and saturations (R306). -/
def decodeMants (m e : Nat) (bs : List Bool) : List Int × Nat :=
  (List.range 32).foldl (fun o i =>
    let v := sgn m (ofMsb ((bs.drop (m * i)).take m)) * 2 ^ e
    (o.1 ++ [satS 16 v], o.2 + (satS 16 v != v : Bool).toNat)) ([], 0)

/-- What decoding a payload gives. -/
structure Decoded where
  /-- components in order -/
  comps : List Int := []
  /-- saturated components (R306) -/
  sat : Nat := 0
  /-- the invalid header byte met, if any (R309) -/
  bad : Option Nat := none
  /-- blocks decoded -/
  blocks : Nat := 0
  /-- sum of widths -/
  sumM : Nat := 0
  /-- bits used -/
  used : Nat := 0
  /-- width of the first block, none where its header is invalid -/
  firstM : Option Nat := none
  /-- the payload ended before its blocks did -/
  short : Bool := false
  deriving DecidableEq, Repr

/-- `n` blocks decoded in a mode; after an invalid header every later sample is zero (R306, R309). -/
def decodeBlocks (mode m : Nat) : Nat → List Bool → Decoded → Decoded
  | 0, _, o => o
  | n + 1, bs, o =>
    if o.bad.isSome then decodeBlocks mode m n bs { o with comps := o.comps ++ List.replicate 32 0 }
    else
      let hdr := if mode = 0 then 0 else if mode = 1 then 4 else 8
      let e := if mode = 0 then 0 else ofMsb (bs.take 4)
      let w := if mode = 0 then some 16 else if mode = 1 then some m else headerWidth (ofMsb ((bs.drop 4).take 4))
      match w with
      | none =>
        decodeBlocks mode m n bs { o with comps := o.comps ++ List.replicate 32 0, bad := some (ofMsb (bs.take 8))
                                          short := o.short || bs.length < hdr }
      | some w =>
        let r := decodeMants w e (bs.drop hdr)
        decodeBlocks mode m n (bs.drop (hdr + 32 * w))
          { o with comps := o.comps ++ r.1, sat := o.sat + r.2, blocks := o.blocks + 1, sumM := o.sumM + w
                   used := o.used + hdr + 32 * w, firstM := if o.used = 0 then some w else o.firstM
                   short := o.short || bs.length < hdr + 32 * w }

/-- A message payload decoded: `nsamp` samples in blocks of 16 (R301, R306). -/
def decompress (mode m nsamp : Nat) (bs : List Byte) : Decoded := decodeBlocks mode m (cdiv nsamp 16) (ofBytes bs) {}

/-- The samples of decoded components. -/
def pairUp : List Int → List (Int × Int)
  | a :: b :: l => (a, b) :: pairUp l
  | _ => []

/-- The compression set in force in a chain for a symbol that starts at ATC `t` (R311). -/
def Chain.cmpFor (k : Chain) (t : Nat) : CmpSet := ((k.cnext.filter fun n => n.1 ≤ t).getLast?.map (·.2)).getD k.cforce

/-! ### Commands (R316, R640) -/

/-- The set as it would stand after a write. -/
def cmpMerge (mask mode m mMin mMax bound : Nat) (s : CmpSet) : CmpSet :=
  { mode := if bit mask 0 then mode else s.mode, m := if bit mask 1 then m else s.m
    mMin := if bit mask 2 then mMin else s.mMin, mMax := if bit mask 3 then mMax else s.mMax
    bound := if bit mask 4 then bound else s.bound }

/-- The first request field that takes part in a range fault of one direction's set after the write (R640). -/
def cmpFault (mask : Nat) (s : CmpSet) : Option Nat :=
  let w := fun v => v < 6 || 16 < v
  let cross := s.mMax < s.mMin
  if bit mask 0 && 2 < s.mode then some 4
  else if bit mask 1 && w s.m then some 5
  else if bit mask 2 && (w s.mMin || cross) then some 6
  else if bit mask 3 && (w s.mMax || cross) then some 7
  else if bit mask 4 && 32767 < s.bound then some 8
  else none

/-- A write of class 0x2 of a stream in the given directions. -/
def Dev.cmpWrite (c : Clock) (d : Dev) (s : Nat) (dirs : List Nat) (f : CmpSet → CmpSet) : Dev :=
  let land := (d.shadow 2 s).landing c.atc
  let d := [0, 1].foldl (fun d dir => d.updFe fun x =>
    { x with cmp := tmod cmpPass x.cmp (chainKey s dir) (Inst.write c.atc land (if dirs.contains dir then f else id)) }) d
  d.updShadow 2 s fun y => y.touched c.atc false

def execCmpShadowWrite (r : Req) (stream dir mask mode m mMin mMax bound : Nat) : State → Out :=
  onDev <| serve 0x0690 r fun x d =>
    let f := cmpMerge mask mode m mMin mMax bound
    if !d.seesStream x stream then (rBad 0, d)
    else if 2 < dir then (rBad 2, d)
    else if 32 ≤ mask then (rBad 3, d)
    else match ((dirsOf dir).filterMap fun q => cmpFault mask (f (d.cmpSet stream q).latest)).min? with
      | some o => (rBad o, d)
      | none => if mask = 0 then (rOk, d) else (rOk, d.cmpWrite x.clk stream (dirsOf dir) f)

def execCmpStatus (r : Req) (stream dir : Nat) : State → Out := onDev <| serve 0x0691 r <| noFx fun x d =>
  if !d.seesStream x stream then rBad 0
  else if 1 < dir then rBad 2
  else
    let s := (d.cmpSet stream dir).act
    let k := d.chain stream dir
    rOk [(1, s.mode), (1, s.m), (1, s.mMin), (1, s.mMax), (2, s.bound), (8, k.blocks), (8, k.sumM), (4, k.boundMiss),
         (4, k.cmpSat), (4, k.badHdr)]

def execCmpClear (r : Req) (stream dir : Nat) : State → Out := onDev <| serve 0x0692 r fun x d =>
  if !d.seesStream x stream then (rBad 0, d)
  else if 2 < dir then (rBad 2, d)
  else (rOk, (dirsOf dir).foldl (fun d q => d.updChain stream q fun k =>
    { k with blocks := 0, sumM := 0, boundMiss := 0, cmpSat := 0, badHdr := 0 }) d)

end Sys2Proof.Machine
end

