-- ==== Sys2Proof/Machine/Float.lean ====
section
/-! DEFINITION. Floating point of the vector datapath and the special-function unit (R167, R200): formats, exact
arithmetic, and rounding to nearest even with subnormals read and flushed as zero. -/
namespace Sys2Proof.Machine

/-- A binary format: exponent bits and fraction bits. -/
structure FpFmt where
  e : Nat
  m : Nat
  deriving DecidableEq, Repr

def fp16 : FpFmt := ⟨5, 10⟩
def bf16 : FpFmt := ⟨8, 7⟩
def fp32 : FpFmt := ⟨8, 23⟩

/-- The format of a floating VTYPE. -/
def fmtOf (vt : Nat) : FpFmt := if vt = 5 then fp16 else if vt = 6 then bf16 else fp32

def FpFmt.bias (f : FpFmt) : Int := 2 ^ (f.e - 1) - 1
def FpFmt.width (f : FpFmt) : Nat := 1 + f.e + f.m
def FpFmt.inf (f : FpFmt) (neg : Bool) : Nat := neg.toNat * 2 ^ (f.e + f.m) + (2 ^ f.e - 1) * 2 ^ f.m
def FpFmt.zero (f : FpFmt) (neg : Bool) : Nat := neg.toNat * 2 ^ (f.e + f.m)
/-- The canonical quiet NaN (R167). -/
def FpFmt.qnan (f : FpFmt) : Nat := (2 ^ f.e - 1) * 2 ^ f.m + 2 ^ (f.m - 1)

/-- A value: NaN (signalling or not), infinity, or sign, magnitude and exponent with value m * 2^e. -/
inductive Fp where
  | nan (sig : Bool)
  | inf (neg : Bool)
  | fin (neg : Bool) (m : Nat) (e : Int)
  deriving DecidableEq, Repr

/-- Flags, as VSTAT places them: FNX 1, FUF 2, FOF 4, FNV 8 (R156). -/
def fNX : Nat := 1
def fUF : Nat := 2
def fOF : Nat := 4
def fNV : Nat := 8
def vSAT : Nat := 16

/-- Read an operand: a subnormal is a zero of its sign (R167). -/
def FpFmt.read (f : FpFmt) (x : Nat) : Fp :=
  let neg := bit x (f.e + f.m)
  let ex := bits x f.m f.e
  let fr := bits x 0 f.m
  if ex = 2 ^ f.e - 1 then (if fr = 0 then .inf neg else .nan (fr < 2 ^ (f.m - 1)))
  else if ex = 0 then .fin neg 0 0
  else .fin neg (2 ^ f.m + fr) ((ex : Int) - f.bias - f.m)

/-- Round m * 2^e to the format as IEEE 754 does; a result that would be subnormal is flushed (R167): bits and flags. -/
def FpFmt.round (f : FpFmt) (neg : Bool) (m : Nat) (e : Int) : Nat × Nat :=
  if m = 0 then (f.zero neg, 0)
  else
    let top := e + m.log2
    let q := max (top - f.m) (1 - f.bias - f.m)
    let n : Nat := if q ≤ e then m * 2 ^ (e - q).toNat else (rsh (m : Int) (q - e).toNat).toNat
    let inexact := q > e && m % 2 ^ (q - e).toNat != 0
    let carry : Bool := n = 2 ^ (f.m + 1)
    let ex := q + f.m + carry.toNat
    let n := if carry then 2 ^ f.m else n
    let nx := if inexact then fNX else 0
    if n < 2 ^ f.m then (f.zero neg, fUF + fNX)
    else if ex > f.bias then (f.inf neg, fOF + fNX)
    else (neg.toNat * 2 ^ (f.e + f.m) + (ex + f.bias).toNat * 2 ^ f.m + (n - 2 ^ f.m), nx)

/-- A result in a format. -/
def FpFmt.put (f : FpFmt) : Fp → Nat × Nat
  | .nan sig => (f.qnan, if sig then fNV else 0)
  | .inf neg => (f.inf neg, 0)
  | .fin neg m e => f.round neg m e

/-- The sign of a magnitude difference. -/
def finOf (v : Int) (e : Int) (zneg : Bool) : Fp :=
  if v = 0 then .fin zneg 0 0 else .fin (v < 0) v.natAbs e

def finInt (neg : Bool) (m : Nat) (sh : Nat) : Int := if neg then -((m * 2 ^ sh : Nat) : Int) else (m * 2 ^ sh : Nat)

def Fp.neg : Fp → Fp
  | .nan s => .nan s
  | .inf n => .inf !n
  | .fin n m e => .fin (!n) m e

/-- Exact sum; infinity minus infinity is invalid. -/
def Fp.add : Fp → Fp → Fp
  | .nan s, .nan t => .nan (s || t)
  | .nan s, _ => .nan s
  | _, .nan s => .nan s
  | .inf a, .inf b => if a = b then .inf a else .nan true
  | .inf a, _ => .inf a
  | _, .inf b => .inf b
  | .fin na ma ea, .fin nb mb eb =>
    let e := min ea eb
    if ma = 0 && mb = 0 then .fin (na && nb) 0 0
    else if ma = 0 then .fin nb mb eb
    else if mb = 0 then .fin na ma ea
    else finOf (finInt na ma (ea - e).toNat + finInt nb mb (eb - e).toNat) e false

/-- Exact product; zero times infinity is invalid. -/
def Fp.mul : Fp → Fp → Fp
  | .nan s, .nan t => .nan (s || t)
  | .nan s, _ => .nan s
  | _, .nan s => .nan s
  | .inf a, .inf b => .inf (a != b)
  | .inf a, .fin nb mb _ => if mb = 0 then .nan true else .inf (a != nb)
  | .fin na ma _, .inf b => if ma = 0 then .nan true else .inf (na != b)
  | .fin na ma ea, .fin nb mb eb => .fin (na != nb) (ma * mb) (ea + eb)

/-- Sum, difference, product and fused multiply-add in one format (R162, R167). -/
def fpAdd (f : FpFmt) (a b : Nat) : Nat × Nat := f.put ((f.read a).add (f.read b))
def fpSub (f : FpFmt) (a b : Nat) : Nat × Nat := f.put ((f.read a).add (f.read b).neg)
def fpMul (f : FpFmt) (a b : Nat) : Nat × Nat := f.put ((f.read a).mul (f.read b))
def fpFma (f : FpFmt) (sub : Bool) (a b d : Nat) : Nat × Nat :=
  let p := (f.read a).mul (f.read b)
  f.put ((f.read d).add (if sub then p.neg else p))

/-- The order key of R175: keys compare as signed 32-bit integers. -/
def fpKey (x : Nat) : Nat := if bit x 31 then x ^^^ 0x7FFFFFFF else x

/-- Exact conversion of a 16-bit format to binary32; NaN is canonical. -/
def toFp32 (f : FpFmt) (x : Nat) : Nat × Nat := fp32.put (f.read x)

/-- The element read as binary32 order key, none for a NaN. -/
def keyOf (f : FpFmt) (x : Nat) : Option Int :=
  match f.read x with
  | .nan _ => none
  | v => some (sgn 32 (fpKey (fp32.put v).1))

/-- The bits of binary32 of an element, converted exactly, a subnormal one too (R175). -/
def exactFp32 (f : FpFmt) (x : Nat) : Nat :=
  let fr := bits x 0 f.m
  if f.m = 23 then x % 2 ^ 32
  else if f.m = 7 then x % 2 ^ 16 * 2 ^ 16
  else if bits x f.m f.e = 0 && fr != 0 then (fp32.round (bit x (f.e + f.m)) fr (1 - f.bias - f.m)).1
  else (fp32.put (f.read x)).1

/-- The order key of an element in a search, none for a NaN (R175). -/
def searchKey (f : FpFmt) (x : Nat) : Option Int :=
  match f.read x with
  | .nan _ => none
  | _ => some (sgn 32 (fpKey (exactFp32 f x)))

/-- The flag of an operation that only compares: a signalling NaN is invalid. -/
def fpQuiet (f : FpFmt) (a b : Nat) : Nat :=
  match f.read a, f.read b with
  | .nan true, _ => fNV
  | _, .nan true => fNV
  | _, _ => 0

/-- Minimum or maximum: the non-NaN operand when exactly one is NaN (R167). -/
def fpMinMax (f : FpFmt) (mx : Bool) (a b : Nat) : Nat × Nat :=
  let r := match keyOf f a, keyOf f b with
    | none, none => f.qnan
    | none, some _ => (f.put (f.read b)).1
    | some _, none => (f.put (f.read a)).1
    | some x, some y => (f.put (f.read (if (if mx then x < y else y < x) then b else a))).1
  (r, fpQuiet f a b)

/-- Comparison by the CMP codes 0-3; a NaN compares unequal to everything. -/
def fpCmp (f : FpFmt) (cond a b : Nat) : Bool × Nat :=
  let fl := fpQuiet f a b
  let zeroKey := fun (k : Int) => if k = -1 then (0 : Int) else k
  match keyOf f a, keyOf f b with
  | some x, some y =>
    let x := zeroKey x
    let y := zeroKey y
    (if cond = 0 then x = y else if cond = 1 then x != y else if cond = 2 then x < y else x ≥ y, fl)
  | _, _ => (cond = 1, fl)

/-- Integer of `w` bits to binary32. -/
def intToFp32 (v : Int) : Nat × Nat := fp32.round (v < 0) v.natAbs 0

/-- Binary32 to an integer of `w` bits: half to even, saturating; NaN gives 0 (R168). -/
def fp32ToInt (w : Nat) (x : Nat) : Nat × Nat :=
  match fp32.read x with
  | .nan _ => (0, fNV)
  | .inf neg => (uns w (if neg then -(2 ^ (w - 1) : Int) else 2 ^ (w - 1) - 1), vSAT)
  | .fin neg m e =>
    let v : Int := if 0 ≤ e then finInt neg m e.toNat else rsh (finInt neg m 0) (-e).toNat
    let inexact := e < 0 && m % 2 ^ (-e).toNat != 0
    let s := satS w v
    (uns w s, (if s != v then vSAT else 0) + (if inexact then fNX else 0))

/-- Integer square root by bisection over `n` bits. -/
def isqrt (x : Nat) : Nat → Nat → Nat
  | 0, r => r
  | n + 1, r => isqrt x n (if (r + 2 ^ n) * (r + 2 ^ n) ≤ x then r + 2 ^ n else r)

/-- Correctly rounded square root in binary32 (R200): the root of m * 2^e taken to 64 bits and a sticky bit. -/
def fpSqrt (x : Nat) : Nat × Nat :=
  match fp32.read x with
  | .nan sig => (fp32.qnan, if sig then fNV else 0)
  | .inf false => (fp32.inf false, 0)
  | .inf true => (fp32.qnan, fNV)
  | .fin neg m e =>
    if m = 0 then (fp32.zero neg, 0)
    else if neg then (fp32.qnan, fNV)
    else
      let odd := e % 2 != 0
      let m' := (if odd then 2 * m else m) * 2 ^ 60
      let e' := (if odd then e - 1 else e) - 60
      let r := isqrt m' 64 0
      fp32.round false (2 * r + (if r * r = m' then 0 else 1)) (e' / 2 - 1)

end Sys2Proof.Machine
end

