-- ==== Sys2Proof/Machine/Matrix.lean ====
section
/-! DEFINITION. Matrices of the matrix unit and of the MIMO engines (R201, R202, R259): the pivots, in exact arithmetic, and the
step at which a factorisation fails. -/
namespace Sys2Proof.Machine

/-- A Gaussian integer. -/
abbrev GInt := Int × Int
def gMul (a b : GInt) : GInt := (a.1 * b.1 - a.2 * b.2, a.1 * b.2 + a.2 * b.1)
def gSub (a b : GInt) : GInt := (a.1 - b.1, a.2 - b.2)
def gAbs2 (a : GInt) : Int := a.1 * a.1 + a.2 * a.2
/-- Exact quotient. -/
def gDiv (a b : GInt) : GInt := let n := gMul a (b.1, -b.2); (n.1 / gAbs2 b, n.2 / gAbs2 b)

/-- A word of the matrix as an integer in units of 2^-150; none for an infinity or a NaN. -/
def wordInt (w : Nat) : Option Int :=
  match fp32.read w with
  | .fin neg m e => some (finInt neg m (e + 150).toNat)
  | _ => none

/-- The element (re, im) at index `i` of the words read, in units of 2^-150. -/
def matElem (in16 : Bool) (ws : List Nat) (i : Nat) : Option GInt :=
  if in16 then
    let w := BitVec.ofNat 32 (ws.getD i 0)
    some (laneLo w * 2 ^ 135, laneHi w * 2 ^ 135)
  else match wordInt (ws.getD (2 * i) 0), wordInt (ws.getD (2 * i + 1) 0) with
    | some x, some y => some (x, y)
    | _, _ => none

/-- One step of exact elimination: rows below the pivot row, each entry an exact minor. -/
def elimRow (prev : GInt) (piv row : List GInt) : List GInt :=
  let p := piv.headD (1, 0)
  let f := row.headD (0, 0)
  (piv.tail.zip row.tail).map fun e => gDiv (gSub (gMul p e.2) (gMul f e.1)) prev

/-- The row of largest leading element, and the others. -/
def pickPivot (rows : List (List GInt)) : List GInt × List (List GInt) :=
  let m := rows.foldl (fun m r => max m (gAbs2 (r.headD (0, 0)))) 0
  match rows.find? fun r => gAbs2 (r.headD (0, 0)) = m with
  | some r => (r, rows.erase r)
  | none => ([], [])

/-- The step at which a pivot of partial pivoting has magnitude below 2^-40 of the largest element (R202). -/
def singularAt (big2 : Int) : Nat → Nat → GInt → List (List GInt) → Option Nat
  | 0, _, _, _ => none
  | n + 1, k, prev, rows =>
    let p := pickPivot rows
    let v := p.1.headD (0, 0)
    if gAbs2 v * 2 ^ 80 < gAbs2 prev * big2 || gAbs2 v = 0 then some k
    else singularAt big2 n (k + 1) v (p.2.map (elimRow prev p.1))

/-- The step at which a diagonal term is at or below 2^-40 of the largest diagonal element (R202). -/
def notPdAt (bigD : Int) : Nat → Nat → Int → List (List GInt) → Option Nat
  | 0, _, _, _ => none
  | n + 1, k, prev, rows =>
    match rows with
    | [] => none
    | r :: rs =>
      let v := (r.headD (0, 0)).1
      if v * 2 ^ 40 ≤ prev * bigD then some k else notPdAt bigD n (k + 1) v (rs.map (elimRow (prev, 0) r))

/-- The step at which function `fn` fails on the matrix, decided exactly (log 18); by `free` where an element is not
finite. -/
def mxuFails (fn n : Nat) (in16 : Bool) (ws : List Nat) (free : Nat) : Option Nat :=
  if fn = 2 then none
  else
    let es := (List.range (n * n)).map (matElem in16 ws)
    let at_ := fun r c => (es.getD (r * n + c) none).getD (0, 0)
    let used := fun i => fn = 0 || i % n ≤ i / n
    if (List.range (n * n)).any fun i => used i && (es.getD i none).isNone then
      (if free % 2 = 0 then none else some (free / 2 % n))
    else if fn = 0 then
      let rows := (List.range n).map fun r => (List.range n).map fun c => at_ r c
      singularAt ((List.range (n * n)).foldl (fun m i => max m (gAbs2 (at_ (i / n) (i % n)))) 0) n 0 (1, 0) rows
    else
      let rows := (List.range n).map fun r => (List.range n).map fun c =>
        if r = c then ((at_ r c).1, 0) else if c < r then at_ r c else let v := at_ c r; (v.1, -v.2)
      notPdAt ((List.range n).foldl (fun m i => max m ((at_ i i).1.natAbs : Int)) 0) n 0 1 rows

/-! ### The accuracy bounds of R201

A result is any one that meets the bound; where what is drawn does not, it is the exact one rounded, which does (log 18). -/

/-- A matrix by rows, in integers of some unit. -/
abbrev Mat := List (List GInt)

def gAdd (a b : GInt) : GInt := (a.1 + b.1, a.2 + b.2)
def gConj (a : GInt) : GInt := (a.1, -a.2)
def Mat.at (a : Mat) (r c : Nat) : GInt := (a.getD r []).getD c (0, 0)
def matOf (n : Nat) (f : Nat → Nat → GInt) : Mat := (List.range n).map fun r => (List.range n).map (f r)
def Mat.mul (n : Nat) (a b : Mat) : Mat :=
  matOf n fun r c => (List.range n).foldl (fun s k => gAdd s (gMul (a.at r k) (b.at k c))) (0, 0)
def Mat.herm (n : Nat) (a : Mat) : Mat := matOf n fun r c => gConj (a.at c r)
/-- The square of the Frobenius norm of `a - s b`. -/
def Mat.dist2 (n : Nat) (a b : Mat) (s : Int) : Int :=
  (List.range (n * n)).foldl (fun t i =>
    t + gAbs2 (gSub (a.at (i / n) (i % n)) (gMul (s, 0) (b.at (i / n) (i % n))))) 0
def Mat.one (n : Nat) : Mat := matOf n fun r c => if r = c then (1, 0) else (0, 0)
def Mat.norm2 (n : Nat) (a : Mat) : Int := a.dist2 n a 0
/-- The trace of the 16th power. -/
def Mat.tr16 (n : Nat) (a : Mat) : Int :=
  let a2 := a.mul n a
  let a4 := a2.mul n a2
  let a8 := a4.mul n a4
  let a16 := a8.mul n a8
  (List.range n).foldl (fun s i => s + (a16.at i i).1) 0

/-- The pivot `p` and the matrix `p A^-1`, by exact Gauss-Jordan elimination of [A | I]; none of a singular matrix. -/
def jordan : Nat → GInt → Mat → Mat → Option (GInt × Mat)
  | 0, p, top, _ => some (p, top)
  | n + 1, prev, top, rest =>
    let p := pickPivot rest
    let v := p.1.headD (0, 0)
    if gAbs2 v = 0 then none
    else jordan n v (top.map (elimRow prev p.1) ++ [p.1.tail]) (p.2.map (elimRow prev p.1))

def Mat.inverse (n : Nat) (a : Mat) : Option (GInt × Mat) :=
  jordan n (1, 0) [] ((List.range n).map fun r => a.getD r [] ++ (Mat.one n).getD r [])

/-- The rows of elimination without exchange, each with the product of its two leading minors; none where a minor is not
positive. -/
def choRows : Nat → Int → Mat → Option (List (Int × List GInt))
  | 0, _, _ => some []
  | n + 1, prev, rows =>
    match rows with
    | [] => some []
    | r :: rs =>
      let v := (r.headD (0, 0)).1
      if v ≤ 0 then none
      else (choRows n v (rs.map (elimRow (prev, 0) r))).map fun l => (prev * v, r) :: l

/-- The binary32 number nearest to `num / den * 2^e`. -/
def ratFp (num : Int) (den : Nat) (e : Int) : Nat :=
  let k := den.log2 + 40
  let x := num.natAbs * 2 ^ k
  (fp32.round (num < 0) (2 * (x / den) + if x % den = 0 then 0 else 1) (e - k - 1)).1

/-- The binary32 number nearest to `num / sqrt s * 2^e`. -/
def rootFp (num : Int) (s : Nat) (e : Int) : Nat :=
  let t := s.log2 / 2 + 40
  let x := num.natAbs * num.natAbs * 2 ^ (2 * t) / s
  let r := isqrt x (x.log2 / 2 + 1) 0
  (fp32.round (num < 0) (2 * r + if r * r * s = num.natAbs * num.natAbs * 2 ^ (2 * t) then 0 else 1) (e - t - 1)).1

/-- A matrix of binary32 pairs in units of 2^-150, none where a word is no finite number. -/
def wordsMat (n : Nat) (ws : List Nat) : Option Mat :=
  if (List.range (n * n)).any fun i => (matElem false ws i).isNone then none
  else some (matOf n fun r c => (matElem false ws (r * n + c)).getD (0, 0))

/-- The bound `|R|_F <= 4 n u b` with squares given, R in units of 2^-300 and b in the same. -/
def within (n : Nat) (r2 b2 : Int) : Bool := r2 * 2 ^ 48 ≤ 16 * n * n * b2

/-- X meets `|AX - I|_F <= 4 n u k2(A)`, with the condition number taken from above by the 16th powers of its singular values
(log 18). -/
def invOk (n : Nat) (a : Mat) (p : GInt) (adj : Mat) (ws : List Nat) : Bool :=
  match wordsMat n ws with
  | none => false
  | some x =>
    let r2 := (a.mul n x).dist2 n (Mat.one n) (2 ^ 300)
    let b := (a.herm n).mul n a
    let c := adj.mul n (adj.herm n)
    r2 ^ 16 * gAbs2 p ^ 16 * 2 ^ (48 * 16) ≤ (16 * n * n : Int) ^ 16 * b.tr16 n * c.tr16 n * 2 ^ (600 * 16)

/-- The rounded exact inverse. -/
def invWords (n : Nat) (p : GInt) (adj : Mat) : List Nat :=
  (List.range (n * n)).flatMap fun i =>
    let v := gMul (adj.at (i / n) (i % n)) (gConj p)
    [ratFp v.1 (gAbs2 p).toNat 150, ratFp v.2 (gAbs2 p).toNat 150]

/-- L meets `|LL^H - A|_F <= 4 n u |A|_F`. -/
def cholOk (n : Nat) (a : Mat) (ws : List Nat) : Bool :=
  match wordsMat n ws with
  | none => false
  | some l => within n ((l.mul n (l.herm n)).dist2 n a (2 ^ 150)) (a.norm2 n * 2 ^ 300)

/-- The rounded exact factor L. -/
def cholWords (n : Nat) (rows : List (Int × List GInt)) : List Nat :=
  (List.range (n * n)).flatMap fun i =>
    let r := i / n
    let c := i % n
    if r < c then [0, 0]
    else
      let x := rows.getD c (1, [])
      let v := x.2.getD (r - c) (0, 0)
      [rootFp v.1 x.1.toNat (-75), rootFp (-v.2) x.1.toNat (-75)]

/-- Q and R meet `|QR - A|_F <= 4 n u |A|_F` and `|Q^H Q - I|_F <= 4 n u`. -/
def qrOk (n : Nat) (a : Mat) (ws : List Nat) : Bool :=
  match wordsMat n (ws.take (2 * n * n)), wordsMat n (ws.drop (2 * n * n)) with
  | some q, some r =>
    within n ((q.mul n r).dist2 n a (2 ^ 150)) (a.norm2 n * 2 ^ 300) &&
    within n (((q.herm n).mul n q).dist2 n (Mat.one n) (2 ^ 300)) (2 ^ 600)
  | _, _ => false

/-- The rounded exact Q and R, by elimination of [A^H A | A^H]. -/
def qrWords (n : Nat) (rows : List (Int × List GInt)) : List Nat :=
  ((List.range (n * n)).flatMap fun i =>
    let x := rows.getD (i % n) (1, [])
    let v := x.2.getD (n - i % n + i / n) (0, 0)
    [rootFp v.1 x.1.toNat 0, rootFp (-v.2) x.1.toNat 0]) ++
  (List.range (n * n)).flatMap fun i =>
    let r := i / n
    let c := i % n
    if c < r then [0, 0]
    else
      let x := rows.getD r (1, [])
      let v := x.2.getD (c - r) (0, 0)
      [rootFp v.1 x.1.toNat (-150), rootFp v.2 x.1.toNat (-150)]

/-- What is drawn, where it meets the bound or nothing does; else the exact result rounded. -/
def pickWithin (ok : List Nat → Bool) (drawn : List Nat) (exact : Option (List Nat)) : List Nat :=
  match exact with
  | some e => if ok drawn || !ok e then drawn else e
  | none => drawn

/-- The result of a matrix function on the finite matrix `a` (in units of 2^-150) that does not fail. -/
def matResult (fn n : Nat) (a : Mat) (drawn : List Nat) : List Nat :=
  let h := matOf n fun r c => if r = c then ((a.at r c).1, 0) else if c < r then a.at r c else gConj (a.at c r)
  if fn = 1 then
    if a = h then pickWithin (cholOk n a) drawn ((choRows n 1 a).map (cholWords n)) else drawn
  else if fn = 2 then
    let g := (a.herm n).mul n a
    let aug := (List.range n).map fun r => g.getD r [] ++ (a.herm n).getD r []
    pickWithin (qrOk n a) drawn ((choRows n 1 aug).map (qrWords n))
  else
    let m := if fn = 0 then a else h
    match m.inverse n with
    | some (p, adj) => pickWithin (invOk n m p adj) drawn (some (invWords n p adj))
    | none => drawn

/-- The words a matrix function writes (R201, R202): within the accuracy bound, zeros where the manual states them, and where
it fails at a step what it had computed before, the rest 0. The inverse has no element before its factorisation has ended; a
factor has its columns, or its rows, before the step (log 18). -/
def mxuOut (fn n : Nat) (in16 : Bool) (ws : List Nat) (fail : Option Nat) (byRow : Bool) (free : List Nat) : List Nat :=
  let out := if fn = 2 then 2 * n * n else n * n
  let drawn := (List.range (2 * out)).map fun w =>
    let e := w / 2
    let r := e / n % n
    let c := e % n
    let v := free.getD w 0 % 2 ^ 32
    let kept := match fail with
      | none => true
      | some k => fn = 1 && (if byRow then r < k || (r = k && c < k) else c < k)
    if kept && !(fn = 1 && r < c) && !(fn = 2 && n * n ≤ e && c < r) then v else 0
  if fail.isSome || (List.range (n * n)).any fun i => (matElem in16 ws i).isNone then drawn
  else matResult fn n (matOf n fun r c => (matElem in16 ws (r * n + c)).getD (0, 0)) drawn

end Sys2Proof.Machine
end

