-- ==== Sys2Proof/Machine/Coding.lean ====
section
/-! DEFINITION. What the baseband engines compute (R251-R259, R265, R266): bit packing, checks, scrambling, modulation, rate
matching and combining, the scaling of transforms and the sums of the MIMO ops. Checks, sequences, constellations and the
order of rate matching are those of 38.211, 38.212, 36.211 and 36.212 (PRESUMED, log 50); the codes themselves are free
functions of their inputs. -/
namespace Sys2Proof.Machine

/-! ### Bits (R253) -/

/-- The first `n` bits of a byte list. -/
def firstBits (bs : List Byte) (n : Nat) : List Bool := (ofBytes bs).take n

/-- The remainder of a bit string by a generator of degree `w`. -/
def crcBits (w gen : Nat) (l : List Bool) : Nat :=
  l.foldl (fun r b => let x := r * 2 % 2 ^ w; if bit r (w - 1) != b then x ^^^ gen else x) 0

/-- Degree and generator of the checks of 38.212 clause 5.1. -/
def crc24A : Nat × Nat := (24, 0x864CFB)
def crc24B : Nat × Nat := (24, 0x800063)
def crc24C : Nat × Nat := (24, 0xB2B117)
def crcTb16 : Nat × Nat := (16, 0x1021)
def crc11 : Nat × Nat := (11, 0x621)
def crc6 : Nat × Nat := (6, 0x21)

/-- A bit string with its check attached, and whether a string with its check passes. -/
def withCrc (g : Nat × Nat) (l : List Bool) : List Bool := l ++ msb g.1 (crcBits g.1 g.2 l)
def crcPass (g : Nat × Nat) (l : List Bool) : Bool := crcBits g.1 g.2 l = 0

/-! ### The pseudo-random sequence (38.211 clause 5.2.1) -/

def goldStep (x : Nat × Nat) : Nat × Nat :=
  (x.1 / 2 + (x.1 ^^^ x.1 / 8) % 2 * 2 ^ 30, x.2 / 2 + (x.2 ^^^ x.2 / 2 ^^^ x.2 / 4 ^^^ x.2 / 8) % 2 * 2 ^ 30)

def goldSkip : Nat → Nat × Nat → Nat × Nat
  | 0, x => x
  | n + 1, x => goldSkip n (goldStep x)

def goldTake : Nat → Nat × Nat → List Bool
  | 0, _ => []
  | n + 1, x => ((x.1 ^^^ x.2) % 2 = 1) :: goldTake n (goldStep x)

/-- c(first), c(first + 1), ... -/
def gold (cinit first n : Nat) : List Bool := goldTake n (goldSkip (1600 + first) (1, cinit % 2 ^ 31))

def scramble (on : Bool) (cinit : Nat) (l : List Bool) : List Bool :=
  if on then (l.zip (gold cinit 0 l.length)).map fun e => e.1 != e.2 else l

/-! ### Modulation (R255, 38.211 clause 5.1) -/

/-- The integer amplitude of one axis from its bits, of norm 2 (4^m - 1) / 3 for `m` bits an axis. -/
def axisLevel : List Bool → Int
  | [] => 1
  | [b] => if b then -1 else 1
  | b :: bs => (if b then -1 else 1) * (2 ^ bs.length - axisLevel bs)

/-- sat16(round-half-even(ampl x v / sqrt norm)); a root that is no integer has no ties. -/
def scaleRoot (ampl : Nat) (v : Int) (norm : Nat) : Int :=
  let t := 4 * ampl * ampl * (v.natAbs * v.natAbs) / norm
  let r : Int := ((isqrt t (t.log2 / 2 + 1) 0 + 1) / 2 : Nat)
  satS 16 (if v < 0 then -r else r)

/-- Symbol `i` of the bits `l`, QM to a symbol; `half` for pi/2-BPSK. -/
def modSymbol (qm ampl : Nat) (half : Bool) (l : List Bool) (i : Nat) : Int × Int :=
  let b := fun j => l.getD (qm * i + j) false
  if qm = 1 then
    let v : Int := if b 0 then -1 else 1
    (scaleRoot ampl (if half && i % 2 = 1 then -v else v) 2, scaleRoot ampl v 2)
  else
    let m := qm / 2
    let norm := 2 * (4 ^ m - 1) / 3
    let ax := fun o => scaleRoot ampl (axisLevel ((List.range m).map fun j => b (2 * j + o))) norm
    (ax 0, ax 1)

/-- A cint16 word. -/
def cintBytes (x : Int × Int) : List Byte := le 2 (uns 16 x.1) ++ le 2 (uns 16 x.2)
def cintAt (bs : List Byte) (i : Nat) : Int × Int := (sgn 16 (fieldAt bs (4 * i) 2), sgn 16 (fieldAt bs (4 * i + 2) 2))
/-- The cint16 samples of a byte list, in order. -/
def cints : Nat → List Byte → List (Int × Int)
  | 0, _ => []
  | n + 1, bs => cintAt bs 0 :: cints n (bs.drop 4)

/-! ### Code blocks (R251, R253, R265) -/

/-- OP of a descriptor (R248). -/
def dOp (b : List Byte) : Nat := bits (fieldAt b 0 4) 16 8

/-- Bits of one LDPC or turbo block `r` (R251). -/
def blockBits (turbo : Bool) (b : List Byte) (r : Nat) : Nat :=
  if turbo then (if r < fieldAt b 84 1 then fieldAt b 82 2 else fieldAt b 80 2)
  else (if fieldAt b 84 1 = 1 then 22 else 10) * fieldAt b 80 2

def sumBlocks (turbo : Bool) (b : List Byte) : Nat :=
  (List.range (fieldAt b 64 2)).foldl (fun s r => s + blockBits turbo b r) 0

/-- Rate-matched bits of block `r`, of the blocks before it, and of all (R251, R263). -/
def blockE (b : List Byte) (r : Nat) : Nat := if r < fieldAt b 66 2 then fieldAt b 68 4 else fieldAt b 72 4
def startE (b : List Byte) (r : Nat) : Nat :=
  min r (fieldAt b 66 2) * fieldAt b 68 4 + (r - fieldAt b 66 2) * fieldAt b 72 4
def totalG (b : List Byte) : Nat := startE b (fieldAt b 64 2)

/-- Bits of block `r` without its filler. -/
def plainBits (turbo : Bool) (b : List Byte) (r : Nat) : Nat :=
  if turbo then blockBits true b r - (if r = 0 then fieldAt b 87 1 else 0) else fieldAt b 82 2

/-- Bits of the transport block with its CRC (R253). -/
def tbBits (turbo : Bool) (b : List Byte) : Nat :=
  let c := fieldAt b 64 2
  let raw := (List.range c).foldl (fun s r => s + plainBits turbo b r) 0
  raw - (if 1 < c then 24 * c else 0)

/-- The check of the transport block (R252). -/
def tbCrc (b : List Byte) : Nat × Nat := if bit (fieldAt b 92 4) 3 then crcTb16 else crc24A

/-- Columns of the sub-block interleaver (36.212 clause 5.1.4.1.1). -/
def subCol (c : Nat) : Nat := ofMsb ((msb 5 c).reverse)

/-- Places of the circular buffer of a turbo block of `kb` bits. -/
def turboKw (kb : Nat) : Nat := 3 * 32 * cdiv (kb + 4) 32

/-- A place of a turbo circular buffer holds no bit of the code: padding of the interleaver, or filler. -/
def turboNull (kb fill : Nat) (w : Nat) : Bool :=
  let rows := cdiv (kb + 4) 32
  let kp := 32 * rows
  let nd := kp - (kb + 4)
  let s := if w < kp then 0 else 1 + (w - kp) % 2
  let k := if w < kp then w else (w - kp) / 2
  let p := subCol (k / rows) + 32 * (k % rows)
  if s = 2 then (p + 1) % kp < nd else p < nd || p - nd < fill

/-- Where block `r` has filler or no bit in its circular buffer. -/
def skipPlace (turbo : Bool) (b : List Byte) (r k : Nat) : Bool :=
  if turbo then turboNull (blockBits true b r) (if r = 0 then fieldAt b 87 1 else 0) k
  else
    let z := fieldAt b 80 2
    fieldAt b 82 2 - 2 * z ≤ k && k < blockBits false b r - 2 * z

/-- Length of the circular buffer of block `r` (R251). -/
def ncbOf (turbo : Bool) (b : List Byte) (r : Nat) : Nat :=
  if turbo then min (fieldAt b 76 4) (turboKw (blockBits true b r)) else fieldAt b 76 4

/-- The place at which rate matching begins (38.212 Table 5.4.2.1-2, 36.212 clause 5.1.4.1.2). -/
def rvStart (turbo : Bool) (b : List Byte) (r : Nat) : Nat :=
  let rv := bits (fieldAt b 85 1) 0 2
  let n := ncbOf turbo b r
  if turbo then
    let rows := cdiv (blockBits true b r + 4) 32
    rows * (2 * cdiv n (8 * rows) * rv + 2)
  else
    let z := fieldAt b 80 2
    let big : Bool := fieldAt b 84 1 = 1
    let num := (if big then [0, 17, 33, 56] else [0, 13, 25, 43]).getD rv 0
    num * n / ((if big then 66 else 50) * z) * z

/-- The places that rate matching takes in turn, from its start round. -/
def placeList (turbo : Bool) (b : List Byte) (r : Nat) : List Nat :=
  let n := ncbOf turbo b r
  let k0 := rvStart turbo b r
  ((List.range n).map fun i => (k0 + i) % n).filter fun k => !skipPlace turbo b r k

/-- pos(j) of R266: the place of rate-matched bit `j`; LDPC bits are interleaved by QM (38.212 clause 5.4.2.2). -/
def placeOf (turbo : Bool) (b : List Byte) (r : Nat) (ps : List Nat) (j : Nat) : Nat :=
  let qm := max 1 (bits (fieldAt b 85 1) 4 4)
  let i := if turbo then j else j % qm * (blockE b r / qm) + j / qm
  ps.getD (i % ps.length) 0

/-- Bytes of one block's soft buffer (R265). -/
def softBytes (b : List Byte) : Nat :=
  let n := fieldAt b 76 4
  let code := bits (fieldAt b 92 4) 8 2
  upTo (if code = 0 then cdiv n 2 else if code = 1 then cdiv (5 * n) 8 else n) 64

/-- HARQ field of a decode job's FLAGS (R252). -/
def harqOf (b : List Byte) : Nat := bits (fieldAt b 92 4) 4 2

/-- Combining (R266): the old soft bits, and every received LLR added at its place, saturating. -/
def combine (turbo : Bool) (b : List Byte) (r : Nat) (old : List Int) (e : List Int) : List Int :=
  let ps := placeList turbo b r
  (e.mapIdx fun j x => (placeOf turbo b r ps j, x)).foldl (fun acc p =>
    acc.set p.1 (sat127 (acc.getD p.1 0 + p.2))) old

/-- What a block decodes to: whether its attached check passes, the iterations it runs, and its bits without filler (R252,
R253). -/
def decodeBlock (turbo : Bool) (b : List Byte) (r : Nat) (acc : List Int) : Bool × Nat × List Bool :=
  let fl := fieldAt b 92 4
  let soft := acc.mapIdx fun k x => if skipPlace turbo b r k then 127 else x
  let l := (List.range (plainBits turbo b r)).map (Config.decodedBit (dOp b) (b.drop 64) soft)
  let ok := crcPass (if fieldAt b 64 2 = 1 then tbCrc b else crc24B) l
  let m := max 1 (fieldAt b 86 1)
  (ok, if (!turbo && bit fl 0) || (bit fl 1 && ok) then 1 + Config.decodeIters (dOp b) (b.drop 64) soft % m else m, l)

/-! ### Encoding (R255, R256) -/

/-- The blocks of a transport block: its bits cut into blocks, each with CRC24B where there is more than one, filler zeros in
place (38.212 clause 5.2.2, 36.212 clause 5.1.2). -/
def segment (turbo : Bool) (b : List Byte) : Nat → List Bool → List (List Bool)
  | 0, _ => []
  | n + 1, l =>
    let c := fieldAt b 64 2
    let r := c - (n + 1)
    let k := plainBits turbo b r - (if 1 < c then 24 else 0)
    let fill := List.replicate (blockBits turbo b r - plainBits turbo b r) false
    let x := l.take k
    let x := if turbo then fill ++ x else x
    let x := if 1 < c then withCrc crc24B x else x
    (if turbo then x else x ++ fill) :: segment turbo b n (l.drop k)

/-- The coded bits of an LDPC or turbo job, rate matched and interleaved, before scrambling. -/
def encodeBits (op : Nat) (b : List Byte) (tb : List Bool) : List Bool :=
  let turbo := op = 3
  let blocks := segment turbo b (fieldAt b 64 2) tb
  (blocks.mapIdx fun r x => (r, x)).flatMap fun p =>
    let ps := placeList turbo b p.1
    (List.range (blockE b p.1)).map fun j => Config.codeBit op (b.drop 64) p.2 (placeOf turbo b p.1 ps j)

/-- Check of a polar code, and its attachment with the RNTI mask (R254; 38.212 clauses 7.1.3, 7.3.2). -/
def polarGen (b : List Byte) : Nat × Nat := [crc6, crc11, crc24C].getD (fieldAt b 55 1) crc24C
def polarCrcOf (b : List Byte) (l : List Bool) : List Bool :=
  let g := polarGen b
  let masked := bit (fieldAt b 59 1) 3
  let v := crcBits g.1 g.2 (if masked then List.replicate 24 true ++ l else l)
  msb g.1 (if masked then v ^^^ (fieldAt b 60 2 % 2 ^ g.1) else v)

/-! ### Transforms (R257, R258) -/

/-- The output scaling of a symbol: right shift with half to even, or, with BFP, by the exponent with which the largest component
uses 15 bits; saturated components are counted. The exponent of a symbol of zeros is `free`. -/
def scaleSymbol (bfp : Bool) (shift free : Nat) (xs : List (Int × Int)) : List (Int × Int) × Int × Nat :=
  let big := xs.foldl (fun m x => max m (max x.1.natAbs x.2.natAbs)) 0
  let e : Int := if bfp then (if big = 0 then sgn 8 free else (big.log2 : Int) + 1 - 15 - 32) else shift
  let put := fun (v : Int) => scaleShift v (e + 32)
  let ys := xs.map fun x => (put x.1, put x.2)
  let sat := ys.foldl (fun n y => n + (if satS 16 y.1 = y.1 then 0 else 1) + (if satS 16 y.2 = y.2 then 0 else 1)) 0
  (ys.map fun y => (satS 16 y.1, satS 16 y.2), e, sat)

/-! ### Sums of the MIMO ops (R259) -/

/-- The fp32 pair of a cint16 element scaled by 2^-15, or of a pair of fp32 words. -/
def mimoElem (in16 : Bool) (bs : List Byte) (i : Nat) : Nat × Nat :=
  if in16 then
    let x := cintAt bs i
    ((fp32.round (x.1 < 0) x.1.natAbs (-15)).1, (fp32.round (x.2 < 0) x.2.natAbs (-15)).1)
  else (fieldAt bs (8 * i) 4, fieldAt bs (8 * i + 4) 4)

/-- What a flushed product or partial sum may cost, in units of 2^-300 and 2^22 to one. -/
def fpUnderflow : Nat := 2 ^ 196

/-- A sum of products of fp32 words: any number that lies within what rounding each product and each partial sum, in any order,
may cost, else the exact sum rounded; free where an operand or the exact sum is not finite (log 156). -/
def fpDot (free : Nat) (ts : List (Bool × Nat × Nat)) : Nat :=
  let vs := ts.map fun t => match wordInt t.2.1, wordInt t.2.2 with
    | some x, some y => some (if t.1 then -(x * y) else x * y)
    | _, _ => none
  let w := free % 2 ^ 32
  if vs.any Option.isNone then w
  else
    let sum := vs.foldl (fun s v => s + v.getD 0) (0 : Int)
    let mag := vs.foldl (fun s v => s + (v.getD 0).natAbs) 0
    if 426 ≤ mag.log2 then w
    else match wordInt w with
      | some x =>
        if (x * 2 ^ 150 - sum).natAbs * 2 ^ 22 ≤ ts.length * (mag + fpUnderflow) then w
        else (fp32.round (sum < 0) sum.natAbs (-300)).1
      | none => (fp32.round (sum < 0) sum.natAbs (-300)).1

/-- A complex sum of products x y, or conj(x) y. -/
def cDot (free : Nat × Nat) (conj : Bool) (ts : List ((Nat × Nat) × (Nat × Nat))) (more : List (Bool × Nat × Nat)) :
    Nat × Nat :=
  (fpDot free.1 ((ts.flatMap fun t => [(false, t.1.1, t.2.1), (!conj, t.1.2, t.2.2)]) ++ more),
   fpDot free.2 (ts.flatMap fun t => [(false, t.1.1, t.2.2), (conj, t.1.2, t.2.1)]))

/-- An fp32 word as it is written: itself, or, with OUT16, scaled by 2^15 to int16 (log 156). -/
def mimoWord (out16 : Bool) (w : Nat) : List Byte :=
  if out16 then
    match fp32.read w with
    | .nan _ => le 2 0
    | .inf neg => le 2 (uns 16 (if neg then -32768 else 32767))
    | .fin neg m e =>
      let v := if -15 ≤ e then finInt neg m (e + 15).toNat else rsh (finInt neg m 0) (-(e + 15)).toNat
      le 2 (uns 16 (satS 16 v))
  else le 4 w

/-- An LLR of DETECT from its max-log value in units of 2^-32 (R259). -/
def detectLlr (shift : Nat) (v : Int) : Byte := BitVec.ofNat 8 (uns 8 (sat127 (scaleShift v (32 - 4 + (shift : Int)))))

end Sys2Proof.Machine
end

