-- ==== Sys2Proof/Machine/Operands.lean ====
section
/-! DEFINITION. Operands of the signal cores: register mapping (R128), syllable formats and their decoding (R112-R114,
R161, R176, R188), addressing (R130, R131), the registers a syllable writes (R115), and the control registers (R138). -/
namespace Sys2Proof.Machine

/-! ### Register files -/

def mapS (rrb n : Nat) : Nat := if n < 32 then n else 32 + (n - 32 + rrb) % 32
def mapV (rrb n : Nat) : Nat := if n < 16 then n else 16 + (n - 16 + rrb) % 16
def mapQ (rrb n : Nat) : Nat := if n < 8 then n else 8 + (n - 8 + rrb) % 8

/-- S`n` as read: S0 is 0 (R110). -/
def Core.rs (k : Core) (n : Nat) : Word := if n = 0 then 0 else tget 0 k.s (mapS k.rrb n)
def Core.rsN (k : Core) (n : Nat) : Nat := (k.rs n).toNat
/-- Q`n` as read: Q0 is 1 (R110). -/
def Core.rq (k : Core) (n : Nat) : Bool := n = 0 || k.q.getLsbD (mapQ k.rrb n)
def Core.rp (k : Core) (n : Nat) : Nat := tget 0 k.p n
def Core.rm (k : Core) (n : Nat) : Int := (tget 0 k.m n).toInt
def Core.ra (k : Core) (n : Nat) : Int × Int := tget (0, 0) k.a n
/-- Vector register V`n`, 4,096 bits. -/
def Core.rv (k : Core) (n : Nat) : Nat := tget 0 k.v (mapV k.rrb n)

/-- A guard holds: Q[QG] XOR QN (R112). -/
def Core.guard (k : Core) (g : Guard) : Bool := k.rq g.qg != g.qn

def Core.setS (k : Core) (phys : Nat) (v : Word) : Core := if phys = 0 then k else { k with s := tset 0 k.s phys v }
def Core.setQ (k : Core) (phys : Nat) (v : Bool) : Core :=
  if phys = 0 then k
  else { k with q := if v then k.q ||| BitVec.ofNat 16 (2 ^ phys) else k.q &&& ~~~(BitVec.ofNat 16 (2 ^ phys)) }

/-! ### Decoding syllables -/

/-- Guard of a syllable word (R112). -/
def guardOf (w : Nat) : Guard := { qg := bits w 27 4, qn := bit w 31 }

/-- Slot X of a bundle; `l1` is the word of slot L1, MOVL's literal (R114, R115). -/
def decodeX (w l1 : Nat) : Syl :=
  let d := bits w 14 6
  let a := bits w 8 6
  let b := bits w 2 6
  let sub := bits w 0 2
  match bits w 20 7 with
  | 0x00 => .nop
  | 0x01 => .alu .add d a b sub
  | 0x02 => .alu .sub d a b sub
  | 0x03 => .alu .and d a b sub
  | 0x04 => .alu .or d a b sub
  | 0x05 => .alu .xor d a b sub
  | 0x06 => .alu .shl d a b sub
  | 0x07 => .alu .shr d a b sub
  | 0x08 => .addi d a (bits w 0 8)
  | 0x09 => .movi d (bits w 0 14)
  | 0x0A => .movl d l1
  | 0x0B => .cmp (bits w 16 4) (bits w 12 4) (bits w 6 6) (bits w 0 6)
  | 0x0C => .alu .maxi d a b sub
  | 0x0D => .alu .mini d a b sub
  | 0x10 => .br false (bit w 19) (bits w 0 19)
  | 0x11 => .br true (bit w 19) (bits w 0 19)
  | 0x12 => .jr (bit w 19) a
  | 0x13 => .rep (bits w 15 5 + 1) (bit w 14) (bits w 11 3 + 1) (bit w 10)
      (if bit w 10 then bits w 0 10 else bits w 0 6)
  | 0x14 => .csr (match bits w 12 2 with | 0 => .r | 1 => .w | 2 => .s | _ => .c) d (bits w 0 12)
  | 0x18 => .fenceW
  | 0x19 => .fenceI
  | 0x1A => .scadj
  | 0x1B => .wait
  | 0x1C => .trap (bits w 0 8)
  | 0x1D => .brk
  | 0x1E => .rfe
  | _ => .illegal

/-- Slots L0 and L1 (R114, R176). -/
def decodeL (w : Nat) : Syl :=
  let s := bits w 14 6
  let p := bits w 10 4
  let m := bits w 6 4
  let am := bits w 4 2
  let sx := bit w 3
  let v := bits w 15 5
  let vp := bits w 11 4
  let vm := bits w 7 4
  let vam := bits w 5 2
  match bits w 20 7 with
  | 0x00 => .nop
  | 0x01 => .ld 1 s p m am sx
  | 0x02 => .ld 2 s p m am sx
  | 0x03 => .ld 4 s p m am sx
  | 0x04 => .ld 8 s p m am sx
  | 0x05 => .st 1 s p m am
  | 0x06 => .st 2 s p m am
  | 0x07 => .st 4 s p m am
  | 0x08 => .st 8 s p m am
  | 0x09 => .ldwD s p (bits w 0 10)
  | 0x0A => .stwD s p (bits w 0 10)
  | 0x0B => .padd (bits w 16 4) (bits w 12 4) (bits w 6 6)
  | 0x0C => .pmod p m am
  | 0x0D => .pset (bits w 16 4) (bits w 6 6)
  | 0x0E => .pget s p
  | 0x0F => .mset (bits w 16 4) (bits w 6 6)
  | 0x40 => .vld false v vp vm vam (bit w 4)
  | 0x41 => .vst false v vp vm vam (bit w 4)
  | 0x42 => .vlds v vp vm vam (bit w 4)
  | 0x43 => .vsts v vp vm vam (bit w 4)
  | 0x44 => .vgath v vp (bits w 6 5) (bit w 5) (bits w 3 2)
  | 0x45 => .vscat v vp (bits w 6 5) (bit w 5) (bits w 3 2)
  | 0x46 => .vld true v vp vm vam (bit w 4)
  | 0x47 => .vst true v vp vm vam (bit w 4)
  | _ => .illegal

/-- Slot V (R114, R162, R188). -/
def decodeV (w : Nat) : Syl :=
  let an := bits w 17 3
  let a := bits w 8 6
  let b := bits w 2 6
  let sub := bits w 0 2
  let vv := fun op => Syl.vv op (bits w 15 5) (bits w 10 5) (bits w 5 5) (bit w 4) (bits w 0 4)
  let vs := fun op => Syl.vs op (bits w 15 5) (bits w 10 5) (bits w 4 6) (bit w 3) (bits w 0 3)
  let vx := fun op => Syl.vx op (bits w 14 6) (bits w 9 5) (bits w 3 6) (bit w 2) (bits w 0 2)
  match bits w 20 7 with
  | 0x00 => .nop
  | 0x01 => .acc .mac an a b sub
  | 0x02 => .acc .cmac an a b sub
  | 0x03 => .mul (bits w 14 6) a b sub
  | 0x04 => .mva (bits w 14 6) (bits w 11 3) sub
  | 0x05 => .acc .aclr an a b sub
  | 0x08 => .cop0 (bits w 16 4) (bits w 10 6) (bits w 4 6) (bits w 0 4)
  | 0x09 => .cop1 (bits w 16 4) (bits w 12 4) (bits w 8 4) (bits w 2 6)
  | 0x0A => .cop2 (bits w 16 4) (bits w 12 4) (bits w 8 4) (bits w 2 6)
  | 0x0B => .cop3 (bits w 14 6) (bit w 13) (bits w 11 2)
  | 0x0C => .copst (bits w 16 4) (bit w 15) (bits w 13 2)
  | 0x20 => vx .setvl
  | 0x21 => vv .add
  | 0x22 => vv .sub
  | 0x23 => vs .adds
  | 0x24 => vv .and
  | 0x25 => vv .or
  | 0x26 => vv .xor
  | 0x27 => vs .shl
  | 0x28 => vs .shr
  | 0x29 => vv .min
  | 0x2A => vv .max
  | 0x2B => vv .abs
  | 0x2C => vv .merge
  | 0x2D => vv .conj
  | 0x30 => vv .mul
  | 0x31 => vs .muls
  | 0x32 => vv .mac
  | 0x33 => vv .wmac
  | 0x34 => vv .mag2
  | 0x38 => vv .fadd
  | 0x39 => vv .fsub
  | 0x3A => vv .fmul
  | 0x3B => vv .fma
  | 0x3C => vv .cvt
  | 0x40 => vv .cmp
  | 0x48 => vs .slideup
  | 0x49 => vs .slidedn
  | 0x4A => vv .zip
  | 0x4B => vx .bcast
  | 0x4C => vx .ext
  | 0x4D => vx .ins
  | 0x50 => .vrsum an (bits w 10 5) (bit w 9) sub
  | 0x51 => vx .maxi
  | 0x52 => vx .mini
  | 0x58 => vv .mva
  | _ => .illegal

/-- Slot names. -/
inductive Slot where
  | x | l0 | l1 | v
  deriving DecidableEq, Repr

/-- The bundle whose `slot` holds the given syllable and whose other slots hold the words of `b`. A MOVL in slot X
takes the L1 word as its literal and leaves L1 without an operation (R115). -/
def bundleOf (b : BCtx) (slot : Slot) (g : Guard) (s : Syl) : Bundle :=
  let x := if slot = .x then (g, s) else (guardOf b.x.toNat, decodeX b.x.toNat b.l1.toNat)
  let isMovl := match x.2 with
    | .movl _ _ => true
    | _ => false
  { x := x
    l0 := if slot = .l0 then (g, s) else (guardOf b.l0.toNat, decodeL b.l0.toNat)
    l1 := if isMovl then ({}, .nop) else if slot = .l1 then (g, s) else (guardOf b.l1.toNat, decodeL b.l1.toNat)
    v := if slot = .v then (g, s) else (guardOf b.v.toNat, decodeV b.v.toNat) }

/-! ### Addressing -/

/-- Reverse the low `n` bits of `x`. -/
def revBits : Nat → Nat → Nat
  | 0, _ => 0
  | n + 1, x => x % 2 * 2 ^ n + revBits n (x / 2)

/-- The reverse-carry update (R131). -/
def brevUpdate (p : Nat) (m : Int) (b a : Nat) : Nat :=
  let n := b - a
  let field := p / 2 ^ a % 2 ^ n
  let step := uns 32 m / 2 ^ a % 2 ^ n
  let sum := (revBits n field + revBits n step) % 2 ^ n
  p - field * 2 ^ a + revBits n sum * 2 ^ a

def wrap48 (v : Int) : Nat := uns 48 v

/-- The address of a MEM access (R130). -/
def Core.ea (k : Core) (p m am : Nat) : Nat := if am = 0 then wrap48 (k.rp p + k.rm m) else k.rp p

/-- The pointer after a MEM access with the update of AM, `a` being log2 of the access size (R130, R131). -/
def Core.ptrNext (k : Core) (p m am a : Nat) : Nat :=
  let pn := k.rp p
  let step := k.rm m
  let base := tget 0 k.cbase (p % 4)
  let len := tget 0 k.clen (p % 4)
  let linear := wrap48 (pn + step)
  if am = 0 then pn
  else if am = 1 then linear
  else if am = 2 then
    if len = 0 then linear else wrap48 (base + ((pn : Int) - base + step) % (len : Int))
  else if len < 2 || len.log2 ≤ a then linear
  else brevUpdate pn step len.log2 a

/-! ### Vector configuration -/

/-- Element width of a VTYPE (R157). -/
def vtWidth (vt : Nat) : Nat :=
  if vt = 0 then 8 else if vt = 1 || vt = 5 || vt = 6 then 16 else if vt = 4 then 64 else 32

def Core.vt (k : Core) : Nat := bits k.vcfg.toNat 0 3
def Core.grp (k : Core) : Nat := 2 ^ bits k.vcfg.toNat 4 2
/-- VLMAX (R157). -/
def Core.vlmax (k : Core) : Nat := k.grp * 4096 / vtWidth k.vt

/-- Registers of the index group of VGATH and VSCAT (R177). -/
def idxRegs (k : Core) : Nat := cdiv (k.grp * 32) (vtWidth k.vt)

/-! ### The registers a syllable writes (R115) -/

inductive Reg where
  | s (n : Nat) | p (n : Nat) | m (n : Nat) | q (n : Nat) | a (n : Nat) | v (n : Nat)
  deriving DecidableEq, Repr

def regsV (n cnt : Nat) : List Reg := (List.range cnt).map fun i => .v (n + i)
def regS (n : Nat) : List Reg := if n = 0 then [] else [.s n]
def pairS (n : Nat) : List Reg := regS n ++ [.s (n + 1)]

/-- Registers the syllable could write, by its fields; S0 and Q0 take no writes. -/
def Core.writes (k : Core) : Syl → List Reg
  | .alu .maxi d _ _ _ => pairS d
  | .alu .mini d _ _ _ => pairS d
  | .alu _ d _ _ _ => regS d
  | .addi d _ _ => regS d
  | .movi d _ => regS d
  | .movl d _ => regS d
  | .cmp qd _ _ _ => if qd = 0 then [] else [.q qd]
  | .br true _ _ => [.s 31]
  | .rep _ true _ _ _ => (List.range 8).map fun i => .q (8 + i)
  | .csr .r reg _ => regS reg
  | .ld 8 s p _ am _ => pairS s ++ (if am = 0 then [] else [.p p])
  | .ld _ s p _ am _ => regS s ++ (if am = 0 then [] else [.p p])
  | .st _ _ p _ am => if am = 0 then [] else [.p p]
  | .ldwD s _ _ => regS s
  | .padd pd _ _ => [.p pd]
  | .pmod p _ am => if am = 0 then [] else [.p p]
  | .pset pd _ => [.p pd]
  | .pget s _ => pairS s
  | .mset md _ => [.m md]
  | .acc _ an _ _ _ => [.a an]
  | .mul d _ _ _ => regS d
  | .mva d _ _ => regS d
  | .vv .cmp vd _ _ _ _ => [.v vd]
  | .vv .wmac vd _ _ _ _ => regsV vd (2 * k.grp)
  | .vv .cvt vd _ _ _ sub => regsV vd (if sub = 0 || sub = 4 || sub = 5 then 2 * k.grp else k.grp)
  | .vv _ vd _ _ _ _ => regsV vd k.grp
  | .vs _ vd _ _ _ _ => regsV vd k.grp
  | .vx .bcast _ v _ _ _ => regsV v k.grp
  | .vx .ins _ v _ _ _ => regsV v k.grp
  | .vx .ext s _ _ _ _ => if k.vt = 4 then pairS s else regS s
  | .vx .setvl s _ _ _ _ => regS s
  | .vx _ s _ _ _ _ => pairS s
  | .vrsum an _ _ _ => [.a an]
  | .vld raw v p _ am _ => regsV v (if raw then 1 else k.grp) ++ (if am = 0 then [] else [.p p])
  | .vst _ _ p _ am _ => if am = 0 then [] else [.p p]
  | .vlds v _ _ _ _ => regsV v k.grp
  | .vgath v _ _ _ _ => regsV v k.grp
  | .cop3 sd _ sub => if sub < 2 then pairS sd else []
  | .copst qd _ _ => if qd = 0 then [] else [.q qd]
  | _ => []

/-! ### Control registers (R138) -/

/-- Lowest privilege to read and to write a CSR; none for a read-only one; no entry where the address is unassigned. -/
def csrPerm (a : Nat) : Option (Nat × Option Nat) :=
  if a = 0x000 then some (0, some 1)
  else if 0x001 ≤ a && a ≤ 0x00D then some (1, some 1)
  else if 0x101 ≤ a && a ≤ 0x10D then some (2, some 2)
  else if 0x020 ≤ a && a ≤ 0x022 then some (0, none)
  else if a = 0x023 then some (0, some 1)
  else if a = 0x024 || a = 0x030 || (0x040 ≤ a && a ≤ 0x04B) then some (0, some 0)
  else if a = 0x050 then some (0, some 1)
  else if a = 0x051 then some (1, some 1)
  else if a = 0x058 || a = 0x059 then some (1, none)
  else if 0x060 ≤ a && a ≤ 0x070 then some (1, some 1)
  else if a = 0x080 then some (0, some 1)
  else if a = 0x081 then some (0, some 0)
  else if a = 0x082 then some (0, none)
  else if 0x090 ≤ a && a ≤ 0x093 then some (0, some 0)
  else if a = 0x094 then some (0, none)
  else if 0x0C0 ≤ a && a ≤ 0x0C4 then some (0, none)
  else none

/-- STATUS as read; `inds` says whether the next bundle is a delay bundle (R139). -/
def Core.status (k : Core) (inds : Bool) : Nat :=
  (0 < k.rep.cnt : Bool).toNat * 32 + inds.toNat * 16 + k.te.toNat * 8 + k.ie.toNat * 4 + k.priv

def TrapSet.read (t : TrapSet) (i : Nat) : Nat :=
  match i with
  | 1 => t.epc.toNat
  | 2 => t.cause.toNat
  | 3 => t.eaddr % 2 ^ 32
  | 4 => t.eaddr / 2 ^ 32
  | 5 => t.status.toNat
  | 6 => t.dscTgt.toNat
  | 7 => t.dscCtl.toNat
  | 8 => t.rep.start
  | 9 => t.rep.last
  | 10 => t.rep.cnt
  | 11 => t.rrb
  | 12 => t.tvec.toNat
  | _ => t.scratch.toNat

def TrapSet.write (t : TrapSet) (i : Nat) (v : Word) : TrapSet :=
  let n := v.toNat
  match i with
  | 1 => { t with epc := v }
  | 2 => { t with cause := v }
  | 3 => { t with eaddr := t.eaddr / 2 ^ 32 * 2 ^ 32 + n }
  | 4 => { t with eaddr := n % 2 ^ 16 * 2 ^ 32 + t.eaddr % 2 ^ 32 }
  | 5 => { t with status := BitVec.ofNat 32 (t.status.toNat / 16 * 16 + n % 16) }
  | 6 => { t with dscTgt := v }
  | 7 => { t with dscCtl := BitVec.ofNat 32 (n % 8) }
  | 8 => { t with rep := { t.rep with start := n } }
  | 9 => { t with rep := { t.rep with last := n } }
  | 10 => { t with rep := { t.rep with cnt := n } }
  | 11 => { t with rrb := n % 32 }
  | 12 => { t with tvec := v }
  | _ => { t with scratch := v }

/-- The value of a CSR, of core `id` at clock `c` (R138). -/
def Core.csrRead (k : Core) (id : Nat) (c : Clock) (a : Nat) : Nat :=
  if a = 0x000 then k.status (k.ds.any fun d => 1 < d.remain)
  else if 0x001 ≤ a && a ≤ 0x00D then k.k.read a
  else if 0x101 ≤ a && a ≤ 0x10D then k.mt.read (a - 0x100)
  else if a = 0x020 then k.rep.start
  else if a = 0x021 then k.rep.last
  else if a = 0x022 then k.rep.cnt
  else if a = 0x023 then k.repmax
  else if a = 0x024 then k.rrb
  else if a = 0x030 then k.scl.toNat
  else if 0x040 ≤ a && a ≤ 0x047 then
    (if a % 2 = 0 then tget 0 k.cbase ((a - 0x040) / 2) % 2 ^ 32 else tget 0 k.cbase ((a - 0x040) / 2) / 2 ^ 32)
  else if 0x048 ≤ a && a ≤ 0x04B then tget 0 k.clen (a - 0x048)
  else if a = 0x050 then k.evpend.toNat
  else if a = 0x051 then k.evmask.toNat
  else if a = 0x058 then k.serr % 2 ^ 32
  else if a = 0x059 then k.serr / 2 ^ 32
  else if 0x060 ≤ a && a ≤ 0x067 then tget 0 k.prbase (a - 0x060)
  else if 0x068 ≤ a && a ≤ 0x06F then tget 0 k.prlim (a - 0x068)
  else if a = 0x070 then k.prperm.toNat
  else if a = 0x080 then (if bit k.imgFlags 1 then k.copen.toNat else 0)
  else if a = 0x081 then k.copstat.toNat
  else if a = 0x082 then k.copstall % 2 ^ 32
  else if a = 0x090 then k.vcfg.toNat
  else if a = 0x091 then k.vl
  else if a = 0x092 then k.vstart
  else if a = 0x093 then k.vstat.toNat
  else if a = 0x094 then k.vlmax
  else if a = 0x0C0 then id + k.pool.getD 0 * 65536
  else if a = 0x0C1 then k.cycle % 2 ^ 32
  else if a = 0x0C2 then k.cycle / 2 ^ 32 % 2 ^ 32
  else if a = 0x0C3 then c.atc % 2 ^ 32
  else if a = 0x0C4 then k.atcHi.getD (c.atc / 2 ^ 32)
  else 0

/-- SCL takes the value `w` of a CSR write of bundle `b`, its GROW with it (R132, R136). -/
def Core.setScl (k : Core) (w : Word) (b : Nat) : Core :=
  { k with scl := w, growBy := if !sclGrow w then [] else if k.growBy.isEmpty then [b] else k.growBy }

/-- Store `v` in a CSR, with the fields the map gives: reserved bits stay zero, read-only CSRs ignore it. `priv` and `b` are
the privilege and the bundle of the writer. -/
def Core.csrStore (k : Core) (a priv b : Nat) (v : Word) : Core :=
  let n := v.toNat
  if a = 0x000 then { k with te := bit n 3, ie := bit n 2 }
  else if 0x001 ≤ a && a ≤ 0x00D then { k with k := k.k.write a v }
  else if 0x101 ≤ a && a ≤ 0x10D then { k with mt := k.mt.write (a - 0x100) v }
  else if a = 0x023 then { k with repmax := if n = 0 then 1 else min n 1024 }
  else if a = 0x024 then { k with rrb := n % 32 }
  else if a = 0x030 then k.setScl (sclWrite v) b
  else if 0x040 ≤ a && a ≤ 0x047 then
    { k with cbase := tmod 0 k.cbase ((a - 0x040) / 2) fun b =>
        if a % 2 = 0 then b / 2 ^ 32 * 2 ^ 32 + n else n % 2 ^ 16 * 2 ^ 32 + b % 2 ^ 32 }
  else if 0x048 ≤ a && a ≤ 0x04B then { k with clen := tset 0 k.clen (a - 0x048) n }
  else if a = 0x051 then { k with evmask := v }
  else if 0x060 ≤ a && a ≤ 0x067 then { k with prbase := tset 0 k.prbase (a - 0x060) n }
  else if 0x068 ≤ a && a ≤ 0x06F then { k with prlim := tset 0 k.prlim (a - 0x068) n }
  else if a = 0x070 then { k with prperm := BitVec.ofNat 32 (n % 65536) }
  else if a = 0x080 then
    if !bit k.imgFlags 1 then k
    else if priv = 2 then { k with copen := v &&& 0x77 }
    else { k with copen := (k.copen &&& 0x66) ||| (v &&& 0x11) }
  else if a = 0x081 then { k with copstat := v &&& 0x1F }
  else if a = 0x090 then { k with vcfg := v &&& 0x37 }
  else if a = 0x091 then { k with vl := min n 4096 }
  else if a = 0x092 then { k with vstart := n % 8192 }
  else if a = 0x093 then { k with vstat := v &&& 0x0F00001F }
  else k

/-- Bits of EVPEND are set (R145, R147). -/
def Core.pend (k : Core) (c : Clock) (bits : Word) : Core :=
  { k with evpend := k.evpend ||| bits, evNow := (c.atc, if k.evNow.1 = c.atc then k.evNow.2 ||| bits else bits) }

/-- A CSR write as it takes effect: EVPEND takes clears only, and a bit set in the cycle of its clear stays set (R145). -/
def Core.csrApply (k : Core) (id : Nat) (c : Clock) (op : CsrOp) (a priv b : Nat) (v : Word) : Core :=
  let old := BitVec.ofNat 32 (k.csrRead id c a)
  match op with
  | .r => k
  | .w => if a = 0x050 then k else k.csrStore a priv b v
  | .s => if a = 0x050 then k else k.csrStore a priv b (old ||| v)
  | .c =>
    if a = 0x050 then
      { k with evpend := (k.evpend &&& ~~~v) ||| (if k.evNow.1 = c.atc then k.evNow.2 &&& k.evpend else 0) }
    else k.csrStore a priv b (old &&& ~~~v)

end Sys2Proof.Machine
end

