-- ==== Sys2Proof/Machine/Vector.lean ====
section
/-! DEFINITION. The long-vector extension's arithmetic (chapter 05): element semantics (R164-R169), legality (R163),
and beats (R170-R172). The meanings of the vector syllables stand with the bundles they issue in. -/
namespace Sys2Proof.Machine

/-! ### Element arithmetic -/

def isInt (vt : Nat) : Bool := vt < 3
def isCx (vt : Nat) : Bool := vt = 3 || vt = 4
def isFp (vt : Nat) : Bool := 5 ≤ vt

/-- Component width: half the element for complex types. -/
def compW (vt : Nat) : Nat := if isCx vt then vtWidth vt / 2 else vtWidth vt

/-- Apply an exact function component by component and narrow it: wrapped, or saturated with VSAT (R164). -/
def comps (vt : Nat) (sat : Bool) (f : Int → Int → Int) (a b : Nat) : Nat × Nat :=
  let w := compW vt
  let one := fun (x y : Nat) =>
    let r := f (sgn w x) (sgn w y)
    if sat then (uns w (satS w r), if satS w r != r then vSAT else 0) else (uns w r, 0)
  if isCx vt then
    let lo := one (bits a 0 w) (bits b 0 w)
    let hi := one (bits a w w) (bits b w w)
    (lo.1 + hi.1 * 2 ^ w, lo.2 ||| hi.2)
  else one a b

/-- The exact product, real and imaginary; a real type has only the real part (R164). -/
def product (vt : Nat) (conj : Bool) (a b : Nat) : Int × Int :=
  let w := compW vt
  let ar := sgn w (bits a 0 w)
  let br := sgn w (bits b 0 w)
  if isCx vt then
    let ai := sgn w (bits a w w)
    let bi := if conj then -sgn w (bits b w w) else sgn w (bits b w w)
    (ar * br - ai * bi, ar * bi + ai * br)
  else (ar * br, 0)

/-- Pack exact components into an element of component width `w`: wrapped or saturated. -/
def packC (cx : Bool) (w : Nat) (sat : Bool) (v : Int × Int) : Nat × Nat :=
  let one := fun (r : Int) => if sat then (uns w (satS w r), if satS w r != r then vSAT else 0) else (uns w r, 0)
  if cx then ((one v.1).1 + (one v.2).1 * 2 ^ w, (one v.1).2 ||| (one v.2).2) else one v.1

/-- Components of an element as signed values. -/
def unpackC (cx : Bool) (w x : Nat) : Int × Int := (sgn w (bits x 0 w), if cx then sgn w (bits x w w) else 0)

/-- Multiply forms of VMUL and VMULS: low half, high half, Q15 (R162). -/
def mulElem (vt sub a b : Nat) : Nat × Nat :=
  let p := product vt false a b
  let w := compW vt
  if sub = 0 then packC (isCx vt) w false p
  else if sub = 1 then packC (isCx vt) w false (p.1 / (2 ^ w : Int), p.2 / (2 ^ w : Int))
  else packC (isCx vt) w true (rsh p.1 15, rsh p.2 15)

/-- Shifts by S[4:0] (R162, R164). -/
def shlElem (vt sub a n : Nat) : Nat × Nat :=
  let w := compW vt
  if sub = 0 then
    let one := fun x => if w ≤ n then 0 else x * 2 ^ n % 2 ^ w
    if isCx vt then (one (bits a 0 w) + one (bits a w w) * 2 ^ w, 0) else (one a, 0)
  else comps vt true (fun x _ => x * (2 ^ n : Int)) a 0

def shrElem (vt sub a n : Nat) : Nat × Nat :=
  let w := compW vt
  if sub = 0 then
    if isCx vt then (bits a 0 w / 2 ^ n + bits a w w / 2 ^ n * 2 ^ w, 0) else (a / 2 ^ n, 0)
  else comps vt false (fun x _ => if w ≤ n then (if x < 0 then -1 else 0) else if sub = 1 then x / (2 ^ n : Int) else rsh x n) a 0

/-- A same-width element operation of the VV format on a, b and the old destination d (R162, R164-R167): result and
VSTAT flags. -/
def vvElem (op : VvOp) (vt sub a b d : Nat) : Nat × Nat :=
  let f := fmtOf vt
  match op with
  | .add => comps vt (sub = 1) (· + ·) a b
  | .sub => comps vt (sub = 1) (· - ·) a b
  | .and => (a &&& b, 0)
  | .or => (a ||| b, 0)
  | .xor => (a ^^^ b, 0)
  | .min => if isFp vt then fpMinMax f false a b
      else if sub = 1 then (min a b, 0) else comps vt false (fun x y => min x y) a b
  | .max => if isFp vt then fpMinMax f true a b
      else if sub = 1 then (max a b, 0) else comps vt false (fun x y => max x y) a b
  | .abs => comps vt true (fun x _ => x.natAbs) a 0
  | .conj =>
    let c := unpackC true (compW vt) a
    packC true (compW vt) true (c.1, -c.2)
  | .mul => mulElem vt sub a b
  | .mac =>
    let p := product vt (2 ≤ sub) a b
    let o := unpackC (isCx vt) (compW vt) d
    let s : Int := if sub % 2 = 1 then -1 else 1
    packC (isCx vt) (compW vt) true (o.1 + s * rsh p.1 15, o.2 + s * rsh p.2 15)
  | .mag2 =>
    let c := unpackC true 16 a
    packC false 32 true (c.1 * c.1 + c.2 * c.2, 0)
  | .fadd => fpAdd f a b
  | .fsub => fpSub f a b
  | .fmul => fpMul f a b
  | .fma => fpFma f (sub = 1) a b d
  | _ => (a, 0)

/-- The widening multiply-accumulate on one element: destination of twice the width (R165). -/
def wmacElem (vt sub a b d : Nat) : Nat × Nat :=
  if isFp vt then
    let f := fmtOf vt
    let p := (f.read a).mul (f.read b)
    if sub = 3 then fp32.put p else fp32.put ((fp32.read d).add (if sub = 1 then p.neg else p))
  else
    let w := 2 * compW vt
    let p := product vt (sub = 2) a b
    let o := if sub = 3 then ((0 : Int), (0 : Int)) else unpackC (isCx vt) w d
    let s : Int := if sub = 1 then -1 else 1
    packC (isCx vt) w true (o.1 + s * p.1, o.2 + s * p.2)

/-- VCVT on one element (R168). -/
def cvtElem (sub a : Nat) : Nat × Nat :=
  if sub = 0 then intToFp32 (sgn 16 a)
  else if sub = 1 then fp32ToInt 16 a
  else if sub = 2 then intToFp32 (sgn 32 a)
  else if sub = 3 then fp32ToInt 32 a
  else if sub = 4 then toFp32 fp16 a
  else if sub = 5 then toFp32 bf16 a
  else if sub = 6 then fp16.put (fp32.read a)
  else bf16.put (fp32.read a)

/-- VMVA on one element: result, and whether a component trips GROW (R134, R166). -/
def vmvaElem (vt sub : Nat) (scale : Int) (head a : Nat) : Nat × Bool :=
  if sub = 0 then
    let c := unpackC (vt = 3) 32 a
    let s := (15 + scale).toNat
    let x := rsh c.1 s
    let y := rsh c.2 s
    (uns 16 (satS 16 x) + (if vt = 3 then uns 16 (satS 16 y) * 2 ^ 16 else 0),
     growHit 16 head x || (vt = 3 && growHit 16 head y))
  else
    let c := unpackC (vt = 4) 32 a
    let x := scaleShift c.1 scale
    let y := scaleShift c.2 scale
    (uns 32 (satS 32 x) + (if vt = 4 then uns 32 (satS 32 y) * 2 ^ 32 else 0),
     growHit 32 head x || (vt = 4 && growHit 32 head y))

/-! ### Legality (R163) -/

def typesInt : List Nat := [0, 1, 2]
def typesCx : List Nat := [3, 4]
def typesFp : List Nat := [5, 6, 7]

/-- The VTYPEs an operation allows (R162). -/
def vvTypes : VvOp → List Nat
  | .add => typesInt ++ typesCx
  | .sub => typesInt ++ typesCx
  | .min => typesInt ++ typesFp
  | .max => typesInt ++ typesFp
  | .abs => typesInt
  | .conj => typesCx
  | .mul => typesInt ++ typesCx
  | .mac => [1, 3]
  | .wmac => [0, 1, 3, 5, 6]
  | .mag2 => [3]
  | .fadd => typesFp
  | .fsub => typesFp
  | .fmul => typesFp
  | .fma => typesFp
  | .cmp => typesInt ++ typesFp
  | .mva => [1, 3, 2, 4]
  | _ => [0, 1, 2, 3, 4, 5, 6, 7]

def aligned (r g : Nat) : Bool := r % g = 0
/-- The group r .. r + g - 1 fits the file, is aligned, and stays clear of V0 under a mask (R158, R163). -/
def dstOk (r g : Nat) (msk : Bool) : Bool := aligned r g && r + g ≤ 32 && !(msk && r = 0)
def srcOk (r g : Nat) : Bool := aligned r g && r + g ≤ 32

/-- A vector syllable of slot V is legal under VCFG (R163). -/
def Core.vLegal (k : Core) : Syl → Bool
  | .vv op vd va vb msk sub =>
    let g := k.grp
    let vt := k.vt
    (op = .cvt || (vvTypes op).contains vt) &&
    match op with
    | .wmac => sub ≤ 3 && (sub != 2 || vt = 3) && 2 * g ≤ 8 && dstOk vd (2 * g) msk && srcOk va g && srcOk vb g
    | .cvt =>
      sub ≤ 7 &&
      (if sub = 0 || sub = 4 || sub = 5 then 2 * g ≤ 8 && dstOk vd (2 * g) msk && srcOk va g
       else if sub = 2 || sub = 3 then dstOk vd g msk && srcOk va g
       else dstOk vd g msk && srcOk va (2 * g))
    | .mva =>
      if sub = 0 then (vt = 1 || vt = 3) && dstOk vd g msk && srcOk va (2 * g)
      else sub = 1 && (vt = 2 || vt = 4) && dstOk vd g msk && srcOk va g
    | .cmp => sub ≤ 5 && (!isFp vt || sub ≤ 3) && !(msk && vd = 0) && srcOk va g && srcOk vb g
    | .zip => sub ≤ 1 && dstOk vd g msk && srcOk va g
    | .merge => !msk && dstOk vd g msk && srcOk va g && srcOk vb g
    | .abs => dstOk vd g msk && srcOk va g
    | .conj => dstOk vd g msk && srcOk va g
    | .mag2 => dstOk vd g msk && srcOk va g
    | .add => sub ≤ 1 && dstOk vd g msk && srcOk va g && srcOk vb g
    | .sub => sub ≤ 1 && dstOk vd g msk && srcOk va g && srcOk vb g
    | .mul => sub ≤ 2 && (sub != 2 || vt = 1 || vt = 3) && dstOk vd g msk && srcOk va g && srcOk vb g
    | .mac => sub ≤ 3 && dstOk vd g msk && srcOk va g && srcOk vb g
    | .min => (sub ≤ 1 || isFp vt) && dstOk vd g msk && srcOk va g && srcOk vb g
    | .max => (sub ≤ 1 || isFp vt) && dstOk vd g msk && srcOk va g && srcOk vb g
    | .fma => sub ≤ 1 && dstOk vd g msk && srcOk va g && srcOk vb g
    | _ => dstOk vd g msk && srcOk va g && srcOk vb g
  | .vs op vd va _ msk sub =>
    let g := k.grp
    let vt := k.vt
    dstOk vd g msk && srcOk va g &&
    match op with
    | .adds => sub ≤ 1 && vt ≤ 4
    | .shl => sub ≤ 1 && vt ≤ 4
    | .shr => sub ≤ 2 && vt ≤ 4
    | .muls => sub ≤ 2 && (sub != 2 || vt = 1 || vt = 3) && vt ≤ 4
    | _ => true
  | .vx op s v _ msk sub =>
    let g := k.grp
    match op with
    | .setvl => true
    | .bcast => dstOk v g msk
    | .ins => srcOk v g
    | .ext => srcOk v g && (k.vt != 4 || s % 2 = 0)
    | _ => srcOk v g && s % 2 = 0 && !isCx k.vt && (isFp k.vt || sub ≤ 1)
  | .vrsum _ va _ sub => srcOk va k.grp && k.vt ≤ 4 && sub ≤ 1
  | .vld raw v _ _ _ msk => if raw then !msk else dstOk v k.grp msk
  | .vst raw v _ _ _ msk => if raw then !msk else srcOk v k.grp
  | .vlds v _ _ am msk => am = 0 && dstOk v k.grp msk
  | .vsts v _ _ am _ => am = 0 && srcOk v k.grp
  | .vgath v _ vi msk _ =>
    let n := idxRegs k
    dstOk v k.grp msk && n ≤ 8 && srcOk vi n && (vi + n ≤ v || v + k.grp ≤ vi)
  | .vscat v _ vi _ _ =>
    let n := idxRegs k
    srcOk v k.grp && n ≤ 8 && srcOk vi n && (vi + n ≤ v || v + k.grp ≤ vi)
  | _ => true

/-! ### Beats -/

/-- Beats of a vector syllable of slot V (R170). -/
def vBeats (vt g : Nat) : Syl → Nat
  | .vx .setvl _ _ _ _ _ => 1
  | .vv .mul _ _ _ _ _ => if vt = 4 then 8 * g else 4 * g
  | .vs .muls _ _ _ _ _ => if vt = 4 then 8 * g else 4 * g
  | _ => 4 * g

/-- E of R162. -/
def vE (vt : Nat) : Syl → Nat
  | .vv .mul _ _ _ _ _ => 3
  | .vv .mac _ _ _ _ _ => 3
  | .vv .wmac _ _ _ _ _ => if isFp vt then 4 else 3
  | .vv .mag2 _ _ _ _ _ => 3
  | .vv .fadd _ _ _ _ _ => 3
  | .vv .fsub _ _ _ _ _ => 3
  | .vv .fmul _ _ _ _ _ => 3
  | .vv .fma _ _ _ _ _ => 4
  | .vv .cvt _ _ _ _ _ => 3
  | .vv .mva _ _ _ _ _ => 3
  | .vs .muls _ _ _ _ _ => 3
  | .vrsum _ _ _ _ => 3
  | _ => 2

/-- Whole-group (class W) operations. -/
def isW : Syl → Bool
  | .vv .cmp _ _ _ _ _ => true
  | .vv .zip _ _ _ _ _ => true
  | .vs .slideup _ _ _ _ _ => true
  | .vs .slidedn _ _ _ _ _ => true
  | .vx .ext _ _ _ _ _ => true
  | .vx .maxi _ _ _ _ _ => true
  | .vx .mini _ _ _ _ _ => true
  | .vrsum _ _ _ _ => true
  | _ => false

/-- Chunk `m` of the group at V`r`, under the mapping `rrb` (R158). -/
def Core.chunk (k : Core) (rrb r m : Nat) : Nat := bits (tget 0 k.v (mapV rrb ((r + m / 4) % 32))) (1024 * (m % 4)) 1024

/-- A write of chunk `m` of the group at V`r` by the operation `o`, visible from bundle `land` on. -/
def VOp.chunkFly (o : VOp) (land r m val mask : Nat) : Fly :=
  ⟨land, .v (mapV o.rrb ((r + m / 4) % 32)) (1024 * (m % 4)) val mask, o.b⟩

/-- Element `i` is active: below the count, and selected by V0 under a mask (R159). -/
def actv (n v0 : Nat) (msk : Bool) (i : Nat) : Bool := i < n && (!msk || bit v0 i)

/-- Elements of width `w`, numbers `first` .. `first + cnt - 1`, computed by `f` and placed in one chunk: value, mask,
flags. -/
def buildChunk (w first cnt n v0 : Nat) (msk : Bool) (f : Nat → Nat × Nat) : Nat × Nat × Nat :=
  (List.range cnt).foldl (fun acc j =>
    if actv n v0 msk (first + j) then
      let r := f (first + j)
      (acc.1 + r.1 % 2 ^ w * 2 ^ (w * j), acc.2.1 + (2 ^ w - 1) * 2 ^ (w * j), acc.2.2 ||| r.2)
    else acc) (0, 0, 0)

/-- Element `i` of width `w` of the group at V`r`. -/
def Core.elem (k : Core) (rrb r w i : Nat) : Nat := bits (k.chunk rrb r (i * w / 1024)) (i * w % 1024) w

def Core.addFly (k : Core) (f : List Fly) : Core := { k with fly := k.fly ++ f }

/-- VSTAT flags of a result of the operation `o`, set as the result becomes visible (R156). -/
def VOp.flagFly (o : VOp) (land fl : Nat) : List Fly := if fl = 0 then [] else [⟨land, .vstat fl, o.b⟩]

/-- V0 as consumed so far: chunk `m` by the first beat that consumes it (R171). -/
def capMask (caps : List (Nat × Nat × Nat)) : Nat :=
  (List.range 4).foldl (fun a m => a + (caps.getD m (0, 0, 0)).2.2 * 2 ^ (1024 * m)) 0

/-- VLMAX of VCVT (R168). -/
def cvtMax (g sub : Nat) : Nat := if sub = 2 || sub = 3 then 128 * g else 256 * g

/-- Beat `j` of a class B operation (R171): the chunks it writes, and the flags it sets. -/
def Core.beatB (k : Core) (o : VOp) : Core :=
  let j := o.beat
  let v0 := capMask o.caps
  let w := vtWidth o.vt
  let per := 1024 / w
  let land := o.b + j + vE o.vt o.syl
  let same := fun (vd : Nat) (msk : Bool) (m : Nat) (f : Nat → Nat × Nat) =>
    let r := buildChunk w (m * per) per o.n v0 msk f
    k.addFly (o.chunkFly land vd m r.1 r.2.1 :: o.flagFly land r.2.2)
  let two := fun (vd : Nat) (msk : Bool) (w2 n : Nat) (f : Nat → Nat × Nat) =>
    let p := 1024 / w2
    let a := buildChunk w2 (2 * j * p) p n v0 msk f
    let b := buildChunk w2 ((2 * j + 1) * p) p n v0 msk f
    k.addFly (o.chunkFly land vd (2 * j) a.1 a.2.1 :: o.chunkFly land vd (2 * j + 1) b.1 b.2.1 ::
      o.flagFly land (a.2.2 ||| b.2.2))
  let e := fun r i => k.elem o.rrb r w i
  match o.syl with
  | .vv .wmac vd va vb msk sub =>
    two vd msk (2 * w) o.n fun i => wmacElem o.vt sub (e va i) (e vb i) (k.elem o.rrb vd (2 * w) i)
  | .vv .cvt vd va _ msk sub =>
    let n := o.n
    if sub = 0 || sub = 4 || sub = 5 then two vd msk 32 n fun i => cvtElem sub (k.elem o.rrb va 16 i)
    else
      let wd := if sub = 2 || sub = 3 then 32 else 16
      let r := buildChunk wd (j * (1024 / wd)) (1024 / wd) n v0 msk fun i => cvtElem sub (k.elem o.rrb va 32 i)
      k.addFly (o.chunkFly land vd j r.1 r.2.1 :: o.flagFly land r.2.2)
  | .vv .mva vd va _ msk sub =>
    let r := buildChunk w (j * per) per o.n v0 msk fun i =>
      let x := vmvaElem o.vt sub o.scale o.head (k.elem o.rrb va (if sub = 0 then 2 * w else w) i)
      (x.1, x.2.toNat)
    k.addFly (o.chunkFly land vd j r.1 r.2.1 :: if r.2.2 = 0 then [] else [⟨land, .grow, o.b⟩])
  | .vv .merge vd va vb _ _ => same vd false j fun i => (if bit v0 i then e vb i else e va i, 0)
  | .vv .mul vd va vb msk sub =>
    if o.vt = 4 then (if j % 2 = 1 then same vd msk (j / 2) fun i => mulElem o.vt sub (e va i) (e vb i) else k)
    else same vd msk j fun i => mulElem o.vt sub (e va i) (e vb i)
  | .vv op vd va vb msk sub => same vd msk j fun i => vvElem op o.vt sub (e va i) (e vb i) (e vd i)
  | .vs .muls vd va _ msk sub =>
    let b := o.sv % 2 ^ w
    if o.vt = 4 then (if j % 2 = 1 then same vd msk (j / 2) fun i => mulElem o.vt sub (e va i) b else k)
    else same vd msk j fun i => mulElem o.vt sub (e va i) b
  | .vs .adds vd va _ msk sub => same vd msk j fun i => comps o.vt (sub = 1) (· + ·) (e va i) (o.sv % 2 ^ w)
  | .vs .shl vd va _ msk sub => same vd msk j fun i => shlElem o.vt sub (e va i) (o.sv % 32)
  | .vs .shr vd va _ msk sub => same vd msk j fun i => shrElem o.vt sub (e va i) (o.sv % 32)
  | .vx .bcast _ v _ msk _ => same v msk j fun _ => (o.sv % 2 ^ w, 0)
  | .vx .ins _ v _ _ _ =>
    -- `n` holds the element number, `sv` the value (R162)
    if o.n / per = j && o.n < o.g * 4096 / w then
      let sh := o.n % per * w
      k.addFly [o.chunkFly land v j (o.sv % 2 ^ w * 2 ^ sh) ((2 ^ w - 1) * 2 ^ sh)]
    else k
  | _ => k

/-- The captured element `i` of Va (or Vb). -/
def capElem (caps : List (Nat × Nat × Nat)) (b : Bool) (w i : Nat) : Nat :=
  let c := caps.getD (i * w / 1024) (0, 0, 0)
  bits (if b then c.2.1 else c.1) (i * w % 1024) w

/-- The best of a search, lowest index among equals (R174, R175). -/
def searchBest (mx : Bool) : List (Nat × Int) → Option (Nat × Int)
  | [] => none
  | (i, v) :: l =>
    match searchBest mx l with
    | none => some (i, v)
    | some (j, u) => if (if mx then u > v else u < v) then some (j, u) else some (i, v)

/-- The results of a whole-group operation, visible E bundles after its last beat (R172). -/
def Core.finishW (k : Core) (o : VOp) : Core :=
  let w := vtWidth o.vt
  let vmax := o.g * 4096 / w
  let land := o.b + o.beats + vE o.vt o.syl
  let v0 := capMask o.caps
  let a := capElem o.caps false w
  let b := capElem o.caps true w
  let act := fun msk i => actv o.n v0 msk i
  let whole := fun (vd : Nat) (msk : Bool) (cond : Nat → Bool) (f : Nat → Nat) =>
    k.addFly ((List.range (4 * o.g)).map fun m =>
      let r := (List.range (1024 / w)).foldl (fun (acc : Nat × Nat) j =>
        let i := m * (1024 / w) + j
        if act msk i && cond i then (acc.1 + f i % 2 ^ w * 2 ^ (w * j), acc.2 + (2 ^ w - 1) * 2 ^ (w * j)) else acc) (0, 0)
      o.chunkFly land vd m r.1 r.2)
  let idx := fun msk => (List.range (min o.n vmax)).filter (act msk)
  let putS := fun (k : Core) (s : Nat) (v : Nat) => k.addFly [⟨land, .s (mapS o.rrb s) (BitVec.ofNat 32 v), o.b⟩]
  match o.syl with
  | .vv .cmp vd _ _ msk sub =>
    let r := (List.range (min o.n vmax)).foldl (fun (acc : Nat × Nat × Nat) i =>
      if act msk i then
        let h := if isFp o.vt then fpCmp (fmtOf o.vt) sub (a i) (b i)
          else (condHolds sub (BitVec.ofInt 32 (if sub < 4 then sgn w (a i) else (a i : Nat)))
                 (BitVec.ofInt 32 (if sub < 4 then sgn w (b i) else (b i : Nat))), 0)
        (acc.1 + h.1.toNat * 2 ^ i, acc.2.1 + 2 ^ i, acc.2.2 ||| h.2)
      else acc) (0, 0, 0)
    k.addFly (⟨land, .v (mapV o.rrb vd) 0 r.1 r.2.1, o.b⟩ :: o.flagFly land r.2.2)
  | .vv .zip vd _ _ msk sub =>
    let h := min o.n vmax / 2
    if sub = 0 then whole vd msk (fun i => i < 2 * h) fun i => if i < h then a (2 * i) else a (2 * (i - h) + 1)
    else whole vd msk (fun i => i < 2 * h) fun i => if i % 2 = 0 then a (i / 2) else a (h + i / 2)
  | .vs .slideup vd _ _ msk _ => whole vd msk (fun i => o.sv ≤ i) fun i => a (i - o.sv)
  | .vs .slidedn vd _ _ msk _ => whole vd msk (fun _ => true) fun i => if i + o.sv < vmax then a (i + o.sv) else 0
  | .vx .ext s _ _ _ _ =>
    let x := if o.sv < vmax then a o.sv else 0
    if w = 64 then putS (putS k s (x % 2 ^ 32)) (s + 1) (x / 2 ^ 32)
    else putS k s (if w = 32 then x else uns 32 (sgn w x))
  | .vx op s _ _ msk sub =>
    let mx := op = .maxi
    let l := (idx msk).filterMap fun i =>
      if isFp o.vt then (searchKey (fmtOf o.vt) (a i)).map fun x => (i, x)
      else some (i, if sub = 0 then sgn w (a i) else (a i : Int))
    match searchBest mx l with
    | some (i, v) => putS (putS k s (uns 32 v)) (s + 1) i
    | none =>
      let e := if isFp o.vt || sub = 0 then (if mx then 0x80000000 else 0x7FFFFFFF) else (if mx then 0 else 0xFFFFFFFF)
      putS (putS k s e) (s + 1) 0xFFFFFFFF
  | .vrsum an _ msk sub =>
    let t := (idx msk).foldl (fun (acc : Int × Int) i =>
      let c := unpackC (isCx o.vt) (compW o.vt) (a i)
      (acc.1 + c.1, acc.2 + c.2)) (0, 0)
    k.addFly [⟨land, .acc an (sub = 1) (some t.1) (some t.2), o.b⟩]
  | _ => k

/-- Chunk `m` of V0, where it has one. -/
def Core.maskChunk (k : Core) (m : Nat) : Nat := if m < 4 then bits (tget 0 k.v 0) (1024 * m) 1024 else 0

/-- One beat of the vector operation in flight, if any (R170-R172). -/
def Core.beat (k : Core) : Core :=
  match k.vop with
  | none => k
  | some o =>
    let k' := { k with vop := if o.beat + 1 = o.beats then none else some { o with beat := o.beat + 1 } }
    if !o.live then k'
    else if isW o.syl then
      let va := match o.syl with
        | .vv _ _ va _ _ _ => va
        | .vs _ _ va _ _ _ => va
        | .vx _ _ v _ _ _ => v
        | .vrsum _ va _ _ => va
        | _ => 0
      let vb := match o.syl with
        | .vv .cmp _ _ vb _ _ => vb
        | _ => va
      let o := { o with caps := o.caps ++ [(k.chunk o.rrb va o.beat, k.chunk o.rrb vb o.beat, k.maskChunk o.beat)] }
      if o.beat + 1 = o.beats then k'.finishW o else { k' with vop := some { o with beat := o.beat + 1 } }
    else
      -- a multiply of cint32 consumes chunk j / 2 in beat j
      let m := if o.vt = 4 && vE o.vt o.syl = 3 && o.beats = 8 * o.g then o.beat / 2 else o.beat
      let o := if o.caps.length = m && m < 4 then { o with caps := o.caps ++ [(0, 0, k.maskChunk m)] } else o
      { k'.beatB o with vop := k'.vop.map fun p => { p with caps := o.caps } }

/-- Begin a vector operation: its reads at issue (R162). `hi` stands for the word after S63, of which the manual says nothing
(log 154). -/
def Core.startV (k : Core) (syl : Syl) (live : Bool) (hi : Nat) : Core :=
  let vt := k.vt
  let pair := fun s => k.rsN s + (if vt = 4 then (if s = 63 then hi % 2 ^ 32 else k.rsN (s + 1)) * 2 ^ 32 else 0)
  let sv := match syl with
    | .vs _ _ _ s _ _ => k.rsN s
    | .vx .bcast s _ _ _ _ => pair s
    | .vx .ins s _ _ _ _ => pair s
    | .vx .ext _ _ s2 _ _ => k.rsN s2
    | _ => 0
  let n := match syl with
    | .vx .ins _ _ s2 _ _ => k.rsN s2
    | .vv .cvt _ _ _ _ sub => min k.vl (cvtMax k.grp sub)
    | _ => min k.vl k.vlmax
  { k with vop := some { syl := syl, b := k.n, beat := 0, beats := vBeats vt k.grp syl, live := live, vt := vt
                         g := k.grp, n := n, rrb := k.rrb, scale := sclScale k.scl, head := sclHead k.scl, sv := sv } }

end Sys2Proof.Machine
end

