-- ==== Sys2Proof/Machine/Pipeline.lean ====
section
/-! DEFINITION. The pipeline of a signal core: writes in flight (R116-R119), the end of a REP iteration, and the
boundaries at which a core may leave its program (R127). -/
namespace Sys2Proof.Machine

/-! ### Writes in flight (R116-R118) -/

/-- A queue without the entry of the command issued in bundle `b`. -/
def dropCmd (b : Nat) (l : List CopCmd) : List CopCmd := l.filter fun c => c.issued != b

/-- A move sets GROW (R134). -/
def Core.landGrow (k : Core) (b : Nat) : Core := { k with scl := sclSetGrow k.scl true, growBy := k.growBy ++ [b] }

/-- An adjust point takes effect (R136): it saw GROW when its bundle issued, or sees it set by a move issued before bundle
`upto`, landed or not; GROW then keeps what later moves have set. -/
def Core.landAdjust (k : Core) (upto : Nat) (seen : Bool) : Core :=
  let mine := fun (f : Fly) => f.op = .grow && f.issued < upto
  if seen || k.growBy.any (· < upto) || k.fly.any mine then
    let rest := k.growBy.filter (upto ≤ ·)
    { k with scl := sclSetGrow (sclAdjust k.scl) !rest.isEmpty, growBy := rest, fly := k.fly.filter fun f => !mine f }
  else k

/-- One write lands. -/
def Core.landOp (k : Core) (id : Nat) (c : Clock) (f : Fly) : Core :=
  match f.op with
  | .s n v => k.setS n v
  | .p n v => { k with p := tset 0 k.p n (v % 2 ^ 48) }
  | .m n v => { k with m := tset 0 k.m n v }
  | .q n v => k.setQ n v
  | .acc n set re im =>
    let o := k.ra n
    let g := fun (x : Int) (y : Option Int) => match y with
      | some v => wrapS 40 (if set then v else x + v)
      | none => x
    { k with a := tset (0, 0) k.a n (g o.1 re, g o.2 im) }
  | .search lo hi mx uns a b =>
    let cur := tget 0 k.s lo
    let gt := if uns then (if mx then cur.toNat < a.toNat else a.toNat < cur.toNat)
      else (if mx then cur.toInt < a.toInt else a.toInt < cur.toInt)
    if gt then (k.setS lo a).setS hi b else k
  | .csr op a priv v => k.csrApply id c op a priv f.issued v
  | .adjust upto seen => k.landAdjust upto seen
  | .grow => k.landGrow f.issued
  | .v n lo val mask =>
    let old := tget 0 k.v n
    { k with v := tset 0 k.v n (old - (old / 2 ^ lo &&& mask) * 2 ^ lo + (val &&& mask) * 2 ^ lo) }
  | .vl v => { k with vl := v }
  | .vstat fl => { k with vstat := k.vstat ||| BitVec.ofNat 32 fl }
  | .popped mxu cmd fl =>
    let k := if mxu then { k with mxu := dropCmd cmd k.mxu } else { k with sfu := dropCmd cmd k.sfu }
    { k with copstat := k.copstat ||| BitVec.ofNat 32 (fl % 32) }
  | .discard mxu =>
    if mxu then { k with mxu := k.mxu.filter fun c => c.stage != .done }
    else { k with sfu := k.sfu.filter fun c => c.stage != .done }

/-- A write of hardware to a sticky bit, which wins over a CSR write that lands with it (R132, R156, R199). -/
def Fly.sticky (f : Fly) : Bool :=
  match f.op with
  | .grow => true
  | .vstat _ => true
  | .popped _ _ _ => true
  | _ => false

def isVmva : Syl → Bool
  | .vv .mva _ _ _ _ _ => true
  | _ => false

/-- The write lands by bundle `n`. An adjust point waits for the beats of an older VMVA, whose GROW it has to see: no move can
issue before they have run (R136; log 153). -/
def Core.isDue (k : Core) (n : Nat) (f : Fly) : Bool :=
  f.land ≤ n &&
  match f.op with
  | .adjust upto _ => !(k.vop.any fun o => isVmva o.syl && o.b < upto)
  | _ => true

/-- Writes in the order they take effect in: the older bundle's first (R118). -/
def byAge (l : List Fly) : List Fly := sortBy (fun f g => f.issued ≤ g.issued) l

/-- The writes visible from bundle `k.n` on land, the oldest first (R118), those to sticky bits last. -/
def Core.land (k : Core) (id : Nat) (c : Clock) : Core :=
  let now := fun (k : Core) (p : Fly → Bool) =>
    (byAge (k.fly.filter p)).foldl (fun k f => k.landOp id c f) { k with fly := k.fly.filter fun f => !p f }
  let k := now k fun f => k.isDue k.n f && !f.sticky
  now k fun f => f.land ≤ k.n && f.sticky

/-- The coprocessor operations issued before and committing by bundle `n` commit while the core waits in E1 (R192). -/
def Core.copCommit (k : Core) (id : Nat) (c : Clock) (n : Nat) : Core :=
  let p := fun (f : Fly) => f.land ≤ n && match f.op with
    | .popped _ _ _ => true
    | .discard _ => true
    | _ => false
  (byAge (k.fly.filter p)).foldl (fun k f => k.landOp id c f) { k with fly := k.fly.filter fun f => !p f }

/-- What a bundle finds when it reads: the writes of `k.n` landed, and the beat of this bundle begun. -/
def Core.tick (k : Core) (id : Nat) (c : Clock) : Core := (k.land id c).beat

/-- Every write and beat of older bundles completes (R119, R173). -/
def Core.drain (k : Core) (id : Nat) (c : Clock) : Nat → Core
  | 0 => k
  | n + 1 => if k.fly.isEmpty && k.vop.isNone then k else ({ k.tick id c with n := k.n + 1 } : Core).drain id c n

def Core.drained (k : Core) (id : Nat) (c : Clock) : Core := k.drain id c 100

/-! ### REP (R125, R126, R129, R136) -/

/-- The adjust point of bundle `b`, which sees the moves issued before bundle `upto` (R136): GROW as it stands, but for what an
adjust point in flight answers to. -/
def Core.adjustPoint (k : Core) (upto b : Nat) : Core :=
  if sclAuto k.scl then
    let from_ := k.fly.foldl (fun m f => match f.op with
      | .adjust u _ => max m u
      | _ => m) 0
    k.addFly [⟨b + 5, .adjust upto (k.growBy.any (from_ ≤ ·)), b⟩]
  else k

/-- The end of an iteration, once the last body bundle has issued. -/
def Core.iterationEnd (k : Core) : Core :=
  let r := k.rep
  let k := { k with repEnd := false }
  let k := if r.rot then
      let k := { k with rrb := (k.rrb + 31) % 32 }
      k.setQ (mapQ k.rrb 8) (r.j + 1 < r.count)
    else k
  if r.cnt ≤ 1 then
    ({ k with rep := { r with cnt := 0, rot := false }, pc := r.last + 16 } : Core).adjustPoint k.n (k.n - 1)
  else { k with rep := { r with cnt := r.cnt - 1, j := r.j + 1 }, pc := r.start }

/-- The core at its bundle boundary: the end of an iteration whose last body bundle has issued is behind it (R126). -/
def Core.settled (k : Core) : Core := if k.repEnd then k.iterationEnd else k

/-- The next bundle boundary is one at which an interrupt could be taken (R127): outside a delay sequence and a REP,
with no bundle held in E1 and no store waiting for the write buffer. -/
def Core.boundary (k : Core) : Bool := k.ds.isNone && k.settled.rep.cnt = 0 && k.stalled.isNone && k.spill.isEmpty

end Sys2Proof.Machine
end

