-- ==== Sys2Proof/Machine/Images.lean ====
section
/-! DEFINITION. Holsil images (R149): their header, their CRC, and the start of a core from one (R111, R151). -/
namespace Sys2Proof.Machine

/-- One step of the reflected IEEE 802.3 CRC-32. -/
def crcBit (c : Nat) : Nat := if c % 2 = 1 then (c / 2) ^^^ 0xEDB88320 else c / 2

def crcByte (c : Nat) (b : Byte) : Nat := (List.range 8).foldl (fun c _ => crcBit c) (c ^^^ b.toNat)

/-- IEEE 802.3 CRC-32 of a byte string. -/
def crc32 (bs : List Byte) : Nat := bs.foldl crcByte 0xFFFFFFFF ^^^ 0xFFFFFFFF

def Image.textSize (i : Image) : Nat := fieldAt i.bytes 8 4
def Image.dataSize (i : Image) : Nat := fieldAt i.bytes 12 4
def Image.dataAddr (i : Image) : Nat := fieldAt i.bytes 16 4

/-- The offset of the first header field that R149 refuses; the CRC's for a wrong CRC; none for a good image. -/
def Image.fault (i : Image) : Option Nat :=
  let ts := i.textSize
  let ds := i.dataSize
  let da := i.dataAddr
  if i.bytes.length < 64 then some 0
  else if fieldAt i.bytes 0 4 != 0x4D495348 then some 0
  else if fieldAt i.bytes 4 2 != 1 then some 4
  else if fieldAt i.bytes 6 2 / 4 != 0 then some 6
  else if ts < 16 || 131072 < ts || ts % 16 != 0 || i.bytes.length != 64 + ts + ds then some 8
  else if 262144 < ds || ds % 8 != 0 then some 12
  else if da % 8 != 0 || (0 < ds && 0x3E000 < da + ds) then some 16
  else if fieldAt i.bytes 32 2 = 0 || 1024 < fieldAt i.bytes 32 2 then some 32
  else if crc32 (i.bytes.drop 64) != fieldAt i.bytes 36 4 then some 36
  else none

/-- Core `id` reset (R111), its IM and LDM loaded from the image, and started at ENTRY (R151). What no thread switch
and no image touches stays: the pool, the frames and the port of the core. -/
def Dev.startCore (d : Dev) (id slot : Nat) : Dev :=
  let i := tget {} d.cores.images slot
  let o := d.core id
  let w := fun off => BitVec.ofNat 32 (fieldAt i.bytes off 4)
  let k : Core :=
    { st := .running, pc := fieldAt i.bytes 20 4, repmax := fieldAt i.bytes 32 2
      k := { tvec := w 24 }, mt := { tvec := w 28 }
      imgFlags := fieldAt i.bytes 6 2, imgSlot := slot
      pool := o.pool, leaving := o.leaving, leftPool := o.leftPool, saddle := o.saddle, seat1 := o.seat1, wb := o.wb
      portDone := o.portDone, portCode := o.portCode, portNew := o.portNew, argDl := o.argDl, arg0 := o.arg0
      arg1 := o.arg1, switches := o.switches, bist := o.bist }
  let d := (d.memWrite (imKey id 0) ((i.bytes.drop 64).take i.textSize)).2
  let d := (d.memWrite (ldmKey id i.dataAddr) ((i.bytes.drop (64 + i.textSize)).take i.dataSize)).2
  d.setCore id k

end Sys2Proof.Machine
end

