-- ==== Sys2Proof/Machine/Ledger.lean ====
section
/-! DEFINITION. The deadline ledger (R231-R235, R264, R587): level clocks scheduled for a bucket, capacities, and the
admission check. -/
namespace Sys2Proof.Machine

/-- Level clock in MHz (R583). -/
def levelMHz (l : Nat) : Nat := [500, 650, 800, 950, 1100, 1250, 1400, 1500].getD l 500

/-- Bucket of an ATC (R233). -/
def bucketOf (a : Nat) : Nat := a / 245760

/-- Pending Cadence changes of a domain for one action: trigger and argument, in trigger order. -/
def Dev.scheduled (d : Dev) (action n : Nat) : List (Nat × Nat) :=
  sortBy (fun a b => a.1 ≤ b.1) (d.air.cad.filterMap fun e =>
    if e.2.action = action && e.2.target % 64 = n then some (e.2.trigger, e.2.arg % 8) else none)

/-- The lowest level in force in domain `n` at any instant of [lo, hi), the transitions of R584 included (R587):
`sched` are its level changes to come. -/
def lowestLevel (x : Dom) (sched : List (Nat × Nat)) (lo hi : Nat) : Nat :=
  let past := sched.filter fun e => e.1 + 39322 ≤ lo
  let near := sched.filter fun e => lo < e.1 + 39322 && e.1 < hi
  let base := match past.getLast? with
    | some e => e.2
    | none => if x.firedAt.any fun f => lo < f + 39322 then min x.level x.target else x.target
  near.foldl (fun m e => min m e.2) base

/-- Wake time of a depth, in Tc, rounded up: 100 ns, 25 us, 400 us (R588). -/
def wakeTime (depth : Nat) : Nat := if depth = 1 then 197 else if depth = 2 then 49152 else 786432

/-- The domain is scheduled awake for the whole of [lo, hi) (R587): it is awake and no group names it, it wakes, or a wake of
its group or of Cadence is planned early enough. -/
def Dev.awakeIn (d : Dev) (n lo : Nat) : Bool :=
  let x := d.dom n
  let grouped : Bool := d.power.group.any fun g => bit g.mask n
  (x.st = .awake && !grouped) || (x.st = .waking && x.wakeAt + wakeTime x.depth ≤ lo) ||
  (d.power.group.any fun g => bit g.mask n && g.wake != 0 && g.wake ≤ lo) ||
  (x.st = .asleep && (d.scheduled 10 n).any fun e => e.1 + wakeTime x.depth ≤ lo)

/-- The lowest clock of a bucket for a set of domains, in MHz. -/
def Dev.bucketMHz (d : Dev) (doms : List Nat) (k : Nat) : Nat :=
  levelMHz (doms.foldl (fun m n => min m (lowestLevel (d.dom n) (d.scheduled 7 n) (k * 245760) ((k + 1) * 245760))) 7)

/-- Cores of pool `p` that count in bucket `k` (R232, R587). -/
def Dev.poolCores (d : Dev) (p k : Nat) : List Nat :=
  let pl := tget {} d.pel.pools p
  (d.cores.core.filter fun e =>
    e.2.pool = some p && e.2.leaving.isNone && e.2.st != .halted && e.2.st != .retired &&
    (pl.joined.all fun j => j.1 != e.1 || j.2 ≤ k) && d.awakeIn (e.1 / 64) (k * 245760)).map (·.1)

/-- Capacity of bucket `k` of pool `p` in core-ns (R232); zero while disabled (R230). -/
def Dev.poolCap (d : Dev) (p k : Nat) : Nat :=
  let pl := tget {} d.pel.pools p
  if pl.dis != .on then 0
  else
    let cs := d.poolCores p k
    cs.length * 125000 * pl.cap * d.bucketMHz (cs.map (· / 64)).eraseDups k / (100 * 1500)

/-- Domain of an engine (R582). -/
def engDomain (e : Nat) : Nat := if e < 12 then 16 else if e < 24 then 17 else if e < 32 || 48 ≤ e then 18 else 19

/-- Class of an engine: 0 decode, 1 encode, 2 transform, 3 MIMO (R240). -/
def engClass (e : Nat) : Nat := if e < 24 then 0 else if e < 32 then 1 else if e < 48 then 2 else 3

/-- Capacity of bucket `k` of an engine class in engine-ns (R264): enabled engines awake for the whole bucket. -/
def Dev.engCap (d : Dev) (cls k : Nat) : Nat :=
  let es := (List.range 56).filter fun e =>
    engClass e = cls && (tget {} d.eng.engines e).dis = .on && !(d.mgmt.engUpd.any fun u => bit u.cur e) &&
    d.awakeIn (engDomain e) (k * 245760)
  es.length * 125000 * (tget 90 d.eng.caps cls) * d.bucketMHz (es.map engDomain).eraseDups k / (100 * 1500)

/-- Capacity of an account: pool, or 0x80 + engine class. -/
def Dev.acctCap (d : Dev) (acct k : Nat) : Nat := if acct < 128 then d.poolCap acct k else d.engCap (acct - 128) k

/-- Every admitted charge: account, r, d, e. -/
def Dev.charges (d : Dev) : List (Nat × Nat × Nat × Nat) := d.air.plans.flatMap (·.charges)

/-- The condition of R234 for one account with the charges `cs`, from bucket boundary `now` on. The intervals that
begin at some charge's r and end at some charge's d decide it: any other holds no more demand and no less capacity. -/
def Dev.acctFits (d : Dev) (cs : List (Nat × Nat × Nat × Nat)) (acct now : Nat) : Bool :=
  let own := cs.filter fun q => q.1 = acct && now ≤ q.2.1
  (own.map (·.2.1)).eraseDups.all fun a => (own.map (·.2.2.1)).eraseDups.all fun b =>
    b ≤ a || ((own.filter fun q => a ≤ q.2.1 && q.2.2.1 ≤ b).foldl (fun s q => s + q.2.2.2) 0) ≤
      ((List.range (b - a)).foldl (fun s i => s + d.acctCap acct (a + i)) 0)

/-- The first over-full interval of an account, by its first bucket: what POOL_SHORT reports (R229). -/
def Dev.acctShort (d : Dev) (acct now : Nat) : Option Nat :=
  let own := d.charges.filter fun q => q.1 = acct && now ≤ q.2.1
  (sortBy (fun a b => a ≤ b) (own.map (·.2.1)).eraseDups).find? fun a => !((own.map (·.2.2.1)).eraseDups.all fun b =>
    b ≤ a || ((own.filter fun q => a ≤ q.2.1 && q.2.2.1 ≤ b).foldl (fun s q => s + q.2.2.2) 0) ≤
      ((List.range (b - a)).foldl (fun s i => s + d.acctCap acct (a + i)) 0))

/-- Every account that has charges still fits: what a change of capacity is checked against (R227, R587). -/
def Dev.allFit (d : Dev) (now : Nat) : Bool :=
  ((d.charges.map (·.1)).eraseDups).all fun a => d.acctFits d.charges a now

/-- The lowest clock scheduled for a pool over buckets [r, e), in MHz (R231). -/
def Dev.poolMHz (d : Dev) (p r e : Nat) : Nat :=
  (List.range (e - r)).foldl (fun m i => min m (d.bucketMHz ((d.poolCores p (r + i)).map (· / 64)).eraseDups (r + i))) 1500

/-- A single thread's estimate exceeds what one core can do between its release and its deadline (R231). -/
def Dev.tooLong (d : Dev) (q : Nat × Nat × Nat × Nat) : Bool :=
  q.1 < 128 && (q.2.2.1 - q.2.1) * 125000 * d.poolMHz q.1 q.2.1 q.2.2.1 < q.2.2.2 * 1500

/-- A plan's charges are in order (R231) and fit (R234): BADARG beyond the horizon (R233), OVERLOAD otherwise. -/
def Dev.admission (d : Dev) (atc : Nat) (new : List (Nat × Nat × Nat × Nat)) : Nat :=
  let now := bucketOf atc
  if new.any fun q => now + 256 < q.2.2.1 then stBADARG
  else if new.any fun q => q.2.2.1 ≤ q.2.1 || d.tooLong q then stOVERLOAD
  else if ((new.map (·.1)).eraseDups).all fun a => d.acctFits (d.charges ++ new) a now then stOK
  else stOVERLOAD

end Sys2Proof.Machine
end

