-- ==== Sys2Proof/Machine/Peloton.lean ====
section
/-! DEFINITION. Peloton (chapter 07): thread blocks and their order, the six operations, saddles, switches, deadline
misses, resize and disable, the trace, and the Peloton commands. -/
namespace Sys2Proof.Machine

/-! ### Thread blocks (R204, R206-R208) -/

def tbAddr (t : Nat) : Nat := 0x0202000000 + 256 * t

/-- A field of thread `t`'s block. -/
def Dev.tb (d : Dev) (t off n : Nat) : Nat := readLe d.mem.cells (tbAddr t + off) n

def Dev.setTb (d : Dev) (t off n v : Nat) : Dev := d.putCells (tbAddr t + off) (le n v)

/-- Thread states (R204). -/
def tsFREE : Nat := 0
def tsIDLE : Nat := 1
def tsREADY : Nat := 2
def tsSADDLED : Nat := 3
def tsRUNNING : Nat := 4

def Dev.tState (d : Dev) (t : Nat) : Nat := d.tb t 4 1
def Dev.tPool (d : Dev) (t : Nat) : Nat := d.tb t 2 1 % 64
def Dev.tBand (d : Dev) (t : Nat) : Nat := d.tb t 3 1 % 16
def Dev.tFlag (d : Dev) (t i : Nat) : Bool := bit (d.tb t 6 1) i
def Dev.tDeadline (d : Dev) (t : Nat) : Nat := d.tb t 8 8

def Dev.setState (d : Dev) (t s : Nat) : Dev := d.setTb t 4 1 s

/-- Set or clear bit `i` of FLAGS. -/
def Dev.setFlag (d : Dev) (t i : Nat) (v : Bool) : Dev :=
  let f := d.tb t 6 1
  d.setTb t 6 1 (if v then f ||| 2 ^ i else f - (if bit f i then 2 ^ i else 0))

/-- Add to a Peloton counter of a block: it wraps (R208). -/
def Dev.bump (d : Dev) (t off n by_ : Nat) : Dev := d.setTb t off n ((d.tb t off n + by_) % 256 ^ n)

/-- Threads that are not FREE, ascending: their STATE bytes are listed in the table's memory. -/
def Dev.threads (d : Dev) : List Nat :=
  d.mem.cells.filterMap fun e =>
    if 0x0202000000 ≤ e.1 && e.1 < 0x0203000000 && e.1 % 256 = 4 then some ((e.1 - 0x0202000000) / 256) else none

/-- The lowest FREE thread, if any. -/
def Dev.lowestFree (d : Dev) : Option Nat :=
  let n := d.threads.foldl (fun n t => if t = n then n + 1 else n) 0
  if n < 65536 then some n else none

/-- The key of R206: band, deadline, thread number. -/
def Dev.tKey (d : Dev) (t : Nat) : Nat := d.tBand t * 2 ^ 80 + d.tDeadline t * 2 ^ 16 + t

/-- Threads of pool `p` in a state, in key order. -/
def Dev.inState (d : Dev) (p s : Nat) : List Nat :=
  sortBy (fun a b => d.tKey a ≤ d.tKey b) (d.threads.filter fun t => d.tPool t = p && d.tState t = s)

def Dev.pool (d : Dev) (p : Nat) : Pool := tget {} d.pel.pools p

def Dev.updPool (d : Dev) (p : Nat) (f : Pool → Pool) : Dev :=
  d.updPel fun x => { x with pools := tmod {} x.pools p f }

/-- Cores that belong to pool `p`, ascending. -/
def Dev.members (d : Dev) (p : Nat) : List Nat := (d.cores.core.filter fun e => e.2.pool = some p).map (·.1)

/-! ### Trace (R236, R237) -/

/-- One trace record, where tracing selects the event and the pool. -/
def Dev.trace (c : Clock) (d : Dev) (core thread pool ev detail aux : Nat) : Dev :=
  let p := d.pel
  if p.trcMode = 0 || !bit p.trcEvents ev || !bit p.trcPools pool then d
  else
    let size := 2 ^ p.trcLog
    let d := d.updPel fun x => { x with trcSeq := (x.trcSeq + 1) % 2 ^ 32 }
    if p.trcMode = 1 && (p.trcProd + 2 ^ 32 - p.trcCons) % 2 ^ 32 = size then
      d.updPel fun x => { x with trcDrop := satAdd 32 x.trcDrop 1 }
    else
      let rec_ := pk [(6, c.atc), (2, core), (2, thread), (1, pool), (1, ev), (4, detail), (8, d.tDeadline thread),
                      (4, p.trcSeq), (4, aux)]
      let d := (d.memWrite (p.trcAddr + 32 * (p.trcProd % size)) rec_).2
      d.updPel fun x => { x with trcProd := (x.trcProd + 1) % 2 ^ 32 }

def noCore : Nat := 0xFFFF

/-! ### Operations (R215-R219, R230) -/

/-- Port codes. -/
def pcOK : Nat := 0
def pcABSORBED : Nat := 1
def pcPENDED : Nat := 2
def pcNOTHING : Nat := 3
def pcBADTHREAD : Nat := 4
def pcNOFREE : Nat := 5
def pcDENIED : Nat := 6

/-- Where an operation comes from: 0 a port, 1 Cadence, 2 an engine; with the core, entry or engine number. -/
structure OpSrc where
  kind : Nat
  idx : Nat
  deriving DecidableEq, Repr

/-- Source order within a cycle (R219): Cadence, engines, ports. -/
def OpSrc.rank (s : OpSrc) : Nat := (if s.kind = 1 then 0 else if s.kind = 2 then 1 else 2) * 2 ^ 16 + s.idx

/-- The thread as the cycle found it, and what the cycle has done to it so far. -/
def Dev.cycle (c : Clock) (d : Dev) (t : Nat) : ThreadCycle :=
  match d.pel.cyc.find? fun x => x.t = t && x.atc = c.atc with
  | some x => x
  | none => { t := t, atc := c.atc, st0 := d.tState t, pend0 := d.tFlag t 2, oldDl := d.tDeadline t }

def Dev.setCycle (c : Clock) (d : Dev) (x : ThreadCycle) : Dev :=
  d.updPel fun p => { p with cyc := x :: p.cyc.filter fun y => y.atc = c.atc && y.t != x.t }

/-- A decision moves a thread to another state: operations of the cycle still find the one it had at the start (R216). -/
def Dev.moveState (c : Clock) (d : Dev) (t st : Nat) : Dev := (d.setCycle c (d.cycle c t)).setState t st

/-- An absorbed READY (R216, R236); PEL_OP is a port of no core. -/
def Dev.absorb (c : Clock) (d : Dev) (t : Nat) (s : OpSrc) (disabled : Bool) : Dev :=
  let core := if s.kind = 0 && s.idx < 1024 then s.idx else noCore
  (d.bump t 60 4 1).trace c core t (d.tPool t) 5 (if disabled then 3 else s.kind) (if s.kind = 0 then core else s.idx)

/-- The code of an earlier operation of the cycle becomes another one. -/
def Dev.recode (d : Dev) (s : OpSrc) (code : Nat) : Dev :=
  if s.kind = 0 && s.idx < 1024 then d.updCore s.idx fun k => { k with portCode := code } else d

/-- A release: the thread enters its pool's ready list, and may miss again (R226). -/
def Dev.release (d : Dev) (t : Nat) : Dev :=
  (d.setState t tsREADY).updPel fun p => { p with missed := p.missed.erase t, runAt := tset 0 p.runAt t 0 }

/-- A deadline value of the cycle: the last in source order stands (R219). -/
def Dev.offerDeadline (c : Clock) (d : Dev) (t : Nat) (s : OpSrc) (dl : Option Nat) : Dev :=
  match dl with
  | none => d
  | some v =>
    let x := d.cycle c t
    if x.rank ≤ s.rank then (d.setTb t 8 8 v).setCycle c { x with rank := s.rank } else d

/-- The deadline of a READY for a running thread, for PENDDL: the last in source order stands, and the current deadline where
none is given (R216, R219). -/
def Dev.offerPend (c : Clock) (d : Dev) (t : Nat) (s : OpSrc) (dl : Option Nat) : Dev :=
  let x := d.cycle c t
  match dl with
  | some v =>
    if x.pendRank.all (· ≤ s.rank) then (d.setTb t 16 8 v).setCycle c { x with pendRank := some s.rank } else d
  | none => if x.pendRank.isNone then d.setTb t 16 8 (d.tDeadline t) else d

/-- The transition of the first READY of a cycle, of a thread found IDLE or RUNNING without PEND (R216). A running thread that
has become IDLE since is released as its BLOCK would. -/
def Dev.readyMove (d : Dev) (t st : Nat) : Dev :=
  if st = tsIDLE then d.release t
  else if d.tState t = tsIDLE then (d.setTb t 8 8 (d.tb t 16 8)).release t
  else d.setFlag t 2 true

/-- READY (R216, R219, R230), by the state at the start of the cycle. -/
def Dev.opReady (c : Clock) (d : Dev) (t : Nat) (dl : Option Nat) (s : OpSrc) : Nat × Dev :=
  let x := d.cycle c t
  let st := x.st0
  let offer := fun (d : Dev) => if st = tsRUNNING then (if x.pend0 then d else d.offerPend c t s dl) else d.offerDeadline c t s dl
  let code := if st = tsIDLE then pcOK else pcPENDED
  if st = tsFREE then (pcBADTHREAD, d)
  else if x.cancelled then (pcABSORBED, d.absorb c t s false)
  else if (d.pool (d.tPool t)).dis != .on then
    (pcABSORBED, (if st = tsRUNNING then d else d.offerDeadline c t s dl).absorb c t s true)
  else if st = tsREADY || st = tsSADDLED || (st = tsRUNNING && x.pend0) then (pcABSORBED, (offer d).absorb c t s false)
  else
    let d := offer d
    let mine := fun (d : Dev) => d.setCycle c { d.cycle c t with ready := some (s.kind, s.idx) }
    match x.ready with
    | none => (code, mine ((d.setCycle c (d.cycle c t)).readyMove t st))
    | some r =>
      let r : OpSrc := ⟨r.1, r.2⟩
      if s.rank < r.rank then (code, ((mine d).absorb c t r false).recode r pcABSORBED)
      else (pcABSORBED, d.absorb c t s false)

/-- SETDL (R216, R219). -/
def Dev.opSetdl (c : Clock) (d : Dev) (t dl : Nat) (s : OpSrc) : Nat × Dev :=
  let x := d.cycle c t
  if x.st0 = tsFREE then (pcBADTHREAD, d)
  else if x.cancelled then (pcNOTHING, d)
  else
    let d := d.offerDeadline c t s (some dl)
    let d := d.setCycle c { d.cycle c t with setdls := x.setdls ++ [(s.kind, s.idx)] }
    (pcOK, if x.st0 = tsRUNNING && x.ready.isSome then d.offerPend c t s none else d)

/-- The core on which `t` runs, is saddled or loading, or is being written back. -/
def Dev.coreOf (d : Dev) (t : Nat) : Option Nat :=
  (d.cores.core.find? fun e => e.2.thread = some t || e.2.saddle = .full t || e.2.saddle = .loading t ||
    e.2.wb.any fun w => w.1 = t).map (·.1)

/-- A thread whose context is discarded, or that went idle, no longer holds an old context (R578). -/
def Dev.forgetOld (d : Dev) (t : Nat) : Dev :=
  d.updPool (d.tPool t) fun y => { y with swap := y.swap.map fun s => { s with old := s.old.erase t } }

/-- A saddle that holds `t` is emptied. -/
def Dev.emptySaddle (d : Dev) (t : Nat) : Dev :=
  match d.coreOf t with
  | some n => d.updCore n fun k => if k.saddle = .full t || k.saddle = .loading t then { k with saddle := .empty } else k
  | none => d

/-- Take `t` out of whatever holds it, its context discarded: a running thread leaves at the next boundary R127
allows; a switched-out one becomes IDLE when its write-back is answered (R216, R221, R223). `why` is the detail of
the trace record. -/
def Dev.drop (c : Clock) (d : Dev) (t why : Nat) : Dev :=
  let d := ((d.setFlag t 2 false).setFlag t 3 true).forgetOld t
  let d := d.trace c ((d.coreOf t).getD noCore) t (d.tPool t) 4 why 0
  match d.coreOf t with
  | some n =>
    let k := d.core n
    if k.thread = some t then d.setCore n { k with leave := .cancel why }
    else if k.wb.any fun w => w.1 = t then
      d.setCore n { k with wb := k.wb.map fun w => if w.1 = t then (t, 0, w.2.2) else w }
    else (d.emptySaddle t).moveState c t tsIDLE
  | none => d.moveState c t tsIDLE

/-- CANCEL (R216, R219): a READY of the cycle is absorbed and undone, a deadline of the cycle discarded. Its own code and
effect are those of the state at the start of the cycle. -/
def Dev.opCancel (c : Clock) (d : Dev) (t why : Nat) : Nat × Dev :=
  let x := d.cycle c t
  let code := if x.st0 = tsFREE then pcBADTHREAD else if x.st0 = tsIDLE then pcNOTHING else pcOK
  if x.st0 = tsFREE || x.cancelled then (code, d)
  else
    let d := d.setTb t 8 8 x.oldDl
    let d := match x.ready with
      | some r => (d.absorb c t ⟨r.1, r.2⟩ false).recode ⟨r.1, r.2⟩ pcABSORBED
      | none => d
    let d := x.setdls.foldl (fun d r => d.recode ⟨r.1, r.2⟩ pcNOTHING) d
    let d := d.setCycle c { x with cancelled := true, ready := none }
    (code, if x.st0 = tsIDLE then (d.emptySaddle t).setState t tsIDLE else d.drop c t why)

/-- SPAWN (R217): definition fields, arguments, deadline and RESTART. -/
def Dev.opSpawn (c : Clock) (d : Dev) (tpl : Nat) (dl : Option Nat) (a0 a1 : Nat) (s : OpSrc) : Nat × Nat × Dev :=
  if d.tState tpl = tsFREE then (pcBADTHREAD, 0, d)
  else match d.lowestFree with
    | none => (pcNOFREE, 0, d)
    | some n =>
      let cp := fun (d : Dev) (off len : Nat) => d.setTb n off len (d.tb tpl off len)
      let d := (d.setCycle c (d.cycle c n)).setTb n 0 2 n
      let d := cp (cp (cp (cp d 2 2) 5 1) 7 1) 24 6
      let d := cp (cp (cp d 32 4) 44 4) 128 128
      let d := d.setTb n 6 1 (d.tb tpl 6 1 % 4 + 8)
      let d := ((d.setTb n 36 4 a0).setTb n 40 4 a1).setTb n 8 8 (dl.getD (d.tDeadline tpl))
      if (d.pool (d.tPool n)).dis != .on then (pcABSORBED, n, (d.setState n tsIDLE).absorb c n s true)
      else (pcOK, n, d.release n)

/-- `a` precedes `b` (R206). -/
def Dev.precedes (d : Dev) (a b : Nat) : Bool := d.tKey a < d.tKey b

/-- BLOCK and YIELD act on the running thread of core `n` (R216, R220). A YIELD is also the preemption point at which a thread
with VEC or TRAPPRE follows a prompt resize (R221, R228). -/
def Dev.opBlock (d : Dev) (n : Nat) (reset : Bool) : Nat × Dev :=
  let k := d.core n
  match k.thread with
  | none => (pcNOTHING, d)
  | some t =>
    let d := if reset then d.setFlag t 3 true else d
    (pcOK, d.setCore n { k with leave := match k.leave with | .cancel w => .cancel w | _ => .block })

def Dev.opYield (d : Dev) (n : Nat) : Nat × Dev :=
  let k := d.core n
  match k.thread with
  | none => (pcNOTHING, d)
  | some t =>
    let before := match k.saddle with
      | .full u => d.precedes u t
      | _ => false
    (pcOK, if k.leave != .stay then d
      else if before then d.setCore n { k with leave := .yield }
      else if k.leaving = some true then d.setCore n { k with leave := .preempt }
      else d)

/-- One operation of port `n` with privilege `priv` (R215): code and new thread. -/
def Dev.portOperation (c : Clock) (d : Dev) (n priv op : Nat) (flag : Bool) (t dl a0 a1 : Nat) : Nat × Nat × Dev :=
  let s : OpSrc := ⟨0, n⟩
  let own := (d.core n).pool
  let denied := priv = 0 && d.tState t != tsFREE && own != some (d.tPool t)
  let dl? := if flag then some dl else none
  let two := fun (r : Nat × Dev) => (r.1, 0, r.2)
  if op = 3 then two (d.opBlock n flag)
  else if op = 4 then two (d.opYield n)
  else if op = 0 || 7 ≤ op then (pcBADTHREAD, 0, d)
  else if denied then (pcDENIED, 0, d)
  else if op = 1 then two (d.opReady c t dl? s)
  else if op = 2 then two (d.opCancel c t 0)
  else if op = 5 then d.opSpawn c t dl? a0 a1 s
  else two (d.opSetdl c t dl s)

/-- An OPCODE write to port `n` (R214): applied, with DONE back at 1 within the bound. -/
def Dev.portWrite (c : Clock) (d : Dev) (n priv op : Nat) (flag : Bool) (t : Nat) : Dev :=
  let k := d.core n
  if !k.portDone then d
  else
    let r := d.portOperation c n priv op flag t k.argDl k.arg0 k.arg1
    r.2.2.updCore n fun k => { k with portCode := r.1, portNew := r.2.1, portDone := true }

/-- The command form of a port operation: the core's own OPCODE write, its write buffer drained before (R214). -/
def Dev.ownPort (c : Clock) (d : Dev) (n op : Nat) (flag : Bool) (t : Nat) : Dev :=
  if n < 1024 && (d.core n).wbuf.isEmpty then d.portWrite c n (d.core n).priv op flag t else d

def execReady (port : Nat) (flag : Bool) (thread : Nat) : State → Out := onDev fun c d => d.ownPort c port 1 flag thread
def execCancel (port thread : Nat) : State → Out := onDev fun c d => d.ownPort c port 2 false thread
def execBlock (port : Nat) (reset : Bool) : State → Out := onDev fun c d => d.ownPort c port 3 reset 0
def execYield (port : Nat) : State → Out := onDev fun c d => d.ownPort c port 4 false 0
def execSpawn (port : Nat) (flag : Bool) (thread : Nat) : State → Out := onDev fun c d => d.ownPort c port 5 flag thread
def execSetdl (port thread : Nat) : State → Out := onDev fun c d => d.ownPort c port 6 false thread

/-! ### Saddles (R209, R220, R223, R224) -/

/-- The frame that is the saddle of a core: 0 F0, 1 F1. -/
def Core.saddleFrame (k : Core) : Nat := if k.seat1 then 0 else 1
def Core.seatFrame (k : Core) : Nat := k.seat1.toNat
def frameKey (id frame : Nat) : Nat := ldmKey id (0x3E000 + 0x1000 * frame)

/-- The core takes saddle loads: in the pool, not leaving, able to run, awake. -/
def Dev.takesSaddle (d : Dev) (n : Nat) : Bool :=
  let k := d.core n
  k.leaving.isNone && (k.st = .idle || k.st = .running) && !k.bist && k.imgSlot != 0xFF && d.awake (n / 64) && !d.asked (n / 64)

/-- The saddle is empty and its frame free of a write-back (R223). -/
def Core.saddleFree (k : Core) : Bool := k.saddle = .empty && k.wb.all fun w => w.2.2 != k.saddleFrame

/-- During an image swap a thread with an old context goes only to cores that still run the old image (R578). -/
def Dev.suits (d : Dev) (p t n : Nat) : Bool :=
  match (d.pool p).swap with
  | some s => !(s.old.contains t) || !(s.done.contains n)
  | none => true

/-- The core whose held thread comes last in key order, ties to the lower core. -/
def Dev.lastByKey (d : Dev) (l : List (Nat × Nat)) : Option (Nat × Nat) :=
  l.foldl (fun b x => match b with
    | none => some x
    | some y => if d.tKey y.2 < d.tKey x.2 then some x else some y) none

/-- The core R220 chooses for `t`, with the thread it displaces, if any. -/
def Dev.saddleTarget (d : Dev) (p t : Nat) : Option (Nat × Option Nat) :=
  let cs := (d.members p).filter fun n => d.takesSaddle n && d.suits p t n
  let open_ := cs.filter fun n => (d.core n).saddleFree
  match open_.find? fun n => (d.core n).thread.isNone with
  | some n => some (n, none)
  | none =>
    match d.lastByKey (open_.filterMap fun n => (d.core n).thread.map fun u => (n, u)) with
    | some x => some (x.1, none)
    | none =>
      if cs.any fun n => (d.core n).saddle = .empty then none
      else match d.lastByKey (cs.filterMap fun n => match (d.core n).saddle with
          | .full u => some (n, u)
          | .loading u => some (n, u)
          | .empty => none) with
      | some x => if d.precedes t x.2 then some (x.1, some x.2) else none
      | none => none

/-- Peloton picks the first READY thread that can have a saddle, and its saddle load begins (R220). -/
def execSaddleLoad (pool : Nat) : State → Out := onDev fun c d =>
  match (d.inState pool tsREADY).findSome? fun t => (d.saddleTarget pool t).map fun x => (t, x) with
  | none => d
  | some (t, n, old) =>
    let d := match old with
      | some u => d.moveState c u tsREADY
      | none => d
    let d := (d.moveState c t tsSADDLED).updCore n fun k => { k with saddle := .loading t }
    d.trace c n t pool 7 old.isSome.toNat (old.getD 0xFFFF)

/-- The bytes a Peloton access finds at a device address: none where memory is absent or asleep. -/
def Dev.reachable (d : Dev) (a : Nat) : Bool :=
  match regionOf a with
  | .cluster _ => (memDomain a).all d.awake
  | .dram => (memDomain a).all d.awake
  | .sram => true
  | _ => false

/-- The thread block and the context have been read into the saddle frame (R209); marked data, or memory that does not
answer, leaves the thread IDLE with RESTART (R376). -/
def execSaddleLoadComplete (core : Nat) : State → Out := onDev fun c d =>
  match (d.core core).saddle with
  | .loading t =>
    let b := d.memRead c (tbAddr t) 256 rqSaddle core
    let home := d.tb t 24 6
    let x := b.2.2.memRead c home 2048 rqSaddle core
    let d := x.2.2
    if b.2.1 || x.2.1 || !d.reachable home then d.drop c t 2
    else
      let f := (d.core core).saddleFrame
      let d := (d.memWrite (frameKey core f) (b.1 ++ x.1)).2
      d.updCore core fun k => { k with saddle := .full t }
  | _ => d

/-! ### Contexts (R210, R213) -/

/-- The register part of a context, 768 bytes (R210). -/
def Core.contextBytes (k : Core) : List Byte :=
  let n := List.range
  ((n 64).flatMap fun i => le 4 (if i = 0 then 0 else (tget 0 k.s i).toNat)) ++
  ((n 16).flatMap fun i => le 8 (tget 0 k.p i)) ++
  ((n 16).flatMap fun i => le 4 (tget 0 k.m i).toNat) ++
  ((n 8).flatMap fun i => let a := tget (0, 0) k.a i; le 8 (uns 64 a.1) ++ le 8 (uns 64 a.2)) ++
  pk [(4, k.q.toNat), (4, k.rrb), (4, k.scl.toNat), (4, k.pc), (4, k.status false), (4, k.vcfg.toNat), (4, k.vl),
      (4, k.vstart), (4, k.vstat.toNat), (4, k.copstat.toNat), (4, k.k.epc.toNat), (4, k.k.status.toNat), (4, k.k.rrb),
      (4, k.k.scratch.toNat), (4, k.repmax), (4, 0)] ++
  ((n 4).flatMap fun i => le 8 (tget 0 k.cbase i)) ++
  ((n 4).flatMap fun i => le 4 (tget 0 k.clen i)) ++ List.replicate 80 0

/-- A table of the numbers in `n` fields of `w` bytes from `off` on. -/
def fieldsTab {α : Type} [DecidableEq α] (z : α) (f : Nat → α) (bs : List Byte) (off w n : Nat) : Tab α :=
  (List.range n).foldl (fun m i => tset z m i (f (fieldAt bs (off + w * i) w))) []

/-- Registers a switch does not touch stay those of `k` (R211); what it clears is the issue state. -/
def Core.cleared (k : Core) : Core :=
  { k with s := [], p := [], m := [], a := [], q := 1, rrb := 0, scl := 0, pc := 0, vcfg := 0, vl := 0, vstart := 0
           vstat := 0, copstat := 0, k := { k.k with epc := 0, status := 0, rrb := 0, scratch := 0 }
           repmax := 1024, cbase := [], clen := []
           te := true, ie := true, priv := 0, rep := {}, repEnd := false, ds := none, fly := [], vop := none
           growBy := [], stalled := none, copWait := false, waiting := false, lost := true }

/-- The registers as a context holds them. -/
def Core.fromContext (k : Core) (b : List Byte) : Core :=
  let k := k.cleared
  let w := fun off => BitVec.ofNat 32 (fieldAt b off 4)
  let st := fieldAt b 0x250 4
  let acc := (List.range 8).foldl (fun m i => tset (0, 0) m i
    (sgn 40 (fieldAt b (0x1C0 + 16 * i) 8), sgn 40 (fieldAt b (0x1C8 + 16 * i) 8))) ([] : Tab (Int × Int))
  { k with
    s := tdel (fieldsTab 0 (BitVec.ofNat 32) b 0 4 64) 0, p := fieldsTab 0 (· % 2 ^ 48) b 0x100 8 16
    m := fieldsTab 0 (BitVec.ofNat 32) b 0x180 4 16, a := acc
    q := BitVec.ofNat 16 (fieldAt b 0x240 4) ||| 1, rrb := fieldAt b 0x244 4 % 32, scl := w 0x248
    growBy := if sclGrow (w 0x248) then [0] else []
    pc := fieldAt b 0x24C 4, te := bit st 3, ie := bit st 2, priv := st % 4
    vcfg := w 0x254, vl := fieldAt b 0x258 4, vstart := fieldAt b 0x25C 4, vstat := w 0x260, copstat := w 0x264
    k := { k.k with epc := w 0x268, status := w 0x26C, rrb := fieldAt b 0x270 4 % 32, scratch := w 0x274 }
    repmax := fieldAt b 0x278 4, cbase := fieldsTab 0 (· % 2 ^ 48) b 0x280 8 4, clen := fieldsTab 0 id b 0x2A0 4 4 }

/-- A fresh start (R213). -/
def Core.fresh (k : Core) (t entry a0 a1 : Nat) : Core :=
  let k := k.cleared
  { k with pc := entry
           s := tset 0 (tset 0 (tset 0 [] 1 (BitVec.ofNat 32 a0)) 2 (BitVec.ofNat 32 a1)) 3 (BitVec.ofNat 32 t) }

/-! ### Switches and preemption (R220-R225) -/

/-- Nanoseconds of a span of Tc, rounded down. -/
def tcToNs (n : Nat) : Nat := n * 3125 / 6144

/-- Peloton requests preemption of core `n` (R220), or a prompt resize does (R228). -/
def Dev.preReq (d : Dev) (n : Nat) : Bool :=
  let k := d.core n
  match k.thread with
  | none => false
  | some t =>
    k.leaving = some true ||
    match k.saddle with
    | .full u => d.tBand u < d.tBand t ||
        ((k.pool.any fun p => (d.pool p).edfp) && d.tBand u = d.tBand t && d.tDeadline u < d.tDeadline t)
    | _ => false

/-- The running thread of core `n` leaves now, if it is at a switch point (R221). -/
def Dev.leaving (d : Dev) (n : Nat) : Leave :=
  let k := d.core n
  if !k.boundary then .stay
  else match k.leave with
    | .stay =>
      match k.thread with
      | some t => if d.preReq n && !d.tFlag t 0 && !d.tFlag t 1 then .preempt else .stay
      | none => .stay
    | l => l

/-- A leaving core that holds nothing any more becomes unassigned and stops (R228). -/
def Dev.settle (c : Clock) (d : Dev) (n : Nat) : Dev :=
  let k := d.core n
  match k.pool with
  | some p =>
    if k.leaving.isSome && k.thread.isNone && k.wb.isEmpty && k.saddle = .empty then
      let d := d.setCore n { k with pool := none, leaving := none, st := if k.st = .running then .idle else k.st }
      d.trace c n 0xFFFF p 8 1 (d.members p).length
    else d
  | none => d

/-- The outgoing thread leaves core `n` (R220-R223): its registers go to the seat frame and a write-back starts, or its
context is discarded. -/
def Dev.leaveThread (c : Clock) (d : Dev) (n t : Nat) (l : Leave) : Dev :=
  let k := (d.core n).settled.drained n c
  let ran := tcToNs (c.atc - k.dispAt)
  let d := d.bump t 48 8 ran
  let total := tget 0 d.pel.runAt t + ran
  let d := d.updPel fun p => { p with runAt := tset 0 p.runAt t total }
  let off : Core := { k with thread := none, leave := .stay, preTaken := false, stalled := none, waiting := false }
  let f := k.seatFrame
  let save := fun (d : Dev) (next : Nat) =>
    let d := (d.memWrite (frameKey n f + 0x100) k.contextBytes).2
    d.setCore n { off with wb := k.wb ++ [(t, next, f)] }
  let p := d.tPool t
  match l with
  | .stay => d
  | .block => save (d.trace c n t p 3 (d.tFlag t 2).toNat total) 1
  | .yield => save d 2
  | .preempt =>
    let by_ := match k.saddle with
      | .full u => u
      | _ => 0xFFFF
    save (d.trace c n t p 2 by_ 0) 2
  | .cancel _ =>
    (d.setCore n off).moveState c t tsIDLE

/-- The saddled thread of core `n` starts (R213, R220, R222). `warm` says that a thread left in the same switch. -/
def Dev.startThread (c : Clock) (d : Dev) (n u : Nat) (warm : Bool) : Dev :=
  let k := (d.core n).drained n c
  let f := k.saddleFrame
  let p := d.tPool u
  let newImage := match (d.pool p).swap with
    | some s => s.done.contains n && !s.fresh.contains u && !s.old.contains u
    | none => false
  let fr := d.tFlag u 3 || newImage
  let x := d.cellBytes (frameKey n f) 2304
  let k' := if fr then k.fresh u (d.tb u 32 4) (d.tb u 36 4) (d.tb u 40 4) else k.fromContext (x.drop 256)
  let d := d.setCore n
    { k' with st := .running, thread := some u, dispAt := c.atc, leave := .stay, preTaken := false, saddle := .empty
              seat1 := f = 1, switches := satAdd 32 k.switches 1 }
  let d := if newImage then
      d.updPool p fun y => { y with swap := y.swap.map fun s => { s with fresh := s.fresh ++ [u] } } else d
  let d := ((((d.setFlag u 3 false).moveState c u tsRUNNING).bump u 64 4 1).setTb u 68 8 c.atc)
  let cyc := if warm then (40, d) else let r := draw d; (40 + r.1, r.2)
  cyc.2.trace c n u p 1 (if fr then 2 else if warm then 0 else 1) cyc.1

/-- A switch of core `n` (R220, R221, R225): the thread that has to leave leaves, and the saddled one starts. -/
def execThreadSwitch (core : Nat) : State → Out := onDev fun c d =>
  let k := d.core core
  if (k.st != .running && k.st != .idle) || k.bist || !d.awake (core / 64) then d
  else
    match k.thread with
    | some t =>
      match d.leaving core with
      | .stay => d
      | l =>
        let d := d.leaveThread c core t l
        match (d.core core).saddle with
        | .full u => d.startThread c core u true
        | _ => (d.updCore core fun k => { k with st := .idle }).settle c core
    | none =>
      match k.saddle with
      | .full u => if k.boundary then d.startThread c core u false else d
      | _ => d.settle c core

/-- What a switched-out thread becomes once its write-back is answered (R216, R223). -/
def Dev.afterWriteback (c : Clock) (d : Dev) (t next : Nat) : Dev :=
  let d := d.setCycle c (d.cycle c t)
  if next = 2 then d.setState t tsREADY
  else if next = 1 && d.tFlag t 2 then ((d.setFlag t 2 false).setTb t 8 8 (d.tb t 16 8)).release t
  else
    ((d.setState t tsIDLE).setFlag t 2 false).forgetOld t

/-- The oldest write-back of a core has been answered (R223). -/
def execWritebackDone (core : Nat) : State → Out := onDev fun c d =>
  match (d.core core).wb with
  | [] => d
  | (t, next, f) :: rest =>
    let home := d.tb t 24 6
    let bs := d.cellBytes (frameKey core f + 0x100) 2048
    let d := if d.reachable home then (d.memWrite home bs).2 else d.trouble 35 trbFABRIC
    ((d.updCore core fun k => { k with wb := rest }).afterWriteback c t next).settle c core

/-! ### Deadline misses (R226) -/

/-- The thread has issued its BLOCK, or has been stopped: it leaves, or its context is being written back (R219). -/
def Dev.ending (d : Dev) (t : Nat) : Bool :=
  match d.coreOf t with
  | some n =>
    let k := d.core n
    (k.thread = some t && match k.leave with
      | .block => true
      | .cancel _ => true
      | _ => false) || k.wb.any fun w => w.1 = t && w.2.1 != 2
  | none => false

/-- ATC has reached the deadline of a thread that is READY, SADDLED or RUNNING and has not ended its release: at most one miss a
release. The check follows the operations of its cycle (R219). -/
def execDeadlineMiss (thread : Nat) : State → Out := onDev fun c d =>
  let st := d.tState thread
  if st < tsREADY || c.atc < d.tDeadline thread || d.pel.missed.contains thread || d.ending thread then d
  else
    let p := d.tPool thread
    let pol := d.tb thread 5 1
    let d := d.updPel fun x => { x with missed := x.missed ++ [thread] }
    let d := ((d.bump thread 56 4 1).updPool p fun y => { y with misses := satAdd 32 y.misses 1 }).trouble 35 trbTIMING
    let d := d.trace c ((d.coreOf thread).getD noCore) thread p 6 pol st
    if pol = 1 then d.drop c thread 1
    else if pol = 2 then
      (d.setTb thread 3 1 (d.tb thread 7 1 % 16)).evt0 c 0x0380 0 [(0, 2, thread), (2, 1, p), (8, 8, d.tDeadline thread)]
    else d

/-! ### Resize, halt, disable (R227-R230) -/

/-- The saddled thread of a core returns to READY (R228). -/
def Dev.unsaddle (c : Clock) (d : Dev) (n : Nat) : Dev :=
  let k := d.core n
  match k.saddle with
  | .full t => (d.setCore n { k with saddle := .empty }).moveState c t tsREADY
  | .loading t => (d.setCore n { k with saddle := .empty }).moveState c t tsREADY
  | .empty => d

/-- Core `n` begins to leave its pool. -/
def Dev.beginLeave (c : Clock) (d : Dev) (n : Nat) (prompt : Bool) : Dev :=
  ((d.updCore n fun k => { k with leaving := some prompt }).unsaddle c n).settle c n

/-- POOL_SHORT where admitted demand exceeds the capacity that is left (R229). -/
def Dev.poolShort (c : Clock) (d : Dev) (p : Nat) : Dev :=
  match d.acctShort p (bucketOf c.atc) with
  | some k => d.evt0 c 0x0383 0 [(0, 1, p), (8, 8, k)]
  | none => d

/-- A core is lost to its pool, halted or retired (R151, R229): it leaves as in a prompt resize, but its running thread is
cancelled, and the ledger loses its capacity at once. -/
def Dev.loseCore (c : Clock) (d : Dev) (n : Nat) : Dev :=
  let d := d.unsaddle c n
  let d := match (d.core n).thread with
    | some t =>
      let d := ((((d.setFlag t 2 false).setFlag t 3 true).moveState c t tsIDLE).forgetOld t).trace c n t (d.tPool t) 4 3 0
      d.updCore n fun k => { k with thread := none, leave := .stay }
    | none => d
  match (d.core n).pool with
  | some p => ((d.updCore n fun k => { k with leaving := some true, leftPool := some p }).settle c n).poolShort c p
  | none => d

/-- A core is retired (R381, R385): reported, logged, and lost to its pool. -/
def Dev.retireCore (c : Clock) (d : Dev) (n : Nat) : Dev :=
  if (d.core n).st = .retired then d
  else
    let d := d.updCore n fun k => { k with st := .retired, stalled := none, waiting := false }
    (d.loseCore c n).evtLog c 0 0 0x0E93 0 (n / 64) trbRETIRED [(0, 1, 0), (8, 8, n)]

/-- A core's built-in self-test begins and ends: the core issues nothing meanwhile (R382). -/
def Dev.startBist (d : Dev) (n : Nat) : Dev := d.updCore n fun k => { k with bist := true }
def Dev.endBist (d : Dev) (n : Nat) : Dev := d.updCore n fun k => { k with bist := false }

/-- PEL_RESIZE (R227, R228, R232). -/
def execPelResize (r : Req) (pool prompt mask : Nat) : State → Out := onDev <| serve 0x0302 r fun x d =>
  if 64 ≤ pool then (rBad 0, d)
  else
    let want := ones 1024 mask
    let have_ := d.members pool
    let join := want.filter fun n => !have_.contains n
    let leave := have_.filter fun n => !want.contains n
    if (d.pool pool).resize.isSome || join.any (fun n => (d.core n).pool.isSome) then (rSt stBUSY, d)
    else
      let now := bucketOf x.clk.atc
      let joined := ((d.pool pool).joined.filter fun j => now + 2 < j.2 + 3) ++ join.map fun n => (n, now + 2)
      let d' := leave.foldl (fun d n => d.updCore n fun k => { k with leaving := some (prompt != 0) }) d
      let d' := join.foldl (fun d n => d.updCore n fun k => { k with pool := some pool })
        (d'.updPool pool fun y => { y with joined := joined })
      if !d'.acctFits d.charges pool now then (rSt stOVERLOAD, d)
      else
        let d := d.updPool pool fun y =>
          { y with resize := some x.tag, joined := joined }
        let img := (d.pool pool).image
        let d := join.foldl (fun d n =>
          let d := d.updCore n fun k => { k with pool := some pool }
          let d := if img != 0xFF && (d.core n).st = .idle then d.startCore n img else d
          d.trace x.clk n 0xFFFF pool 8 0 (d.members pool).length) d
        (rAcc, leave.foldl (fun d n => d.beginLeave x.clk n (prompt != 0)) d)

/-- Every leaving core is unassigned (R228). -/
def execResizeDone (pool : Nat) : State → Out := onDev fun c d =>
  match (d.pool pool).resize with
  | none => d
  | some tag =>
    let cs := d.members pool
    if cs.any fun n => (d.core n).leaving.isSome then d
    else (d.updPool pool fun y => { y with resize := none }).evt0 c 0x0381 tag [(0, 1, pool), (2, 2, cs.length)]

/-- Disable a pool (R230): PEND is dropped; ABORT stops every thread of the pool. -/
def Dev.disablePool (c : Clock) (d : Dev) (p : Nat) (abort : Bool) (tag : Nat) : Dev :=
  let d := d.updPool p fun y => { y with dis := .ending abort c.atc tag }
  let mine := d.threads.filter fun t => d.tPool t = p
  let d := mine.foldl (fun d t => d.setFlag t 2 false) d
  if abort then (mine.filter fun t => tsREADY ≤ d.tState t).foldl (fun d t => d.drop c t 2) d else d

def execPelPoolDisable (r : Req) (pool mode : Nat) : State → Out := onDev <| serve 0x0307 r fun x d =>
  if 64 ≤ pool then (rBad 0, d)
  else if 1 < mode then (rBad 1, d)
  else match (d.pool pool).dis with
    | .ending _ _ _ => (rSt stBUSY, d)
    | _ => (rAcc, d.disablePool x.clk pool (mode = 1) x.tag)

/-- No thread of a disabled pool is READY, SADDLED or RUNNING any more (R230). -/
def execPoolDisabled (pool : Nat) : State → Out := onDev fun c d =>
  match (d.pool pool).dis with
  | .ending abort _ tag =>
    if d.threads.any fun t => d.tPool t = pool && tsREADY ≤ d.tState t then d
    else (d.updPool pool fun y => { y with dis := .disabled }).evt0 c 0x0382 tag [(0, 1, pool), (1, 1, abort.toNat)]
  | _ => d

def execPelPoolEnable (r : Req) (pool : Nat) : State → Out := onDev <| serve 0x0308 r fun _ d =>
  if 64 ≤ pool then (rBad 0, d)
  else match (d.pool pool).dis with
    | .ending _ _ _ => (rSt stBADSTATE, d)
    | _ => (rOk, d.updPool pool fun y => { y with dis := .on })

/-! ### The other commands (R238) -/

def execPelPoolConfig (r : Req) (pool edfp cap : Nat) : State → Out := onDev <| serve 0x0301 r fun _ d =>
  if 64 ≤ pool then (rBad 0, d)
  else if cap < 50 || 100 < cap then (rBad 2, d)
  else (rOk, d.updPool pool fun y => { y with edfp := edfp != 0, cap := cap })

/-- PEL_THREAD_SET: the definition fields of R208; the thread starts fresh (R213). -/
def execPelThreadSet (r : Req) (thread pool band misspol flags escband ctxHome entry arg0 arg1 est user : Nat) :
    State → Out := onDev <| serve 0x0303 r fun _ d =>
  if 64 ≤ pool then (rBad 2, d)
  else if 16 ≤ band then (rBad 3, d)
  else if 2 < misspol then (rBad 4, d)
  else if 4 ≤ flags then (rBad 5, d)
  else if 16 ≤ escband then (rBad 6, d)
  else if ctxHome % 64 != 0 then (rBad 7, d)
  else if tsIDLE < d.tState thread then (rSt stBUSY, d)
  else
    (rOk, [(0, 2, thread), (2, 1, pool), (3, 1, band), (4, 1, tsIDLE), (5, 1, misspol), (6, 1, flags + 8), (7, 1, escband),
      (24, 6, ctxHome), (32, 4, entry), (36, 4, arg0), (40, 4, arg1), (44, 4, est), (128, 128, user)].foldl
        (fun d f => d.setTb thread f.1 f.2.1 f.2.2) d)

def execPelThreadFree (r : Req) (thread : Nat) : State → Out := onDev <| serve 0x0304 r fun _ d =>
  if d.tState thread != tsIDLE then (rSt stBUSY, d) else (rOk, d.setState thread tsFREE)

def execPelThreadGet (r : Req) (thread : Nat) : State → Out := onDev <| serve 0x0305 r <| noFx fun _ d =>
  { status := stOK, payload := readBytes d.mem.cells (tbAddr thread) 128 }

/-- PEL_OP: a port operation of no core, with the rights of K. -/
def execPelOp (r : Req) (op flag thread deadline arg0 arg1 : Nat) : State → Out := onDev <| serve 0x0306 r fun x d =>
  let o := if op = 3 || op = 4 then (pcNOTHING, 0, d)
    else d.portOperation x.clk 1024 1 op (flag != 0) thread deadline arg0 arg1
  (rOk [(1, o.1), (2, o.2.1)], o.2.2)

/-- Per bucket: its capacity and the charges that lie in it alone; the miss count at the end. A class has no miss count
of the manual's: a free value stands there. -/
def execPelLedgerGet (r : Req) (pool first count : Nat) : State → Out := onDev <| serve 0x0309 r fun _ d =>
  if !(pool < 64 || (128 ≤ pool && pool < 132)) then (rBad 0, d)
  else if count = 0 || 24 < count then (rBad 9, d)
  else
    let sat := fun v => min v (2 ^ 32 - 1)
    let m := if pool < 64 then ((d.pool pool).misses, d) else let f := draw d; (f.1 % 2 ^ 32, f.2)
    (rOk (((List.range count).flatMap fun i =>
      let k := first + i
      let dem := (d.charges.filter fun q => q.1 = pool && q.2.1 = k && q.2.2.1 = k + 1).foldl (fun s q => s + q.2.2.2) 0
      [(4, sat (d.acctCap pool k)), (4, sat dem)]) ++ [(4, sat m.1)]), m.2)

def execPelTraceSet (r : Req) (addr log2 mode events pools : Nat) : State → Out := onDev <| serve 0x030A r fun _ d =>
  if addr % 4096 != 0 then (rBad 0, d)
  else if log2 < 8 || 24 < log2 then (rBad 8, d)
  else if 2 < mode then (rBad 9, d)
  else if d.pel.trcMode != 0 && mode != 0 then (rSt stBUSY, d)
  else if mode = 0 then (rOk, d.updPel fun p => { p with trcMode := 0 })
  else (rOk, d.updPel fun p =>
    { p with trcAddr := addr, trcLog := log2, trcMode := mode, trcEvents := events, trcPools := pools })

end Sys2Proof.Machine
end

