-- ==== Sys2Proof/Machine/Engine.lean ====
section
/-! DEFINITION. The baseband engines (chapter 08): rings, descriptors and their checks, the course of a job, HARQ
partitions, DRAIN and ABORT, and the engines' commands. What a job computes is in Coding. -/
namespace Sys2Proof.Machine

def Dev.engine (d : Dev) (e : Nat) : Engine := tget {} d.eng.engines e
def Dev.updEngine (d : Dev) (e : Nat) (f : Engine → Engine) : Dev :=
  d.updEng fun x => { x with engines := tmod {} x.engines e f }
def Dev.ring (d : Dev) (r : Nat) : Ring := tget {} d.eng.rings r
def Dev.updRing (d : Dev) (r : Nat) (f : Ring → Ring) : Dev := d.updEng fun x => { x with rings := tmod {} x.rings r f }

/-- Ring length. -/
def Ring.len (r : Ring) : Nat := 2 ^ r.log

/-- STATE of the ring registers. -/
def Ring.state (r : Ring) : Nat :=
  match r.dis with
  | .off => 0
  | .on => 1
  | .ending false _ _ => 2
  | .ending true _ _ => 3
  | .disabled => 4

/-! ### Descriptors (R248) -/

def dOwn (b : List Byte) : Bool := bit (fieldAt b 0 4) 31
def dNotify (b : List Byte) : Bool := bit (fieldAt b 0 4) 30
def dFence (b : List Byte) : Bool := bit (fieldAt b 0 4) 29
def dWake (b : List Byte) : Bool := bit (fieldAt b 0 4) 28
def dClass (b : List Byte) : Nat := bits (fieldAt b 0 4) 24 2
def dTag (b : List Byte) : Nat := fieldAt b 0 2
def dStartBy (b : List Byte) : Nat := fieldAt b 8 8
def dNotBefore (b : List Byte) : Nat := fieldAt b 16 8

/-- START_BY as a key: 0 is no limit (R247). -/
def dStartKey (b : List Byte) : Nat := if dStartBy b = 0 then 2 ^ 64 - 1 else dStartBy b

/-- First field that fails its check. -/
def firstBad : List (Nat × Bool) → Option Nat
  | [] => none
  | (o, ok) :: r => if ok then firstBad r else some o

/-- n = 2^a 3^b 5^c. -/
def smooth (n : Nat) : Bool :=
  0 < n && (let strip := fun p n => (List.range 13).foldl (fun n _ => if n % p = 0 then n / p else n) n
            strip 5 (strip 3 (strip 2 n)) = 1)

def isPow2 (n : Nat) : Bool := n != 0 && 2 ^ n.log2 = n

/-- Lifting sizes of 38.212 Table 5.3.2-1 (PRESUMED, log 50). -/
def liftOk (z : Nat) : Bool :=
  2 ≤ z && z ≤ 384 && [2, 3, 5, 7, 9, 11, 13, 15].any fun a => (List.range 8).any fun j => a * 2 ^ j = z

/-- QPP sizes of 36.212 Table 5.1.3-3 (PRESUMED, log 50). -/
def qppOk (k : Nat) : Bool :=
  40 ≤ k && k ≤ 6144 &&
  (if k ≤ 512 then k % 8 = 0 else if k ≤ 1024 then k % 16 = 0 else if k ≤ 2048 then k % 32 = 0 else k % 64 = 0)

def qmOk (q : Nat) : Bool := q = 1 || q = 2 || q = 4 || q = 6 || q = 8 || q = 10

/-- The shared code fields [95:64] of decode and encode (R251, R255). -/
def codeChecks (turbo enc : Bool) (b : List Byte) : List (Nat × Bool) :=
  let f := fieldAt b
  let c := f 64 2
  let qm := bits (f 85 1) 4 4
  let k := blockBits false b 0
  let n := (if f 84 1 = 1 then 66 else 50) * f 80 2
  let fl := f 92 4
  let e := fun v => 1 ≤ v && v ≤ 2 ^ 20 && v % (max qm 1) = 0
  [(64, 1 ≤ c && c ≤ 255), (66, f 66 2 ≤ c), (68, e (f 68 4)), (72, e (f 72 4)),
   (76, if turbo then 1 ≤ f 76 4 && f 76 4 ≤ turboKw (f 80 2) else f 82 2 ≤ f 76 4 && f 76 4 ≤ n),
   (80, if turbo then qppOk (f 80 2) else liftOk (f 80 2)),
   (82, if turbo then (if f 82 2 = 0 then f 84 1 = 0 else qppOk (f 82 2) && f 82 2 < f 80 2) else f 82 2 ≤ k),
   (84, if turbo then f 84 1 ≤ c else f 84 1 = 1 || f 84 1 = 2),
   (85, qmOk qm && bits (f 85 1) 2 2 = 0),
   (86, enc || (1 ≤ f 86 1 && f 86 1 ≤ (if turbo then 16 else 32))),
   (87, if turbo then f 87 1 ≤ 63 else f 87 1 = 0),
   (88, f 88 4 < 2 ^ 31),
   (92, if enc then fl &&& 0xFFFFFBF3 = 0 && !(turbo && bit fl 3)
        else fl < 2 ^ 12 && bits fl 4 2 != 3 && bits fl 8 2 != 3 && bit fl 7 = false && !(turbo && bit fl 3))]

def polarChecks (b : List Byte) : List (Nat × Bool) :=
  let f := fieldAt b
  [(48, 18 ≤ f 48 4 && f 48 4 ≤ 16384), (52, 12 ≤ f 52 2 && f 52 2 ≤ 1706), (54, f 54 1 = 9 || f 54 1 = 10),
   (55, f 55 1 ≤ 2), (56, f 56 1 = 1 || f 56 1 = 2 || f 56 1 = 4 || f 56 1 = 8), (57, f 57 1 = 0 || f 57 1 = 3),
   (58, f 58 1 ≤ 1), (59, f 59 1 < 16)]

/-- The field of a descriptor that is out of range or reserved and non-zero, if any (R251-R259, R261). -/
def descFault (cls : Nat) (b : List Byte) : Option Nat :=
  let f := fieldAt b
  let op := dOp b
  let zero : Nat → Nat → Nat × Bool := fun o n => (o, f o n = 0)
  let hdr := [(0, bits (f 0 4) 26 2 = 0 && dClass b = cls), zero 6 2]
  firstBad <| hdr ++
    match cls with
    | 0 =>
      if op = 1 || op = 3 then codeChecks (op = 3) false b ++ [zero 96 32]
      else if op = 2 then polarChecks b ++ [zero 62 66]
      else [(2, false)]
    | 1 =>
      if op = 1 || op = 3 then
        [(48, (f 48 4 % 64 = 0 : Bool)), zero 52 12] ++ codeChecks (op = 3) true b ++
          [(98, 1 ≤ f 98 1 && f 98 1 ≤ 4), (99, f 99 1 < 2), zero 100 28]
      else if op = 2 then polarChecks b
      else if op = 4 then [(56, 1 ≤ f 56 4 && f 56 4 ≤ 65536), (62, f 62 1 = 1 || f 62 1 = 2)]
      else if op = 5 then []
      else [(2, false)]
    | 2 =>
      if 1 ≤ op && op ≤ 4 then
        let n := f 48 4
        let fft := op ≤ 2
        [(48, if fft then isPow2 n && 128 ≤ n && n ≤ 8192 else n % 12 = 0 && smooth (n / 12) && n ≤ 3300),
         (52, 1 ≤ f 52 2 && f 52 2 ≤ 14), zero 54 2, (56, f 56 4 % 64 = 0), (60, f 60 4 % 64 = 0),
         (74, !fft || (1 ≤ f 74 2 && f 74 2 ≤ n)),
         (76, !fft || (-(n / 2 : Nat) ≤ sgn 16 (f 76 2) && sgn 16 (f 76 2) < (n / 2 : Nat))),
         (78, f 78 1 ≤ 13), (79, f 79 1 < 8), zero 92 36]
      else if op = 5 then
        [(52, f 52 2 = 839 || f 52 2 = 139 || f 52 2 = 1151 || f 52 2 = 571),
         (54, isPow2 (f 54 2) && 256 ≤ f 54 2 && f 54 2 ≤ 4096 && f 52 2 ≤ f 54 2), (56, 1 ≤ f 56 1 && f 56 1 ≤ 64),
         (57, 1 ≤ f 57 1 && f 57 1 ≤ 12), (62, f 62 1 ≤ 13), zero 63 65]
      else [(2, false)]
    | _ =>
      if 1 ≤ op && op ≤ 5 then
        [(64, 1 ≤ f 64 1 && f 64 1 ≤ 64), (65, 1 ≤ f 65 1 && f 65 1 ≤ (if op = 4 then 16 else 64)),
         (66, 1 ≤ f 66 2 && f 66 2 ≤ 4096), (68, 1 ≤ f 68 2 && f 68 2 ≤ 3300), (70, op != 4 || qmOk (f 70 1)),
         (71, f 71 1 ≤ 1), (81, f 81 1 < 4), zero 82 46]
      else [(2, false)]

/-- A range a job names: byte offset of its field, address, length, whether it is written, whether it is a HARQ
buffer. -/
structure JobRange where
  off : Nat
  addr : Nat
  len : Nat
  write : Bool := false
  harq : Bool := false
  deriving DecidableEq, Repr

def polarCrc (b : List Byte) : Nat := (polarGen b).1

/-- The memory a job reads and writes (R251-R259). -/
def jobRanges (cls : Nat) (b : List Byte) : List JobRange :=
  let f := fieldAt b
  let op := dOp b
  match cls with
  | 0 =>
    if op = 2 then [⟨32, f 32 8, f 48 4, false, false⟩, ⟨40, f 40 8, cdiv (f 52 2 - polarCrc b) 8, true, false⟩]
    else
      let turbo := op = 3
      let ob := cdiv (tbBits turbo b) 8
      let out := if bit (f 92 4) 11 then upTo ob 64 + f 64 2 else ob
      let h := f 64 2 * softBytes b
      [⟨32, f 32 8, totalG b, false, false⟩, ⟨40, f 40 8, out, true, false⟩] ++
        (if harqOf b = 2 then [⟨48, f 48 8, h, false, true⟩] else []) ++
        (if harqOf b != 0 then [⟨56, f 56 8, h, true, true⟩] else [])
  | 1 =>
    if op = 1 || op = 3 then
      let qm := bits (f 85 1) 4 4
      let crc := if bit (f 92 4) 2 then (tbCrc b).1 else 0
      let per := cdiv (cdiv (totalG b) qm) (f 98 1) * 4
      [⟨32, f 32 8, cdiv (tbBits (op = 3) b - crc) 8, false, false⟩] ++
        (List.range (f 98 1)).map fun l => ⟨40, f 40 8 + l * f 48 4, per, true, false⟩
    else if op = 2 then
      [⟨32, f 32 8, cdiv (f 52 2 - polarCrc b) 8, false, false⟩, ⟨40, f 40 8, cdiv (f 48 4) 2 * 4, true, false⟩]
    else if op = 5 then
      [⟨32, f 32 8, cdiv (f 52 2) 8, false, false⟩, ⟨40, f 40 8, cdiv (f 48 4) 2 * 4, true, false⟩]
    else [⟨40, f 40 8, f 56 4 * 4, true, false⟩]
  | 2 =>
    if op = 5 then
      [⟨32, f 32 8, (f 48 4 + f 57 1 * f 56 1 * f 54 2) * 4, false, false⟩] ++ (List.range (f 57 1)).map fun r => ⟨40, f 40 8 + r * upTo (f 52 2 * 4) 64, f 52 2 * 4, true, false⟩
    else
      let n := f 48 4
      let ns := f 52 2
      let cp := fun i => if op ≤ 2 then (if bit (f 72 2) i then f 64 4 else f 68 4) else 0
      let inB := fun i => if op = 1 then (cp i + n) * 4 else if op = 2 then f 74 2 * 4 else n * 4
      let outB := fun i => if op = 1 then f 74 2 * 4 else if op = 2 then (cp i + n) * 4 else n * 4
      ((List.range ns).flatMap fun i =>
        [⟨32, f 32 8 + i * f 56 4, inB i, false, false⟩, ⟨40, f 40 8 + i * f 60 4, outB i, true, false⟩]) ++
        (if bit (f 79 1) 1 then [⟨40, f 40 8 + ns * f 60 4, ns, true, false⟩] else [])
  | _ =>
    let rows := f 64 1
    let cols := f 65 1
    let g := f 66 2
    let gs := f 68 2
    let isz := if f 71 1 = 0 then 4 else 8
    let osz := if bit (f 81 1) 1 then 4 else 8
    let vecs := fun n => (g * gs - 1) * f 72 4 + n * isz
    let h := fun r cc => (⟨32, f 32 8, g * r * cc * isz, false, false⟩ : JobRange)
    if op = 1 then [h rows cols, ⟨48, f 48 8, g * cols * cols * osz, true, false⟩]
    else if op ≤ 3 then [h cols cols, ⟨48, f 48 8, g * cols * cols * osz, true, false⟩]
    else if op = 4 then
      [h rows cols, ⟨40, f 40 8, vecs rows, false, false⟩, ⟨48, f 48 8, g * gs * cols * f 70 1, true, false⟩] ++
        (if f 56 8 = 0 then [] else [⟨56, f 56 8, 4 * g, false, false⟩])
    else
      [⟨40, f 40 8, vecs cols, false, false⟩, ⟨48, f 48 8, g * gs * rows * osz, true, false⟩,
       ⟨56, f 56 8, g * rows * cols * isz, false, false⟩]

/-- All bytes of a range lie in one memory an engine may name (R242). -/
def inMemory (a n : Nat) : Bool :=
  match regionOf a with
  | .cluster c => regionOf (a + n - 1) = .cluster c
  | .sram => regionOf (a + n - 1) = .sram
  | .dram => regionOf (a + n - 1) = .dram
  | _ => false

/-- The field whose address breaks R242, its alignment or R265, if any. -/
def Dev.addrFault (d : Dev) (r : Ring) (b : List Byte) : Option Nat :=
  let pool := d.mem.map.getD 5 (0, 0)
  let part := if r.owner = 0 then pool else (tfind d.eng.harq 0).getD (0, 0)
  let first := if r.cls = 0 && dOp b != 2 && harqOf b = 1 then
      [(⟨48, fieldAt b 48 8, fieldAt b 64 2 * softBytes b, false, true⟩ : JobRange)] else []
  firstBad ((jobRanges r.cls b ++ first).map fun x =>
    (x.off, x.addr % 64 = 0 && (x.len = 0 || inMemory x.addr x.len) &&
      (!x.harq || (part.1 ≤ x.addr && x.addr + x.len ≤ part.1 + part.2))))

/-- Breano's rings 0-63, as it configures them when the device comes to service: sixteen to a class, every engine of the class,
4,096 entries in the management partition (DESIGN CHOICE, log 21). -/
def breanoRing (r : Nat) : Ring :=
  { dis := .on, cls := r / 16, mask := ((List.range 56).filter fun e => engClass e = r / 16).foldl (fun m e => m + 2 ^ e) 0
    owner := 0, base := 0x1000000000 + 0x80000 * r, log := 12 }

def Dev.setBreanoRings (d : Dev) : Dev := (List.range 64).foldl (fun d r => d.updRing r fun _ => breanoRing r) d

/-! ### The course of a job (R245-R250, R269) -/

/-- Free bytes (log 8). -/
def drawBytes (n : Nat) (d : Dev) : List Byte × Dev :=
  ((List.range n).map fun i => BitVec.ofNat 8 (Config.freeNat (d.free + i)), { d with free := d.free + n })

/-- DONE advances over a contiguous run of completed descriptors (R246). -/
def Ring.advance : Nat → Ring → Ring
  | 0, r => r
  | n + 1, r =>
    if r.fin.contains r.done then Ring.advance n { r with done := (r.done + 1) % 65536, fin := r.fin.erase r.done } else r

/-- Who an engine event of a ring goes to: PF0 for every owner the manual names an event ring for (R250, log 51). -/
def Dev.jobEvent (c : Clock) (d : Dev) (code tag : Nat) (fs : List (Nat × Nat × Nat)) : Dev := d.evt0 c code tag fs

/-- The end of a job (R250): RESULT and STATUS, then OWN cleared, then READY and ENG_JOB_DONE. -/
def Dev.endJob (c : Clock) (d : Dev) (ri idx : Nat) (b : List Byte) (st eng detail result : Nat) : Dev :=
  let r := d.ring ri
  let a := r.base + 128 * (idx % r.len)
  let word := st + eng * 256 + detail % 65536 * 65536
  let d := (d.memWrite (a + 24) (le 4 result ++ le 4 word)).2
  let d := (d.memWrite a (le 4 (fieldAt b 0 4 % 2 ^ 31))).2
  let d := d.updRing ri fun r =>
    let r := { r with fin := r.fin ++ [idx], late := if st = 1 then satAdd 32 r.late 1 else r.late }
    r.advance r.fin.length
  let d := d.updEng fun e => { e with handles := e.handles.filter fun x => (x.1, x.2.1) != (ri, idx) }
  let d := if eng < 56 then d.updEngine eng fun x =>
      { x with jobs := (x.jobs + 1) % 2 ^ 64
               byStatus := x.byStatus.mapIdx fun i n => if i = st then satAdd 32 n 1 else n } else d
  let d := if dWake b then (d.opReady c (fieldAt b 4 2) none ⟨2, eng⟩).2 else d
  if dNotify b then d.jobEvent c 0x0580 0 [(0, 1, ri), (2, 2, idx), (4, 2, dTag b), (6, 4, word)] else d

/-- Status codes (R261). -/
def jsOK : Nat := 0
def jsLATE : Nat := 1
def jsABORTED : Nat := 2
def jsREFUSED : Nat := 3
def jsBADDESC : Nat := 4
def jsBADADDR : Nat := 5
def jsUE : Nat := 6
def jsFABRIC : Nat := 7

/-- RESULT of a job that wrote nothing (R248). -/
def untouched : Nat := 2 ^ 31

/-- Engines that are enabled. -/
def Dev.enabled (d : Dev) (e : Nat) : Bool := (d.engine e).dis = .on

/-- No enabled engine may serve the ring (R269). -/
def Dev.noEngine (d : Dev) (r : Ring) : Bool := (ones 56 r.mask).all fun e => !d.enabled e

/-- End every waiting job of a ring without starting it. -/
def Dev.flushRing (c : Clock) (d : Dev) (ri st : Nat) : Dev :=
  let q := (d.ring ri).queue
  q.foldl (fun d j => d.endJob c ri j.idx j.desc st 0xFF 0 untouched) (d.updRing ri fun r => { r with queue := [] })

/-- Rings left without an enabled engine refuse their waiting jobs (R269). -/
def Dev.refuseStranded (c : Clock) (d : Dev) : Dev :=
  (d.eng.rings.filter fun e => !e.2.queue.isEmpty && d.noEngine e.2).foldl (fun d e => d.flushRing c e.1 jsREFUSED) d

/-- Who writes a PROD register: 0-1,023 a core, at the privilege of the write, 1,024 PF0, 1,025 Breano. -/
def Dev.ownsRing (d : Dev) (who priv : Nat) (r : Ring) : Bool :=
  if who < 1024 then r.owner = 2 && (d.core who).pool = some r.pool && priv != 0
  else if who = 1024 then r.owner = 1 else r.owner = 0

/-- The descriptors a PROD write adds. -/
def Ring.added (r : Ring) (prod : Nat) : List Nat :=
  (List.range ((prod + 65536 - r.prod) % 65536)).map fun i => (r.prod + i) % 65536

/-! ### Breano's jobs (R260, R267) -/

/-- The byte offsets of a parameter block's address fields that Breano fills in, HARQ handles apart. -/
def addressFields (cls op : Nat) : List Nat :=
  if cls = 1 then (if op = 4 then [40] else [32, 40])
  else if cls = 3 then [32, 40, 48, 56] else [32, 40]

/-- The HARQ handle of a plan job that uses a soft buffer: UE context and process (R260). -/
def PlanJob.handle (j : PlanJob) : Option Nat :=
  let b := le 32 0 ++ j.body
  if j.cls = 0 && j.op != 2 && harqOf b != 0 then some (fieldAt b 56 8 % 2 ^ 22) else none

/-- The buffer of a HARQ handle: a place in the partition of the carrier's owner, the same for every job of the handle; the
manual does not say which (R260; log 21). -/
def Dev.harqBuffer (d : Dev) (func handle need : Nat) : Nat :=
  match tfind d.eng.harq func with
  | some p => p.1 + 64 * (Config.harqPlace func handle % ((p.2 - need) / 64 + 1))
  | none => 0

/-- Put `bs` in place of the bytes at `off`. -/
def putAt (b : List Byte) (off : Nat) (bs : List Byte) : List Byte := b.take off ++ bs ++ b.drop (off + bs.length)

/-- The descriptor of a plan job: addresses filled in with buffers of Breano's in the stream and symbol partition, HARQ handles
resolved; its marks, TAG and thread are Breano's (R260; log 21). -/
def Dev.planDesc (d : Dev) (func : Nat) (j : PlanJob) : List Byte × Dev :=
  let part := d.mem.map.getD 3 (0, 0)
  let f := draw d
  let ctrl := 2 ^ 31 + f.1 % 8 * 2 ^ 28 + j.cls * 2 ^ 24 + j.op % 256 * 2 ^ 16 + f.1 / 8 % 2 ^ 16
  let b := pk [(4, ctrl), (2, f.1 / 2 ^ 19), (2, 0), (8, j.deadline), (8, j.release), (8, 0)] ++ j.body
  let o := (addressFields j.cls j.op).foldl (fun (o : List Byte × Dev) off =>
    let x := draw o.2
    (putAt o.1 off (le 8 (part.1 + 64 * (x.1 % (part.2 / 128)))), x.2)) (b, f.2)
  match j.handle with
  | some _ =>
    let need := fieldAt b 64 2 * softBytes b
    let at_ := fun off => le 8 (d.harqBuffer func (fieldAt b off 8 % 2 ^ 22) need)
    (putAt (putAt o.1 48 (at_ 48)) 56 (at_ 56), o.2)
  | none => o

/-- Whether a job of the same handle is in flight (R267). -/
def Dev.handleBusy (d : Dev) (func : Nat) (j : PlanJob) : Bool :=
  j.handle.any fun h => d.eng.handles.any fun x => x.2.2 = (func, h)

/-- The first plan job of a class that may be posted, with its plan's place and its owner (R260, R267). -/
def Dev.nextPlanJob (d : Dev) (cls : Nat) : Option (Nat × Nat × PlanJob) :=
  ((d.air.plans.mapIdx fun i p => (i, p)).flatMap fun x =>
    let func := ((tfind d.air.carriers x.2.carrier).map (·.owner)).getD 0
    x.2.jobs.map fun j => (x.1, func, j)).find? fun x => x.2.2.cls = cls && !d.handleBusy x.2.1 x.2.2

/-- Breano writes the descriptor of the next plan job at index `idx` of ring `ri`; with none, the descriptor is one of its
further work and stands as it is (log 21). -/
def Dev.postPlanJob (d : Dev) (ri idx : Nat) : Dev :=
  let r := d.ring ri
  match d.nextPlanJob r.cls with
  | none => d
  | some (i, func, j) =>
    let b := d.planDesc func j
    let d := (b.2.memWrite (r.base + 128 * (idx % r.len)) b.1).2
    let d := d.updAir fun a => { a with plans := a.plans.mapIdx fun k p => if k = i then { p with jobs := p.jobs.erase j } else p }
    match j.handle with
    | some h => d.updEng fun e => { e with handles := e.handles ++ [(ri, idx, func, h)] }
    | none => d

/-- A PROD write (R243): a stalled ring reads its descriptor again (R245); what is added at or after T_D of a disable is refused
(R269). Breano's own write adds the jobs of its plans. -/
def Dev.ringDoorbell (d : Dev) (who priv ri prod : Nat) : Dev :=
  let r := d.ring ri
  if r.dis = .off || !d.ownsRing who priv r || r.len < (prod + 65536 - r.done) % 65536 then
    d.updRing ri fun r => { r with bad := satAdd 32 r.bad 1 }
  else
    let d := if who = 1025 then (r.added prod).foldl (fun d idx => d.postPlanJob ri idx) d else d
    d.updRing ri fun r => { r with prod := prod, stall := false
                                   refused := if r.dis = .on then r.refused else r.refused ++ r.added prod }

def execEngRingDoorbell (who ring prod : Nat) : State → Out := onDev fun _ d =>
  d.ringDoorbell who (d.core who).priv ring prod

/-- The descriptor was posted while no disable was pending or in effect (R269). -/
def Ring.accepted (r : Ring) (idx : Nat) : Bool := r.dis != .off && !r.refused.contains idx

/-- The next descriptor of a ring is fetched (R245): it waits, or stops the ring at OWN = 0, or is one a disable
refuses (R269). A descriptor read uncorrectably ends UE. -/
def execDescriptorFetch (ring : Nat) : State → Out := onDev fun c d =>
  let r := d.ring ring
  if r.dis = .off || r.stall || r.fetch = r.prod then d
  else
    let idx := r.fetch
    let x := d.memRead c (r.base + 128 * (idx % r.len)) 128 rqEngine ring
    let b := x.1
    let d := x.2.2
    if !dOwn b then
      (d.updRing ring fun r => { r with stall := true }).jobEvent c 0x0581 0 [(0, 1, ring), (2, 2, idx)]
    else
      let d := d.updRing ring fun r => { r with fetch := (r.fetch + 1) % 65536, refused := r.refused.filter (· != idx) }
      if x.2.1 then d.endJob c ring idx b jsUE 0xFF 0 0
      else if !r.accepted idx || d.noEngine r then d.endJob c ring idx b jsREFUSED 0xFF 0 untouched
      else match r.dis with
        | .ending true _ _ => d.endJob c ring idx b jsABORTED 0xFF 0 untouched
        | _ => d.updRing ring fun r => { r with queue := r.queue ++ [⟨idx, b⟩] }

/-- The head job of a ring may start now (R246, R249). -/
def Ring.mayStartHead (r : Ring) (now : Nat) : Option QueuedJob :=
  match r.queue with
  | [] => none
  | j :: _ =>
    if dNotBefore j.desc ≤ now && now < dStartKey j.desc && (!dFence j.desc || r.done = j.idx) then some j else none

/-- The ring an engine takes its next job from: by priority, START_BY and number (R247). -/
def Dev.pickRing (d : Dev) (e now : Nat) : Option (Nat × QueuedJob) :=
  (d.eng.rings.filterMap fun x =>
    if bit x.2.mask e && x.2.dis != .off then (x.2.mayStartHead now).map fun j => (x.1, j) else none).foldl
    (fun best x =>
      let key := fun (y : Nat × QueuedJob) =>
        (d.ring y.1).prio * 2 ^ 80 + dStartKey y.2.desc * 2 ^ 8 + y.1
      match best with
      | none => some x
      | some y => if key x < key y then some x else some y) none

/-- A free, enabled, awake engine takes a head job: it starts, or ends at once on a bad descriptor or address
(R247, R261, R262). -/
def execJobStart (eng : Nat) : State → Out := onDev fun c d =>
  if 56 ≤ eng || (d.engine eng).job.isSome || !d.enabled eng || !d.awake (engDomain eng) || d.asked (engDomain eng) then d
  else match d.pickRing eng c.atc with
    | none => d
    | some (ri, j) =>
      let r := d.ring ri
      let d := d.updRing ri fun r => { r with queue := r.queue.drop 1 }
      match descFault r.cls j.desc with
      | some off => d.endJob c ri j.idx j.desc jsBADDESC eng off untouched
      | none =>
        match d.addrFault r j.desc with
        | some off => d.endJob c ri j.idx j.desc jsBADADDR eng off untouched
        | none => d.updEngine eng fun x => { x with job := some { ring := ri, idx := j.idx, desc := j.desc, start := c.atc } }

/-- A waiting job whose START_BY has passed ends LATE (R249). -/
def execJobLate (ring : Nat) : State → Out := onDev fun c d =>
  match (d.ring ring).queue.find? fun j => dStartKey j.desc ≤ c.atc with
  | none => d
  | some j =>
    (d.updRing ring fun r => { r with queue := r.queue.filter fun q => q.idx != j.idx }).endJob c ring j.idx j.desc jsLATE
      0xFF 0 untouched

/-- Write free bytes over a range. -/
def Dev.writeFree (d : Dev) (a n : Nat) : Dev := let r := drawBytes n d; (r.2.memWrite a r.1).2

/-- The received LLRs of block `r`, descrambled where DESCR says so (R252, R253). -/
def Dev.softIn (d : Dev) (b : List Byte) (r : Nat) : List Int :=
  let e := (d.cellBytes (fieldAt b 32 8 + startE b r) (blockE b r)).map llrIn
  if bit (fieldAt b 92 4) 10 then
    (e.zip (gold (fieldAt b 88 4) (startE b r) e.length)).map fun x => if x.2 then -x.1 else x.1
  else e

/-- One block of an LDPC or turbo decode (R266): what it decodes to, and its soft buffer written. -/
def Dev.decodeStep (d : Dev) (b : List Byte) (r : Nat) : (Bool × Nat × List Bool) × Dev :=
  let turbo : Bool := dOp b = 3
  let fl := fieldAt b 92 4
  let n := fieldAt b 76 4
  let s := softBytes b
  let code := bits fl 8 2
  let old := if harqOf b = 2 then (List.range n).map (llrAt code (d.cellBytes (fieldAt b 48 8 + r * s) s))
    else List.replicate n 0
  let acc := combine turbo b r old (d.softIn b r)
  let x := decodeBlock turbo b r acc
  (x, if harqOf b = 0 || (bit fl 6 && x.1) then d else (d.memWrite (fieldAt b 56 8 + r * s) (llrPack code s acc)).2)

/-- What an LDPC or turbo decode writes and answers (R252, R253, R266). -/
def Dev.decodeOut (d : Dev) (b : List Byte) : Nat × Dev :=
  let f := fieldAt b
  let fl := f 92 4
  let o := (List.range (f 64 2)).foldl (fun (o : List (Bool × Nat × List Bool) × Dev) r =>
    let x := o.2.decodeStep b r
    (o.1 ++ [x.1], x.2)) ([], d)
  let tb := o.1.flatMap fun x => if 1 < f 64 2 then x.2.2.take (x.2.2.length - 24) else x.2.2
  let ob := cdiv tb.length 8
  let d := (o.2.memWrite (f 40 8) (toBytes tb)).2
  let d := if bit fl 11 then
      (d.memWrite (f 40 8 + upTo ob 64) (o.1.map fun x => BitVec.ofNat 8 (x.1.toNat + 2 * x.2.1))).2 else d
  let iters := o.1.foldl (fun m x => max m x.2.1) 0
  let bad := min ((o.1.filter fun x => !x.1).length) 255
  (iters % 256 + bad * 256 + (bit fl 2 && crcPass (tbCrc b) tb).toNat * 65536, d)

/-- A polar decode (R254): one segment, or two with I_seg, the first with a zero in front where the bits are odd in number. -/
def Dev.polarOut (d : Dev) (b : List Byte) : Nat × Dev :=
  let f := fieldAt b
  let segs := if bit (f 59 1) 2 then 2 else 1
  let info := f 52 2 - polarCrc b
  let per := cdiv info segs
  let e := (d.cellBytes (f 32 8) (f 48 4)).map llrIn
  let soft := fun s => (e.drop (s * (f 48 4 / segs))).take (f 48 4 / segs)
  let ls := (List.range segs).map fun s =>
    (List.range (per + polarCrc b)).map (Config.decodedBit 2 (b.drop 48) (soft s))
  let ok := ls.all fun l => l.drop per = polarCrcOf b (l.take per)
  let out := (ls.flatMap fun l => l.take per).drop (segs * per - info)
  let path := Config.decodeIters 2 (b.drop 48) e % max 1 (f 56 1)
  (ok.toNat + 2 * path, (d.memWrite (f 40 8) (toBytes out)).2)

/-- Symbols as cint16 from `a` on. -/
def Dev.putSymbols (d : Dev) (a : Nat) (l : List (Int × Int)) : Dev := (d.memWrite a (l.flatMap cintBytes)).2

/-- What an encode job writes (R255, R256). -/
def Dev.encodeOut (d : Dev) (b : List Byte) : Dev :=
  let f := fieldAt b
  let op := dOp b
  let input := fun n => firstBits (d.cellBytes (f 32 8) (cdiv n 8)) n
  let qpsk := fun (l : List Bool) =>
    let g := scramble true (f 64 4) l
    d.putSymbols (f 40 8) ((List.range (cdiv l.length 2)).map (modSymbol 2 (f 68 2) false g))
  if op = 1 || op = 3 then
    let qm := bits (f 85 1) 4 4
    let crc := bit (f 92 4) 2
    let tb := input (tbBits (op = 3) b - (if crc then (tbCrc b).1 else 0))
    let g := scramble (bit (f 92 4) 10) (f 88 4) (encodeBits op b (if crc then withCrc (tbCrc b) tb else tb))
    let n := g.length / max 1 qm
    let nl := f 98 1
    (List.range nl).foldl (fun d l => d.putSymbols (f 40 8 + l * f 48 4)
      ((List.range (cdiv (n - l) nl)).map fun i => modSymbol qm (f 96 2) (bit (f 99 1) 0) g (nl * i + l))) d
  else if op = 2 then
    let x := input (f 52 2 - polarCrc b)
    qpsk ((List.range (f 48 4)).map (Config.codeBit 2 (b.drop 48) (x ++ polarCrcOf b x)))
  else if op = 5 then qpsk ((List.range (f 48 4)).map (Config.codeBit 5 (b.drop 48) (input (f 52 2))))
  else
    let g := gold (f 48 4) (f 52 4) (f 62 1 * f 56 4)
    d.putSymbols (f 40 8) ((List.range (f 56 4)).map (modSymbol (f 62 1) (f 60 2) false g))

/-- Symbol `i` of a transform job, before scaling (R257): FFT drops the cyclic prefix and takes the active bins; IFFT places them
among zeros and puts the prefix in front. -/
def Dev.transformed (d : Dev) (b : List Byte) (i : Nat) : List (Int × Int) :=
  let f := fieldAt b
  let op := dOp b
  let n := f 48 4
  let cp := if bit (f 72 2) i then f 64 4 else f 68 4
  let bin := fun (k : Nat) => ((sgn 16 (f 76 2) + k) % (n : Int)).toNat
  let fl := f 79 1
  let args := [n, bits fl 2 1] ++ (if bit fl 0 then [f 80 4, f 84 8, i, f 64 4, f 68 4, f 72 2] else [])
  let x := fun m => cints m (d.cellBytes (f 32 8 + i * f 56 4) (4 * m))
  if op = 1 then
    let t := Config.transform 1 args ((x (cp + n)).drop cp)
    (List.range (f 74 2)).map fun k => t (bin k)
  else if op = 2 then
    let y := x (f 74 2)
    let at_ := (List.range n).map fun k => ((List.range y.length).find? fun j => bin j = k).elim (0, 0) fun j => y.getD j (0, 0)
    let t := Config.transform 2 args at_
    (List.range (cp + n)).map fun j => t ((j + (n - cp % n)) % n)
  else (List.range n).map (Config.transform op [n] (x n))

/-- What a transform job writes, and its count of saturated components (R257, R258). -/
def Dev.transformOut (d : Dev) (b : List Byte) : Nat × Dev :=
  let f := fieldAt b
  let fr := draw d
  if dOp b = 5 then
    let m := f 56 1 * f 54 2
    let x := cints (f 48 4 + f 57 1 * m) (d.cellBytes (f 32 8) (4 * (f 48 4 + f 57 1 * m)))
    let o := (List.range (f 57 1)).foldl (fun (o : Nat × Dev) r =>
      let at_ := f 48 4 + r * m
      let t := Config.transform 5 [f 52 2, f 54 2, f 56 1, f 58 4, at_] ((x.drop at_).take m)
      let y := scaleSymbol false (f 62 1) 0 ((List.range (f 52 2)).map t)
      (o.1 + y.2.2, o.2.putSymbols (f 40 8 + r * upTo (f 52 2 * 4) 64) y.1)) (0, d)
    (min o.1 65535, o.2)
  else
    let bfp := bit (f 79 1) 1
    let ys := (List.range (f 52 2)).map fun i => (i, scaleSymbol bfp (f 78 1) fr.1 (d.transformed b i))
    let d := ys.foldl (fun d y => d.putSymbols (f 40 8 + y.1 * f 60 4) y.2.1) fr.2
    if bfp then (0, (d.memWrite (f 40 8 + f 52 2 * f 60 4) (ys.map fun y => BitVec.ofNat 8 (uns 8 y.2.2.1))).2)
    else (min (ys.foldl (fun n y => n + y.2.2.2) 0) 65535, d)

/-- The words of matrix `g` of a MIMO job, as it lies at `a`, `n` elements to a group. -/
def Dev.groupWords (d : Dev) (b : List Byte) (a g n : Nat) : List Nat :=
  let per := if fieldAt b 71 1 = 0 then 1 else 2
  let bs := d.cellBytes (a + g * n * 4 * per) (n * 4 * per)
  (List.range (n * per)).map fun i => fieldAt bs (4 * i) 4

/-- The noise variance of group `g` (R259). -/
def Dev.sigma2 (d : Dev) (b : List Byte) (g : Nat) : Nat :=
  if dOp b = 4 && fieldAt b 56 8 != 0 then fieldAt (d.cellBytes (fieldAt b 56 8 + 4 * g) 4) 0 4 else fieldAt b 76 4

/-- A group of DETECT fails a threshold of R202: surely where H^H H + s2 I is zero, surely not where each of its exact diagonal
terms exceeds 2^-20 of the largest; between them the engine's rounding decides, and `free` stands for it (log 156). -/
def Dev.detectFails (d : Dev) (b : List Byte) (g free : Nat) : Bool :=
  let rows := fieldAt b 64 1
  let n := fieldAt b 65 1
  let ws := d.groupWords b (fieldAt b 32 8) g (rows * n)
  let in16 : Bool := fieldAt b 71 1 = 0
  let es := (List.range (rows * n)).map (matElem in16 ws)
  match wordInt (d.sigma2 b g) with
  | none => free % 2 = 1
  | some s2 =>
    if es.any Option.isNone then free % 2 = 1
    else
      let h := fun r c => (es.getD (r * n + c) none).getD (0, 0)
      let m := matOf n fun r c => gAdd ((List.range rows).foldl (fun s k => gAdd s (gMul (gConj (h k r)) (h k c))) (0, 0))
        (if r = c then (s2 * 2 ^ 150, 0) else (0, 0))
      let big := (List.range n).foldl (fun v i => max v ((m.at i i).1.natAbs : Int)) 0
      if big = 0 then true else (notPdAt (big * 2 ^ 20) n 0 1 m).isSome && free % 2 = 1

/-- What group `g` of GRAM, INV, CHOL or DETECT writes, and whether it failed (R259): zeros where it did. -/
def Dev.mimoGroup (d : Dev) (b : List Byte) (g : Nat) : Bool × List Byte × Dev :=
  let f := fieldAt b
  let op := dOp b
  let rows := f 64 1
  let n := f 65 1
  let in16 : Bool := f 71 1 = 0
  let out16 := bit (f 81 1) 1
  let isz := if in16 then 4 else 8
  let fr := draw d
  if op = 1 then
    let bs := d.cellBytes (f 32 8 + g * rows * n * isz) (rows * n * isz)
    let h := fun r c => mimoElem in16 bs (r * n + c)
    let ws := (List.range (n * n)).flatMap fun i =>
      let r := i / n
      let c := i % n
      let v := cDot (Config.freeNat (d.free + 2 * i), Config.freeNat (d.free + 2 * i + 1)) true
        ((List.range rows).map fun k => (h k r, h k c))
        (if r = c && bit (f 81 1) 0 then [(false, d.sigma2 b g, 0x3F800000)] else [])
      [v.1, v.2]
    (false, ws.flatMap (mimoWord out16), { d with free := d.free + 2 * n * n })
  else if op = 4 then
    let bad := d.detectFails b g fr.1
    let hw := d.groupWords b (f 32 8) g (rows * n)
    let out := (List.range (f 68 2)).flatMap fun e =>
      let y := d.cellBytes (f 40 8 + (g * f 68 2 + e) * f 72 4) (rows * isz)
      let yw := (List.range (rows * isz / 4)).map fun i => fieldAt y (4 * i) 4
      (List.range (n * f 70 1)).map fun i =>
        if bad then 0 else detectLlr (f 80 1) (Config.maxLog hw yw (d.sigma2 b g) (f 70 1) i)
    (bad, out, fr.2)
  else
    let ws := d.groupWords b (f 32 8) g (n * n)
    let fail := mxuFails (op - 2) n in16 ws fr.1
    let free := (List.range (2 * n * n)).map fun i => Config.freeNat (fr.2.free + i)
    let out := if fail.isSome then List.replicate (2 * n * n) 0 else mxuOut (op - 2) n in16 ws none false free
    (fail.isSome, out.flatMap (mimoWord out16), { fr.2 with free := fr.2.free + 2 * n * n })

/-- Element `e` of group `g` of PRECODE: y = W x (R259). -/
def Dev.precode (d : Dev) (b : List Byte) (g e : Nat) : List Byte × Dev :=
  let f := fieldAt b
  let rows := f 64 1
  let n := f 65 1
  let in16 : Bool := f 71 1 = 0
  let isz := if in16 then 4 else 8
  let w := d.cellBytes (f 56 8 + g * rows * n * isz) (rows * n * isz)
  let x := d.cellBytes (f 40 8 + (g * f 68 2 + e) * f 72 4) (n * isz)
  let ws := (List.range rows).flatMap fun r =>
    let v := cDot (Config.freeNat (d.free + 2 * r), Config.freeNat (d.free + 2 * r + 1)) false
      ((List.range n).map fun c => (mimoElem in16 w (r * n + c), mimoElem in16 x c)) []
    [v.1, v.2]
  (ws.flatMap (mimoWord (bit (f 81 1) 1)), { d with free := d.free + 2 * rows })

/-- What a MIMO job writes, group after group, and the number of groups that fail a threshold (R259). -/
def Dev.mimoOut (d : Dev) (b : List Byte) : Nat × Dev :=
  let f := fieldAt b
  let o := (List.range (f 66 2)).foldl (fun (o : Nat × List Byte × Dev) g =>
    if dOp b = 5 then
      (List.range (f 68 2)).foldl (fun o e => let x := o.2.2.precode b g e; (o.1, o.2.1 ++ x.1, x.2)) o
    else let x := o.2.2.mimoGroup b g; (o.1 + x.1.toNat, o.2.1 ++ x.2.1, x.2.2)) (0, [], d)
  (min o.1 65535, (o.2.2.memWrite (f 48 8) o.2.1).2)

/-- Outputs of a job that ran to its end, and its RESULT. -/
def Dev.jobOut (d : Dev) (cls : Nat) (b : List Byte) : Nat × Dev :=
  match cls with
  | 0 => if dOp b = 2 then d.polarOut b else d.decodeOut b
  | 1 => (0, d.encodeOut b)
  | 2 => d.transformOut b
  | _ => d.mimoOut b

/-- The reads of a job in order: the code block or group that a failing one is reported with, address and length (R261). -/
def jobReads (cls : Nat) (b : List Byte) : List (Nat × Nat × Nat) :=
  let f := fieldAt b
  let op := dOp b
  let isz := if f 71 1 = 0 then 4 else 8
  let vecs := fun g n => (List.range (f 68 2)).map fun e => (g, f 40 8 + (g * f 68 2 + e) * f 72 4, n * isz)
  if cls = 0 && op != 2 then
    (List.range (f 64 2)).flatMap fun r =>
      [(r, f 32 8 + startE b r, blockE b r)] ++
        (if harqOf b = 2 then [(r, f 48 8 + r * softBytes b, softBytes b)] else [])
  else if cls = 3 then
    let n := if op = 1 || op = 4 || op = 5 then f 64 1 * f 65 1 * isz else f 65 1 * f 65 1 * isz
    (List.range (f 66 2)).flatMap fun g =>
      if op = 5 then (g, f 56 8 + g * n, n) :: vecs g (f 65 1)
      else if op = 4 then
        [(g, f 32 8 + g * n, n)] ++ (if f 56 8 = 0 then [] else [(g, f 56 8 + 4 * g, 4)]) ++ vecs g (f 64 1)
      else [(g, f 32 8 + g * n, n)]
  else ((jobRanges cls b).filter fun x => !x.write).map fun x => (0, x.addr, x.len)

/-- How an access of an engine fails: detail and status. -/
abbrev JobStop := Nat × Nat

/-- Code words read in turn, until one is uncorrectable (R262). -/
def Dev.readUntil (c : Clock) (eng : Nat) : List Nat → Dev → Bool × Dev
  | [], d => (false, d)
  | w :: ws, d =>
    let r := d.readWord c w rqEngine eng
    if r.1 then r else r.2.readUntil c eng ws

/-- The reads of a job in turn, until one fails (R261, R262): the status and detail it ends with. An address that no block holds
is answered DECODE, one of a sleeping domain ASLEEP; no access rule of the manual denies an engine. -/
def Dev.readAll (c : Clock) (eng : Nat) : List (Nat × Nat × Nat) → Dev → Option JobStop × Dev
  | [], d => (none, d)
  | x :: xs, d =>
    if x.2.2 = 0 then d.readAll c eng xs
    else if regionOf x.2.1 = .none then (some (jsFABRIC, 0), d)
    else if !d.reachable x.2.1 then (some (jsFABRIC, 1), d)
    else
      let r := d.readUntil c eng (codeWords x.2.1 x.2.2)
      if r.1 then (some (jsUE, x.1), r.2) else r.2.readAll c eng xs

/-- Whether a range lies in a sleeping domain (R261). -/
def Dev.rangeAsleep (d : Dev) (x : JobRange) : Bool := 0 < x.len && !d.reachable x.addr

/-- A draining engine whose job has ended is disabled (R268). -/
def Engine.settle (x : Engine) : Engine :=
  match x.dis with
  | .ending _ _ _ => if x.job.isNone then { x with dis := .disabled } else x
  | _ => x

/-- The running job of an engine ends (R250, R261, R262, R269, R378): ABORTED with free outputs if an ABORT stopped it, UE or
FABRIC with free outputs where an access failed or, with `parity`, the engine met a parity error in its registers, else OK. -/
def execJobEnd (eng : Nat) (s : State) (parity : Bool := false) : Out := s |> onDev fun c d =>
  match (d.engine eng).job with
  | none => d
  | some j =>
    let r := d.ring j.ring
    let outs := (jobRanges r.cls j.desc).filter (·.write)
    let d := d.updEngine eng fun x =>
      ({ x with job := none, busy := (x.busy + tcToNs (c.atc - j.start)) % 2 ^ 64 }).settle
    let spoil := fun (d : Dev) => (outs.filter fun x => !d.rangeAsleep x).foldl (fun d x => d.writeFree x.addr x.len) d
    if j.stop then (spoil d).endJob c j.ring j.idx j.desc jsABORTED eng 0 0
    else if parity then ((spoil d).parityTest utENGINE eng (engDomain eng)).endJob c j.ring j.idx j.desc jsUE eng 0 0
    else
      let rd := d.readAll c eng (jobReads r.cls j.desc)
      match rd.1, outs.any rd.2.rangeAsleep with
      | some (st, detail), _ => (spoil rd.2).endJob c j.ring j.idx j.desc st eng detail 0
      | none, true => (spoil rd.2).endJob c j.ring j.idx j.desc jsFABRIC eng 1 0
      | none, false =>
        let o := rd.2.jobOut r.cls j.desc
        o.2.endJob c j.ring j.idx j.desc jsOK eng 0 o.1

/-! ### Estimates (R263) -/

/-- Cycles at 1.2 GHz in ns, rounded up. -/
def cyc12 (n : Nat) : Nat := cdiv (n * 5) 6

/-- Mother code length of a polar code: a power of two from 32 to 2^NMAX (38.212 clause 5.3.1, PRESUMED log 50). -/
def polarN (b : List Byte) : Nat :=
  let e := fieldAt b 48 4
  let k := fieldAt b 52 2
  let up := fun n => if 2 ^ n.log2 = n then n.log2 else n.log2 + 1
  let n1 := if 8 * e ≤ 9 * 2 ^ (up e - 1) && 16 * k < 9 * e then up e - 1 else up e
  2 ^ max 5 (min (min n1 (up (8 * k))) (fieldAt b 54 1))

/-- The estimate of a job, engine-ns at PL7 (R263). -/
def jobNs (cls op : Nat) (b : List Byte) : Nat :=
  let f := fieldAt b
  let h := if harqOf b = 0 then 0 else cdiv (f 64 2 * f 76 4 * 10) 768
  match cls with
  | 0 =>
    if op = 1 then 150 + cdiv (f 64 2 * blockBits false b 0 * f 86 1) (if f 84 1 = 1 then 112 else 76) + h
    else if op = 3 then 150 + cdiv (sumBlocks true b * f 86 1) 30 + h
    else (300 + cdiv (polarN b * f 56 1) 8) * (if bit (f 59 1) 2 then 2 else 1)
  | 1 =>
    if op = 1 then 100 + cdiv (totalG b) 96
    else if op = 3 then 100 + cdiv (totalG b) 48
    else if op = 4 then 100 + cdiv (f 62 1 * f 56 4) 96
    else 100 + cdiv (f 48 4) 24
  | 2 =>
    let n := f 48 4
    if op ≤ 2 then cyc12 (f 52 2 * (32 + cdiv (n / 2 * n.log2) 96))
    else if op ≤ 4 then
      let l := if 2 ^ n.log2 = n then n.log2 else n.log2 + 1
      cyc12 (f 52 2 * (64 + 2 * cdiv (n * l) 192))
    else
      let m := f 54 2
      cyc12 (f 57 1 * (32 + cdiv (f 56 1 * m) 16 + cdiv (m / 2 * m.log2) 96))
  | _ =>
    let r := f 64 1
    let k := f 65 1
    let g := f 66 2
    let gram := cdiv (r * k * (k + 1)) 512
    if op = 1 then cyc12 (g * (16 + gram))
    else if op = 3 then cyc12 (g * (32 + cdiv (k ^ 3) 384))
    else if op = 2 then cyc12 (g * (32 + cdiv (k ^ 3) 128))
    else if op = 4 then
      cyc12 (g * (48 + cdiv (k ^ 3) 384 + gram + f 68 2 * (cdiv (r * k) 128 + cdiv (k * f 70 1) 64)))
    else cyc12 (16 + g * f 68 2 * cdiv (r * k) 256)

/-! ### Disable and enable (R268, R269) -/

/-- Disable engines from this cycle on: an idle one at once, a running one when its job ends or is stopped. -/
def Dev.disableEngines (c : Clock) (d : Dev) (es : List Nat) (abort : Bool) (tag : Nat) : Dev :=
  let stop := fun (j : RunJob) => { j with stop := j.stop || abort }
  let d := es.foldl (fun d e => d.updEngine e fun x =>
    ({ x with dis := .ending abort c.atc tag, job := x.job.map stop } : Engine).settle) d
  d.refuseStranded c

/-- An engine that a pending disable names. -/
def Dev.disPending (d : Dev) (e : Nat) : Bool :=
  (d.eng.pend.any fun p => bit p.mask e) ||
  match (d.engine e).dis with
  | .ending _ _ _ => true
  | _ => false

def execEngDisable (r : Req) (mask mode : Nat) : State → Out := onDev <| serve 0x0503 r fun x d =>
  if 2 ^ 56 ≤ mask then (rBad 0, d)
  else if 1 < mode then (rBad 8, d)
  else
    let es := ones 56 mask
    if es.any d.disPending then (rSt stBUSY, d)
    else
      let d := d.disableEngines x.clk es (mode = 1) x.tag
      (rAcc [(8, x.clk.atc)], d.updEng fun y => { y with pend := y.pend ++ [⟨mask, mode = 1, x.tag⟩] })

def execEngEnable (r : Req) (mask : Nat) : State → Out := onDev <| serve 0x0504 r fun _ d =>
  if 2 ^ 56 ≤ mask then (rBad 0, d)
  else
    let es := ones 56 mask
    if es.any d.disPending then (rSt stBADSTATE, d)
    else (rOk, es.foldl (fun d e => d.updEngine e fun x => { x with dis := .on }) d)

/-- T_D of a ring (R268, R269): ABORT ends the waiting jobs and stops the running ones. -/
def execEngRingDisable (r : Req) (ring mode : Nat) : State → Out := onDev <| serve 0x0505 r fun x d =>
  if (d.ring ring).dis = .off then (rBad 0, d)
  else if 1 < mode then (rBad 1, d)
  else match (d.ring ring).dis with
    | .ending _ _ _ => (rSt stBUSY, d)
    | _ =>
      let ab := mode = 1
      let d := d.updRing ring fun y => { y with dis := .ending ab x.clk.atc x.tag, tdProd := y.prod }
      let d := if ab then
          (List.range 56).foldl (fun d e => d.updEngine e fun y =>
            { y with job := y.job.map fun j => if j.ring = ring then { j with stop := true } else j })
            (d.flushRing x.clk ring jsABORTED)
        else d
      (rAcc [(8, x.clk.atc)], d)

def execEngRingEnable (r : Req) (ring : Nat) : State → Out := onDev <| serve 0x0506 r fun _ d =>
  match (d.ring ring).dis with
  | .off => (rBad 0, d)
  | .ending _ _ _ => (rSt stBADSTATE, d)
  | _ => (rOk, d.updRing ring fun y => { y with dis := .on })

/-- Pending work of a disabled ring is all done: DONE has reached PROD at T_D. -/
def Ring.drained (r : Ring) : Bool :=
  let left := (r.tdProd + 65536 - r.done) % 65536
  left = 0 || r.len < left

/-- The engines of the oldest such command, or a ring, have no pending work left (R269, R271). -/
def execEngDisabled (isRing : Bool) (ring : Nat) : State → Out := onDev fun c d =>
  if isRing then
    match (d.ring ring).dis with
    | .ending ab _ tag =>
      if (d.ring ring).drained then
        (d.updRing ring fun y => { y with dis := .disabled }).evt0 c 0x0582 tag [(0, 1, 1), (1, 1, ab.toNat), (2, 1, ring)]
      else d
    | _ => d
  else
    match d.eng.pend.find? fun p => (ones 56 p.mask).all fun e => (d.engine e).job.isNone with
    | none => d
    | some p =>
      (d.updEng fun y => { y with pend := y.pend.erase p }).evt0 c 0x0582 p.tag
        [(0, 1, 0), (1, 1, p.abort.toNat), (8, 8, p.mask)]

/-! ### The other commands (R270) -/

/-- Engines of a class, as a mask. -/
def classMask (cls : Nat) : Nat := ((List.range 56).filter fun e => engClass e = cls).foldl (fun m e => m + 2 ^ e) 0

def execEngRingSet (r : Req) (ring cls mask prio owner pool base log2 : Nat) : State → Out :=
  onDev <| serve 0x0501 r fun _ d =>
    if ring < 64 then (rBad 0, d)
    else if 3 < cls then (rBad 1, d)
    else if mask &&& classMask cls != mask then (rBad 2, d)
    else if 3 < prio then (rBad 10, d)
    else if owner != 1 && owner != 2 && owner != 0xFF then (rBad 11, d)
    else if owner = 2 && 64 ≤ pool then (rBad 12, d)
    else if !(regionOf base = .sram || regionOf base = .dram) || !inMemory base (128 * 2 ^ (min log2 12)) then (rBad 13, d)
    else if log2 < 3 || 12 < log2 then (rBad 21, d)
    else
      let o := d.ring ring
      let ending : Bool := match o.dis with
        | .ending _ _ _ => true
        | _ => false
      if (o.dis = .on || ending) && o.done != o.prod then (rSt stBUSY, d)
      else
        (rOk, d.updRing ring fun y =>
          { y with dis := if owner = 0xFF then .off else if ending then o.dis else .on, cls := cls, mask := mask, prio := prio, owner := owner
                   pool := pool, base := base, log := log2, stall := false })

def execEngRingStatus (r : Req) (ring : Nat) : State → Out := onDev <| serve 0x0502 r <| noFx fun _ d =>
  let y := d.ring ring
  rOk [(2, y.prod), (2, y.fetch), (2, y.done), (1, y.state), (4, y.bad), (4, y.late)]

def execEngGetStats (r : Req) (engine : Nat) : State → Out := onDev <| serve 0x0507 r <| noFx fun _ d =>
  if 56 ≤ engine then rBad 0
  else
    let e := d.engine engine
    rOk ([(8, e.jobs), (8, e.busy)] ++ e.byStatus.map fun n => (4, n))

/-- A job in flight uses a HARQ partition. -/
def Dev.harqInUse (d : Dev) (p : Nat × Nat) : Bool :=
  let uses := fun (r : Ring) (b : List Byte) => (jobRanges r.cls b).any fun x =>
    x.harq && x.addr < p.1 + p.2 && p.1 < x.addr + x.len
  (d.eng.engines.any fun e => e.2.job.any fun j => uses (d.ring j.ring) j.desc) ||
  d.eng.rings.any fun e => e.2.queue.any fun q => uses e.2 q.desc

def execEngHarqConfig (r : Req) (func base size : Nat) : State → Out := onDev <| serve 0x0508 r fun _ d =>
  let pool := d.mem.map.getD 5 (0, 0)
  if 16 ≤ func then (rBad 0, d)
  else if base < pool.1 || pool.1 + pool.2 < base + size then (rBad 1, d)
  else if d.eng.harq.any fun e => e.1 != func && e.2.1 < base + size && base < e.2.1 + e.2.2 then (rBad 1, d)
  else if (tfind d.eng.harq func).any d.harqInUse then (rSt stBUSY, d)
  else (rOk, d.updEng fun y =>
    { y with harq := if size = 0 then tdel y.harq func else tput y.harq func (base, size) })

def execEngClassConfig (r : Req) (cls cap : Nat) : State → Out := onDev <| serve 0x0509 r fun x d =>
  if 3 < cls then (rBad 0, d)
  else if cap < 50 || 100 < cap then (rBad 1, d)
  else
    let d' := d.updEng fun y => { y with caps := tset 90 y.caps cls cap }
    if d'.acctFits d.charges (128 + cls) (bucketOf x.clk.atc) then (rOk, d') else (rSt stOVERLOAD, d)

/-! ### Microcode (R579) -/

/-- Begin the update of the next engine of a running UPD_ENG_MICROCODE: it drains. -/
def Dev.nextEngUpdate (c : Clock) (d : Dev) : Dev :=
  match d.mgmt.engUpd with
  | some u =>
    match (ones 56 u.todo).head? with
    | some e =>
      (d.updMgmt fun m => { m with engUpd := some { u with cur := 2 ^ e, todo := u.todo - 2 ^ e } }).disableEngines c [e]
        false 0
    | none => d
  | none => d

/-- UPD_ENG_MICROCODE (R579): the engines of the mask, one at a time. -/
def execUpdEngMicrocode (r : Req) (cls mask force : Nat) : State → Out := onDev <| serve 0x1004 r fun x d =>
  if 3 < cls then (rBad 0, d)
  else if mask = 0 || mask &&& classMask cls != mask then (rBad 1, d)
  else if d.mgmt.engUpd.isSome then (rSt stBUSY, d)
  else if force = 0 && d.eng.rings.any (fun e => e.2.dis = .on &&
      (ones 56 mask).any fun n => (ones 56 e.2.mask).all fun k => k = n) then (rSt stBADSTATE, d)
  else
    let d := d.updMgmt fun m => { m with engUpd := some { cls := cls, todo := mask, done := 0, force := force != 0
                                                          tag := x.tag, cur := 0 } }
    (rAcc, d.nextEngUpdate x.clk)

/-- The engine being updated has drained: it is loaded, checked and enabled, and the next one drains; after the last,
UPD_ENG_DONE is posted (R579, R581). -/
def execUpdEngDone : State → Out := onDev fun c d =>
  match d.mgmt.engUpd with
  | none => d
  | some u =>
    let es := ones 56 u.cur
    if es.any fun e => (d.engine e).job.isSome then d
    else
      let d := es.foldl (fun d e => d.updEngine e fun x => { x with dis := .on }) d
      let u := { u with done := u.done ||| u.cur, cur := 0 }
      let d := d.updMgmt fun m => { m with engUpd := some u }
      if u.todo = 0 then
        (d.updMgmt fun m => { m with engUpd := none }).evt0 c 0x1081 u.tag [(0, 1, u.cls), (8, 8, u.done)]
      else d.nextEngUpdate c

end Sys2Proof.Machine
end

