-- ==== Sys2Proof/Machine/Fabric.lean ====
section
/-! DEFINITION. The Wicker fabric (chapter 11): nodes, links and routes; address decode; gates; probes; drain counts and
epochs; and the fabric commands. Packets themselves are in FabricTraffic. -/
namespace Sys2Proof.Machine

/-! ### Requesters and answers -/

/-- Who asks for an access: what RID names (R324). -/
inductive Requester where
  /-- a signal core at a privilege -/
  | core (id priv : Nat)
  | mover (ch : Nat)
  | engine (e : Nat)
  /-- PCIe function -/
  | pcie (f : Nat)
  /-- a block of R328 that makes deadline requests -/
  | block (n : Nat)
  | breano
  deriving DecidableEq, Repr

/-- The fabric response codes (R333). -/
inductive Resp where
  | done | asleep | decode | poison | denied
  deriving DecidableEq, Repr

def Resp.code : Resp → Nat
  | .done => 0
  | .asleep => 1
  | .decode => 2
  | .poison => 3
  | .denied => 4

/-- The requester that the operands of FABRIC_REQUEST name. -/
def requesterOf (kind idx priv : Nat) : Requester :=
  match kind with
  | 0 => .core idx priv
  | 1 => .mover idx
  | 2 => .engine idx
  | 3 => .pcie idx
  | 4 => .block idx
  | _ => .breano

/-- RID as logged: the numbering is the model's (log 70). -/
def ridWord (r : Nat × Nat) : Nat := r.1 * 4096 + r.2 % 4096

/-- The switched domain of a requester (R582), none for BASE. -/
def ridDomain (r : Nat × Nat) : Option Nat :=
  if r.1 = 0 then some (r.2 / 64) else if r.1 = 2 then some (engDomain r.2) else none

/-- Trouble word of a requester (R572). -/
def ridBlock (r : Nat × Nat) : Nat :=
  (ridDomain r).getD (if r.1 = 3 then 33 else if r.1 = 4 then 35 else if r.1 = 5 then 34 else 32)

/-! ### Topology (R318-R321); the port numbers are the model's (log 70) -/

def nodeExists (n : Nat) : Bool := n < 0x48 || (0x50 ≤ n && n ≤ 0x5E)

/-- Every node. -/
def allNodes : List Nat := List.range 0x48 ++ (List.range 15).map (0x50 + ·)

/-- The two cluster routers an edge router meets (R321). -/
def edgeLinks (e : Nat) : Nat × Nat :=
  if e < 0x58 then let q := (e - 0x50) / 2; let x := 2 * ((e - 0x50) % 2); (16 * q + x, 16 * q + x + 1)
  else if e < 0x5C then (16 * (e - 0x58) + 4, 16 * (e - 0x58) + 8)
  else if e = 0x5C then (44, 45)
  else if e = 0x5D then (60, 61)
  else (12, 13)

/-- The edge router that a cluster router meets, and the port of that link there. -/
def edgeOf (n : Nat) : Option (Nat × Nat) :=
  ((List.range 15).map (0x50 + ·)).findSome? fun e =>
    if (edgeLinks e).1 = n then some (e, 0) else if (edgeLinks e).2 = n then some (e, 1) else none

/-- The local port of a node: 6 of a cluster router, 8 of a spine router, 2 of an edge router. -/
def localPort (n : Nat) : Nat := if n < 0x40 then 6 else if n < 0x50 then 8 else 2

/-- The spine router of a cluster router's spine link: SP((x + 4y) mod 8) (R319). -/
def spineOf (n : Nat) : Nat := 0x40 + n % 16 % 8

/-- The node and port at the other end of a link, none where there is none (R318, R319): cluster ports 0 W, 1 E, 2 N,
3 S, 4 spine, 5 edge; spine port 2q + j to row y = k / 4 + 2j of quadrant q. -/
def neighbour (n p : Nat) : Option (Nat × Nat) :=
  if n < 0x40 then
    let x := n % 4
    let y := n / 4 % 4
    match p with
    | 0 => if 0 < x then some (n - 1, 1) else none
    | 1 => if x < 3 then some (n + 1, 0) else none
    | 2 => if 0 < y then some (n - 4, 3) else none
    | 3 => if y < 3 then some (n + 4, 2) else none
    | 4 => some (spineOf n, 2 * (n / 16) + y / 2)
    | 5 => edgeOf n
    | _ => none
  else if n < 0x48 then
    let k := n - 0x40
    if p < 8 then some (16 * (p / 2) + 4 * (k / 4 + 2 * (p % 2)) + k % 4, 4) else none
  else if nodeExists n then
    if p = 0 then some ((edgeLinks n).1, 5) else if p = 1 then some ((edgeLinks n).2, 5) else none
  else none

/-- The key of a link: the lower of its two ends. -/
def linkKey (n p : Nat) : Option Nat := (neighbour n p).map fun e => min (256 * n + p) (256 * e.1 + e.2)

/-- Quadrant of a cluster or edge router; 4 for the spine. -/
def quadrantOf (n : Nat) : Nat :=
  if n < 0x40 then n / 16 else if n < 0x50 then 4 else if n < 0x5E then (edgeLinks n).1 / 16 else 0

/-! ### Address decode (R322) -/

/-- The router of cluster `c` with index `r` (R320). -/
def clusterNode (c r : Nat) : Nat :=
  let p := c % 4
  16 * (c / 4) + 4 * (2 * (p / 2) + r / 2) + (2 * (p % 2) + r % 2)

/-- The node of the block that holds a device register: Cadence's and Peloton's at SP2, a mover's channel registers at the mover
(a cluster mover at its cluster's router 0, the exchange channels at the tandem block), the others through the register decode
at SP3 (R321, R322, R348; log 70). -/
def regNode (a : Nat) : Nat :=
  let o := a - 0x0300000000
  if (0x20000 ≤ o && o < 0x22000) || (0x400000 ≤ o && o < 0x480000) then 0x42
  else if 0x580000 ≤ o && o < 0x580000 + 0x40 * 592 then
    let n := (o - 0x580000) / 0x40
    if n < 256 then clusterNode (n / 16) 0 else if n < 512 then 0x40 + (n - 256) / 32 else if n < 576 then 0x40 else 0x5E
  else 0x43

/-- The destination node of an address (R322). -/
def decodeNode (a : Nat) : Option Nat :=
  match regionOf a with
  | .cluster c => some (clusterNode c (bits a 12 2))
  | .sram => some (0x40 + bits a 8 3)
  | .dram => some (0x40 + bits a 8 2 + (if a < 0x2000000000 then 0 else 4))
  | .host => some 0x40
  | .regs => some (regNode a)
  | .none => none

/-! ### Routes (R334, R335) -/

/-- One step in a quadrant, x first, then y (the routes Breano starts with: log 70). -/
def stepXY (n t : Nat) : Nat :=
  if n % 4 < t % 4 then 1
  else if t % 4 < n % 4 then 0
  else if n / 4 % 4 < t / 4 % 4 then 3
  else if t / 4 % 4 < n / 4 % 4 then 2
  else 6

/-- The output port with which a node starts, where no bank has been written (DESIGN CHOICE, log 70). -/
def defaultPort (n t : Nat) : Nat :=
  if n = t then localPort n
  else if n < 0x40 then
    if 0x40 ≤ t && t < 0x48 then
      if spineOf n = t then 4 else stepXY n (16 * (n / 16) + 4 * ((t - 0x40) / 4 + 2 * (n / 4 % 4 / 2)) + (t - 0x40) % 4)
    else if quadrantOf t != n / 16 then 4
    else if t < 0x40 then stepXY n t
    else if (edgeOf n).any fun e => e.1 = t then 5
    else stepXY n (edgeLinks t).1
  else if n < 0x48 then
    let r := if t < 0x40 then t else if 0x50 ≤ t then (edgeLinks t).1 else 0
    2 * (r / 16) + r / 4 % 4 / 2
  else 0

/-- The output port of node `n` for destination `t` in a bank (R335). -/
def Fabric.route (f : Fabric) (bank n t : Nat) : Nat :=
  match tfind f.routes (256 * bank + n) with
  | some l => l.getD (t % 128) 0xFF
  | none => defaultPort n t

/-- The route of a packet: each node with the port it enters and the port it leaves by; none where it does not arrive
within `fuel` links. -/
def walk (port : Nat → Nat → Nat) (t : Nat) : Nat → Nat → Nat → Option (List (Nat × Nat × Nat))
  | 0, n, i => if n = t then some [(n, i, localPort n)] else none
  | k + 1, n, i =>
    if n = t then some [(n, i, localPort n)]
    else match neighbour n (port n t) with
      | some e => (walk port t k e.1 e.2).map fun l => (n, i, port n t) :: l
      | none => none

/-- The route follows the turn model of each quadrant: no turn from y to x under XY (bit 0), none from x to y under YX
(bit 1) (R334). -/
def turnsOk (turns : Nat) : List (Nat × Nat × Nat) → Bool
  | (n, i, o) :: l =>
    let yx := bit turns (n / 16)
    (0x40 ≤ n || 4 ≤ i || 4 ≤ o || (if yx then !(i < 2 && 2 ≤ o) else !(2 ≤ i && o < 2))) && turnsOk turns l
  | [] => true

/-- A route enters the spine at most once (R334). -/
def spineOnce (l : List (Nat × Nat × Nat)) : Bool := (l.filter fun e => 0x40 ≤ e.1 && e.1 < 0x48 && e.2.1 < 8).length ≤ 1

def Fabric.link (f : Fabric) (n p : Nat) : Link := (linkKey n p).elim {} fun k => tget {} f.links k

/-- The conditions of R334 on a set of tables. -/
def Fabric.routesOk (f : Fabric) (turns : Nat) (port : Nat → Nat → Nat) : Bool :=
  allNodes.all fun s => allNodes.all fun t =>
    match walk port t 16 s (localPort s) with
    | none => false
    | some l => turnsOk turns l && spineOnce l && l.all fun e => e.2.2 = localPort e.1 || !(f.link e.1 e.2.2).failed

/-! ### Virtual channels and flits (R324-R326) -/

def isResponse (type : Nat) : Bool := type = 4 || type = 5

/-- Virtual channel (R326). -/
def vcOf (type pri : Nat) : Nat :=
  if isResponse type then (if pri = 3 then 5 else if pri = 2 then 3 else 2)
  else if pri = 3 then 4 else if pri = 2 then 1 else 0

/-- Flits, by LEN: the head carries up to 64 bytes; a longer payload fills the flits that follow (R324). -/
def flitsOf (type len : Nat) : Nat :=
  if (type = 2 || type = 3 || type = 4) && 64 ≤ len then 1 + cdiv (len + 1) 128 else 1

/-- READ, WRITE_NP and ACTION are non-posted (R325). -/
def nonPosted (type : Nat) : Bool := type = 1 || type = 3 || type = 6

/-! ### Gates (R338-R341) -/

def Dev.gate (d : Dev) (n : Nat) : Gate := tget {} d.fab.gates n
def Dev.updGate (d : Dev) (n : Nat) (f : Gate → Gate) : Dev := d.updFab fun x => { x with gates := tmod {} x.gates n f }

/-- The gate of a domain closes (R338). -/
def Dev.closeGate (d : Dev) (n : Nat) : Dev := d.updGate n fun g => { g with st := 1 }

/-- The gate of a domain opens once it is awake (R341). -/
def Dev.openGate (d : Dev) (n : Nat) : Dev := d.updGate n fun g => { g with st := 0 }

/-- The domain is isolated (R340). -/
def Dev.gateIsolated (d : Dev) (n : Nat) : Bool := (d.gate n).st = 2

/-- Nothing of the domain remains past its closed gate and no request of it is unanswered: it is isolated (R340). -/
def execGateIsolated (dom : Nat) : State → Out := onDev fun _ d =>
  if (d.gate dom).st = 1 && !(d.fab.rsp.any fun p => ridDomain p.rid = some dom)
      && !(d.fab.atGate.any fun p => ridDomain p.rid = some dom) && !(d.fab.held.any fun p => ridDomain p.rid = some dom) then d.updGate dom fun g => { g with st := 2 }
  else d

/-- A posted write is lost: logged with its address, RID and why (R573). -/
def Dev.logDrop (c : Clock) (d : Dev) (w addr rid why : Nat) : Dev :=
  d.log c w trbDROP 0x0F43 (pk [(6, addr), (2, rid), (1, why)])

/-! ### Drain counts (R337) -/

def Fabric.drain (f : Fabric) (e : Nat) : Nat := if e = 0 then f.drain0 else f.drain1

def Dev.drainBy (d : Dev) (e : Nat) (by_ : Int) : Dev :=
  let g := fun (v : Nat) => ((v : Int) + by_).toNat
  d.updFab fun f => if e = 0 then { f with drain0 := g f.drain0 } else { f with drain1 := g f.drain1 }

/-! ### Probes (R342-R344) -/

/-- A packet that passes a point matches the filters of a probe (R342). -/
def Probe.hits (p : Probe) (k : Packet) : Bool :=
  p.src.1 ≤ k.src && k.src ≤ p.src.2 && p.dest.1 ≤ k.dest && k.dest ≤ p.dest.2 && bit p.pri k.pri &&
  bit p.vc (vcOf k.type k.pri) && bit p.type k.type &&
  (isResponse k.type || (p.addr.1 ≤ k.addr && k.addr ≤ p.addr.2))

/-- A trace record (R344). -/
def traceRecord (now i lat : Nat) (p : Probe) (k : Packet) : List Byte :=
  pk [(6, now), (1, i), (1, p.node), (1, p.port % 16 + 16 * p.dir), (1, k.type + 16 * k.pri + 64 * k.epoch), (1, k.src),
      (1, k.dest), (2, k.tag), (2, k.len), (6, if isResponse k.type then 0 else k.addr), (2, lat),
      (1, if isResponse k.type then k.resp else 0xFF), (7, 0)]

/-- Write a trace record, or drop it where a lossless ring is full (R344). -/
def Dev.traceOut (d : Dev) (bs : List Byte) : Dev :=
  let f := d.fab
  if f.trcMode = 0 then d
  else if f.trcMode = 1 && 2 ^ f.trcLog ≤ (f.trcProd + 2 ^ 32 - f.trcCons) % 2 ^ 32 then
    d.updFab fun f => { f with trcDrop := satAdd 32 f.trcDrop 1 }
  else
    let d := (d.memWrite (f.trcAddr + 32 * (f.trcProd % 2 ^ f.trcLog)) bs).2
    d.updFab fun f => { f with trcProd := (f.trcProd + 1) % 2 ^ 32 }

/-- Probe `i` sees a packet: counts always, its latency bin in histogram mode, a record in trace mode. The latency
depends on the load of the fabric, which the model does not hold: it is free (R343; log 8). -/
def Dev.probeSees (c : Clock) (d : Dev) (i : Nat) (p : Probe) (k : Packet) : Dev :=
  let l := draw d
  let lat := l.1 % 65536
  let bin := if lat ≤ 1 then 0 else Nat.log2 lat
  let q := { p with pkts := (p.pkts + 1) % 2 ^ 64, flits := (p.flits + flitsOf k.type k.len) % 2 ^ 64
                    hist := if p.mode = 1 then tmod 0 p.hist bin fun v => satAdd 32 v 1 else p.hist }
  let d := l.2.updFab fun f => { f with probes := tset {} f.probes i q }
  if p.mode = 2 then d.traceOut (traceRecord c.atc i lat p k) else d

/-- Every enabled probe on a packet's route sees it (R342). -/
def Dev.observe (c : Clock) (d : Dev) (k : Packet) : Dev :=
  let l := (walk (d.fab.route k.epoch) k.dest 16 k.src k.sport).getD []
  (List.range 32).foldl (fun d i =>
    let p := tget {} d.fab.probes i
    if p.en && l.any (fun e => e.1 = p.node && (if p.dir = 0 then e.2.1 else e.2.2) = p.port) && p.hits k then
      d.probeSees c i p k
    else d) d

def execFabProbeSet (r : Req) (probe enable node port dir mode srcLo srcHi destLo destHi pri vc type addrLo addrHi : Nat) :
    State → Out := onDev <| serve 0x0EC3 r fun _ d =>
  if 32 ≤ probe then (rBad 0, d)
  else if 1 < enable then (rBad 1, d)
  else if !nodeExists node then (rBad 2, d)
  else if port != localPort node && (neighbour node port).isNone then (rBad 3, d)
  else if 1 < dir then (rBad 4, d)
  else if 2 < mode then (rBad 5, d)
  else if (tget {} d.fab.probes probe).en then (rSt stBUSY, d)
  else (rOk, d.updFab fun f => { f with probes := tmod {} f.probes probe fun p =>
    { p with en := enable = 1, node := node, port := port, dir := dir, mode := mode, src := (srcLo, srcHi)
             dest := (destLo, destHi), pri := pri, vc := vc, type := type, addr := (addrLo, addrHi) } })

def execFabTraceSet (r : Req) (addr log mode : Nat) : State → Out := onDev <| serve 0x0EC4 r fun _ d =>
  if addr % 4096 != 0 || !(regionOf addr = .dram) || !(regionOf (addr + 32 * 2 ^ min log 20 - 1) = .dram) then (rBad 0, d)
  else if log < 8 || 20 < log then (rBad 8, d)
  else if 2 < mode then (rBad 9, d)
  else if d.fab.probes.any fun p => p.2.en && p.2.mode = 2 then (rSt stBUSY, d)
  else (rOk, d.updFab fun f => { f with trcAddr := addr, trcLog := log, trcMode := mode })

/-! ### Epochs (R334-R337) -/

/-- FLIP_PEND: a commit waits for T_F or for its holds (R345). -/
def Fabric.flipPend (f : Fabric) : Bool := f.flipAt.isSome || !f.held.isEmpty

def execFabRouteWrite (r : Req) (node bank turns : Nat) (table : List Nat) : State → Out :=
  onDev <| serve 0x0EC0 r fun _ d =>
    let f := d.fab
    let new := 1 - f.epoch
    if !nodeExists node then (rBad 0, d)
    else if 1 < bank then (rBad 1, d)
    else if bank != new || !f.oldDrained then (rSt stBUSY, d)
    else if table.length != 128 then (rBad 3, d)
    else
      let port := fun n t =>
        if n = node then table.getD (t % 128) 0xFF
        else if f.written.contains n then f.route new n t else f.route f.epoch n t
      if !f.routesOk turns port then (rBad 3, d)
      else (rOk, d.updFab fun f =>
        { f with routes := tput f.routes (256 * bank + node) table, turns := turns % 16
                 written := if f.written.contains node then f.written else f.written ++ [node] })

/-- A committed bank of a router not written is its current one: the tables were checked so (R334; DEDUCED log 70). -/
def Fabric.fillBanks (f : Fabric) : Fabric :=
  allNodes.foldl (fun f n =>
    if f.written.contains n then f
    else match tfind f.routes (256 * f.epoch + n) with
      | some l => { f with routes := tput f.routes (256 * (1 - f.epoch) + n) l }
      | none => { f with routes := tdel f.routes (256 * (1 - f.epoch) + n) }) f

def execFabRouteCommit (r : Req) (at_ : Nat) : State → Out := onDev <| serve 0x0EC1 r fun x d =>
  let f := d.fab
  if f.flipAt.isSome || f.flipping.isSome || !f.oldDrained then (rSt stBUSY, d)
  else if f.written.isEmpty then (rSt stBADSTATE, d)
  else if at_ < x.rung + 39322 then (rSt stLATE, d)
  else (rAcc [(1, 1 - f.epoch)], d.updFab fun f => { f.fillBanks with flipAt := some (at_, x.tag), written := [] })

/-- At T_F the current epoch becomes the new one (R336). -/
def execRouteFlip : State → Out := onDev fun c d =>
  match d.fab.flipAt with
  | some (t, tag) =>
    if c.atc < t then d
    else d.updFab fun f => { f with epoch := 1 - f.epoch, flipAt := none, flipping := some tag, oldDrained := false }
  | none => d

/-- The old epoch retires once every injection point has changed epoch and its drain count is zero (R337). -/
def execFabEpochRetired : State → Out := onDev fun c d =>
  match d.fab.flipping with
  | some tag =>
    let old := 1 - d.fab.epoch
    if d.fab.held.isEmpty && d.fab.drain old = 0 then
      (d.updFab fun f => { f with flipping := none, oldDrained := true, retiredAt := c.atc }).evt0 c 0x0EE0 tag
        [(0, 1, old), (8, 8, c.atc)]
    else d
  | none => d

def execFabRouteStatus (r : Req) : State → Out := onDev <| serve 0x0EC2 r <| noFx fun _ d =>
  let f := d.fab
  rOk [(1, f.epoch), (1, f.flipPend.toNat), (1, f.oldDrained.toNat), (4, f.drain0), (4, f.drain1), (4, f.flipStall),
       (8, f.retiredAt)]

def execFabGateStatus (r : Req) (dom : Nat) : State → Out := onDev <| serve 0x0EC5 r <| noFx fun _ d =>
  if 32 ≤ dom then rBad 0
  else let g := d.gate dom; rOk [(1, g.st), (4, g.asleep), (4, g.drop)]

/-! ### Links (R332) -/

def Dev.updLink (d : Dev) (n p : Nat) (g : Link → Link) : Dev :=
  (linkKey n p).elim d fun k => d.updFab fun f => { f with links := tmod {} f.links k g }

/-- Replays of a flit on a link: each follows a failed CRC check (R332). -/
def Dev.replay (d : Dev) (n p k : Nat) : Dev :=
  d.updLink n p fun l => { l with replays := satAdd 32 l.replays k, crc := satAdd 32 l.crc k }

/-- After 8 failed replays of one flit, the link is marked failed (R332). -/
def Dev.failLink (c : Clock) (d : Dev) (node port : Nat) : Dev :=
  if (linkKey node port).isNone || (d.fab.link node port).failed then d
  else (d.updLink node port fun l => { l with failed := true, epoch := d.fab.epoch }).evt0 c 0x0EE1 0
    [(0, 1, node), (1, 1, port)]

/-- The replays of one flit of a packet on a link: with the eighth the link fails (R332). -/
def Dev.replays (c : Clock) (d : Dev) (node port k : Nat) : Dev :=
  let d := d.replay node port k
  if 8 ≤ k then d.failLink c node port else d

def execFabLinkFault (node port : Nat) : State → Out := onDev fun c d =>
  if (linkKey node port).isNone || (d.fab.link node port).failed then d else d.replays c node port 8

/-- The self-test of a failed link that no packet can reach: without an error, and short of the fourth transient in
24 h, the link returns to service (R332, R382, R383). -/
def execLinkSelftestDone (node port : Nat) (errors : Bool) : State → Out := onDev fun c d =>
  match linkKey node port with
  | none => d
  | some k =>
    let l := d.fab.link node port
    if !l.failed || l.lasting || l.epoch = d.fab.epoch || !d.fab.oldDrained then d
    else
      let h := recentTransients c.atc 4 k d.mem.transients
      if errors || fourth 4 k h then (d.trouble 32 trbLASTING).updLink node port fun l => { l with lasting := true }
      else ((d.updMem fun m => { m with transients := h }).trouble 32 trbTRANSIENT).updLink node port fun l =>
        { l with failed := false }

def execFabLinkStatus (r : Req) (node port : Nat) : State → Out := onDev <| serve 0x0EC6 r <| noFx fun _ d =>
  match linkKey node port with
  | none => rOk [(1, 2), (4, 0), (4, 0)]
  | some _ => let l := d.fab.link node port; rOk [(1, l.failed.toNat), (4, l.replays), (4, l.crc)]

end Sys2Proof.Machine
end

