-- ==== Sys2Proof/Machine/Spoke.lean ====
section
/-! DEFINITION. Serial spokes and lanes (chapter 14): configuration, the lane table, bring-up and its handshake, faults
and self-tests, disable and resize, and the line-test commands. What the line does is the environment's: it comes with
the commands. -/
namespace Sys2Proof.Machine

/-! ### Port types (R390, R391, R394) -/

/-- A port type: lanes, standard data rate in Mb/s, standard and SPOKE lane rate in kb/s, PAM4, the FEC choices of the
STANDARD profile, and (TX, RX) latency in ns by FEC (R390, R394). -/
structure PortType where
  lanes : Nat
  mbps : Nat
  lane : Nat
  fast : Nat
  pam4 : Bool
  fecs : List Nat
  lat : List (Nat × Nat × Nat)
  deriving DecidableEq, Repr

/-- The row of R390 with code `t`. -/
def portType (t : Nat) : Option PortType :=
  match t with
  | 1 => some ⟨1, 10000, 10312500, 0, false, [0], [(0, 40, 55)]⟩
  | 2 => some ⟨1, 25000, 25781250, 28125000, false, [0, 1], [(0, 30, 42), (1, 60, 280)]⟩
  | 3 => some ⟨1, 50000, 53125000, 56250000, true, [2], [(0, 30, 45), (2, 50, 190)]⟩
  | 4 => some ⟨4, 100000, 25781250, 28125000, false, [0, 1], [(0, 35, 66), (1, 65, 166)]⟩
  | 5 => some ⟨2, 100000, 53125000, 56250000, true, [2], [(0, 32, 62), (2, 50, 176)]⟩
  | 6 => some ⟨1, 100000, 106250000, 112500000, true, [2], [(0, 30, 45), (2, 45, 130)]⟩
  | 7 => some ⟨4, 200000, 53125000, 56250000, true, [2], [(0, 32, 60), (2, 45, 136)]⟩
  | 8 => some ⟨2, 200000, 106250000, 112500000, true, [2], [(0, 30, 58), (2, 40, 121)]⟩
  | 9 => some ⟨8, 400000, 53125000, 56250000, true, [2], [(0, 32, 60), (2, 40, 116)]⟩
  | 10 => some ⟨4, 400000, 106250000, 112500000, true, [2], [(0, 30, 58), (2, 38, 111)]⟩
  | _ => none

/-- The FEC choices of a spoke: those of STANDARD, and bypass besides on PAM4 types of the SPOKE profile (R391). -/
def fecOk (t : PortType) (profile fec : Nat) : Bool :=
  t.fecs.contains fec || (profile = 1 && t.pam4 && fec = 0)

def Spoke.type (s : Spoke) : PortType := (portType s.port).getD ⟨1, 0, 0, 0, false, [], []⟩

def Dev.spoke (d : Dev) (n : Nat) : Option Spoke := tfind d.spk.spokes n

def Dev.updSpoke (d : Dev) (n : Nat) (f : Spoke → Spoke) : Dev :=
  match d.spoke n with
  | some s => d.updSpk fun x => { x with spokes := tput x.spokes n (f s) }
  | none => d

def Dev.lane (d : Dev) (n : Nat) : Lane := tget {} d.spk.lanes n
def Dev.updLane (d : Dev) (n : Nat) (f : Lane → Lane) : Dev := d.updSpk fun x => { x with lanes := tmod {} x.lanes n f }

def Dev.port (d : Dev) (p : Nat) : Port := tget {} d.mac.ports p
def Dev.updPort (d : Dev) (p : Nat) (f : Port → Port) : Dev := d.updMac fun m => { m with ports := tmod {} m.ports p f }

/-- Add to a saturating 64-bit counter of R452. -/
def Port.count (p : Port) (i n : Nat) : Port := { p with stats := tmod 0 p.stats i fun v => satAdd 64 v n }

/-- The first lane of a spoke; tandem link k, which stands as number 256 + k, has the tandem lanes 256 + 2k and
256 + 2k + 1 (R389, chapter 19). -/
def firstLane (n : Nat) : Nat := if n < 256 then n else 256 + 2 * (n - 256)

/-- Lanes of a spoke (R389). -/
def Spoke.lanes (s : Spoke) (n : Nat) : List Nat := (List.range s.type.lanes).map fun i => firstLane n + i

/-- The block whose trouble word a spoke's causes set: its quadrant, or the tandem block (R572). -/
def spkBlock (n : Nat) : Nat := if n < 128 then 20 + n / 32 else 26

/-- The configured spoke that absorbs number `n`, if any (R389). -/
def Dev.absorber (d : Dev) (n : Nat) : Option Nat :=
  (d.spk.spokes.find? fun e => e.1 < n && n < 128 && n < e.1 + e.2.type.lanes).map (·.1)

def Dev.absorbed (d : Dev) (n : Nat) : Bool := (d.absorber n).isSome

/-- The spoke that a lane belongs to. -/
def Dev.laneSpoke (d : Dev) (l : Nat) : Option (Nat × Spoke) :=
  d.spk.spokes.find? fun e => (e.2.lanes e.1).contains l

/-- A configured spoke that no spoke absorbs. -/
def Dev.liveSpoke (d : Dev) (n : Nat) : Option Spoke := if d.absorbed n then none else d.spoke n

/-- A disable is pending (R268). -/
def Dis.isEnding : Dis → Bool
  | .ending _ _ _ => true
  | _ => false

/-- DISABLED, with no disable pending. -/
def Spoke.resting (s : Spoke) : Bool := s.st = .disabled && !s.dis.isEnding && s.resize.isNone

/-- Data rate now, as Mb/s over a divisor (R390, R391). -/
def Spoke.rate (s : Spoke) : Nat × Nat := if s.fast then (s.type.mbps * s.type.fast, s.type.lane) else (s.type.mbps, 1)

/-- Lane bit rate now, kb/s (R401). -/
def Spoke.laneRate (s : Spoke) : Nat := if s.fast then s.type.fast else s.type.lane

/-! ### The lane table (R397-R399) -/

def laneEntryBytes (table : List Byte) (l : Nat) : List Byte := (table.drop (48 * l)).take 48

/-- A fault of one equalisation set at `o`: its offending offset (R397, R398). -/
def setFault (nrz : Bool) (e : List Byte) (o : Nat) : Option Nat :=
  let f := fun i => fieldAt e (o + i) 1
  let a := fun i => (sgn 8 (f i)).natAbs
  if nrz && f 0 != 0 then some o
  else if f 2 < 32 || 64 < f 2 || 64 < a 0 + a 1 + f 2 + a 3 then some (o + 2)
  else if 32 ≤ f 4 then some (o + 4)
  else if 12 < f 5 then some (o + 5)
  else if f 6 != 0 then some (o + 6)
  else if f 7 != 0 then some (o + 7)
  else ((List.range 12).find? fun i => f 5 ≤ i && f (8 + i) != 0).map fun i => o + 8 + i

/-- The offending offset of a lane-table entry, none for a valid one (R398). -/
def laneEntryFault (l : Nat) (e : List Byte) : Option Nat :=
  if e.length != 48 || fieldAt e 0 1 != l then some 0
  else if 16 ≤ fieldAt e 1 1 then some 1
  else if fieldAt e 4 4 != 0 then some 4
  else match setFault true e 8 with
    | some o => some o
    | none => setFault false e 28

/-- The lane-table entry in force for a lane; the tandem lanes have a table of their own (chapter 19). -/
def Dev.laneEntry (d : Dev) (l : Nat) : List Byte :=
  if l < 256 then laneEntryBytes d.spk.table l else laneEntryBytes d.spk.tandemTable (l - 256)
def Dev.laneOptical (d : Dev) (l : Nat) : Bool := bit (fieldAt (d.laneEntry l) 1 1) 0
def Dev.laneMax (d : Dev) (l : Nat) : Nat := fieldAt (d.laneEntry l) 2 2 * 100000

/-- Why a lane cannot leave DISABLED at `need` kb/s: the offset reported (R398). -/
def Dev.laneBar (d : Dev) (l need : Nat) : Option Nat :=
  match laneEntryFault (l % 256) (d.laneEntry l) with
  | some o => some o
  | none =>
    if !bit (fieldAt (d.laneEntry l) 1 1) 3 then some 1 else if d.laneMax l < need then some 2 else none

/-- Every lane may reach the SPOKE rate (R392, R403). -/
def Dev.mayFast (d : Dev) (n : Nat) (s : Spoke) : Bool :=
  s.profile = 1 && s.fastOk && s.type.fast != 0 && (s.lanes n).all fun l => s.type.fast ≤ d.laneMax l

/-- A spoke's share of its half's limit, in Mb/s over 187 (R392): 12 / 11 and 18 / 17 are the SPOKE rate ratios. -/
def Dev.halfShare (d : Dev) (n : Nat) (s : Spoke) : Nat :=
  if d.mayFast n s then s.type.mbps * (if s.type.pam4 then 198 else 204) else s.type.mbps * 187

/-- The half of spoke `n` stays within 1,000 Gb/s with `s` in place of what `n` holds (R392). -/
def Dev.halfFits (d : Dev) (n : Nat) (s : Spoke) : Bool :=
  let rest := d.spk.spokes.filter fun e => e.1 / 16 = n / 16 && e.1 != n && !e.2.resting
  d.halfShare n s + rest.foldl (fun a e => a + d.halfShare e.1 { e.2 with port := e.2.resize.getD e.2.port }) 0 ≤ 1000000 * 187

/-- Lanes that a spoke holds, those of a port type that it changes to included (R389, R413). -/
def Spoke.span (s : Spoke) : Nat := max s.type.lanes ((s.resize.bind portType).elim 0 (·.lanes))

/-! ### Configuration (R389-R393, R639) -/

/-- Port, map and steering of a spoke number begin empty (R425, R639). -/
def Dev.clearPort (d : Dev) (n : Nat) : Dev :=
  let d := d.updMac fun m => { m with ports := tdel m.ports n, steer := tdel m.steer n }
  let d := d.updSpk fun x => { x with maps := tdel x.maps n, mapMarks := tdel x.mapMarks n }
  (d.updShadow 3 n fun _ => {}).updShadow 4 n fun _ => {}

def execSpkConfig (r : Req) (spoke port profile fec rate cmp mRange domains timed ueLimit : Nat) : State → Out :=
  onDev <| serve 0x0701 r fun _ d =>
    if 128 ≤ spoke then (rBad 0, d)
    else match portType port with
      | none => (rBad 1, d)
      | some t =>
        let s : Spoke := { port := port, profile := profile, fecPref := fec, fastOk := rate = 1, cmp := cmp
                           mRange := mRange, domains := domains, timed := timed = 1, ueLimit := ueLimit }
        if spoke % t.lanes != 0 || (s.lanes spoke).any fun l => d.laneOptical l != d.laneOptical spoke then (rBad 0, d)
        else if 1 < profile then (rBad 2, d)
        else if 2 < fec || (profile = 0 && !fecOk t 0 fec) then (rBad 3, d)
        else if 1 < rate then (rBad 4, d)
        else if 8 ≤ cmp then (rBad 5, d)
        else if 10 < mRange / 16 || mRange / 16 < mRange % 16 then (rBad 6, d)
        else if 4 ≤ domains then (rBad 7, d)
        else if 1 < timed then (rBad 8, d)
        else if d.absorbed spoke then (rSt stBADSTATE, d)
        else if d.spk.spokes.any fun e => !e.2.resting && e.1 < spoke + t.lanes && spoke < e.1 + e.2.span then
          (rSt stBUSY, d)
        else if !d.halfFits spoke s then (rSt stOVERLOAD, d)
        else
          let d := if (d.spoke spoke).isSome then d else d.clearPort spoke
          let d := ((s.lanes spoke).filter fun l => l != spoke).foldl (fun d l => d.clearPort l) d
          (rOk, d.updSpk fun x => { x with spokes := tput x.spokes spoke s })

/-! ### What truing shares with the lanes (R528, R533) -/

def Dev.updUnit (d : Dev) (kind i : Nat) (f : TrueUnit → TrueUnit) : Dev :=
  d.updTruing fun t => { t with units := tmod {} t.units (256 * kind + i) f }

/-- Every trim of a unit returns to its centre, and every convergence count to 0 (R533). -/
def Dev.resetTrims (d : Dev) (kind i : Nat) : Dev := d.updUnit kind i fun u => { u with trims := [], last := 0xFF }

/-- The trim resets of a change of rate of spoke `n`: its lanes, or its tandem link. -/
def Dev.resetLaneTrims (d : Dev) (n : Nat) (ls : List Nat) : Dev :=
  if n < 128 then ls.foldl (fun d l => d.resetTrims 0 l) d else d.resetTrims 2 (n - 256)

/-- An open Cadence gap of a unit ends for traffic, and counts (R528). -/
def Dev.breakGap (d : Dev) (kind i : Nat) : Dev :=
  d.updUnit kind i fun u => if u.gap = 0 then u else { u with gap := 0, broken := satAdd 32 u.broken 1 }

/-- The Cadence gaps of a spoke's lanes end for traffic (R528). -/
def Dev.breakGaps (d : Dev) (n : Nat) : Dev :=
  match d.spoke n with
  | some s => if n < 128 then (s.lanes n).foldl (fun d l => d.breakGap 0 l) d else d
  | none => d

/-! ### Bring-up (R400-R402) -/

/-- Scans of a spoke's lanes end (R422). -/
def Dev.abortScans (d : Dev) (ls : List Nat) : Dev :=
  let stop := fun (s : Scan) => { s with aborted := true }
  ls.foldl (fun d l => d.updLane l fun x => { x with scan := x.scan.map stop }) d

/-- A tandem link leaves ACTIVE: when, for R549. -/
def Dev.noteDown (c : Clock) (d : Dev) (n : Nat) : Dev :=
  if !(d.spoke n).any fun s => s.st = .active then d
  else
    let d := d.trouble (spkBlock n) trbLINK
    if n < 256 then d else d.updTnd fun t => { t with links := tmod {} t.links (n - 256) fun l => { l with downAt := c.atc } }

/-- Start, or start again, at DETECT, or at TRAIN for an optical spoke (R400). -/
def Dev.restartSpoke (c : Clock) (d : Dev) (n : Nat) : Dev :=
  match d.spoke n with
  | none => d
  | some s =>
    let d := if n < 128 && s.fast then d.resetLaneTrims n (s.lanes n) else d
    ((d.noteDown c n).abortScans (s.lanes n)).updSpoke n fun s =>
      { s with st := if d.laneOptical (firstLane n) then .train else .detect, since := c.atc, told := false, pulse := 0
               fast := 256 ≤ n, first := none, agreed := none, peerCap := [], window := false }

/-- Enter a state of bring-up. -/
def Spoke.enter (s : Spoke) (now : Nat) (st : SpkSt) : Spoke := { s with st := st, since := now }

/-- The reason of TND_STATUS for a reason of R423: the faults of R406 end a lock (R559, DESIGN CHOICE log 100). -/
def tndReason (r : Nat) : Nat :=
  if r = 2 then 1 else if r = 3 || r = 4 || r = 9 || r = 10 then 2 else if r = 5 || r = 6 then 3 else if r = 8 then 4 else 0

/-- Report SPK_DOWN (R424), or TND_LINK_DOWN (R560), in the log too (R573). -/
def Dev.spkDown (c : Clock) (d : Dev) (n reason fails : Nat) (tag : Nat := 0) : Dev :=
  if n < 256 then d.evtNote c 0x0781 0 (spkBlock n) [(0, 1, n), (1, 1, reason), (2, 1, fails)]
  else d.evtNote c 0x0C81 tag 26 [(0, 1, n - 256), (1, 1, tndReason reason)]

/-- A failure: one more in a row, a wait, and SPK_DOWN after the 16th (R402). -/
def Dev.spkFail (c : Clock) (d : Dev) (n reason : Nat) : Dev :=
  match d.spoke n with
  | none => d
  | some s =>
    let k := min (s.fails + 1) 255
    let d := d.updSpoke n fun s =>
      { s with st := .wait, since := c.atc, waitEnd := c.atc + 19660800 * 2 ^ min k 7, fails := k, reason := reason }
    if s.fails = 15 then d.spkDown c n reason 16 else d

/-- What a spoke has agreed, in the STANDARD profile from its settings (R405). -/
def Spoke.standard (s : Spoke) : Agreement := { fast := false, fec := s.fecPref, cmp := 7, mLo := 0, mHi := 10, domains := 3 }

/-- ACTIVE (R400, R402, R411): the failures end, the window opens unless it is timed, and SPK_UP is posted. -/
def Dev.spkUp (c : Clock) (d : Dev) (n : Nat) : Dev :=
  match d.spoke n with
  | none => d
  | some s =>
    let a := s.agreed.getD s.standard
    let d := d.updSpoke n fun s =>
      { (s.enter c.atc .active) with agreed := some a, fails := 0, reason := 0, window := !s.timed }
    if n < 256 then d.evt0 c 0x0780 0 [(0, 1, n), (1, 1, a.fast.toNat), (2, 1, a.fec)]
    else d.evt0 c 0x0C80 0 [(0, 1, n - 256), (1, 1, (tget {} d.tnd.links (n - 256)).peer)]

/-- SPK_ENABLE of a spoke with a lane whose entry bars it: LANE_TABLE_BAD, reason TABLE (R398). -/
def Dev.reportTable (c : Clock) (d : Dev) (n : Nat) (bad : List (Nat × Nat)) : Dev :=
  bad.foldl (fun d b => d.evtLog c 0 0 0x0785 0 (spkBlock n) trbCONFIG [(0, 1, b.1 % 256), (1, 1, b.2)])
    (d.updSpoke n fun s => { s with reason := 7 })

/-- Bring a spoke up, unless the entry of a lane bars it or a lane is retired: it rests then (R398, R400, R407). -/
def Dev.bringUp (c : Clock) (d : Dev) (n : Nat) : Dev :=
  match d.spoke n with
  | none => d
  | some s =>
    let bad := (s.lanes n).filterMap fun l => (d.laneBar l (if n < 256 then s.type.lane else s.type.fast)).map fun o => (l, o)
    let rest := fun (d : Dev) => ((d.noteDown c n).abortScans (s.lanes n)).updSpoke n fun s =>
      { (s.enter c.atc .disabled) with window := false, fast := false, agreed := none }
    if !bad.isEmpty then (rest d).reportTable c n bad
    else if (s.lanes n).any fun l => (d.lane l).retired then (rest d).updSpoke n fun s => { s with reason := 8 }
    else (d.updSpoke n fun s => { s with dis := .on }).restartSpoke c n

/-- Enable a spoke: its failures count from 0, and one that rests is brought up (R400, R402). -/
def Dev.enableSpoke (c : Clock) (d : Dev) (n : Nat) : Dev :=
  match d.spoke n with
  | none => d
  | some s =>
    let d := d.updSpoke n fun s => { s with fails := 0 }
    if s.resting then (d.updSpoke n fun s => { s with reason := 0 }).bringUp c n else d

def execSpkEnable (r : Req) (spoke : Nat) : State → Out := onDev <| serve 0x0702 r fun x d =>
  if 128 ≤ spoke then (rBad 0, d)
  else match d.liveSpoke spoke with
    | none => (rSt stBADSTATE, d)
    | some s => if s.dis.isEnding || s.resize.isSome then (rSt stBADSTATE, d) else (rOk, d.enableSpoke x.clk spoke)

/-- A receiver-detect pulse, every 10 ms; `hit` says that every lane saw its far-end termination (R400). -/
def execDetectPulse (spoke : Nat) (hit : Bool) : State → Out := onDev fun c d =>
  match d.spoke spoke with
  | none => d
  | some s =>
    if s.st != .detect || (s.pulse != 0 && c.atc + 1 < s.pulse + 19660800) then d
    else d.updSpoke spoke fun s => if hit then s.enter c.atc .train else { s with pulse := c.atc + 1 }

/-- The CDR of every lane has held lock for 1 ms, and in STANDARD electrical training the peer is ready (R400). -/
def execCdrLockHeld (spoke : Nat) : State → Out := onDev fun c d =>
  match d.spoke spoke with
  | none => d
  | some s => if s.st != .train || c.atc < s.since + 1966080 then d else d.updSpoke spoke fun s => s.enter c.atc .lock

/-- Every lane has block or codeword lock; outside R395's skew, LOCK fails with reason SKEW (R395, R400). -/
def execPcsLock (spoke : Nat) (skewOk : Bool) : State → Out := onDev fun c d =>
  match d.spoke spoke with
  | none => d
  | some s =>
    if s.st != .lock then d
    else if !skewOk then d.spkFail c spoke 4
    else if s.profile = 1 then d.updSpoke spoke fun s => { (s.enter c.atc .exchange) with nextSend := c.atc, peerCap := [], agreed := none }
    else d.spkUp c spoke

/-- A training frame of the peer asks for a coefficient update: the answer is "not updated", and nothing changes
(R400). -/
def execCoefficientUpdateRequest (_lane : Nat) : State → Out := onDev fun _ d => d

/-- A state's timeout (R400, R402). -/
def execBringupTimeout (spoke : Nat) : State → Out := onDev fun c d =>
  match d.spoke spoke with
  | none => d
  | some s =>
    match s.st with
    | .detect =>
      if s.told || c.atc < s.since + 1966080000 then d
      else (d.updSpoke spoke fun s => { s with told := true, reason := 1 }).spkDown c spoke 1 s.fails
    | .train => if c.atc < s.since + 983040000 then d else d.spkFail c spoke 2
    | .lock => if c.atc < s.since + 196608000 then d else d.spkFail c spoke 3
    | .exchange => if c.atc < s.since + 98304000 then d else d.spkFail c spoke 5
    | _ => d

def execRetryWaitEnd (spoke : Nat) : State → Out := onDev fun c d =>
  match d.spoke spoke with
  | none => d
  | some s => if s.st != .wait || c.atc < s.waitEnd then d else d.restartSpoke c spoke

/-! ### The handshake (R403, R404) -/

/-- A fixed latency in 2^-8 ns at the standard rate (R394, R403). -/
def Spoke.latNs (s : Spoke) (fec : Nat) : Nat × Nat := ((s.type.lat.find? fun l => l.1 = fec).map (·.2)).getD (0, 0)

/-- FEC choices as a mask (R403). -/
def Spoke.fecMask (s : Spoke) : Nat := [0, 1, 2].foldl (fun m f => if fecOk s.type s.profile f then m + 2 ^ f else m) 0

/-- Bytes [31:4] of the device's CAP (R403): the latencies are those of the preferred FEC at the standard rate. -/
def Dev.capBody (d : Dev) (n : Nat) (s : Spoke) : List Byte :=
  let l := s.latNs (if fecOk s.type s.profile s.fecPref then s.fecPref else s.type.fecs.headD 0)
  pk [(1, 1 + 2 * (d.mayFast n s).toNat), (1, s.fecMask), (1, s.cmp), (1, s.mRange), (1, s.domains), (3, 0),
      (4, l.1 * 256), (4, l.2 * 256), (2, 256), (2, 0), (8, Config.ident)]

/-- The agreement of two CAP bodies, none for NOMATCH (R404). -/
def agree (s : Spoke) (own peer : List Byte) : Option Agreement :=
  let both := fun o => fieldAt own o 1 &&& fieldAt peer o 1
  let fecs := both 1
  let fec := if bit fecs s.fecPref && fecOk s.type s.profile s.fecPref then some s.fecPref
    else [2, 1, 0].find? fun f => bit fecs f && fecOk s.type s.profile f
  let lo := max (fieldAt own 3 1 % 16) (fieldAt peer 3 1 % 16)
  let hi := min (fieldAt own 3 1 / 16) (fieldAt peer 3 1 / 16)
  let cmp := both 2 % 8
  let dom := both 4 % 4
  match fec with
  | none => none
  | some f =>
    if cmp = 0 || dom = 0 || hi < lo then none
    else some { fast := bit (both 0) 1, fec := f, cmp := cmp, mLo := lo, mHi := hi, domains := dom }

/-- AGREED (R403): rate bit, FEC bit, CMP mask, DOMAINS mask. -/
def Agreement.word (a : Agreement) : Nat :=
  2 ^ a.fast.toNat + 2 ^ 8 * 2 ^ a.fec + 2 ^ 16 * a.cmp + 2 ^ 24 * a.domains

/-- DIGEST (R403): the CRC-32 over both bodies, lower IDENT first. -/
def digest (own peer : List Byte) : Nat :=
  if fieldAt own 20 8 ≤ fieldAt peer 20 8 then crc32 (own ++ peer) else crc32 (peer ++ own)

/-- A handshake payload of 64 bytes: CAP, or CONFIRM once an agreement is made (R403, R404). -/
def Dev.handshakePayload (d : Dev) (n : Nat) (s : Spoke) : List Byte :=
  let own := d.capBody n s
  let tail := match s.agreed with
    | some a => pk [(4, a.word), (4, digest own s.peerCap)]
    | none => pk [(8, 0)]
  pk [(1, if s.agreed.isSome then 2 else 1), (1, 1), (1, s.seq), (1, 0)] ++ own ++ tail ++ List.replicate 24 0

/-- A big-endian field of `n` bytes (R427). -/
def be (n v : Nat) : List Byte := (le n v).reverse

/-- HELLO: GROUP_ID, tandem ID, link, group epoch, IDENT (R541); the layout is the model's (DESIGN CHOICE log 100). -/
def Dev.hello (d : Dev) (n : Nat) : List Byte :=
  pk [(2, (d.tnd.group.map (·.1)).getD 0), (1, d.pkg.tandemId), (1, n - 256), (1, d.tnd.epoch), (8, Config.ident)]

/-- CAP or CONFIRM is sent every 100 us in EXCHANGE, as a Breano frame of the port (R403, R404, R444); a tandem link
sends HELLO in their place (R541). -/
def execCapFrameSend (spoke : Nat) : State → Out := onDev fun c d =>
  match d.spoke spoke with
  | none => d
  | some s =>
    if s.st != .exchange || c.atc < s.nextSend then d
    else
      let fr := if 256 ≤ spoke then d.hello spoke else be 6 (2 ^ 48 - 1) ++ be 6 (d.port spoke).ownMac ++ be 2 0x88B5 ++ d.handshakePayload spoke s
      let d := d.updSpoke spoke fun s =>
        { s with seq := (s.seq + 1) % 256, nextSend := c.atc + 196608, ownCap := d.capBody spoke s }
      d.updPort spoke fun p => { p with queue := p.queue ++ [{ cls := 3, bytes := fr, ready := c.atc }] }

/-- A CAP payload arrives in EXCHANGE: the agreement is made, or EXCHANGE fails with NOMATCH (R401, R404). -/
def Dev.onCap (c : Clock) (d : Dev) (n : Nat) (payload : List Byte) : Dev :=
  match d.spoke n with
  | none => d
  | some s =>
    if s.st != .exchange || s.agreed.isSome || payload.length < 64 || fieldAt payload 0 1 != 1 || fieldAt payload 1 1 != 1 then d
    else
      let peer := (payload.drop 4).take 28
      match agree s (d.capBody n s) peer with
      | none => d.spkFail c n 6
      | some a =>
        if s.first.any fun f => f != a then d.spkFail c n 6
        else d.updSpoke n fun s => { s with agreed := some a, peerCap := peer }

/-- A CONFIRM payload arrives: equal, EXCHANGE succeeds, once more at the SPOKE rate where that is agreed; different, it
fails with NOMATCH (R401, R404). -/
def Dev.onConfirm (c : Clock) (d : Dev) (n : Nat) (payload : List Byte) : Dev :=
  match d.spoke n with
  | none => d
  | some s =>
    match s.agreed with
    | none => d
    | some a =>
      if s.st != .exchange || payload.length < 64 || fieldAt payload 0 1 != 2 || fieldAt payload 1 1 != 1 then d
      else if fieldAt payload 32 4 != a.word || fieldAt payload 36 4 != digest (d.capBody n s) s.peerCap then d.spkFail c n 6
      else if a.fast && !s.fast then
        ((d.abortScans (s.lanes n)).resetLaneTrims n (s.lanes n)).updSpoke n fun s =>
          { (s.enter c.atc .train) with fast := true, first := some a, agreed := none }
      else d.spkUp c n

def execCap (spoke : Nat) (payload : List Byte) : State → Out := onDev fun c d => d.onCap c spoke payload
def execConfirm (spoke : Nat) (payload : List Byte) : State → Out := onDev fun c d => d.onConfirm c spoke payload

/-! ### Traffic stops; faults and self-tests (R406, R407, R412) -/

/-- Traffic of a port stops as by ABORT: the frame in flight ends with an inverted FCS, queued frames are discarded and
counted (R412). -/
def Port.abort (p : Port) : Port :=
  { p with queue := [], busy := none, sentBad := p.busy.isSome || p.sentBad }.count 25 p.queue.length

/-- Each lane of a spoke begins its targeted self-test (R407), for the command with TAG `asked` if one asked for it. -/
def Dev.testLanes (c : Clock) (d : Dev) (ls : List Nat) (asked : Option Nat) : Dev :=
  ls.foldl (fun d l => d.updLane l fun x => { x with testAt := c.atc + 1, asked := asked }) d

/-- Uncorrectable codewords are counted, and kept for a second (R406, R423). -/
def Spoke.seeUe (s : Spoke) (now n : Nat) : Spoke :=
  let l := s.ues.filter fun e => now < e.1 + 1966080000
  { s with uncorr := satAdd 64 s.uncorr n, ues := if n = 0 then l else (now, n) :: l }

/-- An ACTIVE spoke leaves ACTIVE: lock loss (0), hi_ber (1), or more than FEC_UE_LIMIT uncorrectable codewords in 1 s (2), `ue` of
them since the last frame (R406). -/
def execSpokeFault (spoke kind ue : Nat) : State → Out := onDev fun c d =>
  match d.spoke spoke with
  | none => d
  | some s =>
    let seen := s.seeUe c.atc (if kind = 2 then ue else 0)
    if s.st != .active || 2 < kind || (kind = 2 && (seen.ues.map (·.2)).sum ≤ s.ueLimit) then d
    else
      let reason := if kind = 0 then 3 else if kind = 1 then 9 else 10
      let d := ((d.noteDown c spoke).updPort spoke Port.abort).abortScans (s.lanes spoke)
      let d := d.updSpoke spoke fun s =>
        { ((s.seeUe c.atc (if kind = 2 then ue else 0)).enter c.atc .test) with reason := reason, window := false, ues := [] }
      (d.spkDown c spoke reason s.fails).testLanes c (s.lanes spoke) none

/-- The classification of a lane's test (R407): errors, or the fourth transient in 24 h, make the fault lasting. -/
def execLaneSelftestDone (lane : Nat) (errors : Bool) : State → Out := onDev fun c d =>
  let x := d.lane lane
  if x.testAt = 0 || c.atc + 1 < x.testAt + 19660800 then d
  else
    let l := recentTransients c.atc 3 lane d.mem.transients
    let lasting := errors || (x.asked.isNone && fourth 3 lane l)
    let own := d.laneSpoke lane
    let sp := (own.map (·.1)).getD 0xFF
    let blk := if lane < 128 then 20 + lane / 32 else 26
    let d := d.updLane lane fun y => { y with testAt := 0, asked := none, retired := lasting }
    if lasting then
      let d := d.trouble blk trbLASTING
      let d := if lane < 128 then
          (d.abortScans [lane]).evtLog c 0 0 0x0784 (x.asked.getD 0) blk trbRETIRED [(0, 1, lane), (1, 1, sp)]
        else (d.trouble blk trbRETIRED).spkDown c sp 8 0 (x.asked.getD 0)
      match own with
      | some (n, s) =>
        if s.st = .disabled then d
        else
          let d := if s.st = .active then (d.noteDown c n).updPort n Port.abort else d
          d.updSpoke n fun s => { (s.enter c.atc .test) with reason := 8, window := false }
      | none => d
    else
      let d := if x.asked.isSome then d else (d.updMem fun m => { m with transients := l }).trouble blk trbTRANSIENT
      match own with
      | some (n, s) =>
        if s.st = .test && (s.lanes n).all fun l => (d.lane l).testAt = 0 && !(d.lane l).retired then
          d.updSpoke n fun s => { (s.enter c.atc .wait) with waitEnd := c.atc + 19660800 * 2 ^ min s.fails 7 }
        else d
      | none => d

/-! ### Disable, resize, sleep (R412-R414) -/

/-- The disable of a spoke from this cycle on: a spoke in bring-up rests at once (R412). -/
def Dev.disableSpoke (c : Clock) (d : Dev) (n : Nat) (abort : Bool) (tag : Nat) : Dev :=
  let d := if abort then d.updPort n Port.abort else d
  d.updSpoke n fun s =>
    { s with dis := .ending abort c.atc tag, st := if s.st = .active then .active else .disabled }

/-- Nothing that was accepted before T_D is left. -/
def Dev.portIdle (d : Dev) (n : Nat) : Bool := (d.port n).queue.isEmpty && (d.port n).busy.isNone

/-- A spoke with a pending disable and no work left rests, and SPK_DISABLED is posted; for a resize it comes up again
with its new port type, and the sets of the numbers it now absorbs are deleted (R412, R413, R639). -/
def Dev.finishDisable (c : Clock) (d : Dev) (n : Nat) : Dev :=
  match d.spoke n with
  | none => d
  | some s =>
    match s.dis with
    | .ending abort _ tag =>
      if s.st = .active && !d.portIdle n then d
      else match s.resize with
        | some t =>
          let d := ((({ s with port := t } : Spoke).lanes n).filter fun l => l != n).foldl (fun d l => d.clearPort l) d
          (((d.abortScans (s.lanes n)).resetLaneTrims n (s.lanes n)).updSpoke n fun s =>
            { s with port := t, dis := .on, resize := none, resized := some (t, tag) }).bringUp c n
        | none =>
          let d := ((d.noteDown c n).abortScans (s.lanes n)).updSpoke n fun s =>
            { (s.enter c.atc .disabled) with dis := .disabled, window := false, fast := false, agreed := none }
          if n < 256 then d.evt0 c 0x0782 tag [(0, 1, n), (1, 1, abort.toNat)]
          else d.evt0 c 0x0C85 tag [(0, 1, n - 256), (1, 1, abort.toNat)]
    | _ => d

def execSpkDisabled (spoke : Nat) : State → Out := onDev fun c d => d.finishDisable c spoke

def execSpkDisable (r : Req) (spoke mode : Nat) : State → Out := onDev <| serveThen 0x0703 r
  (fun x d =>
    if 128 ≤ spoke then (rBad 0, d)
    else if 1 < mode then (rBad 1, d)
    else if d.absorbed spoke then (rSt stBADSTATE, d)
    else match d.spoke spoke with
      | none => (rBad 0, d)
      | some s =>
        if s.dis.isEnding then (rSt stBUSY, d)
        else (rAcc [(8, x.clk.atc)], d.disableSpoke x.clk spoke (mode = 1) x.tag))
  fun x d => if (d.spoke spoke).any fun s => s.st != .active then d.finishDisable x.clk spoke else d

def execSpkResize (r : Req) (spoke port : Nat) : State → Out := onDev <| serve 0x0707 r fun x d =>
  if 128 ≤ spoke then (rBad 0, d)
  else if d.absorbed spoke then (rSt stBADSTATE, d)
  else match d.spoke spoke, portType port with
    | none, _ => (rBad 0, d)
    | _, none => (rBad 1, d)
    | some s, some t =>
      let s' := { s with port := port, fast := false }
      if spoke % t.lanes != 0 || (s'.lanes spoke).any (fun l => d.laneOptical l != d.laneOptical spoke) ||
          (s.profile = 0 && !fecOk t 0 s.fecPref) then (rBad 1, d)
      else if !d.halfFits spoke s' then (rSt stOVERLOAD, d)
      else if s.dis.isEnding || d.spk.spokes.any fun e => e.1 != spoke && !e.2.resting && e.1 < spoke + t.lanes &&
          spoke < e.1 + e.2.span then (rSt stBUSY, d)
      else
        (rAcc [(8, x.clk.atc)], (d.disableSpoke x.clk spoke false x.tag).updSpoke spoke fun s => { s with resize := some port })

/-- A resized spoke is ACTIVE again (R413). -/
def execSpkResized (spoke : Nat) : State → Out := onDev fun c d =>
  match d.spoke spoke with
  | none => d
  | some s =>
    match s.resized with
    | some (t, tag) =>
      if s.st != .active then d
      else (d.updSpoke spoke fun s => { s with resized := none }).evt0 c 0x0786 tag [(0, 1, spoke), (1, 1, t)]
    | none => d

/-- After Park, every spoke of quadrant `q` that is not disabled restarts bring-up (R414). -/
def Dev.retrainQuadrant (c : Clock) (d : Dev) (q : Nat) : Dev :=
  d.spk.spokes.foldl (fun d e =>
    if e.1 / 32 = q && e.2.st != .disabled && (e.2.lanes e.1).all (fun l => !(d.lane l).retired) then d.restartSpoke c e.1 else d) d

/-- The same of the tandem links, after Park of D26 (R414). -/
def Dev.retrainLinks (c : Clock) (d : Dev) : Dev :=
  d.spk.spokes.foldl (fun d e => if 256 ≤ e.1 && e.2.st != .disabled then d.restartSpoke c e.1 else d) d

/-! ### Status and latency (R396, R423) -/

def SpkSt.code : SpkSt → Nat
  | .disabled => 0
  | .detect => 1
  | .train => 2
  | .lock => 3
  | .exchange => 4
  | .active => 5
  | .wait => 6
  | .test => 7

def Agreement.fields (a : Agreement) : List (Nat × Nat) :=
  [(1, a.fast.toNat), (1, a.fec), (1, a.cmp), (1, a.mLo + 16 * a.mHi), (1, a.domains)]

def execSpkStatus (r : Req) (spoke : Nat) : State → Out := onDev <| serve 0x0704 r <| noFx fun _ d =>
  if 128 ≤ spoke then rBad 0
  else match d.liveSpoke spoke with
    | none => rOk [(64, 0)]
    | some s =>
      rOk ([(1, s.st.code), (1, s.reason), (1, s.fails)] ++
        ((s.agreed.map (·.fields)).getD [(5, 0)]) ++
        [(4, fieldAt s.peerCap 8 4), (4, fieldAt s.peerCap 12 4), (8, fieldAt s.peerCap 20 8), (8, s.corr), (8, s.uncorr),
         (8, s.mismatch), (8, s.winDrop), (8, s.winBad)])

/-- n / m rounded half to even. -/
def roundEven (n m : Nat) : Nat :=
  let q := n / m
  if 2 * (n % m) < m then q else if m < 2 * (n % m) then q + 1 else q + q % 2

/-- A latency of `ns` at the spoke's rate, in 2^-16 Tc (R394, R396). -/
def Spoke.latTc (s : Spoke) (ns : Nat) : Nat :=
  let f := if s.fast then (s.type.lane, s.type.fast) else (1, 1)
  roundEven (ns * 196608 * 65536 * f.1) (100000 * f.2)

/-- TX and RX latency now, in 2^-16 Tc (R396). -/
def Spoke.latency (s : Spoke) : Nat × Nat :=
  let l := s.latNs ((s.agreed.map (·.fec)).getD s.fecPref)
  (s.latTc l.1, s.latTc l.2)

def execSpkGetLatency (r : Req) (spoke : Nat) : State → Out := onDev <| serve 0x0705 r <| noFx fun _ d =>
  if 128 ≤ spoke then rBad 0
  else match d.liveSpoke spoke with
    | none => rSt stBADSTATE
    | some s => if s.st != .active then rSt stBADSTATE else rOk [(8, s.latency.1), (8, s.latency.2)]

/-! ### The lane table (R399) -/

/-- The blob with `bs` at `off` and its CRC made good (R631). -/
def blobPut (blob : List Byte) (off : Nat) (bs : List Byte) : List Byte :=
  let b := (blob.take off ++ bs ++ blob.drop (off + bs.length)).take 8188
  b ++ le 4 (crc32 b)

/-- Entries cut from a request. -/
def cutEntries (first : Nat) : Nat → List Byte → List (Nat × List Byte)
  | 0, _ => []
  | n + 1, bs => (first, bs.take 48) :: cutEntries (first + 1) n (bs.drop 48)

def execLaneTableApply (r : Req) (first count : Nat) (entries : List Byte) : State → Out :=
  onDev <| serve 0x0710 r fun x d =>
    let es := cutEntries first count entries
    if 128 ≤ first then (rBad 0, d)
    else if 128 < first + count || entries.length != 48 * count then (rBad 1, d)
    else match es.find? fun e => (laneEntryFault e.1 e.2).isSome with
      | some e => (rBad (2 + 48 * (e.1 - first) + (laneEntryFault e.1 e.2).getD 0), d)
      | none =>
        let changed := fun l => es.any fun e => e.1 = l && e.2 != d.laneEntry l
        let hit := d.spk.spokes.filter fun e => e.2.st != .disabled && (e.2.lanes e.1).any changed
        let d := d.updSpk fun s => { s with table := s.table.take (48 * first) ++ entries ++ s.table.drop (48 * (first + count)) }
        let d := d.updPkg fun p => { p with blobFlash := p.blobFlash.map fun b => blobPut b (64 + 48 * first) entries }
        let d := es.foldl (fun d e => d.resetTrims 0 e.1) d
        (rOk, hit.foldl (fun d e => (d.updPort e.1 Port.abort).bringUp x.clk e.1) d)

def execLaneTableGet (r : Req) (lane : Nat) : State → Out := onDev <| serve 0x0711 r <| noFx fun _ d =>
  if 128 ≤ lane then rBad 0
  else { status := stOK, payload := (d.laneEntry lane ++ List.replicate 48 0).take 48 }

/-! ### Loops, patterns, injection (R415-R419) -/

/-- A lane may be looped, driven, checked or tested: LINETEST, or its spoke rests and no map of it names a stream
(R415). -/
def Dev.laneFree (d : Dev) (l : Nat) : Bool :=
  d.devmode.mode = .linetest ||
  match d.laneSpoke l with
  | some (n, s) => s.resting && (d.spk.maps.all fun e => e.1 != n || (e.2.act ++ e.2.latest).all fun y => !y.2.tx && !y.2.rx)
  | none => true

/-- The lane's bit rate, kb/s, and whether it is PAM4. -/
def Dev.laneSpeed (d : Dev) (l : Nat) : Nat × Bool :=
  let x := d.lane l
  if x.raw != 0 then (x.raw, 28125000 < x.raw)
  else match d.laneSpoke l with
    | some (_, s) => (s.laneRate, s.type.pam4)
    | none => (0, false)

def execLaneLoop (r : Req) (lane loop echo : Nat) : State → Out := onDev <| serve 0x0712 r fun _ d =>
  if 128 ≤ lane then (rBad 0, d)
  else if 3 < loop then (rBad 1, d)
  else if 1 < echo then (rBad 2, d)
  else if !d.laneFree lane then (rSt stBADSTATE, d)
  else (rOk, d.updLane lane fun x => { x with loop := loop, echo := echo = 1 })

/-- The pattern is none of R417, or SSPRQ at an NRZ rate. -/
def patFault (pat : Nat) (pam4 : Bool) : Bool := 8 < pat || (pat = 7 && !pam4)

def execLanePatgen (r : Req) (lane pat inv user raw : Nat) : State → Out := onDev <| serve 0x0713 r fun _ d =>
  let pam4 := if raw = 0 then (d.laneSpeed lane).2 else 28125000 < raw
  if 128 ≤ lane then (rBad 0, d)
  else if patFault pat pam4 then (rBad 1, d)
  else if 1 < inv then (rBad 2, d)
  else if raw != 0 && (raw < 1250000 || 112500000 < raw) then (rBad 11, d)
  else if !d.laneFree lane || (raw != 0 && d.devmode.mode != .linetest) then (rSt stBADSTATE, d)
  else
    let d := if raw != (d.lane lane).raw then d.abortScans [lane] else d
    (rOk, d.updLane lane fun x => { x with gen := { pat := pat, inv := inv = 1, user := user }, raw := raw })

/-- The counters of a locked checker come up to date: bits by the lane's rate, errors as the line gives them, which is
free (R418). -/
def Dev.countChecker (c : Clock) (d : Dev) (l : Nat) : Dev :=
  let x := d.lane l
  if !x.locked then d
  else
    let v := d.laneSpeed l
    let n := (c.atc - x.lockAt) * v.1 / 1966080
    let e := draw d
    let s := draw e.2
    s.2.updLane l fun x =>
      { x with lockAt := c.atc, nBits := satAdd 48 x.nBits n, nErr := satAdd 48 x.nErr (e.1 % (n + 1))
               nSym := satAdd 48 x.nSym (if v.2 then s.1 % (n / 2 + 1) else 0) }

def execLanePatchk (r : Req) (lane pat inv user enable : Nat) : State → Out := onDev <| serve 0x0714 r fun x d =>
  if 128 ≤ lane then (rBad 0, d)
  else if patFault pat (d.laneSpeed lane).2 then (rBad 1, d)
  else if 1 < inv then (rBad 2, d)
  else if 1 < enable then (rBad 11, d)
  else if !d.laneFree lane then (rSt stBADSTATE, d)
  else (rOk, (d.countChecker x.clk lane).updLane lane fun x =>
    { x with chk := { pat := pat, inv := inv = 1, user := user }, chkOn := enable = 1, locked := false })

/-- 128 error-free bits in a row: the checker locks and counts from here (R418). -/
def execCheckerLock (lane : Nat) : State → Out := onDev fun c d =>
  d.updLane lane fun x => if x.chkOn && !x.locked then { x with locked := true, lockAt := c.atc } else x

/-- 32 or more errors in 128 bits: the checker loses lock (R418). -/
def execCheckerLockLoss (lane : Nat) : State → Out := onDev fun c d =>
  if (d.lane lane).locked then
    (d.countChecker c lane).updLane lane fun x => { x with locked := false, nLoss := satAdd 48 x.nLoss 1 }
  else d

def execLaneChkRead (r : Req) (lane clear : Nat) : State → Out := onDev <| serve 0x0716 r fun x d =>
  if 128 ≤ lane then (rBad 0, d)
  else if 1 < clear then (rBad 1, d)
  else
    let d := d.countChecker x.clk lane
    let y := d.lane lane
    (rOk [(1, y.locked.toNat), (8, y.nBits), (8, y.nErr), (8, y.nSym), (8, y.nLoss), (4, y.skipped)],
     if clear = 0 then d else d.updLane lane fun y => { y with nBits := 0, nErr := 0, nSym := 0, nLoss := 0 })

def execLaneInject (r : Req) (lane point len every : Nat) : State → Out := onDev <| serve 0x0715 r fun _ d =>
  if 128 ≤ lane then (rBad 0, d)
  else if 1 < point then (rBad 1, d)
  else if len = 0 || 64 < len then (rBad 2, d)
  else if every != 0 && (every < 1024 || 2 ^ 40 < every) then (rBad 3, d)
  else if !d.laneFree lane || (point = 1 && d.devmode.mode != .linetest) then (rSt stBADSTATE, d)
  else (rOk, d.updLane lane fun x =>
    { x with injPoint := point, injLen := len, injEvery := every, injected := x.injected + 1 })

/-- An interval elapses: a burst is injected, or skipped where the last one still runs (R419). -/
def execInjectInterval (lane : Nat) (overlap : Bool) : State → Out := onDev fun _ d =>
  d.updLane lane fun x =>
    if x.injLen = 0 || x.injEvery = 0 then x
    else if overlap then { x with skipped := satAdd 32 x.skipped 1 } else { x with injected := x.injected + 1 }

def execLaneSelftest (r : Req) (lane : Nat) : State → Out := onDev <| serve 0x0719 r fun x d =>
  if 128 ≤ lane then (rBad 0, d)
  else if !d.laneFree lane then (rSt stBADSTATE, d)
  else (rAcc, d.testLanes x.clk [lane] (some x.tag))

/-! ### Eye scan (R420-R422) -/

/-- LANE_EYESCAN (R420-R423). On a lane that has no rate the manual gives the scan no duration: a free value. -/
def execLaneEyescan (r : Req) (lane kind n : Nat) : State → Out := onDev <| serve 0x0717 r fun x d =>
  let v := d.laneSpeed lane
  if 128 ≤ lane then (rBad 0, d)
  else if 1 < kind then (rBad 1, d)
  else if n < 6 || 12 < n then (rBad 2, d)
  else if (d.lane lane).scan.isSome then (rSt stBUSY, d)
  else
    let points := if kind = 1 then 8192 else if v.2 then 320 else 192
    let time := if v.1 = 0 then draw d else (cdiv (points * 3 * 10 ^ n * 1966080) v.1, d)
    (rAcc, time.2.updLane lane fun y =>
      { y with scan := some { kind := kind, n := n, tag := x.tag, ends := x.clk.atc + time.1 } })

/-- The longest run of true among positions 0 .. n - 1: length and start, the lowest on a tie. -/
def longestRun (p : Nat → Bool) (n : Nat) : Nat × Nat :=
  let r := (List.range n).foldl (fun (o : Nat × Nat × Nat) i =>
    let cur := if p i then o.1 + 1 else 0
    (cur, if o.2.1 < cur then (cur, i + 1 - cur) else o.2)) (0, 0, 0)
  r.2

/-- The run of true through position `q`. -/
def runThrough (p : Nat → Bool) (q n : Nat) : Nat :=
  if !p q then 0
  else
    let up := ((List.range (n - q)).takeWhile fun i => p (q + i)).length
    let down := ((List.range q).takeWhile fun i => p (q - 1 - i)).length
    up + down

/-- One eye of a map about a threshold row (R421): width in mUI, height in 1/8 mV, centre column, row. -/
def eyeOf (map : Nat) (row : Nat) : Nat × Nat × Nat × Nat :=
  let open_ := fun t ph => bit map (64 * t + ph)
  let w := longestRun (open_ row) 64
  let centre := w.2 + (w.1 - 1) / 2
  (roundEven (w.1 * 15625) 1000, 25 * runThrough (fun t => open_ t centre) row 128, centre, row)

/-- A scan completes, or is reported aborted (R421, R422). What the sampler saw, and where the slicer thresholds lie,
is free. -/
def execEyeDone (lane : Nat) : State → Out := onDev fun c d =>
  match (d.lane lane).scan with
  | none => d
  | some s =>
    if !s.aborted && c.atc < s.ends then d
    else if s.aborted then
      (d.updLane lane fun x => { x with scan := none }).evt0 c 0x0783 s.tag [(0, 1, lane), (1, 1, 1)]
    else
      let m := draw d
      let rows := draw m.2
      let n := if (d.laneSpeed lane).2 then 3 else 1
      let eyes := (List.range n).map fun i => eyeOf m.1 (rows.1 / 128 ^ i % 128)
      let e : Eye := { kind := s.kind, atc := c.atc, eyes := eyes, map := if s.kind = 1 then le 1024 m.1 else [] }
      (rows.2.updLane lane fun x => { x with scan := none, eye := some e }).evt0 c 0x0783 s.tag [(0, 1, lane), (1, 1, 0)]

/-- The request was sent by reference (R63). -/
def Dev.isRef (d : Dev) (r : Req) : Bool :=
  (d.host.waiting.find? fun w => w.page = r.page && w.slot = r.slot).any fun w => bit w.flags 0

def execLaneEyeRead (r : Req) (lane : Nat) : State → Out := onDev <| serve 0x0718 r <| noFx fun _ d =>
  if 128 ≤ lane then rBad 0
  else match (d.lane lane).eye with
    | none => rSt stBADSTATE
    | some e =>
      let one := fun i => let y := e.eyes.getD i (0, 0, 0, 0); pk [(2, y.1), (2, y.2.1), (1, y.2.2.1), (1, y.2.2.2)]
      { status := stOK, payload := [0, 1, 2].flatMap one ++ le 8 e.atc ++ (if d.isRef r then e.map else []) }

end Sys2Proof.Machine
end

