-- ==== Sys2Proof/Machine/Mover.lean ====
section
/-! DEFINITION. Movers (chapter 12): descriptors, their checks, the transfer itself, completion, halts, resume and
disable, and the channel commands. Channels 576-591 are the exchange channels of the tandem block (R558). -/
namespace Sys2Proof.Machine

def Dev.chan (d : Dev) (n : Nat) : Chan := tget {} d.mov.chans n
def Dev.updChan (d : Dev) (n : Nat) (f : Chan → Chan) : Dev := d.updMov fun m => { m with chans := tmod {} m.chans n f }

/-- The mover of a channel: 0-15 cluster, 16-23 system, 24 host, 25 the exchange channels (R348, R558). -/
def moverOf (n : Nat) : Nat := if n < 256 then n / 16 else if n < 512 then 16 + (n - 256) / 32 else if n < 576 then 24 else 25

/-- A channel Breano keeps for its own use (R350). -/
def breanoChan (n : Nat) : Bool := (n < 256 && n % 16 < 4) || (256 ≤ n && n < 512 && n % 32 < 8)

/-- The function that owns a host-mover channel, 0xFF none (R350). -/
def Dev.chanFunc (d : Dev) (n : Nat) : Nat := tget 0xFF d.host.qOwner (n - 512)

/-- The function whose Requester ID a host-mover channel's accesses carry: its owner, or PF1 (16) for a queue on port 1 (R41,
R65). -/
def Dev.chanRid (d : Dev) (n : Nat) : Nat := if tget 0 d.host.qPort (n - 512) = 1 then 16 else d.chanFunc n

/-- A host-mover channel reads host memory, with No Snoop as its queue asks (R72). -/
def Dev.chanFetch (d : Dev) (n a len : Nat) : List Byte × Dev :=
  (readBytes d.host.mem a len, d.updHost fun h => h.fetch (d.chanRid n) a len (d.chan n).noSnoop)

/-- A host-mover channel writes host memory. -/
def Dev.chanStore (d : Dev) (n a : Nat) (bs : List Byte) : Dev := d.updHost fun h => h.store (d.chanRid n) a bs

/-- Before an event about a queue on port 1 is written, the host mover reads 0 bytes there and waits for the answer (R360). The
address read is the model's choice (DESIGN CHOICE, log 160). -/
def Dev.flushPort (d : Dev) (n : Nat) : Dev :=
  if moverOf n = 24 && tget 0 d.host.qPort (n - 512) = 1 then (d.chanFetch n 0 0).2 else d

/-- The ring that a channel's events go to (R366). -/
def Dev.chanRing (d : Dev) (n : Nat) : Nat := if moverOf n = 24 && d.chanFunc n < 16 then d.chanFunc n else 0

/-- The domain in which a mover lies, if switched (R348, R582). -/
def moverDomain (n : Nat) : Option Nat := if n < 256 then some (n / 16) else if moverOf n = 25 then some 26 else none

/-- A mover takes descriptors: its domain is awake and has not been asked to sleep (R590). -/
def Dev.moverRuns (d : Dev) (n : Nat) : Bool :=
  match moverDomain n with
  | some k => (d.dom k).st = .awake && !d.asked k
  | none => true

/-- A mover of the domain has a descriptor started and not completed (R591). -/
def Dev.moversBusy (d : Dev) (n : Nat) : Bool :=
  d.mov.chans.any fun e => moverDomain e.1 = some n && e.2.started

/-- Index of a free-running count in the ring. -/
def Chan.slot (k : Chan) (i : Nat) : Nat := k.base + 64 * (i % 2 ^ k.log)

/-- Descriptors posted and not completed. -/
def Chan.ahead (k : Chan) : Nat := (k.prod + 65536 - k.done) % 65536

/-- STATE (R355). -/
def Chan.state (k : Chan) : Nat :=
  match k.dis with
  | .off => 0
  | .disabled => 5
  | .ending true _ _ => 4
  | .ending false _ _ => if k.halted then 2 else 3
  | .on => if k.halted then 2 else 1

/-! ### Descriptors (R351, R352) -/

/-- A descriptor as read: words 0-10. -/
structure Desc where
  own : Bool
  notify : Bool
  arrive : Bool
  wake : Bool
  kind : Nat
  srcLdm : Bool
  dstLdm : Bool
  tag : Nat
  len : Nat
  src : Nat
  dst : Nat
  rows : Nat
  srcStride : Int
  dstStride : Int
  fill : List Byte
  thread : Nat
  core : Nat
  /-- a reserved bit is set -/
  bad : Bool
  deriving DecidableEq, Repr

def Desc.of (b : List Byte) : Desc :=
  let w := fun i => fieldAt b (4 * i) 4
  let w0 := w 0
  { own := bit w0 31, notify := bit w0 30, arrive := bit w0 29, wake := bit w0 28, kind := bits w0 26 2, srcLdm := bit w0 25
    dstLdm := bit w0 24, tag := bits w0 0 16, len := bits (w 1) 0 25, src := fieldAt b 8 8, dst := fieldAt b 16 8
    rows := if bits w0 26 2 = 2 then bits (w 6) 0 16 else 1, srcStride := sgn 32 (w 7), dstStride := sgn 32 (w 8)
    fill := (b.drop 36).take 4, thread := bits (w 10) 0 16, core := bits (w 10) 16 10
    bad := bits w0 16 8 != 0 || bits (w 1) 25 7 != 0 || bits (w 6) 16 16 != 0 || bits (w 10) 26 6 != 0 }

/-- The host-mover channel reads host memory. R77 gives direction 8 bits and no encoding: 0 host to device and 1 device to host is
the model's choice (DESIGN CHOICE, log 147). -/
def Chan.fromHost (k : Chan) (n : Nat) : Bool := moverOf n = 24 && k.dir = 0
def Chan.toHost (k : Chan) (n : Nat) : Bool := moverOf n = 24 && k.dir = 1

/-- The thread may be made READY by the channel's owner (R215): PF0 and Breano any, a pool its own, a function none
(DESIGN CHOICE, log 71). -/
def Dev.wakeAllowed (d : Dev) (n t : Nat) : Bool :=
  let k := d.chan n
  if moverOf n = 24 then d.chanFunc n = 0
  else if k.owner = 2 then d.tPool t = k.pool && d.tState t != tsFREE else true

/-- The descriptor ends BADDESC (R352); a length or a row count of 0 is out of range (R351). -/
def Dev.descBad (d : Dev) (n : Nat) (x : Desc) : Bool :=
  let k := d.chan n
  x.bad || x.kind = 3 || x.len = 0 || x.rows = 0 || 16777216 < x.rows * x.len ||
  (x.kind != 1 && !k.fromHost n && 2 ^ 48 ≤ x.src) || (!k.toHost n && 2 ^ 48 ≤ x.dst) ||
  ((x.srcLdm || x.dstLdm) && (256 ≤ n || x.core / 64 != n / 16)) || (x.wake && !d.wakeAllowed n x.thread)

/-! ### Places (R348, R353, R354) -/

/-- A side of an access once checked. -/
inductive Place where
  | dev (a : Nat)
  | ldm (core off : Nat)
  | host (a : Nat)
  | window (a : Nat)
  deriving DecidableEq, Repr

/-- Tandem window addresses (R556). -/
def inWindow (a n : Nat) : Bool := 0x0380000000 ≤ a && a + n ≤ 0x0400000000

/-- Check one access of a channel: the place, or the cause of the refusal (R354). -/
def Dev.placeOf (d : Dev) (n : Nat) (x : Desc) (write : Bool) (a len : Nat) : Nat ⊕ Place :=
  let k := d.chan n
  let onHost := if write then k.toHost n else k.fromHost n
  let ldm := if write then x.dstLdm else x.srcLdm
  if onHost then .inr (.host a)
  else if ldm then if a + len ≤ 0x3E000 then .inr (.ldm x.core a) else .inl 4
  else if moverOf n = 24 then
    let w := tget (0, 0) d.mov.windows (d.chanFunc n)
    if d.chanFunc n = 0 && w.1 = 0 then if inMemory a len then .inr (.dev a) else .inl 2
    else if w.2 < a + len then .inl 4
    else if inMemory (w.1 + a) len then .inr (.dev (w.1 + a)) else .inl 2
  else
    let w := if write then k.dstWin else k.srcWin
    if moverOf n = 25 && inWindow a len then
      if w.1 ≤ a && a + len ≤ w.1 + w.2 then .inr (.window a) else .inl 4
    else if !inMemory a len then .inl 2
    else if w.1 ≤ a && a + len ≤ w.1 + w.2 then .inr (.dev a) else .inl 4

/-- A link of this device reaches tandem member `p` (R540): an ACTIVE link whose HELLO named it. -/
def Dev.reaches (d : Dev) (p : Nat) : Bool :=
  (List.range 8).any fun k => (d.spoke (256 + k)).any (fun s => s.st = .active) && (tget {} d.tnd.links k).peer = p

/-- The window that an address falls in is mapped and its peer reachable (R557). -/
def Dev.windowOpen (d : Dev) (a : Nat) : Bool :=
  match tfind d.tnd.windows ((a - 0x0380000000) / 0x10000000) with
  | some w => w.1 < 8 && d.reaches w.1
  | none => false

/-- An access that does not leave the place's domain asleep (R339). -/
def Dev.placeAwake (d : Dev) : Place → Bool
  | .dev a => (memDomain a).all fun k => d.awake k
  | .ldm core _ => d.awake (core / 64)
  | _ => true

/-- Read a checked source: the bytes, or the cause of a refused answer (R362). -/
def Dev.readPlace (c : Clock) (d : Dev) (n : Nat) (peer : List Byte) (len : Nat) (p : Place) :
    (Nat ⊕ List Byte) × Dev :=
  if !d.placeAwake p then (.inl 1, d)
  else match p with
    | .host a => let r := d.chanFetch n a len; (.inr r.1, r.2)
    | .window a => if d.windowOpen a then (.inr ((peer ++ List.replicate len 0).take len), d) else (.inl 4, d)
    | .dev a => let r := d.memRead c a len rqMover n; (if r.2.1 then .inl 3 else .inr r.1, r.2.2)
    | .ldm core off => let r := d.memRead c (ldmKey core off) len rqMover n; (if r.2.1 then .inl 3 else .inr r.1, r.2.2)

/-- A posted write met a closed gate: dropped and counted (R339). -/
def Dev.gateDrop (c : Clock) (d : Dev) (dom addr rid : Nat) : Dev :=
  let g := d.gate dom
  let d := d.updGate dom fun g =>
    { g with drop := satAdd 32 g.drop 1, first := if g.first = 0 then c.atc + 1 else g.first }
  let d := d.logDrop c dom addr rid 1
  if g.posted = 0 || g.posted + 1966080 ≤ c.atc + 1 then
    let g := d.gate dom
    (d.updGate dom fun g => { g with posted := c.atc + 1, first := 0 }).evt0 c 0x0EE2 0
      [(0, 1, dom), (4, 4, g.drop), (8, 8, g.first - 1)]
  else d

/-- A posted write leaves the mover (R339, R357, R374, R557). -/
def Dev.writePlace (c : Clock) (d : Dev) (n : Nat) (bs : List Byte) (p : Place) : Dev :=
  let rid := ridWord (1, n)
  let put := fun (key a : Nat) =>
    let r := d.memWrite key bs
    if r.1 then r.2.logDrop c (memBlock key) a rid 4 else r.2
  match p with
  | .host a => d.chanStore n a bs
  | .window a => if d.windowOpen a then d else d.logDrop c 26 a rid 3
  | .dev a => if d.placeAwake p then put a a else d.gateDrop c ((memDomain a).getD 0) a rid
  | .ldm core off => if d.placeAwake p then put (ldmKey core off) off else d.gateDrop c (core / 64) off rid

/-! ### The transfer -/

/-- One piece of a descriptor: bytes before it, source and destination address, length; at most 512 bytes (R349). -/
def Desc.pieces (x : Desc) : List (Nat × Nat × Nat × Nat) :=
  let step := fun (a : Nat) (s : Int) (r off : Nat) => (((a : Int) + s * r + off) % (2 ^ 64 : Nat)).toNat
  (List.range x.rows).flatMap fun r =>
    (List.range (cdiv x.len 512)).map fun i =>
      let off := 512 * i
      (r * x.len + off, step x.src (if x.kind = 2 then x.srcStride else 0) r off,
       step x.dst (if x.kind = 2 then x.dstStride else 0) r off, min 512 (x.len - off))

/-- Where a transfer has come to. -/
structure Run where
  d : Dev
  /-- the first refused access: address, write, cause, bytes before it -/
  stop : Option (Nat × Bool × Nat × Nat) := none
  /-- destination pieces written, newest last: for the read-back -/
  wrote : List (Nat × Nat) := []

/-- The bytes of a piece of a fill (R351). -/
def Desc.fillBytes (x : Desc) (pos len : Nat) : List Byte :=
  (List.range len).map fun i => x.fill.getD ((pos + i) % 4) 0

/-- Move one piece (R354, R357, R362). -/
def runPiece (c : Clock) (n : Nat) (x : Desc) (peer : List Byte) (r : Run) (p : Nat × Nat × Nat × Nat) : Run :=
  let pos := p.1
  let s := p.2.1
  let t := p.2.2.1
  let len := p.2.2.2
  if r.stop.isSome then r
  else
    let got : (Nat ⊕ List Byte) × Dev :=
      if x.kind = 1 then (.inr (x.fillBytes pos len), r.d)
      else match r.d.placeOf n x false s len with
        | .inl cause => (.inl cause, r.d)
        | .inr q => r.d.readPlace c n (peer.drop pos) len q
    match got.1 with
    | .inl cause => { r with d := got.2, stop := some (s, false, cause, pos) }
    | .inr bs =>
      match got.2.placeOf n x true t len with
      | .inl cause => { r with d := got.2, stop := some (t, true, cause, pos) }
      | .inr q => { r with d := got.2.writePlace c n bs q, wrote := r.wrote ++ [(t, len)] }

/-- The last 64-byte line written to each destination node, in order of the nodes' last writes (R357). -/
def lastLines (x : Desc) (wrote : List (Nat × Nat)) : List Nat :=
  let lines := wrote.map fun w => (w.1 + w.2 - 1) / 64 * 64
  if x.dstLdm then lines.getLast?.toList
  else lines.foldl (fun acc a => acc.filter (fun b => decodeNode b != decodeNode a) ++ [a]) []

/-- The read-back of ARRIVE: the first line not answered DONE, with its cause (R357). -/
def Dev.readBack (c : Clock) (d : Dev) (n : Nat) (x : Desc) : List Nat → Option (Nat × Nat) × Dev
  | [] => (none, d)
  | a :: as =>
    if (d.chan n).toHost n then (none, d)
    else
      let p : Nat ⊕ Place := match d.placeOf n x true a 1 with
        | .inl cause => .inl cause
        | .inr q => .inr q
      match p with
      | .inl _ => d.readBack c n x as
      | .inr q =>
        let r := d.readPlace c n [] 1 q
        match r.1 with
        | .inl cause => (some (a, cause), r.2)
        | .inr _ => r.2.readBack c n x as

/-- Run a descriptor from byte `from_` on: what stops it, if anything (R357, R362, R363): address, write, cause, ERR_DONE and the
bytes whose writes have left. -/
def Dev.transfer (c : Clock) (d : Dev) (n : Nat) (x : Desc) (peer : List Byte) :
    Option (Nat × Bool × Nat × Nat × Nat) × Dev :=
  let k := d.chan n
  let r := (x.pieces.filter fun p => k.from_ ≤ p.1).foldl (runPiece c n x peer) { d := d }
  match r.stop with
  | some s => (some (s.1, s.2.1, s.2.2.1, s.2.2.2, s.2.2.2), r.d)
  | none =>
    if !x.arrive then (none, r.d)
    else
      let b := r.d.readBack c n x (lastLines x (x.pieces.map fun p => (p.2.2.1, p.2.2.2)))
      match b.1 with
      | some a => (some (a.1, true, a.2, 0, x.rows * x.len), b.2)
      | none => (none, b.2)

/-! ### Running a ring (R355-R358) -/

/-- The head descriptor's 64 bytes, as the ring holds them; a ring in sleeping or poisoned memory answers the cause. -/
def Dev.headDesc (c : Clock) (d : Dev) (n : Nat) : (Nat ⊕ Desc) × Dev :=
  let k := d.chan n
  let a := k.slot k.done
  if moverOf n = 24 then let r := d.chanFetch n a 64; (.inr (Desc.of r.1), r.2)
  else
    let r := d.readPlace c n [] 64 (.dev a)
    match r.1 with
    | .inl cause => (.inl cause, r.2)
    | .inr b => (.inr (Desc.of b), r.2)

/-- Write a descriptor's word back in its ring (R351). -/
def Dev.putDesc (c : Clock) (d : Dev) (n off v : Nat) : Dev :=
  let k := d.chan n
  let a := k.slot k.done + off
  d.writePlace c n (le 4 v) (if moverOf n = 24 then .host a else .dev a)

/-- End the head descriptor (R357 steps 3 and 4): RESULT, STATUS, OWN = 0, DONE, then READY, MOV_DONE and the queue's
vector. -/
def Dev.endDesc (c : Clock) (d : Dev) (n : Nat) (x : Desc) (w0 status cause dir arrived result : Nat) : Dev :=
  let k := d.chan n
  let st := status + 256 * cause + 4096 * dir + 8192 * arrived
  let d := ((d.putDesc c n 56 result).putDesc c n 60 st).putDesc c n 0 (w0 % 2 ^ 31)
  let d := d.updChan n fun k =>
    { k with done := (k.done + 1) % 65536, fetch := (k.done + 1) % 65536, halted := false, from_ := 0
             started := false, left := 0, starts := k.starts - 1 }
  let d := if x.wake && (status != 4 || d.wakeAllowed n x.thread) then (d.opReady c x.thread none ⟨2, 64 + n⟩).2 else d
  let d := if x.notify then
      (d.flushPort n).evt c (d.chanRing n) (d.chanRing n) 0x0EA0 0
        [(0, 2, n), (2, 2, k.done % 2 ^ k.log), (4, 2, x.tag), (6, 4, st)]
    else d
  if moverOf n = 24 && k.vector != 0xFFFF then
    d.cause c (d.chanRid n) k.vector
  else d

/-- Word 0 of the head descriptor. -/
def Dev.headWord (d : Dev) (n : Nat) : Nat :=
  let k := d.chan n
  if moverOf n = 24 then readLe d.host.mem (k.slot k.done) 4 else leVal (d.cellBytes (k.slot k.done) 4)

/-- The channel has a descriptor at its head that it may take now (R356, R358, R364, R590). -/
def Dev.chanReady (d : Dev) (n : Nat) : Bool :=
  let k := d.chan n
  k.dis != .off && k.done != k.prod && !k.stall && (!k.halted || k.state = 4) && (k.state = 4 || d.moverRuns n) &&
  (!k.timed || 0 < k.starts || k.dis != .on)

/-- How the head descriptor of a channel ends when a disable decides it: REFUSED for one posted at or after T_D, ABORTED
for the others under ABORT (R364). -/
def Chan.verdict (k : Chan) : Option Nat :=
  let later := (k.prod + 65536 - k.done) % 65536 ≤ (k.prod + 65536 - k.tdProd) % 65536
  match k.dis with
  | .ending abort _ _ => if later then some 3 else if abort then some 2 else none
  | .disabled => some 3
  | _ => none

/-- The channel halts (R362). `left` counts the bytes whose writes have left the mover: all of them after a failed read-back. -/
def Dev.haltChan (c : Clock) (d : Dev) (n addr : Nat) (write : Bool) (cause done left : Nat) : Dev :=
  let k := d.chan n
  let idx := k.done % 2 ^ k.log
  let d := d.updChan n fun k =>
    { k with halted := true, fetch := (k.done + 1) % 65536, from_ := done, started := true, left := left, errAddr := addr, errDesc := idx
             errDir := write.toNat, errCause := cause, errDone := done }
  (d.flushPort n).evtLog c (d.chanRing n) (d.chanRing n) 0x0EA1 0 ((moverDomain n).getD 32) trbHALT
    [(0, 2, n), (2, 2, idx), (4, 1, cause), (5, 1, write.toNat), (8, 8, addr)]

/-- A started descriptor that ABORT ends leaves its destination bytes undefined (R364): free bytes, in every piece that its checks
let through. -/
def Dev.spoilDest (c : Clock) (d : Dev) (n : Nat) (x : Desc) : Dev :=
  x.pieces.foldl (fun d p =>
    match d.placeOf n x true p.2.2.1 p.2.2.2 with
    | .inl _ => d
    | .inr q => let r := drawBytes p.2.2.2 d; if r.2.placeAwake q then r.2.writePlace c n r.1 q else r.2) d

/-- Process the head descriptor, if it runs to an end. `take` says how a device-side queue takes the place of the
transfer: none for the channels' own. A descriptor with OWN = 0 stops the ring (R356). -/
def Dev.completeDesc (c : Clock) (d : Dev) (n : Nat) (peer : List Byte) : Dev :=
  if !d.chanReady n then d
  else
    let h := d.headDesc c n
    let w0 := d.headWord n
    let k := d.chan n
    let ends := fun (x : Desc) (w st : Nat) =>
      (if st = 2 && k.started then h.2.spoilDest c n x else h.2).endDesc c n x w st (if k.halted then k.errCause else 0) (if k.halted then k.errDir else 0) 0
        (if st = 2 then k.left else 0)
    match h.1 with
    | .inl _ => k.verdict.elim d (ends (Desc.of []) 0)
    | .inr x =>
      if !x.own then h.2.updChan n fun k => { k with stall := true }
      else match k.verdict with
        | some st => ends x w0 st
        | none =>
          if h.2.descBad n x then h.2.endDesc c n x w0 4 0 0 0 0
          else
            let t := h.2.transfer c n x peer
            match t.1 with
            | some _ => d
            | none => t.2.endDesc c n x w0 0 0 0 x.arrive.toNat (x.rows * x.len)

/-- The bytes of a descriptor before the piece that holds byte `at_`. -/
def Desc.pieceAt (x : Desc) (at_ : Nat) : Nat × Nat × Nat :=
  match (x.pieces.filter fun p => p.1 ≤ at_).getLast? with
  | some p => (p.1, p.2.1, p.2.2.1)
  | none => (0, x.src, x.dst)

/-- A channel halts: by the first check or answer that refuses its head descriptor, or on the host or peer side, with
`cause` at byte `at_`, for which the environment answers (R362). -/
def execMovHalted (chan : Nat) (peer : List Byte) (cause at_ : Nat) (write : Bool) : State → Out := onDev fun c d =>
  let k := d.chan chan
  if !d.chanReady chan || k.verdict.isSome || k.halted then d
  else
    let h := d.headDesc c chan
    match h.1 with
    | .inl why => h.2.haltChan c chan (k.slot k.done) false why 0 0
    | .inr x =>
      if !x.own || h.2.descBad chan x then d
      else
        let outside := (k.fromHost chan && !write && cause != 1) || moverOf chan = 25
        if k.toHost chan && write && x.arrive && 1 < cause && cause < 5 then
          let t := h.2.transfer c chan x peer
          match t.1 with
          | some s => t.2.haltChan c chan s.1 s.2.1 s.2.2.1 s.2.2.2.1 s.2.2.2.2
          | none => t.2.haltChan c chan ((lastLines x (x.pieces.map fun p => (p.2.2.1, p.2.2.2))).getLastD 0) true cause 0
              (x.rows * x.len)
        else if 0 < cause && cause < 5 && outside && k.from_ ≤ at_ && at_ < x.rows * x.len then
          let p := x.pieceAt at_
          let d := ((x.pieces.filter fun q => k.from_ ≤ q.1 && q.1 < p.1).foldl (runPiece c chan x peer) { d := h.2 }).d
          d.haltChan c chan (if write then p.2.2 else p.2.1) write cause p.1 p.1
        else
          let t := h.2.transfer c chan x peer
          match t.1 with
          | some s => t.2.haltChan c chan s.1 s.2.1 s.2.2.1 s.2.2.2.1 s.2.2.2.2
          | none => d

/-- A timed channel has a descriptor that a firing may start (R358). -/
def Dev.mayStart (d : Dev) (n : Nat) : Bool :=
  let k := d.chan n
  let own := if moverOf n = 24 then bit (readLe d.host.mem (k.slot (k.done + k.starts)) 4) 31
    else bit (leVal (d.cellBytes (k.slot (k.done + k.starts)) 4)) 31
  k.dis = .on && !k.halted && k.starts < k.ahead && own && !k.stall

/-- A MOVER_START firing (R358). -/
def Dev.moverStart (d : Dev) (n : Nat) : Dev :=
  if !(d.chan n).timed then d
  else if d.mayStart n then d.updChan n fun k => { k with starts := k.starts + 1 }
  else { d.updChan n fun k => { k with missed := satAdd 32 k.missed 1 } with
         cyc := { d.cyc with missed := n :: d.cyc.missed } }

/-- A PROD write counts as landing before the firings of its cadence cycle: one discarded in this cycle starts a descriptor after
all (R358). -/
def Dev.lateStarts : Nat → Dev → Nat → Dev
  | 0, d, _ => d
  | k + 1, d, n =>
    if d.cyc.missed.contains n && (d.chan n).timed && d.mayStart n then
      Dev.lateStarts k
        { d.updChan n fun k => { k with starts := k.starts + 1, missed := k.missed - 1 } with
          cyc := { d.cyc with missed := d.cyc.missed.erase n } } n
    else d

/-- Global channel of MOVER_START's TARGET, none for a channel the mover has not (R87, R348). -/
def startChan (target : Nat) : Option Nat :=
  let m := target / 256 % 256
  let ch := target % 256
  if m < 16 then if ch < 16 then some (16 * m + ch) else none
  else if m < 24 then if ch < 32 then some (256 + 32 * (m - 16) + ch) else none
  else if m = 24 then if ch < 64 then some (512 + ch) else none
  else none

/-! ### Doorbells and resume (R355, R356, R363) -/

/-- A requester may write PROD and RESUME of a channel: PF0, Breano its own, a core at K or M of the owning pool. -/
def Dev.mayRing (d : Dev) (n : Nat) : Requester → Bool
  | .core id priv => 1 ≤ priv && (d.chan n).owner = 2 && (d.core id).pool = some (d.chan n).pool
  | .pcie f => f = 0
  | .breano => true
  | _ => false

def Dev.movBad (d : Dev) (n : Nat) : Dev := d.updChan n fun k => { k with bad := satAdd 32 k.bad 1 }

/-- A PROD write: ignored and counted where it is not the writer's to make, the channel has no ring, or it would put more
descriptors ahead of DONE than the ring holds (R355, R356). -/
def Dev.ringProd (d : Dev) (n v : Nat) (ok : Bool) : Dev :=
  let k := d.chan n
  if !ok || k.dis = .off || 2 ^ k.log < (v % 65536 + 65536 - k.done) % 65536 then d.movBad n
  else Dev.lateStarts d.cyc.missed.length (d.updChan n fun k => { k with prod := v % 65536, stall := false }) n

def execMovDoorbell (chan prod kind idx priv : Nat) : State → Out := onDev fun _ d =>
  if 592 ≤ chan then d else d.ringProd chan prod (d.mayRing chan (requesterOf kind idx priv))

/-- Channels of a function in ascending order: local queue q is the q-th (DESIGN CHOICE, log 71). -/
def Dev.queues (d : Dev) (f : Nat) : List Nat :=
  ((List.range 64).filter fun q =>
    if f = 16 then tget 0xFF d.host.qOwner q = 0 && tget 0 d.host.qPort q = 1
    else tget 0xFF d.host.qOwner q = f && tget 0 d.host.qPort q = 0).map (512 + ·)

/-- A BAR4 doorbell (R51, R355). -/
def execHostQueueDoorbell (func queue value : Nat) : State → Out := onDev fun _ d =>
  match (d.queues func)[queue]? with
  | some n => d.ringProd n value true
  | none => d

/-- What a resume does to a halted channel (R363): retry, skip, or abort and disable. -/
def Dev.resumeChan (c : Clock) (d : Dev) (n action : Nat) : Dev :=
  let k := d.chan n
  let x := match (d.headDesc c n).1 with
    | .inr x => x
    | .inl _ => Desc.of []
  let fin := fun (d : Dev) status =>
    (if status = 2 then d.spoilDest c n x else d).endDesc c n x (d.headWord n) status k.errCause k.errDir 0 k.errDone
  if action = 1 then d.updChan n fun k => { k with halted := false }
  else if action = 2 then fin d 1
  else
    let d := fin d 2
    d.updChan n fun k =>
      match k.dis with
      | .ending _ t tag => { k with dis := .ending true t tag }
      | _ => { k with dis := .ending true c.atc 0, tdProd := k.prod }

/-- A RESUME write (R355, R363). -/
def Dev.ringResume (c : Clock) (d : Dev) (n action : Nat) (ok : Bool) : Dev :=
  if !ok || !(d.chan n).halted || action = 0 then d.movBad n else d.resumeChan c n action

def Dev.resumeBy (c : Clock) (d : Dev) (n action kind idx priv : Nat) : Dev :=
  if 592 ≤ n then d else d.ringResume c n action (d.mayRing n (requesterOf kind idx priv))

def execResumeRetry (chan kind idx priv : Nat) : State → Out := onDev fun c d => d.resumeBy c chan 1 kind idx priv
def execResumeSkip (chan kind idx priv : Nat) : State → Out := onDev fun c d => d.resumeBy c chan 2 kind idx priv
def execResumeAbort (chan kind idx priv : Nat) : State → Out := onDev fun c d => d.resumeBy c chan 3 kind idx priv

/-! ### Commands (R365) -/

/-- The channel exists for the acting function: PF0 every channel, a virtual function its own queues (R44, R365). -/
def Dev.seesChan (d : Dev) (x : Ctx) (n : Nat) : Bool :=
  n < 592 && (x.func = 0 || (moverOf n = 24 && d.chanFunc n = x.func))


/-- The checks and the effect that MOV_CHAN_SET and TND_XCHG_SET share (R365, R558). -/
def Dev.chanSet (d : Dev) (chan owner pool base log prio timed deadline srcBase srcSize dstBase dstSize : Nat) : Reply × Dev :=
  if owner != 1 && owner != 2 && owner != 0xFF then (rBad 2, d)
  else if owner = 2 && 64 ≤ pool then (rBad 3, d)
  else if !inMemory base (64 * 2 ^ min log 12) then (rBad 4, d)
  else if log < 3 || 12 < log then (rBad 12, d)
  else if 3 < prio then (rBad 13, d)
  else if 1 < timed then (rBad 14, d)
  else if 1 < deadline then (rBad 15, d)
  else
    let k := d.chan chan
    if k.dis != .off && k.dis != .disabled then (rSt stBUSY, d)
    else (rOk, d.updChan chan fun k =>
      { k with owner := owner, pool := pool, base := base, log := log, prio := prio, timed := timed = 1
               deadline := deadline = 1, srcWin := (srcBase, srcSize), dstWin := (dstBase, dstSize)
               dis := if owner = 0xFF then .off else .on, stall := false, starts := 0 })

/-- A channel that Breano keeps, as it configures it when the device comes to service: 4,096 descriptors in the management
partition, windows over every address (DESIGN CHOICE, log 21). -/
def breanoChannel (n : Nat) : Chan :=
  { owner := 0, base := 0x1004000000 + 0x40000 * n, log := 12, srcWin := (0, 2 ^ 48), dstWin := (0, 2 ^ 48), dis := .on }

def Dev.setBreanoChans (d : Dev) : Dev :=
  ((List.range 512).filter breanoChan).foldl (fun d n => d.updChan n fun _ => breanoChannel n) d

def execMovChanSet (r : Req) (chan owner pool base log prio timed deadline srcBase srcSize dstBase dstSize : Nat) :
    State → Out := onDev <| serve 0x0E80 r fun _ d =>
  if 512 ≤ chan then (rBad 0, d)
  else if breanoChan chan then (rSt stDENIED, d)
  else d.chanSet chan owner pool base log prio timed deadline srcBase srcSize dstBase dstSize

def execMovChanStatus (r : Req) (chan : Nat) : State → Out := onDev <| serve 0x0E81 r <| noFx fun x d =>
  if !d.seesChan x chan then rBad 0
  else
    let k := d.chan chan
    rOk [(2, k.prod), (2, k.fetch), (2, k.done), (1, k.state), (8, k.errAddr), (2, k.errDesc), (1, k.errDir), (1, k.errCause),
         (4, k.errDone), (4, k.missed), (4, k.bad)]

def execMovDisable (r : Req) (chan mode : Nat) : State → Out := onDev <| serve 0x0E82 r fun x d =>
  if !d.seesChan x chan then (rBad 0, d)
  else if 1 < mode then (rBad 2, d)
  else
    let k := d.chan chan
    if k.dis.isEnding then (rSt stBUSY, d)
    else (rAcc [(8, x.clk.atc)], d.updChan chan fun k =>
      { k with dis := .ending (mode = 1) x.clk.atc x.tag, tdProd := k.prod })

def execMovEnable (r : Req) (chan : Nat) : State → Out := onDev <| serve 0x0E83 r fun x d =>
  if !d.seesChan x chan then (rBad 0, d)
  else
    let k := d.chan chan
    if k.dis.isEnding || k.dis = .off then (rSt stBADSTATE, d) else (rOk, d.updChan chan fun k => { k with dis := .on })

def execMovResume (r : Req) (chan action : Nat) : State → Out := onDev <| serve 0x0E84 r fun x d =>
  if !d.seesChan x chan then (rBad 0, d)
  else if action = 0 || 3 < action then (rBad 2, d)
  else if !(d.chan chan).halted then (rSt stBADSTATE, d)
  else (rOk, d.resumeChan x.clk chan action)

/-- No descriptor is pending on a channel with a pending disable: it is disabled (R364, R268). -/
def execMovDisabled (chan : Nat) : State → Out := onDev fun c d =>
  let k := d.chan chan
  match k.dis with
  | .ending abort _ tag =>
    if k.done != k.prod && !k.stall then d
    else
      ((d.updChan chan fun k => { k with dis := .disabled, done := k.prod, fetch := k.prod, starts := 0 }).flushPort chan).evt c
        (d.chanRing chan) (d.chanRing chan) 0x0EA2 tag [(0, 2, chan), (2, 1, abort.toNat)]
  | _ => d

/-- Two ranges share a byte. -/
def overlap (a n b m : Nat) : Bool := a < b + m && b < a + n && n != 0 && m != 0

def execMovFuncWindow (r : Req) (func base size : Nat) : State → Out := onDev <| serve 0x0E85 r fun _ d =>
  if 16 ≤ func then (rBad 0, d)
  else if size != 0 && !(regionOf base = .dram && regionOf (base + size - 1) = .dram) then (rBad 1, d)
  else if d.mov.windows.any fun w => w.1 != func && overlap base size w.2.1 w.2.2 then (rBad 1, d)
  else if (List.range 64).any fun q => tget 0xFF d.host.qOwner q = func && (d.chan (512 + q)).state = 1 then (rSt stBUSY, d)
  else (rOk, d.updMov fun m => { m with windows := tset (0, 0) m.windows func (base, size) })

end Sys2Proof.Machine
end

