-- ==== Sys2Proof/Machine/NetTime.lean ====
section
/-! DEFINITION. Network time (chapter 17): the counter and its steering, stamps and their queues, edge inputs, pulse
outputs, recovered clocks and the servo's states. -/
namespace Sys2Proof.Machine

/-! ### The counter (R78, R495, R496) -/

/-- NTC in 1/3,072 ns since the epoch. -/
def Clock.fine (c : Clock) : Nat := (c.sec * 1000000000 + c.ns) * 3072 + c.rem

/-- NTC in 2^-16 ns since the epoch. -/
def Clock.instant (c : Clock) : Nat := c.fine * 64 / 3

/-- FRAC (R496). -/
def Clock.frac (c : Clock) : Nat := c.rem * 65536 / 3072

/-- The instant of air time `a` in 2^-16 ns since the epoch (R78). -/
def instantOfAtc (a : Nat) : Nat :=
  (315964819 + a / 1966080000) * 65536000000000 + a % 1966080000 * 3125 * 65536 / 6144

/-- The counters at air time `a`: NTC and ATC keep the relation of R78. -/
def Clock.atAtc (c : Clock) (a : Nat) : Clock :=
  let k := 3125 * (a % 1966080000 / 2)
  { c with sec := 315964819 + a / 1966080000, ns := k / 3072, rem := k % 3072, atc := a }

/-- Any carrier is configured. -/
def Dev.anyCarrier (d : Dev) : Bool := !d.air.carriers.isEmpty

/-- Nearest integer to n / m, ties to even, for a signed n. -/
def roundEvenS (n : Int) (m : Nat) : Int := if 0 ≤ n then (roundEven n.toNat m : Nat) else -(roundEven (-n).toNat m : Nat)

/-- FSLEW of a rate in ns/s (R515). -/
def slewOf (rate : Nat) : Nat := roundEven (rate * 2 ^ 44) 1000000000

/-- |F| may not exceed 500 ppm (R497). -/
def freqOk (ftrim fslew : Int) : Bool := (ftrim + fslew).natAbs ≤ 8796093022

/-- The servo is not the host's to command: a profile of its own, or a stoker (R515, R546). -/
def Dev.servoBusy (d : Dev) : Bool := d.time.set.profile != 0 || d.devmode.mode = .stoker

def execTimeAdjFreq (r : Req) (ftrim : Int) : State → Out := onDev <| serve 0x0A03 r fun _ d =>
  if d.servoBusy then (rSt stBADSTATE, d)
  else if !freqOk ftrim d.time.fslew then (rBad 0, d)
  else (rOk, d.updTime fun t => { t with ftrim := ftrim })

/-- TIME_SLEW (R515): a new one replaces the rest of the one in progress; an offset of 0 cancels it. -/
def execTimeSlew (r : Req) (off : Int) (rate : Nat) : State → Out := onDev <| serve 0x0A04 r fun x d =>
  let f : Int := if off < 0 then -(slewOf rate : Nat) else (slewOf rate : Nat)
  if d.servoBusy then (rSt stBADSTATE, d)
  else if off = 0 then (rAcc, d.updTime fun t => { t with fslew := 0, slew := none })
  else if rate = 0 || 10000 < rate || (d.anyCarrier && 10 < rate) then (rBad 8, d)
  else if !freqOk d.time.ftrim f then (rBad 8, d)
  else (rAcc, d.updTime fun t =>
    { t with fslew := f, slew := some { off := off, rate := rate, start := x.clk.atc, tag := x.tag } })

/-- The slew has added its whole offset (R515): FSLEW ends. -/
def execSlewDone : State → Out := onDev fun c d =>
  match d.time.slew with
  | some s =>
    if s.rate * (c.atc - s.start) * 65536 < s.off.natAbs * 1966080000 then d
    else (d.updTime fun t => { t with fslew := 0, slew := none }).evt0 c 0x0A84 s.tag [(8, 8, c.atc)]
  | none => d

/-- ATC after a step of `n` cadence cycles, none where it would leave 0 .. 2^64 - 1 (R515). -/
def steppedAtc (atc : Nat) (n : Int) : Option Nat :=
  let a := (atc : Int) + 2 * n
  if a < 0 || (2 ^ 64 : Nat) ≤ a then none else some a.toNat

/-- The step asked for, in 1/196,608 ns. -/
def stepAsked (c : Clock) (mode arg ns frac : Nat) : Int :=
  if mode = 0 then 3 * sgn 64 arg else 3 * (((arg * 1000000000 + ns) * 65536 + frac : Nat) : Int) - 64 * (c.fine : Int)

/-- TIME_STEP (R515): applied rounded half to even to whole cadence cycles. -/
def timeStepReply (x : Ctx) (d : Dev) (mode arg ns frac : Nat) : Reply × Option Nat :=
  if 1 < mode then (rBad 0, none)
  else if mode = 1 && 1000000000 ≤ ns then (rBad 9, none)
  else if d.servoBusy || d.anyCarrier then (rSt stBADSTATE, none)
  else match steppedAtc x.clk.atc (roundEvenS (stepAsked x.clk mode arg ns frac) 200000) with
    | some a => (rOk [(8, a)], some a)
    | none => (rBad 1, none)

/-- The clock moves with the answer, where the command is there to serve. -/
def execTimeStep (r : Req) (mode arg ns frac : Nat) : State → Out := onBoth fun c d =>
  let d' := serve 0x0A05 r (fun x d => ((timeStepReply x d mode arg ns frac).1, d)) c d
  match d.pick r 0x0A05 with
  | none => (c, d')
  | some w =>
    let x : Ctx := { page := w.page, func := w.func, tag := w.tag, rung := w.rung, clk := c }
    let y := timeStepReply x d mode arg ns frac
    match y.2, misfit w y.1 with
    | some a, none => (c.atAtc a, d'.stepCadence a)
    | _, _ => (c, d')

def execTimeGet (r : Req) : State → Out := onDev <| serve 0x0A01 r <| noFx fun x d =>
  let t := d.time
  let cap := d.devmode.mode = .stoker
  rOk [(8, x.clk.sec), (4, x.clk.ns), (2, x.clk.frac), (8, x.clk.atc), (1, if cap then d.tnd.capServo % 16 else t.st),
       (1, if cap then d.tnd.capServo / 16 else t.source), (1, t.parent), (8, uns 64 t.offset), (8, uns 64 t.ftrim),
       (8, uns 64 t.fslew), (2, t.utc)]

/-! ### The servo (R516-R518), which does not run while Breano is away (R565) -/

/-- A change of servo state, posted to PF0 and to every function with an event ring (R518, R524). -/
def Dev.setServo (c : Clock) (d : Dev) (st : Nat) : Dev :=
  let old := d.time.st
  if old = st then d
  else
    let d := d.updTime fun t => { t with st := st, since := c.atc }
    let fs := (List.range 16).filter fun f => f = 0 || (d.func f).ringAddr != 0
    fs.foldl (fun d f => d.evt c f f 0x0A80 0
      [(0, 1, old), (1, 1, st), (2, 1, d.time.source), (8, 8, uns 64 d.time.offset)]) d

/-- TIME_SERVO_SET: a profile of Breano's begins in FREERUN, with the FTRIM of the stored profile or 0 (R516-R518). -/
def execTimeServoSet (r : Req) (profile domain : Nat) (roles : List Nat) (tsin lane lockTh hold : Nat) : State → Out :=
  onDev <| serve 0x0A02 r fun x d =>
    if 2 < profile then (rBad 0, d)
    else match (List.range 8).find? fun i => 3 < roles.getD (2 * i) 0 with
      | some i => (rBad (2 + 2 * i), d)
      | none =>
        if 8 ≤ tsin && tsin != 0xFF then (rBad 18, d)
        else if 128 ≤ lane && lane != 0xFF then (rBad 19, d)
        else if d.devmode.mode = .stoker then (rSt stBADSTATE, d)
        else
          let same := profile = d.time.set.profile
          let rs := (List.range 8).map fun i => (roles.getD (2 * i) 0, roles.getD (2 * i + 1) 0)
          let set : ServoSet := { profile := profile, domain := domain, roles := rs, tsin := tsin, lane := lane
                                  lockTh := lockTh, hold := hold }
          let d := d.updTime fun t =>
            { t with set := set, source := if same then t.source else 0, slew := if same then t.slew else none
                     fslew := if same then t.fslew else 0
                     ftrim := if same || profile = 0 then t.ftrim else (d.startup.profile.map (·.ftrim)).getD 0 }
          (rOk, if same then d else d.setServo x.clk (if profile = 0 then 5 else 0))

/-- A source qualifies (R518): ACQUIRING. With no carrier and more than 1 us off, NTC steps; otherwise it slews, against
the offset. -/
def execServoSourceQualify (source parent : Nat) (off : Int) : State → Out := onBoth fun c d =>
  let t := d.time
  if d.breanoAway || t.set.profile = 0 || d.devmode.mode = .stoker || source = 0 || 2 < source || t.st = 1 || t.st = 2 then (c, d)
  else
    let d := d.updTime fun t => { t with source := source, parent := parent, offset := off }
    let target := if !d.anyCarrier && 65536000 < off.natAbs then steppedAtc c.atc (roundEvenS (-3 * off) 200000) else none
    match target with
    | some a =>
      let c' := c.atAtc a
      (c', ((d.stepCadence a).updTime fun t => { t with fslew := 0, offset := 0 }).setServo c' 1)
    | none =>
      let f : Int := if off = 0 then 0 else if 0 < off then -(slewOf (if d.anyCarrier then 10 else 10000) : Nat)
        else (slewOf (if d.anyCarrier then 10 else 10000) : Nat)
      (c, (d.updTime fun t => { t with fslew := f }).setServo c 1)

/-- The filtered offset has stayed within LOCK_TH for 60 s: LOCKED (R518). -/
def execServoLock (off : Int) : State → Out := onDev fun c d =>
  let t := d.time
  if d.breanoAway || t.st != 1 || t.set.lockTh * 65536 < off.natAbs || c.atc < t.since + 60 * 1966080000 then d
  else (d.updTime fun t => { t with offset := off, fslew := 0 }).setServo c 2

/-- Every source is lost: HOLDOVER, with F frozen at the mean of the last 60 s of LOCKED (R518). -/
def execServoHoldover (mean : Int) : State → Out := onDev fun c d =>
  if d.breanoAway || d.time.st != 1 && d.time.st != 2 then d
  else (d.updTime fun t => { t with ftrim := if freqOk mean 0 then mean else t.ftrim, fslew := 0, source := 0 }).setServo c 3

def execServoHoldoverExpire : State → Out := onDev fun c d =>
  let t := d.time
  if d.breanoAway || t.st != 3 || c.atc ≤ t.since + t.set.hold * 1966080000 then d else d.setServo c 4

def execTimeUtcSet (r : Req) (utc leap second : Nat) : State → Out := onDev <| serve 0x0A0C r fun x d =>
  if 2 < leap then (rBad 2, d)
  else if leap != 0 && second ≤ x.clk.sec then (rBad 3, d)
  else (rOk, d.updTime fun t => { t with utc := utc, leap := if leap = 0 then none else some (leap, second) })

/-- At the named second, the UTC offset changes; NTC does not step (R519). -/
def execLeapSecond : State → Out := onDev fun c d =>
  match d.time.leap with
  | some (k, s) =>
    if c.sec < s then d
    else d.updTime fun t => { t with leap := none, utc := (t.utc + (if k = 1 then 1 else 65535)) % 65536 }
  | none => d

/-! ### Stamps (R498-R503) -/

/-- A stamp of the instant `t` (2^-16 ns since the epoch). -/
def stampBytes (t id flags : Nat) : List Byte :=
  pk [(6, t / 65536000000000), (4, t % 65536000000000 / 65536), (2, t % 65536), (2, id), (2, flags)]

/-- FLAGS of a stamp taken now: VALID, UNLOCKED, UNTRUE, FALLING. -/
def Dev.stampFlags (d : Dev) (untrue falling : Bool) : Nat :=
  1 + (if d.time.st != 2 then 2 else 0) + (if untrue then 4 else 0) + (if falling then 8 else 0)

/-- A stamp is lost (R501, R509): what the cycle began with is kept for a read in it (R502). -/
def StampQ.lose (q : StampQ) (now : Nat) (ovf : Bool) : StampQ :=
  { q with ovf := q.ovf || ovf, lost := satAdd 32 q.lost 1, lostAt := now + 1
           was := if q.lostAt = now + 1 then q.was else (q.ovf, q.lost)
           ovfNow := ovf || (q.lostAt = now + 1 && q.ovfNow) }

/-- OVF and LOST as cycle `now` began (R502). -/
def StampQ.began (q : StampQ) (now : Nat) : Bool × Nat := if q.lostAt = now + 1 then q.was else (q.ovf, q.lost)

/-- OVF and LOST are zeroed, but for the losses of cycle `now` (R502). -/
def StampQ.clear (q : StampQ) (now : Nat) : StampQ :=
  { q with ovf := q.lostAt = now + 1 && q.ovfNow, lost := q.lost - (q.began now).2, was := (false, 0) }

/-- An entry arrives: discarded at 64 (R501). Answers the queue, and whether an overflow or an arrival is to be posted,
each at most once per millisecond (R501, R503). -/
def StampQ.push (q : StampQ) (now : Nat) (e : List Byte) : StampQ × Bool × Bool :=
  if 64 ≤ q.q.length then
    let post := q.ovfAt = 0 || q.ovfAt + 1966080 ≤ now + 1
    ({ q.lose now true with ovfAt := if post then now + 1 else q.ovfAt }, post, false)
  else
    let post := q.emptied && (q.availAt = 0 || q.availAt + 1966080 ≤ now + 1)
    ({ q with q := q.q ++ [e], lastAt := now, emptied := q.emptied && !post
              availAt := if post then now + 1 else q.availAt }, false, post)

/-- Entries a read may take: all but one that arrived in its own cycle (R502). -/
def StampQ.ready (q : StampQ) (now : Nat) : Nat := if q.lastAt = now && !q.q.isEmpty then q.q.length - 1 else q.q.length

/-- A read of up to `n` entries (R502). -/
def StampQ.read (q : StampQ) (now n clear : Nat) : Reply × StampQ :=
  let k := min n (q.ready now)
  let out := (q.q.take k).flatten
  let rest := q.q.drop k
  let b := q.began now
  ({ status := stOK, payload := pk [(1, k), (1, b.1.toNat), (2, 0), (4, b.2)] ++ out },
   { (if clear = 0 then q else q.clear now) with q := rest, emptied := q.emptied || rest.isEmpty })

/-- A transmit stamp enters a port's queue (R500, R501, R503). -/
def Dev.pushStamp (c : Clock) (d : Dev) (port : Nat) (e : List Byte) : Dev :=
  let r := (tget {} d.time.stamps port).push c.atc e
  let d := d.updTime fun t => { t with stamps := tset {} t.stamps port r.1 }
  let d := if r.1.lostAt = c.atc + 1 then d.trouble (20 + port / 32) trbOVERFLOW else d
  let d := if r.2.1 then d.evtLog c 0 0 0x0A82 0 (20 + port / 32) trbOVERFLOW [(0, 1, port), (4, 4, r.1.lost)] else d
  if r.2.2 then d.evt0 c 0x0A81 0 [(0, 1, port), (1, 1, r.1.q.length)] else d

def execTimeStampRead (r : Req) (port n clear : Nat) : State → Out := onDev <| serve 0x0A07 r fun x d =>
  if 128 ≤ port then (rBad 0, d)
  else if n = 0 || 14 < n then (rBad 1, d)
  else if 1 < clear then (rBad 2, d)
  else if (d.liveSpoke port).isNone then (rSt stBADSTATE, d)
  else
    let q := (tget {} d.time.stamps port).read x.clk.atc n clear
    (q.1, d.updTime fun t => { t with stamps := tset {} t.stamps port q.2 })

/-- TIME_PORT_SET (R504). -/
def execTimePortSet (r : Req) (ports : List Nat) : State → Out := onDev <| serve 0x0A06 r fun _ d =>
  match (List.range 8).find? fun i =>
    let p := ports.getD i 0xFF; p != 0xFF && (128 ≤ p || d.absorbed p) with
  | some i => (rBad i, d)
  | none =>
    if ports.length != 8 then (rBad 8, d)
    else
      let moved := (ports ++ d.time.tports).filter fun p => p != 0xFF && ports.contains p != d.time.tports.contains p
      if moved.any fun p => (d.spoke p).any fun s => !s.resting then (rSt stBUSY, d)
      else (rOk, d.updTime fun t => { t with tports := ports })

/-! ### Edge inputs (R509-R511) -/

def Dev.tsin (d : Dev) (i : Nat) : Tsin := tget {} d.time.tsin i
def Dev.setTsin (d : Dev) (i : Nat) (x : Tsin) : Dev := d.updTime fun t => { t with tsin := tset {} t.tsin i x }

def execTimeTsinSet (r : Req) (input edges wake : Nat) : State → Out := onDev <| serve 0x0A08 r fun _ d =>
  if 8 ≤ input then (rBad 0, d)
  else if 3 < edges then (rBad 1, d)
  else if 1 < wake then (rBad 2, d)
  else (rOk, d.setTsin input { d.tsin input with edges := edges, wake := wake = 1 })

def execTimeTsinRead (r : Req) (input n clear : Nat) : State → Out := onDev <| serve 0x0A09 r fun x d =>
  if 8 ≤ input then (rBad 0, d)
  else if n = 0 || 14 < n then (rBad 1, d)
  else if 1 < clear then (rBad 2, d)
  else
    let y := d.tsin input
    let q := y.q.read x.clk.atc n clear
    (q.1, d.setTsin input { y with q := q.2 })

/-- The input selects the edge. -/
def Tsin.selects (x : Tsin) (falling : Bool) : Bool := x.edges = 3 || x.edges = (if falling then 2 else 1)

/-- An edge `sub` x 2^-16 ns into the present cadence cycle (R509, R510). -/
def Dev.captureEdge (c : Clock) (d : Dev) (i : Nat) (falling : Bool) (sub : Nat) : Dev :=
  let x := d.tsin i
  if !x.selects falling then d
  else
    let t := c.instant + min sub 66666
    let y := { x with seq := (x.seq + 1) % 65536, last := t + 1 }
    if x.last != 0 && t + 1 < x.last + 8 * 65536 then d.setTsin i { y with q := y.q.lose c.atc false }
    else
      let r := y.q.push c.atc (stampBytes t x.seq (d.stampFlags false falling))
      let d := d.setTsin i { y with q := r.1 }
      let d := if 64 ≤ y.q.q.length then d.trouble 36 trbOVERFLOW else d
      if r.2.2 then d.evt0 c 0x0A83 0 [(0, 1, i), (1, 1, r.1.q.length)] else d

/-! ### Pulse outputs (R512-R514) -/

def Dev.tsout (d : Dev) (i : Nat) : Tsout := tget {} d.time.tsout i
def Dev.setTsout (d : Dev) (i : Nat) (x : Tsout) : Dev := d.updTime fun t => { t with tsout := tset {} t.tsout i x }

/-- A pulse width is in range (R512). -/
def widthOk (ns : Nat) : Bool := 8 ≤ ns && ns ≤ 500000000

def execTimeTsoutSet (r : Req) (output mode pol ppsW : Nat) : State → Out := onDev <| serve 0x0A0A r fun _ d =>
  if 8 ≤ output then (rBad 0, d)
  else if 2 < mode then (rBad 1, d)
  else if 1 < pol then (rBad 2, d)
  else if !widthOk ppsW then (rBad 3, d)
  else
    let y := d.tsout output
    (rOk, d.setTsout output { y with mode := mode, pol := pol, ppsW := ppsW, until_ := if mode = 0 then 0 else y.until_ })

/-- A pulse from the instant `t`, `ns` long; it ends the one it meets (R513, R514). -/
def Tsout.pulse (x : Tsout) (t ns : Nat) : Tsout := { x with edge := t, until_ := t + ns * 65536 }

/-- A TS_PULSE firing of Cadence entry `idx` (R513): at its trigger's instant, or late at the firing cycle. -/
def Dev.tsPulse (c : Clock) (d : Dev) (i width trigger idx : Nat) (late : Bool) : Dev :=
  let x := d.tsout i
  if x.mode != 1 then d.log c 36 trbTIMING 0x0F46 (pk [(1, i), (1, 0), (2, idx)])
  else if late then
    (d.setTsout i (x.pulse c.instant width)).evtLog c 0 0 0x0A85 0 36 trbTIMING [(0, 1, i), (2, 2, idx)]
  else d.setTsout i (x.pulse (instantOfAtc trigger) width)

/-- The leading edge of a PPS output at an NTC second boundary (R512). -/
def execPpsPulse (output : Nat) : State → Out := onDev fun c d =>
  let x := d.tsout output
  if x.mode != 2 || c.ns != 0 || c.rem != 0 || !c.run then d else d.setTsout output (x.pulse c.instant x.ppsW)

def execPulseEnd (output : Nat) : State → Out := onDev fun c d =>
  let x := d.tsout output
  if x.until_ = 0 || c.instant < x.until_ then d else d.setTsout output { x with until_ := 0 }

/-! ### Synchronous Ethernet (R520) -/

def Dev.synce (d : Dev) (i : Nat) : SyncE := tget {} d.time.synce i
def Dev.setSynce (d : Dev) (i : Nat) (x : SyncE) : Dev := d.updTime fun t => { t with synce := tset {} t.synce i x }

/-- The lane's spoke is ACTIVE. -/
def Dev.laneActive (d : Dev) (l : Nat) : Bool := (d.laneSpoke l).any fun e => e.2.st = .active

def execTimeSynceSet (r : Req) (output lane div : Nat) : State → Out := onDev <| serve 0x0A0B r fun _ d =>
  let hz := if lane = 0xFF || div = 0 then 0 else (d.laneSpeed lane).1 * 1000 / div
  if 2 ≤ output then (rBad 0, d)
  else if 128 ≤ lane && lane != 0xFF then (rBad 1, d)
  else if div < 16 || (lane != 0xFF && 200000 * div < (d.laneSpeed lane).1) then (rBad 2, d)
  else (rOk [(4, hz)], d.setSynce output { lane := lane, div := div, squelched := lane = 0xFF || !d.laneActive lane })

/-- An output is squelched, or resumes, as its lane does (R520). -/
def execSynceSquelch (output : Nat) : State → Out := onDev fun c d =>
  let x := d.synce output
  let sq := x.lane = 0xFF || !d.laneActive x.lane
  if x.lane = 0xFF || sq = x.squelched then d
  else (d.setSynce output { x with squelched := sq }).evt0 c 0x0A86 0 [(0, 1, output), (1, 1, x.lane), (2, 1, sq.toNat)]

end Sys2Proof.Machine
end

