-- ==== Sys2Proof/Machine/Truing.lean ====
section
/-! DEFINITION. Truing (chapter 18): trims, the gaps that serve them, measurements and single-tap moves, convergence,
limits, and quality figures. What a measurement finds comes with its command. -/
namespace Sys2Proof.Machine

/-- A trim of R525: lowest and highest code; minimum gap in Tc; half a tap and CONV in 1/10,000 of the residual's unit
(uV, mUI, ps, 0.001 dB); the gap kinds that serve it, by number: 0 transmit idle, 1 receive idle, 2 Cadence gap, 3 and 4
cyclic extension sending and receiving, 5 TDD idle, 6 sync symbol, 7 tandem idle. -/
structure TrimKind where
  lo : Int
  hi : Int
  min : Nat
  half : Nat
  conv : Nat
  gaps : List Nat
  deriving DecidableEq, Repr

/-- The rows of R525 by unit kind and trim ID. -/
def trimKind (kind id : Nat) : Option TrimKind :=
  match kind with
  | 0 =>
    if id < 3 then some ⟨-64, 64, 394, 2500000, 5000000, [1, 2]⟩
    else if id = 3 then some ⟨-32, 32, 984, 78125, 156250, [1, 2]⟩
    else if id = 4 then some ⟨-64, 64, 1967, 78125, 1500000, [0, 2]⟩
    else if id = 5 then some ⟨-64, 64, 1967, 78125, 1500000, [1, 2]⟩
    else none
  | 1 =>
    if id = 0 then some ⟨-1024, 1024, 2816, 152500, 610000, [3, 5, 2]⟩
    else if id = 1 || (6 ≤ id && id < 10) then some ⟨-100, 100, 19661, 50000, 200000, [5, 2, 6]⟩
    else if id < 6 then some ⟨-1024, 1024, 2816, 152500, 610000, [4, 5, 2]⟩
    else if id = 10 then some ⟨0, 255, 0, 0, 0, [6]⟩
    else none
  | 2 => if id = 0 then some ⟨-64, 64, 1967, 78125, 1500000, [7, 2]⟩ else none
  | _ => none

/-- Trims of a unit kind. -/
def trimCount (kind : Nat) : Nat := if kind = 0 then 6 else if kind = 1 then 11 else 1

/-- Units of a kind (R536). -/
def unitCount (kind : Nat) : Nat := if kind = 0 then 128 else if kind = 1 then 64 else 8

def Dev.unit (d : Dev) (kind i : Nat) : TrueUnit := tget {} d.truing.units (256 * kind + i)

/-- A trim of a unit: at its centre where it has not moved (R525). -/
def TrueUnit.trim (u : TrueUnit) (kind id : Nat) : Trim :=
  (tfind u.trims id).getD { code := if kind = 1 && id = 10 then 128 else 0 }

/-- A trim is converged (R532). -/
def TrueUnit.converged (u : TrueUnit) (now kind id : Nat) : Bool :=
  let t := u.trim kind id
  4 ≤ t.count && now ≤ t.at_ + u.stale * 1966080

/-- Truing reports the path of a lane as unconverged: UNTRUE of its transmit or receive stamps (R499, R532). -/
def Dev.untrue (d : Dev) (now lane : Nat) (tx : Bool) : Bool := !(d.unit 0 lane).converged now 0 (if tx then 4 else 5)

/-- The copper spoke that a pair channel belongs to: spokes 128-143 have four channels each. -/
def Dev.pairSpoke (d : Dev) (p : Nat) : Option CopSpoke := tfind d.cop.spokes (128 + p / 4)

def Dev.pair (d : Dev) (p : Nat) : PairCh := tget {} d.cop.pairs p
def Dev.updPair (d : Dev) (p : Nat) (f : PairCh → PairCh) : Dev := d.updCop fun x => { x with pairs := tmod {} x.pairs p f }

/-- The unit is ACTIVE (R526). -/
def Dev.unitActive (d : Dev) (kind i : Nat) : Bool :=
  match kind with
  | 0 => d.laneActive i
  | 1 => (d.pair i).st = .active
  | _ => (d.spoke (256 + i)).any fun s => s.st = .active

/-- The unit's domain is awake (R526). -/
def Dev.unitAwake (d : Dev) (kind i : Nat) : Bool :=
  d.awake (match kind with
    | 0 => 20 + i / 32
    | 1 => 24 + i / 32
    | _ => 26)

/-- The trim exists on the unit as it stands: THR_LOW and THR_UP at PAM4 rates, HYBRID in full-duplex mode (R525). -/
def Dev.trimExists (d : Dev) (kind i id : Nat) : Bool :=
  if kind = 0 && (id = 0 || id = 2) then (d.laneSpeed i).2
  else if kind = 1 && id = 10 then (d.pairSpoke i).any fun s => s.mode = 0
  else true

/-- The trims that the start-up pass serves: every copper trim but HYBRID, and the lane latencies (R533). -/
def passTrim (key : Nat) : Bool :=
  let kind := key / 16 / 256
  let id := key % 16
  (kind = 1 && id != 10) || (kind = 0 && (id = 4 || id = 5))

/-- The start-up pass runs: units are trued through the calibration and replica paths (R526, R533). -/
def Dev.truingPass (d : Dev) : Bool := d.startup.phase = .boot

/-- The gap exists on the unit now (R526). -/
def Dev.gapOpen (d : Dev) (now kind i gap : Nat) : Bool :=
  d.truingPass || d.unitActive kind i && d.unitAwake kind i &&
  (match gap with
   | 0 => kind = 0 && (d.laneSpoke i).any fun e =>
     (d.port e.1).queue.isEmpty && (d.port e.1).busy.isNone && (d.port e.1).lpi = 0
   | 1 => kind = 0
   | 2 => now ≤ (d.unit kind i).gap
   | 3 => kind = 1 && (d.pairSpoke i).any fun s => s.mode = 0 || (d.pair i).dir = 1
   | 4 => kind = 1 && (d.pairSpoke i).any fun s => s.mode = 0 || (d.pair i).dir = 2
   | 5 => kind = 1 && (d.pairSpoke i).any (fun s => s.mode = 1) && (d.pair i).dir = 0
   | 6 => kind = 1 && (d.pairSpoke i).any fun s => s.mode = 0
   | _ => kind = 2 && (d.port (256 + i)).queue.isEmpty && (d.port (256 + i)).busy.isNone)

/-- R531: a loop, generator or checker stops all truing of a lane, a scan that of its first four trims. -/
def Dev.trimFree (d : Dev) (kind i id : Nat) : Bool :=
  if kind != 0 then true
  else
    let l := d.lane i
    l.loop = 0 && l.gen.pat = 0 && !l.chkOn && (4 ≤ id || l.scan.isNone)

/-- The trim a gap serves next: round-robin in ascending ID after the one served last, a Cadence gap serving one that its
length has room for (R529). How long the other kinds last is the line's (log 91). -/
def Dev.chooseTrim (d : Dev) (kind i gap : Nat) : Option Nat :=
  let u := d.unit kind i
  let n := trimCount kind
  let start := if u.last = 0xFF then 0 else u.last + 1
  ((List.range n).map fun k => (start + k) % n).find? fun id =>
    (trimKind kind id).any (fun t => t.gaps.contains gap) && bit u.enable id &&
    (!d.truingPass || passTrim (16 * (256 * kind + i) + id)) && (gap != 2 || d.truingPass || (trimKind kind id).any fun t => t.min ≤ u.gapLen && u.gapLen != 0) &&
    d.trimExists kind i id && d.trimFree kind i id

/-- The unit's targeted self-test (R534, R543). -/
def Dev.testUnit (c : Clock) (d : Dev) (kind i : Nat) : Dev :=
  match kind with
  | 0 => d.testLanes c [i] none
  | 1 => d.updPair i fun p => { p with test := (c.atc + 1, none) }
  | _ => d.testLanes c [256 + 2 * i, 257 + 2 * i] none

/-- Report TRUE_CONVERGED or TRUE_LOST, each at most once per 10 ms per unit (R532). -/
def Dev.truePost (c : Clock) (d : Dev) (kind i id : Nat) (lost : Bool) (cause : Nat) : Dev :=
  let u := d.unit kind i
  let last := if lost then u.posted.2 else u.posted.1
  if last != 0 && c.atc + 1 < last + 19660800 then d
  else
    let d := d.updUnit kind i fun u =>
      { u with posted := if lost then (u.posted.1, c.atc + 1) else (c.atc + 1, u.posted.2) }
    if lost then d.evt0 c 0x0B81 0 [(0, 1, kind), (1, 1, i), (2, 1, id), (3, 1, cause)]
    else d.evt0 c 0x0B80 0 [(0, 1, kind), (1, 1, i), (2, 1, id)]

/-- The quality figures that a measurement brings (R535); the eye and the image, seen by analogue samplers, are free. -/
def Dev.figures (d : Dev) (kind i id : Nat) (residual : Int) (moved : Bool) : Dev :=
  let set := fun (d : Dev) (k : Nat) (v : Int) => d.updUnit kind i fun u => { u with figures := u.figures.set k v }
  if kind = 2 then set (set d 6 residual) 7 residual
  else if kind = 0 && id = 4 then set d 6 residual
  else if kind = 0 && id = 5 then set d 7 residual
  else if kind = 0 && id = 3 then
    (List.range 3).foldl (fun d k => let v := draw d; set v.2 k ((v.1 % 1001 : Nat) : Int)) d
  else if kind = 0 then
    let v := draw d
    let d := set v.2 (3 + id) ((v.1 % 65536 : Nat) : Int)
    if moved then set d (8 + id) residual else d
  else if id = 0 || (2 ≤ id && id < 6) then
    let d := if moved then set d (8 + (if id = 0 then 0 else id - 1)) residual else d
    let v := draw d
    set v.2 16 ((v.1 % 65536 : Nat) : Int)
  else d

/-- A measurement completes in a gap: the trim served moves at most one tap toward zero residual (R529, R530, R534); for
HYBRID `toward` is the side of the lower echo, 0 for neither. A positive residual lowers the code (DESIGN CHOICE,
log 91). -/
def execTrueMeasure (kind index gap : Nat) (residual toward : Int) : State → Out := onDev fun c d =>
  if 2 < kind || unitCount kind ≤ index || !d.gapOpen c.atc kind index gap then d
  else match d.chooseTrim kind index gap with
    | none => d
    | some id =>
      match trimKind kind id with
      | none => d
      | some k =>
        let u := d.unit kind index
        let t := u.trim kind id
        let hybrid := kind = 1 && id = 10
        let within := if hybrid then toward = 0 else residual.natAbs * 10000 ≤ k.conv
        let dir : Int := if hybrid then toward else if k.half < residual.natAbs * 10000 then (if 0 < residual then -1 else 1) else 0
        let code := t.code + dir
        let inRange := k.lo ≤ code && code ≤ k.hi
        let limit := dir != 0 && !inRange && !within && !t.stuck
        let moves := dir != 0 && inRange && !t.stuck
        let was := u.converged c.atc kind id
        let count := if within then min ((if c.atc ≤ t.at_ + u.stale * 1966080 then t.count else 0) + 1) 255 else 0
        let t' := { t with code := if moves then code else t.code, count := count, residual := residual, at_ := c.atc
                           seen := true, stuck := t.stuck || limit }
        let d := d.updUnit kind index fun u => { u with trims := tput u.trims id t', last := id, gapLen := if gap = 2 then 0 else u.gapLen }
        let d := d.figures kind index id residual moves
        let d := if within && !was && 4 ≤ count then d.truePost c kind index id false 0
          else if was && !within then d.truePost c kind index id true 0 else d
        if limit then
          (d.evt0 c 0x0B82 0 [(0, 1, kind), (1, 1, index), (2, 1, id), (4, 4, uns 32 residual)]).testUnit c kind index
        else d

/-- A trim's last measurement has become older than STALE: its count returns to 0 (R532). -/
def execTrueStale (kind index trim : Nat) : State → Out := onDev fun c d =>
  let u := d.unit kind index
  let t := u.trim kind trim
  if 2 < kind || unitCount kind ≤ index || trimCount kind ≤ trim || t.count = 0 || c.atc ≤ t.at_ + u.stale * 1966080 then d
  else
    let d := d.updUnit kind index fun u => { u with trims := tput u.trims trim { t with count := 0 } }
    if 4 ≤ t.count then d.truePost c kind index trim true 1 else d

/-! ### Cadence gaps (R527) -/

/-- Open a gap of `len` Tc on a unit, or close it. -/
def Dev.openGap (c : Clock) (d : Dev) (kind i len : Nat) : Dev :=
  d.updUnit kind i fun u => { u with gap := if len = 0 then 0 else c.atc + len, gapLen := len }

/-- A TRUE_GAP firing (R527). -/
def Dev.trueGap (c : Clock) (d : Dev) (spoke mask len : Nat) : Dev :=
  if spoke < 128 then
    match d.liveSpoke spoke with
    | some s => (s.lanes spoke).foldl (fun d l => d.openGap c 0 l len) d
    | none => d
  else
    match tfind d.cop.spokes spoke with
    | some s =>
      (ones 4 (mask &&& s.mask)).foldl (fun d i =>
        let p := 4 * (spoke - 128) + i
        if s.mode = 0 then d.updUnit 1 p fun u => { u with ignored := satAdd 32 u.ignored 1 } else d.openGap c 1 p len) d
    | none => d

def execTrueGapExpire (kind index : Nat) : State → Out := onDev fun c d =>
  let u := d.unit kind index
  if 2 < kind || unitCount kind ≤ index || u.gap = 0 || c.atc < u.gap then d
  else d.updUnit kind index fun u => { u with gap := 0 }

/-! ### Stored values (R533) -/

/-- Every hour of service, Breano stores the codes in flash (R533). -/
def execTrimStore : State → Out := onDev fun c d =>
  if !d.mgmt.svc || c.atc < d.truing.storedAt + 3600 * 1966080000 then d
  else d.updTruing fun t =>
    { t with storedAt := c.atc
             flash := t.units.foldl (fun m u => u.2.trims.foldl (fun m e => tset 0 m (16 * u.1 + e.1) e.2.code) m) t.flash }

/-- Truing as it starts: from the stored values (R533). -/
def Truing.cold (t : Truing) : Truing :=
  { flash := t.flash
    storedAt := t.storedAt
    units := t.flash.foldl (fun m e =>
      if passTrim e.1 then
        tmod ({} : TrueUnit) m (e.1 / 16) fun u => { u with trims := tput u.trims (e.1 % 16) { code := e.2 } }
      else m) [] }

/-! ### Commands (R535, R536) -/

def execTrueSet (r : Req) (kind index enable stale : Nat) : State → Out := onDev <| serve 0x0B01 r fun _ d =>
  if 2 < kind then (rBad 0, d)
  else if unitCount kind ≤ index && index != 0xFF then (rBad 1, d)
  else if stale < 10 || 1000 < stale then (rBad 4, d)
  else
    let l := if index = 0xFF then List.range (unitCount kind) else [index]
    (rOk, l.foldl (fun d i => d.updUnit kind i fun u => { u with enable := enable, stale := stale }) d)

def execTrueStatus (r : Req) (kind index : Nat) : State → Out := onDev <| serve 0x0B02 r <| noFx fun x d =>
  if 2 < kind then rBad 0
  else if unitCount kind ≤ index then rBad 1
  else
    let u := d.unit kind index
    let one := fun id =>
      let t := u.trim kind id
      [(2, uns 16 t.code), (1, t.count), (1, (u.converged x.clk.atc kind id).toNat), (4, uns 32 t.residual), (8, t.at_)]
    let fig := fun (w : Nat) (k : Nat) => (w, uns (8 * w) (u.figures.getD k 0))
    rOk ([(1, trimCount kind)] ++ (List.range (trimCount kind)).flatMap one ++ (List.range 6).map (fig 2) ++
      [fig 4 6, fig 4 7] ++ (List.range 8).map (fun k => fig 4 (8 + k)) ++ [fig 2 16, (4, u.ignored), (4, u.broken)])

/-- The unit is DISABLED (R536). -/
def Dev.unitDisabled (d : Dev) (kind i : Nat) : Bool :=
  match kind with
  | 0 => (d.laneSpoke i).all fun e => e.2.st = .disabled
  | 1 => (d.pair i).st = .disabled
  | _ => (d.spoke (256 + i)).all fun s => s.st = .disabled

def execTrueReset (r : Req) (kind index : Nat) : State → Out := onDev <| serve 0x0B03 r fun _ d =>
  if 2 < kind then (rBad 0, d)
  else if unitCount kind ≤ index then (rBad 1, d)
  else if !d.unitActive kind index && !d.unitDisabled kind index then (rSt stBADSTATE, d)
  else (rOk, d.resetTrims kind index)

end Sys2Proof.Machine
end

