-- ==== Sys2Proof/Machine/Messages.lean ====
section
/-! DEFINITION. Stream messages (R432-R435), as serial and copper spokes carry them: spoke stream maps and their copies
(R408, R409), cutting a symbol into messages, and checking, steering and delivering a received one. -/
namespace Sys2Proof.Machine

/-! ### Maps and their copies (R408, R409) -/

def mapEmpty : Inst (List (Nat × MapEntry)) := { act := [], sh := [] }

def Dev.mapOf (d : Dev) (n : Nat) : Inst (List (Nat × MapEntry)) := tget mapEmpty d.spk.maps n

/-- A copy of a map at a mark: ACTIVE changes, and the change is remembered for the symbols it applies to (R409). Changes
older than every lead and lag are dropped, but for the last. -/
def Dev.copyMap (c : Clock) (d : Dev) (n : Nat) : Dev :=
  let d := d.updSpk fun x => { x with maps := tmod mapEmpty x.maps n (Inst.copy c.atc) }
  let old := tget [] d.spk.mapMarks n
  let stale := (old.filter fun m => m.1 + 3932160 < c.atc).dropLast
  d.updSpk fun x => { x with mapMarks := tset [] x.mapMarks n (old.drop stale.length ++ [(c.atc, (d.mapOf n).act)]) }

/-- A change made at mark `m` applies to the symbol of a stream that starts at `s` (R279). -/
def Stream.applies (y : Stream) (dir m s : Nat) : Bool := if dir = 0 then m + y.leadTx < s else m < s + y.lagRx

/-- The map that applies to a stream for the symbol that starts at `s` (R409). -/
def Dev.mapFor (d : Dev) (n : Nat) (y : Stream) (dir s : Nat) : List (Nat × MapEntry) :=
  (((tget [] d.spk.mapMarks n).filter fun m => y.applies dir m.1 s).getLast?.map (·.2)).getD []

/-- The entry of a stream in a list of entries, in a direction. -/
def entryFor (l : List (Nat × MapEntry)) (stream dir : Nat) : Option MapEntry :=
  (l.find? fun e => e.2.stream = stream && (if dir = 0 then e.2.tx else e.2.rx)).map (·.2)

/-- An ACTIVE map names a stream (R453, R591). -/
def Dev.mapActive (d : Dev) (n : Nat) : Bool := (d.mapOf n).act.any fun e => e.2.tx || e.2.rx

/-- The ACTIVE stream map of some spoke names a stream (R591). -/
def Dev.mapsNameStream (d : Dev) : Bool := d.spk.maps.any fun e => e.2.act.any fun y => y.2.tx || y.2.rx

/-! ### Counters that serial and copper spokes share (R452, R485); 512 + stream stands for a LOOKASIDE binding (R37) -/

def Dev.updLook (d : Dev) (stream dir : Nat) (f : LookBind → LookBind) : Dev :=
  d.updDevmode fun m => { m with look := tmod {} m.look (2 * stream + dir) f }

def Dev.countSp (d : Dev) (sp i n : Nat) : Dev :=
  if sp < 128 then d.updPort sp fun p => p.count i n
  else if 512 ≤ sp then d.updLook (sp - 512) 1 fun b =>
    { b with badLen := if i = 26 then satAdd 32 b.badLen n else b.badLen
             fmtMismatch := if i = 14 then satAdd 32 b.fmtMismatch n else b.fmtMismatch }
  else d.updCop fun x => { x with stats := tmod 0 x.stats (64 * sp + i) fun v => satAdd 64 v n }

/-- The next transmit sequence number of a PC_ID (R432), and the state after it is used. -/
def Dev.nextSeq (d : Dev) (sp pcid : Nat) : Nat × Dev :=
  let up := fun (m : Tab Nat) (k : Nat) => tset 0 m k ((tget 0 m k + 1) % 256)
  if sp < 128 then (tget 0 (d.port sp).txSeq pcid, d.updPort sp fun p => { p with txSeq := up p.txSeq pcid })
  else
    let k := 65536 * sp + pcid
    (tget 0 d.cop.txSeq k, d.updCop fun x => { x with txSeq := up x.txSeq k })

/-- A received sequence number: the number of missing values is added to SEQ_GAP (R434). -/
def Dev.seqGap (d : Dev) (sp pcid seq : Nat) : Dev :=
  let want := if sp < 128 then tget 0 (d.port sp).rxSeq pcid else tget 0 d.cop.rxSeq (65536 * sp + pcid)
  let next := (seq + 1) % 256 + 1
  let d := if sp < 128 then d.updPort sp fun p => { p with rxSeq := tset 0 p.rxSeq pcid next }
    else d.updCop fun x => { x with rxSeq := tset 0 x.rxSeq (65536 * sp + pcid) next }
  if want = 0 then d else d.countSp sp 15 ((seq + 257 - want) % 256)

/-! ### Transmit (R432, R433) -/

/-- The header of a stream message (R432). -/
def messageHeader (pcid seq : Nat) (last : Bool) (fmt slot sym frame off nsamp : Nat) : List Byte :=
  be 2 pcid ++ be 2 (seq * 256 + if last then 128 else 0) ++ pk [(1, fmt), (1, slot), (1, sym), (1, frame)] ++ be 2 off ++
  be 2 nsamp

/-- FMT of a compression set and a domain (R432). -/
def fmtByte (s : CmpSet) (domain : Nat) : Nat :=
  s.mode + 4 * domain + 8 * (if s.mode = 0 then 16 else if s.mode = 1 then s.m else 0)

/-- The width of the first sample, for R405: the first block's in BOUNDED mode. -/
def firstWidth (s : CmpSet) (bs : List Byte) : Nat :=
  if s.mode = 0 then 16 else if s.mode = 1 then s.m
  else (headerWidth (bits (fieldAt bs 0 1) 0 4)).getD 16

/-- A message lies in the agreed set (R405); one whose first header is invalid has no width to judge. -/
def Agreement.allows (a : Agreement) (mode : Nat) (m : Option Nat) (domain : Nat) : Bool :=
  bit a.cmp mode && (mode = 0 || m.all fun m => a.mLo + 6 ≤ m && m ≤ a.mHi + 6) && bit a.domains domain

/-- The agreed set of a spoke; copper spokes have no handshake, so every format is agreed there. -/
def Dev.agreedOf (d : Dev) (sp : Nat) : Option Agreement :=
  match d.spoke sp with
  | some s => some (s.agreed.getD s.standard)
  | none => none

/-- Samples whose values the manual does not derive: free. -/
def Dev.freeSamples (d : Dev) (n : Nat) : List (Int × Int) × Dev :=
  (List.range n).foldl (fun o _ => let v := draw o.2; (o.1 ++ [(sgn 16 v.1, sgn 16 (v.1 / 65536))], v.2)) ([], d)

/-- The samples of a symbol as a spoke carries them: those of the chain in the time domain; the active bins in the
frequency domain, whose values the manual does not derive from the chain's output, so they are free (R432; log 50). -/
def Dev.domainSamples (d : Dev) (y : Stream) (domain : Nat) (l : List (Int × Int)) : List (Int × Int) × Dev :=
  if domain = 0 then (l, d)
  else
    let n := match d.carrierOf y with
      | some k => Config.activeBins k.std k.bw k.mu
      | none => 0
    d.freeSamples n

/-- A list cut into pieces of `n`. -/
def cutList {α : Type} (n : Nat) : Nat → List α → List (List α)
  | 0, _ => []
  | f + 1, l => if l.isEmpty then [] else l.take n :: cutList n f (l.drop n)

/-- The payloads of a symbol's messages for one map entry, each with its first width; the compressor counts what it does
(R308, R316, R433). -/
def Dev.symbolMessages (d : Dev) (sp stream : Nat) (y : Stream) (e : MapEntry) (seg : Nat) (q : TxSym) :
    List (List Byte × Nat) × Dev :=
  let set := (d.chain stream 0).cmpFor q.start
  let v := d.domainSamples y e.domain q.samples
  let parts := cutList (max seg 16) (v.1.length / max seg 16 + 1) v.1
  (List.range parts.length).foldl (fun o i =>
    let part := parts.getD i []
    let z := compress set part
    let s := o.2.nextSeq sp e.pcid
    let d := s.2.updChain stream 0 fun k =>
      { k with blocks := (k.blocks + z.2.1) % 2 ^ 64, sumM := (k.sumM + z.2.2.1) % 2 ^ 64
               boundMiss := satAdd 32 k.boundMiss z.2.2.2 }
    let h := messageHeader e.pcid s.1 (i + 1 = parts.length) (fmtByte set e.domain) q.slot q.sym (q.frame % 256)
      (i * max seg 16) part.length
    (o.1 ++ [(h ++ z.1, firstWidth set z.1)], d)) ([], v.2)

/-- The eCPRI common header: revision 1, C = 0 (R429). -/
def ecpri (type : Nat) (body : List Byte) : List Byte := pk [(1, 0x10), (1, type)] ++ be 2 body.length ++ body

/-! ### Receive (R434) -/

/-- A stream message as parsed (R432). -/
structure Msg where
  pcid : Nat
  seq : Nat
  mode : Nat
  domain : Nat
  m : Nat
  slot : Nat
  sym : Nat
  frame : Nat
  off : Nat
  nsamp : Nat
  blocks : List Byte
  deriving DecidableEq, Repr

/-- A big-endian field. -/
def fieldBe (bs : List Byte) (off n : Nat) : Nat := leVal ((bs.drop off).take n).reverse

def Msg.of (b : List Byte) : Msg :=
  let f := fieldAt b 4 1
  { pcid := fieldBe b 0 2, seq := fieldAt b 2 1, mode := f % 4, domain := bits f 2 1, m := f / 8, slot := fieldAt b 5 1
    sym := fieldAt b 6 1 % 16, frame := fieldAt b 7 1, off := fieldBe b 8 2, nsamp := fieldBe b 10 2, blocks := b.drop 12 }

/-- The payload's length agrees with NSAMP, FMT and the block lengths (R434); a payload that an invalid header cuts short
cannot be checked beyond it (R309). -/
def Msg.lengthOk (g : Msg) (x : Decoded) : Bool :=
  g.nsamp != 0 && g.mode < 3 && (g.mode != 1 || (6 ≤ g.m && g.m ≤ 16)) &&
  (x.bad.isSome || (!x.short && g.blocks.length = cdiv x.used 8))

/-- The occurrence of FRAME, SLOT, SYMBOL whose start lies nearest ATC `now`: its frame number and start (R434). -/
def nearest (k : Carrier) (now frame slot sym : Nat) : Nat × Nat :=
  let g := slot * k.perSlot + sym
  let base := k.frameAt now / 256
  let cand := [base - 1, base, base + 1].map fun b => let f := b * 256 + frame; (f, k.frameStart f + k.symStart g)
  let dist := fun (t : Nat) => ((t : Int) - now).natAbs
  cand.foldl (fun o q => if dist q.2 < dist o.2 then q else o) (cand.headD (0, 0))

/-- Samples of a symbol on a grid of `rate` kS/s: index in the frame of its first sample, and their number (R432). -/
def symbolGrid (k : Carrier) (rate g : Nat) : Nat × Nat :=
  let first := fun (i : Nat) => cdiv (k.symStart i * rate) 1966080
  let n := 2 * k.symsHalf
  let hi := if g + 1 = n then rate * 10 else first (g + 1)
  (first g, hi - first g)

/-- A frame number of the air frame, for limits of one report a frame. -/
def airFrame (now : Nat) : Nat := now / frameTc

/-- Deliver decoded samples to the chain's input; those whose entry time has passed are discarded (R274). -/
def Dev.deliver (c : Clock) (d : Dev) (stream : Nat) (y : Stream) (k : Carrier) (f n0 : Nat) (l : List (Int × Int)) : Dev :=
  let chain := d.chain stream 1
  let late := fun (n : Nat) => entryAt k y 1 f n < c.atc ||
    (chain.frame.any fun g => f < g || (f = g && n < chain.nIn))
  let r := l.foldl (fun (o : Nat × Tab (Int × Int)) v =>
    (o.1 + 1, if late o.1 then o.2 else tput o.2 (2 ^ 24 * f + o.1) v)) (n0, chain.arrived)
  d.updChain stream 1 fun q => { q with arrived := r.2 }

/-- The settings that a received message meets: its stream, and the sets for its symbol. A message of a steered stream is
checked in the order of R434 and delivered; what is discarded is missing (R274). `steer` gives the stream of a PC_ID for
a symbol: it depends on the symbol, which depends on the stream's carrier. -/
def Dev.useMessage (c : Clock) (d : Dev) (sp : Nat) (g : Msg) (x : Decoded) (stream : Nat) : Dev :=
  match d.stream stream with
  | none => d.countSp sp 13 1
  | some y =>
    match d.carrierOf y with
    | none => d.countSp sp 13 1
    | some k =>
      let at_ := nearest k c.atc g.frame g.slot g.sym
      let grid := symbolGrid k y.fout (g.slot * k.perSlot + g.sym)
      let total := if g.domain = 0 then grid.2 else Config.activeBins k.std k.bw k.mu
      let set := (d.chain stream 1).cmpFor at_.2
      let entry := if 256 ≤ sp && sp < 512 then some { stream := stream, tx := false, rx := true, domain := 0, pcid := 0 }
        else if sp < 512 then entryFor (d.mapFor sp y 1 at_.2) stream 1 else
        some { stream := stream, tx := false, rx := true, domain := (tget {} d.devmode.look (2 * stream + 1)).domain, pcid := 0 }
      if k.slotsFrame ≤ g.slot || k.perSlot ≤ g.sym || total < g.off + g.nsamp then d.countSp sp 26 1
      else
      let d := d.seqGap sp g.pcid g.seq
      if (d.agreedOf sp).any fun a => !a.allows g.mode x.firstM g.domain then
        d.updSpoke sp fun s => { s with mismatch := satAdd 64 s.mismatch 1 }
      else if fmtByte set g.domain != g.mode + 4 * g.domain + 8 * g.m || !(entry.any fun e => e.domain = g.domain) then
        d.countSp sp 14 1
      else
        let d := d.updChain stream 1 fun q =>
          { q with blocks := (q.blocks + x.blocks) % 2 ^ 64, sumM := (q.sumM + x.sumM) % 2 ^ 64
                   cmpSat := satAdd 32 q.cmpSat x.sat, badHdr := satAdd 32 q.badHdr x.bad.isSome.toNat }
        let d := match x.bad with
          | some h =>
            if (d.chain stream 1).badPosted = airFrame c.atc + 1 then d
            else (d.updChain stream 1 fun q => { q with badPosted := airFrame c.atc + 1 }).evt c y.owner y.owner 0x06C0 0
              [(0, 2, stream), (2, 1, h), (4, 4, at_.1)]
          | none => d
        if !d.slotRuns y.carrier k at_.1 g.slot then d
        else if g.domain = 0 then d.deliver c stream y k at_.1 (grid.1 + g.off) ((pairUp x.comps).take g.nsamp)
        else
          let v := d.freeSamples grid.2
          v.2.deliver c stream y k at_.1 grid.1 v.1

/-- A PC_ID that no steering entry names: counted, and for a serial port posted at most once per millisecond (R434,
R454). -/
def Dev.missPcid (c : Clock) (d : Dev) (sp pcid : Nat) : Dev :=
  let d := d.countSp sp 13 1
  if 128 ≤ sp then d
  else
    let m := (d.port sp).missed
    let n := m.2.1 + 1
    let first := if m.2.1 = 0 then pcid else m.2.2
    if m.1 != 0 && c.atc + 1 < m.1 + 1966080 then d.updPort sp fun p => { p with missed := (m.1, n, first) }
    else (d.updPort sp fun p => { p with missed := (c.atc + 1, 0, 0) }).evt0 c 0x0882 0
      [(0, 1, sp), (2, 2, first), (4, 4, n)]

/-- The stream that new and replaced steering give a message (R435, R485): the new set where it names the PC_ID and
applies to the symbol for the stream it names, otherwise the replaced one while that is kept. -/
def Dev.steered (c : Clock) (d : Dev) (g : Msg) (new : Nat → Option Nat) (old : Option (Nat × (Nat → Option Nat))) :
    Option Nat :=
  match old with
  | none => new g.pcid
  | some (mark, was) =>
    match new g.pcid with
    | some s =>
      let ok := match d.stream s with
        | some y =>
          match d.carrierOf y with
          | some k => y.applies 1 mark (nearest k c.atc g.frame g.slot g.sym).2
          | none => true
        | none => true
      if ok then some s else was g.pcid
    | none => was g.pcid

/-- A type 0 payload arrives on a spoke (R434); in LOOKASIDE it is dropped (R32). -/
def Dev.recvMessage (c : Clock) (d : Dev) (sp : Nat) (body : List Byte) (new : Nat → Option Nat)
    (old : Option (Nat × (Nat → Option Nat))) : Dev :=
  let g := Msg.of body
  let x := decompress g.mode g.m g.nsamp g.blocks
  if d.devmode.mode = .lookaside then d.countSp sp 13 1
  else if body.length < 12 || !g.lengthOk x then d.countSp sp 26 1
  else match d.steered c g new old with
    | none => d.missPcid c sp g.pcid
    | some s => d.useMessage c sp g x s

/-! ### SPK_MAP_WRITE (R408, R410, R484) -/

/-- An entry of 32 bits (R423). -/
def MapEntry.of (w : Nat) : MapEntry :=
  { stream := bits w 0 11, tx := bit w 11, rx := bit w 12, domain := bits w 13 1, pcid := bits w 16 16 }

/-- The load of a map in bit/s over 16 per transmit entry, and of the 64 bytes for each message (R410). -/
def Dev.mapLoad (d : Dev) (n : Nat) (l : List (Nat × MapEntry)) : Nat :=
  (l.filter fun e => e.2.tx).foldl (fun a e =>
    match d.stream e.2.stream with
    | some y =>
      let s := (d.cmpSet e.2.stream 0).latest
      let m := max s.m s.mMax
      let seg := if n < 128 then max (d.port n).seg 16 else 2048
      let per := match d.carrierOf y with
        | some k =>
          let one := fun (len : Nat) => cdiv (cdiv (len * y.fout) 1966080) seg
          2 * (one k.firstLen + (k.symsHalf - 1) * one k.symLen)
        | none => 0
      a + y.fout * 1000 * (8 + 32 * m) / 16 + per * 100 * 512
    | none => a) 0

/-- Sum over all maps: the spokes whose ACTIVE or SHADOW map names a stream. -/
def Dev.spokesNaming (d : Dev) (s : Nat) : List Nat :=
  (d.spk.maps.filter fun e => (e.2.act ++ e.2.latest).any fun y => y.2.stream = s && (y.2.tx || y.2.rx)).map (·.1)

/-- The first entry of a map write that breaks R408, by its place in the list. -/
def Dev.mapFault (d : Dev) (n : Nat) (es : List MapEntry) (domains : Nat) : Option Nat :=
  es.findIdx? fun e =>
    (e.tx || e.rx) &&
    ((d.stream e.stream).isNone || !bit domains e.domain || 4 ≤ ((d.spokesNaming e.stream).filter fun m => m != n).length ||
     d.spk.maps.any fun m => (m.2.act ++ m.2.latest).any fun y => m.1 != n && y.2.stream = e.stream && (y.2.tx || y.2.rx) &&
       y.2.domain != e.domain)

/-- The checks and the write that serial and copper spokes share; `fits` says that a map's load is within the rate. -/
def Dev.mapWrite (c : Clock) (d : Dev) (n first count : Nat) (entries : List Nat) (domains : Nat)
    (fits : List (Nat × MapEntry) → Bool) : Reply × Dev :=
  let es := entries.map MapEntry.of
  if 256 < first + count then (rBad 2, d)
  else if entries.length != count then (rBad 3, d)
  else match entries.findIdx? fun w => bits w 14 2 != 0 with
    | some i => (rBad (3 + 4 * i), d)
    | none =>
      match d.mapFault n es domains with
      | some i => (rBad (3 + 4 * i), d)
      | none =>
        let f := fun (l : List (Nat × MapEntry)) => (List.range count).foldl (fun l i =>
          let e := es.getD i { stream := 0, tx := false, rx := false, domain := 0, pcid := 0 }
          if e.tx || e.rx then tput l (first + i) e else tdel l (first + i)) l
        if !fits (f (d.mapOf n).latest) then (rSt stOVERLOAD, d)
        else if count = 0 then (rOk, d)
        else
          let land := (d.shadow 4 n).landing c.atc
          let d := d.updSpk fun x => { x with maps := tmod mapEmpty x.maps n (Inst.write c.atc land f) }
          (rOk, d.updShadow 4 n fun y => y.touched c.atc false)

end Sys2Proof.Machine
end

