-- ==== Sys2Proof/Machine/Mac.lean ====
section
/-! DEFINITION. The frame MAC (chapter 15): frames and their headers, the receive path, classes and order of transmit,
underrun, pause, low-power idle, delay measurement, host queues, and the MAC commands. -/
namespace Sys2Proof.Machine

/-! ### Frames on the wire (R426-R428, R440) -/

/-- The FCS: CRC-32, as it is appended. -/
def fcs (bs : List Byte) : List Byte := le 4 (crc32 bs)

/-- Ones' complement sum of big-endian 16-bit words. -/
def sum16 : List Byte → Nat
  | a :: b :: l => a.toNat * 256 + b.toNat + sum16 l
  | [a] => a.toNat * 256
  | [] => 0

/-- Fold a sum to 16 bits. -/
def fold16 (v : Nat) : Nat := if v = 0 then 0 else (v - 1) % 65535 + 1

/-- The Internet checksum of a sum. -/
def inetSum (v : Nat) : Nat := 65535 - fold16 v

/-- A UDP datagram over an IP version, with its checksum over the pseudo-header (R428, R440); 0 is sent as 0xFFFF. -/
def udpBytes (v6 : Bool) (src dst sport dport : Nat) (body : List Byte) : List Byte :=
  let n := 8 + body.length
  let w := if v6 then 16 else 4
  let head := be 2 sport ++ be 2 dport ++ be 2 n
  let s := inetSum (sum16 (be w src ++ be w dst) + 17 + n + sum16 (head ++ be 2 0 ++ body))
  head ++ be 2 (if s = 0 then 65535 else s) ++ body

/-- An IP packet that carries a UDP datagram (R428). -/
def ipBytes (v6 : Bool) (src dst dscp : Nat) (udp : List Byte) : List Byte :=
  if v6 then be 4 (0x60000000 + dscp * 2 ^ 22) ++ be 2 udp.length ++ pk [(1, 17), (1, 64)] ++ be 16 src ++ be 16 dst ++ udp
  else
    let h := fun c => pk [(1, 0x45), (1, dscp * 4)] ++ be 2 (20 + udp.length) ++ be 2 0 ++ be 2 0x4000 ++ pk [(1, 64), (1, 17)] ++
      be 2 c ++ be 4 src ++ be 4 dst
    h (inetSum (sum16 (h 0))) ++ udp

/-- Addresses and EtherType, with the port's tag where STREAM_TCI is not 0. -/
def Port.l2 (p : Port) (etype : Nat) (body : List Byte) : List Byte :=
  be 6 p.peerMac ++ be 6 p.ownMac ++ (if p.tci = 0 then [] else be 2 0x8100 ++ be 2 p.tci) ++ be 2 etype ++ body

/-- An eCPRI message in the port's transport (R428), without FCS. -/
def Port.wrap (p : Port) (msg : List Byte) : List Byte :=
  match p.transport with
  | 0 => p.l2 0xAEFE msg
  | 1 => p.l2 0x0800 (ipBytes false p.ownIp p.peerIp p.dscp (udpBytes false p.ownIp p.peerIp p.udp p.udp msg))
  | _ => p.l2 0x86DD (ipBytes true p.ownIp p.peerIp p.dscp (udpBytes true p.ownIp p.peerIp p.udp p.udp msg))

/-- Bytes of headers and FCS about a type 0 message (R433). -/
def headerLen (transport tci : Nat) : Nat :=
  14 + (if tci = 0 then 0 else 4) + (if transport = 0 then 0 else if transport = 1 then 28 else 48) + 4 + 12 + 4

/-! ### Time on the wire -/

/-- Bit times as Tc, rounded up, at the spoke's data rate. -/
def Spoke.bitsTc (s : Spoke) (n : Nat) : Nat := let r := s.rate; cdiv (n * 196608 * r.2) (100 * max r.1 1)

/-- Bit times in 2^-16 ns, at the spoke's data rate. -/
def Spoke.bitsFine (s : Spoke) (n : Nat) : Nat := let r := s.rate; n * 1000 * 65536 * r.2 / max r.1 1

/-- A latency of `ns` at the spoke's rate, in 2^-16 ns (R394). -/
def Spoke.latFine (s : Spoke) (ns : Nat) : Nat :=
  if s.fast then ns * 65536 * s.type.lane / max s.type.fast 1 else ns * 65536

/-- The present transmit and receive latency in 2^-16 ns (R396). -/
def Spoke.lats (s : Spoke) : Nat × Nat :=
  let l := s.latNs ((s.agreed.map (·.fec)).getD s.fecPref)
  (s.latFine l.1, s.latFine l.2)

/-- Microseconds in Tc, rounded up. -/
def usTc (us : Nat) : Nat := cdiv (us * 196608) 100

/-! ### Pause accounting (R447, R452) -/

/-- The priority of a waiting frame: STREAM_TCI's PCP for stream messages, its own for host frames. -/
def Port.pcpOf (p : Port) (f : TxFrame) : Nat := if f.cls = 2 then p.tci / 8192 else f.pcp

/-- Pause holds the frame at ATC `now` (R447). -/
def Port.paused (p : Port) (now : Nat) (f : TxFrame) : Bool :=
  f.cls != 1 && (now < p.pause.getD 8 0 || now < p.pause.getD (p.pcpOf f) 0)

/-- Bring PAUSE_NS up to date, and note whether a ready frame is now held by pause. -/
def Port.tally (p : Port) (now : Nat) : Port :=
  let p := if p.heldAt = 0 then p else p.count 18 ((now + 1 - p.heldAt) * 3125 / 6144)
  { p with heldAt := if p.queue.any fun f => p.paused now f then now + 1 else 0 }

/-- Offer a frame to a port's classes: refused and counted once a disable has taken effect (R412, R452); it ends the
lanes' Cadence gaps (R528). -/
def Dev.offer (c : Clock) (d : Dev) (port : Nat) (f : TxFrame) : Dev :=
  match d.spoke port with
  | none => d
  | some s =>
    if s.dis.isEnding || s.dis = .disabled then d.updPort port fun p => p.count 25 1
    else if !d.awake (spkBlock port) then (d.updPort port fun p => p.count 25 1).logDrop c (spkBlock port) 0 0 1
    else (d.updPort port fun p => ({ p with queue := p.queue ++ [{ f with ready := c.atc }] }).tally c.atc).breakGaps port

/-! ### Streams to ports (R409, R411, R432, R433) -/

/-- A finished symbol goes to a serial spoke whose map names its stream. -/
def Dev.toPort (c : Clock) (d : Dev) (port stream : Nat) (y : Stream) (e : MapEntry) (q : TxSym) : Dev :=
  match d.spoke port with
  | none => d
  | some s =>
    let r := d.symbolMessages port stream y e (d.port port).seg q
    r.1.foldl (fun d m =>
      let mode := fieldAt m.1 4 1 % 4
      if s.st != .active || !s.window then d.updSpoke port fun s => { s with winDrop := satAdd 64 s.winDrop 1 }
      else if !(s.agreed.getD s.standard).allows mode (some m.2) e.domain then
        d.updSpoke port fun s => { s with mismatch := satAdd 64 s.mismatch 1 }
      else d.offer c port { cls := 2, bytes := (d.port port).wrap (ecpri 0 m.1), stream := stream, at_ := q.start, ready := 0 }) r.2

/-! ### Host queues (R442, R443) -/

/-- Deliver a record and a frame to the port's host receive queue: one descriptor, or NOBUF (R442); LENGTH counts the
frame as received, with a tag that has been removed. -/
def Dev.toHost (c : Clock) (d : Dev) (port cls flags tci : Nat) (frame stamp : List Byte) : Dev :=
  let n := (d.port port).rxChan
  let k := d.chan n
  let buf := pk [(2, frame.length + if bit flags 7 then 4 else 0), (1, port), (1, cls), (2, flags), (2, tci), (8, 0)] ++ stamp ++ frame
  let lost := d.updPort port fun p => p.count 10 1
  if n = 0xFFFF || !d.chanReady n || k.verdict.isSome then lost
  else
    let h := lost.headDesc c n
    match h.1 with
    | .inl _ => h.2
    | .inr x =>
      if !x.own || x.len < buf.length then h.2
      else
        let d := ((d.headDesc c n).2).chanStore n x.dst buf
        d.endDesc c n x (d.headWord n) 0 0 0 x.arrive.toNat buf.length

/-- Patch bytes into a list. -/
def patch (bs : List Byte) (off : Nat) (v : List Byte) : List Byte := bs.take off ++ v ++ bs.drop (off + v.length)

/-- The offset of the layer-3 header, and the EtherType there: past one tag. -/
def l3 (bs : List Byte) : Nat × Nat := if fieldBe bs 12 2 = 0x8100 then (18, fieldBe bs 16 2) else (14, fieldBe bs 12 2)

/-- What an IP packet that begins at `o` says: version 6, header good, fragment, UDP and its checksum good, its ports,
and the offset of the UDP payload (R439, R440). -/
structure IpInfo where
  v6 : Bool
  hdrOk : Bool
  frag : Bool
  udp : Bool
  sumOk : Bool
  sport : Nat
  dport : Nat
  body : Nat
  len : Nat
  deriving DecidableEq, Repr

def ipInfo (bs : List Byte) (o : Nat) (v6 : Bool) : IpInfo :=
  let hl := if v6 then 40 else fieldAt bs o 1 % 16 * 4
  let u := o + hl
  let udp := fieldAt bs (o + if v6 then 6 else 9) 1 = 17
  let frag := !v6 && fieldBe bs (o + 6) 2 % 16384 != 0
  let n := fieldBe bs (u + 4) 2
  let sum := fieldBe bs (u + 6) 2
  let w := if v6 then 16 else 4
  let addr := (bs.drop (o + if v6 then 8 else 12)).take (2 * w)
  let good := fold16 (sum16 addr + 17 + n + sum16 ((bs.drop u).take n)) = 65535
  { v6 := v6, hdrOk := v6 || fold16 (sum16 ((bs.drop o).take hl)) = 65535, frag := frag, udp := udp
    sumOk := !udp || frag || (if sum = 0 then !v6 else good), sport := fieldBe bs u 2, dport := fieldBe bs (u + 2) 2
    body := u + 8, len := n - 8 }

/-- Recompute the UDP checksum of a frame, and the IPv4 header checksum, as far as asked (R440, R443, R505). -/
def fixSums (ip l4 : Bool) (bs : List Byte) : List Byte :=
  let h := l3 bs
  if h.2 != 0x0800 && h.2 != 0x86DD then bs
  else
    let v6 := h.2 = 0x86DD
    let hl := if v6 then 40 else fieldAt bs h.1 1 % 16 * 4
    let bs := if ip && !v6 then
        let z := patch bs (h.1 + 10) [0, 0]
        patch z (h.1 + 10) (be 2 (inetSum (sum16 ((z.drop h.1).take hl))))
      else bs
    let i := ipInfo bs h.1 v6
    if l4 && i.udp then
      let u := i.body - 8
      let z := patch bs (u + 6) [0, 0]
      let w := if v6 then 16 else 4
      let addr := (z.drop (h.1 + if v6 then 8 else 12)).take (2 * w)
      let s := inetSum (sum16 addr + 17 + (i.len + 8) + sum16 ((z.drop u).take (i.len + 8)))
      patch z (u + 6) (be 2 (if s = 0 then 65535 else s))
    else bs

/-- The MAC port of a bound transmit channel: the lowest that names it (DESIGN CHOICE, log 63). -/
def Dev.txPort (d : Dev) (n : Nat) : Option Nat := (d.mac.ports.find? fun e => e.2.txChan = n).map (·.1)

/-- A channel is bound to a port for receive. -/
def Dev.rxBound (d : Dev) (n : Nat) : Bool := d.mac.ports.any fun e => e.2.rxChan = n

/-- A transmit descriptor of a bound channel is taken: its record and frame enter the port's queue (R443). -/
def Dev.fromHost (c : Clock) (d : Dev) (n port : Nat) : Dev :=
  if !d.chanReady n then d
  else
    let k := d.chan n
    let w0 := d.headWord n
    let h := d.headDesc c n
    let d := h.2
    match h.1 with
    | .inl _ => d
    | .inr x =>
      if !x.own then d.updChan n fun k => { k with stall := true }
      else match k.verdict with
        | some st => d.endDesc c n x w0 st 0 0 0 0
        | none =>
          if d.descBad n { x with dst := 0 } || x.len < 16 then d.endDesc c n x w0 4 0 0 0 0
          else
            let got := d.chanFetch n x.src x.len
            let b := got.1
            let d := got.2
            let flags := fieldAt b 2 2
            let body := (b.drop 16).take (min (fieldAt b 0 2) (x.len - 16))
            let tagged := if bit flags 3 then body.take 12 ++ be 2 0x8100 ++ be 2 (fieldAt b 6 2) ++ body.drop 12 else body
            let fr := fixSums (bit flags 1) (bit flags 2) tagged
            let pcp := if fieldBe fr 12 2 = 0x8100 then fieldBe fr 14 2 / 8192 else 0
            let d := d.endDesc c n x w0 0 0 0 x.arrive.toNat x.len
            if (d.port port).maxFrame < max fr.length 60 + 4 then d.updPort port fun p => p.count 24 1
            else d.offer c port
              { cls := 4, bytes := fr, at_ := fieldAt b 8 8, ready := 0, pcp := pcp, stamp := bit flags 0
                stampId := fieldAt b 4 2, chan := n }

/-! ### Frames of Breano (R444, R451, R505) -/

/-- Queue a frame of Breano on a port. -/
def Dev.breanoFrame (c : Clock) (d : Dev) (port : Nat) (insert : Nat) (bs : List Byte) : Dev :=
  d.offer c port
    { cls := 3, bytes := bs, ready := 0, insert := insert, pcp := if fieldBe bs 12 2 = 0x8100 then fieldBe bs 14 2 / 8192 else 0 }

/-- A ten-byte time stamp of R451. -/
def stamp10 (t : Nat) : List Byte := be 6 (t / 65536000000000) ++ be 4 (t % 65536000000000 / 65536)

/-- A type 5 message (R451): measurement ID, action, stamp, compensation in 2^-16 ns. -/
def delayMsg (id action t comp : Nat) : List Byte := ecpri 5 (pk [(1, id), (1, action)] ++ stamp10 t ++ be 8 comp)

/-- Begin a measurement: a request, with t1 inserted at departure or sent in a follow-up (R451). -/
def Dev.startDelay (c : Clock) (d : Dev) (port id : Nat) (two : Bool) (tag : Nat := 0) : Dev :=
  let d := d.updPort port fun p => { p with meas := some { id := id, two := two, start := c.atc, tag := tag } }
  d.breanoFrame c port (if two then 3 else 2) ((d.port port).wrap (delayMsg id (if two then 1 else 0) 0 0))

/-- The end of a measurement (R454). -/
def Dev.delayDone (c : Clock) (d : Dev) (port id status : Nat) (v : Int) : Dev :=
  (d.updPort port fun p => { p with meas := none }).evt0 c 0x0881 (((d.port port).meas.map (·.tag)).getD 0)
    [(0, 1, port), (1, 1, id), (2, 1, status), (8, 8, uns 64 v)]

/-- A type 5 message arrives at instant `t2` (R451). -/
def Dev.onDelay (c : Clock) (d : Dev) (port : Nat) (b : List Byte) (t2 : Nat) : Dev :=
  let id := fieldAt b 0 1
  match fieldAt b 1 1 with
  | 0 => d.breanoFrame c port 0 ((d.port port).wrap (delayMsg id 2 t2 0))
  | 1 => d.breanoFrame c port 0 ((d.port port).wrap (delayMsg id 2 t2 0))
  | 3 => if (d.port port).meas.isSome then d else d.startDelay c port id false
  | 4 => if (d.port port).meas.isSome then d else d.startDelay c port id true
  | 2 =>
    match (d.port port).meas with
    | some m =>
      match m.t1 with
      | some t1 =>
        if m.id != id then d
        else
          let r2 := fieldBe b 2 6 * 65536000000000 + fieldBe b 8 4 * 65536
          d.delayDone c port id 0 ((r2 : Int) - sgn 64 (fieldBe b 12 8) - t1)
      | none => d
    | none => d
  | _ => d

def execDelayMeasurementTimeout (port : Nat) : State → Out := onDev fun c d =>
  match (d.port port).meas with
  | some m => if c.atc < m.start + 19660800 then d else d.delayDone c port m.id 1 0
  | none => d

/-- Breano's servo sends a PTP message on a timing port: an event message in one-step form (R505). -/
def execPtpEventMessage (port : Nat) (event : Bool) (frame : List Byte) : State → Out := onDev fun c d =>
  match d.time.tports.findIdx? fun p => p = port, d.spoke port with
  | some i, some s =>
    if d.time.set.profile = 0 || d.devmode.mode = .stoker || (d.time.set.roles.getD i (0, 0)).1 = 0 || s.st != .active ||
        frame.length < 14 then d
    else d.breanoFrame c port (if event then 1 else 0) frame
  | _, _ => d

/-! ### Transmit (R444-R446, R448) -/

/-- The order of R444: class, then symbol start and stream, then descending PCP. -/
def TxFrame.before (a b : TxFrame) : Bool :=
  if a.cls != b.cls then a.cls < b.cls
  else if a.cls = 2 then a.at_ < b.at_ || (a.at_ = b.at_ && a.stream < b.stream)
  else a.cls = 4 && b.pcp < a.pcp

/-- A host frame waits for its LAUNCH, or for an earlier frame of its channel that does (R443). -/
def launchHeld (now : Nat) : List TxFrame → List Nat → List Bool
  | [], _ => []
  | f :: fs, held =>
    if f.cls != 4 then false :: launchHeld now fs held
    else if held.contains f.chan || now < f.at_ then true :: launchHeld now fs (f.chan :: held)
    else false :: launchHeld now fs held

/-- The index of the frame a port starts next at ATC `now` (R444, R447). -/
def Port.pick (p : Port) (now : Nat) : Option Nat :=
  let held := launchHeld now p.queue []
  (List.range p.queue.length).foldl (fun o i =>
    match p.queue[i]? with
    | none => o
    | some f =>
      if held.getD i false || p.paused now f then o
      else match o with
        | none => some i
        | some j => match p.queue[j]? with
          | some g => if f.before g then some i else o
          | none => some i) none

/-- The frame as it departs at instant `t`: stamps inserted and checksums made good (R451, R505; PTP field places
PRESUMED, log 92). -/
def departBytes (f : TxFrame) (t : Nat) : List Byte :=
  if f.insert = 1 then
    let h := l3 f.bytes
    let o := if h.2 = 0x0800 || h.2 = 0x86DD then (ipInfo f.bytes h.1 (h.2 = 0x86DD)).body else h.1
    let b := patch f.bytes (o + 34) (stamp10 t)
    let b := patch b (o + 8) (be 8 ((fieldBe b (o + 8) 8 + t % 65536) % 2 ^ 64))
    fixSums false true b
  else if f.insert = 2 then
    let h := l3 f.bytes
    let o := if h.2 = 0x0800 || h.2 = 0x86DD then (ipInfo f.bytes h.1 (h.2 = 0x86DD)).body else h.1
    fixSums false true (patch f.bytes (o + 6) (stamp10 t))
  else f.bytes

/-- The frame in progress has ended: counted, and its stamp queued (R500, R452). -/
def Dev.finishFrame (c : Clock) (d : Dev) (port : Nat) (f : TxFrame) (lane : Nat) : Dev :=
  let d := d.updPort port fun p =>
    ({ p with busy := none, lpiAt := c.atc }.count 2 1).count 3 p.sent.length
  if f.stamp && port < 128 then
    d.pushStamp c port (stampBytes f.depart f.stampId (d.stampFlags (d.untrue c.atc lane true) false))
  else d

/-- A port that sends: ACTIVE, or in EXCHANGE for handshake frames. -/
def Spoke.sends (s : Spoke) (f : TxFrame) : Bool := s.st = .active || (s.st = .exchange && f.cls = 3)

/-- At a frame boundary the port ends the frame in progress and starts the next one that is ready (R444). -/
def execFrameTransmit (port : Nat) : State → Out := onDev fun c d =>
  match d.spoke port with
  | none => d
  | some s =>
    let p := d.port port
    let busyNow : Bool := match p.busy with
      | some (_, e) => c.atc < e
      | none => false
    if busyNow then d
    else
      let d := match p.busy with
        | some (f, _) => d.finishFrame c port f (firstLane port)
        | none => d
      let d := d.updPort port fun p => p.tally c.atc
      let p := d.port port
      if p.lpi != 0 || d.idleOnly then d
      else match p.pick c.atc with
        | none => d
        | some i =>
          match p.queue[i]? with
          | none => d
          | some f =>
            let rest := p.queue.take i ++ p.queue.drop (i + 1)
            if !s.sends f then d
            else if f.cls = 4 && f.at_ != 0 && f.at_ + 19661 < c.atc then
              d.updPort port fun p => ({ p with queue := rest }.count 23 1).tally c.atc
            else
              let t := c.instant + s.bitsFine 64 + s.lats.1
              let b := departBytes f t
              let b := b ++ List.replicate (60 - b.length) 0
              let wire := b ++ fcs b
              let f := { f with depart := t }
              let d := d.updPort port fun p =>
                ({ p with queue := rest, sent := wire, sentBad := false
                          busy := some (f, c.atc + s.bitsTc (8 * (wire.length + 20)))
                          meas := p.meas.map fun (m : DelayMeas) => if 2 ≤ f.insert && m.t1.isNone then { m with t1 := some t } else m }).tally
                  c.atc
              if f.insert = 3 then
                match (d.port port).meas with
                | some m => d.breanoFrame c port 0 ((d.port port).wrap (delayMsg m.id 5 t 0))
                | none => d
              else d

/-- The transmit buffer runs dry during a frame (R445): ended with an inverted FCS, START_TH raised. -/
def execTxUnderrun (port : Nat) : State → Out := onDev fun c d =>
  let p := d.port port
  match p.busy with
  | some (f, e) =>
    if e ≤ c.atc || p.maxFrame ≤ p.startTh || f.bytes.length ≤ p.startTh then d
    else
      let th := p.startTh + 128
      let due := p.under.1 = 0 || p.under.1 + 1966080 ≤ c.atc + 1
      let n := p.under.2 + 1
      let d := d.updPort port fun p =>
        { p with busy := none, sentBad := true, startTh := th, raisedAt := c.atc + 1, lpiAt := c.atc
                 under := if due then (c.atc + 1, 0) else (p.under.1, n) }.count 16 1
      let d := d.log c (20 + port / 32) trbTIMING 0x0F45 (pk [(1, port), (1, 0), (2, th)])
      if due then d.evt0 c 0x0880 0 [(0, 1, port), (2, 2, th), (4, 4, n)] else d
  | none => d

/-- Stream messages that have not started within STREAM_HOLD are discarded (R448). -/
def execStreamHoldExpire (port : Nat) : State → Out := onDev fun c d =>
  d.updPort port fun p =>
    let late := fun (f : TxFrame) => f.cls = 2 && p.hold * 196608 ≤ (c.atc - f.ready) * 100
    ({ p with queue := p.queue.filter fun f => !late f }.count 19 (p.queue.filter late).length).tally c.atc

/-- A pause time runs out (R447). -/
def execPauseExpire (port prio : Nat) : State → Out := onDev fun c d =>
  d.updPort port fun p =>
    let p := p.tally c.atc
    if 9 ≤ prio || c.atc < p.pause.getD prio 0 then p else ({ p with pause := p.pause.set prio 0 }).tally c.atc

/-! ### Priority flow control sent (R449) -/

/-- Descriptors with OWN = 1 posted on a receive channel. -/
def Dev.posted (d : Dev) (n : Nat) : Nat :=
  let k := d.chan n
  ((List.range k.ahead).takeWhile fun i => bit (readLe d.host.mem (k.slot (k.done + i)) 4) 31).length

/-- A PFC frame for a mask of priorities with one pause time (R449). -/
def Port.pfcFrame (p : Port) (mask q : Nat) : List Byte :=
  be 6 0x0180C2000001 ++ be 6 p.ownMac ++ be 2 0x8808 ++ be 2 0x0101 ++ be 2 mask ++
  (List.range 8).flatMap fun i => be 2 (if bit mask i then q else 0)

/-- PFC is sent, repeated every 32,768 bit times, or released (R449). -/
def execPfcSend (port : Nat) : State → Out := onDev fun c d =>
  match d.liveSpoke port with
  | none => d
  | some s =>
    let p := d.port port
    if p.txPfc = 0 || p.rxChan = 0xFFFF || s.st != .active then d
    else
      let n := d.posted p.rxChan
      let due := p.pfcAt.all fun t => t + s.bitsTc 32768 ≤ c.atc
      let send := fun (q : Nat) (at_ : Option Nat) =>
        (d.updPort port fun p => { p with pfcAt := at_ }.count 20 1).offer c port
          { cls := 1, bytes := p.pfcFrame p.txPfc q, ready := 0 }
      if n < 8 then (if due then send 0xFFFF (some c.atc) else d)
      else if 16 ≤ n && p.pfcAt.isSome then send 0 none
      else d

/-! ### Low-power idle (R450) -/

def Port.lpiNs (p : Port) (now : Nat) : Port := p.count 22 ((now - p.lpiAt) * 3125 / 6144)

def execLpiEnter (port : Nat) : State → Out := onDev fun c d =>
  match d.liveSpoke port with
  | none => d
  | some s =>
    let p := d.port port
    if !p.lpiEn || p.tw.isNone || s.st != .active || p.lpi != 0 || !p.queue.isEmpty || p.busy.isSome ||
        c.atc < p.lpiAt + usTc p.lpiIdle then d
    else d.updPort port fun p => { p with lpi := 1, lpiAt := c.atc }.count 21 1

/-- The wake begins: a frame has become ready, or a pre-wake has fired (R450). -/
def Port.startWake (p : Port) (now : Nat) : Port :=
  if p.lpi = 1 then { (p.lpiNs now) with lpi := 2, lpiAt := now } else p

/-- The wake begins where a frame waits; Tw later the port is awake (R450). -/
def execLpiWake (port : Nat) : State → Out := onDev fun c d =>
  d.updPort port fun p =>
    if p.lpi = 1 && !p.queue.isEmpty then p.startWake c.atc
    else if p.lpi = 2 && p.lpiAt + usTc (p.tw.getD 0) ≤ c.atc then { p with lpi := 0, lpiAt := c.atc }
    else p

/-- A SPOKE_WINDOW action with ARG 4 (R450). -/
def Dev.preWake (c : Clock) (d : Dev) (port : Nat) : Dev :=
  if !(d.port port).lpiEn then d.updSpoke port fun s => { s with winBad := satAdd 64 s.winBad 1 }
  else d.updPort port fun p => p.startWake c.atc

/-! ### The receive path (R434-R441) -/

/-- A multicast address. -/
def isMulticast (a : Nat) : Bool := bit a 40

/-- The address filter: dropped, accepted, or accepted only through PROM or ALLMC (R436, R438). -/
inductive Accept where
  | no | only | yes
  deriving DecidableEq, Repr

def Port.accept (p : Port) (dst : Nat) : Accept :=
  if dst = 2 ^ 48 - 1 || (List.range 16).any (fun i => bit p.fltOn i && p.flt.getD i 0 = dst) then .yes
  else if p.prom || (p.allmc && isMulticast dst) then .only
  else .no

/-- Steering of a port: ACTIVE, and the set a copy replaced while it is kept (R435). -/
def steerLook (l : List (Nat × Nat × Nat)) (pcid : Nat) : Option Nat := (l.find? fun e => e.2.1 = pcid).map (·.2.2)

def steerEmpty : Inst (List (Nat × Nat × Nat)) := { act := [], sh := [] }

def Dev.steerOf (d : Dev) (p : Nat) : Inst (List (Nat × Nat × Nat)) := tget steerEmpty d.mac.steer p

/-- The messages of a frame, each handled or not; whether any is for the host (R430, R431). -/
def Dev.onEcpri (c : Clock) (port t2 : Nat) : Nat → List Byte → Dev → Bool × Dev
  | 0, _, d => (false, d)
  | fuel + 1, b, d =>
    let n := fieldBe b 2 2
    let more := bit (fieldAt b 0 1) 0
    if b.length < 4 + n || b.length < 4 then (false, d.countSp port 26 1)
    else
      let body := (b.drop 4).take n
      let type := fieldAt b 1 1
      let r : Bool × Dev :=
        if fieldAt b 0 1 / 16 != 1 then (false, d.countSp port 11 1)
        else if type = 0 then
          let old := (d.port port).oldSteer.map fun o => (o.1, steerLook o.2)
          (false, d.recvMessage c port body (steerLook (d.steerOf port).act) old)
        else if type = 5 then (false, d.onDelay c port body t2)
        else if type = 2 || type = 4 || type = 6 then (true, d)
        else (false, d.countSp port 12 1)
      if more then
        let rest := Dev.onEcpri c port t2 fuel (b.drop (4 + n)) r.2
        (r.1 || rest.1, rest.2)
      else r

/-- A PAUSE or PFC frame (R447): `o` is the offset of its opcode. -/
def Port.onControl (p : Port) (now : Nat) (s : Spoke) (b : List Byte) (o : Nat) : Port :=
  let op := fieldBe b o 2
  let until_ := fun q => if q = 0 then 0 else now + s.bitsTc (512 * q)
  if op = 0x0001 then
    let p := (p.count 17 1).tally now
    if p.rxPause then ({ p with pause := p.pause.set 8 (until_ (fieldBe b (o + 2) 2)) }).tally now else p
  else if op = 0x0101 then
    let p := (p.count 17 1).tally now
    if p.rxPause then
      let en := fieldBe b (o + 2) 2 &&& p.pfcRx
      ((List.range 8).foldl (fun (p : Port) i =>
        if bit en i then { p with pause := p.pause.set i (until_ (fieldBe b (o + 4 + 2 * i) 2)) } else p) p).tally now
    else p
  else p

/-- The wake times of an LLDP EEE TLV, if the frame holds one (R450; the TLV's layout PRESUMED, log 92). -/
def eeeTw : Nat → List Byte → Option Nat
  | 0, _ => none
  | f + 1, b =>
    let h := fieldBe b 0 2
    let n := h % 512
    if b.length < 2 || h = 0 then none
    else if h / 512 = 127 && fieldBe b 2 3 = 0x00120F && fieldAt b 5 1 = 5 then some (fieldBe b 8 2)
    else eeeTw f (b.drop (2 + n))

/-- Row of R437: EtherType, and for UDP the destination port. -/
def Port.rxRow (p : Port) (etype : Nat) (i : Option IpInfo) : Nat :=
  let udp := fun (v6 : Bool) (port' : Nat) => i.any fun x => x.udp && !x.frag && x.v6 = v6 && x.dport = port'
  if etype = 0xAEFE || (p.transport != 0 && udp (p.transport = 2) p.udp) then 1 else if etype = 0x88B5 then 2
  else if etype = 0x88F7 || [319, 320].any fun q => udp false q || udp true q then 3
  else if etype = 0x88CC then 4 else 5

/-- Where a good frame goes after its checks (R437-R439): `o` is the offset of its layer-3 header. -/
def Dev.classify (c : Clock) (d : Dev) (port : Nat) (fr : List Byte) (o etype : Nat) (only : Bool)
    (flags tci : Nat) (i : Option IpInfo) (stamp : List Byte) (t2 : Nat) : Dev :=
  let frag := i.any (·.frag)
  let flags := flags + (if only then 64 else 0) + (if frag then 256 else 0)
  let row := (d.port port).rxRow etype i
  let host := fun (d : Dev) => d.toHost c port row flags tci fr stamp
  if only || frag then host d
  else if row = 1 then
    let b := fr.take (fr.length - 4)
    let m := match i with
      | some x => (b.drop x.body).take x.len
      | none => b.drop o
    let r := Dev.onEcpri c port t2 (m.length / 4 + 1) m d
    if r.1 then host r.2 else r.2
  else if row = 2 then
    let b := fr.drop o
    if fieldAt b 0 1 = 1 then d.onCap c port b else if fieldAt b 0 1 = 2 then d.onConfirm c port b else d
  else if row = 3 && d.time.tports.contains port then d
  else if row = 4 then
    let d := match eeeTw 64 (fr.drop o) with
      | some peer => let v := draw d; v.2.updPort port fun p => { p with tw := some (max peer (v.1 % 65536)) }
      | none => d
    host d
  else host d

/-- A class 2 frame of a tandem link (R555; layout log 100): a spoke number, then the message. The outlet sends it unchanged on
the serial spoke named, in the modes in which streams use spokes (R32); number 255 is a receive message for the home, which steers it by PC_ID. -/
def Dev.onTandem (c : Clock) (d : Dev) (port : Nat) (b : List Byte) : Dev :=
  let sp := fieldAt b 0 1
  let msg := b.drop 1
  if (d.spoke port).all fun s => s.st != .active then d
  else if sp = 255 then
    d.recvMessage c port (msg.drop 4)
      (fun pcid => (d.tnd.streams.find? fun e => e.2.pcid = pcid && bit e.2.dirs 1).map (·.1)) none
  else if 128 ≤ sp || !d.devmode.mode.spokes then d
  else match d.liveSpoke sp with
    | none => d
    | some s =>
      if s.st != .active || !s.window then d.updSpoke sp fun s => { s with winDrop := satAdd 64 s.winDrop 1 }
      else d.offer c sp { cls := 2, bytes := (d.port sp).wrap msg, ready := 0 }

/-- A frame arrives, FCS included; its timestamp point has crossed the PCS in this cycle. `symErr`: it holds a PCS error
block, and whether its delimiter was detected is then free (R507); `fecCorr`, `fecUe`: codewords corrected and uncorrectable since the last frame (R436, R441, R442). -/
def execFrameReceive (port : Nat) (frame : List Byte) (symErr : Bool) (fecCorr fecUe : Nat) : State → Out :=
  onDev fun c d =>
    if 256 ≤ port then d.onTandem c port frame
    else match d.liveSpoke port with
    | none => d
    | some s =>
      if (s.st != .active && s.st != .exchange) || s.dis.isEnding || !d.awake (spkBlock port) then d
      else
        let d := d.updSpoke port fun s => { (s.seeUe c.atc fecUe) with corr := satAdd 64 s.corr fecCorr }
        let d := d.breakGaps port
        let n := frame.length
        let p := d.port port
        let badFcs := fcs (frame.take (n - 4)) != frame.drop (n - 4)
        let runt : Bool := n < 64
        let big : Bool := p.maxFrame < n
        let d := d.updPort port fun p =>
          (((((p.count 0 1).count 1 n).count 4 badFcs.toNat).count 5 runt.toNat).count 6 big.toNat).count 7 symErr.toNat
        let bad := badFcs || runt || big || symErr
        let flags := badFcs.toNat + 2 * runt.toNat + 4 * big.toNat + 8 * symErr.toNat
        if bad && !p.keepBad then d
        else
          let acc := p.accept (fieldBe frame 0 6)
          let tagged := fieldBe frame 12 2 = 0x8100
          let tci := if tagged then fieldBe frame 14 2 else 0
          let fr := if tagged then frame.take 12 ++ frame.drop 16 else frame
          let etype := fieldBe fr 12 2
          let vlanBad := p.vlanCheck && (!tagged || tci % 4096 != p.tci % 4096)
          let flags := flags + (if tagged then 128 else 0)
          let t2 := c.instant - s.lats.2
          let u := d.untrue c.atc (firstLane port) false
          let v := if symErr then draw d else (1, d)
          let d := v.2
          let stamp := if bit v.1 0 then stampBytes t2 0 (d.stampFlags u false) else stampBytes 0 0 0
          if acc = .no then d.updPort port fun p => p.count 9 1
          else if vlanBad then d.updPort port fun p => p.count 9 1
          else if etype = 0x8808 then if bad then d else d.updPort port fun p => p.onControl c.atc s fr 14
          else
            let ip := etype = 0x0800 || etype = 0x86DD
            let i := if ip then some (ipInfo fr 14 (etype = 0x86DD)) else none
            let sumBad := i.any fun x => !x.hdrOk || !x.sumOk
            let d := d.updPort port fun p => p.count 8 sumBad.toNat
            let flags := flags + (if i.any fun x => !x.hdrOk then 16 else 0) + (if i.any fun x => !x.sumOk then 32 else 0)
            if bad || sumBad then
              if p.keepBad then d.toHost c port (p.rxRow etype i) (flags + if acc = .only then 64 else 0) tci fr stamp else d
            else d.classify c port fr 14 etype (acc = .only) flags tci i stamp t2

/-! ### Steering (R435) -/

/-- The copy of a port's steering at a mark: the set replaced is kept for 1 ms (R435). -/
def Dev.copySteer (c : Clock) (d : Dev) (n : Nat) : Dev :=
  let old := (d.steerOf n).act
  let d := d.updMac fun m => { m with steer := tmod steerEmpty m.steer n (Inst.copy c.atc) }
  d.updPort n fun p => { p with oldSteer := some (c.atc, old) }

/-- The 1 ms for which replaced steering is kept has passed; a copper spoke keeps its replaced map (R435, R485). -/
def execSteerKeepExpire (port : Nat) : State → Out := onDev fun c d =>
  if 128 ≤ port then
    d.updCop fun x => { x with oldMap := if (tfind x.oldMap port).any fun o => o.1 + 1966080 ≤ c.atc then tdel x.oldMap port
                                         else x.oldMap }
  else d.updPort port fun p => if p.oldSteer.any fun o => o.1 + 1966080 ≤ c.atc then { p with oldSteer := none } else p

/-! ### Commands (R453) -/

/-- A command names a port: its checks, then the rest (R425). -/
def Dev.onPort (d : Dev) (port : Nat) (k : Spoke → Reply × Dev) : Reply × Dev :=
  if 128 ≤ port then (rBad 0, d)
  else match d.liveSpoke port with
    | none => (rSt stBADSTATE, d)
    | some s => k s

def execMacPortSet (r : Req) (port ownMac peerMac tci transport ownIp peerIp udp dscp maxFrame seg : Nat) : State → Out :=
  onDev <| serve 0x0801 r fun _ d => d.onPort port fun _ =>
    if 2 < transport then (rBad 15, d)
    else if 64 ≤ dscp then (rBad 50, d)
    else if maxFrame < 1518 || 9600 < maxFrame then (rBad 51, d)
    else if seg % 16 != 0 || seg < 16 || 2048 < seg || maxFrame < headerLen transport tci + seg / 16 * 65 then (rBad 53, d)
    else if d.mapActive port then (rSt stBUSY, d)
    else (rOk, d.updPort port fun p =>
      { p with ownMac := ownMac, peerMac := peerMac, tci := tci, transport := transport, ownIp := ownIp, peerIp := peerIp
               udp := udp, dscp := dscp, maxFrame := maxFrame, seg := seg })

def execMacFilterSet (r : Req) (port enable : Nat) (addrs : List Nat) (prom allmc keepBad vlanCheck : Nat) : State → Out :=
  onDev <| serve 0x0802 r fun _ d => d.onPort port fun _ =>
    if addrs.length != 16 then (rBad 3, d)
    else if 1 < prom then (rBad 99, d)
    else if 1 < allmc then (rBad 100, d)
    else if 1 < keepBad then (rBad 101, d)
    else if 1 < vlanCheck then (rBad 102, d)
    else (rOk, d.updPort port fun p =>
      { p with fltOn := enable, flt := addrs, prom := prom = 1, allmc := allmc = 1, keepBad := keepBad = 1
               vlanCheck := vlanCheck = 1 })

def execMacFlowSet (r : Req) (port rxPause pfcRx txPfc hold : Nat) : State → Out :=
  onDev <| serve 0x0803 r fun x d => d.onPort port fun _ =>
    if 1 < rxPause then (rBad 1, d)
    else if bit txPfc ((d.port port).tci / 8192) then (rBad 3, d)
    else if 500 < hold then (rBad 4, d)
    else (rOk, d.updPort port fun p =>
      let p := p.tally x.clk.atc
      { p with rxPause := rxPause = 1, pfcRx := pfcRx, txPfc := txPfc, hold := hold })

def execMacLpiSet (r : Req) (port en idle : Nat) : State → Out := onDev <| serve 0x0804 r fun x d => d.onPort port fun s =>
  if 1 < en || (en = 1 && s.port != 1 && s.port != 2 && s.port != 4) then (rBad 1, d)
  else if idle = 0 || 1000 < idle then (rBad 2, d)
  else (rOk, d.updPort port fun p =>
    let p := if en = 0 then { (if p.lpi = 1 then p.lpiNs x.clk.atc else p) with lpi := 0 } else p
    { p with lpiEn := en = 1, lpiIdle := idle })

def execMacQueueSet (r : Req) (port rx tx : Nat) : State → Out := onDev <| serve 0x0805 r fun _ d => d.onPort port fun _ =>
  let ok := fun (q : Nat) => q = 0xFFFF || (512 ≤ q && q < 576 && d.chanFunc q = 0)
  let live := fun (q : Nat) => q != 0xFFFF && (d.chan q).dis != .off && (d.chan q).dis != .disabled
  if !ok rx then (rBad 1, d)
  else if !ok tx then (rBad 3, d)
  else if live rx || live tx then (rSt stBUSY, d)
  else (rOk, d.updPort port fun p => { p with rxChan := rx, txChan := tx })

def execMacSteerWrite (r : Req) (port first count : Nat) (entries : List Nat) : State → Out :=
  onDev <| serve 0x0806 r fun x d => d.onPort port fun _ =>
    if 256 < first + count then (rBad 2, d)
    else if entries.length != count then (rBad 3, d)
    else match entries.findIdx? fun w => bits w 27 5 != 0 with
      | some i => (rBad (3 + 4 * i), d)
      | none =>
        if count = 0 then (rOk, d)
        else
        let f := fun (l : List (Nat × Nat × Nat)) => (List.range count).foldl (fun l i =>
          let w := entries.getD i 0
          tput l (first + i) (bits w 0 16, bits w 16 11)) l
        let land := (d.shadow 3 port).landing x.clk.atc
        let d := d.updMac fun m => { m with steer := tmod steerEmpty m.steer port (Inst.write x.clk.atc land f) }
        (rOk, d.updShadow 3 port fun y => y.touched x.clk.atc false)

/-- A reset in the cycle of an underrun applies first (R446). -/
def execMacTxthreshReset (r : Req) (port : Nat) : State → Out := onDev <| serve 0x0807 r fun x d => d.onPort port fun _ =>
  let p := d.port port
  let same := p.raisedAt = x.clk.atc + 1
  (rOk [(2, if same then p.startTh - 128 else p.startTh)], d.updPort port fun p => { p with startTh := if same then 384 else 256 })

/-- With CLEAR the answer and the clear are of the counters as the cycle began: what lands in the cycle counts after it (R452). -/
def execMacGetStats (r : Req) (port clear : Nat) : State → Out := onDev <| serve 0x0808 r fun x d => d.onPort port fun _ =>
  if 1 < clear then (rBad 1, d)
  else
    let before := (d.port port).stats
    let d := d.updPort port fun p =>
      let p := p.tally x.clk.atc
      if p.lpi = 1 then { p.lpiNs x.clk.atc with lpiAt := x.clk.atc } else p
    let now := (d.port port).stats
    if clear = 0 then (rOk ((List.range 28).map fun i => (8, tget 0 now i)), d)
    else
      let was := fun i => tget 0 (tget [] d.cyc.mac port) i + (tget 0 now i - tget 0 before i)
      (rOk ((List.range 28).map fun i => (8, was i)),
       { d.updPort port fun p =>
           { p with stats := (List.range 28).foldl (fun t i => tset 0 t i (tget 0 now i - was i)) [] } with
         cyc := { d.cyc with mac := tdel d.cyc.mac port } })

def execMacDelayMeasure (r : Req) (port two id : Nat) : State → Out := onDev <| serve 0x0809 r fun x d =>
  d.onPort port fun _ =>
    if 1 < two then (rBad 1, d)
    else if (d.port port).meas.isSome then (rSt stBUSY, d)
    else (rAcc, d.startDelay x.clk port id (two = 1) x.tag)

def execMacPortStatus (r : Req) (port : Nat) : State → Out := onDev <| serve 0x080A r <| fun x d => d.onPort port fun _ =>
  let p := d.port port
  let all := x.clk.atc < p.pause.getD 8 0
  let mask := (List.range 8).foldl (fun m i => if all || x.clk.atc < p.pause.getD i 0 then m + 2 ^ i else m) 0
  (rOk [(2, p.startTh), (1, mask), (1, if !p.lpiEn then 0 else p.lpi + 1), (2, p.tw.getD 0), (2, (d.shadow 3 port).seq)], d)

/-- SPK_MAP_WRITE of a serial spoke (R408, R410). -/
def Dev.serialMap (x : Ctx) (d : Dev) (spoke first count : Nat) (entries : List Nat) : Reply × Dev :=
  match d.liveSpoke spoke with
  | none => (rSt stBADSTATE, d)
  | some s =>
    let a := s.agreed.getD s.standard
    let r := s.rate
    d.mapWrite x.clk spoke first count entries (if s.profile = 1 && s.agreed.isNone then s.domains else a.domains)
      fun l => d.mapLoad spoke l * 100 ≤ r.1 * 1000000 / max r.2 1 * 95

end Sys2Proof.Machine
end

