-- ==== Sys2Proof/Machine/Copper.lean ====
section
/-! DEFINITION. Copper spokes (chapter 16): the transmit mask, bit loading, link frames and control messages, sync and
burst reception, bit swap, bring-up, faults and self-tests, pair changes, disable, and the COP commands. -/
namespace Sys2Proof.Machine

def Dev.copper (d : Dev) (n : Nat) : Option CopSpoke := tfind d.cop.spokes n

def Dev.updCopper (d : Dev) (n : Nat) (f : CopSpoke → CopSpoke) : Dev :=
  match d.copper n with
  | some s => d.updCop fun x => { x with spokes := tput x.spokes n (f s) }
  | none => d

/-- Pair channel index of pair `x` of spoke `n` (R455). -/
def pairIdx (n x : Nat) : Nat := 4 * (n - 128) + x

/-- The spoke of a pair channel (R455). -/
def pairSpokeNo (p : Nat) : Nat := 128 + p / 4

/-- Block of a copper spoke's trouble word: D24 or D25 (R455). -/
def copBlock (n : Nat) : Nat := 24 + (n - 128) / 8

/-- Pairs of a mask as pair channel indices. -/
def maskPairs (n mask : Nat) : List Nat := (ones 4 mask).map fun x => pairIdx n x

/-- The pairs that run: those of the mask, and those a pair change adds (R490). -/
def CopSpoke.liveMask (s : CopSpoke) : Nat := s.mask ||| (s.change.map (·.1)).getD 0

def CopSpoke.livePairs (s : CopSpoke) (n : Nat) : List Nat := maskPairs n s.liveMask

/-- DISABLED with no disable pending (R456). -/
def CopSpoke.resting (s : CopSpoke) : Bool := s.dis = .off || s.dis = .disabled

/-- Add to a saturating 64-bit counter of COP_GET_STATS. -/
def PairCh.count (p : PairCh) (i n : Nat) : PairCh := { p with stats := tmod 0 p.stats i fun v => satAdd 64 v n }

def loadEmpty : Inst LoadTab := { act := {}, sh := {} }
def Dev.loadOf (d : Dev) (p : Nat) : Inst LoadTab := tget loadEmpty d.cop.tables p
def LoadTab.dir (t : LoadTab) (dir : Nat) : List Nat := if dir = 0 then t.down else t.up
def LoadTab.setDir (t : LoadTab) (dir : Nat) (l : List Nat) : LoadTab := if dir = 0 then { t with down := l } else { t with up := l }

/-! ### Transmit spectrum (R458, R460, R461, R469) -/

def Dev.copMask (d : Dev) (n : Nat) : CopMask := tget {} d.cop.masks n

/-- A sub-carrier lies in a notch or within NGUARD of one (R461). -/
def CopMask.blocked (m : CopMask) (n : Nat) : Bool :=
  m.notches.any fun e => e.1 ≤ n + m.nguard && n ≤ e.2 + m.nguard

/-- Usable sub-carriers (R458). -/
def usable (n : Nat) : Bool := 17 ≤ n && n ≤ 4079

/-- The sync sub-carriers of a placement (R469). -/
def syncSet (base step : Nat) : List Nat := (List.range 64).map fun i => base + step * i

/-- A sync placement is on 64 usable sub-carriers, none notched or guarded (R461, R469). -/
def placementOk (m : CopMask) (base step : Nat) : Bool :=
  step != 0 && (syncSet base step).all fun n => usable n && !m.blocked n

/-- 10^(-num / (100 den)) times 2^64: a level of -num / den tenths of dBm as mW (log 80). -/
def milliwatt (num den : Nat) : Nat :=
  let y := num * 42475197918399869019 / (6400 * den)
  let e := (List.range 12).foldl (fun (o : Int × Int) (i : Nat) =>
    let t := -(o.2 * (y : Int)) / ((2 : Int) ^ 64 * ((i : Int) + 1))
    (o.1 + t, t)) ((2 : Int) ^ 64, (2 : Int) ^ 64)
  (List.range 6).foldl (fun v _ => v * v / 2 ^ 64) e.1.toNat

/-- Mask level at a sub-carrier as minus num / den tenths of dBm/Hz: none outside the breakpoints (R460). -/
def levelAt : List (Nat × Int) → Nat → Option (Nat × Nat)
  | a :: b :: l, n =>
    if a.1 ≤ n && n ≤ b.1 then
      some ((-(a.2 * ((b.1 : Int) - n) + b.2 * ((n : Int) - a.1))).toNat, b.1 - a.1)
    else levelAt (b :: l) n
  | _, _ => none

/-- The mask integrated over the usable band exceeds 14.0 dBm (R460). -/
def CopMask.tooStrong (m : CopMask) : Bool :=
  let p := (List.range 4063).foldl (fun a i =>
    match levelAt m.points (17 + i) with
    | some l => if m.blocked (17 + i) then a else a + milliwatt l.1 l.2
    | none => a) 0
  463361261442807804335 < p * 120000

/-- Fields of a breakpoint and of a notch (R493). -/
def breakpoint (w : Nat) : Nat × Int := (w % 65536, sgn 16 (w / 65536))

/-- Ascending sub-carriers within 0-4,095 and levels within -100.0 to -50.0 dBm/Hz: the place of the first fault
(R460). -/
def pointsFault (l : List (Nat × Int)) : Option Nat :=
  (List.range l.length).find? fun i =>
    let e := l.getD i (0, 0)
    4096 ≤ e.1 || e.2 < -1000 || -500 < e.2 || (i != 0 && e.1 ≤ (l.getD (i - 1) (0, 0)).1)

def execCopMaskSet (r : Req) (spoke nguard : Nat) (points notches : List Nat) : State → Out :=
  onDev <| serve 0x0905 r fun _ d =>
    let m : CopMask := { points := points.map breakpoint, nguard := nguard, notches := notches.map fun w => (w % 65536, w / 65536) }
    if spoke < 128 || 144 ≤ spoke then (rBad 0, d)
    else if 64 < nguard then (rBad 1, d)
    else if points.length < 2 || 64 < points.length then (rBad 2, d)
    else match pointsFault m.points with
      | some i => (rBad (2 + 4 * i), d)
      | none =>
        match m.notches.findIdx? fun e => e.2 < e.1 || 4096 ≤ e.2 with
        | some i => (rBad (2 + 4 * points.length + 4 * i), d)
        | none =>
          if 32 < notches.length then (rBad (2 + 4 * points.length), d)
          else if m.tooStrong then (rBad 2, d)
          else if (d.copper spoke).any fun s => !s.resting then (rSt stBUSY, d)
          else (rOk, d.updCop fun x => { x with masks := tset {} x.masks spoke m })

/-! ### Bit loading (R462-R464, R467) -/

/-- b of a table entry. -/
def loadB (w : Nat) : Nat := w % 16

/-- A spoke's sub-carriers that may carry data (R461-R463). -/
def Dev.mayLoad (d : Dev) (s : CopSpoke) (n : Nat) : Nat → Bool := fun i =>
  usable i && !(d.copMask n).blocked i && !(syncSet s.syncBase s.syncStep).contains i

/-- The first entry of a table that R458, R461 or R462 refuses. -/
def Dev.tableFault (d : Dev) (n : Nat) (t : List Nat) : Option Nat :=
  let m := d.copMask n
  (((List.range 4096).zip t).find? fun e =>
    14 < loadB e.2 || bits e.2 4 4 != 0 || (loadB e.2 != 0 && !(usable e.1 && !m.blocked e.1))).map (·.1)

/-- Sum of b over a table. -/
def tableBits (t : List Nat) : Nat := t.foldl (fun a w => a + loadB w) 0

/-- Bits that a line symbol of a set of pairs carries in a direction (R465, R467). -/
def Dev.pairBits (d : Dev) (ps : List Nat) (dir : Nat) : Nat :=
  ps.foldl (fun a p => a + tableBits ((d.loadOf p).act.dir dir)) 0

/-- At ATC `t` the line of a pair still uses the tables from before the last copy: the new ones apply from the first superframe
that begins more than 19,200 Tc after the mark (R483). -/
def Dev.oldInUse (d : Dev) (p t : Nat) : Bool :=
  let adv := (d.copper (pairSpokeNo p)).elim 0 (·.lineAdv)
  (d.pair p).swapAt.any fun m => (t + adv) / frameTc * frameTc ≤ m.1 + adv + 19200

/-- The tables that a pair's line uses at ATC `t` (R483). -/
def Dev.tabInUse (d : Dev) (p t : Nat) : LoadTab := if d.oldInUse p t then (d.pair p).oldTab else (d.loadOf p).act

/-- Bits of a downstream line symbol of a set of pairs at ATC `t` (R465, R483). -/
def Dev.lineBits (d : Dev) (ps : List Nat) (t : Nat) : Nat := ps.foldl (fun a p => a + tableBits (d.tabInUse p t).down) 0

/-- The net rate in bit/s (R467). -/
def netRate (bits : Nat) : Nat := (bits - 16) * 102200

/-- b[n] of R463: the largest b up to 14 with 2^b at most 1 + SNR / margin; `snr` in 0.25 dB, `margin` in 0.1 dB. -/
def loadBits (snr : Int) (margin : Nat) : Nat :=
  let e := 5 * snr - 195 - 2 * margin
  if e < 0 then 0 else ((List.range 15).filter fun b => (2 ^ b - 1) ^ 200 ≤ 10 ^ e.toNat).length - 1

/-- The table that R463 forms from SNR values. -/
def Dev.formTable (d : Dev) (s : CopSpoke) (n : Nat) (snr : List Nat) : List Nat :=
  let ok := d.mayLoad s n
  (List.range 4096).map fun i => if ok i then loadBits (snr.getD i 0) s.margin else 0

/-- The lower of two SNR lists, entry by entry; an empty list holds no measurement. -/
def lowest (a b : List Nat) : List Nat := if a.isEmpty then b else (List.range 4096).map fun i => min (a.getD i 0) (b.getD i 0)

/-- The SNR that forms a direction's table: over the radio points of `mask` (R463). -/
def PairCh.snrOver (p : PairCh) (dir mask : Nat) : List Nat :=
  (ones 16 mask).foldl (fun a rp => match tfind p.snr (dir * 16 + rp) with
    | some v => lowest a v.1
    | none => a) []

/-- 4,096 free values of 16 bits: what the receiver measures (R463; log 8). -/
def measure (d : Dev) : List Nat × Dev :=
  let v := draw d
  ((List.range 4096).map fun i => v.1 / 65536 ^ i % 65536, v.2)

/-- Bits of a symbol under the bring-up table (R464). -/
def Dev.bringupBits (d : Dev) (s : CopSpoke) (n : Nat) : Nat :=
  let ok := d.mayLoad s n
  2 * ((List.range 4096).filter fun i => i % 8 = 0 && ok i).length

/-! ### Link frames and control messages (R465, R466, R468; 17 R508) -/

/-- A link frame (R466). -/
def linkFrame (type rp : Nat) (payload : List Byte) : List Byte :=
  let b := pk [(1, type), (1, rp)] ++ be 2 payload.length ++ le 4 0 ++ payload
  b ++ be 4 (crc32 b)

/-- A frame joins what waits for the line on a pair. -/
def Dev.lineSend (d : Dev) (p : Nat) (fr : List Byte) : Dev :=
  d.updCopper (pairSpokeNo p) fun s => { s with queue := s.queue ++ [(p, fr)] }

/-- SEQ mod 16 of the table that the next copy makes ACTIVE (R468, R483). -/
def Dev.nextTabSeq (d : Dev) (p : Nat) : Nat := ((d.shadow 5 p).seq + 1) % 16

def Dev.sendDetect (d : Dev) (p rp : Nat) : Dev :=
  d.lineSend p (linkFrame 1 rp (pk [(1, 1), (1, pairSpokeNo p), (1, p % 4), (1, rp)] ++ be 8 Config.ident))

def Dev.sendTable (d : Dev) (p rp dir : Nat) : Dev :=
  let t := (d.loadOf p).latest.dir dir
  d.lineSend p (linkFrame 1 rp (pk [(1, 5), (1, dir), (1, d.nextTabSeq p)] ++
    (List.range 4096).flatMap fun i => be 2 (t.getD i 0)))

/-- MASK: breakpoints, notches, NGUARD and the sync placement (R468; layout log 80). -/
def Dev.sendMask (d : Dev) (p rp : Nat) (s : CopSpoke) : Dev :=
  let m := d.copMask (pairSpokeNo p)
  d.lineSend p (linkFrame 1 rp (pk [(1, 4), (1, m.points.length)] ++
    (m.points.flatMap fun e => be 2 e.1 ++ be 2 (uns 16 e.2)) ++ pk [(1, m.notches.length)] ++
    (m.notches.flatMap fun e => be 2 e.1 ++ be 2 e.2) ++ pk [(1, m.nguard)] ++ be 2 s.syncBase ++ be 2 s.syncStep))

/-- BURST_PLAN: each radio point, its start symbol and its largest LEN (R468, R476). -/
def Dev.sendPlan (d : Dev) (p rp : Nat) : Dev :=
  let q := d.pair p
  d.lineSend p (linkFrame 1 rp (pk [(1, 7)] ++ (ones 16 q.rpMask).flatMap fun i =>
    let e := q.plan.getD i (0, 0)
    pk [(1, i)] ++ be 2 e.1 ++ be 2 e.2))

/-- A TIME message: subtype, sequence number, and the stamp of a sync symbol that begins at ATC `q`; its timestamp point
is the first sample after the cyclic extension (R498, R499, R508). Truing keeps no latency trim of a pair, so UNTRUE
stays clear (log 83). -/
def Dev.sendTime (d : Dev) (p rp sub seq q : Nat) : Dev :=
  d.lineSend p (linkFrame 1 rp (pk [(1, 8), (1, sub)] ++ be 2 seq ++
    stampBytes (instantOfAtc (q + 2816)) 0 (d.stampFlags false false)))

/-- Take the frames of the pairs `ps` from the front of what waits, as far as `cap` bytes go: the frames that end within them,
the frames left, and the bytes carried of the first one left. -/
def takeFrames (ps : List Nat) : List (Nat × List Byte) → Nat → List (Nat × List Byte) × List (Nat × List Byte) × Nat
  | [], _ => ([], [], 0)
  | e :: l, cap =>
    if !ps.contains e.1 then
      let r := takeFrames ps l cap
      (r.1, e :: r.2.1, r.2.2)
    else if e.2.length ≤ cap then
      let r := takeFrames ps l (cap - e.2.length)
      (e :: r.1, r.2.1, r.2.2)
    else ([], e :: l, cap)

/-- The line stream of the pairs `ps` carries `cap` bytes of the waiting frames; a frame may span symbols (R465). A sleeping domain
sends idle frames alone (R491). -/
def Dev.pump (d : Dev) (n : Nat) (ps : List Nat) (cap : Nat) : Dev :=
  let lead := ps.headD 0
  d.updCopper n fun s =>
    if d.idleOnly then s
    else
      let r := takeFrames ps s.queue (tget 0 s.part lead + cap)
      { s with sent := s.sent ++ r.1, queue := r.2.1, part := tset 0 s.part lead r.2.2 }

/-- Transmission on a pair ends at ATC `now`, after the last whole symbol: what a cut burst did not carry waits again (R473;
log 161). -/
def Dev.cutBurst (d : Dev) (p now : Nat) : Dev :=
  let d' := d.updPair p fun q => { q with tx := none }
  match (d.pair p).tx with
  | none => d
  | some b =>
    let n := (now - b.first) / 19200
    if b.len ≤ n then d'
    else d'.updCopper (pairSpokeNo p) fun s =>
      let r := takeFrames [p] (b.frames.map fun f => (p, f)) (b.part + b.bits * n / 8)
      let back := s.queue.filter fun e => e.1 = p
      { s with queue := r.2.1 ++ back ++ s.queue.filter (fun e => e.1 != p)
               part := tset 0 s.part p (if r.2.1.isEmpty then 0 else r.2.2)
               sent := s.sent.filter (fun e => e.1 != p) ++ r.1 }

/-! ### Headers (R469) -/

/-- CRC-16 of the header's low 48 bits, in ascending order (R469). -/
def crc16 (v : Nat) : Nat :=
  (List.range 48).foldl (fun c i =>
    let fb := (c / 32768 + v / 2 ^ i) % 2
    (c * 2 % 65536) ^^^ (if fb = 1 then 0x1021 else 0)) 0xFFFF

/-- A header symbol's 64 bits. -/
def headerBits (rp dir len tseq useq : Nat) : Nat :=
  let v := rp + 16 * dir + 32 * len + 2 ^ 15 * tseq + 2 ^ 19 * useq
  v + 2 ^ 48 * crc16 v

/-- SEQ mod 16 of the table in use at ATC `t`: the new one from the first superframe that begins more than 19,200 Tc after
its mark (R483). -/
def Dev.seqInUse (d : Dev) (p t : Nat) : Nat :=
  match (d.pair p).swapAt with
  | some (_, old) => if d.oldInUse p t then old else (d.shadow 5 p).seq % 16
  | none => (d.shadow 5 p).seq % 16

/-! ### The standing mark (03 R101) -/

/-- The lowest key that a table does not list. -/
def lowestGap {α : Type} : Nat → Tab α → Nat
  | n, [] => n
  | n, (k, _) :: m => if k = n then lowestGap (n + 1) m else n

/-- A free Cadence entry, the lowest (log 7). -/
def Dev.freeCad (d : Dev) : Option Nat :=
  let i := lowestGap 0 d.air.cad
  if i < 8192 then some i else none

/-- A standing mark: one periodic HANDOVER entry without EXPECT (R101). -/
def Dev.addStanding (d : Dev) (i trigger target : Nat) : Dev :=
  d.updAir fun a =>
    { a with cad := tput a.cad i { trigger := trigger, period := frameTc, count := 0, action := 4, flags := 0
                                   target := target, arg := 0, standing := true } }

def Dev.delStanding (d : Dev) (i : Nat) : Dev := d.updAir fun a => { a with cad := tdel a.cad i }

/-- First superframe boundary of a spoke at or after ATC `t` (R457). -/
def CopSpoke.boundary (s : CopSpoke) (t : Nat) : Nat := upTo (t + s.lineAdv) frameTc - s.lineAdv

/-- The standing mark of an ACTIVE copper spoke names pair a (R482). -/
def Dev.copMark (c : Clock) (d : Dev) (n : Nat) : Dev :=
  match d.copper n, d.freeCad with
  | some s, some i =>
    if s.mark != 0xFFFF then d
    else (d.addStanding i (s.boundary (c.atc + 2)) (5 * 2 ^ 28 + pairIdx n 0)).updCopper n fun s => { s with mark := i }
  | _, _ => d

def Dev.copUnmark (d : Dev) (n : Nat) : Dev :=
  match d.copper n with
  | some s => if s.mark = 0xFFFF then d else (d.delStanding s.mark).updCopper n fun s => { s with mark := 0xFFFF }
  | none => d

/-! ### Bring-up (R486) -/

def PairLine.code : PairLine → Nat
  | .disabled => 0
  | .detect => 1
  | .probe => 2
  | .echo => 3
  | .load => 4
  | .active => 5
  | .wait => 6
  | .test => 7

def PairCh.enter (p : PairCh) (now : Nat) (st : PairLine) : PairCh := { p with st := st, since := now }

/-- What reception and bring-up hold of a pair begins anew. -/
def PairCh.fresh (p : PairCh) (now : Nat) (st : PairLine) : PairCh :=
  { p.enter now st with up := 0, rp := 0, reported := false, need := (0, 0), toArm := false, tx := none, dir := 0
                        cand := none, burst := none, lost := 0, synced := false, oldSeq := none, swapAt := none, join := none }

/-- Report COP_DOWN (R494). -/
def Dev.copDown (c : Clock) (d : Dev) (n reason fails : Nat) : Dev :=
  d.evtNote c 0x0981 0 (copBlock n) [(0, 1, n), (1, 1, reason), (2, 1, fails)]

/-- A pair's bring-up fails: a wait, as R402 gives for serial spokes (R486). -/
def Dev.copFail (c : Clock) (d : Dev) (p reason : Nat) : Dev :=
  let n := pairSpokeNo p
  match d.copper n with
  | none => d
  | some s =>
    let k := min (s.fails + 1) 255
    let d := d.updPair p fun q => { q.fresh c.atc .wait with waitEnd := c.atc + 19660800 * 2 ^ min k 7 }
    let d := d.updCopper n fun s => { s with fails := k, reason := reason }
    if s.fails = 15 then d.copDown c n reason 16 else d

/-- A pair starts, or starts again, at DETECT (R486). -/
def Dev.startPair (c : Clock) (d : Dev) (p : Nat) : Dev :=
  (d.updPair p fun q => q.fresh c.atc .detect).updCopper (pairSpokeNo p) fun s => { s with told := false }

/-- Report COP_UP: the pairs that are ACTIVE, and the downstream net rate (R494). -/
def Dev.copUp (c : Clock) (d : Dev) (n : Nat) : Dev :=
  match d.copper n with
  | none => d
  | some s =>
    let ps := (s.livePairs n).filter fun p => (d.pair p).st = .active
    let mask := ps.foldl (fun a p => a + 2 ^ (p % 4)) 0
    (d.updCopper n fun s => { s with active := true, fails := 0, reason := 0
                                     window := if s.active then s.window else !s.timed }).evt0 c 0x0980 0
      [(0, 1, n), (1, 1, mask), (4, 4, netRate (d.pairBits ps 0) / 1000000)]

/-- Form both tables from what is known of the radio points of `mask`, write SHADOW, and send them to each of these, with the
mask and the plan (R463, R482, R486). -/
def Dev.sendLoad (c : Clock) (d : Dev) (p mask : Nat) : Dev :=
  let n := pairSpokeNo p
  match d.copper n with
  | none => d
  | some s =>
    let q := d.pair p
    let t : LoadTab := { down := d.formTable s n (q.snrOver 0 mask), up := d.formTable s n (q.snrOver 1 mask) }
    let land := (d.shadow 5 p).landing c.atc
    let d := d.updCop fun x => { x with tables := tmod loadEmpty x.tables p (Inst.write c.atc land fun _ => t) }
    let d := d.updShadow 5 p fun y => y.touched c.atc false
    let d := d.updPair p fun q => { q with need := (mask, mask) }
    (ones 16 mask).foldl (fun d rp =>
      let d := ((d.sendMask p rp s).sendTable p rp 0).sendTable p rp 1
      if s.mode = 1 then d.sendPlan p rp else d) d

/-- A pair enters LOAD (R486). -/
def Dev.enterLoad (c : Clock) (d : Dev) (p : Nat) : Dev :=
  (d.updPair p fun q => q.enter c.atc .load).sendLoad c p ((d.pair p).up ||| 2 ^ (d.pair p).rp)

/-- A pair's tables are armed for the next mark (R482). -/
def Dev.armPair (c : Clock) (d : Dev) (p : Nat) : Dev := d.updShadow 5 p fun y => y.touched c.atc true

/-- LOAD completes. A pair of the mask runs its tables from now on; an added pair joins at a swap (R486, R490; log 81).
A full-duplex link is ACTIVE with the last pair, a segment by itself. -/
def Dev.loadDone (c : Clock) (d : Dev) (p : Nat) : Dev :=
  let n := pairSpokeNo p
  match d.copper n with
  | none => d
  | some s =>
    let d := d.updPair p fun q => { q.enter c.atc .active with up := q.up ||| 2 ^ q.rp, synced := true }
    let own := bit s.mask (p % 4)
    let d := if own then
        (d.updCop fun x => { x with tables := tmod loadEmpty x.tables p fun i => { i with act := i.latest } }).updShadow 5 p fun y =>
          { y with seq := (y.seq + 1) % 65536 }
      else d.armPair c p
    if !own then d
    else if s.mode = 0 && !((maskPairs n s.mask).all fun p => (d.pair p).st = .active) then d
    else (d.copMark c n).copUp c n

/-- DETECT_REPLY with a matching capability (R486): the pair goes to PROBE, or the radio point joins an ACTIVE segment. -/
def Dev.onDetectReply (c : Clock) (d : Dev) (p : Nat) (s : CopSpoke) (body : List Byte) : Dev :=
  let q := d.pair p
  let rp := if s.mode = 0 then 0 else fieldAt body 1 1
  if body.length < 11 || !bit (fieldAt body 10 1) s.mode || 16 ≤ rp || (s.mode = 1 && !bit q.rpMask rp) then d
  else if q.st = .detect then d.updPair p fun q => { q.enter c.atc .probe with rp := rp, reported := false }
  else if s.mode = 1 && q.st = .active && q.join.isNone && !bit q.up rp then
    d.updPair p fun q => { q with join := some (rp, false, c.atc), reported := false }
  else d

/-- PROBE_REPORT: the radio point's SNR, and what the device measures itself (R463, R486). -/
def Dev.onProbeReport (c : Clock) (d : Dev) (p : Nat) (s : CopSpoke) (body : List Byte) : Dev :=
  let q := d.pair p
  let probing := q.st = .probe || (q.join.any fun j => !j.2.1)
  if body.length < 4097 || !probing then d
  else
    let rp := if q.st = .probe then q.rp else (q.join.map (·.1)).getD 0
    let snr := (List.range 4096).map fun i => fieldAt body (1 + i) 1
    let up := measure d
    let nDown := measure up.2
    let nUp := measure nDown.2
    let d := nUp.2.updPair p fun q =>
      { q with reported := true
               snr := tput (tput q.snr rp (snr, nDown.1)) (16 + rp) (up.1, nUp.1) }
    if q.st = .probe then
      if s.mode = 0 then d.updPair p fun q => q.enter c.atc .echo else d.enterLoad c p
    else
      (d.updPair p fun q => { q with join := some (rp, true, c.atc) }).sendLoad c p (q.up ||| 2 ^ rp)

/-- Once no TABLE_ACK is awaited, LOAD completes; on an ACTIVE pair a radio point in LOAD joins, and the tables are armed (R482,
R486). -/
def Dev.tablesAcked (c : Clock) (d : Dev) (p : Nat) : Dev :=
  let q := d.pair p
  if q.need != (0, 0) then d
  else if q.st = .load then d.loadDone c p
  else
    let joins := match q.join with
      | some (rp, true, _) => 2 ^ rp
      | _ => 0
    if joins = 0 && !q.toArm then d
    else (d.updPair p fun q =>
      { q with up := q.up ||| joins, join := if joins = 0 then q.join else none, toArm := false }).armPair c p

/-- TABLE_ACK of a radio point for a direction (R482, R486). -/
def Dev.onTableAck (c : Clock) (d : Dev) (p rp : Nat) (body : List Byte) : Dev :=
  let dir := fieldAt body 1 1
  let q := d.pair p
  let off := fun (m : Nat) => if bit m rp then m - 2 ^ rp else m
  if body.length < 3 || 1 < dir || fieldAt body 2 1 != d.nextTabSeq p || q.need = (0, 0) then d
  else (d.updPair p fun q => { q with need := if dir = 0 then (off q.need.1, q.need.2) else (q.need.1, off q.need.2) }).tablesAcked c p

def execCopBringupTimeout (pair : Nat) : State → Out := onDev fun c d =>
  let q := d.pair pair
  let n := pairSpokeNo pair
  match d.copper n with
  | none => d
  | some s =>
    let past := fun (t : Nat) => q.since + t ≤ c.atc
    let left := fun (d : Dev) (rp st : Nat) =>
      if s.mode = 1 then d.evtNote c 0x0985 0 (copBlock n) [(0, 1, pair), (1, 1, rp), (2, 1, st)] else d
    match q.st with
    | .detect =>
      if s.told || !past 1966080000 then d
      else (d.updCopper n fun s => { s with told := true, reason := 1 }).copDown c n 1 s.fails
    | .probe => if past 393216000 then (left d q.rp 2).copFail c pair 2 else d
    | .echo => if past 983040000 then d.copFail c pair 3 else d
    | .load => if past 196608000 then (left d q.rp 4).copFail c pair 4 else d
    | .wait => if q.waitEnd ≤ c.atc then d.startPair c pair else d
    | .active =>
      match q.join with
      | some (rp, ld, t) =>
        if c.atc < t + (if ld then 196608000 else 393216000) then d
        else left (d.updPair pair fun q => { q with join := none }) rp (if ld then 4 else 2)
      | none => d
    | _ => d

/-! ### Reception (R477-R483) -/

/-- Reception of a pair ends at ATC `now`: a burst in progress is cut (R473, R481). -/
def PairCh.close (p : PairCh) (now : Nat) : PairCh :=
  { (if p.burst.any fun b => now < b.1 then p.count 2 1 else p) with cand := none, burst := none }

/-- A sync match is declared 9,600 samples after Q, its strength the mean power of the 8,192 samples: `power` is the sum of
their squares (R477-R480). -/
def execSyncMatch (pair q errs power : Nat) : State → Out := onDev fun c d =>
  match d.pairSpoke pair with
  | none => d
  | some s =>
    let p := d.pair pair
    let new : SyncCand := { q := q, errs := errs, strength := levelOf power 4 }
    if c.atc < q + 19200 || s.syncTol < errs || p.st = .disabled || p.st = .test then d
    else if s.mode = 0 then
      if (q + s.lineAdv) % frameTc != 0 then d else d.updPair pair fun p => { p with cand := some new }
    else if p.dir != 2 || q < p.openAt || p.burst.any (fun b => q + 19200 < b.1 || q + 19200 = (tget (0, 0) p.strength b.2.1).2 + 38400) then d
    else
    let d := d.breakGap 1 pair
    match p.cand with
      | none => d.updPair pair fun p => { p with cand := some new }
      | some o =>
        if q ≤ o.q + 2816 then
          if o.q < q && errs < o.errs then d.updPair pair fun p => { p with cand := some new } else d
        else if q + 19200 < o.q + 38400 then
          d.updPair pair fun p => { (p.count 1 1) with cand := some new }
        else d

/-- The upstream table that codes a payload is ACTIVE, or kept (R483). -/
def Dev.tseqOk (d : Dev) (p now tseq : Nat) : Bool :=
  tseq = d.seqInUse p now || tseq = (d.shadow 5 p).seq % 16 ||
  (d.pair p).oldSeq.any fun o => now < o.1 && tseq = o.2

/-- The header decision of a candidate (R478). -/
def execHeaderDecision (pair header : Nat) : State → Out := onDev fun c d =>
  match d.pairSpoke pair with
  | none => d
  | some s =>
    let p := d.pair pair
    match p.cand with
    | none => d
    | some o =>
      if c.atc < o.q + 38400 then d
      else
        let rp := bits header 0 4
        let len := bits header 5 10
        let bad := bits header 48 16 != crc16 (bits header 0 48) || bits header 4 1 != 1 || (s.mode = 1 && !bit p.rpMask rp)
        if bad then d.updPair pair fun p => { (p.count 1 1) with cand := none }
        else
          let use := p.st != .active || d.tseqOk pair c.atc (bits header 15 4)
          d.updPair pair fun p =>
            let p := if use then p else p.count 4 1
            let p := if s.mode = 1 && (p.plan.getD rp (0, 0)).2 < len then p.count 3 1 else p
            { p with cand := none, synced := true, burst := some (o.q + 38400 + 19200 * len, rp, use)
                     strength := tput p.strength rp (o.strength, o.q) }

/-- The last payload symbol ends, and search resumes (R478). -/
def execBurstEnd (pair : Nat) : State → Out := onDev fun c d =>
  d.updPair pair fun p => if p.burst.any fun b => b.1 ≤ c.atc then { p with burst := none } else p

/-- Steering on copper: the receive entry of a map that carries a PC_ID (R485). -/
def mapLook (l : List (Nat × MapEntry)) (pcid : Nat) : Option Nat :=
  (l.find? fun e => e.2.rx && e.2.pcid = pcid).map (·.2.stream)

/-- An eCPRI message of a link frame that radio point `rp` sent on pair `p` (R430, R466, R485). A copper spoke has no MAC port and no
host queue: messages of types 2, 4 and 6 end here, and a delay request is answered on the line, its stamp that of the sync symbol
before it (log 162). -/
def Dev.copMessage (c : Clock) (d : Dev) (p rp : Nat) (b : List Byte) : Dev :=
  let n := pairSpokeNo p
  let type := fieldAt b 1 1
  if b.length < 4 || b.length < 4 + fieldBe b 2 2 then d.countSp n 26 1
  else if fieldAt b 0 1 / 16 != 1 then d.countSp n 11 1
  else if type = 2 || type = 4 || type = 6 then d
  else if type = 5 then
    match tfind (d.pair p).strength rp with
    | some e =>
      if 1 < fieldAt b 5 1 then d
      else d.lineSend p (linkFrame 0 rp (delayMsg (fieldAt b 4 1) 2 (instantOfAtc (e.2 + 2816)) 0))
    | none => d
  else if type != 0 then d.countSp n 12 1
  else
    let old := (tfind d.cop.oldMap n).map fun o => (o.1, mapLook o.2)
    d.recvMessage c n ((b.drop 4).take (fieldBe b 2 2)) (mapLook (d.mapOf n).act) old

/-- A control message arrives (R468; 17 R508). -/
def Dev.copControl (c : Clock) (d : Dev) (p : Nat) (s : CopSpoke) (rp : Nat) (b : List Byte) : Dev :=
  match fieldAt b 0 1 with
  | 2 => d.onDetectReply c p s b
  | 3 => d.onProbeReport c p s b
  | 6 => d.onTableAck c p (if s.mode = 0 then 0 else rp) b
  | 8 =>
    match tfind (d.pair p).strength rp with
    | some e => if fieldAt b 1 1 = 2 && 20 ≤ b.length then d.sendTime p rp 3 (fieldBe b 2 2) e.2 else d
    | none => d
  | _ => d

/-- A link frame arrives: its CRC, then its type; payload under a table that does not match is discarded (R466, R483). -/
def execLinkFrameReceive (pair : Nat) (frame : List Byte) : State → Out := onDev fun c d =>
  let n := pairSpokeNo pair
  match d.copper n with
  | none => d
  | some s =>
    let p := d.pair pair
    let len := fieldBe frame 2 2
    let body := (frame.drop 8).take len
    if p.st = .disabled || p.st = .wait || p.st = .test || !d.awake (copBlock n) then d
    else if p.st = .active && !(p.burst.any fun b => b.2.2) then d
    else if frame.length != 12 + len || 16384 < len || fieldBe frame (8 + len) 4 != crc32 (frame.take (8 + len)) then
      (d.updPair pair fun p => p.count 0 1).updCopper n fun s =>
        { s with crcWin := c.atc :: s.crcWin.filter fun t => c.atc < t + 1966080000 }
    else match fieldAt frame 0 1 with
      | 0 => if s.active && p.st = .active then d.copMessage c pair (if s.mode = 0 then 0 else fieldAt frame 1 1) body else d
      | 1 => d.copControl c pair s (fieldAt frame 1 1) body
      | _ => d

/-! ### The line timeline (R457, R471, R473-R475, R486) -/

/-- The radio point polled next: the first of `mask` after the one polled last (R486). -/
def nextRp (mask last : Nat) : Option Nat := ((List.range 16).map fun i => (last + 1 + i) % 16).find? fun i => bit mask i

/-- What a superframe's start does to one pair; `echo` says that its residual echo meets R486's condition. -/
def Dev.framePair (c : Clock) (d : Dev) (s : CopSpoke) (start p : Nat) (echo : Bool) : Dev :=
  let q := d.pair p
  let d := d.updPair p fun q =>
    { q with swapAt := q.swapAt.filter fun m => start ≤ m.1 + 19200, oldSeq := q.oldSeq.filter fun o => c.atc < o.1 }
  let seq := d.seqInUse p start
  let d := if s.mode = 0 then
      d.updPair p fun q =>
        { q with lost := if q.st != .active || q.synced then 0 else q.lost + 1, synced := false, cand := none, burst := none
                 header := headerBits 0 0 (if q.st = .load || q.st = .active then 1022 else 510) seq seq }
    else d
  match q.st with
  | .detect =>
    if s.mode = 0 then d.sendDetect p 0
    else match nextRp q.rpMask q.rp with
      | some rp => (d.updPair p fun q => { q with rp := rp }).sendDetect p rp
      | none => d
  | .echo => if echo then d.enterLoad c p else d
  | .active =>
    if s.mode = 1 && q.join.isNone then
      match nextRp (q.rpMask &&& (65535 ^^^ q.up)) q.rp with
      | some rp => (d.updPair p fun q => { q with rp := rp }).sendDetect p rp
      | none => d
    else d
  | _ => d

/-- Superframe k of a spoke begins at ATC k x 19,660,800 - LINE_ADV: bring-up frames, headers, and in full-duplex mode
time and the waiting frames (R457, R471, R472, R486, R508). -/
def execLineSuperframe (spoke echo : Nat) : State → Out := onDev fun c d =>
  match d.copper spoke with
  | none => d
  | some s =>
    let k := (c.atc + s.lineAdv) / frameTc
    let start := k * frameTc - s.lineAdv
    if s.frame = k + 1 || s.resting then d
    else
      let d := d.updCopper spoke fun s => { s with frame := k + 1, sent := [] }
      let d := (s.livePairs spoke).foldl (fun d p => d.framePair c s start p (bit echo (p % 4))) d
      let bonded := (maskPairs spoke s.mask).filter fun p => s.mode = 0 && s.active && (d.pair p).st = .active
      let alone := (s.livePairs spoke).filter fun p => !bonded.contains p && (s.mode = 0 || (d.pair p).st != .active)
      let d := alone.foldl (fun d p =>
        let st := (d.pair p).st
        let b := if st = .active then d.lineBits [p] start else d.bringupBits s spoke
        d.pump spoke [p] ((b - 16) * (if s.mode = 0 && (st = .load || st = .active) then 1022 else 510) / 8)) d
      if bonded.isEmpty then d
      else
        let d := (d.sendTime (bonded.headD 0) 0 1 s.timeSeq start).updCopper spoke fun s => { s with timeSeq := (s.timeSeq + 1) % 65536 }
        d.pump spoke bonded ((d.lineBits bonded start - 16) * 1022 / 8)

/-- LEN of a downstream burst that starts at `start`: whole symbols after the header that end by the next pending window
entry of the pair that closes or turns it (R475). -/
def Dev.burstLen (d : Dev) (now n x start : Nat) : Nat :=
  let ends := d.air.cad.filterMap fun e =>
    if e.2.action = 8 && e.2.target % 256 = n && bit e.2.target (8 + x) && (e.2.arg % 8 = 0 || e.2.arg % 8 = 3) &&
        now ≤ e.2.trigger then some e.2.trigger else none
  match sortBy (fun a b => a ≤ b) ends with
  | t :: _ => min 1023 ((t - (start + 4 * 19200)) / 19200)
  | [] => 1023

/-- A downstream burst begins at the first line-symbol boundary: its header, time, and the frames that wait (R473-R475,
R508). -/
def Dev.startBurst (c : Clock) (d : Dev) (n p : Nat) (s : CopSpoke) : Dev :=
  let d := d.breakGap 1 p
  let start := upTo (c.atc + s.lineAdv) 19200 - s.lineAdv
  let d := d.cutBurst p c.atc
  let len := d.burstLen c.atc n (p % 4) start
  let seq := d.seqInUse p start
  let d := (d.updPair p fun q => { q.close c.atc with dir := 1, header := headerBits 0 0 len seq seq })
  let q := d.pair p
  let d := if q.st = .active then
      ((ones 16 q.up).foldl (fun d rp => d.sendTime p rp 1 s.timeSeq (start + 2 * 19200)) d).updCopper n fun s =>
        { s with timeSeq := (s.timeSeq + 1) % 65536 }
    else d
  let b := (if q.st = .active then d.lineBits [p] start else d.bringupBits s n) - 16
  match d.copper n with
  | none => d
  | some s =>
    let part := tget 0 s.part p
    let frames := ((takeFrames [p] s.queue (part + b * len / 8)).1).map (·.2)
    let head := (s.queue.filter fun e => e.1 = p).map (·.2)
    let d := d.updPair p fun q =>
      { q with tx := some { first := start + 4 * 19200, len := len, bits := b, part := part, frames := head.take frames.length } }
    d.pump n [p] (b * len / 8)

/-- A SPOKE_WINDOW action on a copper spoke (R473). -/
def Dev.copWindow (c : Clock) (d : Dev) (n mask arg : Nat) : Dev :=
  match d.copper n with
  | none => d
  | some s =>
    let ps := maskPairs n (mask &&& s.liveMask)
    if s.mode = 0 then
      if arg = 0 then d.updCopper n fun s => { s with window := false }
      else if arg = 1 then d.updCopper n fun s => { s with window := s.active }
      else ps.foldl (fun d p => d.updPair p fun q => q.count 5 1) d
    else ps.foldl (fun d p =>
      if (d.pair p).st = .disabled || (d.pair p).st = .test then d
      else if arg = 2 then d.startBurst c n p s
      else if arg = 3 then
        (d.cutBurst p c.atc).updPair p fun q => if q.dir = 2 then q else { q with dir := 2, openAt := c.atc, cand := none, burst := none }
      else if arg = 0 then (d.cutBurst p c.atc).updPair p fun q => { q.close c.atc with dir := 0 }
      else d.updPair p fun q => q.count 5 1) d

/-! ### Bit swap (R482, R483) -/

/-- The copy of a pair's tables at a mark: COP_SWAPPED for each direction. The replaced upstream table is kept until one superframe
after the new one applies, when the radio point has switched (R483; DEDUCED log 81). -/
def Dev.copyCop (c : Clock) (d : Dev) (p : Nat) : Dev :=
  let old := d.tabInUse p c.atc
  let seq := (d.shadow 5 p).seq
  let d := d.updCop fun x => { x with tables := tmod loadEmpty x.tables p (Inst.copy c.atc) }
  let from_ := ((d.copper (pairSpokeNo p)).elim 0 fun s => s.boundary (c.atc + 19201))
  let d := d.updPair p fun q =>
    { q with oldTab := old, swapAt := some (c.atc, (seq + 65535) % 16), oldSeq := some (from_ + frameTc, (seq + 65535) % 16) }
  [0, 1].foldl (fun d dir => d.evt0 c 0x0983 0 [(0, 1, p), (1, 1, dir), (2, 2, seq)]) d

/-- A SHADOW table is written, sent to each radio point, and armed at once, or with the last TABLE_ACK (R482). -/
def Dev.writeTable (c : Clock) (d : Dev) (p dir : Nat) (t : List Nat) (force : Bool) : Dev :=
  let land := (d.shadow 5 p).landing c.atc
  let d := d.updCop fun x => { x with tables := tmod loadEmpty x.tables p (Inst.write c.atc land fun y => y.setDir dir t) }
  let up := (d.pair p).up
  let d := (ones 16 up).foldl (fun d rp => d.sendTable p rp dir) (d.updShadow 5 p fun y => y.touched c.atc false)
  if force || up = 0 then d.armPair c p
  else d.updPair p fun q => { q with toArm := true, need := if dir = 0 then (up, q.need.2) else (q.need.1, up) }

/-- A sub-carrier's margin has stayed below MIN_MARGIN for 8 superframes: Breano measures and writes a new table (R482). -/
def execAutoSwap (pair : Nat) (up : Bool) : State → Out := onDev fun c d =>
  let n := pairSpokeNo pair
  match d.copper n with
  | none => d
  | some s =>
    if !s.autoSwap || !s.active || d.breanoAway || (d.pair pair).st != .active then d
    else
      let dir := up.toNat
      let d := (ones 16 (d.pair pair).up).foldl (fun d rp =>
        let v := measure d
        v.2.updPair pair fun q => { q with snr := tput q.snr (16 * dir + rp) (v.1, (tget ([], []) q.snr (16 * dir + rp)).2) }) d
      let q := d.pair pair
      d.writeTable c pair dir (d.formTable s n (q.snrOver dir q.up)) false

def execCopLoadWrite (r : Req) (pair dir force : Nat) (table : List Nat) : State → Out :=
  onDev <| serve 0x0906 r fun x d =>
    if 64 ≤ pair then (rBad 0, d)
    else if 1 < dir then (rBad 1, d)
    else if 1 < force then (rBad 2, d)
    else if table.length != 4096 then (rBad 3, d)
    else match d.pairSpoke pair with
      | none => (rSt stBADSTATE, d)
      | some s =>
        if s.autoSwap then (rSt stBADSTATE, d)
        else match d.tableFault (pairSpokeNo pair) table with
          | some i => (rBad (3 + 2 * i), d)
          | none => (rOk, d.writeTable x.clk pair dir table (force = 1))

def execCopLoadRead (r : Req) (pair dir set : Nat) : State → Out := onDev <| serve 0x0907 r <| noFx fun x d =>
  if 64 ≤ pair then rBad 0
  else if 1 < dir then rBad 1
  else if 1 < set then rBad 2
  else
    let t := (if set = 0 then (d.loadOf pair).act else (d.loadOf pair).shNow x.clk.atc).dir dir
    { status := stOK, payload := le 2 (d.shadow 5 pair).seq ++
        (if d.isRef r then (List.range 4096).flatMap fun i => le 2 (t.getD i 0) else []) }

/-! ### Configuration, enable, status (R456, R484, R493) -/

def copBad (n : Nat) : Bool := n < 128 || 144 ≤ n

/-- The blob's entry for a pair channel is valid and says that the pair is there (R631, R632). -/
def Dev.pairFitted (d : Dev) (p : Nat) : Bool :=
  let e := (d.pkg.blob.drop (6976 + 8 * p)).take 8
  fieldAt e 0 1 = p && bit (fieldAt e 1 1) 0 && fieldAt e 1 1 < 8 && fieldAt e 2 6 = 0 && e.length = 8

def execCopConfig (r : Req) (spoke mode mask lineAdv timed margin minMargin autoSwap syncWord syncTol syncBase syncStep ramp
    crcLimit : Nat) : State → Out :=
  onDev <| serve 0x0901 r fun _ d =>
    if copBad spoke then (rBad 0, d)
    else if 1 < mode then (rBad 1, d)
    else if mask = 0 || 16 ≤ mask || ((maskPairs spoke mask).any fun p => (d.pair p).retired || !d.pairFitted p) then (rBad 2, d)
    else if 983040 < lineAdv || lineAdv % 2 = 1 then (rBad 3, d)
    else if 1 < timed then (rBad 7, d)
    else if 1 < autoSwap then (rBad 12, d)
    else if 12 < syncTol then (rBad 21, d)
    else if !placementOk (d.copMask spoke) syncBase syncStep then (rBad 22, d)
    else if ramp < 8 || 256 < ramp then (rBad 26, d)
    else if (d.copper spoke).any fun s => !s.resting then (rSt stBUSY, d)
    else
      let s : CopSpoke :=
        { mode := mode, mask := mask, lineAdv := lineAdv, timed := timed = 1, margin := margin, minMargin := minMargin
          autoSwap := autoSwap = 1, syncWord := syncWord, syncTol := syncTol, syncBase := syncBase, syncStep := syncStep
          ramp := ramp, crcLimit := crcLimit }
      let d := if (d.copper spoke).isSome then d else
          (d.updSpk fun x => { x with maps := tdel x.maps spoke, mapMarks := tdel x.mapMarks spoke }).updShadow 4 spoke fun _ => {}
      (rOk, d.updCop fun x => { x with spokes := tput x.spokes spoke s })

def execCopEnable (r : Req) (spoke : Nat) : State → Out := onDev <| serve 0x0902 r fun x d =>
  if copBad spoke then (rBad 0, d)
  else match d.copper spoke with
    | none => (rSt stBADSTATE, d)
    | some s =>
      if s.dis.isEnding then (rSt stBADSTATE, d)
      else if !s.resting then (rOk, d.updCopper spoke fun s => { s with fails := 0 })
      else
        let d := d.updCopper spoke fun s => { s with dis := .on, fails := 0, reason := 0 }
        (rOk, ((maskPairs spoke s.mask).filter fun p => !(d.pair p).retired).foldl (fun d p => d.startPair x.clk p) d)

/-- Mean margin of a direction, 0.1 dB: what the receiver measures is free (log 8). -/
def execCopStatus (r : Req) (spoke : Nat) : State → Out := onDev <| serve 0x0904 r fun _ d =>
  if copBad spoke then (rBad 0, d)
  else
    let ps := (List.range 4).map fun x => pairIdx spoke x
    let sts := ps.map fun p => (1, (d.pair p).st.code)
    let seqs := ps.flatMap fun p => [(2, (d.shadow 5 p).seq), (2, (d.shadow 5 p).seq)]
    match d.copper spoke with
    | none => (rOk (sts ++ [(1, 0), (1, 0), (8, 0), (4, 0)] ++ seqs), d)
    | some s =>
      let live := (maskPairs spoke s.mask).filter fun p => (d.pair p).st = .active
      let a := draw d
      let b := draw a.2
      let rate := fun dir => netRate (d.pairBits live dir) / 1000
      (rOk (sts ++ [(1, s.reason), (1, s.fails), (4, rate 0), (4, rate 1), (2, a.1), (2, b.1)] ++ seqs), b.2)

def execCopGetLatency (r : Req) (spoke : Nat) : State → Out := onDev <| serve 0x090B r <| noFx fun _ _ =>
  if copBad spoke then rBad 0 else rOk [(8, 38912 * 65536), (8, 39936 * 65536)]

/-- With CLEAR the answer and the clear are of the counters as the cycle began: what lands in the cycle counts after it (R493). -/
def execCopGetStats (r : Req) (pair rp clear : Nat) : State → Out := onDev <| serve 0x090C r fun _ d =>
  if 64 ≤ pair then (rBad 0, d)
  else if 16 ≤ rp then (rBad 1, d)
  else if 1 < clear then (rBad 2, d)
  else
    let q := d.pair pair
    let e := tget (0, 0) q.strength rp
    let was := fun i => if clear = 0 then tget 0 q.stats i else tget 0 (tget [] d.cyc.cop pair) i
    (rOk (((List.range 7).map fun i => (8, was i)) ++ [(2, uns 16 e.1), (8, e.2)]),
     if clear = 0 then d
     else { d.updPair pair fun q =>
              { q with stats := (List.range 7).foldl (fun t i => tset 0 t i (tget 0 q.stats i - was i)) [] } with
            cyc := { d.cyc with cop := tdel d.cyc.cop pair } })

def execCopSnrRead (r : Req) (pair dir rp : Nat) : State → Out := onDev <| serve 0x0908 r <| noFx fun _ d =>
  if 64 ≤ pair then rBad 0
  else if 1 < dir then rBad 1
  else if 16 ≤ rp then rBad 2
  else if (d.pair pair).st != .active then rSt stBADSTATE
  else
    let v := tget ([], []) (d.pair pair).snr (16 * dir + rp)
    { status := stOK, payload := (List.range 4096).flatMap fun i => le 2 (v.1.getD i 0) ++ le 2 (v.2.getD i 0) }

/-- Two windows of a plan overlap: a burst takes 4 + LEN symbols (R474, R476). -/
def planOverlap (l : List (Nat × Nat)) : Bool :=
  (List.range l.length).any fun i => (List.range l.length).any fun j =>
    let a := l.getD i (0, 0)
    let b := l.getD j (0, 0)
    i < j && a.1 < b.1 + 4 + b.2 && b.1 < a.1 + 4 + a.2

def execCopBurstSet (r : Req) (pair rpMask : Nat) (plan : List Nat) (down up : Nat) : State → Out :=
  onDev <| serve 0x0909 r fun x d =>
    let rps := ones 16 rpMask
    let l := plan.map fun w => (w % 65536, w / 65536)
    if 64 ≤ pair then (rBad 0, d)
    else if plan.length != rps.length then (rBad 3, d)
    else match l.findIdx? fun e => 1023 < e.2 with
      | some i => (rBad (5 + 4 * i), d)
      | none =>
        if planOverlap l then (rBad 3, d)
        else match d.pairSpoke pair with
          | none => (rSt stBADSTATE, d)
          | some s =>
            if s.mode = 0 then (rSt stBADSTATE, d)
            else
              let full := (List.range rps.length).foldl (fun (p : List (Nat × Nat)) i => p.set (rps.getD i 0) (l.getD i (0, 0)))
                (List.replicate 16 (0, 0))
              let d := d.updPair pair fun q => { q with rpMask := rpMask, plan := full, share := (down, up), up := q.up &&& rpMask }
              if (d.pair pair).st = .active then
                let d := d.updPair pair fun q =>
                  { q with need := (q.need.1 &&& rpMask, q.need.2 &&& rpMask), join := q.join.filter fun j => bit rpMask j.1 }
                (rOk, ((ones 16 (d.pair pair).up).foldl (fun d rp => d.sendPlan pair rp) d).tablesAcked x.clk pair)
              else (rOk, d)

/-! ### Streams on copper (R484, R485, R489) -/

/-- The load of a map fits a set of pairs: the bonded link, or each segment with its share of air time (R410, R484). -/
def Dev.copFits (d : Dev) (n mask : Nat) (s : CopSpoke) (l : List (Nat × MapEntry)) : Bool :=
  if s.mode = 0 then d.mapLoad n l * 100 ≤ netRate (d.pairBits (maskPairs n mask) 0) * 95
  else (List.range 4).all fun x =>
    let own := l.filter fun e => bits e.2.pcid 10 2 = x
    let p := pairIdx n x
    d.mapLoad n own * 100 * 65536 ≤ (if bit mask x then netRate (d.pairBits [p] 0) * (d.pair p).share.1 * 95 else 0)

/-- SPK_MAP_WRITE of a copper spoke (R484). -/
def Dev.copperMap (x : Ctx) (d : Dev) (spoke first count : Nat) (entries : List Nat) : Reply × Dev :=
  match d.copper spoke with
  | none => (rSt stBADSTATE, d)
  | some s =>
    let es := entries.map MapEntry.of
    match es.findIdx? fun e => s.mode = 1 && e.tx && !bit s.mask (bits e.pcid 10 2) with
    | some i => (rBad (3 + 4 * i), d)
    | none => d.mapWrite x.clk spoke first count entries 3 (d.copFits spoke s.mask s)

/-- A finished symbol goes to a copper spoke whose map names its stream: cut into messages of at most 2,048 samples, since
a copper spoke has no SEG (log 83). Messages are discarded while the line or its window is closed, and refused from T_D on
(R473, R489). -/
def Dev.toCopper (c : Clock) (d : Dev) (n stream : Nat) (y : Stream) (e : MapEntry) (q : TxSym) : Dev :=
  match d.copper n with
  | none => d
  | some s =>
    let p := if s.mode = 1 then pairIdx n (bits e.pcid 10 2) else (maskPairs n s.mask).headD (pairIdx n 0)
    let rp := if s.mode = 1 then e.pcid / 4096 % 16 else 0
    let r := d.symbolMessages n stream y e 2048 q
    r.1.foldl (fun d m =>
      if s.dis.isEnding || s.dis = .disabled then d.updPair p fun q => q.count 6 1
      else if !d.awake (copBlock n) then (d.updPair p fun q => q.count 6 1).logDrop c (copBlock n) 0 0 1
      else if !s.active || (d.pair p).st != .active || (s.mode = 0 && !s.window) then d
      else d.lineSend p (linkFrame 0 rp (ecpri 0 m.1))) r.2

/-- The copy of a copper spoke's map: the map replaced is kept to steer with (R485). -/
def Dev.copySpokeMap (c : Clock) (d : Dev) (n : Nat) : Dev :=
  let old := (d.mapOf n).act
  let d := d.copyMap c n
  if n < 128 then d else d.updCop fun x => { x with oldMap := tput x.oldMap n (c.atc, old) }

/-! ### Faults and self-tests (R472, R487, R488) -/

/-- Traffic of a spoke stops as by ABORT. -/
def Dev.copStop (d : Dev) (n : Nat) : Dev :=
  let d := if (d.copper n).any (·.active) then d.trouble (copBlock n) trbLINK else d
  (d.copUnmark n).updCopper n fun s => { s with active := false, window := false, queue := [], crcWin := [], change := none }

/-- An ACTIVE spoke leaves ACTIVE: sync lost on a pair (0), too many CRC failures (1), a mean margin below 0 dB for 1 s (2),
or every radio point of a segment down (3) (R472, R487). -/
def execCopDown (spoke kind pair : Nat) : State → Out := onDev fun c d =>
  match d.copper spoke with
  | none => d
  | some s =>
    let ps := maskPairs spoke s.mask
    let ok := if kind = 0 then s.mode = 0 && ps.any fun p => 3 ≤ (d.pair p).lost
      else if kind = 1 then s.crcLimit < (s.crcWin.filter fun t => c.atc < t + 1966080000).length
      else if kind = 2 then true
      else s.mode = 1 && bit s.mask pair && (d.pair (pairIdx spoke pair)).st = .active
    if !s.active || !ok then d
    else
      let reason := if kind = 0 then 5 else if kind = 1 then 6 else if kind = 2 then 7 else 1
      let hit := if kind = 3 then [pairIdx spoke pair] else ps
      let rest := ps.any fun p => !hit.contains p && (d.pair p).st = .active
      let d := if rest then d else ((s.livePairs spoke).filter fun p => !ps.contains p).foldl (fun d p =>
        d.updPair p fun q => q.fresh c.atc .disabled) d
      let d := d.trouble (copBlock spoke) trbLINK
      let d := if rest then d.updCopper spoke fun s => { s with queue := s.queue.filter fun e => !hit.contains e.1 } else d.copStop spoke
      let d := (d.updCopper spoke fun s => { s with reason := reason }).copDown c spoke reason s.fails
      hit.foldl (fun d p => d.updPair p fun q => { q.fresh c.atc .test with test := (c.atc + 1, none) }) d

/-- Kind of a pair channel in the transient history (R383; log 31). -/
def kindPair : Nat := 5

/-- A pair's self-test completes after 10 ms and classifies the fault (R488). -/
def execPairSelftestDone (pair : Nat) (pass : Bool) : State → Out := onDev fun c d =>
  let q := d.pair pair
  let n := pairSpokeNo pair
  if q.test.1 = 0 || c.atc + 1 < q.test.1 + 19660800 then d
  else
    let l := recentTransients c.atc kindPair pair d.mem.transients
    let lasting := !pass || (q.test.2.isNone && fourth kindPair pair l)
    let d := d.updPair pair fun q => { q with test := (0, none), retired := q.retired || lasting }
    let blk := copBlock n
    let d := if lasting then (d.trouble blk trbLASTING).evtLog c 0 0 0x0984 (q.test.2.getD 0) blk trbRETIRED [(0, 1, pair)]
      else if q.test.2.isSome then d
      else (d.updMem fun m => { m with transients := l }).trouble blk trbTRANSIENT
    match d.copper n with
    | none => d
    | some s =>
      if lasting then
        let d := d.updPair pair fun q => q.fresh c.atc .disabled
        let left := s.mask % 16 - (if bit s.mask (pair % 4) then 2 ^ (pair % 4) else 0)
        let d := d.updCopper n fun s =>
          { s with reason := if s.resting then s.reason else 8, mask := if s.mode = 0 && left != 0 then left else s.mask }
        let run := (maskPairs n left).filter fun p => (d.pair p).st = .active
        if !s.active || !bit s.mask (pair % 4) || (s.mode = 1 && !run.isEmpty) then d
        else run.foldl (fun d p => d.startPair c p) (d.copStop n)
      else if q.st = .test then
        d.updPair pair fun q => { q.enter c.atc .wait with waitEnd := c.atc + 19660800 * 2 ^ min s.fails 7 }
      else d

def execCopSelftest (r : Req) (pair : Nat) : State → Out := onDev <| serve 0x090D r fun x d =>
  if 64 ≤ pair then (rBad 0, d)
  else if d.devmode.mode != .linetest && (d.pairSpoke pair).any fun s => !s.resting then (rSt stBADSTATE, d)
  else (rAcc, d.updPair pair fun q => { q with test := (x.clk.atc + 1, some x.tag) })

/-! ### Disable, pair changes, sleep, qualification (R489-R492) -/

/-- A spoke with a pending disable and nothing left to send rests, and COP_DISABLED is posted (R489). -/
def Dev.copFinish (c : Clock) (d : Dev) (n : Nat) : Dev :=
  match d.copper n with
  | none => d
  | some s =>
    match s.dis with
    | .ending abort _ tag =>
      if s.active && !abort && !s.queue.isEmpty then d
      else
        let d := (d.copStop n).updCopper n fun s => { s with dis := .disabled }
        let d := (s.livePairs n).foldl (fun d p => d.updPair p fun q => { q.fresh c.atc .disabled with test := (0, none) }) d
        d.evt0 c 0x0982 tag [(0, 1, n), (1, 1, abort.toNat)]
    | _ => d

def execCopDisabled (spoke : Nat) : State → Out := onDev fun c d => d.copFinish c spoke

def execCopDisable (r : Req) (spoke mode : Nat) : State → Out := onDev <| serve 0x0903 r fun x d =>
  if copBad spoke then (rBad 0, d)
  else if 1 < mode then (rBad 1, d)
  else match d.copper spoke with
    | none => (rBad 0, d)
    | some s =>
      if s.dis.isEnding then (rSt stBUSY, d)
      else (rAcc [(8, x.clk.atc)], d.updCopper spoke fun s =>
        { s with dis := .ending (mode = 1) x.clk.atc x.tag, queue := if mode = 1 then [] else s.queue })

/-- COP_PAIRS_SET (R490). A spoke that is not ACTIVE is no spoke that it can name: the manual gives the command no BADSTATE (DESIGN
CHOICE, log 149). -/
def execCopPairsSet (r : Req) (spoke mask : Nat) : State → Out := onDev <| serve 0x090A r fun x d =>
  if copBad spoke then (rBad 0, d)
  else match d.copper spoke with
    | none => (rBad 0, d)
    | some s =>
      if !s.active || s.dis.isEnding then (rBad 0, d)
      else
      let added := (ones 4 mask).filter fun i => !bit s.mask i
      let removed := (ones 4 s.mask).filter fun i => !bit mask i
      if mask = 0 || 16 ≤ mask || added.any fun i => (d.pair (pairIdx spoke i)).retired || !d.pairFitted (pairIdx spoke i) then (rBad 1, d)
      else if s.change.isSome then (rSt stBUSY, d)
      else if !removed.isEmpty && !d.copFits spoke (mask &&& s.mask) s (d.mapOf spoke).act then (rSt stOVERLOAD, d)
      else
        let d := d.updCopper spoke fun s => { s with change := some (mask, x.tag) }
        let d := added.foldl (fun d i => d.startPair x.clk (pairIdx spoke i)) d
        (rAcc, removed.foldl (fun d i =>
          [0, 1].foldl (fun d dir => d.writeTable x.clk (pairIdx spoke i) dir [] false) d) d)

/-- What waits on pairs that leave the mask: a bonded link carries it on over the pairs that stay, a segment's frames go with it
(R465, R490). -/
def CopSpoke.regroup (s : CopSpoke) (n mask : Nat) : CopSpoke :=
  let stays := fun (p : Nat) => bit mask (p % 4)
  if s.mode = 1 then { s with queue := s.queue.filter fun e => stays e.1, part := s.part.filter fun e => stays e.1 }
  else
    let lead := (maskPairs n mask).headD 0
    { s with queue := s.queue.map fun e => (if stays e.1 then e.1 else lead, e.2)
             part := tset 0 [] lead (tget 0 s.part ((maskPairs n s.mask).headD 0)) }

/-- The change is complete once every added pair is ACTIVE with its tables and every removed pair's tables are zero
(R490). -/
def execCopPairsDone (spoke : Nat) : State → Out := onDev fun c d =>
  match d.copper spoke with
  | none => d
  | some s =>
    match s.change with
    | none => d
    | some (mask, tag) =>
      let bitsOf := fun i => d.pairBits [pairIdx spoke i] 0
      let ok := (ones 4 mask).all (fun i => (d.pair (pairIdx spoke i)).st = .active && (bit s.mask i || bitsOf i != 0)) &&
        (ones 4 s.mask).all fun i => bit mask i || bitsOf i = 0
      if !ok then d
      else
        let gone := (ones 4 s.mask).filter fun i => !bit mask i
        let d := gone.foldl (fun d i => d.updPair (pairIdx spoke i) fun q => q.fresh c.atc .disabled) d
        (d.updCopper spoke fun s => { s.regroup spoke mask with mask := mask, change := none }).evt0 c 0x0986 tag [(0, 1, spoke), (1, 1, mask)]

/-- After Park of D24 or D25 each spoke restarts at DETECT (R491). -/
def Dev.retrainCopper (c : Clock) (d : Dev) (dom : Nat) : Dev :=
  d.cop.spokes.foldl (fun d e =>
    if copBlock e.1 != dom || e.2.resting then d
    else (e.2.livePairs e.1).foldl (fun d p =>
      if bit e.2.mask (p % 4) && !(d.pair p).retired then d.startPair c p else d.updPair p fun q => q.fresh c.atc .disabled)
      (d.copStop e.1)) d

def execCopQualify (r : Req) (pair margin : Nat) : State → Out := onDev <| serve 0x090E r fun x d =>
  let w := d.host.waiting.find? fun w => w.page = r.page && w.slot = r.slot
  let buf := (w.map fun w => (w.respAddr, w.respLen)).getD (0, 0)
  if 64 ≤ pair then (rBad 0, d)
  else if !d.isRef r then (rBad 0x80000006, d)
  else if buf.2 < 16384 then ({ status := stBADARG, detail := 24, payload := le 4 16384 }, d)
  else if d.devmode.mode != .linetest then (rSt stBADSTATE, d)
  else (rAcc, d.updPair pair fun q => { q with qualify := some (x.tag, margin, buf.1, buf.2) })

/-- Qualification completes: SNR and noise go to the buffer, and the attainable rate to the event (R492). What the line
gives is free. -/
def execCopQualifyDone (pair : Nat) (noPeer : Bool) : State → Out := onDev fun c d =>
  let n := pairSpokeNo pair
  match (d.pair pair).qualify with
  | none => d
  | some (tag, margin, addr, _) =>
    let d := d.updPair pair fun q => { q with qualify := none }
    if noPeer then d.evt0 c 0x0987 tag [(0, 1, pair), (1, 1, 1)]
    else
      let a := measure d
      let b := measure a.2
      let base := match d.copper n with
        | some s => (s.syncBase, s.syncStep)
        | none => (32, 62)
      let m := d.copMask n
      let set := syncSet base.1 base.2
      let sum := (List.range 4096).foldl (fun t i =>
        if usable i && !m.blocked i && !set.contains i then t + loadBits (a.1.getD i 0) margin else t) 0
      let bytes := (List.range 4096).flatMap fun i => le 2 (a.1.getD i 0) ++ le 2 (b.1.getD i 0)
      (b.2.updHost fun h => h.store 0 addr bytes).evt0 c 0x0987 tag
        [(0, 1, pair), (1, 1, 0), (4, 4, netRate sum / 1000000)]

end Sys2Proof.Machine
end

