-- ==== Sys2Proof/Machine/Domains.lean ====
section
/-! DEFINITION. Power domains (chapter 21): depths, wake events, sleep groups and level changes, as Cadence and the mode
changes use them. -/
namespace Sys2Proof.Machine

/-- A core of cluster `n` has a running or saddled thread (R591). -/
def Dev.clusterBusy (d : Dev) (n : Nat) : Bool :=
  d.cores.core.any fun e => e.1 / 64 = n && (e.2.thread.isSome || e.2.saddle != .empty)

/-- An engine of domain `n` has a job started and not ended (R591). -/
def Dev.enginesBusy (d : Dev) (n : Nat) : Bool := d.eng.engines.any fun e => engDomain e.1 = n && e.2.job.isSome

/-- A spoke or tandem link of domain `n` is not DISABLED (R591). -/
def Dev.linksUp (d : Dev) (n : Nat) : Bool :=
  if n = 24 || n = 25 then d.cop.spokes.any fun e => copBlock e.1 = n && !e.2.resting
  else d.spk.spokes.any fun e => spkBlock e.1 = n && e.2.st != .disabled

/-- Depths a domain allows by R582, outside the DORMANT entry. -/
def depthAllowed (n depth : Nat) : Bool :=
  if n = 28 || n = 29 then depth = 2 || depth = 3
  else if n = 30 then depth = 3
  else 1 ≤ depth && depth ≤ 3

/-- The depth domain `n` takes in group `g`: the DORMANT entry Parks D0-D27 and D31 and Coasts D28-D29 (R597). -/
def SleepGroup.depthOf (g : SleepGroup) (n : Nat) : Nat :=
  if g.dormant then (if n = 28 || n = 29 then 2 else 3) else g.depth

/-- Begin the wake of a sleeping domain. -/
def Dev.beginWake (c : Clock) (d : Dev) (n cause tag : Nat) : Dev :=
  if (d.dom n).st = .asleep && !d.power.down.contains n then
    d.updDom n fun x => { x with st := .waking, wakeAt := c.atc, wakeCause := cause, wakeTag := tag }
  else d

/-- A wake event for domain `n`: latched while its group is in progress (R594), else the domain begins to wake. -/
def Dev.wakeEvent (c : Clock) (d : Dev) (n cause tag : Nat) : Dev :=
  match d.power.group with
  | some g =>
    if bit g.mask n then
      d.updPower fun p => { p with group := some { g with latched := g.latched ++ [(n, cause, tag)] } }
    else d.beginWake c n cause tag
  | none => d.beginWake c n cause tag

/-- The reason for which domain `n` refuses depth `dep`, the first of R591 that applies. -/
def Dev.refusal (d : Dev) (g : SleepGroup) (n : Nat) : Option Nat :=
  let dep := g.depthOf n
  if n < 16 && d.clusterBusy n then some 1
  else if 16 ≤ n && n < 20 && d.enginesBusy n then some 2
  else if (n < 16 || n = 26) && d.moversBusy n then some 3
  else if 20 ≤ n && n < 27 && dep = 3 && d.linksUp n then some 4
  else if n = 27 && d.mapsNameStream then some 5
  else if (n = 28 || n = 29) && !g.dormant then some 6
  else if n = 30 && (!(d.mgmt.pairB = .retired) || dep != 3) then some 6
  else if !depthAllowed n dep then some 7
  else none

/-- The order in which a group enters: ascending (R590); the DORMANT entry takes D28 and D29 last (R597). -/
def SleepGroup.order (g : SleepGroup) : List Nat :=
  if g.dormant then List.range 28 ++ [31, 28, 29] else ones 32 g.mask

/-- Ask the next domain of the group (R590). -/
def SleepGroup.askNext (now : Nat) (g : SleepGroup) : SleepGroup :=
  match g.order.find? fun n => !g.stopped.contains n with
  | some n => { g with asking := some (n, false), askedAt := now }
  | none => { g with asking := none }

/-- Accept a sleep group: the first domain is asked (R590). -/
def Dev.startGroup (c : Clock) (d : Dev) (g : SleepGroup) : Dev :=
  d.updPower fun p => { p with group := some (g.askNext c.atc) }

/-- The group of the DORMANT entry (R597); D30 joins it in Park only while pair B is retired (R561). -/
def Dev.dormantEntry (c : Clock) (d : Dev) (tag : Nat) : Dev :=
  if d.power.group.isSome then d
  else d.startGroup c { mask := 0xBFFFFFFF, depth := 3, wake := 0, tag := tag, dormant := true }

/-! ### Levels and retraining -/

/-- A PERF_LEVEL firing for a domain that is awake: the change starts, or replaces the target of one that runs
(R584, R585). -/
def Dev.perfLevel (c : Clock) (d : Dev) (n lvl entry : Nat) : Dev :=
  let d := d.updDom n fun x =>
    { x with level := if x.firedAt.isSome then min x.level x.target else x.level, target := lvl
             firedAt := some c.atc, notify := tfind d.power.levelNotify entry }
  d.updPower fun p => { p with levelNotify := tdel p.levelNotify entry }

/-- What Park has stopped trains again (R414, R491). -/
def Dev.retrain (c : Clock) (d : Dev) (n : Nat) : Dev :=
  if 20 ≤ n && n < 24 then d.retrainQuadrant c (n - 20)
  else if n = 24 || n = 25 then d.retrainCopper c n
  else if n = 26 then d.retrainLinks c
  else d

end Sys2Proof.Machine
end

