-- ==== Sys2Proof/Machine/Streams.lean ====
section
/-! DEFINITION. Where streams meet spokes: a finished transmit symbol goes to the spokes and the tandem stream that carry it
(R408, R409, R432, R484, R555), the samples' entry into the chains, and SPK_MAP_WRITE. -/
namespace Sys2Proof.Machine

/-- The tandem link whose peer is member `m`, an ACTIVE one. -/
def Dev.linkTo (d : Dev) (m : Nat) : Option Nat :=
  (List.range 8).find? fun k => (tget {} d.tnd.links k).peer = m && (d.spoke (256 + k)).any fun s => s.st = .active

/-- A tandem stream's messages cross the link to its outlet (R555); in STANDARD frames of the link as a class 2 frame
(layout log 100). -/
def Dev.toTandem (c : Clock) (d : Dev) (stream : Nat) (y : Stream) (t : TndStream) (q : TxSym) : Dev :=
  match d.linkTo t.outlet with
  | none => d
  | some k =>
    let e : MapEntry := { stream := stream, tx := true, rx := false, domain := 0, pcid := t.pcid }
    let r := d.symbolMessages (256 + k) stream y e 2048 q
    r.1.foldl (fun d m => d.offer c (256 + k)
      { cls := 2, bytes := pk [(1, t.spoke)] ++ ecpri 0 m.1, stream := stream, at_ := q.start, ready := 0 }) r.2

/-- A finished symbol of a stream goes to every spoke whose map names it for the symbol (R409, R432). -/
def Dev.sendSymbol (c : Clock) (d : Dev) (stream : Nat) (y : Stream) (q : TxSym) : Dev :=
  let d := d.spk.maps.foldl (fun d m =>
    match entryFor (d.mapFor m.1 y 0 q.start) stream 0 with
    | some e => if m.1 < 128 then d.toPort c m.1 stream y e q else d.toCopper c m.1 stream y e q
    | none => d) d
  match tfind d.tnd.streams stream with
  | some t => if bit t.dirs 0 then d.toTandem c stream y t q else d
  | none => d

/-- The symbols a transmit chain has finished leave it: to the spokes, or to the stream's LOOKASIDE binding, for which they
wait (R30, R32). Only the slots that the carrier runs are sent (R24, R106). -/
def Dev.flushSymbols (c : Clock) (d : Dev) (stream : Nat) : Dev :=
  match d.stream stream with
  | none => d
  | some y =>
    if d.devmode.mode = .lookaside && (tget {} d.devmode.look (2 * stream)).chan != 0xFFFF then d
    else
      let qs := (d.chain stream 0).syms
      let d := d.updChain stream 0 fun k => { k with syms := [] }
      if !d.devmode.mode.spokes then d
      else match d.carrierOf y with
        | none => d
        | some k => qs.foldl (fun d q =>
            if d.slotRuns y.carrier k q.frame q.slot then d.sendSymbol c stream y q else d) d

/-- A sample enters its chain at its fixed time (R274). -/
def execChainSampleEntry (stream dir : Nat) (present : Bool) (re im : Nat) (s : State) (buf : Nat := 0) : Out :=
  s |> onDev fun c d =>
  let d := d.sampleEntry c stream dir present re im buf
  if dir = 0 then d.flushSymbols c stream else d

/-- SPK_MAP_WRITE (R408, R410, R484, R639). -/
def execSpkMapWrite (r : Req) (spoke first count : Nat) (entries : List Nat) : State → Out :=
  onDev <| serve 0x0706 r fun x d =>
    if spoke < 128 then d.serialMap x spoke first count entries
    else if spoke < 144 then d.copperMap x spoke first count entries
    else (rBad 0, d)

end Sys2Proof.Machine
end

