-- ==== Sys2Proof/Machine/AirTime.lean ====
section
/-! DEFINITION. Air time and the Cadence engine (chapter 03): the cadence cycle, posting, cancelling and firing entries, marks
of shadowed instances, carriers, and slot plans. -/
namespace Sys2Proof.Machine

/-! ### The cadence cycle (R78, R81, R496) -/

/-- One cadence cycle: ATC advances by 2 Tc and NTC by 3,125 / 3,072 ns (R81, R496). -/
def Clock.tick (c : Clock) : Clock :=
  let f := c.ns * 3072 + c.rem + 3125
  if 3072000000000 ≤ f then
    { c with sec := c.sec + 1, ns := (f - 3072000000000) / 3072, rem := (f - 3072000000000) % 3072, atc := c.atc + 2 }
  else { c with ns := f / 3072, rem := f % 3072, atc := c.atc + 2 }

/-- Entries that the end of a cycle leaves due are delayed, each counted once (R89). -/
def Air.crowd (a : Air) (now : Nat) : Air :=
  let n := (a.cad.filter fun e => e.2.dueAt ≤ now && !e.2.crowded).length
  { a with cad := a.cad.map fun e => if e.2.dueAt ≤ now then (e.1, { e.2 with crowded := true }) else e
           cadCrowd := satAdd 32 a.cadCrowd n, firedNow := 0 }

/-- The posts and cancels in progress at the post ports complete: DONE returns to 1 with RESULT and RES_INDEX (R94). -/
def Air.finishPosts (a : Air) : Air :=
  { a with ports := a.ports.map fun e =>
      if e.2.done then e else (e.1, { e.2 with done := true, result := e.2.fin.1, resIndex := e.2.fin.2, fin := (0, 0) }) }

/-- The next cadence cycle begins, once every entry that fires in this one has fired (R81, R89). A post or cancel completes in
the cycle after the write that asks for it, within the 64 cycles of R94 (log 146). -/
def execCadenceCycle : State → Out := onBoth fun c d =>
  if !c.run || !(d.air.firing c.atc).isEmpty then (c, d)
  else (c.tick, (d.updAir fun a => (a.crowd c.atc).finishPosts).newCycle)

/-! ### Posting and cancelling (R86, R92, R638, R639) -/

/-- A HANDOVER target that R639 refuses. -/
def badHandover (target : Nat) : Bool :=
  let i := target % 2 ^ 28
  match target / 2 ^ 28 with
  | 1 => 2048 ≤ i
  | 2 => 2048 ≤ i
  | 3 => 128 ≤ i
  | 4 => 144 ≤ i
  | 5 => 64 ≤ i
  | 8 => 512 ≤ i
  | 9 => i != 0
  | _ => true

/-- A target outside what R87 gives the action. -/
def badTarget (action target : Nat) : Bool :=
  match action with
  | 1 => 65536 ≤ target
  | 2 => if bit target 31 then 64 ≤ target % 2 ^ 31 else 1024 ≤ target % 2 ^ 31
  | 3 => 65536 ≤ target || (startChan target).isNone
  | 4 => badHandover target
  | 5 => 2048 ≤ target
  | 6 => 4096 ≤ target || 144 ≤ target % 256
  | 7 => 20 ≤ target
  | 8 => 4096 ≤ target || 144 ≤ target % 256
  | 9 => 8 ≤ target
  | 10 => 32 ≤ target
  | _ => true

/-- The byte offset of the first field of an entry that is out of range (R86, R87, R512, R639). -/
def CadEntry.fault (e : CadEntry) : Option Nat :=
  if e.period != 0 && e.period < 256 then some 8
  else if e.action = 0 || 10 < e.action then some 16
  else if 8 ≤ e.flags then some 17
  else if badTarget e.action e.target then some 20
  else if (e.action = 9 && !widthOk e.arg) || (e.action = 8 && 4 < e.arg) then some 24
  else none

/-- RESULT codes of a post port (R93). -/
def resOK : Nat := 0
def resLATE_FIRED : Nat := 1
def resLATE_DROPPED : Nat := 2
def resFULL : Nat := 3
def resBADARG : Nat := 4
def resDENIED : Nat := 5
def resGONE : Nat := 6

/-- A post of an entry whose fields are in range: stored, stored to fire late, dropped, or refused for want of room
(R92). -/
def Dev.postEntry (c : Clock) (d : Dev) (e : CadEntry) : Nat × Nat × Dev :=
  let late : Bool := e.trigger ≤ c.atc + 3932
  let note := fun (d : Dev) => d.updAir fun a => { a with cadLate := satAdd 32 a.cadLate 1 }
  if late && !bit e.flags 0 then (resLATE_DROPPED, 0, (note d).trouble 35 trbTIMING)
  else match d.freeCad with
    | none => (resFULL, 0, d)
    | some i =>
      let d := d.updAir fun a => { a with cad := tput a.cad i { e with lateAt := if late then c.atc + 2 else 0 } }
      if late then (resLATE_FIRED, i, (note d).trouble 35 trbTIMING) else (resOK, i, d)

/-- Breano posts through its own ports (R93): the index, none where the table is full or the post is late and dropped. -/
def Dev.breanoPost (c : Clock) (d : Dev) (e : CadEntry) : Option (Nat × Dev) :=
  let r := d.postEntry c e
  if r.1 = resOK || r.1 = resLATE_FIRED then some (r.2.1, r.2.2) else none

/-- Cancel the entry with an index (R638): whether a live entry had it, and the state after. An entry that fires in this
cycle is no longer live; a periodic one then fires for the last time. -/
def Dev.cancelEntry (c : Clock) (d : Dev) (i : Nat) : Bool × Dev :=
  match tfind d.air.cad i with
  | none => (false, d)
  | some e =>
    if !(d.air.firing c.atc).any fun f => f.1 = i then (true, d.updAir fun a => { a with cad := tdel a.cad i })
    else if e.period = 0 then (false, d)
    else (true, d.updAir fun a => { a with cad := tput a.cad i { e with count := e.fired + 1 } })

def execCadPost (r : Req) (trigger period count action flags target arg : Nat) : State → Out :=
  onDev <| serve 0x0210 r fun x d =>
    let e : CadEntry := { trigger := trigger, period := period, count := count, action := action, flags := flags, target := target
                          arg := arg }
    match e.fault with
    | some o => (rBad o, d)
    | none =>
      if action = 7 then (rSt stDENIED, d)
      else
        let p := d.postEntry x.clk e
        if p.1 = resOK then (rOk [(2, p.2.1), (1, 0)], p.2.2)
        else if p.1 = resLATE_FIRED then ({ status := stLATE, payload := pk [(2, p.2.1), (1, 1)] }, p.2.2)
        else if p.1 = resLATE_DROPPED then ({ status := stLATE, payload := pk [(2, 0xFFFF), (1, 0)] }, p.2.2)
        else (rSt stBUSY, d)

def execCadCancel (r : Req) (index : Nat) : State → Out := onDev <| serve 0x0211 r fun x d =>
  let q := d.cancelEntry x.clk index
  (rOk [(1, (!q.1).toNat)], q.2)

/-! ### Post ports (R93, R94) -/

def Dev.postPort (d : Dev) (p : Nat) : PostPort := tget {} d.air.ports p
def Dev.updPostPort (d : Dev) (p : Nat) (f : PostPort → PostPort) : Dev :=
  d.updAir fun a => { a with ports := tmod {} a.ports p f }

/-- Who writes a post port: a core, the host as PF0 (1,024), or Breano (1,025). -/
def Dev.mayPost (d : Dev) (p who : Nat) : Bool :=
  let q := d.postPort p
  if p < 4 then who = 1025
  else if q.owner = 0 then who = 1024
  else if q.owner = 1 then who < 1024 && (d.core who).pool = some q.pool else false

/-- A post or cancel of a port is in progress: DONE falls to 0 until it completes (R94). -/
def PostPort.busy (q : PostPort) (result index : Nat) : PostPort := { q with done := false, fin := (result, index) }

/-- A POST write (R92-R94, R586): the lead is measured, and the entry stored, in this cycle. -/
def Dev.portPost (c : Clock) (d : Dev) (p : Nat) : Dev :=
  let q := d.postPort p
  let e : CadEntry := { trigger := q.trigger, period := q.period, count := q.count, action := q.action, flags := q.flags
                        target := q.target, arg := q.arg }
  if !q.done then d
  else if e.fault.isSome then d.updPostPort p fun q => q.busy resBADARG q.resIndex
  else if e.action = 7 && 4 ≤ p then d.updPostPort p fun q => q.busy resDENIED q.resIndex
  else
    let r := d.postEntry c e
    r.2.2.updPostPort p fun q => q.busy r.1 (if r.1 = resOK || r.1 = resLATE_FIRED then r.2.1 else q.resIndex)

/-- A CANCEL write (R638). -/
def Dev.portCancel (c : Clock) (d : Dev) (p : Nat) : Dev :=
  let q := d.postPort p
  if !q.done then d
  else let r := d.cancelEntry c q.index; r.2.updPostPort p fun q => q.busy (if r.1 then resOK else resGONE) q.resIndex

/-- A write of the control word of a port: POST and CANCEL together are refused (R94). -/
def Dev.portControl (c : Clock) (d : Dev) (p v : Nat) : Dev :=
  if bit v 0 && bit v 1 then
    if (d.postPort p).done then d.updPostPort p fun q => { q with result := resBADARG } else d
  else if bit v 0 then d.portPost c p
  else if bit v 1 then d.portCancel c p
  else d

/-- Address of a post port's word (R93). -/
def portAddr (p off : Nat) : Nat := 0x0300020000 + 0x40 * p + off

/-- A write to `a` that the target's access rule denies (R93, R333): a host's is dropped, a core's stored write is dropped under
R147; both are logged. -/
def Dev.writeDenied (c : Clock) (d : Dev) (a who : Nat) : Dev :=
  if who < 1024 then
    (d.updCore who fun k => { k.pend c 0x80000000 with serr := a }).log c (who / 64) trbFABRIC 0x0F42
      (pk [(6, a), (2, who), (1, 4)])
  else d.log c 33 trbDROP 0x0F43 (pk [(6, a), (2, 0), (1, 5)])

def Dev.portDenied (c : Clock) (d : Dev) (p who : Nat) : Dev := d.writeDenied c (portAddr p 0x20) who

def execCadPortPost (port who : Nat) : State → Out := onDev fun c d =>
  if d.mayPost port who then d.portPost c port else d.portDenied c port who

def execCadPortCancel (port who : Nat) : State → Out := onDev fun c d =>
  if d.mayPost port who then d.portCancel c port else d.portDenied c port who

def execCadAssignPort (r : Req) (port owner pool : Nat) : State → Out := onDev <| serve 0x0212 r fun _ d =>
  if port < 4 || 64 ≤ port then (rBad 0, d)
  else if 1 < owner && owner != 0xFF then (rBad 1, d)
  else if owner = 1 && 64 ≤ pool then (rBad 2, d)
  else if !(d.postPort port).done then (rSt stBUSY, d)
  else (rOk, d.updPostPort port fun q => { q with owner := owner, pool := pool })

/-- A 32-bit read of ATC_NOW's low word latches the high word for its requester (R95). -/
def execAtcNowLowRead (requester : Nat) : State → Out := onDev fun c d =>
  d.updHost fun h => { h with atcLatch := tput h.atcLatch requester (c.atc / 2 ^ 32) }

/-! ### Marks (R96-R101, R639) -/

/-- An instance exists (R639). -/
def Dev.instExists (d : Dev) (cls i : Nat) : Bool :=
  if cls = 3 then (d.liveSpoke i).isSome && i < 128
  else if cls = 4 then if i < 128 then (d.liveSpoke i).isSome else (d.copper i).isSome
  else true

/-- The domain of an instance's block. -/
def instDomain (cls i : Nat) : Nat :=
  if cls = 1 || cls = 2 then 27 else if cls = 5 then copBlock (pairSpokeNo i) else if i < 128 then 20 + i / 32 else copBlock i

/-- The function that owns an instance's object (R102). -/
def Dev.instOwner (d : Dev) (cls i : Nat) : Nat := if cls = 1 || cls = 2 then ((d.stream i).map (·.owner)).getD 0 else 0

/-- The copy of a block's SHADOW set to ACTIVE. -/
def Dev.copyInst (c : Clock) (d : Dev) (cls i : Nat) : Dev :=
  match cls with
  | 1 => d.copyFe c i
  | 2 => d.copyCmp c i
  | 3 => d.copySteer c i
  | 4 => d.copySpokeMap c i
  | _ => d.copyCop c i

/-- A mark finds ARM clear with EXPECT: MISSED, and HANDOVER_MISSED (R97). -/
def Dev.missMark (c : Clock) (d : Dev) (cls i : Nat) : Dev :=
  let d := d.updShadow cls i fun y => { y with missed := satAdd 32 y.missed 1, expected := true }
  let y := d.shadow cls i
  d.evt c (d.instOwner cls i) (d.instOwner cls i) 0x0281 0 [(0, 1, cls), (4, 4, i), (8, 2, y.seq), (10, 4, y.missed)]

/-- A HANDOVER firing names an instance: the mark of this cycle, or a further firing of it (R97). -/
def Dev.markInst (c : Clock) (d : Dev) (expect : Bool) (cls i : Nat) : Dev :=
  let y := d.shadow cls i
  if y.markAt = some c.atc then
    if expect && !y.expected && y.lastCopy != c.atc then d.missMark c cls i else d
  else
    let d := d.updShadow cls i fun y => { y with markAt := some c.atc, expected := false }
    if y.armAt c.atc then
      (d.updShadow cls i fun y => y.taken c.atc).copyInst c cls i
    else if expect then d.missMark c cls i else d

/-- The instances that a HANDOVER target names (R96, R482). -/
def Dev.handoverInsts (d : Dev) (target : Nat) : List (Nat × Nat) :=
  let i := target % 2 ^ 28
  match target / 2 ^ 28 with
  | 5 => (List.range 4).map fun x => (5, i / 4 * 4 + x)
  | 8 =>
    if (d.carrier i).isNone then []
    else
      let ss := (d.fe.streams.filter fun e => e.2.carrier = i).map (·.1)
      let ps := (d.mac.steer.filter fun e => (e.2.act ++ e.2.latest).any fun y => ss.contains y.2.2).map (·.1)
      ss.map (fun s => (1, s)) ++ ss.map (fun s => (2, s)) ++ ps.map fun p => (3, p)
  | 9 => (d.spk.spokes.filter fun e => e.1 < 128).map (fun e => (4, e.1)) ++ d.cop.spokes.map fun e => (4, e.1)
  | k => [(k, i)]

/-- A HANDOVER firing (R96, R97, R639): the instances whose domains sleep are left alone (R90). -/
def Dev.handover (c : Clock) (d : Dev) (idx target : Nat) (expect : Bool) : Bool × Dev :=
  let named := d.handoverInsts target
  let all := named.filter fun e => d.instExists e.1 e.2
  let up := all.filter fun e => d.awake (instDomain e.1 e.2)
  let d := if target / 2 ^ 28 < 5 && all.isEmpty then d.log c 35 trbTIMING 0x0F41 (pk [(2, idx), (4, target)]) else d
  (up.length != all.length, up.foldl (fun d e => d.markInst c expect e.1 e.2) d)

/-! ### Firing (R88-R91) -/

/-- A SPOKE_WINDOW firing (R411, R450, R473). -/
def Dev.spokeWindow (c : Clock) (d : Dev) (spoke mask arg : Nat) : Dev :=
  if 128 ≤ spoke then d.copWindow c spoke mask arg
  else if (d.liveSpoke spoke).isNone then d
  else if arg < 2 then d.updSpoke spoke fun s => { s with window := arg = 1 }
  else if arg = 4 then d.preWake c spoke
  else d.updSpoke spoke fun s => { s with winBad := satAdd 64 s.winBad 1 }

/-- A CORE_EVENT firing (R145): the bits are set in the cores that are awake. -/
def Dev.coreEvent (c : Clock) (d : Dev) (cores : List Nat) (arg : Nat) : Bool × Dev :=
  let up := cores.filter fun n => d.awake (n / 64)
  (up.length != cores.length,
   up.foldl (fun d n => d.updCore n fun k => k.pend c (BitVec.ofNat 32 (arg % 2 ^ 31))) d)

/-- Domain of a spoke by number. -/
def spokeDomain (n : Nat) : Nat := if n < 128 then 20 + n / 32 else copBlock n

/-- The action of entry `i` (R87): whether its target sleeps, in whole or in part, and the state after (R90). -/
def Dev.act (c : Clock) (d : Dev) (i : Nat) (e : CadEntry) : Bool × Dev :=
  let inDom := fun (n : Nat) (f : Dev → Dev) => if d.awake n then (false, f d) else (true, d)
  match e.action with
  | 1 => (false, (d.opReady c e.target (if e.arg = 0 then none else some e.arg) ⟨1, i⟩).2)
  | 2 => d.coreEvent c (if bit e.target 31 then d.members (e.target % 2 ^ 31) else [e.target % 2 ^ 31]) e.arg
  | 3 =>
    match startChan e.target with
    | some n => match moverDomain n with
      | some k => inDom k fun d => d.moverStart n
      | none => (false, d.moverStart n)
    | none => (false, d)
  | 4 => d.handover c i e.target (bit e.flags 1)
  | 5 => inDom 27 fun d => d.cassetteAction c (e.target % 2048) e.arg i
  | 6 => inDom (spokeDomain (e.target % 256)) fun d => d.trueGap c (e.target % 256) (bits e.target 8 4) (e.arg % 2 ^ 32)
  | 7 => inDom e.target fun d => d.perfLevel c e.target (e.arg % 8) i
  | 8 => inDom (spokeDomain (e.target % 256)) fun d => d.spokeWindow c (e.target % 256) (bits e.target 8 4) (e.arg % 8)
  | 9 => (false, d.tsPulse c (e.target % 8) (e.arg % 2 ^ 32) e.trigger i (e.lateAt != 0))
  | _ => (false, d.wakeEvent c (e.target % 64) 0 0)

/-- An entry after a firing: gone after its COUNT-th, or with its next trigger (R88, R92). -/
def CadEntry.next (e : CadEntry) (now : Nat) : Option CadEntry :=
  if e.period = 0 || (e.count != 0 && e.count ≤ e.fired + 1) then none
  else
    let t := if e.lateAt = 0 then e.trigger + e.period
      else if now < e.trigger + e.period then e.trigger + e.period
      else e.trigger + ((now - e.trigger) / e.period + 1) * e.period
    some { e with trigger := t, fired := e.fired + 1, lateAt := 0, crowded := false }

/-- The next entry of this cycle fires (R88-R91). `found` is what reading the entry table finds: 0 nothing, 1 a correctable error,
2 an uncorrectable one, at which the entry is removed without firing (R373, R376). -/
def execCadenceEntryFire (s : State) (found : Nat := 0) : Out := s |> onDev fun c d =>
  match d.air.firing c.atc with
  | [] => d
  | (i, e) :: _ =>
    let t := (d.disturb (cadKey i) found).readWord c (cadKey i) rqCadence i
    let d := t.2
    if t.1 then (d.updAir fun a => { a with cad := tdel a.cad i }).updMem fun m => { m with ecc := tset {} m.ecc (cadKey i) {} }
    else
    let d := d.updAir fun a =>
      { a with firedNow := a.firedNow + 1
               cad := match e.next c.atc with
                 | some e' => tput a.cad i e'
                 | none => tdel a.cad i }
    let d := if bit e.flags 2 then d.evt c e.poster e.poster 0x0280 0 [(0, 2, i), (8, 8, e.fired + 1)] else d
    let r := d.act c i e
    if r.1 then
      (r.2.updAir fun a => { a with cadAsleep := satAdd 32 a.cadAsleep 1 }).log c 35 trbTIMING 0x0F41 (pk [(2, i), (4, e.target)])
    else r.2

/-! ### ARM and status (R99, R102, R108) -/

/-- Cadence after the firings of the cycle at ATC `now` that are still to come, at the start of the next cycle (R88, R89). -/
def Air.after (a : Air) (now : Nat) : Air :=
  let step := fun (a : Air) (e : Nat × CadEntry) => match e.2.next now with
    | some e' => { a with cad := tput a.cad e.1 e' }
    | none => { a with cad := tdel a.cad e.1 }
  ((a.firing now).foldl step a).crowd now

/-- SEQ of an instance at the end of the cycle `n` cycles on: a firing that names it is a mark of its cycle, unless its domain
sleeps, and one that finds ARM set advances SEQ (R89, R90, R97). -/
def Dev.seqAhead (d : Dev) (cls i : Nat) : Nat → Nat → Air → Shadow → Nat
  | n, now, a, y =>
    let hit := y.markAt != some now && d.awake (instDomain cls i) &&
      (a.firing now).any fun e => e.2.action = 4 && (d.handoverInsts e.2.target).contains (cls, i)
    let y := if hit && y.armAt now then y.taken now else y
    match n with
    | 0 => y.seq
    | n + 1 => d.seqAhead cls i n (now + 2) (a.after now) y

/-- Why an instance cannot be named by the acting function: BADARG for a stream it does not see, BADSTATE for an instance
that does not exist (R102, R639). -/
def Dev.instBar (x : Ctx) (d : Dev) (cls i : Nat) (configured : Bool) : Option Reply :=
  if cls = 0 || 5 < cls then some (rBad 0)
  else if (cls < 3 && 2048 ≤ i) || (cls = 3 && 128 ≤ i) || (cls = 4 && 144 ≤ i) || (cls = 5 && 64 ≤ i) then some (rBad 1)
  else if cls < 3 then
    if (d.stream i).isNone then (if configured || x.func != 0 then some (rBad 1) else none)
    else if d.seesStream x i then none else some (rBad 1)
  else if x.func != 0 then some (rBad 1)
  else if d.instExists cls i then none else some (rSt stBADSTATE)

def execAirShadowArm (r : Req) (cls inst value : Nat) : State → Out := onDev <| serve 0x0220 r fun x d =>
  match d.instBar x cls inst true with
  | some b => (b, d)
  | none =>
    if 1 < value then (rBad 5, d)
    else
      let y := d.shadow cls inst
      let land := y.landing x.clk.atc
      let seq := d.seqAhead cls inst ((land - x.clk.atc) / 2) x.clk.atc d.air y
      (rOk [(8, land), (2, seq)], d.updShadow cls inst fun y => y.touched x.clk.atc (value = 1))

def execAirShadowStatus (r : Req) (cls inst : Nat) : State → Out := onDev <| serve 0x0221 r <| noFx fun x d =>
  match d.instBar x cls inst false with
  | some b => b
  | none => let y := d.shadow cls inst; rOk [(1, (y.armNow x.clk.atc).toNat), (2, y.seq), (4, y.missed), (8, y.lastCopy)]

/-! ### Carriers (R82-R85, R101) -/

/-- Carrier fields that R84 or R85 refuses: the offset. -/
def Dev.carrierFault (d : Dev) (owner std bw mu cp off hostCar : Nat) : Option Nat :=
  if std = 0 || 4 < std then some 2
  else if std = 1 && (bw < 50 || 4000 < bw) then some 3
  else if std = 2 && !([14, 30, 50, 100, 150, 200].contains bw) then some 3
  else if std = 1 && 4 < mu then some 5
  else if std = 2 && mu != 0 then some 5
  else if std < 3 && 1 < cp then some 6
  else if std = 1 && cp = 1 && mu != 2 then some 6
  else if std < 3 && frameTc ≤ off then some 7
  else if std < 3 then if hostCar = 0xFFFF then none else some 11
  else match d.carrier hostCar with
    | some h => if h.std = 2 && h.owner = owner then none else some 11
    | none => some 11

/-- Add a carrier with Cadence entry `i` for its standing mark (R101): the first mark is its next frame boundary. -/
def Dev.addCarrier (c : Clock) (d : Dev) (n i : Nat) (k : Carrier) : Dev :=
  let at_ := c.atc + 2
  let first := if at_ ≤ k.off then k.off else k.off + upTo (at_ - k.off) frameTc
  let p := k.place c.atc
  let k := { k with mark := i, nextSlot := p.1 * k.slotsFrame + p.2.1 + 1, stopped := false, stopAt := none }
  (d.addStanding i first (8 * 2 ^ 28 + n)).updAir fun a => { a with carriers := tput a.carriers n k }

def execAirCarrierAdd (r : Req) (carrier std bw mu cp off hostCar : Nat) : State → Out := onDev <| serve 0x0201 r fun x d =>
  if 512 ≤ carrier then (rBad 0, d)
  else match d.carrierFault x.func std bw mu cp off hostCar with
    | some o => (rBad o, d)
    | none =>
      if (d.carrier carrier).isSome then (rSt stBUSY, d)
      else if 512 ≤ d.air.carriers.length then (rSt stOVERLOAD, d)
      else match d.freeCad with
        | none => (rSt stBUSY, d)
        | some i =>
          let k : Carrier := { owner := x.func, std := std, bw := bw, mu := mu, ext := cp = 1, off := off, hostCar := 0xFFFF, mark := i }
          let k := match (if std < 3 then none else d.carrier hostCar) with
            | some h => { k with mu := h.mu, ext := h.ext, off := h.off, hostCar := hostCar }
            | none => k
          (rOk, d.addCarrier x.clk carrier i k)

def execAirCarrierRemove (r : Req) (carrier : Nat) : State → Out := onDev <| serve 0x0202 r fun x d =>
  match d.carrier carrier with
  | none => (rBad 0, d)
  | some k =>
    if !x.sees k.owner then (rBad 0, d)
    else if d.hasPlans carrier || d.fe.streams.any (fun e => e.2.carrier = carrier) ||
        d.air.carriers.any (fun e => 3 ≤ e.2.std && e.2.hostCar = carrier) then (rSt stBADSTATE, d)
    else (rOk, ((d.delStanding k.mark).updAir fun a => { a with carriers := tdel a.carriers carrier }).updDevmode fun m =>
      { m with conf := tdel m.conf carrier })

def execAirGetTime (r : Req) (carrier : Nat) : State → Out := onDev <| serve 0x0203 r <| noFx fun x d =>
  let head := [(8, x.clk.atc), (8, x.clk.sec), (4, x.clk.ns)]
  if carrier = 0xFFFF then rOk (head ++ [(4, x.clk.atc / frameTc), (1, 0xFF), (1, 0xFF)])
  else match d.carrier carrier with
    | none => rBad 0
    | some k =>
      if !x.sees k.owner then rBad 0
      else let p := k.place x.clk.atc; rOk (head ++ [(4, p.1), (1, p.2.1), (1, p.2.2)])

/-! ### Slot plans (R103-R107, R235) -/

/-- Modes in which carriers run on slot plans (R18, R33). -/
def Mode.air : Mode → Bool
  | .hub => true
  | .captain => true
  | .stoker => true
  | .lookaside => true
  | .conformance => true
  | .relay => false
  | .linetest => false
  | .dormant => false

/-- The class and the ops that the records of a type may have (R107, R260). -/
def recordOps (t : Nat) : Option (Nat × List Nat) :=
  if t = 1 || t = 2 then some (1, [2])
  else if t = 3 then some (1, [1])
  else if 4 ≤ t && t ≤ 6 then some (1, [4])
  else if t = 0x11 then some (0, [2])
  else if t = 0x12 then some (0, [1])
  else if t = 0x13 then some (3, [1])
  else if t = 0x14 then some (2, [5])
  else if 0x21 ≤ t && t ≤ 0x25 then some (1, [3, 4, 5])
  else if 0x31 ≤ t && t ≤ 0x34 then some (0, [3])
  else none

/-- The offset of the first fault of a plan's records, which begin at byte 16 (R107, R260): a type that is not of the carrier's
standard, an op the type does not have, a length that is not the header's and the parameter block's (log 158). -/
def recordFault (nr : Bool) : Nat → Nat → List Byte → Option Nat
  | 0, off, b => if b.isEmpty then none else some off
  | n + 1, off, b =>
    let len := fieldAt b 2 2
    let fl := fieldAt b 1 1
    match recordOps (fieldAt b 0 1) with
    | none => some off
    | some (_, ops) =>
      if b.length < 8 || nr != (fieldAt b 0 1 < 0x20 : Bool) then some off
      else if 16 ≤ fl || !ops.contains fl then some (off + 1)
      else if len != 104 || b.length < len then some (off + 2)
      else if fieldAt b 6 2 != 0 then some (off + 6)
      else recordFault nr n (off + len) (b.drop len)

/-- The jobs that a plan's records stand for, with the times Breano gives each: a PUCCH record with K = 0 stands for none, its
payload is decoded by threads (R254, R260). -/
def recordJobs : List Nat → Nat → List Byte → List PlanJob
  | _, 0, _ => []
  | ts, n + 1, b =>
    let t := ts.headD 0
    let j : PlanJob := { cls := ((recordOps (fieldAt b 0 1)).getD (0, [])).1, op := fieldAt b 1 1, body := (b.drop 8).take 96
                         release := bits t 0 64, deadline := bits t 64 64 }
    let rest := recordJobs ts.tail n (b.drop 104)
    if fieldAt b 0 1 = 0x11 && fieldAt j.body 20 2 = 0 then rest else j :: rest

/-- A further job Breano derives from the carrier's configuration (R260): class, op, times and parameter block. -/
def furtherJob (v : Nat) : PlanJob :=
  { cls := bits v 0 2, op := bits v 2 8, release := bits v 16 64, deadline := bits v 80 64, body := le 96 (v / 2 ^ 144) }

/-- r and d of R231: the release, or the admission time, rounded up, and the deadline rounded down. -/
def chargeSpan (now release deadline : Nat) : Nat × Nat :=
  (cdiv (if release = 0 then now else release) 245760, deadline / 245760)

/-- The charge of a plan's thread (R231): its pool, and its work estimate from EST or the plan's override. -/
def Dev.threadCharge (d : Dev) (now override_ v : Nat) : Nat × Nat × Nat × Nat :=
  let t := bits v 0 16
  let q := chargeSpan now (bits v 16 64) (bits v 80 64)
  (d.tPool t, q.1, q.2, if override_ = 0 then d.tb t 44 4 else override_)

/-- The engine-class charge of a job (R231, R263). -/
def jobCharge (now : Nat) (j : PlanJob) : Nat × Nat × Nat × Nat :=
  let q := chargeSpan now j.release j.deadline
  (128 + j.cls, q.1, q.2, jobNs j.cls j.op (le 32 (j.op * 2 ^ 16) ++ j.body))

/-- The charges of a plan: of the threads that Breano releases for it, and of its jobs. -/
def Dev.planCharges (d : Dev) (now override_ : Nat) (threads : List Nat) (jobs : List PlanJob) :
    List (Nat × Nat × Nat × Nat) :=
  threads.map (d.threadCharge now override_) ++ jobs.map (jobCharge now)

/-- The frame that a system frame number means: the nearest to the present one (R82, R107). -/
def Carrier.frameOf (k : Carrier) (now sfn : Nat) : Nat :=
  let f := k.frameAt now
  let g := f / 1024 * 1024 + sfn
  if g + 512 < f then g + 1024 else if f + 512 ≤ g && 1024 ≤ g then g - 1024 else g

/-- AIR_PLAN_SUBMIT (R103-R107, R231-R235, R260, R263). What threads Breano releases for the records, what further jobs it
derives, and at what times, the manual does not say: they come with the command (log 21). -/
def execAirPlanSubmit (r : Req) (carrier sfn slot flags count override_ : Nat) (records : List Byte)
    (times : List Nat) (s : State) (threads further : List Nat := []) : Out :=
  s |> onDev (serve 0x0230 r fun x d =>
    match d.carrier carrier with
    | none => (rBad 0, d)
    | some k =>
      let now := x.clk.atc
      let f := k.frameOf now sfn
      let p := k.place now
      if !x.sees k.owner then (rBad 0, d)
      else if 1024 ≤ sfn || p.1 * k.slotsFrame + p.2.1 + 32 < f * k.slotsFrame + slot % k.slotsFrame then (rBad 2, d)
      else if k.slotsFrame ≤ slot then (rBad 4, d)
      else if flags != 0 then (rBad 5, d)
      else if count = 0 || 4096 < count then (rBad 6, d)
      else match recordFault (k.std = 1) count 16 records with
        | some o => (rBad o, d)
        | none =>
          if !d.devmode.mode.air || d.sourceOf carrier != 0 || d.air.plans.any (fun q => q.carrier = carrier && q.frame = f && q.slot = slot) ||
              d.afterDrain (k.slotStart f ((slot : Int) + 1)) then (rSt stBADSTATE, d)
          else if k.slotStart f ((slot : Int) - 2) < (x.rung : Int) then (rSt stLATE, d)
          else
            let jobs := recordJobs times count records ++ further.map furtherJob
            let cs := d.planCharges now override_ threads jobs
            let st := d.admission now cs
            if st = stBADARG then (rBad 2, d)
            else if st != stOK then (rSt st, d)
            else (rOk, d.updAir fun a =>
              { a with plans := a.plans ++ [{ carrier := carrier, frame := f, slot := slot, charges := cs, jobs := jobs }]
                       carriers := tput a.carriers carrier { k with stopAt := none } }))

def execAirPlanCancel (r : Req) (carrier frame slot : Nat) : State → Out := onDev <| serve 0x0231 r fun x d =>
  match d.carrier carrier with
  | none => (rBad 0, d)
  | some k =>
    let hit := fun (q : Plan) => q.carrier = carrier && q.frame % 2 ^ 32 = frame && q.slot = slot
    if !x.sees k.owner then (rBad 0, d)
    else if k.slotsFrame ≤ slot then (rBad 6, d)
    else match d.air.plans.find? hit with
      | none => (rBad 2, d)
      | some q =>
        if k.slotStart q.frame ((slot : Int) - 2) < (x.rung : Int) then (rSt stLATE, d)
        else (rOk, d.updAir fun a => { a with plans := a.plans.filter fun q => !hit q })

/-- Slot `slot` of the present frame begins with no admitted plan (R106): for a test-model carrier, one whose plan the
ledger refused (R34). A slot that ends after D and begins before the new mode takes effect posts nothing (R25). -/
def execPlanGap (carrier slot : Nat) : State → Out := onDev fun c d =>
  match d.carrier carrier with
  | none => d
  | some k =>
    let p := k.place c.atc
    let m := p.1 * k.slotsFrame + p.2.1
    let src := d.sourceOf carrier
    let planned := d.planned carrier p.1 p.2.1
    let ends := k.slotStart p.1 ((p.2.1 : Int) + 1)
    let drained := d.afterDrain ends ||
      (d.devmode.drainedAt.any fun b => (b : Int) < ends && k.slotStart p.1 (p.2.1 : Int) < (d.devmode.since : Int))
    if p.2.1 != slot || m < k.nextSlot || c.atc < k.off || !d.devmode.mode.air then d
    else
      let d := d.updAir fun a => { a with carriers := tput a.carriers carrier { k with nextSlot := m + 1 } }
      let gone := d.updDevmode fun m => { m with refused := m.refused.filter fun q => q != (carrier, p.1, p.2.1) }
      if planned || src = 2 || k.quiet ends || drained then gone
      else if src = 1 && !d.devmode.refused.contains (carrier, p.1, p.2.1) then d
      else let d := gone; d.evtBreano c k.owner k.owner 0x0282 0 [(0, 2, carrier), (2, 4, p.1), (6, 1, p.2.1)]

/-- The charges whose bucket d has ended are removed; a plan is admitted until its last (R105, R235), and its slot keeps it
until it has ended. -/
def execLedgerChargeExpire : State → Out := onDev fun c d =>
  let ended := fun (q : Plan) => match d.carrier q.carrier with
    | some k => k.slotStart q.frame ((q.slot : Int) + 1) + maxLag ≤ (c.atc : Int)
    | none => true
  d.updAir fun a =>
    let ps := a.plans.map fun q => { q with charges := q.charges.filter fun x => bucketOf c.atc ≤ x.2.2.1 }
    { a with plans := ps.filter fun q => !(q.charges.isEmpty && ended q) }

end Sys2Proof.Machine
end

