-- ==== Sys2Proof/Machine/MemoryUnit.lean ====
section
/-! DEFINITION. Memory repair and its commands (chapter 13): targeted tests, splices, repair, and the patrol scrub. -/
namespace Sys2Proof.Machine

/-! ### Tests, splices, repair -/

/-- Spare rows of a macro in use: by the fuse map and by soft splices (R384). -/
def Mem.sparesUsed (m : Mem) (mac : Nat) : Nat :=
  tget 0 m.fuseSpares mac + (m.splices.filter fun s => s.macroNo = mac && s.kind = 0).length

/-- The spare for a fault at a static-RAM address, if one is free: a spare row, or, where `col` allows it, the macro's
column group, whose place among the columns the address does not tell (R384; log 32). -/
def Dev.freeSpare (d : Dev) (a : Nat) (col : Bool) : Option (Splice × Dev) :=
  let mac := macroOf a
  let used := d.mem.sparesUsed mac
  let t := draw d
  if used < 2 then some ({ macroNo := mac, row := rowNo a, kind := 0, spare := used }, d)
  else if col && !d.mem.splices.any (fun s => s.macroNo = mac && s.kind = 1) then
    some ({ macroNo := mac, row := t.1 % 4096, kind := 1, spare := 0 }, t.2)
  else none

/-- Splice a static-RAM address if a spare and a table entry are free (R384): the entry number. -/
def Dev.splice (c : Clock) (d : Dev) (a : Nat) (col : Bool) : Option (Nat × Dev) :=
  match d.freeSpare a col with
  | none => none
  | some (e, d) =>
  if 4096 ≤ d.mem.splices.length then none
  else
    let n := d.mem.splices.length
    let d := d.updMem fun m =>
      { m with splices := m.splices ++ [e]
               spliceDue := if m.spliceDue.isSome then m.spliceDue else some c.atc }
    let d := (d.restoreRow (rowOf a)).memStat 1 fun s => { s with spliced := satAdd 32 s.spliced 1 }
    some (n, d.evtLog c 0 0 0x0E92 0 (memBlock a) trbSPLICED [(0, 2, n), (8, 8, rowOf a)])

/-- A lasting fault of a tested unit (R384-R386); the manual gives no effect to one of a coprocessor, an engine or, with no spare left, Cadence's
table. -/
def Dev.lastingFault (c : Clock) (d : Dev) (t : MemTest) : Dev :=
  if t.kind = utCOP || t.kind = utENGINE then d
  else if t.kind = 2 then (d.retireCore c t.unit).memStat 2 fun s => { s with retired := satAdd 32 s.retired 1 }
  else if t.kind = 1 then
    if d.mem.repair.contains t.unit || d.mem.unrepairable.contains t.unit then d
    else (d.updMem fun m => { m with repair := m.repair ++ [t.unit] }).evt0 c 0x0E94 0 [(8, 8, t.unit)]
  else match d.splice c t.unit true with
    | some (_, d) => d
    | none =>
      let d := d.memStat 1 fun s => { s with retired := satAdd 32 s.retired 1 }
      if 2 ^ 50 ≤ t.unit then d
      else if 2 ^ 48 ≤ t.unit then d.retireCore c (keyCore t.unit)
      else
        let page := t.unit / 4096 * 4096
        if d.mem.retiredPages.contains page then d
        else (d.updMem fun m => { m with retiredPages := m.retiredPages ++ [page] }).evtLog c 0 0 0x0E93 0
          (memBlock t.unit) trbRETIRED [(0, 1, 1), (8, 8, page)]

/-- A targeted self-test completes and classifies the error (R382, R383): transient when it passes, unless it is the
fourth transient within 24 h; otherwise lasting. -/
def execMemTested (kind unit : Nat) (failed : Bool) : State → Out := onDev fun c d =>
  match d.mem.tests.find? fun t => t.kind = kind && t.unit = unit with
  | none => d
  | some t =>
    let cls := if kind = 0 then 1 else if kind = 1 then 0 else 2
    let blk := if kind = 2 then unit / 64 else if kind = utCOP then unit / 16 else if kind = utENGINE then engDomain unit
      else memBlock unit
    let d := d.updMem fun m => { m with tests := m.tests.erase t }
    let d := if kind = 2 then d.endBist unit else if kind < 2 then d.restoreRow unit else d
    let l := recentTransients c.atc kind unit d.mem.transients
    let lasting := failed || (t.asked.isNone && fourth kind unit l)
    if lasting then
      let d := d.memStat cls fun s => { s with lasting := satAdd 32 s.lasting 1 }
      let d := d.evtLog c 0 0 0x0E91 (t.asked.getD 0) blk trbLASTING [(0, 1, kind), (1, 1, 1), (8, 8, unit)]
      d.lastingFault c t
    else if t.asked.isSome then d.evt0 c 0x0E91 (t.asked.getD 0) [(0, 1, kind), (1, 1, 0), (8, 8, unit)]
    else
      let d := (d.updMem fun m => { m with transients := l }).memStat cls fun s =>
        { s with transient := satAdd 32 s.transient 1 }
      d.evtLog c 0 0 0x0E91 0 blk trbTRANSIENT [(0, 1, kind), (1, 1, 0), (8, 8, unit)]

/-- The soft splice table goes to flash (R384). -/
def execSpliceFlashWrite : State → Out := onDev fun _ d =>
  if d.mem.spliceDue.isSome then d.updMem fun m => { m with flashSplices := m.splices, spliceDue := none } else d

/-! ### Scrubbing -/

/-- Code words of a pass: DRAM 2^32; static RAM: cluster memories, system SRAM, LDM, IM. -/
def passWords (cls : Nat) : Nat := if cls = 0 then 2 ^ 32 else 2 ^ 24 + 2 ^ 23 + 2 ^ 25 + 2 ^ 24

/-- The code word at a pass position. -/
def scrubAddr (cls pos : Nat) : Nat :=
  if cls = 0 then 0x1000000000 + 32 * pos
  else if pos < 2 ^ 24 then 0x0100000000 + 0x01000000 * (pos / 2 ^ 20) + 8 * (pos % 2 ^ 20)
  else if pos < 2 ^ 24 + 2 ^ 23 then 0x0200000000 + 8 * (pos - 2 ^ 24)
  else if pos < 2 ^ 24 + 2 ^ 23 + 2 ^ 25 then 2 ^ 48 + 8 * (pos - (2 ^ 24 + 2 ^ 23))
  else 2 ^ 49 + 8 * (pos - (2 ^ 24 + 2 ^ 23 + 2 ^ 25))

def Mem.scrub (m : Mem) (cls : Nat) : Scrub := if cls = 0 then m.scrubD else m.scrubS
def Mem.setScrub (m : Mem) (cls : Nat) (s : Scrub) : Mem :=
  if cls = 0 then { m with scrubD := s } else { m with scrubS := s }

/-- A scrub period in Tc. -/
def periodTc (cls p : Nat) : Nat := p * (if cls = 0 then 3600 else 60) * 1966080000

/-- The patrol scrubber reads the next code word of a class (R379, R380). `found` is what the array holds beside what
the model stored: 0 nothing, 1 a correctable and 2 an uncorrectable disturbance. A sleeping memory is not scrubbed: its
pass holds its position, and is slow all the same. Period 0 stops. -/
def execScrubRead (cls found : Nat) : State → Out := onDev fun c d =>
  let s := d.mem.scrub cls
  let a := scrubAddr cls s.pos
  if s.period = 0 || d.mgmt.fatal then d
  else
    let late := !s.slow && s.start + 2 * periodTc cls s.period < c.atc
    let d := if late then d.evt0 c 0x0E96 0 [(0, 1, cls), (8, 8, s.start)] else d
    let s := { s with slow := s.slow || late }
    if !(memDomain a).all d.awake then d.updMem fun m => m.setScrub cls s
    else ((d.disturb a found).readWord c a rqScrub 0).2.updMem fun m => m.setScrub cls
      (if s.pos + 1 = passWords cls then { s with pos := 0, start := c.atc, last := c.atc, slow := false }
       else { s with pos := s.pos + 1 })

/-- The end of a MEM_UE period (R388). -/
def execMemUePeriodEnd (cls : Nat) : State → Out := onDev fun c d =>
  match tfind d.mem.uePer cls with
  | none => d
  | some p =>
    if c.atc < p.start + 1966080 then d
    else if p.count = 0 then d.updMem fun m => { m with uePer := tdel m.uePer cls }
    else
      (d.updMem fun m => { m with uePer := tput m.uePer cls { start := c.atc, count := 0, first := 0 } }).evt0 c 0x0E90 0
        [(0, 1, cls), (2, 2, p.count), (8, 8, p.first)]

/-! ### Commands -/

def Mem.mapReply (m : Mem) : Reply := rOk (m.map.flatMap fun p => [(8, p.1), (8, p.2)])

def execMemGetMap (r : Req) : State → Out := onDev <| serve 0x0E01 r <| noFx fun _ d => d.mem.mapReply

/-- R370, R371. -/
def execMemPartitionSet (r : Req) (harq stream : Nat) : State → Out := onDev <| serve 0x0E02 r fun _ d =>
  if harq < 8 || 80 < harq then (rBad 0, d)
  else if stream < 4 || 32 < stream then (rBad 1, d)
  else if !d.air.carriers.isEmpty || !d.eng.harq.isEmpty then (rSt stBADSTATE, d)
  else
    let d := d.updMem fun m => { m with harqGB := harq, streamGB := stream }
    (d.mem.mapReply, d)

def execMemScrubSet (r : Req) (cls period : Nat) : State → Out := onDev <| serve 0x0E03 r fun _ d =>
  if 1 < cls then (rBad 0, d)
  else if (if cls = 0 then 168 else 60) < period then (rBad 1, d)
  else (rOk, d.updMem fun m => m.setScrub cls { m.scrub cls with period := period })

def execMemScrubStatus (r : Req) (cls : Nat) : State → Out := onDev <| serve 0x0E04 r <| noFx fun _ d =>
  if 1 < cls then rBad 0
  else
    let s := d.mem.scrub cls
    rOk [(2, s.period), (2, s.pos * 1000 / passWords cls), (8, s.last)]

def execMemErrStats (r : Req) (cls : Nat) : State → Out := onDev <| serve 0x0E05 r <| noFx fun _ d =>
  if 2 < cls then rBad 0
  else
    let s := tget {} d.mem.stats cls
    rOk [(4, s.ce), (4, s.ue), (4, s.transient), (4, s.lasting), (4, s.unclassified), (4, s.injected), (4, s.spliced),
         (4, s.retired), (4, if cls = 0 then d.mem.repair.length else 0)]

/-- Injections not yet read or fully written (R641). -/
def Mem.injPending (m : Mem) : Nat := (m.ecc.filter fun e => e.2.pending).length

/-- MEM_INJECT (R641). A word that cannot be corrected is not made correctable: nothing but a full write clears it (R373). -/
def execMemInject (r : Req) (addr kind : Nat) : State → Out := onDev <| serve 0x0E06 r fun _ d =>
  let ok := match regionOf addr with
    | .cluster _ => true
    | .sram => true
    | .dram => true
    | _ => false
  if !ok then (rBad 0, d)
  else if 2 < kind then (rBad 8, d)
  else if !(memDomain addr).all d.awake then (rSt stASLEEP, d)
  else if 64 ≤ d.mem.injPending then (rSt stBUSY, d)
  else
    let old := (tget {} d.mem.ecc (cwBase addr)).kind
    let k : Ecc := if kind = 0 then (if old = .clean then .ce else old) else if kind = 1 && old != .poison then .ue else .poison
    let d := d.updMem fun m =>
      { m with ecc := tset {} m.ecc (cwBase addr) { kind := k, injected := true, pending := true } }
    (rOk, d.memStat (memClass addr) fun s => { s with injected := satAdd 32 s.injected 1 })

def execMemSpliceList (r : Req) (first count : Nat) : State → Out := onDev <| serve 0x0E07 r <| noFx fun _ d =>
  if count = 0 || 64 < count then rBad 2
  else rOk (((d.mem.splices.drop first).take count).map fun s =>
    (8, s.macroNo % 2 ^ 20 + s.row % 2 ^ 12 * 2 ^ 20 + s.kind % 256 * 2 ^ 32 + s.spare % 256 * 2 ^ 40))

def execMemSpliceAdd (r : Req) (addr : Nat) : State → Out := onDev <| serve 0x0E08 r fun x d =>
  let ok := match regionOf addr with
    | .cluster _ => true
    | .sram => true
    | _ => false
  if !ok then (rBad 0, d)
  else if !(memDomain addr).all d.awake then (rSt stASLEEP, d)
  else match d.splice x.clk addr false with
    | some (n, d) => (rOk [(2, n)], d)
    | none => (rSt stREFUSED, d)

/-- MEM_REPAIR, in DORMANT or LINETEST only (R386). -/
def execMemRepair (r : Req) : State → Out := onDev <| serve 0x0E09 r fun x d =>
  if d.devmode.mode = .dormant || d.devmode.mode = .linetest then
    let n := d.mem.repair.length
    let others := (d.mem.repairing.map (·.2)).sum
    (rAcc [(4, n)], d.updMem fun m => { m with repairing := m.repairing ++ [(x.tag, n - others)] })
  else (rSt stBADSTATE, d)

/-- The listed rows have been repaired, but for `unrepairable`, whose stack bank has no spare left: those stay listed
and MEM_RETIRED reports them (R386). -/
def execMemRepairDone (unrepairable : List Nat) : State → Out := onDev fun c d =>
  match d.mem.repairing with
  | [] => d
  | (tag, n) :: rest =>
    let bad := (d.mem.repair.take n).filter unrepairable.contains
    let good := (d.mem.repair.take n).length - bad.length
    let d := (d.mem.repair.take n).foldl Dev.restoreRow d
    let d := d.updMem fun m => { m with repair := m.repair.drop n, unrepairable := m.unrepairable ++ bad, repairing := rest }
    let d := bad.foldl (fun d a => d.evtLog c 0 0 0x0E93 0 (memBlock a) trbRETIRED [(0, 1, 2), (8, 8, a)]) d
    let d := d.memStat 0 fun s => { s with retired := satAdd 32 s.retired bad.length }
    d.evt0 c 0x0E95 tag [(0, 4, good), (4, 4, bad.length)]

/-- MEM_SELFTEST: a row by address, or a core with class 3; a core is halted for its BIST (R382, R387). -/
def execMemSelftest (r : Req) (addr core cls : Nat) : State → Out := onDev <| serve 0x0E0A r fun x d =>
  if cls = 3 then
    if 1024 ≤ core then (rBad 8, d)
    else if !d.awake (core / 64) then (rSt stASLEEP, d)
    else (rAcc, (d.startBist core).updMem fun m => { m with tests := m.tests ++ [⟨2, core, some x.tag⟩] })
  else
    let ok := match regionOf addr with
      | .cluster _ => true
      | .sram => true
      | .dram => true
      | _ => false
    if !ok then (rBad 0, d)
    else if !(memDomain addr).all d.awake then (rSt stASLEEP, d)
    else (rAcc, d.updMem fun m => { m with tests := m.tests ++ [⟨if memClass addr = 0 then 1 else 0, rowOf addr, some x.tag⟩] })

end Sys2Proof.Machine
end

