-- ==== Sys2Proof/Machine/Management.lean ====
section
/-! DEFINITION. Management, recovery and live update (chapter 20): heartbeats, takeover, coast, the supervisor, the
AON status page, the trouble log's commands, and the firmware update. UPD_ENG_MICROCODE stands with the engines. -/
namespace Sys2Proof.Machine

/-- The state of pair B (true) or A (false). -/
def Mgmt.pair (m : Mgmt) (b : Bool) : PairSt := if b then m.pairB else m.pairA

def Mgmt.setPair (m : Mgmt) (b : Bool) (p : PairSt) : Mgmt := if b then { m with pairB := p } else { m with pairA := p }

/-- The pair that is not active. -/
def Mgmt.standby (m : Mgmt) : PairSt := m.pair (!m.activeB)

/-- STANDBY_OK (R571). -/
def Mgmt.standbyOk (m : Mgmt) : Bool := m.standby = .ready

/-- Standby state as MGMT_STATUS codes it (R580). -/
def PairSt.code : PairSt → Nat
  | .ready => 0
  | .loading => 1
  | .testing => 2
  | .retired => 3
  | .active => 0

/-- The trouble word of a pair: 34 for pair A, that of D30 for pair B (R572). -/
def pairBlock (b : Bool) : Nat := if b then 30 else 34

/-- Post to every function with a configured event ring. -/
def Dev.evtAll (c : Clock) (d : Dev) (code : Nat) (fs : List (Nat × Nat × Nat)) : Dev :=
  (List.range 16).foldl (fun d f => d.evt c f f code 0 fs) d

/-- A change of standby state, reported (R566). -/
def Dev.setStandby (c : Clock) (d : Dev) (p : PairSt) : Dev :=
  let d := d.updMgmt fun m => m.setPair (!m.activeB) p
  d.evt0 c 0x0F81 0 [(0, 1, p.code)]

/-- Limp begins: R62 at the mailbox front end, the failed pair in reset (R562, R564). -/
def Dev.startLimp (c : Clock) (cause : Nat) (d : Dev) (tag : Nat := 0) : Dev :=
  let d := d.answerAll c stNOTREADY
  let d := d.updMgmt fun m =>
    { (m.setPair m.activeB .testing) with limp := true, limpCause := some (cause, c.atc, tag), lastTakeover := c.atc }
  d.evtAll c 0x0182 [(0, 1, 1)]

/-- The coast sequence begins (R567): carriers run no slot that ends after its boundary. -/
def Dev.startCoast (c : Clock) (cause : Nat) (d : Dev) : Dev :=
  let b := upTo (c.atc + d.mgmt.coastMs * 1966080) 19660800
  let d := d.updMgmt fun m => { m with coasting := true, coastEnd := some (b, cause) }
  let d := d.updAir fun a =>
    { a with carriers := a.carriers.map fun e => (e.1, { e.2 with stopAt := some (min b (e.2.stopAt.getD b)) }) }
  d.answerAll c stFAULT

/-- A pair's heartbeat (R562). -/
def execPairHeartbeat (pair : Nat) : State → Out := onDev fun c d =>
  d.updMgmt fun m => { m with beat := if pair = 1 then (m.beat.1, c.atc) else (c.atc, m.beat.2) }

/-- The supervisor judges a pair failed (R562): a heartbeat failure only after 2.5 ms without one. The active pair's
failure starts a takeover when the standby is ready (R564), else the coast (R567). Under a held supervisor the watchdog
watches the active pair's heartbeat and lockstep alone, and their failure starts the coast with FATAL_CAUSE 2 (R569). A
standby's failure ends a takeover in the coast (R567), and step 1 of an update without a switch (R577). -/
def execPairFailed (pair cause : Nat) : State → Out := onDev fun c d =>
  let b := pair = 1
  let m := d.mgmt
  let beat := if b then m.beat.2 else m.beat.1
  if m.fatal || m.coasting || !m.svc then d
  else if cause = 1 && c.atc < beat + 4915200 then d
  else if m.supHeld && !m.limp && (cause = 2 || m.activeB != b) then if cause = 2 then d.trouble (pairBlock b) trbUE else d
  else if m.activeB = b then
    if m.limp then d
    else
      let d := d.trouble (pairBlock b) (if cause = 2 then trbUE else trbHALT)
      if m.supHeld then d.startCoast c 2
      else if m.standbyOk then d.startLimp c (if m.fwRun.any (fun r => r.step = 3) then 5 else cause)
      else d.startCoast c 1
  else if m.limp then (d.trouble (pairBlock b) (if cause = 2 then trbUE else trbHALT)).startCoast c 1
  else if m.standby = .retired then d
  else
    let d := d.updMgmt fun m => { m with fwRun := m.fwRun.map fun r => if r.step = 1 || r.step = 6 then { r with step := 11 } else r }
    (d.trouble (pairBlock b) (if cause = 2 then trbUE else trbHALT)).setStandby c .testing

/-- Step 4 of R564: the standby pair becomes active, LIMP clears, CONTROL_RESTART and MGMT_TAKEOVER are posted, then
what Breano held back during limp (R565). A planned or update takeover leaves the old pair loading the checkpoint; a
failed one runs its self-test (R566). A takeover in probation brings back the old image (R577). -/
def execMgmtTakeover : State → Out := onDev fun c d =>
  match d.mgmt.limp, d.mgmt.limpCause with
  | true, some (cause, at_, tag) =>
    let new := !d.mgmt.activeB
    let upd := d.mgmt.fwRun
    let back : Bool := cause = 5 || (cause = 3 && upd.any fun r => r.step = 3)
    let d := d.updMgmt fun m =>
      let m := (m.setPair new .active).setPair (!new)
        (if cause = 3 then .loading else if cause = 4 then .ready else .testing)
      { m with
        activeB := new, limp := false, limpCause := none, takeovers := (m.takeovers + 1) % 2 ^ 32
        beat := (c.atc, c.atc)
        running := if cause = 4 || back then
            (if (m.booted = 0) == (cause = 4) then m.fw1.release else m.fw0.release) else m.running
        fwRun := upd.map fun r =>
          if cause = 4 then { r with step := 3, since := c.atc }
          else if back then { r with step := 5, since := c.atc } else r }
    let d := d.evtAll c 0x0182 [(0, 1, 2)]
    let d := d.evt0 c 0x0F80 tag [(0, 1, new.toNat), (1, 1, cause), (8, 8, at_)]
    let d := if d.mgmt.standby = .ready then d else d.evt0 c 0x0F81 0 [(0, 1, d.mgmt.standby.code)]
    let held := d.mgmt.limpHeld
    let d := d.updMgmt fun m => { m with limpHeld := [] }
    held.foldl (fun d e => d.post c e.1 e.2) d
  | _, _ => d

/-- The active pair writes a checkpoint (R563); it is also where an activated update switches (R577, step 2) and
where probation is found to be over (step 4). -/
def execCheckpoint : State → Out := onDev fun c d =>
  if d.mgmt.limp || d.mgmt.fatal || d.mgmt.coasting then d
  else
    let d := d.updMgmt fun m => { m with ckptAt := c.atc, journal := 0 }
    match d.mgmt.fwRun with
    | some r =>
      if r.step = 6 then
        (d.updMgmt fun m => { m with fwRun := some { r with step := 2, since := c.atc } }).startLimp c 4
      else if r.step = 3 && r.since + 60 * 1966080000 ≤ c.atc then
        let d := d.updMgmt fun m => { m with fwRun := some { r with step := 4, since := c.atc }, booted := 1 - m.booted }
        if d.mgmt.standby = .ready then d.setStandby c .loading else d
      else d
    | none => d

/-- The standby pair ends its self-test or loads the checkpoint (R566): a passed test is a transient, and the fourth
within 24 h retires the pair as a failed one does (R383). In step 1 of an update the pair is then booted, and takes over at the
next checkpoint (R577). -/
def execMgmtStandby (pass : Bool) : State → Out := onDev fun c d =>
  let b := !d.mgmt.activeB
  if d.mgmt.limp || d.mgmt.fatal then d
  else match d.mgmt.standby with
    | .testing =>
      let l := recentTransients c.atc 9 b.toNat d.mem.transients
      if pass && !fourth 9 b.toNat l then
        ((d.updMem fun m => { m with transients := l }).trouble (pairBlock b) trbTRANSIENT).setStandby c .loading
      else ((d.trouble (pairBlock b) trbLASTING).trouble (pairBlock b) trbRETIRED).setStandby c .retired
    | .loading =>
      if !pass then d
      else match d.mgmt.fwRun with
        | some r => if r.step = 1 then d.updMgmt fun m => { m with fwRun := some { r with step := 6 } } else d.setStandby c .ready
        | none => d.setStandby c .ready
    | _ => d

/-- At the boundary B of the coast the device goes fatal: FATAL, its cause, the log to flash, MGMT_FATAL to every
ring, and every spoke idle (R567). -/
def execMgmtFatal : State → Out := onDev fun c d =>
  match d.mgmt.coasting, d.mgmt.coastEnd with
  | true, some (b, cause) =>
    if c.atc < b || d.mgmt.fatal then d
    else
      let d := (d.log c 36 trbFATAL 0x0F82 (evd [(0, 1, cause), (8, 8, b)])).updMgmt fun m =>
        { m with fatal := true, fatalCause := cause, fatalAt := b, coastEnd := none }
      let d := d.updMgmt fun m => { m with logFlash := some m.log }
      let d := d.updAir fun a => { a with carriers := a.carriers.map fun e => (e.1, { e.2 with stopped := true }) }
      d.evtAll c 0x0F82 [(0, 1, cause), (8, 8, b)]
  | _, _ => d

/-- The watchdog restarts the supervisor from ROM, and holds it on the third restart within 1 s (R569). -/
def execMgmtSupervisor : State → Out := onDev fun c d =>
  if d.mgmt.supHeld then d
  else
    let times := c.atc :: d.mgmt.supTimes.filter fun t => c.atc < t + 1966080000
    let held : Bool := 3 ≤ times.length
    let d := d.updMgmt fun m =>
      { m with supRestarts := (m.supRestarts + 1) % 2 ^ 32, supTimes := times, supHeld := held }
    let d := d.log c 36 trbHALT 0x0F47 (le 1 times.length)
    d.evt0 c 0x0F83 0 [(0, 1, times.length), (1, 1, held.toNat)]

/-- What a warm restart and a power cycle keep of the management state: flash, and for a warm restart the AON domain
(R570, R572, R574). -/
def Mgmt.cold (m : Mgmt) : Mgmt :=
  { logFlash := m.logFlash, fw0 := m.fw0, fw1 := m.fw1, booted := m.booted }

def Mgmt.warm (m : Mgmt) : Mgmt :=
  { m.cold with
    takeovers := m.takeovers, supRestarts := m.supRestarts, coastMs := m.coastMs, lastTakeover := m.lastTakeover
    fatalCause := m.fatalCause, fatalAt := m.fatalAt, trb := m.trb, logProd := m.logProd, logCons := m.logCons, logLost := m.logLost
    log := m.log, supTimes := m.supTimes }

/-- What flash keeps of the memory state. -/
def Mem.cold (m : Mem) : Mem :=
  { flashSplices := m.flashSplices, repair := m.repair, unrepairable := m.unrepairable, fuseSpares := m.fuseSpares }

/-- The lands and the board, which no reset of the device changes. -/
def Pkg.cold (p : Pkg) : Pkg :=
  { vin := p.vin, tandemStrap := p.tandemStrap, blobForceStrap := p.blobForceStrap, blobFlash := p.blobFlash
    blobBoard := p.blobBoard, junction := p.junction, dramTemps := p.dramTemps, pfail := p.pfail }

/-- The state after every domain lost power: flash, lands, board and host memory stay (R617). -/
def Dev.powerOff (d : Dev) (ph : Phase) : Dev :=
  { host := { mem := d.host.mem, msix := d.host.msix, link := d.host.link, perst := d.host.perst }
    mgmt := d.mgmt.cold, mem := d.mem.cold, pkg := d.pkg.cold, truing := d.truing.cold
    startup := { phase := ph, profile := d.startup.profile, profCoast := d.startup.profCoast }
    free := d.free }

/-- What configuration space keeps of a function's interface: its Device Control. -/
def Func.config (g : Func) : Func := { noSnoopEn := g.noSnoopEn, relaxEn := g.relaxEn, mps := g.mps, mrrs := g.mrrs }

/-- A warm restart resets everything except AON and the PCI Express link and configuration space, and starts up from
the clocks-locked step at W, the cycle of the GO write (R570, R610). -/
def Dev.warmRestart (c : Clock) (d : Dev) : Dev :=
  { host := { mem := d.host.mem, msix := d.host.msix, link := d.host.link, perst := d.host.perst
              vfEnable := d.host.vfEnable, linkUp := d.host.linkUp, linkRate := d.host.linkRate
              linkWidth := d.host.linkWidth, twoX8 := d.host.twoX8
              funcs := (d.host.funcs.map fun e => (e.1, e.2.config)).filter fun e => e.2 != {} }
    mgmt := d.mgmt.warm
    mem := { d.mem.cold with splices := d.mem.splices, spliceDue := d.mem.spliceDue }
    pkg := { d.pkg.cold with tandemId := d.pkg.tandemId, blobForce := d.pkg.blobForce }
    truing := d.truing.cold
    startup := { phase := .clocks, warm := some c.atc, cfgOk := true, profile := d.startup.profile
                 profCoast := d.startup.profCoast }
    free := d.free }

/-- A write to RESTART: KEY = 0xA5 with GO = 1 restarts, every other write is ignored (R570). -/
def Dev.restartWrite (c : Clock) (d : Dev) (key : Nat) (go : Bool) : Dev :=
  if key = 0xA5 && go && d.startup.phase != .off && d.startup.phase != .thermal && c.run then d.warmRestart c else d

def execWarmRestart (key : Nat) (go : Bool) : State → Out := onDev fun c d => d.restartWrite c key go

/-- A W1C write to TRB`w` (R7, R571). -/
def Dev.trbWrite (d : Dev) (w mask : Nat) : Dev :=
  d.updMgmt fun m => { m with trb := tmod 0 m.trb w fun x => x &&& (~~~(BitVec.ofNat 16 mask) ||| tget 0 d.cyc.trb w) }

def execTrbClear (w mask : Nat) : State → Out := onDev fun _ d => if w < 37 then d.trbWrite w mask else d

/-- The word at 0x000 of the AON status page (R571). -/
def Mgmt.word0 (m : Mgmt) : Nat :=
  m.fatalCause % 256 * 256 + m.standbyOk.toNat * 64 + m.activeB.toNat * 32 + m.updating.toNat * 16 +
    m.coasting.toNat * 8 + m.limp.toNat * 4 + m.fatal.toNat * 2 + m.svc.toNat

/-- Coast time, and on request its copy in the stored profile (R567, R580, R608). -/
def execMgmtSet (r : Req) (coast persist : Nat) : State → Out := onDev <| serve 0x0F01 r fun _ d =>
  if 2000 < coast then (rBad 0, d)
  else
    let d := d.updMgmt fun m => { m with coastMs := coast }
    (rOk, if persist = 0 then d else d.updStartup fun u => { u with profCoast := some coast })

def execMgmtStatus (r : Req) : State → Out := onDev <| serve 0x0F02 r <| noFx fun _ d =>
  let m := d.mgmt
  rOk [(4, m.word0), (4, m.takeovers), (4, m.supRestarts), (1, m.standby.code), (8, m.ckptAt), (2, m.journal)]

/-- A planned takeover, cause 3 (R564, R580): limp begins once the command is answered. -/
def execMgmtFailover (r : Req) : State → Out := onDev <| serveThen 0x0F03 r
  (noFx fun _ d => if d.mgmt.standbyOk then rAcc else rSt stBADSTATE) fun x d => d.startLimp x.clk 3 x.tag

/-- The entries of a log from SEQ `first` on, oldest first. -/
def logFrom (first count : Nat) (l : List LogEntry) : List LogEntry :=
  (l.reverse.filter fun e => (e.seq + 2 ^ 32 - first) % 2 ^ 32 < 2 ^ 31).take count

def LogEntry.bytes (e : LogEntry) : List Byte :=
  pk [(8, e.atc), (2, e.code), (1, e.block), (1, e.sev), (4, e.seq), (2, e.rep)] ++ e.data

def execTrbLogRead (r : Req) (first count source : Nat) : State → Out := onDev <| serve 0x0F10 r <| noFx fun _ d =>
  if count = 0 || 4096 < count then rBad 4
  else if 1 < source then rBad 6
  else match if source = 0 then some d.mgmt.log else d.mgmt.logFlash with
    | none => rSt stBADSTATE
    | some l =>
      let es := logFrom first count l
      { status := stOK
        payload := pk [(2, es.length), (4, (es.head?.map (·.seq)).getD first)] ++ es.flatMap LogEntry.bytes }

/-- The whole ring is written to flash (R574). -/
def execTrbLogSave (r : Req) : State → Out := onDev <| serve 0x0F11 r fun _ d =>
  (rAcc, d.updMgmt fun m => { m with logFlash := some m.log })

def execTrbGet (r : Req) : State → Out := onDev <| serve 0x0F12 r <| noFx fun _ d =>
  rOk ((List.range 37).map fun w => (2, (tget 0 d.mgmt.trb w).toNat))

/-- The image goes to the flash slot that is not booted, after its signature is checked (R576). -/
def execUpdFwLoad (r : Req) (sigOk : Bool) (release ckptVer : Nat) : State → Out :=
  onDev <| serve 0x1001 r fun _ d =>
    if d.mgmt.updating then (rSt stBUSY, d)
    else if !sigOk then (rBad 0, d)
    else
      let x : FwSlot := { loaded := true, release := release, ckpt := ckptVer }
      (rOk [(4, release), (2, ckptVer)],
       d.updMgmt fun m => if m.booted = 0 then { m with fw1 := x } else { m with fw0 := x })

/-- The image slot that is not booted, and the booted one. -/
def Mgmt.otherFw (m : Mgmt) : FwSlot := if m.booted = 0 then m.fw1 else m.fw0
def Mgmt.bootedFw (m : Mgmt) : FwSlot := if m.booted = 0 then m.fw0 else m.fw1

/-- Step 1 of R577: the standby pair boots the new image. -/
def execUpdFwActivate (r : Req) : State → Out := onDev <| serve 0x1002 r fun x d =>
  let m := d.mgmt
  if m.updating then (rSt stBUSY, d)
  else if !m.otherFw.loaded || !m.standbyOk || m.otherFw.ckpt != m.bootedFw.ckpt then (rSt stBADSTATE, d)
  else
    let d := d.updMgmt fun m =>
      { m with updating := true, fwRun := some { step := 1, since := x.clk.atc, tag := x.tag } }
    (rAcc, d.setStandby x.clk .loading)

/-- The end of an update (R577): OK once the old pair stands by on the new image, or is retired after probation, REVERTED after
a revert takeover, FAILED when the standby pair could not boot the new image. -/
def execUpdFwDone (bootOk : Bool) : State → Out := onDev fun c d =>
  match d.mgmt.fwRun with
  | none => d
  | some r =>
    let fin := fun (status : Nat) =>
      let d := d.updMgmt fun m => { m with updating := false, fwRun := none }
      d.evt0 c 0x1080 r.tag [(0, 1, status), (2, 2, d.mgmt.running % 65536)]
    if r.step = 4 && (d.mgmt.standbyOk || d.mgmt.standby = .retired) then fin 0
    else if r.step = 5 then fin 1
    else if (r.step = 1 && !bootOk) || r.step = 11 then fin 2
    else d

def execUpdFwStatus (r : Req) : State → Out := onDev <| serve 0x1003 r <| noFx fun _ d =>
  let m := d.mgmt
  rOk [(1, m.booted), (4, m.fw0.release), (4, m.fw1.release), (1, ((m.fwRun.map (·.step)).getD 0) % 5)]

end Sys2Proof.Machine
end

