-- ==== Sys2Proof/Machine/Modes.lean ====
section
/-! DEFINITION. Operating modes (chapter 01, R18-R28, R548, R597, R598): requests, drained and live boundaries, what a
mode's entry does; capacity figures; LOOKASIDE bindings and messages (R29-R31); CONFORMANCE sources and captures
(R33-R36). -/
namespace Sys2Proof.Machine

/-! ### Codes and what a mode uses -/

/-- Mode codes (R18). -/
def Mode.code : Mode → Nat
  | .hub => 1
  | .captain => 2
  | .stoker => 3
  | .lookaside => 4
  | .relay => 5
  | .linetest => 6
  | .conformance => 7
  | .dormant => 8

def Mode.ofCode (v : Nat) : Option Mode :=
  [Mode.hub, .captain, .stoker, .lookaside, .relay, .linetest, .conformance, .dormant].find? fun m => m.code = v

/-- Modes in which engines and pools run (R18). -/
def Mode.computes : Mode → Bool
  | .hub => true
  | .captain => true
  | .stoker => true
  | .lookaside => true
  | .conformance => true
  | .relay => false
  | .linetest => false
  | .dormant => false

/-- A mode uses units of a kind: 0 engines, 1 pools, 2 serial spokes and tandem links, 3 copper spokes (R18, R26). -/
def Mode.uses (m : Mode) (kind : Nat) : Bool := if kind < 2 then m.computes else m != .dormant

/-- Live changes are those among HUB, CAPTAIN and STOKER (R21). -/
def Mode.group : Mode → Bool
  | .hub => true
  | .captain => true
  | .stoker => true
  | .lookaside => false
  | .relay => false
  | .linetest => false
  | .conformance => false
  | .dormant => false

/-! ### The units a mode change disables and enables (R26) -/

/-- A unit is enabled, with no disable pending. -/
def Dev.unitOn (d : Dev) (u : Nat × Nat) : Bool :=
  if u.1 = 0 then (d.engine u.2).dis = .on
  else if u.1 = 1 then (d.pool u.2).dis = .on
  else if u.1 = 2 then (d.spoke u.2).any fun s => !s.resting && !s.dis.isEnding
  else (d.copper u.2).any fun s => !s.resting && !s.dis.isEnding

/-- How a unit's disable stands. -/
def Dev.unitDis (d : Dev) (u : Nat × Nat) : Dis :=
  if u.1 = 0 then (d.engine u.2).dis
  else if u.1 = 1 then (d.pool u.2).dis
  else if u.1 = 2 then ((d.spoke u.2).map (·.dis)).getD .off
  else ((d.copper u.2).map (·.dis)).getD .off

/-- A disable of the unit is pending. -/
def Dev.unitPending (d : Dev) (u : Nat × Nat) : Bool := (d.unitDis u).isEnding || (u.1 = 0 && (d.engine u.2).job.isSome)

/-- The units that a mode does not use. -/
def Dev.unitsOff (d : Dev) (m : Mode) : List (Nat × Nat) :=
  ((List.range 56).map (fun i => (0, i)) ++ (List.range 64).map (fun i => (1, i)) ++
    d.spk.spokes.map (fun (e : Nat × Spoke) => (2, e.1)) ++ d.cop.spokes.map (fun (e : Nat × CopSpoke) => (3, e.1))).filter
      fun u => !m.uses u.1

/-- The enabled units that a mode does not use. -/
def Dev.unused (d : Dev) (m : Mode) : List (Nat × Nat) := (d.unitsOff m).filter d.unitOn

/-- Disable a pool or a spoke with DRAIN or ABORT; engines are disabled together. -/
def Dev.disableUnit (c : Clock) (abort : Bool) (tag : Nat) (d : Dev) (u : Nat × Nat) : Dev :=
  if u.1 = 1 then d.disablePool c u.2 abort tag
  else if u.1 = 2 then d.disableSpoke c u.2 abort tag
  else d.updCopper u.2 fun s => { s with dis := .ending abort c.atc tag, queue := if abort then [] else s.queue }

/-- The units of a list begin to end as by DRAIN or ABORT (R268). -/
def Dev.disableUnits (c : Clock) (abort : Bool) (tag : Nat) (us : List (Nat × Nat)) (d : Dev) : Dev :=
  let es := (us.filter fun u => u.1 = 0).map (·.2)
  let d := if es.isEmpty then d else d.disableEngines c es abort tag
  (us.filter fun u => u.1 != 0).foldl (Dev.disableUnit c abort tag) d

/-- A unit's pending work ends as by ABORT, for the disable that is pending on it (R26). -/
def Dev.abortUnit (c : Clock) (tag : Nat) (d : Dev) (u : Nat × Nat) : Dev :=
  d.disableUnits c true (match d.unitDis u with | .ending _ _ t => t | _ => tag) [u]

/-- A unit that a mode change had disabled is enabled again (log 22). -/
def Dev.enableUnit (c : Clock) (d : Dev) (u : Nat × Nat) : Dev :=
  if d.unitPending u then d
  else if u.1 = 0 then d.updEngine u.2 fun x => { x with dis := .on }
  else if u.1 = 1 then d.updPool u.2 fun x => { x with dis := .on }
  else if u.1 = 2 then d.enableSpoke c u.2
  else match d.copper u.2 with
    | some s =>
      if !s.resting then d
      else
        let d := d.updCopper u.2 fun s => { s with dis := .on, fails := 0, reason := 0 }
        ((maskPairs u.2 s.mask).filter fun p => !(d.pair p).retired).foldl (fun d p => d.startPair c p) d
    | none => d

/-- Domain of a spoke or tandem link. -/
def unitDomain (u : Nat × Nat) : Nat := if u.1 = 2 then spkBlock u.2 else copBlock u.2

/-- Enable the units of `p` that mode changes have disabled. -/
def Dev.reviveUnits (c : Clock) (p : Nat × Nat → Bool) (d : Dev) : Dev :=
  let us := d.devmode.drained.filter p
  us.foldl (Dev.enableUnit c) (d.updDevmode fun m => { m with drained := m.drained.filter fun u => !p u })

/-! ### The tandem conditions (R539, R548) -/

/-- A captain's heartbeat has arrived within the last 3 ms and |offset| is at most 1 us (R548). -/
def Dev.stokerReady (c : Clock) (d : Dev) : Bool :=
  d.tnd.beatAt != 0 && c.atc + 1 ≤ d.tnd.beatAt + 5898240 && d.tnd.offset.natAbs ≤ 65536000

/-- The servo settings of a device that leaves STOKER apply again (R546; log 23): ACQUIRING with a source, HOLDOVER without
one, HOST where the host steers. -/
def Dev.servoBack (c : Clock) (d : Dev) : Dev :=
  (d.updTime fun t => { t with fslew := 0 }).setServo c
    (if d.time.set.profile = 0 then 5 else if d.time.source != 0 then 1 else 3)

/-! ### Taking effect -/

/-- A mode takes effect and MODE_DONE is posted (R23, R26, R38). Units it uses are enabled again; a stoker starts to steer
(R548); DORMANT puts the domains to sleep (R597). -/
def Dev.enterMode (c : Clock) (m : Mode) (status tag : Nat) (d : Dev) : Dev :=
  let old := d.devmode.mode
  let d := d.updDevmode fun y =>
    { y with mode := m, since := c.atc, pend := none
             drainedAt := y.pend.bind fun p => if p.live then none else some p.boundary }
  let d := d.updAir fun a =>
    { a with carriers := a.carriers.map fun e => (e.1, { e.2 with stopped := d.mgmt.fatal }) }
  let d := d.reviveUnits c fun u => m.uses u.1
  let d := if old = .stoker && m != .stoker then
      (d.updTnd fun t => { t with following := false, good := 0 }).servoBack c else d
  let d := if m = .stoker then
      (d.updTime fun t => { t with slew := none, fslew := 0 }).updTnd fun t =>
        { t with good := 0, missed := 0, missAt := 0, dissolve := none }
    else d
  let d := if m = .captain then d.updTnd fun t => { t with members := 0, joining := [], leaving := [], dissolve := none } else d
  let d := if m = .dormant then d.dormantEntry c tag else d
  d.evtBreano c 0 0 0x018A tag [(0, 1, m.code), (1, 1, old.code), (2, 1, status), (8, 8, c.atc)]

/-- The heartbeat of another captain has arrived within the last 3 ms. -/
def Dev.captainHeard (c : Clock) (d : Dev) : Bool := d.tnd.beatAt != 0 && c.atc + 1 ≤ d.tnd.beatAt + 5898240

/-- A mode change asked for takes effect. A device with ID 0 that would become captain while a captain of a later epoch runs
enters HUB, or stays in it, and posts TND_CAPTAIN_BUSY (R554). -/
def Dev.changeTo (c : Clock) (m : Mode) (tag : Nat) (d : Dev) : Dev :=
  if m = .captain && d.captainHeard c && d.tnd.captain != d.pkg.tandemId then
    (d.enterMode c .hub 0 tag).evt0 c 0x0C84 0 [(0, 1, d.tnd.captain), (1, 1, d.tnd.capEpoch)]
  else d.enterMode c m 0 tag

/-- The drain boundary of a change accepted now (R24). -/
def drainBoundary (atc : Nat) : Nat := upTo (atc + 3932160) frameTc

/-- A drained change is accepted: plans for slots that end after D are removed (R25); a captain's heartbeats carry
DISSOLVE from now on (R550). -/
def Dev.acceptDrained (c : Clock) (m : Mode) (tag : Nat) (auto : Bool) (d : Dev) : Dev :=
  let b := drainBoundary c.atc
  let d := d.updDevmode fun y =>
    { y with pend := some { target := m, live := false, boundary := b, tag := tag, auto := auto } }
  let keep := fun (q : Plan) => match d.carrier q.carrier with
    | some k => k.slotStart q.frame ((q.slot : Int) + 1) ≤ (b : Int)
    | none => false
  let d := d.updAir fun a => { a with plans := a.plans.filter keep }
  if d.devmode.mode = .captain then d.updTnd fun t => { t with dissolve := some b } else d

/-- A live change is accepted (R23, R550). -/
def Dev.acceptLive (m : Mode) (b tag : Nat) (auto : Bool) (d : Dev) : Dev :=
  let d' := d.updDevmode fun y => { y with pend := some { target := m, live := true, boundary := b, tag := tag, auto := auto } }
  if d.devmode.mode = .captain then d'.updTnd fun t => { t with dissolve := some b } else d'

/-- A DORMANT wake event (R598): every DORMANT domain begins to exit, and the device changes mode as if a request for `m`,
or for the wake mode, had been accepted. -/
def Dev.dormantWake (c : Clock) (d : Dev) (m : Option Mode) : Dev :=
  let target := m.getD ((Mode.ofCode d.power.wakeMode).getD .hub)
  let d := (ones 32 0xBFFFFFFF).foldl (fun d n => d.wakeEvent c n 4 0) d
  d.acceptDrained c target 0 false

/-! ### DEVICE_SET_MODE and its boundaries -/

/-- DEVICE_SET_MODE (R21-R28, R16, R539, R548, R598); it finds the device busy in the cycle of a takeover (R552). -/
def execDeviceSetMode (r : Req) (mode live : Nat) : State → Out := onDev <| serve 0x0101 r fun x d =>
  let cur := d.devmode.mode
  match Mode.ofCode mode with
  | none => (rBad 0, d)
  | some m =>
    let taken : Bool := cur = .captain && d.pkg.tandemId != 0 && d.devmode.since = x.clk.atc
    if d.devmode.pend.isSome || d.tnd.handback.isSome || taken then (rSt stBUSY, d)
    else if m = cur then (rOk [(8, d.devmode.since)], d)
    else if m = .captain && d.pkg.tandemId != 0 then (rSt stBADSTATE, d)
    else if (m = .captain || m = .stoker) && d.tnd.group.isNone then (rSt stBADSTATE, d)
    else if cur = .relay && 65536 < d.standing (fun _ => true) then (rSt stOVERLOAD, d)
    else if cur.group && m.group then
      if live % frameTc != 0 then (rBad 1, d)
      else if live < x.clk.atc + 39321600 then (rSt stLATE, d)
      else if m = .stoker && !d.stokerReady x.clk then (rSt stBADSTATE, d)
      else (rAcc [(8, live)], d.acceptLive m live x.tag false)
    else
      let d' := if cur = .dormant then
          (ones 32 0xBFFFFFFF).foldl (fun d n => d.wakeEvent x.clk n 4 0) d else d
      (rAcc [(8, drainBoundary x.clk.atc)], d'.acceptDrained x.clk m x.tag false)

/-- A live boundary is reached: the new mode takes effect (R23). Members whose own change names it join the captain's list
(R549). -/
def execModeLiveBoundary : State → Out := onDev fun c d =>
  let due := d.tnd.joining.filter fun j => j.2 ≤ c.atc
  let d := if d.devmode.mode != .captain then d
    else due.foldl (fun d j =>
      let m := d.tnd.members ||| 2 ^ j.1
      if bit d.tnd.members j.1 then d
      else (d.updTnd fun t => { t with members := m }).evt0 c 0x0C86 0 [(0, 1, j.1), (1, 1, 1), (2, 1, m)]) d
  let gone := d.tnd.leaving.filter fun j => j.2 ≤ c.atc
  let d := if d.devmode.mode != .captain then d
    else gone.foldl (fun d j =>
      let m := d.tnd.members &&& (255 - 2 ^ j.1)
      if !bit d.tnd.members j.1 then d
      else (d.updTnd fun t => { t with members := m }).evt0 c 0x0C86 0 [(0, 1, j.1), (1, 1, 0), (2, 1, m)]) d
  let d := d.updTnd fun t =>
    { t with joining := t.joining.filter (fun j => c.atc < j.2), leaving := t.leaving.filter fun j => c.atc < j.2 }
  match d.devmode.pend with
  | some p => if p.live && p.boundary ≤ c.atc then d.changeTo c p.target p.tag else d
  | none => d

/-- The drain boundary D is reached: transmit has ramped off, and the units that the new mode does not use are disabled with
DRAIN from this cycle (R24, R26). -/
def execModeDrainBoundary : State → Out := onDev fun c d =>
  match d.devmode.pend with
  | some p =>
    if p.live || p.drained || c.atc < p.boundary then d
    else
      let us := d.unused p.target
      let mask := (us.filter fun u => u.1 = 0).foldl (fun m u => m + 2 ^ u.2) 0
      let d := d.disableUnits c false p.tag us
      let d := if mask = 0 then d else d.updEng fun y => { y with pend := y.pend ++ [⟨mask, false, p.tag⟩] }
      let d := d.updAir fun a =>
        { a with carriers := a.carriers.map fun e => (e.1, { e.2 with stopped := true }) }
      d.updDevmode fun y =>
        { y with pend := some { p with drained := true }, drained := y.drained ++ us.filter fun u => !y.drained.contains u }
  | none => d

/-- 25 ms after D, work still pending on a unit that the new mode does not use, whatever disabled it, is ended as by ABORT
(R26). -/
def execModeDrainAbort : State → Out := onDev fun c d =>
  match d.devmode.pend with
  | some p =>
    if !p.drained || p.aborted || c.atc < p.boundary + 49152000 then d
    else
      let us := (d.unitsOff p.target).filter d.unitPending
      let d := us.foldl (Dev.abortUnit c p.tag) d
      d.updDevmode fun y => { y with pend := some { p with aborted := true } }
  | none => d

/-- No unit that a mode does not use has pending work. -/
def Dev.drainedAll (d : Dev) (m : Mode) : Bool := (d.unitsOff m).all fun u => !d.unitPending u

/-- A drained change takes effect: at D from DORMANT or LINETEST, otherwise once the drained units have ended, and at the
latest 30 ms after D (R26, R28). STOKER is entered by STOKER_ENTRY; not reached by then, HUB is entered (R548). -/
def execModeDone : State → Out := onDev fun c d =>
  match d.devmode.pend with
  | some p =>
    let late : Bool := p.boundary + 58982400 ≤ c.atc
    let quiet : Bool := d.devmode.mode = .dormant || d.devmode.mode = .linetest
    if p.live || !p.drained then d
    else if p.target = .stoker then
      if !late then d
      else if d.stokerReady c then d.enterMode c .stoker 0 p.tag
      else (d.enterMode c .hub 1 p.tag).updStartup fun u => { u with stokerWait := p.auto }
    else if late || quiet || d.drainedAll p.target then d.changeTo c p.target p.tag
    else d
  | none => d

/-- STOKER is entered at the first 1 ms boundary from D on at which the condition holds (R548). -/
def execStokerEntry : State → Out := onDev fun c d =>
  match d.devmode.pend with
  | some p =>
    if p.live || !p.drained || p.target != .stoker || c.atc % 1966080 != 0 || !d.stokerReady c then d
    else d.enterMode c .stoker 0 p.tag
  | none => d

def execDeviceGetMode (r : Req) : State → Out := onDev <| serve 0x0102 r <| noFx fun _ d =>
  let m := d.devmode
  rOk [(1, m.mode.code), (1, ((m.pend.map (·.target.code)).getD 0)), (8, ((m.pend.map (·.boundary)).getD m.since))]

/-- Capacity in use: of the whole device for PF0 as itself, otherwise of the function (R17). -/
def execDeviceGetCapacity (r : Req) : State → Out := onDev <| serve 0x0103 r <| noFx fun x d =>
  rOk [(4, d.inForce fun y => x.sees y.owner), (2, (d.fe.streams.filter fun e => x.sees e.2.owner).length),
       (2, (d.air.carriers.filter fun e => x.sees e.2.owner).length)]

/-! ### LOOKASIDE (R29-R31) -/

def Dev.look (d : Dev) (stream dir : Nat) : LookBind := tget {} d.devmode.look (2 * stream + dir)

/-- DEVICE_LOOK_BIND (R29). Binding a direction, and unbinding it, sets its counts to 0: the manual does not say what becomes of them
(DESIGN CHOICE, log 145). -/
def execDeviceLookBind (r : Req) (stream dir chan domain : Nat) : State → Out := onDev <| serve 0x010A r fun x d =>
  match d.stream stream with
  | none => (rBad 0, d)
  | some y =>
    let k := d.chan chan
    if !x.sees y.owner then (rBad 0, d)
    else if 1 < dir then (rBad 2, d)
    else if chan != 0xFFFF && moverOf chan != 24 then (rBad 3, d)
    else if 1 < domain then (rBad 5, d)
    else if chan = 0xFFFF then
      (rOk, d.updDevmode fun m => { m with look := tset {} m.look (2 * stream + dir) {} })
    else if d.chanFunc chan != y.owner || k.dir != 1 - dir then (rSt stDENIED, d)
    else if (d.look stream dir).chan != 0xFFFF then (rSt stBUSY, d)
    else (rOk, d.updLook stream dir fun _ => { chan := chan, domain := domain })

def execDeviceLookStatus (r : Req) (stream dir : Nat) : State → Out := onDev <| serve 0x010B r <| noFx fun x d =>
  if !d.seesStream x stream then rBad 0
  else if 1 < dir then rBad 2
  else
    let b := d.look stream dir
    rOk [(2, b.chan), (8, b.messages), (4, b.noBuf), (4, b.badId), (4, b.badLen), (4, b.fmtMismatch)]

/-- A channel serves a binding of LOOKASIDE, so its descriptors carry messages (R29-R31). -/
def Dev.lookBound (d : Dev) (n : Nat) : Bool := d.devmode.mode = .lookaside && d.devmode.look.any fun e => e.2.chan = n

/-- A whole transmit symbol goes to the next descriptor of the bound channel, or is discarded and counted (R30). -/
def execLookTxMessage (stream : Nat) : State → Out := onDev fun c d =>
  let b := d.look stream 0
  match d.stream stream, (d.chain stream 0).syms with
  | some y, q :: qs =>
    if d.devmode.mode != .lookaside || b.chan = 0xFFFF then d
    else
      let d := d.updChain stream 0 fun k => { k with syms := qs }
      let stop := match d.carrierOf y with
        | some k => !d.slotRuns y.carrier k q.frame q.slot
        | none => true
      if stop then d
      else
        let e : MapEntry := { stream := stream, tx := true, rx := false, domain := b.domain, pcid := stream }
        let z := d.symbolMessages 512 stream y e (q.samples.length + 65536) q
        let bs := z.1.flatMap fun m => ecpri 0 m.1
        let d := z.2
        let n := b.chan
        let lost := d.updLook stream 0 fun b => { b with noBuf := satAdd 32 b.noBuf 1 }
        if !d.chanReady n || (d.chan n).verdict.isSome then lost
        else match (lost.headDesc c n).1 with
          | .inl _ => (lost.headDesc c n).2
          | .inr x =>
            if !x.own || x.len < bs.length then (lost.headDesc c n).2
            else
              let w0 := d.headWord n
              let d := ((d.headDesc c n).2).chanStore n x.dst bs
              (d.updLook stream 0 fun b => { b with messages := (b.messages + 1) % 2 ^ 64 }).endDesc c n x w0 0 0 0
                x.arrive.toNat bs.length
  | _, _ => d

/-- A message that the host has posted on a channel is taken, checked and steered (R31). One that names no stream bound to
the channel is counted with the channel's first receive binding, and so is one whose eCPRI header is not R30's (log 24). -/
def execLookRxMessage (chan : Nat) : State → Out := onDev fun c d =>
  let mine := d.devmode.look.filter fun e => e.1 % 2 = 1 && e.2.chan = chan
  match mine, (d.headDesc c chan).1 with
  | b :: _, .inr x =>
    if d.devmode.mode != .lookaside || !d.chanReady chan || (d.chan chan).verdict.isSome || !x.own then d
    else
      let w0 := d.headWord chan
      let got := (d.headDesc c chan).2.chanFetch chan x.src x.len
      let m := got.1
      let d := got.2
      let size := fieldBe m 2 2
      let body := (m.drop 4).take size
      let g := Msg.of body
      let z := decompress g.mode g.m g.nsamp g.blocks
      let d := if m.take 2 != [0x10, 0] || m.length < size + 4 || body.length < 12 then d.countSp (512 + b.1 / 2) 26 1
        else if 2048 ≤ g.pcid || (d.look g.pcid 1).chan != chan then
          d.updLook (b.1 / 2) 1 fun q => { q with badId := satAdd 32 q.badId 1 }
        else if !g.lengthOk z then d.countSp (512 + g.pcid) 26 1
        else (d.updLook g.pcid 1 fun q => { q with messages := (q.messages + 1) % 2 ^ 64 }).useMessage c (512 + g.pcid) g z g.pcid
      d.endDesc c chan x w0 0 0 0 x.arrive.toNat x.len
  | _, _ => d

/-! ### CONFORMANCE (R33-R36) -/

/-- A test-model code matches a carrier's standard and numerology (R33). -/
def modelOk (k : Carrier) (model : Nat) : Bool :=
  if 1 ≤ model && model ≤ 8 then k.std = 1 && k.mu ≤ 2
  else if 0x11 ≤ model && model ≤ 0x15 then k.std = 1 && 2 ≤ k.mu && k.mu ≤ 3
  else if 0x21 ≤ model && model ≤ 0x28 then k.std = 2
  else false

def execDeviceConfSet (r : Req) (carrier source model pci vslot start : Nat) : State → Out :=
  onDev <| serve 0x010C r fun x d =>
    match d.carrier carrier with
    | none => (rBad 0, d)
    | some k =>
      let v := tget {} d.devmode.vec vslot
      let own := d.fe.streams.filter fun e => e.2.carrier = carrier
      if 2 < source || (source != 0 && 3 ≤ k.std) then (rBad 2, d)
      else if source = 1 && !modelOk k model then (rBad 3, d)
      else if source = 2 && (16 ≤ vslot || v.tracks = 0 || v.tracks != own.length || own.any fun e => e.2.fin != v.rate) then
        (rBad 6, d)
      else if source != 0 && start % frameTc != 0 then (rBad 7, d)
      else if d.hasPlans carrier then (rSt stBUSY, d)
      else if source = 1 && start < x.rung + 39321600 then (rSt stLATE, d)
      else
        let q : ConfSrc := if source = 0 then {} else { source := source, model := model, pci := pci, vslot := vslot, start := start }
        (rOk, d.updDevmode fun m => { m with conf := tset {} m.conf carrier q })

def execDeviceConfVectorLoad (r : Req) (vslot tracks frames rate : Nat) (samples : List Byte) : State → Out :=
  onDev <| serve 0x010D r fun _ d =>
    let n := tracks * frames * rate * 10 * 4
    let others := (d.devmode.vec.filter fun e => e.1 != vslot).foldl (fun a e => a + e.2.bytes) 0
    if 16 ≤ vslot then (rBad 0, d)
    else if tracks = 0 || 16 < tracks then (rBad 1, d)
    else if frames = 0 || 64 < frames then (rBad 2, d)
    else if rate = 0 || 2 ^ 32 < others + n then (rBad 3, d)
    else if samples.length != n then (rBad 7, d)
    else if d.devmode.conf.any fun e => e.2.source = 2 && e.2.vslot = vslot then (rSt stBUSY, d)
    else (rOk [(4, n)], d.updDevmode fun m =>
      { m with vec := tset {} m.vec vslot { tracks := tracks, frames := frames, rate := rate, bytes := n, data := samples } })

def execDeviceConfCapture (r : Req) (stream start frames : Nat) : State → Out := onDev <| serve 0x010E r fun x d =>
  match d.stream stream with
  | none => (rBad 0, d)
  | some y =>
    if start % frameTc != 0 then (rBad 2, d)
    else if frames = 0 || 16 < frames then (rBad 10, d)
    else if d.devmode.mode != .conformance then (rSt stBADSTATE, d)
    else if start < x.rung + 3932160 then (rSt stLATE, d)
    else (rAcc [(8, captureBase), (4, frames * y.fin * 10 * 4)], d.updDevmode fun m =>
      { m with capture := some { stream := stream, start := start, frames := frames, tag := x.tag } })

/-- The last captured frame is stored (R36, R38). -/
def execConfCaptureDone : State → Out := onDev fun c d =>
  match d.devmode.capture with
  | some q =>
    match d.stream q.stream with
    | some y =>
      if q.stored < q.frames * y.fin * 10 * 4 then d
      else (d.updDevmode fun m => { m with capture := none }).evt0 c 0x018B q.tag
        [(0, 2, q.stream), (2, 1, q.frames), (8, 8, q.first)]
    | none => d
  | none => d

/-- Breano forms a test-model carrier's plan for a slot and admits it like a host plan; a slot whose plan the ledger refuses is
marked, and posts PLAN_GAP when it begins (R34). The threads and jobs it forms come with the command (log 21). -/
def execConfPlanForm (carrier frame slot : Nat) (threads : List Nat) (s : State) (jobs : List Nat := []) : Out :=
  s |> onDev fun c d =>
  match d.carrier carrier with
  | none => d
  | some k =>
    let q := tget {} d.devmode.conf carrier
    let start := k.slotStart frame (slot : Int)
    let js := jobs.map furtherJob
    let cs := d.planCharges c.atc 0 threads js
    if d.sourceOf carrier != 1 || start < (q.start : Int) || k.slotsFrame ≤ slot ||
        k.slotStart frame ((slot : Int) - 2) < (c.atc : Int) || d.afterDrain (k.slotStart frame ((slot : Int) + 1)) ||
        d.planned carrier frame slot then d
    else if d.admission c.atc cs != stOK then
      d.updDevmode fun m => { m with refused := m.refused ++ [(carrier, frame, slot)] }
    else d.updAir fun a =>
      { a with plans := a.plans ++ [{ carrier := carrier, frame := frame, slot := slot, charges := cs, jobs := js }] }

end Sys2Proof.Machine
end

