-- ==== Sys2Proof/Machine/Power.lean ====
section
/-! DEFINITION. Power domains, levels and sleep (chapter 21). -/
namespace Sys2Proof.Machine

/-! ### The ledger's check of a change (R587) -/

/-- With the level changes posted, every admitted charge still fits. -/
def Dev.levelFits (d : Dev) (now mask level at_ : Nat) : Bool :=
  ((ones 20 mask).foldl (fun d n => d.updAir fun a =>
    { a with cad := tput a.cad (8192 + n) { trigger := at_, period := 0, count := 1, action := 7, flags := 0, target := n,
                                            arg := level } }) d).allFit (bucketOf now)

/-- With the group asleep until its planned wake, every admitted charge still fits. -/
def Dev.sleepFits (d : Dev) (now mask depth wake : Nat) : Bool :=
  ((ones 32 mask).foldl (fun d n =>
    let d := d.updDom n fun x => { x with st := .asleep, depth := depth }
    if wake = 0 then d
    else d.updAir fun a =>
      { a with cad := tput a.cad (8192 + n) { trigger := wake - wakeTime depth, period := 0, count := 1, action := 10
                                              flags := 0, target := n, arg := 0 } }) d).allFit (bucketOf now)

/-! ### Levels -/

/-- The end of a level change (R584). -/
def execPwrLevelDone (dom : Nat) : State → Out := onDev fun c d =>
  let x := d.dom dom
  match x.firedAt with
  | none => d
  | some _ =>
    let d := d.updDom dom fun x => { x with level := x.target, firedAt := none, notify := none }
    match x.notify with
    | some tag => d.evt0 c 0x0D82 tag [(0, 1, dom), (1, 1, x.target), (8, 8, c.atc)]
    | none => d

/-- Breano posts one PERF_LEVEL entry per domain of the mask (R586). -/
def postLevels (x : Ctx) (level at_ notify : Nat) : List Nat → List Nat → Dev → Option (List Nat × Dev)
  | [], acc, d => some (acc, d)
  | n :: ns, acc, d =>
    match d.breanoPost x.clk { trigger := if at_ = 0 then x.clk.atc else at_, period := 0, count := 0, action := 7
                               flags := if at_ = 0 then 1 else 0, target := n, arg := level } with
    | some (i, d) =>
      let d := if notify = 0 then d else d.updPower fun p => { p with levelNotify := tput p.levelNotify i x.tag }
      postLevels x level at_ notify ns (acc ++ [i]) d
    | none => none

/-- PWR_LEVEL_SET (R586, R587, R600): the checks, then one Cadence entry per domain, whose indexes are answered at
the domains' places. -/
def execPwrLevelSet (r : Req) (mask level at_ notify : Nat) : State → Out := onDev <| serve 0x0D01 r fun x d =>
  if 2 ^ 20 ≤ mask then (rBad 0, d)
  else if 7 < level then (rBad 4, d)
  else if at_ != 0 && at_ ≤ x.clk.atc + 3932 then (rSt stLATE, d)
  else if !d.levelFits x.clk.atc mask level (if at_ = 0 then x.clk.atc else at_) then (rSt stOVERLOAD, d)
  else match postLevels x level at_ notify (ones 20 mask) [] d with
    | none => (rSt stOVERLOAD, d)
    | some (idx, d') =>
      let at' := fun n => match (ones 20 mask).idxOf? n with
        | some k => idx.getD k 0xFFFF
        | none => 0xFFFF
      (rOk ((List.range 20).map fun n => (2, at' n)), d')

/-! ### Entering sleep -/

/-- PWR_SLEEP (R587, R590, R595, R600). -/
def execPwrSleep (r : Req) (mask depth wake : Nat) : State → Out := onDev <| serve 0x0D02 r fun x d =>
  if mask = 0 then (rBad 0, d)
  else if depth = 0 || 3 < depth then (rBad 4, d)
  else if (ones 32 mask).any fun n => (d.dom n).st != .awake then (rSt stBADSTATE, d)
  else match d.power.group with
    | some g => (rSt (if g.mask &&& mask = 0 then stBUSY else stBADSTATE), d)
    | none =>
      if !d.sleepFits x.clk.atc mask depth wake then (rSt stOVERLOAD, d)
      else (rAcc [(1, 0xFF), (1, 0)], d.startGroup x.clk { mask := mask, depth := depth, wake := wake, tag := x.tag })

/-- An asked domain acknowledges or refuses, one cadence cycle after it was asked (R590, R591, R593). -/
def execDomainAck (dom : Nat) : State → Out := onDev fun c d =>
  match d.power.group with
  | some g =>
    if g.asking = some (dom, false) && g.askedAt + 2 ≤ c.atc && g.refusal.isNone then
      match d.refusal g dom with
      | none =>
        let d := d.updDom dom fun x => { x with st := .entering, depth := g.depthOf dom }
        (d.closeGate dom).updPower fun p => { p with group := some { g with asking := some (dom, true) } }
      | some why =>
        let d := d.updPower fun p => { p with group := some { g with asking := none, refusal := some (dom, why) } }
        match g.stopped.getLast? with
        | some n => d.beginWake c n 2 g.tag
        | none => d
    else d
  | none => d

/-- An acknowledging domain whose gate is isolated has entered its depth, and the next is asked (R590, R340). -/
def execDomainStopped (dom : Nat) : State → Out := onDev fun c d =>
  match d.power.group with
  | some g =>
    if g.asking = some (dom, true) && d.gateIsolated dom then
      let d := d.updDom dom fun x => { x with st := .asleep }
      d.updPower fun p => { p with group := some ({ g with stopped := g.stopped ++ [dom] }.askNext c.atc) }
    else d
  | none => d

/-- The WAKE entries Breano posts for a group with a wake ATC (R590). -/
def Dev.postWakes (c : Clock) (g : SleepGroup) (d : Dev) : Dev :=
  (ones 32 g.mask).foldl (fun d n =>
    let t := (g.wake - wakeTime (g.depthOf n)) / 2 * 2
    match d.breanoPost c { trigger := t, period := 0, count := 0, action := 10, flags := 1, target := n, arg := 0 } with
    | some (_, d) => d
    | none => d) d

/-- A group has ended: a device that entered DORMANT meanwhile puts its domains to sleep now (R597). -/
def Dev.groupEnded (c : Clock) (g : SleepGroup) (d : Dev) : Dev :=
  if d.devmode.mode = .dormant && !g.dormant then d.dormantEntry c 0 else d

/-- The request ends: OK once every domain has stopped, with the latched wakes replayed; REFUSED once the rollback has
woken every stopped domain, with the latched wakes discarded (R590, R593, R594). -/
def execPwrSlept : State → Out := onDev fun c d =>
  match d.power.group with
  | none => d
  | some g =>
    match g.refusal with
    | none =>
      if (ones 32 g.mask).all (fun n => g.stopped.contains n) then
        let d := d.updPower fun p => { p with group := none, replayed := (p.replayed + g.latched.length) % 2 ^ 32 }
        let d := if g.wake = 0 then d else d.postWakes c g
        let d := d.evtBreano c 0 0 0x0D80 g.tag [(0, 4, g.mask), (4, 1, g.depth), (5, 1, 0), (6, 1, 0xFF), (7, 1, 0)]
        (g.latched.foldl (fun d l => d.beginWake c l.1 3 l.2.2) d).groupEnded c g
      else d
    | some (n, why) =>
      if g.stopped.isEmpty then
        let d := d.updPower fun p => { p with group := none, discarded := (p.discarded + g.latched.length) % 2 ^ 32 }
        (d.evtBreano c 0 0 0x0D80 g.tag [(0, 4, g.mask), (4, 1, g.depth), (5, 1, 1), (6, 1, n), (7, 1, why)]).groupEnded c g
      else d

/-! ### Waking -/

/-- PWR_WAKE (R596): a domain already awake is left alone; naming a domain of the DORMANT entry is a DORMANT wake
event (R598). -/
def execPwrWake (r : Req) (mask : Nat) : State → Out := onDev <| serve 0x0D03 r fun x d =>
  if d.devmode.mode = .dormant && (ones 32 mask).any (fun n => (d.dom n).st = .asleep && n != 30)
      && d.devmode.pend.isNone then
    (rAcc, d.dormantWake x.clk none)
  else (rAcc, (ones 32 mask).foldl (fun d n => d.wakeEvent x.clk n 1 x.tag) d)

/-- A waking domain opens its gates (R341, R588, R596): Park makes lanes and lines retrain (R414, R491). In a
rollback the next stopped domain begins to wake (R593). -/
def execPwrWoke (dom : Nat) : State → Out := onDev fun c d =>
  let x := d.dom dom
  if x.st != .waking then d
  else
    let d := d.updDom dom fun x => { x with st := .awake, depth := 0 }
    let d := d.openGate dom
    let d := if x.depth = 3 then d.retrain c dom else d
    let d := match d.devmode.pend with
      | some p => d.reviveUnits c fun u => 2 ≤ u.1 && unitDomain u = dom && p.target.uses u.1
      | none => d
    let d := d.evtBreano c 0 0 0x0D81 x.wakeTag [(0, 1, dom), (1, 1, x.wakeCause), (8, 8, c.atc)]
    match d.power.group with
    | some g =>
      if g.refusal.isSome && g.stopped.getLast? = some dom then
        let rest := g.stopped.dropLast
        let d := d.updPower fun p => { p with group := some { g with stopped := rest } }
        match rest.getLast? with
        | some n => d.beginWake c n 2 g.tag
        | none => d
      else d
    | none => d

/-- State code of PWR_STATUS (R600). -/
def DomSt.code : DomSt → Nat
  | .awake => 0
  | .entering => 1
  | .asleep => 2
  | .waking => 3

def execPwrStatus (r : Req) : State → Out := onDev <| serve 0x0D04 r <| noFx fun _ d =>
  rOk ((List.range 32).flatMap (fun n =>
      let x := d.dom n
      let lv := fun v => if n < 20 then v else 0
      [(1, x.st.code), (1, x.depth), (1, lv x.level), (1, lv x.target)]) ++
    [(4, d.power.replayed), (4, d.power.discarded)])

def execPwrDormantSet (r : Req) (mode wake : Nat) : State → Out := onDev <| serve 0x0D05 r fun _ d =>
  if mode = 0 || 8 ≤ mode || (mode = 2 && d.pkg.tandemId != 0) then (rBad 0, d)
  else (rOk, d.updPower fun p => { p with wakeMode := mode, wakeAtc := wake })

/-- ATC reaches the wake ATC in DORMANT (R598); the other DORMANT wake events come with their own commands. -/
def execDormantWake : State → Out := onDev fun c d =>
  if d.devmode.mode = .dormant && d.devmode.pend.isNone && d.power.wakeAtc != 0 && d.power.wakeAtc ≤ c.atc then
    (d.updPower fun p => { p with wakeAtc := 0 }).dormantWake c none
  else d

/-- An edge at an input (R509, R510). Before service it is not acted on (R606); one selected with WAKE wakes a device in
DORMANT (R511, R598). -/
def execTsinEdge (input : Nat) (falling : Bool) (sub : Nat) : State → Out := onDev fun c d =>
  if !d.mgmt.svc then d
  else
    let d' := d.captureEdge c input falling sub
    let x := d.tsin input
    if x.wake && x.selects falling && d.devmode.mode = .dormant && d.devmode.pend.isNone then d'.dormantWake c none else d'

end Sys2Proof.Machine
end

