-- ==== Sys2Proof/Machine/Registers.lean ====
section
/-! DEFINITION. The device registers (R7-R12, R635) as every requester inside the device and PF0 sees them, and one access
of any requester to any device address. -/
namespace Sys2Proof.Machine

/-! ### Requesters -/

/-- Kind and index of a requester, of which RID is made (R324). -/
def Requester.rid : Requester → Nat × Nat
  | .core id _ => (0, id)
  | .mover ch => (1, ch)
  | .engine e => (2, e)
  | .pcie f => (3, f)
  | .block n => (4, n)
  | .breano => (5, 0)

/-- Who writes, as rings and post ports number it: a core, 1,024 PF0, 1,025 Breano, 1,026 any other. -/
def Requester.who : Requester → Nat
  | .core id _ => id
  | .pcie 0 => 1024
  | .breano => 1025
  | _ => 1026

/-! ### Where registers lie -/

/-- The page holds at least one register of a field map (R635). -/
def regPage (a : Nat) : Bool :=
  let o := a - 0x0300000000
  0x0300000000 ≤ a &&
  ((0x20000 ≤ o && o < 0x22000) || (0x400000 ≤ o && o < 0x441000) || (0x480000 ≤ o && o < 0x484000) ||
   (0x500000 ≤ o && o < 0x503000) || (0x580000 ≤ o && o < 0x58A000) || (0x700000 ≤ o && o < 0x701000))

/-- Start and width in bytes of the register that holds the 32-bit word at offset `w` of the device-register range, none
where the word is reserved. -/
def wordReg (w : Nat) : Option (Nat × Nat) :=
  let one := some (w, 4)
  let wide : Option (Nat × Nat) := some (w / 8 * 8, 8)
  if 0x20000 ≤ w && w < 0x21000 then
    let f := w % 0x40
    if f < 8 then wide else if f < 0x18 then one else if f < 0x20 then wide else if f < 0x2C then one else none
  else if 0x21000 ≤ w && w < 0x22000 then
    let f := w % 0x1000
    if f < 8 then wide else if f < 0x18 then one else none
  else if 0x400000 ≤ w && w < 0x440000 then
    let f := w % 0x100
    if f < 8 then one else if f < 0x10 then wide else if f < 0x20 then one else if f < 0x28 then wide
    else if f < 0x30 then one else none
  else if 0x440000 ≤ w && w < 0x441000 then (if w % 0x1000 < 0x10 then one else none)
  else if 0x480000 ≤ w && w < 0x484000 then (if w % 0x40 < 0x18 then one else none)
  else if 0x500000 ≤ w && w < 0x502000 then
    let f := w % 0x100
    if f < 4 then one else if f < 8 then none else if f < 0x18 then wide
    else if 0x40 ≤ f && f < 0x80 then one else none
  else if 0x502000 ≤ w && w < 0x503000 then (if w % 0x1000 < 0x20 then one else none)
  else if 0x580000 ≤ w && w < 0x580000 + 0x40 * 592 then
    let f := w % 0x40
    if f < 0x10 then one else if f < 0x18 then wide else if f < 0x2C then one else none
  else if 0x700000 ≤ w && w < 0x701000 then
    let f := w % 0x1000
    if f < 0x10 then one else if f < 0x20 then wide else if f < 0x30 then one
    else if 0x40 ≤ f && f < 0x40 + 4 * 37 then one else none
  else none

/-- How an access of `n` bytes at offset `w` stands (R9, R10, R635). -/
inductive RegAcc where
  /-- one 32-bit register, or one word of a 64-bit one -/
  | word
  /-- one whole 64-bit register -/
  | whole
  /-- wholly reserved -/
  | reserved
  | refused
  deriving DecidableEq, Repr

def regAcc (w n : Nat) : RegAcc :=
  if n = 4 && w % 4 = 0 then (if (wordReg w).isSome then .word else .reserved)
  else if n = 8 && w % 8 = 0 then
    match wordReg w, wordReg (w + 4) with
    | none, none => .reserved
    | some a, some b => if a = b then .whole else .refused
    | _, _ => .refused
  else .refused

/-- Trouble word of a register's block (R572). -/
def regBlock (w : Nat) : Nat := if w < 0x480000 then 35 else if 0x700000 ≤ w then 36 else 32

/-! ### Reads -/

/-- Key of the register at offset `o` of a function's BAR0, above the device registers' offsets. -/
def funcKey (f o : Nat) : Nat := 0x1000000 + 0x10000 * f + o

/-- One half of a 64-bit value. -/
def half (v w : Nat) : Nat := if w / 4 % 2 = 0 then v % 2 ^ 32 else v / 2 ^ 32 % 2 ^ 32

/-- A 64-bit value with one half cleared: what a 32-bit read of an RC register leaves (log 74). -/
def clearHalf (v w : Nat) : Nat := if w / 4 % 2 = 0 then v / 2 ^ 32 * 2 ^ 32 else v % 2 ^ 32

/-- A read of an RC register whose value is `now`: it returns the value without the updates of this cycle, and leaves those
alone (R12). `put` writes what is left. -/
def Dev.rcTake (d : Dev) (key now : Nat) (put : Nat → Dev → Dev) : Nat × Dev :=
  let old := min (tget 0 d.cyc.rc key) now
  (old, put (now - old) (d.updCyc fun y => { y with rc := tdel y.rc key }))

/-- The same for one half of a 64-bit RC register (log 74). -/
def Dev.rcHalf (d : Dev) (key w now : Nat) (put : Nat → Dev → Dev) : Nat × Dev :=
  let old := min (tget 0 d.cyc.rc key) now
  let kept := clearHalf old w
  (half old w, put (now - old + kept) (d.updCyc fun y => { y with rc := tset 0 y.rc key kept }))

/-- A read of a post port (R93). -/
def PostPort.word (q : PostPort) (f : Nat) : Nat :=
  if f < 8 then half q.trigger f
  else if f = 8 then q.period
  else if f = 0xC then q.count
  else if f = 0x10 then q.flags % 256 * 256 + q.action % 256
  else if f = 0x14 then q.target
  else if f < 0x20 then half q.arg f
  else if f = 0x24 then q.index
  else if f = 0x28 then q.done.toNat * 2 ^ 31 + q.resIndex % 2 ^ 13 * 65536 + q.result % 16
  else 0

/-- The words of the Cadence page (R93, R95): the low half of ATC_NOW latches the high half for its requester. -/
def Dev.cadWord (c : Clock) (d : Dev) (q : Requester) (f : Nat) : Nat × Dev :=
  if f = 0 then (c.atc % 2 ^ 32, d.updHost fun h => { h with atcLatch := tput h.atcLatch q.who (c.atc / 2 ^ 32) })
  else if f = 4 then
    ((tfind d.host.atcLatch q.who).getD (c.atc / 2 ^ 32), d.updHost fun h => { h with atcLatch := tdel h.atcLatch q.who })
  else if f = 8 then (8192 - d.air.cad.length, d)
  else if f = 0xC then d.rcTake 0x2100C d.air.cadLate fun n d => d.updAir fun a => { a with cadLate := n }
  else if f = 0x10 then d.rcTake 0x21010 d.air.cadCrowd fun n d => d.updAir fun a => { a with cadCrowd := n }
  else if f = 0x14 then d.rcTake 0x21014 d.air.cadAsleep fun n d => d.updAir fun a => { a with cadAsleep := n }
  else (0, d)

/-- The words of a Peloton port (chapter 07). -/
def Dev.portWord (d : Dev) (n f : Nat) : Nat × Dev :=
  let k := d.core n
  if f = 4 then (k.portDone.toNat * 2 ^ 31 + k.portCode % 16 * 65536 + k.portNew % 65536, d)
  else if f = 8 || f = 0xC then (half k.argDl f, d)
  else if f = 0x10 then (k.arg0, d)
  else if f = 0x14 then (k.arg1, d)
  else if f = 0x18 then
    (k.thread.isSome.toNat * 2 ^ 31 + k.pool.getD 0 % 64 * 65536 + k.thread.getD 0 % 65536, d)
  else if f = 0x1C then
    (match k.saddle with
      | .full t => 2 ^ 31 + t % 65536
      | _ => 0, d)
  else if f = 0x20 || f = 0x24 then (half ((k.thread.map d.tDeadline).getD 0) f, d)
  else if f = 0x28 then (0x3E000 + 0x1000 * k.seatFrame, d)
  else if f = 0x2C then d.rcTake (0x40002C + 0x100 * n) k.switches fun m d => d.setCore n { d.core n with switches := m }
  else (0, d)

/-- The words of the Peloton trace page (R237). -/
def Dev.pelTraceWord (d : Dev) (f : Nat) : Nat × Dev :=
  if f = 0 then (d.pel.trcProd, d)
  else if f = 4 then (d.pel.trcCons, d)
  else if f = 8 then d.rcTake 0x440008 d.pel.trcDrop fun n d => d.updPel fun p => { p with trcDrop := n }
  else if f = 0xC then (d.pel.trcMode, d)
  else (0, d)

/-- The words of a job ring (chapter 08). -/
def Dev.ringWord (d : Dev) (r f : Nat) : Nat × Dev :=
  let x := d.ring r
  if f = 0 then (x.prod, d)
  else if f = 4 then (x.fetch, d)
  else if f = 8 then (x.done, d)
  else if f = 0xC then (x.stall.toNat * 8 + x.state, d)
  else if f = 0x10 then d.rcTake (0x480010 + 0x40 * r) x.bad fun n d => d.updRing r fun x => { x with bad := n }
  else if f = 0x14 then d.rcTake (0x480014 + 0x40 * r) x.late fun n d => d.updRing r fun x => { x with late := n }
  else (0, d)

/-- The words of a probe (R345). -/
def Dev.probeWord (d : Dev) (p f : Nat) : Nat × Dev :=
  let x := tget {} d.fab.probes p
  let upd := fun (d : Dev) (g : Probe → Probe) => d.updFab fun y => { y with probes := tmod {} y.probes p g }
  if f = 0 then (x.en.toNat * 2 ^ 31 + x.mode, d)
  else if f = 8 || f = 0xC then d.rcHalf (0x500008 + 0x100 * p) f x.pkts fun n d => upd d fun x => { x with pkts := n }
  else if f = 0x10 || f = 0x14 then d.rcHalf (0x500010 + 0x100 * p) f x.flits fun n d => upd d fun x => { x with flits := n }
  else if 0x40 ≤ f && f < 0x80 then
    let b := (f - 0x40) / 4
    d.rcTake (0x500000 + 0x100 * p + f) (tget 0 x.hist b) fun n d => upd d fun x => { x with hist := tset 0 x.hist b n }
  else (0, d)

/-- The words of the fabric status block (R345). -/
def Dev.fabWord (d : Dev) (f : Nat) : Nat × Dev :=
  let x := d.fab
  if f = 0 then (x.oldDrained.toNat * 4 + x.flipPend.toNat * 2 + x.epoch, d)
  else if f = 4 then (x.drain0 % 2 ^ 32, d)
  else if f = 8 then (x.drain1 % 2 ^ 32, d)
  else if f = 0xC then d.rcTake 0x50200C x.flipStall fun n d => d.updFab fun y => { y with flipStall := n }
  else if f = 0x10 then d.rcTake 0x502010 x.demote fun n d => d.updFab fun y => { y with demote := n }
  else if f = 0x14 then (x.trcProd, d)
  else if f = 0x18 then (x.trcCons, d)
  else if f = 0x1C then d.rcTake 0x50201C x.trcDrop fun n d => d.updFab fun y => { y with trcDrop := n }
  else (0, d)

/-- The words of a mover or exchange channel (R355, R558). -/
def Dev.chanWord (d : Dev) (n f : Nat) : Nat × Dev :=
  let k := d.chan n
  if f = 0 then (k.prod, d)
  else if f = 4 then (k.fetch, d)
  else if f = 8 then (k.done, d)
  else if f = 0xC then (k.deadline.toNat * 16 + k.timed.toNat * 8 + k.state, d)
  else if f = 0x10 || f = 0x14 then (half (k.errAddr % 2 ^ 48) f, d)
  else if f = 0x18 then (k.errDesc % 65536 * 65536 + k.errDir % 2 * 256 + k.errCause % 16, d)
  else if f = 0x1C then (k.errDone, d)
  else if f = 0x24 then d.rcTake (0x580024 + 0x40 * n) k.missed fun m d => d.updChan n fun k => { k with missed := m }
  else if f = 0x28 then d.rcTake (0x580028 + 0x40 * n) k.bad fun m d => d.updChan n fun k => { k with bad := m }
  else (0, d)

/-- The words of the AON status page (R571). -/
def Dev.aonWord (d : Dev) (f : Nat) : Nat × Dev :=
  let m := d.mgmt
  if f = 0 then (m.word0, d)
  else if f = 4 then (m.takeovers, d)
  else if f = 8 then (m.supRestarts, d)
  else if f = 0xC then (m.coastMs, d)
  else if f = 0x10 || f = 0x14 then (half m.lastTakeover f, d)
  else if f = 0x18 || f = 0x1C then (half m.fatalAt f, d)
  else if f = 0x20 then (m.logProd, d)
  else if f = 0x24 then (m.logCons, d)
  else if f = 0x28 then d.rcTake 0x700028 m.logLost fun n d => d.updMgmt fun m => { m with logLost := n }
  else if 0x40 ≤ f && f < 0x40 + 4 * 37 then ((tget 0 m.trb ((f - 0x40) / 4)).toNat, d)
  else (0, d)

/-- One 32-bit word of a register at offset `w` of the device-register range, with what reading it does (R12). -/
def Dev.regWord (c : Clock) (d : Dev) (q : Requester) (w : Nat) : Nat × Dev :=
  if w < 0x21000 then ((d.postPort ((w - 0x20000) / 0x40)).word (w % 0x40), d)
  else if w < 0x22000 then d.cadWord c q (w % 0x1000)
  else if w < 0x440000 then d.portWord ((w - 0x400000) / 0x100) (w % 0x100)
  else if w < 0x441000 then d.pelTraceWord (w % 0x1000)
  else if w < 0x484000 then d.ringWord ((w - 0x480000) / 0x40) (w % 0x40)
  else if w < 0x502000 then d.probeWord ((w - 0x500000) / 0x100) (w % 0x100)
  else if w < 0x503000 then d.fabWord (w % 0x1000)
  else if w < 0x58A000 then d.chanWord ((w - 0x580000) / 0x40) (w % 0x40)
  else d.aonWord (w % 0x1000)

/-! ### Writes -/

/-- The value with one 32-bit half replaced. -/
def setHalf (old w v : Nat) : Nat :=
  if w / 4 % 2 = 0 then old / 2 ^ 32 * 2 ^ 32 + v % 2 ^ 32 else v % 2 ^ 32 * 2 ^ 32 + old % 2 ^ 32

/-- A field write of a post port (R93, R94). -/
def PostPort.put (q : PostPort) (f v : Nat) : PostPort :=
  if !q.done then q
  else if f < 8 then { q with trigger := setHalf q.trigger f v }
  else if f = 8 then { q with period := v }
  else if f = 0xC then { q with count := v }
  else if f = 0x10 then { q with flags := bits v 8 8, action := v % 256 }
  else if f = 0x14 then { q with target := v }
  else if 0x18 ≤ f && f < 0x20 then { q with arg := setHalf q.arg f v }
  else if f = 0x24 then { q with index := v % 2 ^ 13 }
  else q

/-- A write of a word of a Peloton port (R214). -/
def Dev.portPut (c : Clock) (d : Dev) (priv n f v : Nat) : Dev :=
  let k := d.core n
  if !k.portDone then d
  else if f = 0 then d.portWrite c n priv (bits v 24 4) (bit v 16) (v % 65536)
  else if f = 8 || f = 0xC then d.setCore n { k with argDl := setHalf k.argDl f v }
  else if f = 0x10 then d.setCore n { k with arg0 := v }
  else if f = 0x14 then d.setCore n { k with arg1 := v }
  else d

/-- The privilege with which a requester uses a Peloton port: its own for a core, M for PF0 and Breano. -/
def Requester.priv : Requester → Nat
  | .core _ p => p
  | _ => 2

/-- A write of one 32-bit word of a register (R7): RO bits and RC fields ignore it. -/
def Dev.regPut (c : Clock) (d : Dev) (q : Requester) (w v : Nat) : Dev :=
  if w < 0x21000 then
    let p := (w - 0x20000) / 0x40
    if w % 0x40 = 0x20 then d.portControl c p v else d.updPostPort p fun x => x.put (w % 0x40) v
  else if w < 0x22000 then d
  else if w < 0x440000 then d.portPut c q.priv ((w - 0x400000) / 0x100) (w % 0x100) v
  else if w < 0x441000 then (if w % 0x1000 = 4 then d.updPel fun p => { p with trcCons := v } else d)
  else if w < 0x484000 then
    (if w % 0x40 = 0 then d.ringDoorbell q.who q.priv ((w - 0x480000) / 0x40) (v % 65536) else d)
  else if w < 0x502000 then d
  else if w < 0x503000 then (if w % 0x1000 = 0x18 then d.updFab fun x => { x with trcCons := v } else d)
  else if w < 0x58A000 then
    let n := (w - 0x580000) / 0x40
    if w % 0x40 = 0 then d.ringProd n v (d.mayRing n q)
    else if w % 0x40 = 0x20 then d.ringResume c n (v % 4) (d.mayRing n q)
    else d
  else
    let f := w % 0x1000
    if f = 0x24 then d.updMgmt fun m => { m with logCons := v }
    else if f = 0x2C then d.restartWrite c (bits v 8 8) (bit v 0)
    else if 0x40 ≤ f then d.trbWrite ((f - 0x40) / 4) (v % 65536)
    else d

/-! ### One register access -/

/-- The target's access rule refuses the requester (R93, R141): a core at T but for its own Peloton port; what is neither a
core, PF0 nor Breano; and a write to a post port that is not assigned to its writer. -/
def Dev.regDenied (d : Dev) (q : Requester) (w : Nat) (write : Bool) : Bool :=
  (match q with
    | .core id 0 => !(0x400000 + 0x100 * id ≤ w && w < 0x400000 + 0x100 * id + 0x100)
    | .core _ _ => false
    | .pcie f => f != 0
    | .breano => false
    | _ => true) ||
  (write && 0x20000 ≤ w && w < 0x21000 && w % 0x40 < 0x2C && !d.mayPost ((w - 0x20000) / 0x40) q.who)

/-- PF0 through its windows (R48). -/
def Requester.isHost : Requester → Bool
  | .pcie 0 => true
  | _ => false

/-- A refused access is counted and logged (R10). -/
def Dev.logRefused (c : Clock) (d : Dev) (blk a rid : Nat) (write : Bool) : Dev :=
  d.log c blk trbREG 0x0F40 (pk [(6, a), (2, rid), (1, write.toNat)])

/-- All ones: what a read answers that finds no data (R10, R333). -/
def ones8 (n : Nat) : List Byte := List.replicate n 0xFF

/-- A read of `n` bytes of registers at device address `a`. An access that R10 refuses is logged whoever makes it; what R10 lets
pass, the target's access rule may deny. The manual gives no order between the two (log 141). -/
def Dev.regRead (c : Clock) (d : Dev) (q : Requester) (a n : Nat) : Resp × List Byte × Dev :=
  let w := a - 0x0300000000
  if !regPage a then (.decode, ones8 n, d)
  else if regAcc w n = .refused then (.denied, ones8 n, d.logRefused c (regBlock w) a (ridWord q.rid) false)
  else if d.regDenied q w false then (.denied, ones8 n, d)
  else match regAcc w n with
    | .reserved | .refused => (.done, le n 0, d)
    | .word => let r := d.regWord c q w; (.done, le 4 r.1, r.2)
    | .whole =>
      if w = 0x21000 then (.done, le 8 c.atc, d)
      else
        let lo := d.regWord c q w
        let hi := lo.2.regWord c q (w + 4)
        (.done, le 4 lo.1 ++ le 4 hi.1, hi.2)

/-- A write of `bs` to registers at device address `a`, refused and denied as a read is. -/
def Dev.regWrite (c : Clock) (d : Dev) (q : Requester) (a : Nat) (bs : List Byte) : Resp × Dev :=
  let w := a - 0x0300000000
  if !regPage a then (.decode, d)
  else if regAcc w bs.length = .refused then (.denied, d.logRefused c (regBlock w) a (ridWord q.rid) true)
  else if d.regDenied q w true then (.denied, d)
  else match regAcc w bs.length with
    | .reserved | .refused => (.done, d)
    | .word => (.done, d.regPut c q w (leVal bs))
    | .whole => (.done, (d.regPut c q w (leVal (bs.take 4))).regPut c q (w + 4) (leVal (bs.drop 4)))

/-! ### One access to any address -/

/-- What a tandem peer answers: its fabric response code and its data (R557). -/
structure Peer where
  resp : Nat := 0
  data : List Byte := []
  deriving DecidableEq, Repr

def Resp.ofCode : Nat → Resp
  | 0 => .done
  | 1 => .asleep
  | 2 => .decode
  | 3 => .poison
  | _ => .denied

/-- Requesters that may reach a tandem window (R556). -/
def Requester.window : Requester → Bool
  | .core _ p => 1 ≤ p
  | .breano => true
  | .mover n => moverOf n = 25
  | _ => false

/-- GATE_ASLEEP of the domain that does not answer (R339). -/
def Dev.gateAsleep (d : Dev) (a : Nat) : Dev :=
  match memDomain a with
  | some k => d.updGate k fun g => { g with asleep := satAdd 32 g.asleep 1 }
  | none => d

/-- A read of `n` bytes at device address `a` by `q`: the answer, its data and what it leaves (R333, R373). `cls` is the
requester class of R376. -/
def Dev.busRead (c : Clock) (d : Dev) (q : Requester) (a n cls : Nat) (peer : Peer) : Resp × List Byte × Dev :=
  match regionOf a with
  | .none => (.decode, ones8 n, d)
  | .host => (.done, readBytes d.host.mem (a - 0x4000000000) n, d.updHost fun h => h.fetch 0 (a - 0x4000000000) n)
  | .regs =>
    if inWindow a n then
      if !q.window || !d.windowOpen a then (.denied, ones8 n, d)
      else
        let r := Resp.ofCode peer.resp
        (r, if r = .done || r = .poison then (peer.data ++ ones8 n).take n else ones8 n, d)
    else d.regRead c q a n
  | _ =>
    if !inMemory a n then (.decode, ones8 n, d)
    else if !(memDomain a).all d.awake then (.asleep, ones8 n, d.gateAsleep a)
    else
      let r := d.memRead c a n cls (ridWord q.rid)
      (if r.2.1 then .poison else .done, r.1, r.2.2)

/-- An answered write of `bs` at device address `a` by `q` (R333, R374). -/
def Dev.busWrite (c : Clock) (d : Dev) (q : Requester) (a : Nat) (bs : List Byte) (peer : Peer) : Resp × Dev :=
  match regionOf a with
  | .none => (.decode, d)
  | .host => (.done, d.updHost fun h => h.store 0 (a - 0x4000000000) bs)
  | .regs =>
    if inWindow a bs.length then
      if !q.window || !d.windowOpen a then (.denied, d) else (Resp.ofCode peer.resp, d)
    else d.regWrite c q a bs
  | _ =>
    if !inMemory a bs.length then (.decode, d)
    else if !(memDomain a).all d.awake then (.asleep, d.gateAsleep a)
    else
      let r := d.memWrite a bs
      (if r.1 then .poison else .done, r.2)

end Sys2Proof.Machine
end

