-- ==== Sys2Proof/Machine/SignalCore.lean ====
section
/-! DEFINITION. The signal core (chapter 04): decode checks, the issue of a bundle, traps and their return, and memory as a
core sees it. The syllables' meanings stand in Scalar, VectorOps and CopOps, events and commands in CoreEvents. -/
namespace Sys2Proof.Machine

/-! ### Traps (R142-R144, R151) -/

/-- The core halts (R151): it stops issuing, is reported, and leaves its pool as a prompt resize does (R229). -/
def Dev.haltCore (c : Clock) (d : Dev) (id cause pc : Nat) : Dev :=
  let d := d.updCore id fun k => { k with st := .halted, stalled := none, waiting := false }
  let d := d.evtLog c 0 0 0x0480 0 (id / 64) trbHALT [(0, 2, id), (2, 1, cause), (4, 4, pc)]
  d.loseCore c id

/-- Trap entry for the state `k` of core `id`, whose next bundle is `k.n` (R143): cause and EADDR as given, and what the
exception writes once the older bundles have completed; a trap in M with TE = 0 is a double fault. -/
def Dev.trap (c : Clock) (d : Dev) (id : Nat) (k : Core) (cause eaddr : Nat) (after : Core → Core := fun k => k) : Dev :=
  let k := after (k.drained id c)
  if k.priv = 2 && !k.te then (d.setCore id k).haltCore c id cause k.pc
  else
    let toM := k.priv != 0
    let taken := k.ds.any (·.taken)
    let t := if toM then k.mt else k.k
    let t : TrapSet :=
      { t with
        epc := BitVec.ofNat 32 k.pc, cause := BitVec.ofNat 32 cause, eaddr := eaddr
        status := BitVec.ofNat 32 (k.status k.ds.isSome)
        dscTgt := match k.ds with
          | some x => if x.taken then BitVec.ofNat 32 x.target else t.dscTgt
          | none => t.dscTgt
        dscCtl := match k.ds with
          | some x => if taken then BitVec.ofNat 32 (4 + x.remain) else t.dscCtl &&& 3
          | none => t.dscCtl &&& 3
        rep := k.rep, rrb := k.rrb }
    let k := if toM then { k with mt := t } else { k with k := t }
    d.setCore id
      { k with
        priv := if toM then 2 else 1, ie := false, te := if toM then false else k.te
        rep := {}, repEnd := false, ds := none, pc := t.tvec.toNat, stalled := none, copWait := false, waiting := false
        lost := true }

/-- The state after RFE (R144): none where it would raise PRIV, which is the PRIV exception. -/
def Core.rfe (k : Core) : Option Core :=
  if k.priv = 0 then none
  else
    let t := if k.priv = 2 then k.mt else k.k
    let s := t.status.toNat
    if k.priv < s % 4 then none
    else some
      { k with
        te := bit s 3, ie := bit s 2, priv := s % 4, rrb := t.rrb
        rep := if t.rep.cnt = 0 then { k.rep with cnt := 0, rot := false } else t.rep
        ds := if bit t.dscCtl.toNat 2 && t.dscCtl.toNat % 4 != 0 then
            some { target := t.dscTgt.toNat, taken := true, annul := false, remain := t.dscCtl.toNat % 4 } else none
        pc := t.epc.toNat }

/-! ### Decode checks (R114, R115, R123, R124, R126, R138, R160, R163, R176, R188, R198) -/

def isVec : Syl → Bool
  | .vv _ _ _ _ _ _ => true
  | .vs _ _ _ _ _ _ => true
  | .vx _ _ _ _ _ _ => true
  | .vrsum _ _ _ _ => true
  | _ => false

def isVmem : Syl → Bool
  | .vld _ _ _ _ _ _ => true
  | .vst _ _ _ _ _ _ => true
  | .vlds _ _ _ _ _ => true
  | .vsts _ _ _ _ _ => true
  | .vgath _ _ _ _ _ => true
  | .vscat _ _ _ _ _ => true
  | _ => false

def isCop : Syl → Bool
  | .cop0 _ _ _ _ => true
  | .cop1 _ _ _ _ => true
  | .cop2 _ _ _ _ => true
  | .cop3 _ _ _ => true
  | .copst _ _ _ => true
  | _ => false

def isCtl : Syl → Bool
  | .br _ _ _ => true
  | .jr _ _ => true
  | .rep _ _ _ _ _ => true
  | .rfe => true
  | .wait => true
  | _ => false

/-- The syllable is a defined one with legal operands. Sub-codes the manual does not list are illegal (log 16). -/
def Core.legal (k : Core) (s : Syl) : Bool :=
  if (isVec s || isVmem s) then bit k.imgFlags 0 && k.vLegal s
  else if isCop s then
    bit k.imgFlags 1 &&
    match s with
    | .cop0 fn _ _ _ => fn < 8
    | .cop1 fn _ _ _ => fn < 8
    | .cop2 fn _ _ _ => fn < 4
    | .cop3 sd mxu sub => sd % 2 = 0 && !(mxu && sub = 0)
    | _ => true
  else match s with
    | .illegal => false
    | .alu .add _ _ _ _ => true
    | .alu .sub _ _ _ _ => true
    | .alu .shl _ _ _ sub => sub ≤ 1
    | .alu .shr _ _ _ sub => sub ≤ 2
    | .alu .maxi d _ _ sub => d % 2 = 0 && sub ≤ 1
    | .alu .mini d _ _ sub => d % 2 = 0 && sub ≤ 1
    | .alu _ _ _ _ sub => sub = 0
    | .cmp _ cond _ _ => cond < 8
    | .csr _ _ a => (csrPerm a).isSome && (!(0x090 ≤ a && a ≤ 0x094) || bit k.imgFlags 0)
    | .ld 8 s _ _ _ _ => s % 2 = 0
    | .st 8 s _ _ _ => s % 2 = 0
    | .pset _ s => s % 2 = 0
    | .pget s _ => s % 2 = 0
    | .acc .mac _ _ _ sub => sub ≤ 2
    | .mul _ _ _ sub => sub ≤ 1
    | .mva _ _ form => form ≤ 2
    | _ => true

/-- The syllable needs more privilege than the core has (R138, R141). -/
def Core.privFault (k : Core) : Syl → Bool
  | .csr op _ a =>
    match csrPerm a with
    | some (rd, wr) =>
      if op = .r then k.priv < rd
      else match wr with
        | some w => k.priv < w
        | none => k.priv < rd
    | none => false
  | .rfe => k.rfe.isNone
  | _ => false

/-- Two lists of registers have one in common. -/
def clash (a b : List Reg) : Bool := a.any b.contains

/-- The next bundle is a delay bundle of an untaken branch with A = 1 (R122). -/
def Core.annulled (k : Core) : Bool := k.ds.any fun x => x.annul && !x.taken

/-- The decode exception of a bundle, if any. The manual gives no order among them; the model takes the lowest cause
code (log 15). -/
def Core.decodeExc (k : Core) (b : Bundle) (annulled busyV : Bool) : Option Nat :=
  let ss := [b.x.2, b.l0.2, b.l1.2, b.v.2]
  let w := ss.map k.writes
  let ctlInDs := k.ds.isSome && isCtl b.x.2
  if annulled then (if ctlInDs then some 0x0B else none)
  else if !(ss.all k.legal) then some 0x01
  else if clash (w.getD 0 []) (w.getD 1 []) || clash (w.getD 0 []) (w.getD 2 []) || clash (w.getD 0 []) (w.getD 3 []) ||
      clash (w.getD 1 []) (w.getD 2 []) || clash (w.getD 1 []) (w.getD 3 []) || clash (w.getD 2 []) (w.getD 3 []) ||
      (isVmem b.l0.2 && isVmem b.l1.2) then some 0x02
  else if ss.any k.privFault then some 0x03
  else if 0 < k.rep.cnt && isCtl b.x.2 then some 0x0A
  else if ctlInDs then some 0x0B
  else if busyV && b.v.2 != .nop then some 0x0C
  else none

/-! ### Memory as a core sees it (R121, R141, R146, R180) -/

def inLdm (a n : Nat) : Bool := a + n ≤ 0x40000
def inIm (a n : Nat) : Bool := 0x100000 ≤ a && a + n ≤ 0x120000
def portBase (id : Nat) : Nat := 0x0300400000 + 0x100 * id
def inPorts (a : Nat) : Bool := 0x0300400000 ≤ a && a < 0x0300440000

/-- R141: the access is allowed at the core's privilege. -/
def Core.allowed (k : Core) (id a n : Nat) (store : Bool) : Bool :=
  if inLdm a n then true
  else if inIm a n then !store || k.priv = 2
  else if k.priv != 0 then true
  else if 0x0300000000 ≤ a && a ≤ 0x03FFFFFFFF then portBase id ≤ a && a + n ≤ portBase id + 0x100
  else (List.range 8).any fun r =>
    tget 0 k.prbase r * 65536 ≤ a && a + n ≤ (tget 0 k.prlim r + 1) * 65536 &&
    tget 0 k.prbase r ≤ tget 0 k.prlim r && bit k.prperm.toNat (2 * r + store.toNat)

/-- The stored pieces of an entry, in element order. -/
def BufStore.pieces (e : BufStore) : List (Nat × List Byte) := (e.addr, e.bytes) :: e.more

/-- What an entry stores to address `a`: its last piece there. -/
def BufStore.byteAt (e : BufStore) (a : Nat) : Option Byte :=
  e.pieces.foldl (fun o p => if p.1 ≤ a && a < p.1 + p.2.length then some (p.2.getD (a - p.1) 0) else o) none

/-- The runs of neighbouring bytes an entry stores, lowest first; they lie in one 128-byte block (R181). -/
def BufStore.runs (e : BufStore) : List (Nat × List Byte) :=
  if e.more.isEmpty then [(e.addr, e.bytes)]
  else (List.range 128).foldr (fun o l =>
    let a := e.addr / 128 * 128 + o
    match e.byteAt a, l with
    | none, l => l
    | some b, [] => [(a, [b])]
    | some b, r :: rs => if r.1 = a + 1 then (a, b :: r.2) :: rs else (a, [b]) :: r :: rs) []

/-- The bytes of a load with the core's own buffered stores over them, byte-exact (R146). -/
def overlay (buf : List BufStore) (a : Nat) (bs : List Byte) : List Byte :=
  buf.foldl (fun bs e => (List.range bs.length).map fun i => (e.byteAt (a + i)).getD (bs.getD i 0)) bs

/-- What came of a load. -/
inductive LoadRes where
  | ok (bs : List Byte)
  | fault       -- protection, DECODE, ASLEEP or DENIED
  | ue          -- uncorrectable
  | stall       -- far, and not yet answered
  deriving DecidableEq, Repr

/-- A load of `n` bytes at `a` by core `id` in state `k`: local at once, far when the fabric has `answered`. -/
def Dev.coreLoad (c : Clock) (d : Dev) (id : Nat) (k : Core) (a n cls : Nat) (ans : Option Peer) : LoadRes × Dev :=
  if !k.allowed id a n false then (.fault, d)
  else if inLdm a n then
    let r := d.memRead c (ldmKey id a) n cls id
    (if r.2.1 then .ue else .ok r.1, r.2.2)
  else if inIm a n then
    let r := d.memRead c (imKey id (a - 0x100000)) n cls id
    (if r.2.1 then .ue else .ok (overlay k.wbuf a r.1), r.2.2)
  else if ans.isNone || (inPorts a && !k.wbuf.isEmpty) then (.stall, d)
  else
    let r := d.busRead c (.core id k.priv) a n cls (ans.getD {})
    match r.1 with
    | .done => (.ok (overlay k.wbuf a r.2.1), r.2.2)
    | .poison => (.ue, r.2.2)
    | _ => (.fault, r.2.2)

/-! ### The issue of a bundle -/

/-- A bundle under execution: the state its syllables read stays apart; this collects what it does. -/
structure Acc where
  d : Dev
  k : Core
  /-- stores in order: those to LDM act at commit, the others enter the write buffer -/
  stores : List BufStore := []
  /-- cause and EADDR of the first exception -/
  exc : Option (Nat × Nat) := none
  /-- a faulting vector memory operation (R183): the core with its completed elements, their stores, and what it leaves in
  VSTART and VFCAUSE -/
  part : Option (Core × List BufStore × (Core → Core)) := none
  stall : Bool := false
  /-- the stall is that of a coprocessor syllable (R192) -/
  copStall : Bool := false
  /-- PC of the next bundle, when not the sequential one -/
  next : Option Nat := none

def Acc.go (x : Acc) : Bool := x.exc.isNone && !x.stall

/-- A write of latency `l` by the bundle now issuing. -/
def Acc.put (x : Acc) (k : Core) (l : Nat) (ops : List FlyOp) : Acc :=
  { x with k := x.k.addFly (ops.map fun o => ⟨k.n + l, o, k.n⟩) }

def Acc.putS (x : Acc) (k : Core) (l n : Nat) (v : Word) : Acc := x.put k l [.s (mapS k.rrb n) v]

/-- Slot X. `k` is the state the bundle reads. -/
def execX (c : Clock) (id : Nat) (k : Core) (x : Acc) : Syl → Acc
  | .alu op d a b sub =>
    if op = .maxi || op = .mini then
      x.put k 2 [.search (mapS k.rrb d) (mapS k.rrb (d + 1)) (op = .maxi) (sub = 1) (k.rs a) (k.rs b)]
    else x.putS k 1 d (aluResult op sub (k.rs a) (k.rs b))
  | .addi d a imm => x.putS k 1 d (k.rs a + BitVec.ofInt 32 (sgn 8 imm))
  | .movi d imm => x.putS k 1 d (BitVec.ofInt 32 (sgn 14 imm))
  | .movl d lit => x.putS k 1 d (BitVec.ofNat 32 lit)
  | .cmp qd cond a b => x.put k 1 [.q (mapQ k.rrb qd) (condHolds cond (k.rs a) (k.rs b))]
  | .br call annul off =>
    let x := if call then x.putS k 1 31 (BitVec.ofNat 32 (k.pc + 64)) else x
    { x with k := { x.k with ds := some { target := uns 32 ((k.pc : Int) + 16 * sgn 19 off), taken := true
                                          annul := annul, remain := 3 } } }
  | .jr annul a =>
    { x with k := { x.k with ds := some { target := bits (k.rsN a) 4 13 * 16, taken := true, annul := annul
                                          remain := 3 } } }
  | .rep len rot stg ci cnt =>
    let count := if ci then cnt else k.rsN cnt
    let i := if count = 0 then 0 else if rot then count + stg - 1 else count
    if k.repmax < count || k.repmax < i then { x with exc := some (0x09, 0) }
    else if i = 0 then { x with next := some (k.pc + 16 * (len + 1)) }
    else
      let k' := { x.k with rep := { start := k.pc + 16, last := k.pc + 16 * len, cnt := i, rot := rot, count := count
                                    j := 0 } }
      let k' := if rot then
          ((List.range 7).foldl (fun q i => Core.setQ q (mapQ k.rrb (9 + i)) false) k').setQ (mapQ k.rrb 8) true
        else k'
      { x with k := k' }
  | .csr op reg a =>
    if op = .r then
      let st := if (a = 0x0C1 || a = 0x0C2) && k.lost then draw x.d else (0, x.d)
      let x := { x with d := st.2 }
      let x := if a = 0x0C1 || a = 0x0C2 then { x with k := { x.k with cycle := (x.k.cycle + st.1) % 2 ^ 64, lost := false } }
        else if a = 0x0C3 then { x with k := { x.k with atcHi := some (c.atc / 2 ^ 32) } } else x
      x.putS k 1 reg (BitVec.ofNat 32 ({ k with cycle := x.k.cycle }.csrRead id c a))
    else x.put k 2 [.csr op a k.priv (k.rs reg)]
  | .fenceW => if k.wbuf.isEmpty then x else { x with stall := true }
  | .scadj => { x with k := x.k.adjustPoint k.n k.n }
  | .wait => if k.evpend &&& k.evmask != 0 || x.d.preReq id then x else { x with k := { x.k with waiting := true } }
  | .trap code => { x with exc := some (0x10, code) }
  | .brk => { x with exc := some (0x11, 0) }
  | .rfe =>
    match k.rfe with
    | some r =>
      { x with k := { x.k with te := r.te, ie := r.ie, priv := r.priv, rrb := r.rrb, rep := r.rep, ds := r.ds }
               next := some r.pc }
    | none => { x with exc := some (0x03, 0) }
  | _ => x

/-- log2 of an access size. -/
def szLog (n : Nat) : Nat := n.log2

/-- The pointer update of a MEM-format access. -/
def Acc.ptr (x : Acc) (k : Core) (p m am a : Nat) : Acc :=
  if am = 0 then x else x.put k 1 [.p p (k.ptrNext p m am a)]

/-- A scalar load. -/
def loadSyl (c : Clock) (id : Nat) (k : Core) (x : Acc) (ans : Option Peer) (a n s : Nat) (sx : Bool) : Acc :=
  if a % n != 0 then { x with exc := some (0x04, a) }
  else
    let r := x.d.coreLoad c id k a n rqScalar ans
    let x := { x with d := r.2 }
    match r.1 with
    | .ok bs =>
      let v := leVal bs
      if n = 8 then x.put k 4 [.s (mapS k.rrb s) (BitVec.ofNat 32 v), .s (mapS k.rrb (s + 1)) (BitVec.ofNat 32 (v / 2 ^ 32))]
      else x.putS k 4 s (if sx then BitVec.ofInt 32 (sgn (8 * n) v) else BitVec.ofNat 32 v)
    | .fault => { x with exc := some (0x05, a) }
    | .ue => { x with exc := some (0x08, a) }
    | .stall => { x with stall := true }

/-- A scalar store. -/
def storeSyl (id : Nat) (k : Core) (x : Acc) (a n v : Nat) : Acc :=
  if a % n != 0 then { x with exc := some (0x04, a) }
  else if !k.allowed id a n true then { x with exc := some (0x06, a) }
  else if inPorts a && !k.wbuf.isEmpty then { x with stall := true }
  else { x with stores := x.stores ++ [{ addr := a, bytes := le n v }] }

/-! #### Vector memory (R176-R184) -/

/-- The element addresses a vector memory syllable names. -/
def vaddr (k : Core) : Syl → Nat → Nat
  | .vld raw _ p m am _, i => wrap48 (k.ea p m am + i * (if raw then 1 else vtWidth k.vt / 8))
  | .vst raw _ p m am _, i => wrap48 (k.ea p m am + i * (if raw then 1 else vtWidth k.vt / 8))
  | .vlds _ p m _ _, i => wrap48 (k.rp p + i * k.rm m)
  | .vsts _ p m _ _, i => wrap48 (k.rp p + i * k.rm m)
  | .vgath _ p vi _ sc, i => wrap48 (k.rp p + sgn 32 (k.elem k.rrb vi 32 i) * 2 ^ sc)
  | .vscat _ p vi _ sc, i => wrap48 (k.rp p + sgn 32 (k.elem k.rrb vi 32 i) * 2 ^ sc)
  | _, _ => 0

/-- The cause for which element address `a` may not be accessed: 1 PROT, 2 ALIGN, 3 RANGE (R180, R183). -/
def vElemFault (k : Core) (id : Nat) (gs store : Bool) (a n : Nat) : Option Nat :=
  if !k.allowed id a n store then some 1
  else if a % n != 0 then some 2
  else if 0x0300000000 ≤ a && a ≤ 0x03FFFFFFFF then some 3
  else if gs && !inLdm a n && regionOf a != .cluster (id / 64) then some 3
  else none

/-- Join a stored element to the run of ascending active elements it continues: one entry of the write buffer for each
run inside one 128-byte block (R181). -/
def addRun (runs : List BufStore) (a : Nat) (bs : List Byte) : List BufStore :=
  match runs.getLast? with
  | some r =>
    if r.addr / 128 = a / 128 && !inLdm a 1 then
      runs.dropLast ++ [if r.more.isEmpty && r.addr + r.bytes.length = a then { r with bytes := r.bytes ++ bs }
        else { r with more := r.more ++ [(a, bs)] }]
    else runs ++ [{ addr := a, bytes := bs }]
  | none => runs ++ [{ addr := a, bytes := bs }]

/-- How the elements of a vector memory operation went: device, loaded elements (number and value), stores, and the
first fault (element, cause, address), or a stall. -/
structure VRes where
  d : Dev
  loads : List (Nat × Nat) := []
  stores : List BufStore := []
  fault : Option (Nat × Nat × Nat) := none
  stall : Bool := false

/-- Elements in ascending order until one faults (R182, R183). -/
def vElems (c : Clock) (id : Nat) (k : Core) (syl : Syl) (store gs : Bool) (ans : Option Peer) (w : Nat) (src : Nat → Nat)
    (act : Nat → Bool) : List Nat → VRes → VRes
  | [], r => r
  | i :: is, r =>
    if !act i then vElems c id k syl store gs ans w src act is r
    else
      let a := vaddr k syl i
      let n := w / 8
      match vElemFault k id gs store a n with
      | some f => { r with fault := some (i, f, a) }
      | none =>
        if store then
          vElems c id k syl store gs ans w src act is { r with stores := addRun r.stores a (le n (src i)) }
        else
          let l := r.d.coreLoad c id k a n rqVector ans
          match l.1 with
          | .ok bs => vElems c id k syl store gs ans w src act is
              { r with d := l.2, loads := r.loads ++ [(i, leVal bs)] }
          | .ue => { r with d := l.2, fault := some (i, 4, a) }
          | .fault => { r with d := l.2, fault := some (i, 5, a) }
          | .stall => { r with d := l.2, stall := true }

/-- Writes of the elements a load of bundle `n` has read into the group at V`v` (R178). -/
def loadFly (n rrb v w : Nat) (ls : List (Nat × Nat)) : List Fly :=
  ls.map fun l => ⟨n + 4, .v (mapV rrb ((v + l.1 * w / 4096) % 32)) (l.1 * w % 4096) (l.2 % 2 ^ w) (2 ^ w - 1), n⟩

/-- The cycles of a memory phase (R179): `cnt` elements from VSTART on, of which `act` are active, of width `w`; none where the
manual gives no number. -/
def phaseCycles (k : Core) (syl : Syl) (cnt : Nat) (act : List Nat) (w : Nat) : Option Nat :=
  let as := act.map (vaddr k syl)
  let unit := match syl with
    | .vld _ _ _ _ _ _ => true
    | .vst _ _ _ _ _ _ => true
    | _ => false
  if unit then
    if as.all fun a => inLdm a (w / 8) || inIm a (w / 8) then some (max 1 (as.map (· / 512)).eraseDups.length) else none
  else if as.all fun a => inLdm a (w / 8) then some (max 1 (cdiv cnt 16)) else none

/-- A vector memory syllable: data register, mask bit, pointer and update. -/
def vmem (c : Clock) (id : Nat) (k : Core) (x : Acc) (ans : Option Peer) (syl : Syl) : Acc :=
  let f : Bool × Bool × Bool × Nat × Bool × Option (Nat × Nat × Nat) := match syl with
    | .vld raw v p m am msk => (false, false, raw, v, msk, some (p, m, am))
    | .vst raw v p m am msk => (true, false, raw, v, msk, some (p, m, am))
    | .vlds v _ _ _ msk => (false, false, false, v, msk, none)
    | .vsts v _ _ _ msk => (true, false, false, v, msk, none)
    | .vgath v _ _ msk _ => (false, true, false, v, msk, none)
    | .vscat v _ _ msk _ => (true, true, false, v, msk, none)
    | _ => (false, false, false, 0, false, none)
  let (store, gs, raw, v, msk, upd) := f
  let w := if raw then 8 else vtWidth k.vt
  let n := if raw then 512 else min k.vl k.vlmax
  let v0 := tget 0 k.v 0
  let src := fun i => k.elem k.rrb v w i
  let r := vElems c id k syl store gs ans w src (actv n v0 msk)
    ((List.range n).drop k.vstart) { d := x.d }
  let x := { x with d := r.d }
  if r.stall then { x with stall := true }
  else match r.fault with
    | some (e, cause, a) =>
      { x with exc := some (0x0D, a)
               part := some (k.addFly (loadFly k.n k.rrb v w r.loads), r.stores, fun k =>
                 { k with vstart := e, vstat := (k.vstat &&& 0xF0FFFFFF) ||| BitVec.ofNat 32 (cause * 2 ^ 24) }) }
    | none =>
      let x := match phaseCycles k syl (n - k.vstart) ((List.range n).drop k.vstart |>.filter (actv n v0 msk)) w with
        | some p => { x with k := { x.k with cycle := (x.k.cycle + p - 1) % 2 ^ 64 } }
        | none => { x with k := { x.k with lost := true } }
      let x := { x with k := { (x.k.addFly (loadFly k.n k.rrb v w r.loads)) with vstart := 0 }
                        stores := r.stores.foldl (fun s e => s ++ [e]) x.stores }
      match upd with
      | some (p, m, am) => x.ptr k p m am (if raw then 0 else szLog (w / 8))
      | none => x

/-- Slots L0 and L1. -/
def execL (c : Clock) (id : Nat) (k : Core) (ans : Option Peer) (x : Acc) : Syl → Acc
  | .ld n s p m am sx =>
    let x := loadSyl c id k x ans (k.ea p m am) n s sx
    if x.go then x.ptr k p m am (szLog n) else x
  | .st n s p m am =>
    let v := k.rsN s + (if n = 8 then k.rsN (s + 1) * 2 ^ 32 else 0)
    let x := storeSyl id k x (k.ea p m am) n v
    if x.go then x.ptr k p m am (szLog n) else x
  | .ldwD s p disp => loadSyl c id k x ans (wrap48 (k.rp p + 4 * sgn 10 disp)) 4 s false
  | .stwD s p disp => storeSyl id k x (wrap48 (k.rp p + 4 * sgn 10 disp)) 4 (k.rsN s)
  | .padd pd pa s => x.put k 1 [.p pd (wrap48 (k.rp pa + (k.rs s).toInt))]
  | .pmod p m am => x.ptr k p m am 0
  | .pset pd s => x.put k 1 [.p pd (k.rsN s + k.rsN (s + 1) % 65536 * 2 ^ 32)]
  | .pget s p => x.put k 1 [.s (mapS k.rrb s) (BitVec.ofNat 32 (k.rp p)),
      .s (mapS k.rrb (s + 1)) (BitVec.ofNat 32 (k.rp p / 2 ^ 32))]
  | .mset md s => x.put k 1 [.m md (k.rs s)]
  | .nop => x
  | s => if isVmem s then vmem c id k x ans s else x

/-! #### Coprocessor syllables (R188-R199) -/

def Core.unit (k : Core) (mxu : Bool) : List CopCmd := if mxu then k.mxu else k.sfu
def Core.setUnit (k : Core) (mxu : Bool) (l : List CopCmd) : Core := if mxu then { k with mxu := l } else { k with sfu := l }

/-- The unit is enabled at the core's privilege (R197). -/
def Core.copEnabled (k : Core) (mxu : Bool) : Bool := bit k.copen.toNat (4 * mxu.toNat + k.priv)

/-- A slot for a new command: free, to come free by itself, free once the pop that commits at bundle `n` has, or none but by
a pop (R192). -/
inductive SlotSt where
  | free | wait | full
  | popping (n : Nat)
  deriving DecidableEq, Repr

/-- The first bundle at which a pop of a command of the unit commits. -/
def Core.popAt (k : Core) (mxu block : Bool) : Option Nat :=
  let ns := k.fly.filterMap fun f => match f.op with
    | .popped u cmd _ =>
      if u = mxu && (k.unit mxu).any (fun c => c.issued = cmd && c.block = block) then some f.land else none
    | _ => none
  ns.foldl (fun o n => some (o.elim n (min n))) none

/-- A slot is held until the pop of its entry commits (R185). -/
def Core.slotState (k : Core) (mxu block : Bool) : SlotSt :=
  let held := (k.unit mxu).filter fun c => c.block = block
  if held.length < (if block then 2 else 4) then .free
  else match k.popAt mxu block with
    | some n => .popping n
    | none => if held.any fun c => c.stage != .done then .wait else .full

/-- The core waits in E1 until bundle `n` would issue: what commits by then has, and COPSTALL counts the cycles (R192). -/
def Acc.waitTo (x : Acc) (id : Nat) (c : Clock) (k : Core) (n : Nat) : Acc :=
  let k' := x.k.copCommit id c n
  { x with k := { k' with copstall := (k'.copstall + (n - k.n)) % 2 ^ 32, cycle := (k'.cycle + (n - k.n)) % 2 ^ 64 } }

/-- Issue a command into a unit, or stall, or COP_DISABLED (R192, R198). -/
def copIssue (c : Clock) (id : Nat) (k : Core) (x : Acc) (mxu : Bool) (cmd : CopCmd) : Acc :=
  let send := fun (x : Acc) => { x with k := x.k.setUnit mxu (x.k.unit mxu ++ [{ cmd with issued := k.n }]) }
  if !k.copEnabled mxu then { x with exc := some (0x0E, mxu.toNat) }
  else match k.slotState mxu cmd.block with
    | .free => send x
    | .popping n => send (x.waitTo id c k n)
    | .wait => { x with stall := true, copStall := true }
    | .full => { x with exc := some (0x0E, mxu.toNat + 2) }

/-- The oldest entry of a queue that no issued pop has claimed: finished, and none older of its kind is not (R185, R194). -/
def firstReady (block : Bool) (l : List CopCmd) : Option CopCmd :=
  match l.find? fun c => c.block = block && !c.claimed with
  | some c => if c.stage = .done then some c else none
  | none => none

/-- Bundles from the issue of a coprocessor syllable to its commit: E1 to W (R194). -/
def copLat : Nat := 4

def execCop (c : Clock) (id : Nat) (k : Core) (x : Acc) : Syl → Acc
  | .cop0 fn sa sb tag =>
    copIssue c id k x false { block := false, fn := fn, a := k.rsN sa, b := k.rsN sb, ctl := 0, tag := tag, stage := .waiting }
  | .cop1 fn ps pd sc =>
    copIssue c id k x false { block := true, fn := fn, a := k.rp ps, b := k.rp pd, ctl := k.rsN sc
                              tag := k.rsN sc / 65536, stage := .waiting }
  | .cop2 fn ps pd sc =>
    copIssue c id k x true { block := true, fn := fn, a := k.rp ps, b := k.rp pd, ctl := k.rsN sc
                             tag := k.rsN sc / 65536, stage := .waiting }
  | .cop3 sd mxu sub =>
    if !k.copEnabled mxu then { x with exc := some (0x0E, mxu.toNat) }
    else if sub < 2 then
      match firstReady (sub = 1) (k.unit mxu) with
      | some e =>
        let x := { x with k := x.k.setUnit mxu ((x.k.unit mxu).map fun (y : CopCmd) =>
          if y.issued = e.issued then { y with claimed := true } else y) }
        let v := if sub = 0 then (e.result, e.flags % 256 * 65536 + e.tag % 65536) else (e.tag, e.result)
        (x.put k 2 [.s (mapS k.rrb sd) (BitVec.ofNat 32 v.1), .s (mapS k.rrb (sd + 1)) (BitVec.ofNat 32 v.2)]).put k copLat
          [.popped mxu e.issued e.flags]
      | none => x.put k 2 [.s (mapS k.rrb sd) 0, .s (mapS k.rrb (sd + 1)) 0xFFFFFFFF]
    else if sub = 2 then
      if (k.unit mxu).all fun e => e.stage = .done then
        let last := k.fly.foldl (fun m f => match f.op with
          | .popped u _ _ => if u = mxu then max m f.land else m
          | .discard u => if u = mxu then max m f.land else m
          | _ => m) k.n
        if last = k.n then x else x.waitTo id c k last
      else { x with stall := true, copStall := true }
    else x.put k copLat [.discard mxu]
  | .copst qd mxu test =>
    if !k.copEnabled mxu then { x with exc := some (0x0E, mxu.toNat) }
    else
      let v := if test = 0 then !mxu && k.slotState mxu false = .free
        else if test = 1 then k.slotState mxu true = .free
        else (firstReady (test = 3) (k.unit mxu)).isSome
      x.put k 1 [.q (mapQ k.rrb qd) v]
  | _ => x

/-- Slot V. A vector syllable takes the slot for its beats even where its guard is false (R163). -/
def execV (c : Clock) (id : Nat) (k : Core) (x : Acc) : Syl → Acc
  | .acc op an a b sub =>
    let av := k.rsN a
    let bv := k.rsN b
    match op with
    | .mac =>
      let p := sgn 16 av * sgn 16 bv
      x.put k 3 [.acc an (sub = 2) (some (if sub = 1 then -p else p)) none]
    | .cmac =>
      let p := product 3 (sub = 1) av bv
      let s : Int := if sub = 3 then -1 else 1
      x.put k 3 [.acc an (sub = 2) (some (s * p.1)) (some (s * p.2))]
    | .aclr => x.put k 3 [.acc an true (some 0) (some 0)]
  | .mul d a b sub =>
    let p := (k.rs a).toInt * (k.rs b).toInt
    x.putS k 3 d (BitVec.ofInt 32 (if sub = 0 then p else p / (2 ^ 32 : Int)))
  | .mva d an form =>
    let v := k.ra an
    let r := mvaResult form v.1 v.2 (sclScale k.scl) (sclHead k.scl)
    let x := x.putS k 2 d r.1
    if r.2 then x.put k 2 [.grow] else x
  | .vx .setvl s _ s2 _ _ =>
    let v := min (k.rsN s2) k.vlmax
    x.put k 1 [.vl v, .s (mapS k.rrb s) (BitVec.ofNat 32 v)]
  | s => if isCop s then execCop c id k x s else x

/-- A branch whose guard is false: with A = 1 its three delay bundles are annulled (R122). -/
def untaken (x : Acc) : Syl → Acc
  | .br _ annul _ =>
    { x with k := { x.k with ds := some { target := 0, taken := false, annul := annul, remain := 3 } } }
  | .jr annul _ => { x with k := { x.k with ds := some { target := 0, taken := false, annul := annul, remain := 3 } } }
  | _ => x

/-- A store to LDM acts at commit; a partial store to a poisoned LDM word is dropped, latched and pends STORE_ERR
(R146, R374). -/
def Dev.commitLocal (c : Clock) (d : Dev) (id : Nat) (st : BufStore) : Dev :=
  let r := d.memWrite (ldmKey id st.addr) st.bytes
  if r.1 then r.2.updCore id fun k => { k.pend c 0x80000000 with serr := st.addr } else r.2

/-- A store to LDM is not buffered; a store to any other address, IM included, is (R146). -/
def isLocal (st : BufStore) : Bool := inLdm st.addr st.bytes.length

/-- A store enters the write buffer, or waits for room in it (R146). -/
def Core.buffer (k : Core) (st : BufStore) : Core :=
  if k.spill.isEmpty && k.wbuf.length < 8 then { k with wbuf := k.wbuf ++ [st] } else { k with spill := k.spill ++ [st] }

/-- Stores to LDM are written and the others enter the write buffer. -/
def Dev.commitStores (c : Clock) (d : Dev) (id priv : Nat) (sts : List BufStore) : Dev :=
  sts.foldl (fun d st => if isLocal st then d.commitLocal c id st
    else d.updCore id fun k => k.buffer { st with priv := priv }) d

/-- The interrupt that is due at the next boundary of core `id` (R127, R142, R148, R221): PREEMPT before EVENT. -/
def Dev.intDue (d : Dev) (id : Nat) : Option Nat :=
  let k := d.core id
  if !k.ie || !k.boundary then none
  else if d.preReq id && !k.preTaken && k.thread.any fun t => d.tFlag t 1 && !d.tFlag t 0 then some 0x80
  else if k.evpend &&& k.evmask != 0 then some 0x81
  else none

/-- The core may issue: running, awake, not waiting, not stalled on a full write buffer (R146), not halted for its self-test,
and with no thread that has to leave (R221). -/
def Dev.canRun (d : Dev) (id : Nat) : Bool :=
  let k := d.core id
  id < 1024 && k.st = .running && !k.waiting && k.spill.isEmpty && !k.bist && d.awake (id / 64) && d.leaving id = .stay

/-- It may, and no interrupt is to be taken first. -/
def Dev.canIssue (d : Dev) (id : Nat) : Bool := d.canRun id && (d.intDue id).isNone

/-- The core before a bundle issues: at its boundary, and what a wait for a coprocessor has cost counted (R192). -/
def Dev.beforeIssue (d : Dev) (id : Nat) : Core × Dev :=
  let k := { (d.core id).settled with stalled := none, copWait := false }
  if (d.core id).copWait then
    let f := draw d
    ({ k with copstall := (k.copstall + 1 + f.1) % 2 ^ 32 }, f.2)
  else (k, d)

/-- The fetch of the bundle at `k.pc` (R122, R142): an exception's cause, if any. An annulled bundle is not accessed. -/
def Dev.fetch (c : Clock) (d : Dev) (id : Nat) (k : Core) : Option Nat × Dev :=
  if k.annulled then (none, d)
  else if 0x20000 < k.pc + 16 then (some 0x0F, d)
  else
    let r := d.checkRead c (imKey id k.pc) 16 rqFetch id
    (if r.1 then some 0x07 else none, r.2)

/-- The four syllables in slot order, each reading the state `k` of their issue; the first exception or stall ends them. -/
def slots (c : Clock) (id : Nat) (k : Core) (b : Bundle) (ans : Option Peer) (x : Acc) : Acc :=
  let x := if k.guard b.x.1 then execX c id k x b.x.2 else untaken x b.x.2
  let x := if x.go && k.guard b.l0.1 then execL c id k ans x b.l0.2 else x
  let x := if x.go && k.guard b.l1.1 then execL c id k ans x b.l1.2 else x
  if x.go && k.guard b.v.1 then execV c id k x b.v.2 else x

/-- The slot V of a bundle that commits: a vector operation begins and runs its first beat (R170, R171). -/
def startVec (k : Core) (b : Bundle) (x : Acc) : Acc :=
  match b.v.2 with
  | .vx .setvl _ _ _ _ _ => x
  | s =>
    if isVec s then
      let f := if k.vt = 4 && (match s with
          | .vx .bcast 63 _ _ _ _ => true
          | .vx .ins 63 _ _ _ _ => true
          | _ => false) then draw x.d else (0, x.d)
      { x with d := f.2, k := ({ x.k with vop := (k.startV s (k.guard b.v.1) f.1).vop } : Core).beat }
    else x

/-- Where a bundle goes on: the sequential PC or the one it names, or the end of a delay sequence (R122). -/
def Core.advance (k k1 : Core) (next : Option Nat) : Core :=
  let seq := next.getD (k.pc + 16)
  let k1 := match k.ds with
    | some dl =>
      if dl.remain ≤ 1 then { k1 with ds := none, pc := if dl.taken then dl.target else seq }
      else { k1 with ds := some { dl with remain := dl.remain - 1 }, pc := seq }
    | none => { k1 with pc := seq }
  { k1 with n := k.n + 1, cycle := (k1.cycle + 1) % 2 ^ 64, repEnd := 0 < k.rep.cnt && k.pc = k.rep.last }

/-- How a bundle ends: with an exception, stalled in E1, or committed. -/
inductive BundleEnd where
  | exc (d : Dev) (k : Core) (cause eaddr : Nat) (after : Core → Core)
  | stall (d : Dev)
  | done (d : Dev)

/-- One bundle of core `id`: fetch and decode checks, the syllables in slot order reading the state of their issue,
then commit, stall or exception (R112-R126, R142). -/
def Dev.tryBundle (c : Clock) (d0 : Dev) (id : Nat) (b : Bundle) (ans : Option Peer) : BundleEnd :=
  let s := d0.beforeIssue id
  let k := s.1.tick id c
  let fail := fun (d : Dev) (cause ea : Nat) => BundleEnd.exc d { k with n := k.n + 1 } cause ea fun k => k
  let fe := s.2.fetch c id k
  match fe.1 with
  | some cause => fail fe.2 cause k.pc
  | none =>
    match k.decodeExc b k.annulled s.1.vop.isSome with
    | some cause => fail fe.2 cause 0
    | none =>
      let b := if k.annulled then { x := ({}, .nop), l0 := ({}, .nop), l1 := ({}, .nop), v := ({}, .nop) } else b
      let x := slots c id k b ans { d := fe.2, k := k }
      match x.exc, x.part with
      | some (cause, ea), some (kp, sts, after) =>
        let d := (x.d.setCore id { kp with n := k.n + 1 }).commitStores c id k.priv sts
        .exc d (d.core id) cause ea after
      | some (cause, ea), none => fail x.d cause ea
      | none, _ =>
        if x.stall then
          .stall (x.d.setCore id
            { x.d.core id with stalled := some b, lost := true, copWait := x.copStall })
        else
          let x := startVec k b x
          let k1 := k.advance x.k x.next
          let k1 := if k1.waiting then { (k1.drained id c) with lost := true } else k1
          .done ((x.d.setCore id k1).commitStores c id k.priv x.stores)

/-- A bundle runs to its end. -/
def Dev.runBundle (c : Clock) (d : Dev) (id : Nat) (b : Bundle) (ans : Option Peer) : Dev :=
  match d.tryBundle c id b ans with
  | .exc d k cause ea after => d.trap c id k cause ea after
  | .stall d => d
  | .done d => d

/-- A parity error in a register file of core `n` halts it as a double fault does, with cause REG_PARITY, and its self-test runs
(R378, R382). -/
def Dev.parityHalt (c : Clock) (d : Dev) (n : Nat) : Dev :=
  let k := (d.core n).drained n c
  (((d.setCore n k).haltCore c n 0x40 k.pc).startBist n).parityTest 2 n (n / 64)

/-- A bundle given to a core that can take one: it finds a parity error in the registers, or runs. While an interrupt is to be
taken it acts only with its exception, which comes first (R142). -/
def issue (c : Clock) (d : Dev) (b : BCtx) (slot : Slot) (g : Guard) (s : Syl) : Dev :=
  if d.canRun b.core && (d.core b.core).stalled.isNone then
    if b.parity then d.parityHalt c b.core
    else match d.tryBundle c b.core (bundleOf b slot g s) none, d.intDue b.core with
    | .exc d k cause ea after, _ => d.trap c b.core k cause ea after
    | .stall d', none => d'
    | .done d', none => d'
    | _, some _ => d
  else d

/-- A stalled bundle tries again. -/
def Dev.retry (c : Clock) (d : Dev) (id : Nat) (ans : Option Peer) : Dev :=
  match (d.core id).stalled with
  | some b => if d.canIssue id then d.runBundle c id b ans else d
  | none => d

end Sys2Proof.Machine
end

