-- ==== Sys2Proof/Machine/CopOps.lean ====
section
/-! DEFINITION. The coprocessor syllables (R188). -/
namespace Sys2Proof.Machine

/-- COP0 (R200). -/
def execCop0 (c : BCtx) (g : Guard) (fn sa sb tag : Nat) : State → Out :=
  onDev fun clk v => issue clk v c .v g (.cop0 fn sa sb tag)

/-- COP1 (R200). -/
def execCop1 (c : BCtx) (g : Guard) (fn ps pd sc : Nat) : State → Out :=
  onDev fun clk v => issue clk v c .v g (.cop1 fn ps pd sc)

/-- COP2 (R201). -/
def execCop2 (c : BCtx) (g : Guard) (fn ps pd sc : Nat) : State → Out :=
  onDev fun clk v => issue clk v c .v g (.cop2 fn ps pd sc)

/-- POP_R (R189). -/
def execPopR (c : BCtx) (g : Guard) (sd : Nat) (mxu : Bool) : State → Out :=
  onDev fun clk v => issue clk v c .v g (.cop3 sd mxu 0)

/-- POP_D (R189). -/
def execPopD (c : BCtx) (g : Guard) (sd : Nat) (mxu : Bool) : State → Out :=
  onDev fun clk v => issue clk v c .v g (.cop3 sd mxu 1)

/-- QUIESCE (R189). -/
def execQuiesce (c : BCtx) (g : Guard) (mxu : Bool) : State → Out :=
  onDev fun clk v => issue clk v c .v g (.cop3 0 mxu 2)

/-- DISCARD (R189). -/
def execDiscard (c : BCtx) (g : Guard) (mxu : Bool) : State → Out :=
  onDev fun clk v => issue clk v c .v g (.cop3 0 mxu 3)

/-- COPST (R190). -/
def execCopst (c : BCtx) (g : Guard) (qd : Nat) (mxu : Bool) (test : Nat) : State → Out :=
  onDev fun clk v => issue clk v c .v g (.copst qd mxu test)

end Sys2Proof.Machine
end

