-- ==== Sys2Proof/Machine/CoreEvents.lean ====
section
/-! DEFINITION. What happens to a signal core between bundles (R126, R146-R151), and the image and core commands (R152,
R578). -/
namespace Sys2Proof.Machine

/-- A running core that answers: its events act only then. -/
def Dev.coreLive (d : Dev) (n : Nat) : Bool := n < 1024 && (d.core n).st = .running && d.awake (n / 64)

/-- The end of a REP iteration: REP_CNT decrements, and execution returns to REP_START or continues after REP_END
(R126, R129). -/
def execRepIterationEnd (core : Nat) : State → Out := onDev fun _ d =>
  if d.coreLive core && (d.core core).repEnd then d.updCore core Core.iterationEnd else d

/-- A waiting core issues again once an event selected by EVMASK or a preemption is pending (R150). -/
def execWaitResume (core : Nat) : State → Out := onDev fun _ d =>
  let k := d.core core
  if d.coreLive core && k.waiting && (k.evpend &&& k.evmask != 0 || d.preReq core || d.leaving core != .stay) then
    d.setCore core { k with waiting := false }
  else d

/-- The fabric answers the far loads of a stalled bundle, which issues again with the answer (R121). `resp` and `data` are a
tandem peer's answer, where the load goes through a window. -/
def execFarLoadAnswer (core resp : Nat) (data : List Byte) : State → Out := onDev fun c d =>
  if d.coreLive core then d.retry c core (some { resp := resp, data := data }) else d

/-- A stored write that was not performed: its address is latched, STORE_ERR pends, and it is logged (R147). -/
def Dev.storeFailed (c : Clock) (d : Dev) (core addr : Nat) (r : Resp) : Dev :=
  (d.updCore core fun k => { k.pend c 0x80000000 with serr := addr % 2 ^ 48 }).log c (core / 64) trbFABRIC
    0x0F42 (pk [(6, addr), (2, ridWord (0, core)), (1, r.code)])

/-- A buffered run of bytes is stored: in the core's own IM, or on the fabric (R141, R146). -/
def Dev.storeRun (c : Clock) (d : Dev) (core priv resp a : Nat) (bs : List Byte) : Resp × Dev :=
  if inIm a bs.length then
    let r := d.memWrite (imKey core (a - 0x100000)) bs
    (if r.1 then .poison else .done, r.2)
  else d.busWrite c (.core core priv) a bs { resp := resp }

/-- A buffered store is performed; a part that falls on a poisoned code word leaves the others to be written (R374). -/
def Dev.performStore (c : Clock) (d : Dev) (core resp : Nat) (e : BufStore) : Resp × Dev :=
  e.runs.foldl (fun o p =>
    if o.1 = .done || o.1 = .poison then
      let r := o.2.storeRun c core e.priv resp p.1 p.2
      (if r.1 = .done then o.1 else r.1, r.2)
    else o) (.done, d)

/-- The oldest entry of the write buffer is performed and answered (R146, R147), and a store that waited for room takes its
place; a bundle that waited for the buffer to drain tries again. -/
def execWriteBufferAnswer (core resp : Nat) : State → Out := onDev fun c d =>
  match (d.core core).wbuf with
  | [] => d
  | e :: es =>
    let d := d.updCore core fun k => { k with wbuf := es ++ k.spill.take 1, spill := k.spill.drop 1 }
    let r := d.performStore c core resp e
    let d := if r.1 = .done then r.2 else r.2.storeFailed c core e.addr r.1
    if d.coreLive core then d.retry c core none else d

/-- Interrupt `cause` is taken at the boundary of a core (R142, R143), unless the bundle there cannot be fetched: an exception
comes first. -/
def Dev.interrupt (c : Clock) (d : Dev) (core cause : Nat) : Dev :=
  let k := (d.core core).settled
  if d.coreLive core && d.intDue core = some cause && d.leaving core = .stay && (d.fetch c core (k.tick core c)).1.isNone then
    d.trap c core { k with preTaken := k.preTaken || cause = 0x80, waiting := false } cause 0
  else d

/-- Interrupt PREEMPT of a thread with TRAPPRE (R142, R221). -/
def execPreemptInterrupt (core : Nat) : State → Out := onDev fun c d => d.interrupt c core 0x80

/-- Interrupt EVENT (R142, R148). -/
def execEventInterrupt (core : Nat) : State → Out := onDev fun c d => d.interrupt c core 0x81

/-! ### Images (R149, R151, R152) -/

def Dev.image (d : Dev) (slot : Nat) : Image := tget {} d.cores.images slot

/-- A pool is bound to the slot, or is being moved to it. -/
def Dev.slotBound (d : Dev) (slot : Nat) : Bool :=
  d.pel.pools.any fun e => e.2.image = slot || e.2.swap.any fun s => s.slot = slot

/-- IMG_LOAD; a refused header field is named by its offset after the slot byte (R149, R637). -/
def execImgLoad (r : Req) (slot : Nat) (image : List Byte) : State → Out := onDev <| serve 0x0401 r fun _ d =>
  if 32 ≤ slot then (rBad 0, d)
  else match ({ bytes := image } : Image).fault with
    | some off => (rBad (1 + off), d)
    | none =>
      if d.slotBound slot then (rSt stBUSY, d)
      else (rOk [(4, image.length), (4, fieldAt image 36 4)], d.updCores fun x =>
        { x with images := tset {} x.images slot { bytes := image } })

/-- State of a core as CORE_GET_STATE codes it. -/
def Dev.coreState (d : Dev) (n : Nat) : Nat :=
  match (d.core n).st with
  | .retired => 3
  | .halted => 2
  | .running => if d.awake (n / 64) then 1 else 4
  | .idle => if d.awake (n / 64) then 0 else 4

/-- IMG_BIND: every core of the pool is reset, loaded and started at ENTRY (R151), where none of them is running. -/
def execImgBind (r : Req) (pool slot : Nat) : State → Out := onDev <| serve 0x0402 r fun _ d =>
  let cs := d.members pool
  if 64 ≤ pool then (rBad 0, d)
  else if 32 ≤ slot then (rBad 1, d)
  else if cs.any fun n => d.coreState n = 1 then (rSt stBUSY, d)
  else if (d.image slot).bytes.isEmpty then (rSt stBADSTATE, d)
  else if cs.any fun n => !d.awake (n / 64) then (rSt stASLEEP, d)
  else
    let d := d.updPool pool fun p => { p with image := slot, swap := none }
    (rOk, (cs.filter fun n => (d.core n).st = .idle).foldl (fun d n => d.startCore n slot) d)

/-- IMG_SWAP: what is READY, SADDLED or RUNNING at T_S holds an old context (R578). -/
def execImgSwap (r : Req) (pool slot prompt : Nat) : State → Out := onDev <| serve 0x0403 r fun x d =>
  if 64 ≤ pool then (rBad 0, d)
  else if 32 ≤ slot then (rBad 1, d)
  else if (d.pool pool).swap.isSome then (rSt stBUSY, d)
  else if (d.image slot).bytes.isEmpty then (rSt stBADSTATE, d)
  else
    let old := d.threads.filter fun t => d.tPool t = pool && tsREADY ≤ d.tState t
    (rAcc, d.updPool pool fun p =>
      { p with swap := some { slot := slot, prompt := prompt != 0, tag := x.tag, old := old } })

/-- Cores of a pool that an image swap still has to reload. -/
def Dev.toReload (d : Dev) (pool : Nat) (s : Swap) : List Nat :=
  (d.members pool).filter fun n =>
    !s.done.contains n && ((d.core n).st = .idle || (d.core n).st = .running) && (d.core n).leaving.isNone

/-- One core of a pool is reloaded from the new image (R578): it has no running thread, the ledger spares a core, and the
last one waits until no old context remains, which `prompt` cancels. -/
def execCoreReload (core : Nat) : State → Out := onDev fun c d =>
  let k := d.core core
  match k.pool with
  | none => d
  | some p =>
    match (d.pool p).swap with
    | none => d
    | some s =>
      let left := d.toReload p s
      let last := left.length = 1
      if !left.contains core || !d.awake (core / 64) then d
      else
        let d := if last && s.prompt then
            (s.old.filter fun t => tsREADY ≤ d.tState t).foldl (fun d t => d.drop c t 2) d else d
        let k := d.core core
        if k.thread.isSome || !k.wb.isEmpty then d
        else if !(d.updCore core fun k => { k with leaving := some false }).acctFits d.charges p (bucketOf c.atc) then d
        else if last && ((d.pool p).swap.any fun s => s.old.any fun t => tsREADY ≤ d.tState t) then d
        else
          let d := (d.unsaddle c core).startCore core s.slot
          d.updPool p fun y => { y with swap := y.swap.map fun s => { s with done := s.done ++ [core] } }

/-- The last core has been reloaded (R578). Threads that have not started on a new-image core start fresh. -/
def execImgSwapped (pool : Nat) : State → Out := onDev fun c d =>
  match (d.pool pool).swap with
  | none => d
  | some s =>
    if !(d.toReload pool s).isEmpty then d
    else
      let d := (d.threads.filter fun t => d.tPool t = pool && !s.fresh.contains t).foldl (fun d t => d.setFlag t 3 true) d
      (d.updPool pool fun y => { y with image := s.slot, swap := none }).evt0 c 0x0481 s.tag [(0, 1, pool), (1, 1, s.slot)]

def execImgInfo (r : Req) (slot : Nat) : State → Out := onDev <| serve 0x0404 r <| noFx fun _ d =>
  if 32 ≤ slot then rBad 0
  else if (d.image slot).bytes.isEmpty then rSt stBADSTATE
  else { status := stOK, payload := (d.image slot).bytes.take 64 }

def execCoreGetState (r : Req) (core : Nat) : State → Out := onDev <| serve 0x0410 r <| noFx fun _ d =>
  if 1024 ≤ core then rBad 0
  else
    let k := d.core core
    rOk [(1, d.coreState core), (1, k.priv), (4, k.pc), (1, k.k.cause.toNat), (1, k.mt.cause.toNat), (4, k.k.epc.toNat),
         (4, k.mt.epc.toNat)]

/-- A halted core starts again from the image of the pool it was in (R151), or from the image it ran where it was in none; it
has left the pool and belongs to it again by a resize (log 155). -/
def execCoreRestart (r : Req) (core : Nat) : State → Out := onDev <| serve 0x0411 r fun _ d =>
  if 1024 ≤ core then (rBad 0, d)
  else
    let k := d.core core
    let slot := match k.leftPool with
      | some p => if (d.pool p).image = 0xFF then k.imgSlot else (d.pool p).image
      | none => k.imgSlot
    if k.st != .halted then (rSt stBADSTATE, d)
    else if !d.awake (core / 64) then (rSt stASLEEP, d)
    else (rOk, d.startCore core slot)

end Sys2Proof.Machine
end

