-- ==== Sys2Proof/Machine/Coprocessor.lean ====
section
/-! DEFINITION. The octet coprocessors (chapter 06): the values of the special-function unit within their bounds (R200), the
matrix unit (R201, R202), and how commands start and finish (R185, R186). -/
namespace Sys2Proof.Machine

/-! ### Values within a bound

A function that is accurate to `k` units in the last place has as result any number that near the exact one: which, is a
free value (log 17). The exact value stands as a magnitude `m * 2^e` with 80 bits or more and a sticky bit. -/

/-- COPSTAT flags (R199) of the flags of a rounding. -/
def copFlags (f : Nat) : Nat := f % 8 + (if 8 ≤ f then 16 else 0)
def cDZ : Nat := 8
def cNV : Nat := 16

/-- Binary32 numbers within `k` ulp of `m * 2^e`, by `free` (R200), with flags. -/
def nearFp (k : Nat) (neg : Bool) (m : Nat) (e : Int) (free : Nat) : Nat × Nat :=
  if m = 0 then (fp32.zero neg, 0)
  else
    -- grid of half units in the last place
    let q := e + m.log2 - 24
    let sh := (q - e).toNat
    let num := if q ≤ e then m * 2 ^ (e - q).toNat else m
    let den := 2 ^ sh
    let lo := cdiv num den - 2 * k
    let hi := num / den + 2 * k
    let ok := ((List.range (hi + 1 - lo)).map (lo + ·)).filter fun n =>
      n * den ≤ num + 2 * k * den && num ≤ n * den + 2 * k * den &&
      (n < 2 ^ 24 || (n ≤ 2 ^ 25 && n % 2 = 0) || n % 4 = 0)
    let n := ok.getD (free % ok.length) (num / den)
    let r := fp32.round neg n q
    (r.1, (copFlags r.2) ||| (if n * den = num then 0 else 1))

/-- Reciprocal. -/
def sfuRecip (a free : Nat) : Nat × Nat :=
  match fp32.read a with
  | .nan s => (fp32.qnan, if s then cNV else 0)
  | .inf neg => (fp32.zero neg, 0)
  | .fin neg m e =>
    if m = 0 then (fp32.inf neg, cDZ)
    else nearFp 1 neg (2 * (2 ^ 120 / m) + (if 2 ^ 120 % m = 0 then 0 else 1)) (-121 - e) free

/-- Reciprocal square root; of a zero as IEEE 754 gives it (log 17). -/
def sfuRsqrt (a free : Nat) : Nat × Nat :=
  match fp32.read a with
  | .nan s => (fp32.qnan, if s then cNV else 0)
  | .inf false => (fp32.zero false, 0)
  | .inf true => (fp32.qnan, cNV)
  | .fin neg m e =>
    if m = 0 then (fp32.inf neg, cDZ)
    else if neg then (fp32.qnan, cNV)
    else
      let m' := if e % 2 != 0 then 2 * m else m
      let e' := if e % 2 != 0 then e - 1 else e
      let r := isqrt (2 ^ 240 / m') 121 0
      nearFp 1 false (2 * r + (if r * r * m' = 2 ^ 240 then 0 else 1)) (-121 - e' / 2) free

/-! #### Elementary functions -/

/-- Exponential. -/
def sfuExp (a free : Nat) : Nat × Nat :=
  match fp32.read a with
  | .nan s => (fp32.qnan, if s then cNV else 0)
  | .inf neg => (if neg then fp32.zero false else fp32.inf false, 0)
  | .fin neg m e =>
    if m != 0 && 7 < e + (m.log2 : Int) then
      (if neg then (fp32.zero false, 3) else (fp32.inf false, 5))
    else
      let x : Int := (if neg then -1 else 1) * (if -160 ≤ e then (m * 2 ^ (e + 160).toNat : Nat) else m / 2 ^ (-160 - e).toNat)
      let k := x / ln2F
      let v := expF (x - k * ln2F)
      nearFp 2 false (2 * v.toNat + (if m = 0 then 0 else 1)) (k - 161) free

/-- Natural logarithm; of a negative number as IEEE 754 gives it (log 17). -/
def sfuLog (a free : Nat) : Nat × Nat :=
  match fp32.read a with
  | .nan s => (fp32.qnan, if s then cNV else 0)
  | .inf false => (fp32.inf false, 0)
  | .inf true => (fp32.qnan, cNV)
  | .fin neg m e =>
    if m = 0 then (fp32.inf true, cDZ)
    else if neg then (fp32.qnan, cNV)
    else
      let f : Int := (m : Int) * 2 ^ 160 / 2 ^ m.log2
      let z := (f - 2 ^ 160) * 2 ^ 160 / (f + 2 ^ 160)
      let v := (e + m.log2) * ln2F + 2 * atanhF z
      if v = 0 then (fp32.zero false, 0) else nearFp 2 (v < 0) (2 * v.natAbs + 1) (-161) free

/-- Angle of re + j im in units of pi/32,768 times 2^64. -/
def angle64 (re im : Int) : Int :=
  let x : Int := re.natAbs
  let y : Int := im.natAbs
  let small := min x y
  let big := max x y
  let z := small * 2 ^ 160 / big
  -- tan(pi/8) lies between 0.41 and 0.42
  let a : Int := if 100 * small ≤ 42 * big then atanF z
    else (piF : Int) / 4 + atanF ((small - big) * 2 ^ 160 / (small + big))
  let a := if y ≤ x then a else (piF : Int) / 2 - a
  let a := if re < 0 then (piF : Int) - a else a
  let a := if im < 0 then -a else a
  a * 2 ^ 79 / piF

/-- ATAN2: int16 in bits [15:0]; the manual gives bits [31:16] no value (log 17). -/
def sfuAtan (a free : Nat) : Nat :=
  let w := BitVec.ofNat 32 a
  let re := laneLo w
  let im := laneHi w
  let n := if re = 0 && im = 0 then 0 else nearInt 1 (angle64 re im) 64 free
  uns 16 n + (free / 4 % 65536) * 65536

/-- ROT: both components within 2 LSB, saturating. -/
def sfuRot (a theta free : Nat) : Nat :=
  let w := BitVec.ofNat 32 a
  let cs := turnF (theta % 65536)
  let re := laneLo w * cs.1 - laneHi w * cs.2
  let im := laneLo w * cs.2 + laneHi w * cs.1
  (lanes (satS 16 (nearInt 2 re 160 free)) (satS 16 (nearInt 2 im 160 (free / 8)))).toNat

/-- MAG: within 1 LSB, bits [16:0]. -/
def sfuMag (a free : Nat) : Nat :=
  let w := BitVec.ofNat 32 a
  let n := (laneLo w * laneLo w + laneHi w * laneHi w).toNat
  let r := isqrt n 17 0
  let lo := (if r * r = n then r else r + 1) - 1
  lo + free % (r + 2 - lo)

/-- A special function of binary32 or cint16 operands (R200): result and COPSTAT flags. -/
def sfuValue (fn a b free : Nat) : Nat × Nat :=
  match fn with
  | 0 => sfuRecip a free
  | 1 => sfuRsqrt a free
  | 2 => let r := fpSqrt a; (r.1, copFlags r.2)
  | 3 => sfuExp a free
  | 4 => sfuLog a free
  | 5 => (sfuAtan a free, 0)
  | 6 => (sfuRot a b free, 0)
  | _ => (sfuMag a free, 0)

/-! ### Starting and finishing (R185, R186) -/

/-- Replace the first command that `p` selects. -/
def replFirst (p : CopCmd → Bool) (f : CopCmd → CopCmd) : List CopCmd → List CopCmd
  | [] => []
  | c :: cs => if p c then f c :: cs else c :: replFirst p f cs

def CopCmd.isWaiting (c : CopCmd) : Bool := c.stage = .waiting
def CopCmd.isRunning (c : CopCmd) : Bool := c.stage = .running

/-- The unit of an octet starts the next command of the core whose turn it is (R186). -/
def execCopUnitStart (octet : Nat) (mxu : Bool) : State → Out := onDev fun _ d =>
  let key := 2 * octet + mxu.toNat
  let busy := mxu && (List.range 8).any fun i => (d.core (8 * octet + i)).mxu.any CopCmd.isRunning
  let last := tget 0 d.cores.copLast key
  if 128 ≤ octet || busy || !d.awake (octet / 8) then d
  else match ((List.range 8).map fun i => (last + 1 + i) % 8).find? fun i =>
      ((d.core (8 * octet + i)).unit mxu).any CopCmd.isWaiting with
    | none => d
    | some i =>
      let n := 8 * octet + i
      let d := d.updCore n fun k => k.setUnit mxu (replFirst CopCmd.isWaiting (fun c => { c with stage := .running }) (k.unit mxu))
      d.updCores fun x => { x with copLast := tset 0 x.copLast key i }

/-- A bundle that waited in E1 for the unit tries again. -/
def Dev.wakeStalled (c : Clock) (d : Dev) (n : Nat) : Dev := if d.coreLive n then d.retry c n none else d

/-- The unit of core `n`'s octet that a coprocessor self-test names. -/
def copUnit (n : Nat) (mxu : Bool) : Nat := n / 8 * 2 + mxu.toNat

/-- The oldest scalar command that has not entered the RESULT queue finishes (R185, R194, R200). With `parity` the unit met a
parity error (R378): a scalar entry has no status, so its result and flags are free (log 157). -/
def execSfuResultReady (core : Nat) (s : State) (parity : Bool := false) : Out := s |> onDev fun c d =>
  match (d.core core).sfu.find? fun x => !x.block && x.stage != .done with
  | some x =>
    if x.stage != .running || !d.awake (core / 64) then d
    else
      let f := draw d
      let v := if parity then (f.1, f.1 / 2 ^ 32 % 32) else sfuValue x.fn x.a x.b f.1
      let d := if parity then f.2.parityTest utCOP (copUnit core false) (core / 64) else f.2
      let d := d.updCore core fun k => { k with
        sfu := replFirst (fun y => !y.block && y.stage != .done)
          (fun y => { y with stage := .done, result := v.1 % 2 ^ 32, flags := v.2 }) k.sfu }
      d.wakeStalled c core
  | none => d

/-- Draw `n` free values. -/
def drawN : Nat → Dev → List Nat × Dev
  | 0, d => ([], d)
  | n + 1, d => let f := draw d; let r := drawN n f.2; (f.1 :: r.1, r.2)

/-- A block lies in LDM and is aligned. -/
def inLdmBlock (a n al : Nat) : Bool := a % al = 0 && a + n ≤ 0x40000

/-- Read 32-bit words of a core's LDM: none where one is uncorrectable. -/
def Dev.ldmWords (c : Clock) (d : Dev) (core a n : Nat) : Option (List Nat) × Dev :=
  let r := d.memRead c (ldmKey core a) (4 * n) rqCop core
  (if r.2.1 then none else some ((List.range n).map fun i => fieldAt r.1 (4 * i) 4), r.2.2)

def Dev.putWords (d : Dev) (core a : Nat) (ws : List Nat) : Dev := (d.memWrite (ldmKey core a) (ws.flatMap (le 4))).2

/-- A COP1 block (R200): status, flags, and the device after it. -/
def Dev.sfuBlock (c : Clock) (d : Dev) (core : Nat) (x : CopCmd) : Nat × Nat × Dev :=
  let n := bits x.ctl 0 9
  if n = 0 || 256 < n then (4, 0, d)
  else if !inLdmBlock x.a (4 * n) 4 || !inLdmBlock x.b (4 * n) 4 then (3, 0, d)
  else
    let r := d.ldmWords c core x.a n
    match r.1 with
    | none => (5, 0, r.2)
    | some ws =>
      let f := drawN n r.2
      let vs := (ws.zip f.1).map fun w => sfuValue x.fn w.1 (bits x.ctl 16 16) w.2
      (0, vs.foldl (fun a v => a ||| v.2) 0, f.2.putWords core x.b (vs.map fun v => v.1 % 2 ^ 32))

/-! ### The matrix unit (R201, R202) -/

/-- The words of a matrix, `per` to an element; with `lower` those of the lower triangle alone are read, the others stand as 0
(R201). -/
def Dev.matWords (c : Clock) (d : Dev) (core a n per : Nat) (lower : Bool) : Option (List Nat) × Dev :=
  (List.range n).foldl (fun (o : Option (List Nat) × Dev) r =>
    let m := per * (if lower then r + 1 else n)
    let x := o.2.ldmWords c core (a + 4 * per * n * r) m
    (match o.1, x.1 with
      | some l, some ws => some (l ++ ws ++ List.replicate (per * n - m) 0)
      | _, _ => none, x.2)) (some [], d)

/-- A COP2 command (R201, R202): status and the device after it. -/
def Dev.mxuBlock (c : Clock) (d : Dev) (core : Nat) (x : CopCmd) : Nat × Dev :=
  let n := bits x.ctl 0 4
  let in16 := bit x.ctl 4
  let per := if in16 then 1 else 2
  let dst := n * n * (if x.fn = 2 then 16 else 8)
  if n < 2 || 8 < n then (4, d)
  else if !inLdmBlock x.a (n * n * 4 * per) (4 * per) || !inLdmBlock x.b dst 8 then (3, d)
  else
    let r := d.matWords c core x.a n per (x.fn = 3)
    match r.1 with
    | none => (5, r.2)
    | some ws =>
      let f := draw r.2
      let fail := mxuFails x.fn n in16 ws f.1
      let g := drawN (dst / 4) f.2
      (if fail.isNone then 0 else if x.fn = 0 then 1 else 2,
       g.2.putWords core x.b (mxuOut x.fn n in16 ws fail (bit f.1 8) g.1))

/-- The oldest block command of a core finishes: its results are in LDM before its DONE entry is visible (R195). With `parity`
the unit met a parity error: status UE, and nothing is written (R376, R378). -/
def execCopBlockDone (core : Nat) (mxu : Bool) (s : State) (parity : Bool := false) : Out := s |> onDev fun c d =>
  match ((d.core core).unit mxu).find? fun x => x.block && x.stage != .done with
  | some x =>
    if x.stage != .running || !d.awake (core / 64) then d
    else
      let r : Nat × Nat × Dev :=
        if parity then (5, 0, d.parityTest utCOP (copUnit core mxu) (core / 64))
        else if mxu then let y := d.mxuBlock c core x; (y.1, 0, y.2) else d.sfuBlock c core x
      let d := r.2.2.updCore core fun k => k.setUnit mxu
        (replFirst (fun y => y.block && y.stage != .done)
          (fun y => { y with stage := .done, result := r.1, flags := r.2.1 }) (k.unit mxu))
      d.wakeStalled c core
  | none => d

end Sys2Proof.Machine
end

