-- ==== Sys2Proof/Machine/FabricTraffic.lean ====
section
/-! DEFINITION. Packets of the Wicker fabric (R322-R333, R336-R340): injection, what a target does with a request, responses,
closed gates, and the hold of an epoch change. -/
namespace Sys2Proof.Machine

/-- Requesters that may use PRI 3 (R328). -/
def Dev.deadlineSource (d : Dev) : Requester → Bool
  | .block _ => true
  | .engine e => (d.engine e).job.any fun j => j.ring < 64
  | .mover n => (d.chan n).deadline
  | _ => false

/-- The priority a request is injected with: a signal core's is 1, PRI 3 is for deadline sources (R328). -/
def Dev.priority (d : Dev) (q : Requester) (pri : Nat) : Nat × Dev :=
  match q with
  | .core _ _ => (1, d)
  | _ =>
    if pri = 3 && !d.deadlineSource q then (2, d.updFab fun f => { f with demote := satAdd 32 f.demote 1 }) else (pri, d)

/-- The class of R376 under which a requester's reads count. -/
def Requester.cls : Requester → Nat
  | .core _ _ => rqScalar
  | .mover _ => rqMover
  | .engine _ => rqEngine
  | .pcie _ => rqHost
  | .block _ => rqFront
  | .breano => rqMgmt

/-- A packet leaves the fabric: its epoch's drain count falls (R337). -/
def Dev.eject (d : Dev) (k : Packet) : Dev := if k.counted then d.drainBy k.epoch (-1) else d

/-- The response to a request is injected, in the epoch of the moment (R325, R336). -/
def Dev.answer (c : Clock) (d : Dev) (k : Packet) (r : Resp) (bs : List Byte) : Dev :=
  let t := draw d
  let p : Packet :=
    { k with src := k.dest, sport := localPort k.dest, dest := k.src, dport := k.sport, type := if k.type = 1 then 4 else 5
             epoch := t.2.fab.epoch, resp := r.code, injT := t.1 % 65536, counted := true
             data := if k.type = 1 then bs else [] }
  let d := (t.2.drainBy p.epoch 1).observe c p
  d.updFab fun f => { f with rsp := f.rsp ++ [p] }

/-- The sub-code under which a lost posted write is logged. -/
def Resp.dropCode : Resp → Nat
  | .decode => 0
  | .asleep => 1
  | .poison => 4
  | _ => 5

/-- The target performs a request that has reached it (R333): an ACTION is answered DONE. -/
def Dev.performAt (c : Clock) (d : Dev) (k : Packet) (q : Requester) (peer : Nat) : Dev :=
  let n := k.len + 1
  let bs := (k.data ++ List.replicate n 0).take n
  let d := d.eject k
  if k.type = 1 then
    let r := d.busRead c q k.addr n q.cls { resp := peer, data := k.data }
    r.2.2.answer c k r.1 r.2.1
  else if k.type = 6 then d.answer c k .done []
  else
    let r := d.busWrite c q k.addr bs { resp := peer }
    if k.type = 3 then r.2.answer c k r.1 []
    else if r.1 = .done then r.2
    else r.2.logDrop c (if k.rid.1 = 3 then 33 else 32) k.addr (ridWord k.rid) r.1.dropCode

/-- A request of another injection in the old epoch, on the same virtual channel, is still on its way (R336). -/
def Packet.sameFlow (a b : Packet) : Bool := a.src = b.src && a.sport = b.sport && vcOf a.type a.pri = vcOf b.type b.pri

/-- The request is injected: counted in its epoch, seen by the probes, and performed, or it meets a closed gate. -/
def Dev.inject (c : Clock) (d : Dev) (k : Packet) (q : Requester) (peer : Nat) : Dev :=
  let k := { k with epoch := d.fab.epoch }
  let d := (d.drainBy k.epoch 1).observe c k
  match memDomain k.addr with
  | some dom =>
    if (d.gate dom).st != 0 || !d.awake dom then d.updFab fun f => { f with atGate := f.atGate ++ [{ k with dom := dom }] }
    else d.performAt c k q peer
  | none => d.performAt c k q peer

/-- A request packet (R322-R328, R336). `errNode`, `errPort` and `replays` say on which link flits were replayed (R332);
`peer` and, for a read, `data` are a tandem peer's answer. -/
def execFabricRequest (src sport type pri tag addr len : Nat) (data : List Byte) (peer kind idx priv errNode errPort
    replays : Nat) : State → Out := onDev fun c d =>
  let q := requesterOf kind idx priv
  if !nodeExists src || !(type = 1 || type = 2 || type = 3 || type = 6) || 512 ≤ len || 3 < pri then d
  else
    let p := d.priority q pri
    let t := draw p.2
    let d := if replays = 0 then t.2 else t.2.replays c errNode errPort replays
    let k : Packet :=
      { src := src, sport := sport, dest := (decodeNode addr).getD 0, type := type, pri := p.1, epoch := d.fab.epoch
        tag := tag, len := len, addr := addr, rid := q.rid, dport := localPort ((decodeNode addr).getD 0), data := data, injT := t.1 % 65536, dom := 32, priv := priv, peer := peer }
    if (decodeNode addr).isNone then
      if type = 2 then d.logDrop c 32 addr (ridWord q.rid) 0
      else
        let r : Packet := { k with type := if type = 1 then 4 else 5, dest := src, dport := sport, resp := 2, counted := false
                                   data := if type = 1 then ones8 (len + 1) else [] }
        (d.updFab fun f => { f with got := some r }).trouble (ridBlock q.rid) trbFABRIC
    else if d.fab.flipping.isSome &&
        (d.fab.held.any (·.sameFlow k) || d.fab.atGate.any fun a => a.epoch != d.fab.epoch && a.sameFlow k) then
      d.updFab fun f => { f with held := f.held ++ [{ k with heldAt := c.atc, counted := false }] }
    else d.inject c k q peer

/-- The order in which an output port serves the virtual channels (R327). -/
def vcOrder : List Nat := [5, 4, 3, 1, 2, 0]

/-- The virtual channel an output port serves next among those `ready` has a flit for: one passed over for 15 grants, else the
first in order (R327). -/
def nextVc (passed : Nat → Nat) (ready : Nat → Bool) : Option Nat :=
  match vcOrder.find? fun v => ready v && 15 ≤ passed v with
  | some v => some v
  | none => vcOrder.find? ready

/-- The grants of a packet counted against the virtual channels that were ready beside it (R327). -/
def Fabric.granted (f : Fabric) (node vc flits : Nat) (ready : Nat → Bool) : Fabric :=
  { f with passed := vcOrder.foldl (fun t v => tset 0 t (8 * node + v)
      (if v != vc && ready v then tget 0 f.passed (8 * node + v) + flits else 0)) f.passed }

/-- The port at which a packet leaves the fabric. -/
def Packet.exit (p : Packet) : Nat := 16 * p.dest + p.dport % 16

/-- The packet that the output port `node` sends next of those waiting for it, and the fabric after it (R327): the oldest of
its virtual channel (R331). The model arbitrates at the port where packets leave the fabric (log 159). -/
def Fabric.arbitrate (f : Fabric) (l : List Packet) (node : Nat) : Option Packet × Fabric :=
  let vc := fun (p : Packet) => vcOf p.type p.pri
  let here := l.filter fun p => p.exit = node
  let ready := fun v => here.any fun p => vc p = v
  match nextVc (fun v => tget 0 f.passed (8 * node + v)) ready with
  | none => (none, f)
  | some v => match here.find? fun p => vc p = v with
    | none => (none, f)
    | some p => (some p, f.granted node v (flitsOf p.type p.len) ready)

/-- A response reaches its requester, or a domain that has been isolated meanwhile (R333, R340): at the port of the one that
waits longest, the one that the port serves next (R327). -/
def execFabricResponse : State → Out := onDev fun c d =>
  match (d.fab.arbitrate d.fab.rsp ((d.fab.rsp.head?.map (·.exit)).getD 0)).1 with
  | none => d
  | some p =>
    let f := (d.fab.arbitrate d.fab.rsp p.exit).2
    let d := (d.updFab fun _ => { f with rsp := f.rsp.erase p }).eject p
    if (ridDomain p.rid).any d.gateIsolated then d.logDrop c ((ridDomain p.rid).getD 32) p.addr (ridWord p.rid) 2
    else
      let d := if p.resp = 1 || p.resp = 2 || p.resp = 4 then d.trouble (ridBlock p.rid) trbFABRIC else d
      d.updFab fun f => { f with got := some p }

/-- What a closed gate does with the packet that has met it longest (R339). -/
def execPacketAtClosedGate : State → Out := onDev fun c d =>
  match d.fab.atGate with
  | [] => d
  | p :: ps =>
    let d := (d.updFab fun f => { f with atGate := ps }).eject p
    if nonPosted p.type then
      (d.updGate p.dom fun g => { g with asleep := satAdd 32 g.asleep 1 }).answer c p .asleep (ones8 (p.len + 1))
    else d.gateDrop c p.dom p.addr (ridWord p.rid)

/-- Fabric cycles of a span of Tc: 1.6 GHz beside 1.966,08 GHz. -/
def fabricCycles (n : Nat) : Nat := n * 160000 / 196608

/-- The first request held on its flow goes once every earlier request of it has been ejected (R336): of those that may go to one
port, the one it serves next (R327). Of the requests held on one flow only the first spends cycles holding. -/
def execFlipHoldRelease : State → Out := onDev fun c d =>
  let free := d.fab.held.filter fun k => !(d.fab.atGate.any fun a => a.epoch != d.fab.epoch && a.sameFlow k)
  match (d.fab.arbitrate free ((free.head?.map (·.exit)).getD 0)).1 with
  | none => d
  | some k =>
    let d := d.updFab fun _ =>
      let f := (d.fab.arbitrate free k.exit).2
      { f with held := (f.held.erase k).map fun p => if p.sameFlow k then { p with heldAt := c.atc } else p
               flipStall := satAdd 32 f.flipStall (fabricCycles (c.atc - k.heldAt)) }
    d.inject c { k with counted := true } (requesterOf k.rid.1 k.rid.2 k.priv) k.peer

end Sys2Proof.Machine
end

