-- ==== Sys2Proof/Machine/HostLink.lean ====
section
/-! DEFINITION. The host link (chapter 02): doorbells and the checks of a request's header, the pages of BAR0, the windows of
BAR2 and BAR4, resets of functions and links, MSI-X, and the host-interface commands. -/
namespace Sys2Proof.Machine

/-! ### Functions on the link -/

/-- The function answers on its port: PF0 and, with VF Enable, VF1-VF15 on port 0, PF1 (16) on port 1 (R41, R47). -/
def Dev.onLink (d : Dev) (f : Nat) : Bool :=
  let h := d.host
  if f = 0 then h.linkUp.1 else if f < 16 then h.linkUp.1 && h.vfEnable else f = 16 && h.twoX8 && h.linkUp.2

/-- One ignored doorbell or slot write (R49, R58). -/
def Func.bad (g : Func) : Func := { g with dbBad := satAdd 32 g.dbBad 1, dbBadTotal := satAdd 32 g.dbBadTotal 1 }

/-! ### Doorbells and headers (R55-R59, R63, R637) -/

/-- What the header of a request alone refuses, with STATUS and DETAIL, in the order of the checks: none where the command
may be served. -/
def headerFault (page code len flags func reqAddr reqLen respAddr respLen : Nat) : Option (Nat × Nat) :=
  let bad := fun off => some (stBADARG, off)
  if 16 ≤ flags then bad 0x80000006
  else if func != page && !(page = 0 && 1 ≤ func && func < 16) then some (stDENIED, 0)
  else match cmdInfo code with
    | none => some (stBADCODE, 0)
    | some i =>
      let ref := bit flags 0
      if i.pf0 && page != 0 then some (stDENIED, 0)
      else if 240 < len || (ref && len != 32) then bad 0x80000004
      else if ref && reqAddr % 64 != 0 then bad 0
      else if ref && (reqLen = 0 || 16777216 < reqLen) then bad 8
      else if ref && respAddr % 64 != 0 then bad 16
      else if ref && 16777216 < respLen then bad 24
      else if (if ref then reqLen else len) < i.len then bad 0x80000004
      else none

/-- Why no command is taken now, if so: FAULT in fatal, in the coast and after a power failure (R567, R606, R619), NOTREADY
before service-ready and in limp (R62, R606). -/
def Dev.closed (d : Dev) : Option Nat :=
  let m := d.mgmt
  if m.fatal || m.coasting || d.startup.phase = .powerFail then some stFAULT
  else if !m.svc || m.limp then some stNOTREADY else none

/-- The slot's header and, by reference, its buffers, as the mailbox page holds them (R55, R63). -/
def Dev.slotRequest (c : Clock) (d : Dev) (page slot : Nat) : Waiting :=
  let b := readBytes d.host.mb (slotBase page slot) 48
  let f := fieldAt b
  { page := page, slot := slot, code := f 0 2, tag := f 2 2, flags := f 6 2, func := f 8 1
    reqAddr := f 16 8, reqLen := f 24 4, respAddr := f 32 8, respLen := f 40 4, rung := c.atc
    refuse := match d.closed with
      | some st => some (st, 0)
      | none => headerFault page (f 0 2) (f 4 2) (f 6 2) (f 8 1) (f 16 8) (f 24 4) (f 32 8) (f 40 4) }

/-- One slot is handed over (R58, R59): ignored and counted while the device owns it. The host mover reads the whole request
buffer of a request by reference for the function of the page (R64, R65). -/
def Dev.handOver (c : Clock) (d : Dev) (page slot : Nat) : Dev :=
  if (d.func page).owned.getLsbD slot then d.updFunc page Func.bad
  else
    let w := d.slotRequest c page slot
    let d := (d.updFunc page fun g => { g with owned := g.owned ||| BitVec.ofNat 16 (2 ^ slot) }).updHost fun h =>
      let h := if bit w.flags 0 && w.refuse.isNone then h.fetch page w.reqAddr w.reqLen else h
      { h with waiting := h.waiting ++ [w] }
    if d.closed.isSome then d.respond c w { status := (w.refuse.getD (0, 0)).1 } else d

/-- A write of MB_RING: its slots in ascending order (R59), then the answers to refused headers. -/
def Dev.ringSlots (c : Clock) (d : Dev) (page mask : Nat) : Dev :=
  let d := ((List.range 16).filter fun s => bit mask s).foldl (fun d s => d.handOver c page s) d
  d.settleHeaders c d.host.waiting.length

def execMbRing (func mask : Nat) : State → Out := onDev fun c d =>
  if !d.onLink func then d
  else if func = 16 then d.updFunc 16 Func.bad
  else d.ringSlots c func mask

/-! ### Words of BAR0's own pages (R48-R54) -/

/-- EVT_CONS is written, and held events go out (R68). -/
def Dev.setCons (c : Clock) (d : Dev) (f v : Nat) : Dev :=
  (d.updFunc f fun g => { g with cons := v % 65536 }).flushHeld c f 65537

def execEvtConsWrite (func value : Nat) : State → Out := onDev fun c d =>
  if !d.onLink func || !d.mgmt.svc then d
  else if func = 16 then d.updFunc 16 Func.bad
  else d.setCons c func value

def execBar2WinWrite (func value : Nat) : State → Out := onDev fun _ d =>
  if !d.onLink func || !d.mgmt.svc || func != 0 then d else d.updHost fun h => { h with bar2Win := value % 8 }

/-- TRIGGER: capture NTC and ATC in this cycle, unless a capture runs (R54). -/
def Dev.snapTrigger (c : Clock) (d : Dev) (f : Nat) : Dev :=
  d.updFunc f fun g => if g.snapBusy.isSome then g else { g with snapBusy := some (c.sec, c.ns, c.frac, c.atc) }

def execNtcSnapshotTrigger (func : Nat) : State → Out := onDev fun c d =>
  if !d.onLink func || !d.mgmt.svc then d else d.snapTrigger c func

/-- The capture is complete: all fields in one step, and SNAP_SEQ after them (R54). -/
def execSnapSeqIncrement (func : Nat) : State → Out := onDev fun _ d =>
  match (d.func func).snapBusy with
  | none => d
  | some (sec, ns, frac, atc) => d.updFunc func fun g =>
    { g with snapSec := sec, snapNs := ns, snapFrac := frac, snapAtc := atc, snapBusy := none
             snapSeq := (g.snapSeq + 1) % 2 ^ 32 }

/-- Start and width of the register at offset `o` of the doorbell, status and snapshot pages. The other pages of BAR0 that R48
does not list hold none: the model reads them as reserved offsets (log 141). -/
def funcReg (o : Nat) : Option (Nat × Nat) :=
  if 0x1000 ≤ o && o < 0x1010 then some (o, 4)
  else if 0x2000 ≤ o && o < 0x2014 then some (o, 4)
  else if 0x8000 ≤ o && o < 0x8008 then some (o, 4)
  else if 0x8008 ≤ o && o < 0x8010 then some (0x8008, 8)
  else if 0x8010 ≤ o && o < 0x8018 then some (o, 4)
  else if 0x8018 ≤ o && o < 0x8020 then some (0x8018, 8)
  else none

/-- How an access to those pages stands (R9, R10, R8). -/
def funcAcc (o n : Nat) : RegAcc :=
  if n = 4 && o % 4 = 0 then (if (funcReg o).isSome then .word else .reserved)
  else if n = 8 && o % 8 = 0 then
    match funcReg o, funcReg (o + 4) with
    | none, none => .reserved
    | some a, some b => if a = b then .whole else .refused
    | _, _ => .refused
  else .refused

/-- The function status word at 0x2004 (R52, R49). -/
def Dev.statusWord (d : Dev) (f : Nat) : Nat :=
  let m := d.mgmt
  let own := if f = 16 then 0 else f * 16 + (if (d.func f).ringAddr = 0 then 0 else 8)
  own + m.fatal.toNat * 4 + m.limp.toNat * 2 + m.svc.toNat

/-- Read one 32-bit word of those pages (R12, R49, R52). -/
def Dev.funcWord (d : Dev) (f o : Nat) : Nat × Dev :=
  let g := d.func f
  let pf1 := f = 16
  if o = 0x1004 then (if pf1 then 0 else g.owned.toNat, d)
  else if o = 0x1008 then (if pf1 then 0 else g.cons, d)
  else if o = 0x100C then (if pf1 then 0 else g.prod, d)
  else if o = 0x2000 then (d.mgmt.running % 65536 * 65536 + 4, d)
  else if o = 0x2004 then (d.statusWord f, d)
  else if o = 0x2008 then
    if pf1 then (0, d) else d.rcTake (funcKey f 0x2008) g.evtLost fun n d => d.updFunc f fun g => { g with evtLost := n }
  else if o = 0x200C then d.rcTake (funcKey f 0x200C) g.dbBad fun n d => d.updFunc f fun g => { g with dbBad := n }
  else if o = 0x2010 then (if f = 0 then d.host.bar2Win else 0, d)
  else if o = 0x8004 then (g.snapSeq, d)
  else if o = 0x8008 || o = 0x800C then (half g.snapSec o, d)
  else if o = 0x8010 then (g.snapNs, d)
  else if o = 0x8014 then (g.snapFrac, d)
  else if o = 0x8018 || o = 0x801C then (half g.snapAtc o, d)
  else (0, d)

/-- Write one 32-bit word of those pages. -/
def Dev.funcPut (c : Clock) (d : Dev) (f o v : Nat) : Dev :=
  if f = 16 && 0x1000 ≤ o && o < 0x2000 then d.updFunc 16 Func.bad
  else if o = 0x1000 then d.ringSlots c f (v % 65536)
  else if o = 0x1008 then d.setCons c f v
  else if o = 0x2010 && f = 0 then d.updHost fun h => { h with bar2Win := v % 8 }
  else if o = 0x8000 && bit v 0 then d.snapTrigger c f
  else d

/-! ### MSI-X (R48, R70, R71) -/

/-- Unmask a vector: its pending message is sent (R71). -/
def Dev.unmask (c : Clock) (d : Dev) (f v : Nat) : Dev :=
  let x := tget {} (d.func f).vect v
  let d := d.updFunc f fun g => { g with vect := tset {} g.vect v { x with masked := false, pba := false } }
  if x.masked && x.pba then d.updHost fun h => { h with msix := h.msix ++ [⟨f, v⟩] } else d.tryVector c f v

def execMsixUnmask (func vector : Nat) : State → Out := onDev fun c d =>
  if !d.onLink func || !d.mgmt.svc || d.vectorsOf func ≤ vector then d else d.unmask c func vector

/-- The moderation time of a vector has passed since its first pending cause (R71). -/
def execMsixModerationTimeout (func vector : Nat) : State → Out := onDev fun c d => d.tryVector c func vector

/-- One 32-bit word of the MSI-X table or PBA. -/
def Dev.msixWord (d : Dev) (f o : Nat) : Nat :=
  let g := d.func f
  if o < 0x6000 then
    let v := (o - 0x4000) / 16
    let x := tget {} g.vect v
    if d.vectorsOf f ≤ v then 0
    else match o % 16 / 4 with
      | 0 => x.addr % 2 ^ 32
      | 1 => x.addr / 2 ^ 32 % 2 ^ 32
      | 2 => x.data
      | _ => x.masked.toNat
  else
    let base := (o - 0x6000) * 8
    (List.range 32).foldl (fun a i => a + (if (tget {} g.vect (base + i)).pba then 2 ^ i else 0)) 0

def Dev.msixPut (c : Clock) (d : Dev) (f o v : Nat) : Dev :=
  let n := (o - 0x4000) / 16
  let upd := fun (k : Vect → Vect) => d.updFunc f fun g => { g with vect := tmod {} g.vect n k }
  if 0x6000 ≤ o || d.vectorsOf f ≤ n then d
  else match o % 16 / 4 with
    | 0 => upd fun x => { x with addr := setHalf x.addr 0 v }
    | 1 => upd fun x => { x with addr := setHalf x.addr 4 v }
    | 2 => upd fun x => { x with data := v % 2 ^ 32 }
    | _ => if bit v 0 then upd fun x => { x with masked := true } else d.unmask c f n

/-! ### Host memory accesses (R10, R48-R53, R606, R636) -/

/-- PCI Express completion status of a fabric response (R636); poisoned data carries EP. -/
def Resp.cpl : Resp → Nat
  | .done => 0
  | .poison => 8
  | .decode => 1
  | _ => 4

/-- A refused access of the host's own pages: all ones, logged (R10). -/
def Dev.hostRefused (c : Clock) (d : Dev) (f o : Nat) (write : Bool) : Dev := d.logRefused c 33 o (ridWord (3, f)) write

/-- A host write that is not performed is logged (R606, R636). For a cause that R573 does not list - DENIED, and a write before
service-ready - DATA byte 8 is 5 (log 144). -/
def Dev.hostDrop (c : Clock) (d : Dev) (f a why : Nat) : Dev := d.logDrop c 33 a (ridWord (3, f)) why

/-- Device address of an offset of PF0's windows, if any (R48). -/
def bar0Window (o : Nat) : Option Nat :=
  if 0x100000 ≤ o && o < 0x800000 then some (0x0300000000 + (o - 0x100000))
  else if 0x800000 ≤ o && o < 0x801000 then some (0x0300700000 + (o - 0x800000)) else none

/-- The pages that answer before service-ready: function status and, for PF0, AON status (R606). -/
def earlyPage (f o : Nat) : Bool := (0x2000 ≤ o && o < 0x3000) || (f = 0 && 0x800000 ≤ o && o < 0x801000)

/-- A read through BAR0: completion status, data, and what it leaves. -/
def Dev.bar0Read (c : Clock) (d : Dev) (f o n : Nat) : Nat × List Byte × Dev :=
  match (if f = 0 then bar0Window o else none) with
  | some a =>
    let r := d.busRead c (.pcie 0) a n rqHost {}
    (if r.1 = .denied then 0 else r.1.cpl, r.2.1, r.2.2)
  | none =>
    if o + n ≤ 0x1000 then (0, if f = 16 then le n 0 else readBytes d.host.mb (4096 * f + o) n, d)
    else if 0x4000 ≤ o && o < 0x7000 then
      if (n = 4 || n = 8) && o % n = 0 then
        (0, le 4 (d.msixWord f o) ++ (if n = 8 then le 4 (d.msixWord f (o + 4)) else []), d)
      else (0, ones8 n, d.hostRefused c f o false)
    else match funcAcc o n with
      | .reserved => (0, le n 0, d)
      | .refused => (0, ones8 n, d.hostRefused c f o false)
      | .word => let r := d.funcWord f o; (0, le 4 r.1, r.2)
      | .whole =>
        let lo := d.funcWord f o
        let hi := lo.2.funcWord f (o + 4)
        (0, le 4 lo.1 ++ le 4 hi.1, hi.2)

/-- A host write to mailbox bytes: those of a slot the device owns are ignored, which counts once (R58). -/
def Dev.slotWrite (d : Dev) (f o : Nat) (bs : List Byte) : Dev :=
  let owned := fun i => (d.func f).owned.getLsbD ((o + i) / 256)
  let idx := List.range bs.length
  let d' := (idx.filter fun i => !owned i).foldl (fun d i => d.updHost fun h =>
    { h with mb := tset 0 h.mb (4096 * f + o + i) (bs.getD i 0) }) d
  if idx.any owned then d'.updFunc f Func.bad else d'

/-- A write through BAR0. -/
def Dev.bar0Write (c : Clock) (d : Dev) (f o : Nat) (bs : List Byte) : Dev :=
  let n := bs.length
  match (if f = 0 then bar0Window o else none) with
  | some a =>
    let r := d.busWrite c (.pcie 0) a bs {}
    let refused := regPage a && regAcc (a - 0x0300000000) n = .refused
    if r.1 = .done || refused then r.2
    else r.2.hostDrop c f a (if r.1 = .decode then 0 else 5)
  | none =>
    if o + n ≤ 0x1000 then if f = 16 then d.updFunc 16 Func.bad else d.slotWrite f o bs
    else if 0x4000 ≤ o && o < 0x7000 then
      if (n = 4 || n = 8) && o % n = 0 then
        let d := d.msixPut c f o (leVal (bs.take 4))
        if n = 8 then d.msixPut c f (o + 4) (leVal (bs.drop 4)) else d
      else d.hostRefused c f o true
    else match funcAcc o n with
      | .reserved => if f = 16 && 0x1000 ≤ o && o < 0x2000 then d.updFunc 16 Func.bad else d
      | .refused => d.hostRefused c f o true
      | .word => d.funcPut c f o (leVal bs)
      | .whole => (d.funcPut c f o (leVal (bs.take 4))).funcPut c f (o + 4) (leVal (bs.drop 4))

/-- Size of a BAR of a function, 0 where it has none (R48-R51). -/
def barSize (f bar : Nat) : Nat :=
  if bar = 0 then (if f = 0 then 2 ^ 24 else 65536)
  else if bar = 2 then (if f = 0 then 2 ^ 34 else 0)
  else if bar = 4 then 4096 else 0

/-- Device address of an offset of BAR2 (R50). -/
def HostIf.bar2Addr (h : HostIf) (o : Nat) : Nat := 0x1000000000 + h.bar2Win * 0x400000000 + o

/-- A read through a BAR: completion status, data, and what it leaves. BAR4 holds doorbells of 32 bits: an access of any other
width is refused as R10 refuses it, at every offset (log 141). -/
def Dev.hostRead (c : Clock) (d : Dev) (f bar o n : Nat) : Nat × List Byte × Dev :=
  if !d.mgmt.svc && !(bar = 0 && earlyPage f o) then (4, [], d)
  else if bar = 0 then d.bar0Read c f o n
  else if bar = 2 then
    let r := d.busRead c (.pcie 0) (d.host.bar2Addr o) n rqHost {}
    (r.1.cpl, if r.1 = .done || r.1 = .poison then r.2.1 else [], r.2.2)
  else if n = 4 && o % 4 = 0 then
    (0, match (if o % 8 = 0 then (d.queues f)[o / 8]? else none) with
      | some q => le 4 (d.chan q).prod
      | none => le 4 0, d)
  else (0, ones8 n, d.hostRefused c f o false)

/-- A host Memory Read; a function or BAR that is not there, or a link that is down, leaves nothing to complete. -/
def execHostMemoryRead (func bar off len : Nat) : State → Out := onDev fun c d =>
  if !d.onLink func || barSize func bar < off + len || len = 0 then d
  else
    let r := d.hostRead c func bar off len
    r.2.2.updHost fun h => { h with cpl := some (r.1, r.2.1) }

/-- A host Memory Write: performed, or dropped and logged. -/
def execHostMemoryWrite (func bar off : Nat) (data : List Byte) (ep : Bool) : State → Out := onDev fun c d =>
  let n := data.length
  if !d.onLink func || barSize func bar < off + n || n = 0 then d
  else if !d.mgmt.svc && !(bar = 0 && off = 0x1000 && n = 4) then d.hostDrop c func off 5
  else if bar = 0 then (if ep then d.hostDrop c func off 4 else d.bar0Write c func off data)
  else if bar = 2 then
    let a := d.host.bar2Addr off
    if !(memDomain a).all d.awake then (d.gateAsleep a).hostDrop c func a 1
    else if ep then d.poisonWrite a n
    else
      let r := d.busWrite c (.pcie 0) a data {}
      if r.1 = .done then r.2 else r.2.hostDrop c func a (if r.1 = .poison then 4 else 0)
  else if ep then d.hostDrop c func off 4
  else if n = 4 && off % 4 = 0 then
    match (if off % 8 = 0 then (d.queues func)[off / 8]? else none) with
    | some q => d.ringProd q (leVal data % 65536) true
    | none => d
  else d.hostRefused c func off true

/-- A write of any requester to a register, answered (R7, R333). One that the target denies is dropped and logged (R93). -/
def execRegisterWrite (kind idx priv addr : Nat) (data : List Byte) : State → Out := onDev fun c d =>
  let q := requesterOf kind idx priv
  let r := d.regWrite c q addr data
  if r.1 = .denied && regAcc (addr - 0x0300000000) data.length != .refused then r.2.writeDenied c addr q.who else r.2

/-- A read of any requester of a register: the value, and the RC fields cleared (R12); the answer is left as the last
completion, in which a host read that R10 refuses succeeds with all-ones data. -/
def execRcRegisterRead (kind idx priv addr len : Nat) : State → Out := onDev fun c d =>
  let q := requesterOf kind idx priv
  let r := d.regRead c q addr len
  let ok := q.isHost && regPage addr && regAcc (addr - 0x0300000000) len = .refused
  r.2.2.updHost fun h => { h with cpl := some (if ok then 0 else r.1.cpl, r.2.1) }

/-! ### Resets and the link (R46, R47, R604, R621) -/

/-- The end of the last slot of the carrier that is admitted, or this instant (R46). -/
def Dev.lastAdmitted (c : Clock) (d : Dev) (n : Nat) (k : Carrier) : Nat :=
  d.air.plans.foldl (fun t p => if p.carrier = n then max t (k.slotStart p.frame ((p.slot : Int) + 1)).toNat else t) c.atc

/-- Reset one function's interfaces (R46): its mailbox slots, doorbells, event ring and data queues; MSI-X as PCI Express
resets it (log 4). Its carriers run out their admitted plans. -/
def Dev.resetFunc (c : Clock) (f : Nat) (d : Dev) : Dev :=
  let chans := (List.range 64).filter fun q =>
    if f = 16 then tget 0xFF d.host.qOwner q = 0 && tget 0 d.host.qPort q = 1 else tget 0xFF d.host.qOwner q = f
  let d := d.updFunc f fun g =>
    { g.dropHeld with ringAddr := 0, ringLog := 0, prod := 0, cons := 0, phase := true, owned := 0, vect := []
                      noSnoopEn := true, relaxEn := true, mps := 0, mrrs := 2 }
  let d := d.updHost fun h =>
    { h with
      mb := h.mb.filter fun e => e.1 / 4096 != f
      waiting := h.waiting.filter fun w => w.page != f
      bar2Win := if f = 0 then 0 else h.bar2Win }
  let d := chans.foldl (fun d q => d.updChan (512 + q) fun _ => {}) d
  d.updAir fun a =>
    { a with carriers := a.carriers.map fun e =>
        if e.2.owner = f then (e.1, { e.2 with stopAt := some (d.lastAdmitted c e.1 e.2) }) else e }

/-- A link goes down, or PF0 is reset: port 0 clears VF Enable and resets every function, port 1 resets PF1 (R47). -/
def Dev.portDown (c : Clock) (port : Nat) (d : Dev) : Dev :=
  if port = 0 then
    ((List.range 17).foldl (fun d f => d.resetFunc c f) d).updHost fun h => { h with vfEnable := false }
  else d.resetFunc c 16

def execFunctionLevelReset (func : Nat) : State → Out := onDev fun c d =>
  if !d.onLink func then d
  else if func = 0 then d.portDown c 0
  else d.resetFunc c func

/-- A port's link may train: PERST deasserted and start-up at or past t0 + 100 ms, or stopped after clock lock (R602,
R605, R621). Port 1 exists in 2 x x8 operation only (R41). -/
def Dev.mayTrain (d : Dev) (port : Nat) : Bool :=
  let u := d.startup
  let past := u.phase = .boot || u.phase = .tested || u.phase = .service || (u.phase = .stopped && u.cfgOk)
  past && (if port = 0 then !d.host.perst.1 else !d.host.perst.2 && d.host.twoX8)

/-- The state of a port's link: up, rate, lanes. -/
def HostIf.setLink (h : HostIf) (port : Nat) (up : Bool) (rate width : Nat) : HostIf :=
  if port = 0 then
    { h with linkUp := (up, h.linkUp.2), linkRate := (rate, h.linkRate.2), linkWidth := (width, h.linkWidth.2) }
  else { h with linkUp := (h.linkUp.1, up), linkRate := (h.linkRate.1, rate), linkWidth := (h.linkWidth.1, width) }

/-- A link that is down and may train comes up, at a rate and a width among those of R39 that the two ends settle (free
values). -/
def Dev.trainPort (port : Nat) (d : Dev) : Dev :=
  if (if port = 0 then d.host.linkUp.1 else d.host.linkUp.2) || !d.mayTrain port then d
  else
    let r := draw d
    let w := draw r.2
    w.2.updHost fun h => h.setLink port true (1 + r.1 % 6) (2 ^ (w.1 % if h.twoX8 then 4 else 5))

/-- The links that may train come up. -/
def Dev.train (d : Dev) : Dev := (d.trainPort 0).trainPort 1

/-- A hot reset, or a link-down, of a port; the link trains again (R47). -/
def execLinkDown (port : Nat) : State → Out := onDev fun c d =>
  ((d.portDown c port).updHost fun h => h.setLink port false 0 0).trainPort port

def execPerstAssert (port : Nat) : State → Out := onDev fun c d =>
  (d.portDown c port).updHost fun h =>
    { h with perst := if port = 0 then (true, h.perst.2) else (h.perst.1, true) }.setLink port false 0 0

def execPerstDeassert (port : Nat) : State → Out := onDev fun _ d =>
  (d.updHost fun h => { h with perst := if port = 0 then (false, h.perst.2) else (h.perst.1, false) }).train

/-- What configuration space of a function says (R39, R47, R70, R72, R73), field by field (the numbering is the model's, log
127): 1 VF Enable, 2 Enable No Snoop, 3 Enable Relaxed Ordering, 4 Max_Payload_Size and 5 Max_Read_Request_Size as codes for
128 x 2^n bytes, 6 the link's rate and 7 its lanes; then the capabilities: 8 the highest rate (64 GT/s as 6), 9 the widest link,
10 the largest payload, 11 10-bit tags, 12 virtual functions, 13 ARI, 14 FLR, 15 AER, 16 ECRC, 17 L0p, 18 ASPM (L1 as 2), and
those R39 says are not there: 19 L1 substates, 20 ATS, 21 PASID, 22 TPH, 23 AtomicOps, 24 Precision Time Measurement. -/
def Dev.configField (d : Dev) (f field : Nat) : Option Nat :=
  let g := d.func f
  let h := d.host
  match field with
  | 1 => if f = 0 then some h.vfEnable.toNat else none
  | 2 => some g.noSnoopEn.toNat
  | 3 => some g.relaxEn.toNat
  | 4 => some g.mps
  | 5 => some g.mrrs
  | 6 => some (if f = 16 then h.linkRate.2 else h.linkRate.1)
  | 7 => some (if f = 16 then h.linkWidth.2 else h.linkWidth.1)
  | 8 => some 6
  | 9 => some (if h.twoX8 then 8 else 16)
  | 10 => some 2
  | 11 | 14 | 15 | 16 | 17 => some 1
  | 12 => some (if f = 0 then 15 else 0)
  | 13 => some (if f = 16 then 0 else 1)
  | 18 => some 2
  | 19 | 20 | 21 | 22 | 23 | 24 => some 0
  | _ => none

/-- A configuration request (R604): Request Retry Status until configuration is open; then a read answers the field, and a write
sets one that can be written. Clearing VF Enable resets the virtual functions. A size that R39 does not allow is not taken. -/
def execConfigRequest (func : Nat) (write : Bool) (field value : Nat) : State → Out := onDev fun c d =>
  let up := if func = 16 then d.host.twoX8 && d.host.linkUp.2 else d.host.linkUp.1 && (func = 0 || d.host.vfEnable)
  let done := fun (st : Nat) (bs : List Byte) (d : Dev) => d.updHost fun h => { h with cpl := some (st, bs) }
  if !up then d
  else if !d.startup.cfgOk then done 2 [] d
  else if !write then
    match d.configField func field with
    | some v => done 0 (le 4 v) d
    | none => let v := draw d; done 0 (le 4 v.1) v.2
  else
    let on := bit value 0
    if field = 1 && func = 0 then
      let d := if on then d else ((List.range 15).map (· + 1)).foldl (fun d f => if d.host.vfEnable then d.resetFunc c f else d) d
      done 0 [] (d.updHost fun h => { h with vfEnable := on })
    else if field = 2 then done 0 [] (d.updFunc func fun g => { g with noSnoopEn := on })
    else if field = 3 then done 0 [] (d.updFunc func fun g => { g with relaxEn := on })
    else if field = 4 && value ≤ 2 then done 0 [] (d.updFunc func fun g => { g with mps := value })
    else if field = 5 && value ≤ 5 then done 0 [] (d.updFunc func fun g => { g with mrrs := value })
    else done 0 [] d

/-! ### Host-interface commands (R70, R71, R77) -/

def execHostSetEventRing (r : Req) (addr log : Nat) : State → Out := onDev <| serve 0x0110 r fun x d =>
  let g := d.func x.func
  if addr % 4096 != 0 then (rBad 0, d)
  else if addr = 0 then
    (rOk, d.updFunc x.func fun g => { g.dropHeld with ringAddr := 0 })
  else if log < 6 || 16 < log then (rBad 8, d)
  else if g.ringAddr != 0 then (rSt stBUSY, d)
  else (rOk, d.updFunc x.func fun g =>
    { g with ringAddr := addr, ringLog := log, prod := 0, cons := 0, phase := true, held := [], lostRun := 0 })

/-- The first entry of HOST_SET_VECTORS out of range, or the one at which the running total first exceeds 2,048 (R70). -/
def vectorsFault (two : Bool) (l : List Nat) : Option Nat :=
  let bad := fun i => let v := l.getD i 0; if i = 16 && !two then v != 0 else v < 2 || 512 < v
  match (List.range 17).find? bad with
  | some i => some (2 * i)
  | none =>
    match (List.range 17).find? fun i => 2048 < (l.take (i + 1)).foldl (· + ·) 0 with
    | some i => some (2 * i)
    | none => none

def execHostSetVectors (r : Req) (counts : List Nat) : State → Out := onDev <| serve 0x0111 r fun _ d =>
  match vectorsFault d.host.twoX8 counts with
  | some off => (rBad off, d)
  | none =>
    if d.host.vfEnable then (rSt stBADSTATE, d)
    else (rOk, (List.range 17).foldl (fun d f => d.updFunc f fun g => { g with vectors := counts.getD f 0 }) d)

/-- New moderation of a vector: pending causes are kept, and judged at once (R71). -/
def execHostSetModeration (r : Req) (vector count time : Nat) : State → Out := onDev <| serve 0x0112 r fun x d =>
  if d.vectorsOf x.func ≤ vector then (rBad 0, d)
  else if count = 0 then (rBad 2, d)
  else (rOk, (d.updFunc x.func fun g =>
    { g with vect := tmod {} g.vect vector fun v => { v with count := count, time := time } }).tryVector x.clk x.func vector)

/-- HOST_ASSIGN_QUEUES (R77): 64 pairs of owner and port, owner 0xFF for no function (log 5). A channel that changes owner or port becomes unconfigured, with its registers at reset (DESIGN CHOICE,
log 147). -/
def execHostAssignQueues (r : Req) (owners : List Nat) : State → Out := onDev <| serve 0x0113 r fun _ d =>
  let own := fun q => owners.getD q 0 % 256
  let port := fun q => owners.getD q 0 / 256
  let q64 := List.range 64
  let bad : Option Nat := q64.findSome? fun q =>
    if own q != 0xFF && 16 ≤ own q then some (2 * q)
    else if 1 < port q || (port q = 1 && !d.host.twoX8) then some (2 * q + 1) else none
  let moved := fun q => own q != tget 0xFF d.host.qOwner q || port q != tget 0 d.host.qPort q
  let on := fun q => (d.chan (512 + q)).dis != .off && (d.chan (512 + q)).dis != .disabled
  match bad with
  | some off => (rBad off, d)
  | none =>
    if q64.any fun q => port q = 1 && own q != 0 && own q != 0xFF then (rSt stDENIED, d)
    else if q64.any fun q => moved q && on q then (rSt stBUSY, d)
    else
      let d := (q64.filter moved).foldl (fun d q => d.updChan (512 + q) fun _ => {}) d
      (rOk, d.updHost fun h => q64.foldl (fun h q =>
        { h with qOwner := tset 0xFF h.qOwner q (own q), qPort := tset 0 h.qPort q (port q) }) h)

/-- Host-mover channels of the acting function by local queue: PF0's on port 0, then those on port 1 (log 71). -/
def Dev.localQueues (d : Dev) (f : Nat) : List Nat := if f = 0 then d.queues 0 ++ d.queues 16 else d.queues f

/-- 2^n, 8 to 4,096: log2 of a ring's entries. -/
def ringLog? (n : Nat) : Option Nat := (List.range 13).find? fun k => 3 ≤ k && 2 ^ k = n

/-- HOST_SET_QUEUE (R77). The queue starts with PROD, FETCH and DONE 0 and running (DESIGN CHOICE, log 147). -/
def execHostSetQueue (r : Req) (queue addr entries dir vector noSnoop : Nat) : State → Out :=
  onDev <| serve 0x0114 r fun x d =>
    match (d.localQueues x.func)[queue]? with
    | none => (rBad 0, d)
    | some n =>
      let vf := if tget 0 d.host.qPort (n - 512) = 1 then 16 else x.func
      match ringLog? entries with
      | none => (rBad 9, d)
      | some k =>
        if 1 < dir then (rBad 11, d)
        else if vector < 2 || d.vectorsOf vf ≤ vector then (rBad 12, d)
        else if 1 < noSnoop then (rBad 14, d)
        else
          let y := d.chan n
          if y.dis != .off && y.dis != .disabled then (rSt stBUSY, d)
          else (rOk [(1, n - 512)], d.updChan n fun y =>
            { y with owner := 1, base := addr, log := k, dir := dir, vector := vector, noSnoop := noSnoop = 1, dis := .on
                     stall := false, starts := 0, halted := false, from_ := 0, started := false, left := 0, prod := 0, fetch := 0, done := 0 })

def execHostGetFuncStats (r : Req) : State → Out := onDev <| serve 0x0115 r <| noFx fun x d =>
  let g := d.func x.func
  rOk [(8, g.completed), (4, g.refused), (4, g.dbBadTotal), (4, g.evtLostTotal)]

end Sys2Proof.Machine
end

