-- ==== Sys2Proof/Machine/HostQueue.lean ====
section
/-! DEFINITION. Completion of a descriptor, whatever the channel serves: a MAC port's frames (R443), LOOKASIDE messages
(R30, R31), or its own transfer (R357). -/
namespace Sys2Proof.Machine

/-- The head descriptor of a channel completes (R357). A channel bound to a MAC port for transmit hands its frame to the
port; one bound for receive, or by LOOKASIDE, completes its descriptors with the frames and messages themselves
(FRAME_RECEIVE, LOOK_TX_MESSAGE, LOOK_RX_MESSAGE), unless a disable decides how they end (R364). -/
def execDescriptorComplete (chan : Nat) (peer : List Byte) : State → Out := onDev fun c d =>
  if 592 ≤ chan then d
  else match d.txPort chan with
    | some p => d.fromHost c chan p
    | none =>
      if (d.rxBound chan || d.lookBound chan) && (d.chan chan).verdict.isNone then d else d.completeDesc c chan peer

end Sys2Proof.Machine
end

