-- ==== Sys2Proof/Machine/TandemGroup.lean ====
section
/-! DEFINITION. Tandem groups (chapter 19): links and their HELLO, heartbeats and steering, takeover and handback, members,
windows and exports, and the tandem commands. The links' bring-up stands with the spokes, as numbers 256-263. -/
namespace Sys2Proof.Machine

def Dev.tndLink (d : Dev) (k : Nat) : TndLink := tget {} d.tnd.links k
def Dev.updTndLink (d : Dev) (k : Nat) (f : TndLink → TndLink) : Dev :=
  d.updTnd fun t => { t with links := tmod {} t.links k f }

/-- The link is ACTIVE. -/
def Dev.linkActive (d : Dev) (k : Nat) : Bool := (d.spoke (256 + k)).any fun s => s.st = .active

/-! ### Topology and HELLO (R540, R541) -/

/-- The member that link `k` of member `i` goes to, and the link on which it arrives there; none for a link that the
topology does not use (R540). -/
def topoPeer (topology n i k : Nat) : Option (Nat × Nat) :=
  if n ≤ i then none
  else if topology = 0 then
    if k < 4 then some ((i + 1) % n, k + 4) else some ((i + n - 1) % n, k - 4)
  else if i = 0 then
    if 1 ≤ k && k < n then some (k, 0) else none
  else if i = 1 then
    if k = 0 then some (0, 1) else if 2 ≤ k && k < n then some (k, 1) else none
  else if k < 2 then some (k, i) else none

/-- What the topology gives link `k` of this device. -/
def Dev.linkPeer (d : Dev) (k : Nat) : Option (Nat × Nat) :=
  match d.tnd.group with
  | some (_, top, n) => topoPeer top n d.pkg.tandemId k
  | none => none

/-- A HELLO frame arrives on a link in its exchange: where it agrees with the topology, the link becomes ACTIVE; otherwise it
fails, MISWIRED (R541). -/
def execHello (link group id peerLink _epoch _ident : Nat) : State → Out := onDev fun c d =>
  match d.spoke (256 + link) with
  | none => d
  | some s =>
    if s.st != .exchange then d
    else
      let same := (d.tnd.group.map (·.1)) = some group
      if same && d.linkPeer link = some (id, peerLink) then
        (d.updTndLink link fun l => { l with peer := id }).spkUp c (256 + link)
      else d.spkFail c (256 + link) 5

/-! ### Heartbeats (R544-R547, R550, R554) -/

/-- A heartbeat as sent; its layout is the model's (log 100). -/
def Dev.heartbeat (c : Clock) (d : Dev) : List Byte :=
  let t := d.tnd
  pk [(8, c.sec), (4, c.ns), (2, c.frac), (2, (t.group.map (·.1)).getD 0), (1, t.epoch), (1, d.time.st + 16 * d.time.source),
      (1, 1 + 2 * t.dissolve.isSome.toNat), (8, t.dissolve.getD 0), (4, t.seq)]

/-- At each 1 ms boundary the captain sends a heartbeat on every active link (R544). -/
def execHeartbeatSend : State → Out := onDev fun c d =>
  if d.devmode.mode != .captain || c.atc % 1966080 != 0 || !((List.range 8).any d.linkActive) then d
  else d.updTnd fun t => { t with sent := d.heartbeat c, seq := (t.seq + 1) % 2 ^ 32 }

/-- The end that starts an exchange measures `rtt` = t4 - t1 and is told `turn` = t3 - t2, in 2^-16 ns. The link keeps the
delay from the captain's side, ASYM being that side's (R544). -/
def execEchoExchange (link rtt turn : Nat) : State → Out := onDev fun _ d =>
  if !d.linkActive link then d
  else d.updTndLink link fun l =>
    { l with delay := (((rtt : Int) - turn) / 2 + l.asym * 65536 / 2000).toNat }

/-- The upstream link: the lowest active link to the current captain (R545). -/
def Dev.upstream (d : Dev) : Option Nat :=
  (List.range 8).find? fun k => d.linkActive k && (d.tndLink k).peer = d.tnd.captain

/-- FOLLOWING changes, and TND_FOLLOWING is posted (R545). -/
def Dev.setFollowing (c : Clock) (d : Dev) (on : Bool) : Dev :=
  if d.tnd.following = on then d
  else (d.updTnd fun t => { t with following := on }).evt0 c 0x0C82 0 [(0, 1, on.toNat), (8, 8, uns 64 d.tnd.offset)]

/-- |offset| is within 50 ps (R545). -/
def within50ps (off : Int) : Bool := off.natAbs * 1000 ≤ 50 * 65536

/-- A stoker steers at a heartbeat (R545, R547): FTRIM from the change of offset, whose gain the manual does not give, and
FSLEW against the offset at up to its limit; both values are free within those bounds (log 8). A jump of the sequence number
keeps FTRIM and ends FSLEW. In limp F keeps its value (R565). -/
def Dev.steer (d : Dev) (jump : Bool) (off : Int) : Dev :=
  if d.breanoAway then d
  else if jump then d.updTime fun t => { t with fslew := 0 }
  else
    let a := draw d
    let b := draw a.2
    let m : Nat := a.1 % (slewOf (if d.anyCarrier then 10 else 10000) + 1)
    let fs : Int := if off = 0 then 0 else if 0 < off then -(m : Int) else m
    let f : Int := (b.1 % (2 * 8796093022 + 1) : Nat) - (8796093022 : Nat)
    b.2.updTime fun t => { t with fslew := fs, ftrim := f - fs }

/-- Auto-resume into STOKER that has ended in HUB: Breano asks for the live change once the condition holds, at the first
boundary that R23 admits, until RESUME_WAIT ends (R548). -/
def Dev.resumeStoker (c : Clock) (d : Dev) : Dev :=
  let u := d.startup
  let wait := (u.profile.map (·.wait)).getD 0
  if u.stokerWait && d.devmode.mode = .hub && d.devmode.pend.isNone && d.stokerReady c &&
      c.atc ≤ u.readyAt + wait * 1966080000 then
    (d.updStartup fun u => { u with stokerWait := false }).acceptLive .stoker (upTo (c.atc + 39321600) 19660800) 0 true
  else d

/-- A heartbeat arrives on a link. `raw` is the receive stamp less the captain's NTC, `filtered` the filtered offset, in 2^-16 ns;
the filter is the environment's to give, since the manual names none (log 100). Heartbeats of an older epoch are not
accepted; a later one is adopted, and moves the upstream link (R554). -/
def execHeartbeatReceive (link group epoch servo : Nat) (captain dissolve : Bool) (boundary seq : Nat) (raw filtered : Int) :
    State → Out := onDev fun c d =>
  let t := d.tnd
  let peer := (d.tndLink link).peer
  if !d.linkActive link || !captain || (t.group.map (·.1)) != some group || d.devmode.mode = .captain || epoch < t.epoch then d
  else
    let busy : Bool := d.pkg.tandemId = 0 && t.epoch < epoch && d.devmode.mode != .stoker
    let later : Bool := t.epoch < epoch || t.captain != peer
    let d := d.updTnd fun t => { t with epoch := epoch, capEpoch := epoch, captain := peer }
    let d := if busy then d.evt0 c 0x0C84 0 [(0, 1, peer), (1, 1, epoch)] else d
    if d.upstream != some link then d
    else
      let jump : Bool := t.beatAt != 0 && !later && seq != (t.beatSeq + 1) % 2 ^ 32
      let off := raw - ((d.tndLink link).delay : Int)
      let fresh : Bool := later || t.beatAt = 0 || jump || 0 < t.missed
      let good := if within50ps filtered then (if fresh then 1 else min (t.good + 1) 16) else 0
      let d := d.updTnd fun t =>
        { t with beatAt := c.atc + 1, beatSeq := seq, capServo := servo, missed := 0, offset := filtered
                 dissolve := if dissolve then some boundary else t.dissolve, good := good }
      if d.devmode.mode != .stoker then d.resumeStoker c
      else (d.steer jump off).setFollowing c (good = 16 && (d.unit 2 link).converged c.atc 2 0)

/-! ### Misses, reports and takeover (R547, R551-R553) -/

/-- A vice-captain that takes over (R552): the epoch rises, the mode is CAPTAIN, NTC goes on without a step under the servo of
its own settings; `mean` is the mean of the last 60 s of tandem steering. Its member list is what status frames have told it
(log 100). -/
def Dev.takeOver (c : Clock) (mean : Int) (d : Dev) : Dev :=
  let ms := d.tnd.members
  let e := (d.tnd.epoch + 1) % 256
  let d := d.updTnd fun t => { t with epoch := e, captain := 0xFF, beatAt := 0 }
  let d := d.evt0 c 0x0C83 0 [(0, 1, e), (8, 8, c.atc)]
  let d := if d.time.set.profile != 0 && d.time.source = 0 && freqOk mean 0 then d.updTime fun t => { t with ftrim := mean } else d
  (d.enterMode c .captain 0 0).updTnd fun t => { t with members := ms }

/-- The miss decision of the latest 1 ms boundary whose heartbeat is overdue by 100 us (R551): the number of that boundary, none
where the heartbeat came or the decision is made. -/
def Dev.missDue (c : Clock) (d : Dev) : Option Nat :=
  let delay := (d.upstream.map fun k => (d.tndLink k).delay).getD 0
  let lim := 196608 + cdiv (delay * 1966080000) 65536000000000
  let m := (c.atc - lim) / 1966080
  if c.atc < lim || d.tnd.missAt = m + 1 || m * 1966080 < d.tnd.beatAt then none else some m

/-- No heartbeat has come in time (R551): the stoker bridges (R547). The vice-captain takes over on the third miss in a row, or
later, once no member has reported a heartbeat for 3 ms (R552); on the third with such a report it posts TND_LINK_DOWN (R553).
After a dissolution it does not take over (R550). -/
def execHeartbeatMiss (mean : Int) : State → Out := onDev fun c d =>
  if d.devmode.mode != .stoker then d
  else
    let due := d.missDue c
    let d := match due with
      | some m =>
        ((d.updTnd fun t => { t with missed := t.missed + 1, missAt := m + 1, good := 0 }).updTime fun t =>
          { t with fslew := 0 }).setFollowing c false
      | none => d
    let t := d.tnd
    let reported : Bool := t.reportAt != 0 && c.atc + 1 ≤ t.reportAt + 5898240
    let gone : Bool := t.dissolve.any fun b => b ≤ c.atc
    if d.pkg.tandemId != 1 || t.missed < 3 || gone then d
    else if !reported then d.takeOver c mean
    else if due.isSome && t.missed = 3 then
      match d.upstream with
      | some k => d.evtNote c 0x0C81 0 26 [(0, 1, k), (1, 1, 0)]
      | none => d
    else d

/-- A status frame (R551): a stoker sends its own each millisecond; the vice-captain takes in a member's report, and a captain
the boundary at which a member enters or leaves STOKER (R549; how it learns of it the manual leaves open, log 100). -/
def execStatusFrame (member : Nat) (received joins leaves : Bool) (boundary : Nat) : State → Out := onDev fun c d =>
  if d.devmode.mode = .stoker && member = d.pkg.tandemId then
    d.updTnd fun t => { t with sent := pk [(1, member), (1, (t.missed = 0 && t.beatAt != 0 : Bool).toNat)] }
  else if d.devmode.mode = .captain then
    d.updTnd fun t =>
      { t with joining := if joins then t.joining ++ [(member, boundary)] else t.joining
               leaving := if leaves then t.leaving ++ [(member, boundary)] else t.leaving }
  else if d.devmode.mode = .stoker && d.pkg.tandemId = 1 then
    d.updTnd fun t =>
      { t with reportAt := if received then c.atc + 1 else t.reportAt
               members := if leaves then t.members &&& (255 - 2 ^ member) else t.members ||| 2 ^ member }
  else d

/-- A member all of whose links have been down for 10 ms leaves the list (R549). -/
def execMemberTimeout (member : Nat) : State → Out := onDev fun c d =>
  let mine := (List.range 8).filter fun k => (d.tndLink k).peer = member
  if d.devmode.mode != .captain || !bit d.tnd.members member ||
      mine.any fun k => d.linkActive k || c.atc < (d.tndLink k).downAt + 19660800 then d
  else
    let m := d.tnd.members &&& (255 - 2 ^ member)
    (d.updTnd fun t => { t with members := m }).evt0 c 0x0C86 0 [(0, 1, member), (1, 1, 0), (2, 1, m)]

/-- The handback boundary (R554): the acting captain changes to STOKER; the device with ID 0, which the group tells of the
boundary `at_` (log 100), changes to CAPTAIN with the epoch incremented. -/
def execHandbackBoundary (at_ : Nat) : State → Out := onDev fun c d =>
  match d.devmode.mode, d.tnd.handback with
  | .captain, some (b, tag) =>
    if c.atc < b then d else (d.updTnd fun t => { t with handback := none, captain := 0 }).enterMode c .stoker 0 tag
  | m, _ =>
    if d.pkg.tandemId = 0 && (m = .hub || m = .stoker) && d.captainHeard c && c.atc = at_ && at_ % 19660800 = 0 then
      (d.updTnd fun t => { t with epoch := (t.capEpoch + 1) % 256 }).enterMode c .captain 0 0
    else d

/-! ### Windows (R556, R557) -/

/-- The access lies in an export range that names the member (R557). -/
def Dev.exported (d : Dev) (member a n : Nat) : Bool :=
  d.tnd.exports.any fun e => bit e.2.2.2 member && e.2.1 ≤ a && a + n ≤ e.2.1 + e.2.2.1

/-- An access through a window (R556, R557). Outgoing: it is refused, or the peer's answer (`peer`, and `data` of a read) is
returned unchanged. Incoming, from `member`: it is performed where an export range names that member, otherwise DENIED. The
answer stands in the last read completion, or goes back over the link. -/
def execTandemWindowAccess (incoming : Bool) (member : Nat) (write : Bool) (kind idx priv addr len : Nat) (data : List Byte)
    (peer : Nat) : State → Out := onDev fun c d =>
  let n := if write then data.length else len
  if incoming then
    let r : Resp × List Byte × Dev :=
      if !d.exported member addr n then (.denied, if write then [] else ones8 n, d)
      else if write then let w := d.busWrite c (.block 26) addr data {}; (w.1, [], w.2)
      else d.busRead c (.block 26) addr n rqFront {}
    r.2.2.updTnd fun t => { t with sent := pk [(1, r.1.code)] ++ r.2.1 }
  else if !inWindow addr n then d
  else
    let q := requesterOf kind idx priv
    let a : Peer := { resp := peer, data := data }
    if write then
      let w := d.busWrite c q addr data a
      let d := if !d.windowOpen addr || !q.window then w.2.logDrop c 26 addr (ridWord q.rid) 3 else w.2
      d.updHost fun h => { h with cpl := some (w.1.cpl, []) }
    else
      let r := d.busRead c q addr n rqFront a
      r.2.2.updHost fun h => { h with cpl := some (r.1.cpl, r.2.1) }

/-! ### Commands (R559) -/

def execTndGroupSet (r : Req) (group topology n : Nat) : State → Out := onDev <| serve 0x0C01 r fun _ d =>
  if 1 < topology then (rBad 2, d)
  else if n < 2 || (if topology = 0 then 3 < n else 8 < n) then (rBad 3, d)
  else if d.devmode.mode = .captain || d.devmode.mode = .stoker then (rSt stBUSY, d)
  else (rOk, d.updTnd fun t => { t with group := some (group, topology, n) })

def execTndLinkSet (r : Req) (link : Nat) (asym : Int) : State → Out := onDev <| serve 0x0C02 r fun _ d =>
  if 8 ≤ link then (rBad 0, d) else (rOk, d.updTndLink link fun l => { l with asym := asym })

/-- Reason of a link as TND_STATUS gives it. -/
def Dev.linkReason (d : Dev) (k : Nat) : Nat := ((d.spoke (256 + k)).map fun s => tndReason s.reason).getD 0

def execTndStatus (r : Req) : State → Out := onDev <| serve 0x0C03 r <| noFx fun _ d =>
  let t := d.tnd
  rOk ([(1, d.pkg.tandemId), (1, t.epoch), (1, t.following.toNat), (1, d.upstream.getD 0xFF), (8, uns 64 t.offset),
        (1, t.members)] ++
    (List.range 8).flatMap fun k =>
      [(1, ((d.spoke (256 + k)).map fun s => s.st.code).getD 0), (1, d.linkReason k), (8, (d.tndLink k).delay)])

def execTndLinkDisable (r : Req) (link mode : Nat) : State → Out := onDev <| serveThen 0x0C04 r
  (fun x d =>
    if 8 ≤ link then (rBad 0, d)
    else if 1 < mode then (rBad 1, d)
    else if (d.spoke (256 + link)).any fun s => s.dis.isEnding then (rSt stBUSY, d)
    else (rAcc [(8, x.clk.atc)], d.disableSpoke x.clk (256 + link) (mode = 1) x.tag))
  fun x d => if (d.spoke (256 + link)).any fun s => s.st != .active then d.finishDisable x.clk (256 + link) else d

def execTndLinkDisabled (link : Nat) : State → Out := onDev fun c d => d.finishDisable c (256 + link)

/-- A link that the topology does not use stays DISABLED (R540). -/
def execTndLinkEnable (r : Req) (link : Nat) : State → Out := onDev <| serve 0x0C05 r fun x d =>
  if 8 ≤ link then (rBad 0, d)
  else if (d.linkPeer link).isNone || (d.spoke (256 + link)).any fun s => s.dis.isEnding then (rSt stBADSTATE, d)
  else (rOk, d.enableSpoke x.clk (256 + link))

def execTndWindowSet (r : Req) (window peer base : Nat) : State → Out := onDev <| serve 0x0C06 r fun _ d =>
  if 8 ≤ window then (rBad 0, d)
  else if 8 ≤ peer && peer != 0xFF then (rBad 1, d)
  else if peer != 0xFF && (base % 0x10000000 != 0 || regionOf base != .dram) then (rBad 2, d)
  else (rOk, d.updTnd fun t =>
    { t with windows := if peer = 0xFF then tdel t.windows window else tput t.windows window (peer, base) })

def execTndExportSet (r : Req) (range base size mask : Nat) : State → Out := onDev <| serve 0x0C07 r fun _ d =>
  if 8 ≤ range then (rBad 0, d)
  else if size != 0 && regionOf base != .dram then (rBad 1, d)
  else if size != 0 && regionOf (base + size - 1) != .dram then (rBad 9, d)
  else (rOk, d.updTnd fun t =>
    { t with exports := if size = 0 then tdel t.exports range else tput t.exports range (base, size, mask) })

/-- `fits` is the outlet's answer on its spoke's load (R555, R410). -/
def execTndStreamSet (r : Req) (stream outlet spoke dirs pcid enable : Nat) (fits : Bool) : State → Out :=
  onDev <| serve 0x0C08 r fun x d =>
    match d.stream stream with
    | none => (rBad 0, d)
    | some y =>
      if !x.sees y.owner then (rBad 0, d)
      else if 8 ≤ outlet || outlet = d.pkg.tandemId then (rBad 2, d)
      else if 144 ≤ spoke then (rBad 3, d)
      else if dirs = 0 || 3 < dirs then (rBad 4, d)
      else if 1 < enable then (rBad 7, d)
      else if d.streamBusy stream y then (rSt stBUSY, d)
      else if enable = 0 then (rOk, d.updTnd fun t => { t with streams := t.streams.filter fun e => e.1 != stream })
      else if !fits then (rSt stOVERLOAD, d)
      else
        let e : TndStream := { outlet := outlet, spoke := spoke, dirs := dirs, pcid := pcid }
        (rOk, d.updTnd fun t => { t with streams := tput t.streams stream e })

def execTndXchgSet (r : Req) (chan owner pool base log prio timed deadline srcBase srcSize dstBase dstSize : Nat) :
    State → Out := onDev <| serve 0x0C09 r fun _ d =>
  if chan < 576 || 592 ≤ chan then (rBad 0, d)
  else d.chanSet chan owner pool base log prio timed deadline srcBase srcSize dstBase dstSize

def execTndHandback (r : Req) (boundary : Nat) : State → Out := onDev <| serve 0x0C0A r fun x d =>
  if boundary % 19660800 != 0 then (rBad 0, d)
  else if d.devmode.mode != .captain || d.pkg.tandemId = 0 || d.devmode.pend.isSome || d.tnd.handback.isSome then
    (rSt stBADSTATE, d)
  else if boundary < x.clk.atc + 39321600 then (rSt stLATE, d)
  else (rAcc, d.updTnd fun t => { t with handback := some (boundary, x.tag) })

/-- The self-test of both lanes of a link (R543). -/
def execTndLinkSelftest (r : Req) (link : Nat) : State → Out := onDev <| serve 0x0C0B r fun x d =>
  if 8 ≤ link then (rBad 0, d)
  else if !(d.spoke (256 + link)).all fun s => s.st = .disabled then (rSt stBADSTATE, d)
  else (rAcc, d.testLanes x.clk [256 + 2 * link, 257 + 2 * link] (some x.tag))

end Sys2Proof.Machine
end

