-- ==== Sys2Proof/Machine/StartUp.lean ====
section
/-! DEFINITION. From power to service (chapter 22): start-up step by step, its stops, service-ready, the stored profile and
auto-resume. -/
namespace Sys2Proof.Machine

/-! ### Steps and stops (R602, R603, R605) -/

/-- Step `i` of start-up ends at this instant (R611; log 47). -/
def Dev.endStep (c : Clock) (d : Dev) (i : Nat) : Dev := d.updStartup fun u => { u with ends := u.ends.set i c.atc }

def Dev.toPhase (d : Dev) (p : Phase) : Dev := d.updStartup fun u => { u with phase := p }

/-- Start-up stops (R605). A stop at or after clock lock opens configuration space and lets the link train. -/
def Dev.stopStartup (c : Clock) (d : Dev) (step reason : Nat) : Dev :=
  let d := (d.log c 36 trbFATAL 0x0F48 (pk [(1, step), (1, reason)])).updMgmt fun m => { m with fatal := true, fatalCause := 3 }
  let d := d.updMgmt fun m => { m with logFlash := some m.log }
  let d := d.updPkg fun p => { p with devFault := true }
  (d.updStartup fun u => { u with phase := .stopped, stop := (step, reason), cfgOk := u.cfgOk || c.run }).train

/-- A stop belongs to the phase in which its check is made (R603). -/
def stopFits (p : Phase) (step reason : Nat) : Bool :=
  match p with
  | .reset => (step = 0 && reason = 1) || (step = 1 && reason = 2)
  | .clocks => (step = 2 && (reason = 3 || reason = 4)) || (step = 3 && reason = 5)
  | .boot => (step = 4 && reason = 6) || (step = 5 && reason = 7)
  | _ => false

def execStartupStop (step reason : Nat) : State → Out := onDev fun c d =>
  if stopFits d.startup.phase step reason then d.stopStartup c step reason else d

/-- The ATC by which start-up must be service-ready: t0 + 5 s, with the clocks locked at t0 + 10 ms or at W (R602, R603, R610;
log 47). -/
def Startup.deadline (u : Startup) : Nat := u.warm.getD 0 + 4990 * 1966080

/-- Start-up runs between clock lock and service-ready. -/
def Phase.starting (p : Phase) : Bool :=
  match p with
  | .clocks => true
  | .boot => true
  | .tested => true
  | _ => false

def execStartupTimeout : State → Out := onDev fun c d =>
  if d.startup.phase.starting && d.startup.deadline ≤ c.atc then d.stopStartup c 6 8 else d

/-- Power-on reset is released: straps, and the soft splice table, which is discarded and logged when its CRC fails (R384,
R538, R602, R603, R622). -/
def execPowerOnReset (spliceOk : Bool) : State → Out := onDev fun c d =>
  if d.startup.phase != .held then d
  else
    let d := d.updPkg fun p => { p with tandemId := p.tandemStrap % 8, blobForce := p.blobForceStrap }
    let d := if spliceOk then d.updMem fun m => { m with splices := m.flashSplices } else d.logOnly c 36 1 0x0F4A []
    (d.endStep c 0).toPhase .reset

/-- The synthesiser locks: NTC and ATC begin to count (R602). -/
def execClockLock : State → Out := onBoth fun c d =>
  if d.startup.phase != .reset then (c, d) else ({ c with run := true }, (d.endStep c 1).toPhase .clocks)

/-! ### The blob (R630, R631) -/

/-- The first offset at which a blob's magic, BVER or LENGTH is wrong. -/
def blobHeadFault (b : List Byte) : Option Nat :=
  if b.length != 8192 then some 8
  else if fieldAt b 0 4 != 0x43424C57 then some 0
  else if fieldAt b 4 2 != 1 then some 4
  else if fieldAt b 8 4 != 8192 then some 8
  else none

def blobCrcOk (b : List Byte) : Bool := fieldAt b 8188 4 = crc32 (b.take 8188)

/-- A copy is valid (R630). -/
def blobValid (b : List Byte) : Bool := (blobHeadFault b).isNone && blobCrcOk b

/-- The lane entries and the tandem lane entries of a blob. -/
def blobLanes (b : List Byte) : List Byte := (b.drop 64).take 6144
def blobTandem (b : List Byte) : List Byte := (b.drop 6208).take 768

/-- The copy that start-up uses, and whether it comes from the board (R630). -/
def Pkg.chooseBlob (p : Pkg) : Option (List Byte × Bool) :=
  match (if p.blobForce then none else p.blobFlash.filter blobValid) with
  | some b => some (b, false)
  | none => (p.blobBoard.filter blobValid).map fun b => (b, true)

/-- The blob is in force (R40, R602, R630): its tables, and at power-on the PCI Express width with the vectors it gives (R70). -/
def Dev.useBlob (d : Dev) (b : List Byte) (fromBoard : Bool) : Dev :=
  let d := d.updPkg fun p => { p with blob := b, blobFlash := if fromBoard then some b else p.blobFlash }
  let d := d.updSpk fun x => { x with table := blobLanes b, tandemTable := blobTandem b }
  let d := if d.startup.warm.isSome then d else d.updHost fun h => { h with twoX8 := bit (fieldAt b 6 1) 0 }
  if d.host.twoX8 then (d.updFunc 0 fun g => { g with vectors := 64 }).updFunc 16 fun g => { g with vectors := 64 } else d

/-- Breano boots (R602, R603): from the other slot when the booted slot's signature fails, on pair B when pair A loses
lockstep, then reads the blob. From here on the links may train. -/
def execBreanoBoot (imgOk pairOk : Bool) : State → Out := onDev fun c d =>
  if d.startup.phase != .clocks then d
  else if !imgOk && !d.mgmt.otherFw.loaded then d.stopStartup c 2 3
  else
    let d := if imgOk then d else
      (d.updMgmt fun m => { m with booted := 1 - m.booted }).logOnly c 36 1 0x0F4B []
    let d := if pairOk then d else
      (d.updMgmt fun m => { m with pairA := .retired, activeB := true }).trouble 34 trbRETIRED
    let d := (d.updMgmt fun m => { m with running := m.bootedFw.release }).endStep c 2
    match d.pkg.chooseBlob with
    | none => d.stopStartup c 3 5
    | some (b, fromBoard) => (((d.useBlob b fromBoard).endStep c 3).toPhase .boot).train

/-- A cluster is retired by the checker test: its cores are, and its domain stays down (R381). -/
def Dev.retireCluster (c : Clock) (d : Dev) (n : Nat) : Dev :=
  let d := (List.range 64).foldl (fun d i => d.retireCore c (64 * n + i)) d
  (d.updDom n fun x => { x with st := .asleep, depth := 3 }).updPower fun p => { p with down := p.down ++ [n] }

/-- The start-up self-tests end (R381, R384-R386, R603): failing checkers retire cores and clusters, DRAM row faults are
listed, static-RAM faults are spliced or retired. -/
def execStartupSelftestDone (cores clusters rows rams : List Nat) : State → Out := onDev fun c d =>
  if d.startup.phase != .boot then d
  else
    let d := cores.foldl (fun d n => if n < 1024 then d.retireCore c n else d) d
    let d := clusters.foldl (fun d n => if n < 16 && !d.power.down.contains n then d.retireCluster c n else d) d
    let d := rows.foldl (fun d a => d.lastingFault c { kind := 1, unit := rowOf a }) d
    let d := rams.foldl (fun d a => d.lastingFault c { kind := 0, unit := rowOf a }) d
    ((d.endStep c 4).endStep c 5).toPhase .tested

/-! ### The stored profile (R608, R609) -/

/-- Settings of a spoke without what it has done, enabled or not. -/
def Spoke.settings (s : Spoke) (on : Bool) : Spoke :=
  { port := s.port, profile := s.profile, fecPref := s.fecPref, fastOk := s.fastOk, cmp := s.cmp, mRange := s.mRange
    domains := s.domains, timed := s.timed, ueLimit := s.ueLimit, dis := if on then .on else .off }

def Lane.settings (l : Lane) : Lane :=
  { loop := l.loop, echo := l.echo, gen := l.gen, raw := l.raw, chk := l.chk, chkOn := l.chkOn }

def CopSpoke.settings (s : CopSpoke) (on : Bool) : CopSpoke :=
  { mode := s.mode, mask := s.mask, lineAdv := s.lineAdv, timed := s.timed, margin := s.margin, minMargin := s.minMargin
    autoSwap := s.autoSwap, syncWord := s.syncWord, syncTol := s.syncTol, syncBase := s.syncBase, syncStep := s.syncStep
    ramp := s.ramp, crcLimit := s.crcLimit, dis := if on then .on else .off }

def PairCh.settings (p : PairCh) : PairCh := { rpMask := p.rpMask, plan := p.plan, share := p.share }

/-- A MAC port's settings; its host channels are not held (R608). -/
def Port.settings (p : Port) : Port :=
  { ownMac := p.ownMac, peerMac := p.peerMac, tci := p.tci, transport := p.transport, ownIp := p.ownIp, peerIp := p.peerIp
    udp := p.udp, dscp := p.dscp, maxFrame := p.maxFrame, seg := p.seg, fltOn := p.fltOn, flt := p.flt, prom := p.prom
    allmc := p.allmc, keepBad := p.keepBad, vlanCheck := p.vlanCheck, rxPause := p.rxPause, pfcRx := p.pfcRx
    txPfc := p.txPfc, hold := p.hold, lpiEn := p.lpiEn, lpiIdle := p.lpiIdle }

/-- A chain's coefficients and detector settings. -/
def Chain.settings (k : Chain) : Chain :=
  { casA := k.casA, casB := k.casB, active := k.active, peak := { tap := k.peak.tap, k := k.peak.k }
    rms := { tap := k.rms.tap, k := k.rms.k }
    env := { tap := k.env.tap, att := k.env.att, dec := k.env.dec, hi := k.env.hi, lo := k.env.lo, on := k.env.on } }

/-- A set of a stored profile waits in SHADOW (R609). -/
def Inst.stored {α : Type} (empty : α) (i : Inst α) : Inst α := { act := empty, sh := i.act }

/-- A unit is enabled as the host asked, whether or not a mode change holds it disabled. -/
def Dev.wanted (d : Dev) (kind n : Nat) (dis : Dis) : Bool := dis = .on || d.devmode.drained.contains (kind, n)

/-- The settings of now, as a stored profile (R608). -/
def Dev.profile (d : Dev) (auto : Bool) (wait : Nat) : Profile :=
  let links := d.spk.spokes.filter fun e => 256 ≤ e.1 && d.wanted 2 e.1 e.2.dis
  { auto := auto, wait := wait, mode := d.devmode.mode, carriers := d.air.carriers, fe := d.fe
    spk := { d.spk with
      spokes := d.spk.spokes.map fun e => (e.1, e.2.settings (d.wanted 2 e.1 e.2.dis))
      lanes := d.spk.lanes.map fun e => (e.1, e.2.settings) }
    mac := { d.mac with ports := d.mac.ports.map fun e => (e.1, e.2.settings) }
    cop := { d.cop with
      spokes := d.cop.spokes.map fun e => (e.1, e.2.settings (d.wanted 3 e.1 e.2.dis))
      pairs := d.cop.pairs.map fun e => (e.1, e.2.settings) }
    servo := d.time.set, tports := d.time.tports, ftrim := d.time.ftrim, pools := d.pel.pools
    members := d.cores.core.filterMap fun e => e.2.pool.map fun p => (e.1, p)
    group := d.tnd.group, links := d.tnd.links.map fun e => (e.1, { asym := e.2.asym }), linksOn := links.map (·.1)
    images := d.cores.images }

/-- A stored copper spoke is enabled (R486). -/
def Dev.enableCopper (c : Clock) (d : Dev) (n : Nat) : Dev :=
  match d.copper n with
  | some s =>
    let d := d.updCopper n fun s => { s with dis := .on }
    (maskPairs n s.mask).foldl (fun d p => d.startPair c p) d
  | none => d

/-- The pools, their images and their cores (R149, R151, R205). -/
def Dev.applyPools (d : Dev) (p : Profile) : Dev :=
  let d := d.updCores fun x => { x with images := p.images }
  let d := d.updPel fun x => { x with pools := p.pools.map fun e =>
    (e.1, { edfp := e.2.edfp, cap := e.2.cap, image := e.2.image }) }
  let ms := p.members.filter fun e => (d.core e.1).st != .retired
  ms.foldl (fun d e =>
    let d := d.updCore e.1 fun k => { k with pool := some e.2 }
    let i := (d.pool e.2).image
    if i = 0xFF then d else d.startCore e.1 i) d

/-- A stored mode that may be entered here: the checks of DEVICE_SET_MODE that a stored request can fail (R16, R539). -/
def Dev.modeOk (d : Dev) (m : Mode) : Bool :=
  m != .dormant && !(m = .captain && d.pkg.tandemId != 0) && !((m = .captain || m = .stoker) && d.tnd.group.isNone)

/-- Breano applies the stored profile but for what waits with its carriers, enables its spokes, and asks for its mode
(R609). -/
def Dev.applyProfile (c : Clock) (d : Dev) (p : Profile) : Dev :=
  let d := d.updTnd fun t => { t with group := p.group, links := p.links }
  let d := d.updSpk fun x =>
    { x with spokes := p.spk.spokes.map fun e => (e.1, e.2.settings false), lanes := p.spk.lanes }
  let d := d.updMac fun x => { x with ports := p.mac.ports }
  let d := d.updCop fun x =>
    { x with spokes := p.cop.spokes.map fun e => (e.1, e.2.settings false), masks := p.cop.masks, pairs := p.cop.pairs }
  let d := d.applyPools p
  let on := (p.spk.spokes.filter fun e => e.2.dis = .on).map (·.1)
  let d := on.foldl (fun d n => d.enableSpoke c n) d
  let lines := (p.cop.spokes.filter fun e => e.2.dis = .on).map (·.1)
  let d := lines.foldl (fun d n => d.enableCopper c n) d
  let d := d.updStartup fun u => { u with resume := 1 }
  if d.modeOk p.mode then d.acceptDrained c p.mode 0 true else d

/-- The servo at service-ready: the stored profile's settings, or profile 0 in HOST with F = 0 (R495, R607). -/
def Dev.startServo (c : Clock) (d : Dev) : Dev :=
  match d.startup.profile with
  | some p =>
    (d.updTime fun t => { t with set := p.servo, tports := p.tports, ftrim := p.ftrim }).setServo c
      (if p.servo.profile = 0 then 5 else 0)
  | none => d.setServo c 5

/-- Service-ready (R607): pair A, or B alone, is active; the device is in DORMANT with every domain awake; the servo runs; Breano
configures its rings (R243) and posts the standing mark of class 0x9 (R101); and
with AUTO the stored profile is applied (R609). -/
def execServiceReady (standby : Bool) : State → Out := onDev fun c d =>
  if d.startup.phase != .tested || d.startup.deadline ≤ c.atc then d
  else
    let d := d.updMgmt fun m =>
      let m := if m.activeB then { m with pairB := .active }
        else { m with pairA := .active, pairB := if standby then .ready else .testing }
      { m with svc := true, beat := (c.atc, c.atc), ckptAt := c.atc, coastMs := d.startup.profCoast.getD 32 }
    let d := d.updDevmode fun m => { m with mode := .dormant, since := c.atc }
    let d := (d.endStep c 5).updStartup fun u => { u with phase := .service, cfgOk := true, readyAt := c.atc }
    let d := (d.startServo c).setBreanoRings.setBreanoChans
    let d := match d.freeCad with
      | some i => d.addStanding i (upTo (c.atc + 2) frameTc) (9 * 2 ^ 28)
      | none => d
    match d.startup.profile with
    | some p => if p.auto then d.applyProfile c p else d
    | none => d

/-! ### Auto-resume (R609, R612) -/

/-- The held carriers are added, with their streams, sets, maps and steering armed at the next standing mark: how many were
added. -/
def Dev.addHeld (c : Clock) (d : Dev) (p : Profile) : Nat × Dev :=
  let step := fun (r : Nat × Dev) (e : Nat × Carrier) =>
    if (r.2.carrier e.1).isSome then r
    else match r.2.freeCad with
      | some i => (r.1 + 1, r.2.addCarrier c e.1 i e.2)
      | none => r
  let r := p.carriers.foldl step (0, d)
  let d := r.2.updFe fun _ =>
    { streams := p.fe.streams
      chains := p.fe.chains.map fun e => (e.1, e.2.settings)
      sets := p.fe.sets.map fun e => (e.1, Inst.stored {} e.2)
      cmp := p.fe.cmp.map fun e => (e.1, Inst.stored {} e.2) }
  let d := d.updSpk fun x => { x with maps := p.spk.maps.map fun e => (e.1, Inst.stored [] e.2) }
  let d := d.updMac fun x => { x with steer := p.mac.steer.map fun e => (e.1, Inst.stored [] e.2) }
  let arm := fun (cls : Nat) (ks : List Nat) (d : Dev) =>
    ks.foldl (fun d k => d.updShadow cls k fun y => y.touched c.atc true) d
  (r.1, arm 1 (p.fe.sets.map (·.1)) (arm 2 (p.fe.cmp.map (·.1)) (arm 3 (p.mac.steer.map (·.1)) (arm 4 (p.spk.maps.map (·.1)) d))))

/-- The held carriers are added, and RESUME_DONE is posted with its cause (R609, R612). -/
def Dev.resume (c : Clock) (d : Dev) (cause : Nat) : Nat × Dev :=
  match d.startup.profile with
  | some p =>
    let r := d.addHeld c p
    (r.1, (r.2.updStartup fun u => { u with resume := 2 }).evtBreano c 0 0 0x0188 0 [(0, 1, 0), (1, 1, cause), (2, 2, r.1)])
  | none => (0, d)

/-- A resume condition holds in this cycle: LOCKED with a profile of Breano's (0), or FOLLOWING as a stoker (1) (R609). -/
def Dev.resumeCause (d : Dev) : Option Nat :=
  if d.startup.resume != 1 || d.mgmt.fatal || d.mgmt.coasting then none
  else if d.time.st = 2 && d.time.set.profile != 0 then some 0
  else if d.devmode.mode = .stoker && d.tnd.following then some 1
  else none

def execResumeDone : State → Out := onDev fun c d =>
  match d.resumeCause with
  | some k => (d.resume c k).2
  | none => d

/-- RESUME_WAIT ends: the held carriers are discarded (R609). -/
def execResumeTimeout : State → Out := onDev fun c d =>
  match d.startup.profile with
  | some p =>
    if d.startup.resume != 1 || c.atc < d.startup.readyAt + p.wait * 1966080000 then d
    else (d.updStartup fun u => { u with resume := 3, stokerWait := false }).evtBreano c 0 0 0x0188 0 [(0, 1, 1), (1, 1, 0), (2, 2, 0)]
  | none => d

/-! ### Commands (R611) -/

/-- DEVICE_PROFILE_SAVE; how many bytes the copy takes is free (log 8). -/
def execDeviceProfileSave (r : Req) (auto wait : Nat) : State → Out := onDev <| serve 0x0104 r fun x d =>
  if 1 < auto then (rBad 0, d)
  else if 3600 < wait then (rBad 1, d)
  else if d.mgmt.updating then (rSt stBUSY, d)
  else if d.devmode.pend.isSome then (rSt stBADSTATE, d)
  else
    let v := draw d
    (rOk [(8, x.clk.atc), (4, v.1 % 2 ^ 32)], v.2.updStartup fun u =>
      { u with profile := some (d.profile (auto = 1) wait), profCoast := some d.mgmt.coastMs })

def execDeviceStartupStatus (r : Req) : State → Out := onDev <| serve 0x0105 r <| noFx fun _ d =>
  let u := d.startup
  rOk (u.ends.map (fun t => (8, t)) ++
    [(1, u.stop.1), (1, u.stop.2), (2, (d.cores.core.filter fun e => e.2.st = .retired).length),
     (2, d.mem.retiredPages.length), (2, d.mem.repair.length), (1, u.resume)])

/-- DEVICE_RESUME: the held carriers are added at once (R609). -/
def execDeviceResume (r : Req) : State → Out := onDev <| serve 0x0106 r fun x d =>
  if d.startup.resume != 1 then (rSt stBADSTATE, d)
  else let v := d.resume x.clk 2; (rOk [(2, v.1)], v.2)

end Sys2Proof.Machine
end

