-- ==== Sys2Proof/Machine/Package.lean ====
section
/-! DEFINITION. Package and supplies (chapter 23): VIN, the power-fail input, sensors and thermal shutdown, and the commands
on sensors and on the board configuration blob. -/
namespace Sys2Proof.Machine

/-! ### VIN (R617) -/

/-- Time as it stands without power. -/
def Clock.cold : Clock := {}

/-- The device has power: past the release of power-on reset, and not shut down. -/
def Phase.powered (p : Phase) : Bool :=
  match p with
  | .off => false
  | .held => false
  | .thermal => false
  | _ => true

def Dev.setVin (d : Dev) (mv : Nat) : Dev := d.updPkg fun p => { p with vin := mv }

/-- VIN rises through 5.8 V: the converters start, and the rails come within their limits. -/
def execVinRise (mv : Nat) : State → Out := onDev fun _ d =>
  if mv < 5800 || 62000 < mv || 5800 ≤ d.pkg.vin then d
  else
    let d := d.setVin mv
    if d.startup.phase = .off then d.toPhase .held else d

/-- VIN falls below 5.4 V: the converters stop, and what does not lie in flash is lost. -/
def execVinFall (mv : Nat) : State → Out := onBoth fun c d =>
  if 5400 ≤ mv then (c, d) else (Clock.cold, (d.setVin mv).powerOff .off)

/-- VIN has exceeded 62 V for more than 10 us: every domain loses power. A thermal shutdown stays one (R627). -/
def execVinOvervoltage (mv : Nat) : State → Out := onBoth fun c d =>
  if mv ≤ 62000 then (c, d)
  else
    let ph : Phase := if d.startup.phase = .thermal then .thermal else .off
    (Clock.cold, (d.setVin mv).powerOff ph)

/-- After an overvoltage stop, VIN falls below 60.5 V: start-up begins again as from power-on. -/
def execVinOvervoltageClear (mv : Nat) : State → Out := onDev fun _ d =>
  if 60500 ≤ mv || mv < 5400 || d.pkg.vin ≤ 62000 then d
  else
    let d := d.setVin mv
    if d.startup.phase = .off then d.toPhase .held else d

/-! ### The power-fail input (R619) -/

/-- PFAIL_N falls: spokes send idle only, copper pairs ramp down, every waiting command is answered FAULT, DEV_FAULT is low, and
the newest 512 log entries go to flash. -/
def execPfail : State → Out := onDev fun c d =>
  let d := d.updPkg fun p => { p with pfail := true }
  if !d.startup.phase.powered || d.startup.phase = .powerFail then d
  else
    let d := (d.toPhase .powerFail).updPkg fun p => { p with devFault := true }
    let d := d.updMac fun x => { x with ports := x.ports.map fun e => (e.1, e.2.abort) }
    let d := (d.cop.spokes.map (·.1)).foldl (fun d n => d.copStop n) d
    (d.answerAll c stFAULT).updMgmt fun m => { m with logFlash := some (m.log.take 512) }

/-! ### Sensors (R626, R627, R633) -/

/-- The hottest junction sensor and its temperature; the lowest of equals. -/
def hottest (l : List Int) : Nat × Int :=
  l.zipIdx.foldl (fun (b : Nat × Int) e => if b.2 < e.1 then (e.2, e.1) else b) (0, l.headD 0)

/-- THERMAL_WARN, at most once per second of air time in each direction; one that must wait goes with a later reading (R627). -/
def Dev.thermalWarn (c : Clock) (d : Dev) : Dev :=
  let h := hottest d.pkg.junction
  let free := fun (t : Nat) => t = 0 || t + 1966080000 ≤ c.atc + 1
  let post := fun (on : Bool) (d : Dev) => d.evt0 c 0x0189 0 [(0, 1, on.toNat), (1, 1, h.1), (2, 2, uns 16 h.2)]
  if !d.pkg.hot && 1050 ≤ h.2 && free d.pkg.warnAt.2 then
    post true (d.updPkg fun p => { p with hot := true, warnAt := (p.warnAt.1, c.atc + 1) })
  else if d.pkg.hot && h.2 < 1000 && free d.pkg.warnAt.1 then
    post false (d.updPkg fun p => { p with hot := false, warnAt := (c.atc + 1, p.warnAt.2) })
  else d

/-- Sensors at or over 115 C, each with the ATC of its first such reading plus 1. -/
def over115 (now : Nat) (old : Tab Nat) (l : List Int) : Tab Nat :=
  l.zipIdx.filterMap fun e => if e.1 < 1150 then none else some (e.2, (tfind old e.2).getD (now + 1))

/-- The readings refresh (R626). -/
def execSensorRefresh (vin iin pin : Nat) (junction dramTemps : List Int) : State → Out := onDev fun c d =>
  if !d.startup.phase.powered || junction.length != 24 || dramTemps.length != 4 then d
  else
    let d := d.updPkg fun p =>
      { p with vin := vin, iin := iin, pin := pin, junction := junction, dramTemps := dramTemps, readAt := c.atc
               over115 := over115 c.atc p.over115 junction }
    d.thermalWarn c

/-- A junction sensor has read 115 C for 1 ms (R627): logged and saved, and every domain except AON loses power. AON keeps the
trouble record, the log and network time. -/
def execThermalShutdown (sensor : Nat) : State → Out := onDev fun c d =>
  match tfind d.pkg.over115 sensor with
  | some t =>
    if !d.startup.phase.powered || c.atc + 1 < t + 1966080 then d
    else
      let temp := d.pkg.junction.getD sensor 0
      let d := d.logOnly c sensor 3 0x0F49 (pk [(1, sensor), (1, 0), (2, uns 16 temp)])
      let d := d.updMgmt fun m => { m with logFlash := some m.log }
      let e := d.powerOff .thermal
      let e := e.updMgmt fun _ => d.mgmt.warm
      let e := e.updMem fun m => { m with splices := d.mem.splices, spliceDue := d.mem.spliceDue }
      e.updPkg fun p => { p with devFault := true, tandemId := d.pkg.tandemId, blobForce := d.pkg.blobForce }
  | none => d

def execDeviceGetSensors (r : Req) : State → Out := onDev <| serve 0x0107 r <| noFx fun _ d =>
  let p := d.pkg
  rOk ([(4, p.vin), (4, p.iin), (4, p.pin)] ++ (p.junction ++ p.dramTemps).map (fun t => (2, uns 16 t)) ++ [(8, p.readAt)])

/-! ### The blob (R630-R633) -/

/-- The first offset of a copper entry that R631 does not allow. -/
def copperEntryFault (i : Nat) (e : List Byte) : Option Nat :=
  if fieldAt e 0 1 != i then some 0
  else if 8 ≤ fieldAt e 1 1 then some 1
  else ((List.range 6).find? fun k => fieldAt e (2 + k) 1 != 0).map fun k => 2 + k

/-- The first fault of a table of `n` entries of `size` bytes at `off`, as an offset of the blob. -/
def entryFault (b : List Byte) (off size n : Nat) (f : Nat → List Byte → Option Nat) : Option Nat :=
  (List.range n).findSome? fun i => (f i ((b.drop (off + size * i)).take size)).map fun o => off + size * i + o

/-- The offset for which DEVICE_BLOB_WRITE refuses a blob (R398, R630, R631). -/
def blobFault (b : List Byte) : Option Nat :=
  (blobHeadFault b).orElse fun _ =>
  (entryFault b 64 48 128 laneEntryFault).orElse fun _ =>
  (entryFault b 6208 48 16 laneEntryFault).orElse fun _ =>
  (entryFault b 6976 8 64 copperEntryFault).orElse fun _ =>
  if blobCrcOk b then none else some 8188

def execDeviceBlobWrite (r : Req) (blob : List Byte) : State → Out := onDev <| serve 0x0108 r fun _ d =>
  let b := blob.take 8192
  match blobFault b with
  | some o => (rBad o, d)
  | none => if d.mgmt.updating then (rSt stBUSY, d) else (rOk, d.updPkg fun p => { p with blobFlash := some b })

def execDeviceBlobRead (r : Req) (source : Nat) : State → Out := onDev <| serve 0x0109 r <| noFx fun _ d =>
  if 1 < source then rBad 0
  else match (if source = 0 then d.pkg.blobFlash else d.pkg.blobBoard) with
    | none => rSt stBADSTATE
    | some b => { status := stOK, payload := pk [(1, (blobValid b).toNat)] ++ b }

end Sys2Proof.Machine
end

