-- ==== Sys2Proof/Machine/Scalar.lean ====
section
/-! DEFINITION. The scalar syllables of slots X, L0, L1 and V (R114): each issues its bundle with the other three words. -/
namespace Sys2Proof.Machine

/-- The slot an operand names: 0 X, 1 L0, 2 L1, 3 V. -/
def slotNo (n : Nat) : Slot := if n = 0 then .x else if n = 1 then .l0 else if n = 2 then .l1 else .v

/-- NOP (R114), in any slot. -/
def execNop (c : BCtx) (g : Guard) (slot : Nat) : State → Out := onDev fun clk v => issue clk v c (slotNo slot) g .nop

/-- ADD (R114). -/
def execAdd (c : BCtx) (g : Guard) (d a b sub : Nat) : State → Out :=
  onDev fun clk v => issue clk v c .x g (.alu .add d a b sub)

/-- SUB (R114). -/
def execSub (c : BCtx) (g : Guard) (d a b sub : Nat) : State → Out :=
  onDev fun clk v => issue clk v c .x g (.alu .sub d a b sub)

/-- AND (R114). -/
def execAnd (c : BCtx) (g : Guard) (d a b sub : Nat) : State → Out :=
  onDev fun clk v => issue clk v c .x g (.alu .and d a b sub)

/-- OR (R114). -/
def execOr (c : BCtx) (g : Guard) (d a b sub : Nat) : State → Out :=
  onDev fun clk v => issue clk v c .x g (.alu .or d a b sub)

/-- XOR (R114). -/
def execXor (c : BCtx) (g : Guard) (d a b sub : Nat) : State → Out :=
  onDev fun clk v => issue clk v c .x g (.alu .xor d a b sub)

/-- SHL (R114). -/
def execShl (c : BCtx) (g : Guard) (d a b sub : Nat) : State → Out :=
  onDev fun clk v => issue clk v c .x g (.alu .shl d a b sub)

/-- SHR (R114). -/
def execShr (c : BCtx) (g : Guard) (d a b sub : Nat) : State → Out :=
  onDev fun clk v => issue clk v c .x g (.alu .shr d a b sub)

/-- ADDI (R114). -/
def execAddi (c : BCtx) (g : Guard) (d a imm : Nat) : State → Out :=
  onDev fun clk v => issue clk v c .x g (.addi d a imm)

/-- MOVI (R114). -/
def execMovi (c : BCtx) (g : Guard) (d imm : Nat) : State → Out := onDev fun clk v => issue clk v c .x g (.movi d imm)

/-- MOVL (R115). -/
def execMovl (c : BCtx) (g : Guard) (d : Nat) : State → Out :=
  onDev fun clk v => issue clk v c .x g (.movl d c.l1.toNat)

/-- CMP (R113). -/
def execCmp (c : BCtx) (g : Guard) (qd cond a b : Nat) : State → Out :=
  onDev fun clk v => issue clk v c .x g (.cmp qd cond a b)

/-- MAXI (R137). -/
def execMaxi (c : BCtx) (g : Guard) (d a b sub : Nat) : State → Out :=
  onDev fun clk v => issue clk v c .x g (.alu .maxi d a b sub)

/-- MINI (R137). -/
def execMini (c : BCtx) (g : Guard) (d a b sub : Nat) : State → Out :=
  onDev fun clk v => issue clk v c .x g (.alu .mini d a b sub)

/-- BR (R122). -/
def execBr (c : BCtx) (g : Guard) (annul : Bool) (off : Nat) : State → Out :=
  onDev fun clk v => issue clk v c .x g (.br false annul off)

/-- CALL (R122). -/
def execCall (c : BCtx) (g : Guard) (annul : Bool) (off : Nat) : State → Out :=
  onDev fun clk v => issue clk v c .x g (.br true annul off)

/-- JR (R122). -/
def execJr (c : BCtx) (g : Guard) (annul : Bool) (a : Nat) : State → Out :=
  onDev fun clk v => issue clk v c .x g (.jr annul a)

/-- REP (R125). -/
def execRep (c : BCtx) (g : Guard) (len : Nat) (rot : Bool) (stg : Nat) (ci : Bool) (cnt : Nat) : State → Out :=
  onDev fun clk v => issue clk v c .x g (.rep len rot stg ci cnt)

/-- CSRR (R138). -/
def execCsrr (c : BCtx) (g : Guard) (reg addr : Nat) : State → Out :=
  onDev fun clk v => issue clk v c .x g (.csr .r reg addr)

/-- CSRW (R138). -/
def execCsrw (c : BCtx) (g : Guard) (reg addr : Nat) : State → Out :=
  onDev fun clk v => issue clk v c .x g (.csr .w reg addr)

/-- CSRS (R138). -/
def execCsrs (c : BCtx) (g : Guard) (reg addr : Nat) : State → Out :=
  onDev fun clk v => issue clk v c .x g (.csr .s reg addr)

/-- CSRC (R138). -/
def execCsrc (c : BCtx) (g : Guard) (reg addr : Nat) : State → Out :=
  onDev fun clk v => issue clk v c .x g (.csr .c reg addr)

/-- FENCE_W (R146). -/
def execFenceW (c : BCtx) (g : Guard) : State → Out := onDev fun clk v => issue clk v c .x g (.fenceW)

/-- FENCE_I (R114). -/
def execFenceI (c : BCtx) (g : Guard) : State → Out := onDev fun clk v => issue clk v c .x g (.fenceI)

/-- SCADJ (R136). -/
def execScadj (c : BCtx) (g : Guard) : State → Out := onDev fun clk v => issue clk v c .x g (.scadj)

/-- WAIT (R150). -/
def execWait (c : BCtx) (g : Guard) : State → Out := onDev fun clk v => issue clk v c .x g (.wait)

/-- TRAP (R143). -/
def execTrap (c : BCtx) (g : Guard) (code : Nat) : State → Out := onDev fun clk v => issue clk v c .x g (.trap code)

/-- BREAK (R143). -/
def execBrk (c : BCtx) (g : Guard) : State → Out := onDev fun clk v => issue clk v c .x g (.brk)

/-- RFE (R144). -/
def execRfe (c : BCtx) (g : Guard) : State → Out := onDev fun clk v => issue clk v c .x g (.rfe)

/-- LDB (R130). -/
def execLdb (c : BCtx) (g : Guard) (l1 : Bool) (s p m am : Nat) (sx : Bool) : State → Out :=
  onDev fun clk v => issue clk v c (if l1 then .l1 else .l0) g (.ld 1 s p m am sx)

/-- LDH (R130). -/
def execLdh (c : BCtx) (g : Guard) (l1 : Bool) (s p m am : Nat) (sx : Bool) : State → Out :=
  onDev fun clk v => issue clk v c (if l1 then .l1 else .l0) g (.ld 2 s p m am sx)

/-- LDW (R130). -/
def execLdw (c : BCtx) (g : Guard) (l1 : Bool) (s p m am : Nat) (sx : Bool) : State → Out :=
  onDev fun clk v => issue clk v c (if l1 then .l1 else .l0) g (.ld 4 s p m am sx)

/-- LDD (R130). -/
def execLdd (c : BCtx) (g : Guard) (l1 : Bool) (s p m am : Nat) (sx : Bool) : State → Out :=
  onDev fun clk v => issue clk v c (if l1 then .l1 else .l0) g (.ld 8 s p m am sx)

/-- STB (R130). -/
def execStb (c : BCtx) (g : Guard) (l1 : Bool) (s p m am : Nat) : State → Out :=
  onDev fun clk v => issue clk v c (if l1 then .l1 else .l0) g (.st 1 s p m am)

/-- STH (R130). -/
def execSth (c : BCtx) (g : Guard) (l1 : Bool) (s p m am : Nat) : State → Out :=
  onDev fun clk v => issue clk v c (if l1 then .l1 else .l0) g (.st 2 s p m am)

/-- STW (R130). -/
def execStw (c : BCtx) (g : Guard) (l1 : Bool) (s p m am : Nat) : State → Out :=
  onDev fun clk v => issue clk v c (if l1 then .l1 else .l0) g (.st 4 s p m am)

/-- STD (R130). -/
def execStd (c : BCtx) (g : Guard) (l1 : Bool) (s p m am : Nat) : State → Out :=
  onDev fun clk v => issue clk v c (if l1 then .l1 else .l0) g (.st 8 s p m am)

/-- LDW_D (R114). -/
def execLdwD (c : BCtx) (g : Guard) (l1 : Bool) (s p disp : Nat) : State → Out :=
  onDev fun clk v => issue clk v c (if l1 then .l1 else .l0) g (.ldwD s p disp)

/-- STW_D (R114). -/
def execStwD (c : BCtx) (g : Guard) (l1 : Bool) (s p disp : Nat) : State → Out :=
  onDev fun clk v => issue clk v c (if l1 then .l1 else .l0) g (.stwD s p disp)

/-- PADD (R114). -/
def execPadd (c : BCtx) (g : Guard) (l1 : Bool) (pd pa s : Nat) : State → Out :=
  onDev fun clk v => issue clk v c (if l1 then .l1 else .l0) g (.padd pd pa s)

/-- PMOD (R131). -/
def execPmod (c : BCtx) (g : Guard) (l1 : Bool) (p m am : Nat) : State → Out :=
  onDev fun clk v => issue clk v c (if l1 then .l1 else .l0) g (.pmod p m am)

/-- PSET (R114). -/
def execPset (c : BCtx) (g : Guard) (l1 : Bool) (pd s : Nat) : State → Out :=
  onDev fun clk v => issue clk v c (if l1 then .l1 else .l0) g (.pset pd s)

/-- PGET (R114). -/
def execPget (c : BCtx) (g : Guard) (l1 : Bool) (s p : Nat) : State → Out :=
  onDev fun clk v => issue clk v c (if l1 then .l1 else .l0) g (.pget s p)

/-- MSET (R114). -/
def execMset (c : BCtx) (g : Guard) (l1 : Bool) (md s : Nat) : State → Out :=
  onDev fun clk v => issue clk v c (if l1 then .l1 else .l0) g (.mset md s)

/-- MAC (R117). -/
def execMac (c : BCtx) (g : Guard) (an a b sub : Nat) : State → Out :=
  onDev fun clk v => issue clk v c .v g (.acc .mac an a b sub)

/-- CMAC (R117). -/
def execCmac (c : BCtx) (g : Guard) (an a b sub : Nat) : State → Out :=
  onDev fun clk v => issue clk v c .v g (.acc .cmac an a b sub)

/-- MUL (R114). -/
def execMul (c : BCtx) (g : Guard) (d a b sub : Nat) : State → Out :=
  onDev fun clk v => issue clk v c .v g (.mul d a b sub)

/-- MVA (R133). -/
def execMva (c : BCtx) (g : Guard) (d an form : Nat) : State → Out :=
  onDev fun clk v => issue clk v c .v g (.mva d an form)

/-- ACLR (R114). -/
def execAclr (c : BCtx) (g : Guard) (an : Nat) : State → Out :=
  onDev fun clk v => issue clk v c .v g (.acc .aclr an 0 0 0)

end Sys2Proof.Machine
end

