-- ==== Sys2Proof/Machine/VectorOps.lean ====
section
/-! DEFINITION. The vector syllables (R161, R162). -/
namespace Sys2Proof.Machine

/-- VSETVL (R162). -/
def execVsetvl (c : BCtx) (g : Guard) (s v s2 : Nat) (mk : Bool) : State → Out :=
  onDev fun clk dv => issue clk dv c .v g (.vx .setvl s v s2 mk 0)

/-- VADD (R162). -/
def execVadd (c : BCtx) (g : Guard) (vd va vb : Nat) (mk : Bool) (sub : Nat) : State → Out :=
  onDev fun clk v => issue clk v c .v g (.vv .add vd va vb mk sub)

/-- VSUB (R162). -/
def execVsub (c : BCtx) (g : Guard) (vd va vb : Nat) (mk : Bool) (sub : Nat) : State → Out :=
  onDev fun clk v => issue clk v c .v g (.vv .sub vd va vb mk sub)

/-- VADDS (R162). -/
def execVadds (c : BCtx) (g : Guard) (vd va s : Nat) (mk : Bool) (sub : Nat) : State → Out :=
  onDev fun clk v => issue clk v c .v g (.vs .adds vd va s mk sub)

/-- VAND (R162). -/
def execVand (c : BCtx) (g : Guard) (vd va vb : Nat) (mk : Bool) (sub : Nat) : State → Out :=
  onDev fun clk v => issue clk v c .v g (.vv .and vd va vb mk sub)

/-- VOR (R162). -/
def execVor (c : BCtx) (g : Guard) (vd va vb : Nat) (mk : Bool) (sub : Nat) : State → Out :=
  onDev fun clk v => issue clk v c .v g (.vv .or vd va vb mk sub)

/-- VXOR (R162). -/
def execVxor (c : BCtx) (g : Guard) (vd va vb : Nat) (mk : Bool) (sub : Nat) : State → Out :=
  onDev fun clk v => issue clk v c .v g (.vv .xor vd va vb mk sub)

/-- VSHL (R162). -/
def execVshl (c : BCtx) (g : Guard) (vd va s : Nat) (mk : Bool) (sub : Nat) : State → Out :=
  onDev fun clk v => issue clk v c .v g (.vs .shl vd va s mk sub)

/-- VSHR (R162). -/
def execVshr (c : BCtx) (g : Guard) (vd va s : Nat) (mk : Bool) (sub : Nat) : State → Out :=
  onDev fun clk v => issue clk v c .v g (.vs .shr vd va s mk sub)

/-- VMIN (R162). -/
def execVmin (c : BCtx) (g : Guard) (vd va vb : Nat) (mk : Bool) (sub : Nat) : State → Out :=
  onDev fun clk v => issue clk v c .v g (.vv .min vd va vb mk sub)

/-- VMAX (R162). -/
def execVmax (c : BCtx) (g : Guard) (vd va vb : Nat) (mk : Bool) (sub : Nat) : State → Out :=
  onDev fun clk v => issue clk v c .v g (.vv .max vd va vb mk sub)

/-- VABS (R162). -/
def execVabs (c : BCtx) (g : Guard) (vd va vb : Nat) (mk : Bool) (sub : Nat) : State → Out :=
  onDev fun clk v => issue clk v c .v g (.vv .abs vd va vb mk sub)

/-- VMERGE (R162). -/
def execVmerge (c : BCtx) (g : Guard) (vd va vb : Nat) (mk : Bool) (sub : Nat) : State → Out :=
  onDev fun clk v => issue clk v c .v g (.vv .merge vd va vb mk sub)

/-- VCONJ (R162). -/
def execVconj (c : BCtx) (g : Guard) (vd va vb : Nat) (mk : Bool) (sub : Nat) : State → Out :=
  onDev fun clk v => issue clk v c .v g (.vv .conj vd va vb mk sub)

/-- VMUL (R162). -/
def execVmul (c : BCtx) (g : Guard) (vd va vb : Nat) (mk : Bool) (sub : Nat) : State → Out :=
  onDev fun clk v => issue clk v c .v g (.vv .mul vd va vb mk sub)

/-- VMULS (R162). -/
def execVmuls (c : BCtx) (g : Guard) (vd va s : Nat) (mk : Bool) (sub : Nat) : State → Out :=
  onDev fun clk v => issue clk v c .v g (.vs .muls vd va s mk sub)

/-- VMAC (R162). -/
def execVmac (c : BCtx) (g : Guard) (vd va vb : Nat) (mk : Bool) (sub : Nat) : State → Out :=
  onDev fun clk v => issue clk v c .v g (.vv .mac vd va vb mk sub)

/-- VWMAC (R165). -/
def execVwmac (c : BCtx) (g : Guard) (vd va vb : Nat) (mk : Bool) (sub : Nat) : State → Out :=
  onDev fun clk v => issue clk v c .v g (.vv .wmac vd va vb mk sub)

/-- VMAG2 (R162). -/
def execVmag2 (c : BCtx) (g : Guard) (vd va vb : Nat) (mk : Bool) (sub : Nat) : State → Out :=
  onDev fun clk v => issue clk v c .v g (.vv .mag2 vd va vb mk sub)

/-- VFADD (R167). -/
def execVfadd (c : BCtx) (g : Guard) (vd va vb : Nat) (mk : Bool) (sub : Nat) : State → Out :=
  onDev fun clk v => issue clk v c .v g (.vv .fadd vd va vb mk sub)

/-- VFSUB (R167). -/
def execVfsub (c : BCtx) (g : Guard) (vd va vb : Nat) (mk : Bool) (sub : Nat) : State → Out :=
  onDev fun clk v => issue clk v c .v g (.vv .fsub vd va vb mk sub)

/-- VFMUL (R167). -/
def execVfmul (c : BCtx) (g : Guard) (vd va vb : Nat) (mk : Bool) (sub : Nat) : State → Out :=
  onDev fun clk v => issue clk v c .v g (.vv .fmul vd va vb mk sub)

/-- VFMA (R162). -/
def execVfma (c : BCtx) (g : Guard) (vd va vb : Nat) (mk : Bool) (sub : Nat) : State → Out :=
  onDev fun clk v => issue clk v c .v g (.vv .fma vd va vb mk sub)

/-- VCVT (R168). -/
def execVcvt (c : BCtx) (g : Guard) (vd va vb : Nat) (mk : Bool) (sub : Nat) : State → Out :=
  onDev fun clk v => issue clk v c .v g (.vv .cvt vd va vb mk sub)

/-- VCMP (R162). -/
def execVcmp (c : BCtx) (g : Guard) (vd va vb : Nat) (mk : Bool) (sub : Nat) : State → Out :=
  onDev fun clk v => issue clk v c .v g (.vv .cmp vd va vb mk sub)

/-- VSLIDEUP (R162). -/
def execVslideup (c : BCtx) (g : Guard) (vd va s : Nat) (mk : Bool) (sub : Nat) : State → Out :=
  onDev fun clk v => issue clk v c .v g (.vs .slideup vd va s mk sub)

/-- VSLIDEDN (R162). -/
def execVslidedn (c : BCtx) (g : Guard) (vd va s : Nat) (mk : Bool) (sub : Nat) : State → Out :=
  onDev fun clk v => issue clk v c .v g (.vs .slidedn vd va s mk sub)

/-- VZIP (R169). -/
def execVzip (c : BCtx) (g : Guard) (vd va vb : Nat) (mk : Bool) (sub : Nat) : State → Out :=
  onDev fun clk v => issue clk v c .v g (.vv .zip vd va vb mk sub)

/-- VBCAST (R162). -/
def execVbcast (c : BCtx) (g : Guard) (s v s2 : Nat) (mk : Bool) (sub : Nat) : State → Out :=
  onDev fun clk dv => issue clk dv c .v g (.vx .bcast s v s2 mk sub)

/-- VEXT (R162). -/
def execVext (c : BCtx) (g : Guard) (s v s2 : Nat) (mk : Bool) (sub : Nat) : State → Out :=
  onDev fun clk dv => issue clk dv c .v g (.vx .ext s v s2 mk sub)

/-- VINS (R162). -/
def execVins (c : BCtx) (g : Guard) (s v s2 : Nat) (mk : Bool) (sub : Nat) : State → Out :=
  onDev fun clk dv => issue clk dv c .v g (.vx .ins s v s2 mk sub)

/-- VRSUM (R162). -/
def execVrsum (c : BCtx) (g : Guard) (an va : Nat) (mk : Bool) (sub : Nat) : State → Out :=
  onDev fun clk v => issue clk v c .v g (.vrsum an va mk sub)

/-- VMAXI (R175). -/
def execVmaxi (c : BCtx) (g : Guard) (s v s2 : Nat) (mk : Bool) (sub : Nat) : State → Out :=
  onDev fun clk dv => issue clk dv c .v g (.vx .maxi s v s2 mk sub)

/-- VMINI (R175). -/
def execVmini (c : BCtx) (g : Guard) (s v s2 : Nat) (mk : Bool) (sub : Nat) : State → Out :=
  onDev fun clk dv => issue clk dv c .v g (.vx .mini s v s2 mk sub)

/-- VMVA (R166). -/
def execVmva (c : BCtx) (g : Guard) (vd va vb : Nat) (mk : Bool) (sub : Nat) : State → Out :=
  onDev fun clk v => issue clk v c .v g (.vv .mva vd va vb mk sub)

/-- VLD (R176). -/
def execVld (c : BCtx) (g : Guard) (l1 : Bool) (v p m am : Nat) (mk : Bool) : State → Out :=
  onDev fun clk dv => issue clk dv c (if l1 then .l1 else .l0) g (.vld false v p m am mk)

/-- VST (R176). -/
def execVst (c : BCtx) (g : Guard) (l1 : Bool) (v p m am : Nat) (mk : Bool) : State → Out :=
  onDev fun clk dv => issue clk dv c (if l1 then .l1 else .l0) g (.vst false v p m am mk)

/-- VLDS (R176). -/
def execVlds (c : BCtx) (g : Guard) (l1 : Bool) (v p m am : Nat) (mk : Bool) : State → Out :=
  onDev fun clk dv => issue clk dv c (if l1 then .l1 else .l0) g (.vlds v p m am mk)

/-- VSTS (R176). -/
def execVsts (c : BCtx) (g : Guard) (l1 : Bool) (v p m am : Nat) (mk : Bool) : State → Out :=
  onDev fun clk dv => issue clk dv c (if l1 then .l1 else .l0) g (.vsts v p m am mk)

/-- VGATH (R183). -/
def execVgath (c : BCtx) (g : Guard) (l1 : Bool) (v p vi : Nat) (mk : Bool) (sc : Nat) : State → Out :=
  onDev fun clk dv => issue clk dv c (if l1 then .l1 else .l0) g (.vgath v p vi mk sc)

/-- VSCAT (R182). -/
def execVscat (c : BCtx) (g : Guard) (l1 : Bool) (v p vi : Nat) (mk : Bool) (sc : Nat) : State → Out :=
  onDev fun clk dv => issue clk dv c (if l1 then .l1 else .l0) g (.vscat v p vi mk sc)

/-- VLDR (R176). -/
def execVldr (c : BCtx) (g : Guard) (l1 : Bool) (v p m am : Nat) (mk : Bool) : State → Out :=
  onDev fun clk dv => issue clk dv c (if l1 then .l1 else .l0) g (.vld true v p m am mk)

/-- VSTR (R176). -/
def execVstr (c : BCtx) (g : Guard) (l1 : Bool) (v p m am : Nat) (mk : Bool) : State → Out :=
  onDev fun clk dv => issue clk dv c (if l1 then .l1 else .l0) g (.vst true v p m am mk)

end Sys2Proof.Machine
end

