-- ==== Sys2Proof/Machine/Dispatch.lean ====
section
/-! DEFINITION. One arm per command: the meaning it calls. -/
namespace Sys2Proof.Machine

/-- What a command does to everything but the queue. -/
def exec (i : Instr) (s : State) : Host.Outcome State Fault Refusal :=
  match i with
  | .deviceSetMode r mode live => Sys2Proof.Machine.execDeviceSetMode r mode live s
  | .modeLiveBoundary => Sys2Proof.Machine.execModeLiveBoundary s
  | .modeDrainBoundary => Sys2Proof.Machine.execModeDrainBoundary s
  | .modeDrainAbort => Sys2Proof.Machine.execModeDrainAbort s
  | .modeDone => Sys2Proof.Machine.execModeDone s
  | .deviceGetMode r => Sys2Proof.Machine.execDeviceGetMode r s
  | .deviceGetCapacity r => Sys2Proof.Machine.execDeviceGetCapacity r s
  | .deviceLookBind r stream dir chan domain => Sys2Proof.Machine.execDeviceLookBind r stream dir chan domain s
  | .deviceLookStatus r stream dir => Sys2Proof.Machine.execDeviceLookStatus r stream dir s
  | .lookTxMessage stream => Sys2Proof.Machine.execLookTxMessage stream s
  | .lookRxMessage chan => Sys2Proof.Machine.execLookRxMessage chan s
  | .deviceConfSet r carrier source model pci vslot start => Sys2Proof.Machine.execDeviceConfSet r carrier source model pci vslot start s
  | .deviceConfVectorLoad r vslot tracks frames rate samples => Sys2Proof.Machine.execDeviceConfVectorLoad r vslot tracks frames rate samples s
  | .deviceConfCapture r stream start frames => Sys2Proof.Machine.execDeviceConfCapture r stream start frames s
  | .confCaptureDone => Sys2Proof.Machine.execConfCaptureDone s
  | .confPlanForm carrier frame slot threads jobs => Sys2Proof.Machine.execConfPlanForm carrier frame slot threads s jobs
  | .mbRing func mask => Sys2Proof.Machine.execMbRing func mask s
  | .evtConsWrite func value => Sys2Proof.Machine.execEvtConsWrite func value s
  | .bar2WinWrite func value => Sys2Proof.Machine.execBar2WinWrite func value s
  | .ntcSnapshotTrigger func => Sys2Proof.Machine.execNtcSnapshotTrigger func s
  | .snapSeqIncrement func => Sys2Proof.Machine.execSnapSeqIncrement func s
  | .functionLevelReset func => Sys2Proof.Machine.execFunctionLevelReset func s
  | .linkDown port => Sys2Proof.Machine.execLinkDown port s
  | .perstAssert port => Sys2Proof.Machine.execPerstAssert port s
  | .configRequest func write field value => Sys2Proof.Machine.execConfigRequest func write field value s
  | .hostMemoryRead func bar off len => Sys2Proof.Machine.execHostMemoryRead func bar off len s
  | .hostMemoryWrite func bar off data ep => Sys2Proof.Machine.execHostMemoryWrite func bar off data ep s
  | .registerWrite kind idx priv addr data => Sys2Proof.Machine.execRegisterWrite kind idx priv addr data s
  | .rcRegisterRead kind idx priv addr len => Sys2Proof.Machine.execRcRegisterRead kind idx priv addr len s
  | .msixUnmask func vector => Sys2Proof.Machine.execMsixUnmask func vector s
  | .msixModerationTimeout func vector => Sys2Proof.Machine.execMsixModerationTimeout func vector s
  | .hostSetEventRing r addr log => Sys2Proof.Machine.execHostSetEventRing r addr log s
  | .hostSetVectors r counts => Sys2Proof.Machine.execHostSetVectors r counts s
  | .hostSetModeration r vector count time => Sys2Proof.Machine.execHostSetModeration r vector count time s
  | .hostAssignQueues r owners => Sys2Proof.Machine.execHostAssignQueues r owners s
  | .hostSetQueue r queue addr entries dir vector noSnoop => Sys2Proof.Machine.execHostSetQueue r queue addr entries dir vector noSnoop s
  | .hostGetFuncStats r => Sys2Proof.Machine.execHostGetFuncStats r s
  | .hostQueueDoorbell func queue value => Sys2Proof.Machine.execHostQueueDoorbell func queue value s
  | .cadPortPost port who => Sys2Proof.Machine.execCadPortPost port who s
  | .cadPortCancel port who => Sys2Proof.Machine.execCadPortCancel port who s
  | .atcNowLowRead requester => Sys2Proof.Machine.execAtcNowLowRead requester s
  | .cadenceEntryFire found => Sys2Proof.Machine.execCadenceEntryFire s found
  | .airCarrierAdd r carrier std bw mu cp off hostCar => Sys2Proof.Machine.execAirCarrierAdd r carrier std bw mu cp off hostCar s
  | .airCarrierRemove r carrier => Sys2Proof.Machine.execAirCarrierRemove r carrier s
  | .airGetTime r carrier => Sys2Proof.Machine.execAirGetTime r carrier s
  | .cadPost r trigger period count action flags target arg => Sys2Proof.Machine.execCadPost r trigger period count action flags target arg s
  | .cadCancel r index => Sys2Proof.Machine.execCadCancel r index s
  | .cadAssignPort r port owner pool => Sys2Proof.Machine.execCadAssignPort r port owner pool s
  | .airShadowArm r cls inst value => Sys2Proof.Machine.execAirShadowArm r cls inst value s
  | .airShadowStatus r cls inst => Sys2Proof.Machine.execAirShadowStatus r cls inst s
  | .airPlanSubmit r carrier sfn slot flags count override records times threads further => Sys2Proof.Machine.execAirPlanSubmit r carrier sfn slot flags count override records times s threads further
  | .airPlanCancel r carrier frame slot => Sys2Proof.Machine.execAirPlanCancel r carrier frame slot s
  | .planGap carrier slot => Sys2Proof.Machine.execPlanGap carrier slot s
  | .ledgerChargeExpire => Sys2Proof.Machine.execLedgerChargeExpire s
  | .nop c g slot => Sys2Proof.Machine.execNop c g slot s
  | .add c g d a b sub => Sys2Proof.Machine.execAdd c g d a b sub s
  | .sub c g d a b sub => Sys2Proof.Machine.execSub c g d a b sub s
  | .and c g d a b sub => Sys2Proof.Machine.execAnd c g d a b sub s
  | .or c g d a b sub => Sys2Proof.Machine.execOr c g d a b sub s
  | .xor c g d a b sub => Sys2Proof.Machine.execXor c g d a b sub s
  | .shl c g d a b sub => Sys2Proof.Machine.execShl c g d a b sub s
  | .shr c g d a b sub => Sys2Proof.Machine.execShr c g d a b sub s
  | .addi c g d a imm => Sys2Proof.Machine.execAddi c g d a imm s
  | .movi c g d imm => Sys2Proof.Machine.execMovi c g d imm s
  | .movl c g d => Sys2Proof.Machine.execMovl c g d s
  | .cmp c g qd cond a b => Sys2Proof.Machine.execCmp c g qd cond a b s
  | .maxi c g d a b sub => Sys2Proof.Machine.execMaxi c g d a b sub s
  | .mini c g d a b sub => Sys2Proof.Machine.execMini c g d a b sub s
  | .br c g annul off => Sys2Proof.Machine.execBr c g annul off s
  | .call c g annul off => Sys2Proof.Machine.execCall c g annul off s
  | .jr c g annul a => Sys2Proof.Machine.execJr c g annul a s
  | .rep c g len rot stg ci cnt => Sys2Proof.Machine.execRep c g len rot stg ci cnt s
  | .repIterationEnd core => Sys2Proof.Machine.execRepIterationEnd core s
  | .csrr c g reg addr => Sys2Proof.Machine.execCsrr c g reg addr s
  | .csrw c g reg addr => Sys2Proof.Machine.execCsrw c g reg addr s
  | .csrs c g reg addr => Sys2Proof.Machine.execCsrs c g reg addr s
  | .csrc c g reg addr => Sys2Proof.Machine.execCsrc c g reg addr s
  | .fenceW c g => Sys2Proof.Machine.execFenceW c g s
  | .fenceI c g => Sys2Proof.Machine.execFenceI c g s
  | .scadj c g => Sys2Proof.Machine.execScadj c g s
  | .wait c g => Sys2Proof.Machine.execWait c g s
  | .waitResume core => Sys2Proof.Machine.execWaitResume core s
  | .trap c g code => Sys2Proof.Machine.execTrap c g code s
  | .brk c g => Sys2Proof.Machine.execBrk c g s
  | .rfe c g => Sys2Proof.Machine.execRfe c g s
  | .ldb c g l1 s0 p m am sx => Sys2Proof.Machine.execLdb c g l1 s0 p m am sx s
  | .ldh c g l1 s0 p m am sx => Sys2Proof.Machine.execLdh c g l1 s0 p m am sx s
  | .ldw c g l1 s0 p m am sx => Sys2Proof.Machine.execLdw c g l1 s0 p m am sx s
  | .ldd c g l1 s0 p m am sx => Sys2Proof.Machine.execLdd c g l1 s0 p m am sx s
  | .stb c g l1 s0 p m am => Sys2Proof.Machine.execStb c g l1 s0 p m am s
  | .sth c g l1 s0 p m am => Sys2Proof.Machine.execSth c g l1 s0 p m am s
  | .stw c g l1 s0 p m am => Sys2Proof.Machine.execStw c g l1 s0 p m am s
  | .std c g l1 s0 p m am => Sys2Proof.Machine.execStd c g l1 s0 p m am s
  | .ldwD c g l1 s0 p disp => Sys2Proof.Machine.execLdwD c g l1 s0 p disp s
  | .stwD c g l1 s0 p disp => Sys2Proof.Machine.execStwD c g l1 s0 p disp s
  | .padd c g l1 pd pa s0 => Sys2Proof.Machine.execPadd c g l1 pd pa s0 s
  | .pmod c g l1 p m am => Sys2Proof.Machine.execPmod c g l1 p m am s
  | .pset c g l1 pd s0 => Sys2Proof.Machine.execPset c g l1 pd s0 s
  | .pget c g l1 s0 p => Sys2Proof.Machine.execPget c g l1 s0 p s
  | .mset c g l1 md s0 => Sys2Proof.Machine.execMset c g l1 md s0 s
  | .mac c g an a b sub => Sys2Proof.Machine.execMac c g an a b sub s
  | .cmac c g an a b sub => Sys2Proof.Machine.execCmac c g an a b sub s
  | .mul c g d a b sub => Sys2Proof.Machine.execMul c g d a b sub s
  | .mva c g d an form => Sys2Proof.Machine.execMva c g d an form s
  | .aclr c g an => Sys2Proof.Machine.execAclr c g an s
  | .farLoadAnswer core resp data => Sys2Proof.Machine.execFarLoadAnswer core resp data s
  | .writeBufferAnswer core resp => Sys2Proof.Machine.execWriteBufferAnswer core resp s
  | .preemptInterrupt core => Sys2Proof.Machine.execPreemptInterrupt core s
  | .eventInterrupt core => Sys2Proof.Machine.execEventInterrupt core s
  | .imgLoad r slot image => Sys2Proof.Machine.execImgLoad r slot image s
  | .imgBind r pool slot => Sys2Proof.Machine.execImgBind r pool slot s
  | .imgSwap r pool slot prompt => Sys2Proof.Machine.execImgSwap r pool slot prompt s
  | .coreReload core => Sys2Proof.Machine.execCoreReload core s
  | .imgSwapped pool => Sys2Proof.Machine.execImgSwapped pool s
  | .imgInfo r slot => Sys2Proof.Machine.execImgInfo r slot s
  | .coreGetState r core => Sys2Proof.Machine.execCoreGetState r core s
  | .coreRestart r core => Sys2Proof.Machine.execCoreRestart r core s
  | .vsetvl c g s0 v s2 mk => Sys2Proof.Machine.execVsetvl c g s0 v s2 mk s
  | .vadd c g vd va vb mk sub => Sys2Proof.Machine.execVadd c g vd va vb mk sub s
  | .vsub c g vd va vb mk sub => Sys2Proof.Machine.execVsub c g vd va vb mk sub s
  | .vadds c g vd va s0 mk sub => Sys2Proof.Machine.execVadds c g vd va s0 mk sub s
  | .vand c g vd va vb mk sub => Sys2Proof.Machine.execVand c g vd va vb mk sub s
  | .vor c g vd va vb mk sub => Sys2Proof.Machine.execVor c g vd va vb mk sub s
  | .vxor c g vd va vb mk sub => Sys2Proof.Machine.execVxor c g vd va vb mk sub s
  | .vshl c g vd va s0 mk sub => Sys2Proof.Machine.execVshl c g vd va s0 mk sub s
  | .vshr c g vd va s0 mk sub => Sys2Proof.Machine.execVshr c g vd va s0 mk sub s
  | .vmin c g vd va vb mk sub => Sys2Proof.Machine.execVmin c g vd va vb mk sub s
  | .vmax c g vd va vb mk sub => Sys2Proof.Machine.execVmax c g vd va vb mk sub s
  | .vabs c g vd va vb mk sub => Sys2Proof.Machine.execVabs c g vd va vb mk sub s
  | .vmerge c g vd va vb mk sub => Sys2Proof.Machine.execVmerge c g vd va vb mk sub s
  | .vconj c g vd va vb mk sub => Sys2Proof.Machine.execVconj c g vd va vb mk sub s
  | .vmul c g vd va vb mk sub => Sys2Proof.Machine.execVmul c g vd va vb mk sub s
  | .vmuls c g vd va s0 mk sub => Sys2Proof.Machine.execVmuls c g vd va s0 mk sub s
  | .vmac c g vd va vb mk sub => Sys2Proof.Machine.execVmac c g vd va vb mk sub s
  | .vwmac c g vd va vb mk sub => Sys2Proof.Machine.execVwmac c g vd va vb mk sub s
  | .vmag2 c g vd va vb mk sub => Sys2Proof.Machine.execVmag2 c g vd va vb mk sub s
  | .vfadd c g vd va vb mk sub => Sys2Proof.Machine.execVfadd c g vd va vb mk sub s
  | .vfsub c g vd va vb mk sub => Sys2Proof.Machine.execVfsub c g vd va vb mk sub s
  | .vfmul c g vd va vb mk sub => Sys2Proof.Machine.execVfmul c g vd va vb mk sub s
  | .vfma c g vd va vb mk sub => Sys2Proof.Machine.execVfma c g vd va vb mk sub s
  | .vcvt c g vd va vb mk sub => Sys2Proof.Machine.execVcvt c g vd va vb mk sub s
  | .vcmp c g vd va vb mk sub => Sys2Proof.Machine.execVcmp c g vd va vb mk sub s
  | .vslideup c g vd va s0 mk sub => Sys2Proof.Machine.execVslideup c g vd va s0 mk sub s
  | .vslidedn c g vd va s0 mk sub => Sys2Proof.Machine.execVslidedn c g vd va s0 mk sub s
  | .vzip c g vd va vb mk sub => Sys2Proof.Machine.execVzip c g vd va vb mk sub s
  | .vbcast c g s0 v s2 mk sub => Sys2Proof.Machine.execVbcast c g s0 v s2 mk sub s
  | .vext c g s0 v s2 mk sub => Sys2Proof.Machine.execVext c g s0 v s2 mk sub s
  | .vins c g s0 v s2 mk sub => Sys2Proof.Machine.execVins c g s0 v s2 mk sub s
  | .vrsum c g an va mk sub => Sys2Proof.Machine.execVrsum c g an va mk sub s
  | .vmaxi c g s0 v s2 mk sub => Sys2Proof.Machine.execVmaxi c g s0 v s2 mk sub s
  | .vmini c g s0 v s2 mk sub => Sys2Proof.Machine.execVmini c g s0 v s2 mk sub s
  | .vmva c g vd va vb mk sub => Sys2Proof.Machine.execVmva c g vd va vb mk sub s
  | .vld c g l1 v p m am mk => Sys2Proof.Machine.execVld c g l1 v p m am mk s
  | .vst c g l1 v p m am mk => Sys2Proof.Machine.execVst c g l1 v p m am mk s
  | .vlds c g l1 v p m am mk => Sys2Proof.Machine.execVlds c g l1 v p m am mk s
  | .vsts c g l1 v p m am mk => Sys2Proof.Machine.execVsts c g l1 v p m am mk s
  | .vgath c g l1 v p vi mk sc => Sys2Proof.Machine.execVgath c g l1 v p vi mk sc s
  | .vscat c g l1 v p vi mk sc => Sys2Proof.Machine.execVscat c g l1 v p vi mk sc s
  | .vldr c g l1 v p m am mk => Sys2Proof.Machine.execVldr c g l1 v p m am mk s
  | .vstr c g l1 v p m am mk => Sys2Proof.Machine.execVstr c g l1 v p m am mk s
  | .cop0 c g fn sa sb tag => Sys2Proof.Machine.execCop0 c g fn sa sb tag s
  | .cop1 c g fn ps pd sc => Sys2Proof.Machine.execCop1 c g fn ps pd sc s
  | .cop2 c g fn ps pd sc => Sys2Proof.Machine.execCop2 c g fn ps pd sc s
  | .popR c g sd mxu => Sys2Proof.Machine.execPopR c g sd mxu s
  | .popD c g sd mxu => Sys2Proof.Machine.execPopD c g sd mxu s
  | .quiesce c g mxu => Sys2Proof.Machine.execQuiesce c g mxu s
  | .discard c g mxu => Sys2Proof.Machine.execDiscard c g mxu s
  | .copst c g qd mxu test => Sys2Proof.Machine.execCopst c g qd mxu test s
  | .copUnitStart octet mxu => Sys2Proof.Machine.execCopUnitStart octet mxu s
  | .sfuResultReady core parity => Sys2Proof.Machine.execSfuResultReady core s parity
  | .copBlockDone core mxu parity => Sys2Proof.Machine.execCopBlockDone core mxu s parity
  | .ready port flag thread => Sys2Proof.Machine.execReady port flag thread s
  | .cancel port thread => Sys2Proof.Machine.execCancel port thread s
  | .block port reset => Sys2Proof.Machine.execBlock port reset s
  | .yield port => Sys2Proof.Machine.execYield port s
  | .spawn port flag thread => Sys2Proof.Machine.execSpawn port flag thread s
  | .setdl port thread => Sys2Proof.Machine.execSetdl port thread s
  | .saddleLoad pool => Sys2Proof.Machine.execSaddleLoad pool s
  | .saddleLoadComplete core => Sys2Proof.Machine.execSaddleLoadComplete core s
  | .threadSwitch core => Sys2Proof.Machine.execThreadSwitch core s
  | .writebackDone core => Sys2Proof.Machine.execWritebackDone core s
  | .deadlineMiss thread => Sys2Proof.Machine.execDeadlineMiss thread s
  | .pelPoolConfig r pool edfp cap => Sys2Proof.Machine.execPelPoolConfig r pool edfp cap s
  | .pelResize r pool prompt mask => Sys2Proof.Machine.execPelResize r pool prompt mask s
  | .resizeDone pool => Sys2Proof.Machine.execResizeDone pool s
  | .pelThreadSet r thread pool band misspol flags escband ctxHome entry arg0 arg1 est user => Sys2Proof.Machine.execPelThreadSet r thread pool band misspol flags escband ctxHome entry arg0 arg1 est user s
  | .pelThreadFree r thread => Sys2Proof.Machine.execPelThreadFree r thread s
  | .pelThreadGet r thread => Sys2Proof.Machine.execPelThreadGet r thread s
  | .pelOp r op flag thread deadline arg0 arg1 => Sys2Proof.Machine.execPelOp r op flag thread deadline arg0 arg1 s
  | .pelPoolDisable r pool mode => Sys2Proof.Machine.execPelPoolDisable r pool mode s
  | .poolDisabled pool => Sys2Proof.Machine.execPoolDisabled pool s
  | .pelPoolEnable r pool => Sys2Proof.Machine.execPelPoolEnable r pool s
  | .pelLedgerGet r pool first count => Sys2Proof.Machine.execPelLedgerGet r pool first count s
  | .pelTraceSet r addr log2 mode events pools => Sys2Proof.Machine.execPelTraceSet r addr log2 mode events pools s
  | .engRingDoorbell who ring prod => Sys2Proof.Machine.execEngRingDoorbell who ring prod s
  | .descriptorFetch ring => Sys2Proof.Machine.execDescriptorFetch ring s
  | .jobStart eng => Sys2Proof.Machine.execJobStart eng s
  | .jobLate ring => Sys2Proof.Machine.execJobLate ring s
  | .jobEnd eng parity => Sys2Proof.Machine.execJobEnd eng s parity
  | .engRingSet r ring cls mask prio owner pool base log2 => Sys2Proof.Machine.execEngRingSet r ring cls mask prio owner pool base log2 s
  | .engRingStatus r ring => Sys2Proof.Machine.execEngRingStatus r ring s
  | .engDisable r mask mode => Sys2Proof.Machine.execEngDisable r mask mode s
  | .engEnable r mask => Sys2Proof.Machine.execEngEnable r mask s
  | .engRingDisable r ring mode => Sys2Proof.Machine.execEngRingDisable r ring mode s
  | .engRingEnable r ring => Sys2Proof.Machine.execEngRingEnable r ring s
  | .engDisabled isRing ring => Sys2Proof.Machine.execEngDisabled isRing ring s
  | .engGetStats r engine => Sys2Proof.Machine.execEngGetStats r engine s
  | .engHarqConfig r func base size => Sys2Proof.Machine.execEngHarqConfig r func base size s
  | .engClassConfig r cls cap => Sys2Proof.Machine.execEngClassConfig r cls cap s
  | .feStreamSet r stream carrier fin fout hb rs side leadTx lagRx => Sys2Proof.Machine.execFeStreamSet r stream carrier fin fout hb rs side leadTx lagRx s
  | .feShadowWrite r stream dir mask sectEn gain phase dlyInt dlyFrac mute => Sys2Proof.Machine.execFeShadowWrite r stream dir mask sectEn gain phase dlyInt dlyFrac mute s
  | .feCassetteWrite r stream dir cas mask coefs => Sys2Proof.Machine.execFeCassetteWrite r stream dir cas mask coefs s
  | .feShift r stream dir target len notify => Sys2Proof.Machine.execFeShift r stream dir target len notify s
  | .cassetteDone stream dir => Sys2Proof.Machine.execCassetteDone stream dir s
  | .feStatus r stream dir => Sys2Proof.Machine.execFeStatus r stream dir s
  | .feDetectSet r stream dir det tap k att dec hi lo => Sys2Proof.Machine.execFeDetectSet r stream dir det tap k att dec hi lo s
  | .feDetectRead r stream dir => Sys2Proof.Machine.execFeDetectRead r stream dir s
  | .feGetDelay r stream dir => Sys2Proof.Machine.execFeGetDelay r stream dir s
  | .feStreamRemove r stream => Sys2Proof.Machine.execFeStreamRemove r stream s
  | .detectWindowEnd stream dir rms => Sys2Proof.Machine.execDetectWindowEnd stream dir rms s
  | .feEnvelope stream dir => Sys2Proof.Machine.execFeEnvelope stream dir s
  | .resamplerReanchor stream dir => Sys2Proof.Machine.execResamplerReanchor stream dir s
  | .cmpShadowWrite r stream dir mask mode m mMin mMax bound => Sys2Proof.Machine.execCmpShadowWrite r stream dir mask mode m mMin mMax bound s
  | .cmpStatus r stream dir => Sys2Proof.Machine.execCmpStatus r stream dir s
  | .cmpClear r stream dir => Sys2Proof.Machine.execCmpClear r stream dir s
  | .fabricRequest src sport type pri tag addr len data peer kind idx priv errNode errPort replays => Sys2Proof.Machine.execFabricRequest src sport type pri tag addr len data peer kind idx priv errNode errPort replays s
  | .fabricResponse => Sys2Proof.Machine.execFabricResponse s
  | .packetAtClosedGate => Sys2Proof.Machine.execPacketAtClosedGate s
  | .gateIsolated dom => Sys2Proof.Machine.execGateIsolated dom s
  | .fabLinkFault node port => Sys2Proof.Machine.execFabLinkFault node port s
  | .linkSelftestDone node port errors => Sys2Proof.Machine.execLinkSelftestDone node port errors s
  | .routeFlip => Sys2Proof.Machine.execRouteFlip s
  | .flipHoldRelease => Sys2Proof.Machine.execFlipHoldRelease s
  | .fabEpochRetired => Sys2Proof.Machine.execFabEpochRetired s
  | .fabRouteWrite r node bank turns table => Sys2Proof.Machine.execFabRouteWrite r node bank turns table s
  | .fabRouteCommit r at_ => Sys2Proof.Machine.execFabRouteCommit r at_ s
  | .fabRouteStatus r => Sys2Proof.Machine.execFabRouteStatus r s
  | .fabProbeSet r probe enable node port dir mode srcLo srcHi destLo destHi pri vc type addrLo addrHi => Sys2Proof.Machine.execFabProbeSet r probe enable node port dir mode srcLo srcHi destLo destHi pri vc type addrLo addrHi s
  | .fabTraceSet r addr log mode => Sys2Proof.Machine.execFabTraceSet r addr log mode s
  | .fabGateStatus r dom => Sys2Proof.Machine.execFabGateStatus r dom s
  | .fabLinkStatus r node port => Sys2Proof.Machine.execFabLinkStatus r node port s
  | .movDoorbell chan prod kind idx priv => Sys2Proof.Machine.execMovDoorbell chan prod kind idx priv s
  | .resumeRetry chan kind idx priv => Sys2Proof.Machine.execResumeRetry chan kind idx priv s
  | .resumeSkip chan kind idx priv => Sys2Proof.Machine.execResumeSkip chan kind idx priv s
  | .resumeAbort chan kind idx priv => Sys2Proof.Machine.execResumeAbort chan kind idx priv s
  | .descriptorComplete chan peer => Sys2Proof.Machine.execDescriptorComplete chan peer s
  | .movHalted chan peer cause at_ write => Sys2Proof.Machine.execMovHalted chan peer cause at_ write s
  | .movChanSet r chan owner pool base log prio timed deadline srcBase srcSize dstBase dstSize => Sys2Proof.Machine.execMovChanSet r chan owner pool base log prio timed deadline srcBase srcSize dstBase dstSize s
  | .movChanStatus r chan => Sys2Proof.Machine.execMovChanStatus r chan s
  | .movDisable r chan mode => Sys2Proof.Machine.execMovDisable r chan mode s
  | .movEnable r chan => Sys2Proof.Machine.execMovEnable r chan s
  | .movResume r chan action => Sys2Proof.Machine.execMovResume r chan action s
  | .movDisabled chan => Sys2Proof.Machine.execMovDisabled chan s
  | .movFuncWindow r func base size => Sys2Proof.Machine.execMovFuncWindow r func base size s
  | .memTested kind unit failed => Sys2Proof.Machine.execMemTested kind unit failed s
  | .spliceFlashWrite => Sys2Proof.Machine.execSpliceFlashWrite s
  | .scrubRead cls found => Sys2Proof.Machine.execScrubRead cls found s
  | .memUePeriodEnd cls => Sys2Proof.Machine.execMemUePeriodEnd cls s
  | .memGetMap r => Sys2Proof.Machine.execMemGetMap r s
  | .memPartitionSet r harq stream => Sys2Proof.Machine.execMemPartitionSet r harq stream s
  | .memScrubSet r cls period => Sys2Proof.Machine.execMemScrubSet r cls period s
  | .memScrubStatus r cls => Sys2Proof.Machine.execMemScrubStatus r cls s
  | .memErrStats r cls => Sys2Proof.Machine.execMemErrStats r cls s
  | .memInject r addr kind => Sys2Proof.Machine.execMemInject r addr kind s
  | .memSpliceList r first count => Sys2Proof.Machine.execMemSpliceList r first count s
  | .memSpliceAdd r addr => Sys2Proof.Machine.execMemSpliceAdd r addr s
  | .memRepair r => Sys2Proof.Machine.execMemRepair r s
  | .memRepairDone unrepairable => Sys2Proof.Machine.execMemRepairDone unrepairable s
  | .memSelftest r addr core cls => Sys2Proof.Machine.execMemSelftest r addr core cls s
  | .spkConfig r spoke port profile fec rate cmp mRange domains timed ueLimit => Sys2Proof.Machine.execSpkConfig r spoke port profile fec rate cmp mRange domains timed ueLimit s
  | .spkEnable r spoke => Sys2Proof.Machine.execSpkEnable r spoke s
  | .spkDisable r spoke mode => Sys2Proof.Machine.execSpkDisable r spoke mode s
  | .spkDisabled spoke => Sys2Proof.Machine.execSpkDisabled spoke s
  | .spkStatus r spoke => Sys2Proof.Machine.execSpkStatus r spoke s
  | .spkGetLatency r spoke => Sys2Proof.Machine.execSpkGetLatency r spoke s
  | .spkMapWrite r spoke first count entries => Sys2Proof.Machine.execSpkMapWrite r spoke first count entries s
  | .spkResize r spoke port => Sys2Proof.Machine.execSpkResize r spoke port s
  | .spkResized spoke => Sys2Proof.Machine.execSpkResized spoke s
  | .detectPulse spoke hit => Sys2Proof.Machine.execDetectPulse spoke hit s
  | .cdrLockHeld spoke => Sys2Proof.Machine.execCdrLockHeld spoke s
  | .pcsLock spoke skewOk => Sys2Proof.Machine.execPcsLock spoke skewOk s
  | .bringupTimeout spoke => Sys2Proof.Machine.execBringupTimeout spoke s
  | .retryWaitEnd spoke => Sys2Proof.Machine.execRetryWaitEnd spoke s
  | .capFrameSend spoke => Sys2Proof.Machine.execCapFrameSend spoke s
  | .cap spoke payload => Sys2Proof.Machine.execCap spoke payload s
  | .confirm spoke payload => Sys2Proof.Machine.execConfirm spoke payload s
  | .spokeFault spoke kind ue => Sys2Proof.Machine.execSpokeFault spoke kind ue s
  | .laneSelftestDone lane errors => Sys2Proof.Machine.execLaneSelftestDone lane errors s
  | .laneTableApply r first count entries => Sys2Proof.Machine.execLaneTableApply r first count entries s
  | .laneTableGet r lane => Sys2Proof.Machine.execLaneTableGet r lane s
  | .laneLoop r lane loop echo => Sys2Proof.Machine.execLaneLoop r lane loop echo s
  | .lanePatgen r lane pat inv user raw => Sys2Proof.Machine.execLanePatgen r lane pat inv user raw s
  | .lanePatchk r lane pat inv user enable => Sys2Proof.Machine.execLanePatchk r lane pat inv user enable s
  | .laneInject r lane point len every => Sys2Proof.Machine.execLaneInject r lane point len every s
  | .injectInterval lane overlap => Sys2Proof.Machine.execInjectInterval lane overlap s
  | .laneChkRead r lane clear => Sys2Proof.Machine.execLaneChkRead r lane clear s
  | .laneEyescan r lane kind n => Sys2Proof.Machine.execLaneEyescan r lane kind n s
  | .eyeDone lane => Sys2Proof.Machine.execEyeDone lane s
  | .laneEyeRead r lane => Sys2Proof.Machine.execLaneEyeRead r lane s
  | .laneSelftest r lane => Sys2Proof.Machine.execLaneSelftest r lane s
  | .frameReceive port frame symErr fecCorr fecUe => Sys2Proof.Machine.execFrameReceive port frame symErr fecCorr fecUe s
  | .pauseExpire port prio => Sys2Proof.Machine.execPauseExpire port prio s
  | .streamHoldExpire port => Sys2Proof.Machine.execStreamHoldExpire port s
  | .frameTransmit port => Sys2Proof.Machine.execFrameTransmit port s
  | .txUnderrun port => Sys2Proof.Machine.execTxUnderrun port s
  | .pfcSend port => Sys2Proof.Machine.execPfcSend port s
  | .lpiEnter port => Sys2Proof.Machine.execLpiEnter port s
  | .lpiWake port => Sys2Proof.Machine.execLpiWake port s
  | .delayMeasurementTimeout port => Sys2Proof.Machine.execDelayMeasurementTimeout port s
  | .steerKeepExpire port => Sys2Proof.Machine.execSteerKeepExpire port s
  | .macPortSet r port ownMac peerMac tci transport ownIp peerIp udp dscp maxFrame seg => Sys2Proof.Machine.execMacPortSet r port ownMac peerMac tci transport ownIp peerIp udp dscp maxFrame seg s
  | .macFilterSet r port enable addrs prom allmc keepBad vlanCheck => Sys2Proof.Machine.execMacFilterSet r port enable addrs prom allmc keepBad vlanCheck s
  | .macFlowSet r port rxPause pfcRx txPfc hold => Sys2Proof.Machine.execMacFlowSet r port rxPause pfcRx txPfc hold s
  | .macLpiSet r port en idle => Sys2Proof.Machine.execMacLpiSet r port en idle s
  | .macQueueSet r port rx tx => Sys2Proof.Machine.execMacQueueSet r port rx tx s
  | .macSteerWrite r port first count entries => Sys2Proof.Machine.execMacSteerWrite r port first count entries s
  | .macTxthreshReset r port => Sys2Proof.Machine.execMacTxthreshReset r port s
  | .macGetStats r port clear => Sys2Proof.Machine.execMacGetStats r port clear s
  | .macDelayMeasure r port two id => Sys2Proof.Machine.execMacDelayMeasure r port two id s
  | .macPortStatus r port => Sys2Proof.Machine.execMacPortStatus r port s
  | .copConfig r spoke mode mask lineAdv timed margin minMargin autoSwap syncWord syncTol syncBase syncStep ramp crcLimit => Sys2Proof.Machine.execCopConfig r spoke mode mask lineAdv timed margin minMargin autoSwap syncWord syncTol syncBase syncStep ramp crcLimit s
  | .copEnable r spoke => Sys2Proof.Machine.execCopEnable r spoke s
  | .copDisable r spoke mode => Sys2Proof.Machine.execCopDisable r spoke mode s
  | .copDisabled spoke => Sys2Proof.Machine.execCopDisabled spoke s
  | .copStatus r spoke => Sys2Proof.Machine.execCopStatus r spoke s
  | .copMaskSet r spoke nguard points notches => Sys2Proof.Machine.execCopMaskSet r spoke nguard points notches s
  | .copLoadWrite r pair dir force table => Sys2Proof.Machine.execCopLoadWrite r pair dir force table s
  | .copLoadRead r pair dir set => Sys2Proof.Machine.execCopLoadRead r pair dir set s
  | .copSnrRead r pair dir rp => Sys2Proof.Machine.execCopSnrRead r pair dir rp s
  | .copBurstSet r pair rpMask plan down up => Sys2Proof.Machine.execCopBurstSet r pair rpMask plan down up s
  | .copPairsSet r spoke mask => Sys2Proof.Machine.execCopPairsSet r spoke mask s
  | .copPairsDone spoke => Sys2Proof.Machine.execCopPairsDone spoke s
  | .copGetLatency r spoke => Sys2Proof.Machine.execCopGetLatency r spoke s
  | .copGetStats r pair rp clear => Sys2Proof.Machine.execCopGetStats r pair rp clear s
  | .copSelftest r pair => Sys2Proof.Machine.execCopSelftest r pair s
  | .copQualify r pair margin => Sys2Proof.Machine.execCopQualify r pair margin s
  | .copQualifyDone pair noPeer => Sys2Proof.Machine.execCopQualifyDone pair noPeer s
  | .lineSuperframe spoke echo => Sys2Proof.Machine.execLineSuperframe spoke echo s
  | .syncMatch pair q errs power => Sys2Proof.Machine.execSyncMatch pair q errs power s
  | .headerDecision pair header => Sys2Proof.Machine.execHeaderDecision pair header s
  | .burstEnd pair => Sys2Proof.Machine.execBurstEnd pair s
  | .linkFrameReceive pair frame => Sys2Proof.Machine.execLinkFrameReceive pair frame s
  | .copBringupTimeout pair => Sys2Proof.Machine.execCopBringupTimeout pair s
  | .autoSwap pair up => Sys2Proof.Machine.execAutoSwap pair up s
  | .copDown spoke kind pair => Sys2Proof.Machine.execCopDown spoke kind pair s
  | .pairSelftestDone pair pass => Sys2Proof.Machine.execPairSelftestDone pair pass s
  | .timeGet r => Sys2Proof.Machine.execTimeGet r s
  | .timeServoSet r profile domain roles tsin lane lockTh hold => Sys2Proof.Machine.execTimeServoSet r profile domain roles tsin lane lockTh hold s
  | .timeAdjFreq r ftrim => Sys2Proof.Machine.execTimeAdjFreq r ftrim s
  | .timeSlew r off rate => Sys2Proof.Machine.execTimeSlew r off rate s
  | .slewDone => Sys2Proof.Machine.execSlewDone s
  | .timeStep r mode arg ns frac => Sys2Proof.Machine.execTimeStep r mode arg ns frac s
  | .timePortSet r ports => Sys2Proof.Machine.execTimePortSet r ports s
  | .timeStampRead r port n clear => Sys2Proof.Machine.execTimeStampRead r port n clear s
  | .timeTsinSet r input edges wake => Sys2Proof.Machine.execTimeTsinSet r input edges wake s
  | .timeTsinRead r input n clear => Sys2Proof.Machine.execTimeTsinRead r input n clear s
  | .tsinEdge input falling sub => Sys2Proof.Machine.execTsinEdge input falling sub s
  | .timeTsoutSet r output mode pol ppsW => Sys2Proof.Machine.execTimeTsoutSet r output mode pol ppsW s
  | .ppsPulse output => Sys2Proof.Machine.execPpsPulse output s
  | .pulseEnd output => Sys2Proof.Machine.execPulseEnd output s
  | .timeSynceSet r output lane div => Sys2Proof.Machine.execTimeSynceSet r output lane div s
  | .synceSquelch output => Sys2Proof.Machine.execSynceSquelch output s
  | .timeUtcSet r utc leap second => Sys2Proof.Machine.execTimeUtcSet r utc leap second s
  | .leapSecond => Sys2Proof.Machine.execLeapSecond s
  | .servoSourceQualify source parent off => Sys2Proof.Machine.execServoSourceQualify source parent off s
  | .servoLock off => Sys2Proof.Machine.execServoLock off s
  | .servoHoldover mean => Sys2Proof.Machine.execServoHoldover mean s
  | .servoHoldoverExpire => Sys2Proof.Machine.execServoHoldoverExpire s
  | .trueMeasure kind index gap residual toward => Sys2Proof.Machine.execTrueMeasure kind index gap residual toward s
  | .trueGapExpire kind index => Sys2Proof.Machine.execTrueGapExpire kind index s
  | .trueStale kind index trim => Sys2Proof.Machine.execTrueStale kind index trim s
  | .trimStore => Sys2Proof.Machine.execTrimStore s
  | .trueSet r kind index enable stale => Sys2Proof.Machine.execTrueSet r kind index enable stale s
  | .trueStatus r kind index => Sys2Proof.Machine.execTrueStatus r kind index s
  | .trueReset r kind index => Sys2Proof.Machine.execTrueReset r kind index s
  | .heartbeatSend => Sys2Proof.Machine.execHeartbeatSend s
  | .heartbeatReceive link group epoch servo captain dissolve boundary seq raw filtered => Sys2Proof.Machine.execHeartbeatReceive link group epoch servo captain dissolve boundary seq raw filtered s
  | .echoExchange link rtt turn => Sys2Proof.Machine.execEchoExchange link rtt turn s
  | .heartbeatMiss mean => Sys2Proof.Machine.execHeartbeatMiss mean s
  | .statusFrame member received joins leaves boundary => Sys2Proof.Machine.execStatusFrame member received joins leaves boundary s
  | .hello link group id peerLink epoch ident => Sys2Proof.Machine.execHello link group id peerLink epoch ident s
  | .stokerEntry => Sys2Proof.Machine.execStokerEntry s
  | .memberTimeout member => Sys2Proof.Machine.execMemberTimeout member s
  | .handbackBoundary at_ => Sys2Proof.Machine.execHandbackBoundary at_ s
  | .tandemWindowAccess incoming member write kind idx priv addr len data peer => Sys2Proof.Machine.execTandemWindowAccess incoming member write kind idx priv addr len data peer s
  | .tndGroupSet r group topology n => Sys2Proof.Machine.execTndGroupSet r group topology n s
  | .tndLinkSet r link asym => Sys2Proof.Machine.execTndLinkSet r link asym s
  | .tndStatus r => Sys2Proof.Machine.execTndStatus r s
  | .tndLinkDisable r link mode => Sys2Proof.Machine.execTndLinkDisable r link mode s
  | .tndLinkDisabled link => Sys2Proof.Machine.execTndLinkDisabled link s
  | .tndLinkEnable r link => Sys2Proof.Machine.execTndLinkEnable r link s
  | .tndWindowSet r window peer base => Sys2Proof.Machine.execTndWindowSet r window peer base s
  | .tndExportSet r range base size mask => Sys2Proof.Machine.execTndExportSet r range base size mask s
  | .tndStreamSet r stream outlet spoke dirs pcid enable fits => Sys2Proof.Machine.execTndStreamSet r stream outlet spoke dirs pcid enable fits s
  | .tndXchgSet r chan owner pool base log prio timed deadline srcBase srcSize dstBase dstSize => Sys2Proof.Machine.execTndXchgSet r chan owner pool base log prio timed deadline srcBase srcSize dstBase dstSize s
  | .tndHandback r boundary => Sys2Proof.Machine.execTndHandback r boundary s
  | .tndLinkSelftest r link => Sys2Proof.Machine.execTndLinkSelftest r link s
  | .pairHeartbeat pair => Sys2Proof.Machine.execPairHeartbeat pair s
  | .pairFailed pair cause => Sys2Proof.Machine.execPairFailed pair cause s
  | .mgmtTakeover => Sys2Proof.Machine.execMgmtTakeover s
  | .checkpoint => Sys2Proof.Machine.execCheckpoint s
  | .mgmtStandby pass => Sys2Proof.Machine.execMgmtStandby pass s
  | .mgmtFatal => Sys2Proof.Machine.execMgmtFatal s
  | .mgmtSupervisor => Sys2Proof.Machine.execMgmtSupervisor s
  | .warmRestart key go => Sys2Proof.Machine.execWarmRestart key go s
  | .trbClear w mask => Sys2Proof.Machine.execTrbClear w mask s
  | .mgmtSet r coast persist => Sys2Proof.Machine.execMgmtSet r coast persist s
  | .mgmtStatus r => Sys2Proof.Machine.execMgmtStatus r s
  | .mgmtFailover r => Sys2Proof.Machine.execMgmtFailover r s
  | .trbLogRead r first count source => Sys2Proof.Machine.execTrbLogRead r first count source s
  | .trbLogSave r => Sys2Proof.Machine.execTrbLogSave r s
  | .trbGet r => Sys2Proof.Machine.execTrbGet r s
  | .updFwLoad r sigOk release ckptVer => Sys2Proof.Machine.execUpdFwLoad r sigOk release ckptVer s
  | .updFwActivate r => Sys2Proof.Machine.execUpdFwActivate r s
  | .updFwDone bootOk => Sys2Proof.Machine.execUpdFwDone bootOk s
  | .updFwStatus r => Sys2Proof.Machine.execUpdFwStatus r s
  | .updEngMicrocode r cls mask force => Sys2Proof.Machine.execUpdEngMicrocode r cls mask force s
  | .updEngDone => Sys2Proof.Machine.execUpdEngDone s
  | .pwrLevelSet r mask level at_ notify => Sys2Proof.Machine.execPwrLevelSet r mask level at_ notify s
  | .pwrLevelDone dom => Sys2Proof.Machine.execPwrLevelDone dom s
  | .pwrSleep r mask depth wake => Sys2Proof.Machine.execPwrSleep r mask depth wake s
  | .domainAck dom => Sys2Proof.Machine.execDomainAck dom s
  | .domainStopped dom => Sys2Proof.Machine.execDomainStopped dom s
  | .pwrSlept => Sys2Proof.Machine.execPwrSlept s
  | .pwrWake r mask => Sys2Proof.Machine.execPwrWake r mask s
  | .pwrWoke dom => Sys2Proof.Machine.execPwrWoke dom s
  | .pwrStatus r => Sys2Proof.Machine.execPwrStatus r s
  | .pwrDormantSet r mode wake => Sys2Proof.Machine.execPwrDormantSet r mode wake s
  | .dormantWake => Sys2Proof.Machine.execDormantWake s
  | .vinRise mv => Sys2Proof.Machine.execVinRise mv s
  | .vinFall mv => Sys2Proof.Machine.execVinFall mv s
  | .vinOvervoltage mv => Sys2Proof.Machine.execVinOvervoltage mv s
  | .powerOnReset spliceOk => Sys2Proof.Machine.execPowerOnReset spliceOk s
  | .clockLock => Sys2Proof.Machine.execClockLock s
  | .breanoBoot imgOk pairOk => Sys2Proof.Machine.execBreanoBoot imgOk pairOk s
  | .startupSelftestDone cores clusters rows rams => Sys2Proof.Machine.execStartupSelftestDone cores clusters rows rams s
  | .serviceReady standby => Sys2Proof.Machine.execServiceReady standby s
  | .startupStop step reason => Sys2Proof.Machine.execStartupStop step reason s
  | .startupTimeout => Sys2Proof.Machine.execStartupTimeout s
  | .resumeDone => Sys2Proof.Machine.execResumeDone s
  | .resumeTimeout => Sys2Proof.Machine.execResumeTimeout s
  | .deviceProfileSave r auto wait => Sys2Proof.Machine.execDeviceProfileSave r auto wait s
  | .deviceStartupStatus r => Sys2Proof.Machine.execDeviceStartupStatus r s
  | .deviceResume r => Sys2Proof.Machine.execDeviceResume r s
  | .pfail => Sys2Proof.Machine.execPfail s
  | .sensorRefresh vin iin pin junction dramTemps => Sys2Proof.Machine.execSensorRefresh vin iin pin junction dramTemps s
  | .thermalShutdown sensor => Sys2Proof.Machine.execThermalShutdown sensor s
  | .deviceGetSensors r => Sys2Proof.Machine.execDeviceGetSensors r s
  | .deviceBlobWrite r blob => Sys2Proof.Machine.execDeviceBlobWrite r blob s
  | .deviceBlobRead r source => Sys2Proof.Machine.execDeviceBlobRead r source s
  | .cadenceCycle => Sys2Proof.Machine.execCadenceCycle s
  | .chainSampleEntry stream dir present re im buf => Sys2Proof.Machine.execChainSampleEntry stream dir present re im s buf
  | .coefficientUpdateRequest lane => Sys2Proof.Machine.execCoefficientUpdateRequest lane s
  | .checkerLock lane => Sys2Proof.Machine.execCheckerLock lane s
  | .checkerLockLoss lane => Sys2Proof.Machine.execCheckerLockLoss lane s
  | .ptpEventMessage port event frame => Sys2Proof.Machine.execPtpEventMessage port event frame s
  | .vinOvervoltageClear mv => Sys2Proof.Machine.execVinOvervoltageClear mv s
  | .perstDeassert port => Sys2Proof.Machine.execPerstDeassert port s

end Sys2Proof.Machine
end

