-- ==== Sys2Proof/Safety.lean ====
section
/-! DEFINITION. What the claims speak of: time that runs as R78 says, byte memories in their one form, a command that waits in
its slot, and the answer of a slot. -/
namespace Sys2Proof.Machine

/-! ### Time -/

/-- NTC and ATC stand in the relation of R78: both on a whole cadence cycle, ATC 0 at SEC = 315,964,819 (R495), one cycle 2 Tc
and 3,125 / 3,072 ns (R81, R496). -/
def Clock.Wf (c : Clock) : Prop :=
  c.atc % 2 = 0 ∧ c.ns < 1000000000 ∧ c.rem < 3072 ∧ 315964819 ≤ c.sec ∧
    c.atc / 1966080000 = c.sec - 315964819 ∧ c.ns * 3072 + c.rem = 3125 * (c.atc % 1966080000 / 2)

/-! ### Byte memories -/

/-- The one form of a byte memory: addresses strictly rising, and no byte listed that reads as an unlisted one (log 1). -/
def Memory.wf (m : Tab Byte) : Bool := Tab.wf 0 m

/-- Every byte memory of the block is in that form. -/
abbrev State.MemWf (s : State) : Prop :=
  Memory.wf s.dev.host.mb ∧ Memory.wf s.dev.host.mem ∧ Memory.wf s.dev.mem.cells ∧ Memory.wf s.dev.mem.ldm ∧
    Memory.wf s.dev.mem.im

/-! ### Commands in their slots -/

/-- The one command that waits is `w`: CODE `code` in the slot of `r`, with a header that passed its checks (R55-R59). -/
abbrev Waits (s : State) (r : Req) (code : Nat) (w : Waiting) : Prop :=
  s.dev.host.waiting = [w] ∧ w.page = r.page ∧ w.slot = r.slot ∧ w.code = code ∧ w.refuse = none ∧ r.page < 16 ∧ r.slot < 16

/-- A response of `n` bytes fits: inline, or the response buffer (R63, R64). -/
abbrev Fits (w : Waiting) (n : Nat) : Prop := if bit w.flags 0 then n ≤ w.respLen else n ≤ 240

/-- The block once slot `w` is answered with `rep` (R55, R60). -/
def answered (c : Clock) (w : Waiting) (rep : Reply) (d : Dev) : Dev :=
  (d.updHost fun h => { h with lastServed := w.page }).respond c w rep

/-- The host link of `t` is that of `s` once slot `w` is answered with `rep`. -/
abbrev Answers (s t : State) (w : Waiting) (rep : Reply) : Prop := t.dev.host = (answered s.clk w rep s.dev).host

/-- The block once Breano has journalled a command (R563). -/
def noted (d : Dev) : Dev := d.updMgmt fun m => { m with journal := min (m.journal + 1) 65535 }

/-- The command in slot `w` as Breano sees it. -/
def Waiting.ctx (w : Waiting) (c : Clock) : Ctx := { page := w.page, func := w.func, tag := w.tag, rung := w.rung, clk := c }

/-- A function that acts for `f` sees an object of `owner` (R44). -/
abbrev Sees (f owner : Nat) : Prop := f = 0 ∨ f = owner

/-! ### Signal cores -/

/-- Core `b.core` is in state `k` and takes a bundle: running, awake, no event to take first, no write, beat, delay bundle or REP
of an older one, an empty write buffer, its PC in IM, and no code word in error. -/
abbrev Rests (s : State) (b : BCtx) (k : Core) : Prop :=
  s.dev.core b.core = k ∧ s.dev.canIssue b.core = true ∧ k.stalled = none ∧ k.repEnd = false ∧ k.rep.cnt = 0 ∧
    k.ds = none ∧ k.copWait = false ∧ k.fly = [] ∧ k.vop = none ∧ k.wbuf = [] ∧ k.pc + 16 ≤ 0x20000 ∧ s.dev.mem.ecc = []

/-- The other words of the bundle are NOP (R114), and it meets no parity error (R378). -/
abbrev Alone (b : BCtx) : Prop := b.l0 = 0 ∧ b.l1 = 0 ∧ b.x = 0 ∧ b.v = 0 ∧ b.parity = false

/-- The same for MOVL, whose literal is the word of L1 (R115). -/
abbrev AloneMovl (b : BCtx) : Prop := b.l0 = 0 ∧ b.x = 0 ∧ b.v = 0 ∧ b.parity = false

/-- A core that a bundle has left: the next bundle is the sequential one. -/
def Core.went (k : Core) : Core :=
  { k with n := k.n + 1, cycle := (k.cycle + 1) % 2 ^ 64, pc := k.pc + 16, stalled := none, repEnd := false }

/-- The core as a trap to `priv` + 1 or M leaves it, with nothing in flight (R142, R143). -/
def Core.trapped (k : Core) (cause eaddr : Nat) : Core :=
  let t : TrapSet := if k.priv = 0 then k.k else k.mt
  let u : TrapSet :=
    { t with epc := BitVec.ofNat 32 k.pc, cause := BitVec.ofNat 32 cause, eaddr := eaddr
             status := BitVec.ofNat 32 (k.status false), dscCtl := t.dscCtl &&& 3, rep := k.rep, rrb := k.rrb }
  { k with
    k := if k.priv = 0 then u else k.k, mt := if k.priv = 0 then k.mt else u
    priv := if k.priv = 0 then 1 else 2, ie := false, te := k.priv = 0 && k.te
    rep := {}, pc := t.tvec.toNat, stalled := none, waiting := false, repEnd := false, n := k.n + 1, lost := true }

/-! ### Whole-machine predicates -/

/-- The commands that may move network time and air time (R81, R495, R515, R602, R619). -/
def movesTime : Instr → Bool
  | .cadenceCycle => true
  | .timeStep .. => true
  | .servoSourceQualify .. => true
  | .clockLock => true
  | .vinFall _ => true
  | .vinOvervoltage _ => true
  | _ => false

/-- The slot and CODE of a command of the mailbox; none for every other command (R76). -/
def slotCommand : Instr → Option (Req × Nat)
  | .deviceSetMode r .. => some (r, 0x0101)
  | .deviceGetMode r => some (r, 0x0102)
  | .deviceGetCapacity r => some (r, 0x0103)
  | .deviceLookBind r .. => some (r, 0x010A)
  | .deviceLookStatus r .. => some (r, 0x010B)
  | .deviceConfSet r .. => some (r, 0x010C)
  | .deviceConfVectorLoad r .. => some (r, 0x010D)
  | .deviceConfCapture r .. => some (r, 0x010E)
  | .hostSetEventRing r .. => some (r, 0x0110)
  | .hostSetVectors r .. => some (r, 0x0111)
  | .hostSetModeration r .. => some (r, 0x0112)
  | .hostAssignQueues r .. => some (r, 0x0113)
  | .hostSetQueue r .. => some (r, 0x0114)
  | .hostGetFuncStats r => some (r, 0x0115)
  | .airCarrierAdd r .. => some (r, 0x0201)
  | .airCarrierRemove r .. => some (r, 0x0202)
  | .airGetTime r .. => some (r, 0x0203)
  | .cadPost r .. => some (r, 0x0210)
  | .cadCancel r .. => some (r, 0x0211)
  | .cadAssignPort r .. => some (r, 0x0212)
  | .airShadowArm r .. => some (r, 0x0220)
  | .airShadowStatus r .. => some (r, 0x0221)
  | .airPlanSubmit r .. => some (r, 0x0230)
  | .airPlanCancel r .. => some (r, 0x0231)
  | .imgLoad r .. => some (r, 0x0401)
  | .imgBind r .. => some (r, 0x0402)
  | .imgSwap r .. => some (r, 0x0403)
  | .imgInfo r .. => some (r, 0x0404)
  | .coreGetState r .. => some (r, 0x0410)
  | .coreRestart r .. => some (r, 0x0411)
  | .pelPoolConfig r .. => some (r, 0x0301)
  | .pelResize r .. => some (r, 0x0302)
  | .pelThreadSet r .. => some (r, 0x0303)
  | .pelThreadFree r .. => some (r, 0x0304)
  | .pelThreadGet r .. => some (r, 0x0305)
  | .pelOp r .. => some (r, 0x0306)
  | .pelPoolDisable r .. => some (r, 0x0307)
  | .pelPoolEnable r .. => some (r, 0x0308)
  | .pelLedgerGet r .. => some (r, 0x0309)
  | .pelTraceSet r .. => some (r, 0x030A)
  | .engRingSet r .. => some (r, 0x0501)
  | .engRingStatus r .. => some (r, 0x0502)
  | .engDisable r .. => some (r, 0x0503)
  | .engEnable r .. => some (r, 0x0504)
  | .engRingDisable r .. => some (r, 0x0505)
  | .engRingEnable r .. => some (r, 0x0506)
  | .engGetStats r .. => some (r, 0x0507)
  | .engHarqConfig r .. => some (r, 0x0508)
  | .engClassConfig r .. => some (r, 0x0509)
  | .feStreamSet r .. => some (r, 0x0601)
  | .feShadowWrite r .. => some (r, 0x0602)
  | .feCassetteWrite r .. => some (r, 0x0603)
  | .feShift r .. => some (r, 0x0604)
  | .feStatus r .. => some (r, 0x0605)
  | .feDetectSet r .. => some (r, 0x0606)
  | .feDetectRead r .. => some (r, 0x0607)
  | .feGetDelay r .. => some (r, 0x0608)
  | .feStreamRemove r .. => some (r, 0x0609)
  | .cmpShadowWrite r .. => some (r, 0x0690)
  | .cmpStatus r .. => some (r, 0x0691)
  | .cmpClear r .. => some (r, 0x0692)
  | .fabRouteWrite r .. => some (r, 0x0EC0)
  | .fabRouteCommit r .. => some (r, 0x0EC1)
  | .fabRouteStatus r => some (r, 0x0EC2)
  | .fabProbeSet r .. => some (r, 0x0EC3)
  | .fabTraceSet r .. => some (r, 0x0EC4)
  | .fabGateStatus r .. => some (r, 0x0EC5)
  | .fabLinkStatus r .. => some (r, 0x0EC6)
  | .movChanSet r .. => some (r, 0x0E80)
  | .movChanStatus r .. => some (r, 0x0E81)
  | .movDisable r .. => some (r, 0x0E82)
  | .movEnable r .. => some (r, 0x0E83)
  | .movResume r .. => some (r, 0x0E84)
  | .movFuncWindow r .. => some (r, 0x0E85)
  | .memGetMap r => some (r, 0x0E01)
  | .memPartitionSet r .. => some (r, 0x0E02)
  | .memScrubSet r .. => some (r, 0x0E03)
  | .memScrubStatus r .. => some (r, 0x0E04)
  | .memErrStats r .. => some (r, 0x0E05)
  | .memInject r .. => some (r, 0x0E06)
  | .memSpliceList r .. => some (r, 0x0E07)
  | .memSpliceAdd r .. => some (r, 0x0E08)
  | .memRepair r => some (r, 0x0E09)
  | .memSelftest r .. => some (r, 0x0E0A)
  | .spkConfig r .. => some (r, 0x0701)
  | .spkEnable r .. => some (r, 0x0702)
  | .spkDisable r .. => some (r, 0x0703)
  | .spkStatus r .. => some (r, 0x0704)
  | .spkGetLatency r .. => some (r, 0x0705)
  | .spkMapWrite r .. => some (r, 0x0706)
  | .spkResize r .. => some (r, 0x0707)
  | .laneTableApply r .. => some (r, 0x0710)
  | .laneTableGet r .. => some (r, 0x0711)
  | .laneLoop r .. => some (r, 0x0712)
  | .lanePatgen r .. => some (r, 0x0713)
  | .lanePatchk r .. => some (r, 0x0714)
  | .laneInject r .. => some (r, 0x0715)
  | .laneChkRead r .. => some (r, 0x0716)
  | .laneEyescan r .. => some (r, 0x0717)
  | .laneEyeRead r .. => some (r, 0x0718)
  | .laneSelftest r .. => some (r, 0x0719)
  | .macPortSet r .. => some (r, 0x0801)
  | .macFilterSet r .. => some (r, 0x0802)
  | .macFlowSet r .. => some (r, 0x0803)
  | .macLpiSet r .. => some (r, 0x0804)
  | .macQueueSet r .. => some (r, 0x0805)
  | .macSteerWrite r .. => some (r, 0x0806)
  | .macTxthreshReset r .. => some (r, 0x0807)
  | .macGetStats r .. => some (r, 0x0808)
  | .macDelayMeasure r .. => some (r, 0x0809)
  | .macPortStatus r .. => some (r, 0x080A)
  | .copConfig r .. => some (r, 0x0901)
  | .copEnable r .. => some (r, 0x0902)
  | .copDisable r .. => some (r, 0x0903)
  | .copStatus r .. => some (r, 0x0904)
  | .copMaskSet r .. => some (r, 0x0905)
  | .copLoadWrite r .. => some (r, 0x0906)
  | .copLoadRead r .. => some (r, 0x0907)
  | .copSnrRead r .. => some (r, 0x0908)
  | .copBurstSet r .. => some (r, 0x0909)
  | .copPairsSet r .. => some (r, 0x090A)
  | .copGetLatency r .. => some (r, 0x090B)
  | .copGetStats r .. => some (r, 0x090C)
  | .copSelftest r .. => some (r, 0x090D)
  | .copQualify r .. => some (r, 0x090E)
  | .timeGet r => some (r, 0x0A01)
  | .timeServoSet r .. => some (r, 0x0A02)
  | .timeAdjFreq r .. => some (r, 0x0A03)
  | .timeSlew r .. => some (r, 0x0A04)
  | .timeStep r .. => some (r, 0x0A05)
  | .timePortSet r .. => some (r, 0x0A06)
  | .timeStampRead r .. => some (r, 0x0A07)
  | .timeTsinSet r .. => some (r, 0x0A08)
  | .timeTsinRead r .. => some (r, 0x0A09)
  | .timeTsoutSet r .. => some (r, 0x0A0A)
  | .timeSynceSet r .. => some (r, 0x0A0B)
  | .timeUtcSet r .. => some (r, 0x0A0C)
  | .trueSet r .. => some (r, 0x0B01)
  | .trueStatus r .. => some (r, 0x0B02)
  | .trueReset r .. => some (r, 0x0B03)
  | .tndGroupSet r .. => some (r, 0x0C01)
  | .tndLinkSet r .. => some (r, 0x0C02)
  | .tndStatus r => some (r, 0x0C03)
  | .tndLinkDisable r .. => some (r, 0x0C04)
  | .tndLinkEnable r .. => some (r, 0x0C05)
  | .tndWindowSet r .. => some (r, 0x0C06)
  | .tndExportSet r .. => some (r, 0x0C07)
  | .tndStreamSet r .. => some (r, 0x0C08)
  | .tndXchgSet r .. => some (r, 0x0C09)
  | .tndHandback r .. => some (r, 0x0C0A)
  | .tndLinkSelftest r .. => some (r, 0x0C0B)
  | .mgmtSet r .. => some (r, 0x0F01)
  | .mgmtStatus r => some (r, 0x0F02)
  | .mgmtFailover r => some (r, 0x0F03)
  | .trbLogRead r .. => some (r, 0x0F10)
  | .trbLogSave r => some (r, 0x0F11)
  | .trbGet r => some (r, 0x0F12)
  | .updFwLoad r .. => some (r, 0x1001)
  | .updFwActivate r => some (r, 0x1002)
  | .updFwStatus r => some (r, 0x1003)
  | .updEngMicrocode r .. => some (r, 0x1004)
  | .pwrLevelSet r .. => some (r, 0x0D01)
  | .pwrSleep r .. => some (r, 0x0D02)
  | .pwrWake r .. => some (r, 0x0D03)
  | .pwrStatus r => some (r, 0x0D04)
  | .pwrDormantSet r .. => some (r, 0x0D05)
  | .deviceProfileSave r .. => some (r, 0x0104)
  | .deviceStartupStatus r => some (r, 0x0105)
  | .deviceResume r => some (r, 0x0106)
  | .deviceGetSensors r => some (r, 0x0107)
  | .deviceBlobWrite r .. => some (r, 0x0108)
  | .deviceBlobRead r .. => some (r, 0x0109)
  | _ => none

/-! ### Frames -/

/-- The parts of the block that a frame names: those of the device, the bytes of device memory, their code words that are in error,
host memory, and the mailbox pages. -/
inductive Part where
  | devmode | host | air | cores | pel | eng | fe | fab | mov | mem | spk | mac | cop | time | truing | tnd | mgmt | power | startup | pkg | cyc | free | bytes | codeWords | hostMem | mailbox
  deriving DecidableEq, Repr

/-- A part is the same in two blocks. -/
def Dev.same (d e : Dev) : Part → Prop
  | .devmode => e.devmode = d.devmode
  | .host => e.host = d.host
  | .air => e.air = d.air
  | .cores => e.cores = d.cores
  | .pel => e.pel = d.pel
  | .eng => e.eng = d.eng
  | .fe => e.fe = d.fe
  | .fab => e.fab = d.fab
  | .mov => e.mov = d.mov
  | .mem => e.mem = d.mem
  | .bytes => e.mem.cells = d.mem.cells ∧ e.mem.ldm = d.mem.ldm ∧ e.mem.im = d.mem.im
  | .spk => e.spk = d.spk
  | .mac => e.mac = d.mac
  | .cop => e.cop = d.cop
  | .time => e.time = d.time
  | .truing => e.truing = d.truing
  | .tnd => e.tnd = d.tnd
  | .mgmt => e.mgmt = d.mgmt
  | .power => e.power = d.power
  | .startup => e.startup = d.startup
  | .pkg => e.pkg = d.pkg
  | .mailbox => HostIf.mb e.host = HostIf.mb d.host
  | .cyc => e.cyc = d.cyc
  | .free => e.free = d.free
  | .codeWords => e.mem.ecc = d.mem.ecc
  | .hostMem => e.host.mem = d.host.mem

def touch1 : List Part :=
  [.host, .air, .cores, .pel, .eng, .fab, .mov, .mem, .mgmt, .cyc, .free, .bytes, .codeWords, .hostMem]

def touch2 : List Part :=
  [.host, .mgmt, .cyc, .hostMem, .mailbox]

def touch3 : List Part :=
  [.host, .time, .mgmt, .cyc, .hostMem, .mailbox]

def touch4 : List Part :=
  [.cores, .pel, .mem, .mgmt, .cyc, .bytes, .codeWords]

def touch5 : List Part :=
  [.host, .air, .mgmt, .cyc, .hostMem, .mailbox]

def touch6 : List Part :=
  [.host, .mov, .mgmt, .cyc, .hostMem, .mailbox]

def touch7 : List Part :=
  [.host, .mac, .mgmt, .cyc, .hostMem, .mailbox]

def touch8 : List Part :=
  [.devmode, .host, .air, .cores, .pel, .eng, .fe, .fab, .mov, .mem,
    .spk, .mac, .cop, .time, .truing, .tnd, .mgmt, .power, .startup, .pkg,
    .cyc, .free, .bytes, .codeWords, .hostMem, .mailbox]

def touch9 : List Part :=
  [.host, .cop, .mgmt, .cyc, .hostMem, .mailbox]

def touch10 : List Part :=
  [.host, .tnd, .mgmt, .cyc, .hostMem, .mailbox]

def touch11 : List Part :=
  [.host, .eng, .mgmt, .cyc, .hostMem, .mailbox]

def touch12 : List Part :=
  [.host, .spk, .mgmt, .cyc, .hostMem, .mailbox]

def touch13 : List Part :=
  [.host, .time, .mgmt, .cyc, .hostMem]

def touch14 : List Part :=
  [.devmode, .host, .air, .pel, .eng, .spk, .cop, .time, .truing, .tnd, .mgmt, .power, .cyc, .hostMem]

def touch15 : List Part :=
  [.devmode, .host, .mgmt, .cyc, .hostMem, .mailbox]

def touch16 : List Part :=
  [.host, .cores, .pel, .mem, .mgmt, .cyc, .bytes, .codeWords, .hostMem]

def touch17 : List Part :=
  [.host, .cores, .pel, .mem, .mgmt, .cyc, .bytes, .codeWords, .hostMem, .mailbox]

def touch18 : List Part :=
  [.host, .pel, .mgmt, .cyc, .hostMem, .mailbox]

def touch19 : List Part :=
  [.host, .cores, .pel, .eng, .mem, .mgmt, .cyc, .bytes, .codeWords, .hostMem]

def touch20 : List Part :=
  [.host, .fe, .mgmt, .cyc, .hostMem, .mailbox]

def touch21 : List Part :=
  [.host, .fab, .mgmt, .cyc, .hostMem, .mailbox]

def touch22 : List Part :=
  [.host, .spk, .mgmt, .cyc, .hostMem]

def touch23 : List Part :=
  [.devmode, .host, .air, .cores, .pel, .eng, .fe, .fab, .mov, .mem,
    .spk, .mac, .cop, .time, .truing, .tnd, .mgmt, .power, .startup, .pkg,
    .cyc, .bytes, .codeWords, .mailbox]

/-- The parts that a command may change. -/
def touches : Instr → List Part
  | .deviceSetMode .. | .pwrWake .. =>
    [.devmode, .host, .air, .tnd, .mgmt, .power, .cyc, .hostMem, .mailbox]
  | .modeLiveBoundary | .heartbeatMiss .. | .stokerEntry | .handbackBoundary .. =>
    touch14
  | .modeDrainBoundary =>
    [.devmode, .host, .air, .cores, .pel, .eng, .mem, .spk, .mac, .cop, .mgmt, .cyc, .bytes, .codeWords, .hostMem]
  | .modeDrainAbort =>
    [.devmode, .host, .cores, .pel, .eng, .mem, .spk, .mac, .cop, .mgmt, .cyc, .bytes, .codeWords, .hostMem]
  | .modeDone =>
    [.devmode, .host, .air, .pel, .eng, .spk, .cop, .time, .truing, .tnd, .mgmt, .power, .startup, .cyc, .hostMem]
  | .deviceGetMode .. | .deviceGetCapacity .. | .deviceLookStatus .. | .mbRing .. | .hostSetEventRing ..
  | .hostSetVectors .. | .hostSetModeration .. | .hostGetFuncStats .. | .airGetTime ..
  | .airShadowStatus .. | .imgInfo .. | .coreGetState .. =>
    touch2
  | .pelThreadGet .. | .engRingStatus .. | .engGetStats .. | .feStatus .. | .feDetectRead ..
  | .cmpStatus .. | .fabRouteStatus .. | .fabGateStatus .. | .fabLinkStatus .. | .movChanStatus ..
  | .memGetMap .. | .memScrubStatus .. =>
    touch2
  | .memErrStats .. | .memSpliceList .. | .spkStatus .. | .spkGetLatency .. | .laneTableGet ..
  | .laneEyeRead .. | .macPortStatus .. | .copLoadRead .. | .copSnrRead .. | .copGetLatency ..
  | .timeGet .. | .trueStatus .. =>
    touch2
  | .tndStatus .. | .checkpoint | .mgmtStatus .. | .mgmtFailover .. | .trbLogRead .. | .trbLogSave ..
  | .trbGet .. | .updFwLoad .. | .updFwActivate .. | .updFwStatus .. | .pwrStatus ..
  | .deviceStartupStatus .. =>
    touch2
  | .deviceGetSensors .. | .deviceBlobRead .. =>
    touch2
  | .deviceLookBind .. | .deviceConfSet .. | .deviceConfVectorLoad .. | .deviceConfCapture .. =>
    touch15
  | .lookTxMessage .. =>
    [.devmode, .host, .cores, .pel, .fe, .fab, .mov, .mem, .mac, .cop,
      .mgmt, .cyc, .free, .bytes, .codeWords, .hostMem]
  | .lookRxMessage .. =>
    [.devmode, .host, .cores, .pel, .fe, .fab, .mov, .mem, .spk, .mac,
      .cop, .mgmt, .cyc, .free, .bytes, .codeWords, .hostMem]
  | .confCaptureDone =>
    [.devmode, .host, .mgmt, .cyc, .hostMem]
  | .confPlanForm .. =>
    [.devmode, .air]
  | .evtConsWrite .. =>
    [.host, .hostMem]
  | .bar2WinWrite .. | .ntcSnapshotTrigger .. | .snapSeqIncrement .. | .msixUnmask ..
  | .msixModerationTimeout .. | .atcNowLowRead .. =>
    [.host]
  | .functionLevelReset .. | .perstAssert .. =>
    [.host, .air, .mov, .mailbox]
  | .linkDown .. | .configRequest .. =>
    [.host, .air, .mov, .free, .mailbox]
  | .hostMemoryRead .. =>
    [.host, .air, .cores, .pel, .eng, .fab, .mov, .mem, .mgmt, .cyc, .codeWords, .hostMem]
  | .hostMemoryWrite .. | .registerWrite .. | .writeBufferAnswer .. | .fabricRequest ..
  | .flipHoldRelease | .tandemWindowAccess .. =>
    touch8
  | .rcRegisterRead .. =>
    [.host, .air, .cores, .pel, .eng, .fab, .mov, .mgmt, .cyc]
  | .hostAssignQueues .. | .hostSetQueue .. | .movChanSet .. | .movDisable .. | .movEnable ..
  | .movFuncWindow .. | .tndXchgSet .. =>
    touch6
  | .hostQueueDoorbell .. | .movDoorbell .. =>
    [.mov, .cyc]
  | .cadPortPost .. | .cadPortCancel .. =>
    [.air, .cores, .mgmt, .cyc]
  | .cadenceEntryFire .. =>
    [.host, .air, .cores, .pel, .fe, .mov, .mem, .spk, .mac, .cop,
      .time, .truing, .mgmt, .power, .cyc, .bytes, .codeWords, .hostMem]
  | .airCarrierAdd .. | .cadPost .. | .cadCancel .. | .cadAssignPort .. | .airShadowArm ..
  | .airPlanSubmit .. | .airPlanCancel .. | .pairFailed .. =>
    touch5
  | .airCarrierRemove .. =>
    [.devmode, .host, .air, .mgmt, .cyc, .hostMem, .mailbox]
  | .planGap .. =>
    [.devmode, .host, .air, .mgmt, .cyc, .hostMem]
  | .ledgerChargeExpire =>
    [.air]
  | .nop .. | .add .. | .sub .. | .and .. | .or .. | .xor .. | .shl .. | .shr .. | .addi .. | .movi ..
  | .movl .. | .cmp .. =>
    touch1
  | .maxi .. | .mini .. | .br .. | .call .. | .jr .. | .rep .. | .csrr .. | .csrw .. | .csrs ..
  | .csrc .. | .fenceW .. | .fenceI .. =>
    touch1
  | .scadj .. | .wait .. | .trap .. | .brk .. | .rfe .. | .ldb .. | .ldh .. | .ldw .. | .ldd .. | .stb ..
  | .sth .. | .stw .. =>
    touch1
  | .std .. | .ldwD .. | .stwD .. | .padd .. | .pmod .. | .pset .. | .pget .. | .mset .. | .mac ..
  | .cmac .. | .mul .. | .mva .. =>
    touch1
  | .aclr .. | .farLoadAnswer .. | .vsetvl .. | .vadd .. | .vsub .. | .vadds .. | .vand .. | .vor ..
  | .vxor .. | .vshl .. | .vshr .. | .vmin .. =>
    touch1
  | .vmax .. | .vabs .. | .vmerge .. | .vconj .. | .vmul .. | .vmuls .. | .vmac .. | .vwmac ..
  | .vmag2 .. | .vfadd .. | .vfsub .. | .vfmul .. =>
    touch1
  | .vfma .. | .vcvt .. | .vcmp .. | .vslideup .. | .vslidedn .. | .vzip .. | .vbcast .. | .vext ..
  | .vins .. | .vrsum .. | .vmaxi .. | .vmini .. =>
    touch1
  | .vmva .. | .vld .. | .vst .. | .vlds .. | .vsts .. | .vgath .. | .vscat .. | .vldr .. | .vstr ..
  | .cop0 .. | .cop1 .. | .cop2 .. =>
    touch1
  | .popR .. | .popD .. | .quiesce .. | .discard .. | .copst .. | .sfuResultReady .. | .copBlockDone .. =>
    touch1
  | .repIterationEnd .. | .waitResume .. | .copUnitStart .. =>
    [.cores]
  | .preemptInterrupt .. | .eventInterrupt .. | .saddleLoadComplete .. | .deadlineMiss .. =>
    touch16
  | .imgLoad .. =>
    [.host, .cores, .mgmt, .cyc, .hostMem, .mailbox]
  | .imgBind .. | .pelResize .. | .pelOp .. | .pelPoolDisable .. =>
    touch17
  | .imgSwap .. | .pelPoolConfig .. | .pelPoolEnable .. | .pelTraceSet .. =>
    touch18
  | .coreReload .. | .ready .. | .cancel .. | .block .. | .yield .. | .spawn .. | .setdl ..
  | .saddleLoad .. | .writebackDone .. =>
    touch4
  | .imgSwapped .. =>
    [.host, .pel, .mem, .mgmt, .cyc, .bytes, .hostMem]
  | .coreRestart .. =>
    [.host, .cores, .mem, .mgmt, .cyc, .bytes, .codeWords, .hostMem, .mailbox]
  | .threadSwitch .. =>
    [.cores, .pel, .mem, .mgmt, .cyc, .free, .bytes, .codeWords]
  | .resizeDone .. | .poolDisabled .. =>
    [.host, .pel, .mgmt, .cyc, .hostMem]
  | .pelThreadSet .. | .pelThreadFree .. =>
    [.host, .mem, .mgmt, .cyc, .bytes, .hostMem, .mailbox]
  | .pelLedgerGet .. | .feGetDelay .. | .copStatus .. =>
    [.host, .mgmt, .cyc, .free, .hostMem, .mailbox]
  | .engRingDoorbell .. =>
    [.air, .eng, .mem, .mgmt, .cyc, .free, .bytes, .codeWords]
  | .descriptorFetch .. | .jobStart .. | .jobLate .. | .updEngDone =>
    touch19
  | .jobEnd .. =>
    [.host, .cores, .pel, .eng, .mem, .mgmt, .cyc, .free, .bytes, .codeWords, .hostMem]
  | .engRingSet .. | .engEnable .. | .engRingEnable .. | .engHarqConfig .. | .engClassConfig .. =>
    touch11
  | .engDisable .. | .engRingDisable .. | .updEngMicrocode .. =>
    [.host, .cores, .pel, .eng, .mem, .mgmt, .cyc, .bytes, .codeWords, .hostMem, .mailbox]
  | .engDisabled .. =>
    [.host, .eng, .mgmt, .cyc, .hostMem]
  | .feStreamSet .. | .feShadowWrite .. | .cmpShadowWrite .. =>
    [.host, .air, .fe, .mgmt, .cyc, .hostMem, .mailbox]
  | .feCassetteWrite .. | .feShift .. | .feDetectSet .. | .cmpClear .. =>
    touch20
  | .cassetteDone .. | .feEnvelope .. | .resamplerReanchor .. =>
    [.host, .fe, .mgmt, .cyc, .hostMem]
  | .feStreamRemove .. =>
    [.devmode, .host, .air, .fe, .mgmt, .cyc, .hostMem, .mailbox]
  | .detectWindowEnd .. =>
    [.fe]
  | .fabricResponse =>
    [.fab, .mgmt, .cyc]
  | .packetAtClosedGate =>
    [.host, .fab, .mem, .mgmt, .cyc, .free, .bytes, .codeWords, .hostMem]
  | .gateIsolated .. | .routeFlip =>
    [.fab]
  | .fabLinkFault .. | .fabEpochRetired =>
    [.host, .fab, .mgmt, .cyc, .hostMem]
  | .linkSelftestDone .. =>
    [.fab, .mem, .mgmt, .cyc]
  | .fabRouteWrite .. | .fabRouteCommit .. | .fabProbeSet .. | .fabTraceSet .. =>
    touch21
  | .resumeRetry .. | .resumeSkip .. | .resumeAbort .. =>
    [.host, .cores, .pel, .fab, .mov, .mem, .mgmt, .cyc, .free, .bytes, .codeWords, .hostMem]
  | .descriptorComplete .. =>
    [.host, .cores, .pel, .fab, .mov, .mem, .mac, .truing, .mgmt, .cyc, .free, .bytes, .codeWords, .hostMem]
  | .movHalted .. =>
    [.host, .fab, .mov, .mem, .mgmt, .cyc, .bytes, .codeWords, .hostMem]
  | .movResume .. =>
    [.host, .cores, .pel, .fab, .mov, .mem, .mgmt, .cyc, .free, .bytes, .codeWords, .hostMem, .mailbox]
  | .movDisabled .. =>
    [.host, .mov, .mgmt, .cyc, .hostMem]
  | .memTested .. =>
    [.host, .cores, .pel, .mem, .mgmt, .cyc, .free, .bytes, .codeWords, .hostMem]
  | .spliceFlashWrite =>
    [.mem]
  | .scrubRead .. | .memRepairDone .. =>
    [.host, .mem, .mgmt, .cyc, .codeWords, .hostMem]
  | .memUePeriodEnd .. | .mgmtStandby .. =>
    [.host, .mem, .mgmt, .cyc, .hostMem]
  | .memPartitionSet .. | .memScrubSet .. | .memRepair .. =>
    [.host, .mem, .mgmt, .cyc, .hostMem, .mailbox]
  | .memInject .. =>
    [.host, .mem, .mgmt, .cyc, .codeWords, .hostMem, .mailbox]
  | .memSpliceAdd .. =>
    [.host, .mem, .mgmt, .cyc, .free, .codeWords, .hostMem, .mailbox]
  | .memSelftest .. =>
    [.host, .cores, .mem, .mgmt, .cyc, .hostMem, .mailbox]
  | .spkConfig .. =>
    [.host, .air, .spk, .mac, .mgmt, .cyc, .hostMem, .mailbox]
  | .spkEnable .. | .tndLinkEnable .. =>
    [.host, .spk, .truing, .tnd, .mgmt, .cyc, .hostMem, .mailbox]
  | .spkDisable .. | .tndLinkDisable .. =>
    [.host, .air, .spk, .mac, .truing, .tnd, .mgmt, .cyc, .hostMem, .mailbox]
  | .spkDisabled .. | .tndLinkDisabled .. =>
    [.host, .air, .spk, .mac, .truing, .tnd, .mgmt, .cyc, .hostMem]
  | .spkMapWrite .. =>
    [.host, .air, .spk, .mgmt, .cyc, .hostMem, .mailbox]
  | .spkResize .. =>
    [.host, .spk, .mac, .mgmt, .cyc, .hostMem, .mailbox]
  | .spkResized .. | .pcsLock .. | .bringupTimeout .. | .cap .. =>
    touch22
  | .detectPulse .. | .cdrLockHeld .. | .injectInterval .. | .checkerLock .. =>
    [.spk]
  | .retryWaitEnd .. =>
    [.spk, .truing, .tnd, .mgmt, .cyc]
  | .capFrameSend .. =>
    [.spk, .mac]
  | .confirm .. =>
    [.host, .spk, .truing, .mgmt, .cyc, .hostMem]
  | .spokeFault .. =>
    [.host, .spk, .mac, .tnd, .mgmt, .cyc, .hostMem]
  | .laneSelftestDone .. =>
    [.host, .mem, .spk, .mac, .tnd, .mgmt, .cyc, .hostMem]
  | .laneTableApply .. =>
    [.host, .spk, .mac, .truing, .tnd, .mgmt, .pkg, .cyc, .hostMem, .mailbox]
  | .laneLoop .. | .lanePatgen .. | .laneInject .. | .laneSelftest .. | .tndLinkSelftest .. =>
    touch12
  | .lanePatchk .. | .laneChkRead .. | .laneEyescan .. =>
    [.host, .spk, .mgmt, .cyc, .free, .hostMem, .mailbox]
  | .eyeDone .. =>
    [.host, .spk, .mgmt, .cyc, .free, .hostMem]
  | .frameReceive .. =>
    [.devmode, .host, .cores, .pel, .fe, .fab, .mov, .mem, .spk, .mac,
      .cop, .truing, .mgmt, .cyc, .free, .bytes, .codeWords, .hostMem]
  | .pauseExpire .. | .streamHoldExpire .. | .lpiEnter .. | .lpiWake .. =>
    [.mac]
  | .frameTransmit .. =>
    [.host, .mac, .time, .truing, .mgmt, .cyc, .hostMem]
  | .txUnderrun .. | .delayMeasurementTimeout .. =>
    [.host, .mac, .mgmt, .cyc, .hostMem]
  | .pfcSend .. | .ptpEventMessage .. =>
    [.mac, .truing, .mgmt, .cyc]
  | .steerKeepExpire .. =>
    [.mac, .cop]
  | .macPortSet .. | .macFilterSet .. | .macFlowSet .. | .macLpiSet .. | .macQueueSet ..
  | .macTxthreshReset .. | .macGetStats .. =>
    touch7
  | .macSteerWrite .. =>
    [.host, .air, .mac, .mgmt, .cyc, .hostMem, .mailbox]
  | .macDelayMeasure .. =>
    [.host, .mac, .truing, .mgmt, .cyc, .hostMem, .mailbox]
  | .copConfig .. =>
    [.host, .air, .spk, .cop, .mgmt, .cyc, .hostMem, .mailbox]
  | .copEnable .. | .copDisable .. | .copMaskSet .. | .copGetStats .. | .copSelftest .. | .copQualify .. =>
    touch9
  | .copDisabled .. | .copDown .. =>
    [.host, .air, .cop, .mgmt, .cyc, .hostMem]
  | .copLoadWrite .. | .copBurstSet .. | .copPairsSet .. =>
    [.host, .air, .cop, .mgmt, .cyc, .hostMem, .mailbox]
  | .copPairsDone .. | .copBringupTimeout .. =>
    [.host, .cop, .mgmt, .cyc, .hostMem]
  | .copQualifyDone .. =>
    [.host, .cop, .mgmt, .cyc, .free, .hostMem]
  | .lineSuperframe .. =>
    [.air, .cop]
  | .syncMatch .. =>
    [.cop, .truing]
  | .headerDecision .. | .burstEnd .. =>
    [.cop]
  | .linkFrameReceive .. =>
    [.devmode, .host, .air, .fe, .spk, .mac, .cop, .mgmt, .cyc, .free, .hostMem]
  | .autoSwap .. =>
    [.air, .cop, .free]
  | .pairSelftestDone .. =>
    [.host, .air, .mem, .cop, .mgmt, .cyc, .hostMem]
  | .timeServoSet .. | .timeAdjFreq .. | .timeSlew .. | .timePortSet .. | .timeStampRead ..
  | .timeTsinSet .. | .timeTsinRead .. | .timeTsoutSet .. | .timeSynceSet .. | .timeUtcSet .. =>
    touch3
  | .slewDone | .synceSquelch .. | .servoLock .. | .servoHoldover .. | .servoHoldoverExpire =>
    touch13
  | .timeStep .. =>
    [.host, .air, .fe, .spk, .mac, .cop, .mgmt, .cyc, .hostMem, .mailbox]
  | .tsinEdge .. =>
    [.devmode, .host, .air, .time, .tnd, .mgmt, .power, .cyc, .hostMem]
  | .ppsPulse .. | .pulseEnd .. | .leapSecond =>
    [.time]
  | .servoSourceQualify .. =>
    [.host, .air, .fe, .spk, .mac, .cop, .time, .mgmt, .cyc, .hostMem]
  | .trueMeasure .. =>
    [.host, .spk, .cop, .truing, .mgmt, .cyc, .free, .hostMem]
  | .trueGapExpire .. | .trimStore =>
    [.truing]
  | .trueStale .. =>
    [.host, .truing, .mgmt, .cyc, .hostMem]
  | .trueSet .. | .trueReset .. =>
    [.host, .truing, .mgmt, .cyc, .hostMem, .mailbox]
  | .heartbeatSend | .echoExchange .. | .statusFrame .. =>
    [.tnd]
  | .heartbeatReceive .. =>
    [.devmode, .host, .time, .tnd, .mgmt, .startup, .cyc, .free, .hostMem]
  | .hello .. =>
    [.host, .spk, .tnd, .mgmt, .cyc, .hostMem]
  | .memberTimeout .. =>
    [.host, .tnd, .mgmt, .cyc, .hostMem]
  | .tndGroupSet .. | .tndLinkSet .. | .tndWindowSet .. | .tndExportSet .. | .tndStreamSet ..
  | .tndHandback .. =>
    touch10
  | .pairHeartbeat .. | .trbClear .. =>
    [.mgmt]
  | .mgmtTakeover | .mgmtSupervisor | .updFwDone .. =>
    [.host, .mgmt, .cyc, .hostMem]
  | .mgmtFatal =>
    [.host, .air, .mgmt, .cyc, .hostMem]
  | .warmRestart .. | .vinFall .. | .vinOvervoltage .. | .thermalShutdown .. =>
    touch23
  | .mgmtSet .. =>
    [.host, .mgmt, .startup, .cyc, .hostMem, .mailbox]
  | .pwrLevelSet .. | .pwrSleep .. =>
    [.host, .air, .mgmt, .power, .cyc, .hostMem, .mailbox]
  | .pwrLevelDone .. =>
    [.host, .mgmt, .power, .cyc, .hostMem]
  | .domainAck .. =>
    [.fab, .power]
  | .domainStopped .. =>
    [.power]
  | .pwrSlept =>
    [.host, .air, .mgmt, .power, .cyc, .hostMem]
  | .pwrWoke .. =>
    [.devmode, .host, .air, .pel, .eng, .fab, .spk, .cop, .truing, .tnd, .mgmt, .power, .cyc, .hostMem]
  | .pwrDormantSet .. =>
    [.host, .mgmt, .power, .cyc, .hostMem, .mailbox]
  | .dormantWake =>
    [.devmode, .air, .tnd, .power]
  | .vinRise .. | .vinOvervoltageClear .. =>
    [.startup, .pkg]
  | .powerOnReset .. =>
    [.mem, .mgmt, .startup, .pkg]
  | .clockLock =>
    [.startup]
  | .breanoBoot .. =>
    [.host, .spk, .mgmt, .startup, .pkg, .cyc, .free]
  | .startupSelftestDone .. =>
    [.host, .cores, .pel, .mem, .mgmt, .power, .startup, .cyc, .free, .bytes, .codeWords, .hostMem]
  | .serviceReady .. =>
    [.devmode, .host, .air, .cores, .pel, .eng, .mov, .mem, .spk, .mac,
      .cop, .time, .truing, .tnd, .mgmt, .startup, .cyc, .bytes, .codeWords, .hostMem]
  | .startupStop .. | .startupTimeout =>
    [.host, .mgmt, .startup, .pkg, .cyc, .free]
  | .resumeDone =>
    [.host, .air, .fe, .spk, .mac, .mgmt, .startup, .cyc, .hostMem]
  | .resumeTimeout =>
    [.host, .mgmt, .startup, .cyc, .hostMem]
  | .deviceProfileSave .. =>
    [.host, .mgmt, .startup, .cyc, .free, .hostMem, .mailbox]
  | .deviceResume .. =>
    [.host, .air, .fe, .spk, .mac, .mgmt, .startup, .cyc, .hostMem, .mailbox]
  | .pfail =>
    [.host, .air, .mac, .cop, .mgmt, .startup, .pkg, .cyc, .hostMem, .mailbox]
  | .sensorRefresh .. =>
    [.host, .mgmt, .pkg, .cyc, .hostMem]
  | .deviceBlobWrite .. =>
    [.host, .mgmt, .pkg, .cyc, .hostMem, .mailbox]
  | .cadenceCycle =>
    [.air, .cyc]
  | .chainSampleEntry .. =>
    [.devmode, .host, .fe, .mem, .spk, .mac, .cop, .truing, .mgmt, .cyc, .free, .bytes, .codeWords, .hostMem]
  | .coefficientUpdateRequest .. =>
    []
  | .checkerLockLoss .. =>
    [.spk, .free]
  | .perstDeassert .. =>
    [.host, .free]

end Sys2Proof.Machine
end

