-- ==== Sys2Proof/Certificates/Slice0/Obligations.lean ====
section
/-! DEFINITION. The statements for the provers. -/

open Sys2Proof Sys2Proof.Machine

/-- A drained request with no change pending is accepted with the drain boundary, a live one with its own boundary, and the change is pending from then on; a request for the present mode answers the ATC at which it took effect; DEVICE_GET_MODE answers mode, pending mode and ATC. Each clause ends in: exec of its command is a next state. So these commands complete: deviceSetMode, deviceGetMode, deviceGetCapacity. [01_architecture.md, R21, R23, R24, R27] -/
def Obligations.ModeRequests : Prop :=
  (∀ (s : State) (r : Req) (w : Waiting) (m : Mode) (mode live : Nat),
    Waits s r 0x0101 w → Fits w 8 → Mode.ofCode mode = some m → s.dev.devmode.pend = none → s.dev.tnd.handback = none → (¬(s.dev.devmode.mode = .captain ∧ s.dev.pkg.tandemId ≠ 0 ∧ s.dev.devmode.since = s.clk.atc)) → m ≠ s.dev.devmode.mode → (¬(m = .captain ∧ s.dev.pkg.tandemId ≠ 0)) → ((m = .captain ∨ m = .stoker) → s.dev.tnd.group ≠ none) → (s.dev.devmode.mode = .relay → s.dev.standing (fun _ => true) ≤ 65536) → (¬(s.dev.devmode.mode.group = true ∧ m.group = true)) → 
      ∃ t, exec (.deviceSetMode r mode live) s = .next t ∧
      Answers s t w (rAcc [(8, upTo (s.clk.atc + 3932160) 19660800)]) ∧
      t.dev.devmode.pend = some { target := m, live := false, boundary := upTo (s.clk.atc + 3932160) 19660800, tag := w.tag } ∧
      t.dev.devmode.mode = s.dev.devmode.mode) ∧
  (∀ (s : State) (r : Req) (w : Waiting) (m : Mode) (mode live : Nat),
    Waits s r 0x0101 w → Fits w 8 → Mode.ofCode mode = some m → s.dev.devmode.pend = none → s.dev.tnd.handback = none → (¬(s.dev.devmode.mode = .captain ∧ s.dev.pkg.tandemId ≠ 0 ∧ s.dev.devmode.since = s.clk.atc)) → m ≠ s.dev.devmode.mode → (¬(m = .captain ∧ s.dev.pkg.tandemId ≠ 0)) → ((m = .captain ∨ m = .stoker) → s.dev.tnd.group ≠ none) → s.dev.devmode.mode.group = true → m.group = true → live % 19660800 = 0 → s.clk.atc + 39321600 ≤ live → (m = .stoker → s.dev.stokerReady s.clk = true) → 
      ∃ t, exec (.deviceSetMode r mode live) s = .next t ∧
      Answers s t w (rAcc [(8, live)]) ∧
      t.dev.devmode = { s.dev.devmode with pend := some { target := m, live := true, boundary := live, tag := w.tag } }) ∧
  (∀ (s : State) (r : Req) (w : Waiting) (mode live : Nat),
    Waits s r 0x0101 w → Fits w 8 → Mode.ofCode mode = some s.dev.devmode.mode → s.dev.devmode.pend = none → s.dev.tnd.handback = none → (¬(s.dev.devmode.mode = .captain ∧ s.dev.pkg.tandemId ≠ 0 ∧ s.dev.devmode.since = s.clk.atc)) → 
      exec (.deviceSetMode r mode live) s = .next { s with dev := answered s.clk w (rOk [(8, s.dev.devmode.since)]) (noted s.dev) }) ∧
  (∀ (s : State) (r : Req) (w : Waiting),
    Waits s r 0x0102 w → Fits w 10 → 
      exec (.deviceGetMode r) s = .next { s with dev := answered s.clk w (rOk [(1, s.dev.devmode.mode.code), (1, (s.dev.devmode.pend.map (·.target.code)).getD 0), (8, (s.dev.devmode.pend.map (·.boundary)).getD s.dev.devmode.since)]) s.dev }) ∧
  (∀ (s : State) (r : Req) (w : Waiting),
    Waits s r 0x0103 w → Fits w 8 → Sees w.func 0 → 
      exec (.deviceGetCapacity r) s = .next { s with dev := answered s.clk w (rOk [(4, s.dev.inForce fun _ => true), (2, s.dev.fe.streams.length), (2, s.dev.air.carriers.length)]) s.dev })

/-- A live change reached at its boundary puts the target mode in force at that ATC and leaves no change pending. At the drain boundary every carrier stops transmitting, the units that the new mode does not use are disabled as by DRAIN, and the change is marked drained. 25 ms after it each of those units that still has work is ended as by ABORT and the change is marked aborted. A drained change puts the target mode in force in DORMANT and LINETEST, once no unit that the new mode does not use has pending work, or 30 ms after the boundary. STOKER comes into force at a 1 ms boundary at which its condition holds. Each clause ends in: exec of its command is a next state. So these commands complete: modeLiveBoundary, modeDrainBoundary, modeDrainAbort, modeDone, stokerEntry. [01_architecture.md, 19_tandem.md, R23, R24, R26, R28, R548] -/
def Obligations.ModeBoundaries : Prop :=
  (∀ (s : State) (q : PendMode),
    s.dev.devmode.pend = some q → q.live = true → q.boundary ≤ s.clk.atc → (¬(q.target = .captain ∧ s.dev.captainHeard s.clk = true)) → 
      ∃ t, exec (.modeLiveBoundary) s = .next t ∧
      t.dev.devmode.mode = q.target ∧ t.dev.devmode.since = s.clk.atc ∧ t.dev.devmode.pend = none) ∧
  (∀ (s : State) (q : PendMode),
    s.dev.devmode.pend = some q → q.live = false → q.drained = false → q.boundary ≤ s.clk.atc → 
      ∃ t, exec (.modeDrainBoundary) s = .next t ∧
      t.dev.devmode.pend = some { q with drained := true } ∧ (∀ e ∈ t.dev.air.carriers, e.2.stopped = true) ∧
      t.dev.eng.engines = (s.dev.disableUnits s.clk false q.tag (s.dev.unused q.target)).eng.engines ∧
      t.dev.pel = (s.dev.disableUnits s.clk false q.tag (s.dev.unused q.target)).pel ∧
      t.dev.spk = (s.dev.disableUnits s.clk false q.tag (s.dev.unused q.target)).spk ∧
      t.dev.cop = (s.dev.disableUnits s.clk false q.tag (s.dev.unused q.target)).cop) ∧
  (∀ (s : State) (q : PendMode),
    s.dev.devmode.pend = some q → q.drained = true → q.aborted = false → q.boundary + 49152000 ≤ s.clk.atc → 
      exec (.modeDrainAbort) s = .next { s with dev := (((s.dev.unitsOff q.target).filter s.dev.unitPending).foldl (Dev.abortUnit s.clk q.tag) s.dev).updDevmode fun y => { y with pend := some { q with aborted := true } } }) ∧
  (∀ (s : State) (q : PendMode),
    s.dev.devmode.pend = some q → q.live = false → q.drained = true → q.target ≠ .stoker → (¬(q.target = .captain ∧ s.dev.captainHeard s.clk = true)) → (s.dev.devmode.mode = .dormant ∨ s.dev.devmode.mode = .linetest ∨ s.dev.drainedAll q.target = true ∨ q.boundary + 58982400 ≤ s.clk.atc) → 
      ∃ t, exec (.modeDone) s = .next t ∧
      t.dev.devmode.mode = q.target ∧ t.dev.devmode.since = s.clk.atc ∧ t.dev.devmode.pend = none) ∧
  (∀ (s : State) (q : PendMode),
    s.dev.devmode.pend = some q → q.live = false → q.drained = true → q.target = .stoker → s.clk.atc % 1966080 = 0 → s.dev.stokerReady s.clk = true → 
      ∃ t, exec (.stokerEntry) s = .next t ∧
      t.dev.devmode.mode = .stoker ∧ t.dev.devmode.since = s.clk.atc ∧ t.dev.devmode.pend = none)

/-- DEVICE_LOOK_BIND stores the binding and DEVICE_LOOK_STATUS answers its channel and counts. A whole transmit symbol of a slot that does not run is dropped; one that meets no ready channel is dropped and counted in LOOK_NOBUF; one that meets an owned descriptor with room counts a message and is written there. A well-formed message taken from a posted descriptor counts a message of the stream it names. A test-model source, a sample vector and a capture are stored; a finished capture is posted as event 0x018B; a plan formed in CONFORMANCE and admitted by the ledger joins the plans, and one the ledger refuses is marked. Each clause ends in: exec of its command is a next state. So these commands complete: deviceLookBind, deviceLookStatus, deviceConfSet, deviceConfVectorLoad, deviceConfCapture, lookTxMessage, lookRxMessage, confCaptureDone, confPlanForm. [01_architecture.md, R29, R30, R31, R33, R35, R36, R38, 03_air_time.md] -/
def Obligations.LookasideAndConformance : Prop :=
  (∀ (s : State) (r : Req) (w : Waiting) (stream dir chan domain : Nat) (y : Stream),
    Waits s r 0x010A w → s.dev.stream stream = some y → Sees w.func y.owner → dir ≤ 1 → domain ≤ 1 → chan ≠ 0xFFFF → moverOf chan = 24 → s.dev.chanFunc chan = y.owner → (s.dev.chan chan).dir = 1 - dir → (s.dev.look stream dir).chan = 0xFFFF → 
      exec (.deviceLookBind r stream dir chan domain) s = .next { s with dev := answered s.clk w (rOk) (noted (s.dev.updLook stream dir fun _ => { chan := chan, domain := domain })) }) ∧
  (∀ (s : State) (r : Req) (w : Waiting) (stream dir : Nat) (y : Stream),
    Waits s r 0x010B w → Fits w 26 → s.dev.stream stream = some y → Sees w.func y.owner → dir ≤ 1 → 
      exec (.deviceLookStatus r stream dir) s = .next { s with dev := answered s.clk w (rOk [(2, (s.dev.look stream dir).chan), (8, (s.dev.look stream dir).messages), (4, (s.dev.look stream dir).noBuf), (4, (s.dev.look stream dir).badId), (4, (s.dev.look stream dir).badLen), (4, (s.dev.look stream dir).fmtMismatch)]) s.dev }) ∧
  (∀ (s : State) (r : Req) (w : Waiting) (carrier source model pci vslot start : Nat) (k : Carrier),
    Waits s r 0x010C w → s.dev.carrier carrier = some k → source = 1 → k.std < 3 → modelOk k model = true → start % 19660800 = 0 → s.dev.hasPlans carrier = false → w.rung + 39321600 ≤ start → 
      exec (.deviceConfSet r carrier source model pci vslot start) s = .next { s with dev := answered s.clk w (rOk) (noted (s.dev.updDevmode fun m => { m with conf := tset {} m.conf carrier { source := 1, model := model, pci := pci, vslot := vslot, start := start } })) }) ∧
  (∀ (s : State) (r : Req) (w : Waiting) (vslot tracks frames rate : Nat) (samples : List Byte),
    Waits s r 0x010D w → Fits w 4 → vslot < 16 → (1 ≤ tracks ∧ tracks ≤ 16) → (1 ≤ frames ∧ frames ≤ 64) → rate ≠ 0 → s.dev.devmode.vec = [] → tracks * frames * rate * 10 * 4 ≤ 2 ^ 32 → samples.length = tracks * frames * rate * 10 * 4 → s.dev.devmode.conf = [] → 
      exec (.deviceConfVectorLoad r vslot tracks frames rate samples) s = .next { s with dev := answered s.clk w (rOk [(4, tracks * frames * rate * 10 * 4)]) (noted (s.dev.updDevmode fun m => { m with vec := tset {} m.vec vslot { tracks := tracks, frames := frames, rate := rate, bytes := tracks * frames * rate * 10 * 4, data := samples } })) }) ∧
  (∀ (s : State) (r : Req) (w : Waiting) (stream start frames : Nat) (y : Stream),
    Waits s r 0x010E w → Fits w 12 → s.dev.stream stream = some y → start % 19660800 = 0 → (1 ≤ frames ∧ frames ≤ 16) → s.dev.devmode.mode = .conformance → w.rung + 3932160 ≤ start → 
      exec (.deviceConfCapture r stream start frames) s = .next { s with dev := answered s.clk w (rAcc [(8, captureBase), (4, frames * y.fin * 10 * 4)]) (noted (s.dev.updDevmode fun m => { m with capture := some { stream := stream, start := start, frames := frames, tag := w.tag } })) }) ∧
  (∀ (s : State) (stream : Nat) (y : Stream) (q : TxSym) (qs : List TxSym),
    s.dev.stream stream = some y → (s.dev.chain stream 0).syms = q :: qs → s.dev.devmode.mode = .lookaside → (s.dev.look stream 0).chan ≠ 0xFFFF → s.dev.carrierOf y = none → 
      exec (.lookTxMessage stream) s = .next { s with dev := s.dev.updChain stream 0 fun k => { k with syms := qs } }) ∧
  (∀ (s : State) (stream : Nat) (y : Stream) (k : Carrier) (q : TxSym) (qs : List TxSym) (d1 : Dev),
    s.dev.stream stream = some y → (s.dev.chain stream 0).syms = q :: qs → s.dev.devmode.mode = .lookaside → (s.dev.look stream 0).chan ≠ 0xFFFF → s.dev.carrierOf y = some k → s.dev.slotRuns y.carrier k q.frame q.slot = true → d1 = ((s.dev.updChain stream 0 fun k => { k with syms := qs }).symbolMessages 512 stream y { stream := stream, tx := true, rx := false, domain := (s.dev.look stream 0).domain, pcid := stream } (q.samples.length + 65536) q).2 → d1.chanReady (s.dev.look stream 0).chan = false → 
      exec (.lookTxMessage stream) s = .next { s with dev := d1.updLook stream 0 fun b => { b with noBuf := satAdd 32 b.noBuf 1 } }) ∧
  (∀ (s : State) (stream : Nat) (y : Stream) (k : Carrier) (q : TxSym) (qs : List TxSym) (d1 : Dev) (ms : List (List Byte × Nat)) (x : Desc),
    s.dev.stream stream = some y → (s.dev.chain stream 0).syms = q :: qs → s.dev.devmode.mode = .lookaside → (s.dev.look stream 0).chan ≠ 0xFFFF → s.dev.carrierOf y = some k → s.dev.slotRuns y.carrier k q.frame q.slot = true → (ms, d1) = (s.dev.updChain stream 0 fun k => { k with syms := qs }).symbolMessages 512 stream y { stream := stream, tx := true, rx := false, domain := (s.dev.look stream 0).domain, pcid := stream } (q.samples.length + 65536) q → d1.chanReady (s.dev.look stream 0).chan = true → (d1.chan (s.dev.look stream 0).chan).verdict = none → ((d1.updLook stream 0 fun b => { b with noBuf := satAdd 32 b.noBuf 1 }).headDesc s.clk (s.dev.look stream 0).chan).1 = .inr x → x.own = true → (ms.flatMap fun m => ecpri 0 m.1).length ≤ x.len → 
      exec (.lookTxMessage stream) s = .next { s with dev := ((((d1.headDesc s.clk (s.dev.look stream 0).chan).2.chanStore (s.dev.look stream 0).chan x.dst (ms.flatMap fun m => ecpri 0 m.1)).updLook stream 0 fun b => { b with messages := (b.messages + 1) % 2 ^ 64 }).endDesc s.clk (s.dev.look stream 0).chan x (d1.headWord (s.dev.look stream 0).chan) 0 0 0 x.arrive.toNat (ms.flatMap fun m => ecpri 0 m.1).length) }) ∧
  (∀ (s : State) (chan : Nat) (e : Nat × LookBind) (x : Desc) (m body : List Byte),
    s.dev.devmode.look = [e] → e.2.chan = chan → e.1 = 2 * (Msg.of body).pcid + 1 → (s.dev.headDesc s.clk chan).1 = .inr x → s.dev.devmode.mode = .lookaside → s.dev.chanReady chan = true → (s.dev.chan chan).verdict = none → x.own = true → x.wake = false → m = readBytes s.dev.host.mem x.src x.len → m.take 2 = [0x10, 0] → m = m.take 4 ++ body → fieldBe m 2 2 = body.length → 12 ≤ body.length → (Msg.of body).pcid < 2048 → (Msg.of body).lengthOk (decompress (Msg.of body).mode (Msg.of body).m (Msg.of body).nsamp (Msg.of body).blocks) = true → 
      ∃ t, exec (.lookRxMessage chan) s = .next t ∧
      (t.dev.look (Msg.of body).pcid 1).messages = (e.2.messages + 1) % 2 ^ 64) ∧
  (∀ (s : State) (q : Capture) (y : Stream),
    s.dev.devmode.capture = some q → s.dev.stream q.stream = some y → q.frames * y.fin * 10 * 4 ≤ q.stored → 
      exec (.confCaptureDone) s = .next { s with dev := (s.dev.updDevmode fun m => { m with capture := none }).evt0 s.clk 0x018B q.tag [(0, 2, q.stream), (2, 1, q.frames), (8, 8, q.first)] }) ∧
  (∀ (s : State) (carrier frame slot : Nat) (threads jobs : List Nat) (k : Carrier),
    s.dev.carrier carrier = some k → s.dev.sourceOf carrier = 1 → ((tget {} s.dev.devmode.conf carrier).start : Int) ≤ k.slotStart frame (slot : Int) → slot < k.slotsFrame → (s.clk.atc : Int) ≤ k.slotStart frame ((slot : Int) - 2) → s.dev.devmode.pend = none → (∀ q ∈ s.dev.air.plans, ¬(q.carrier = carrier ∧ q.frame = frame ∧ q.slot = slot)) → s.dev.admission s.clk.atc (s.dev.planCharges s.clk.atc 0 threads (jobs.map furtherJob)) = stOK → 
      exec (.confPlanForm carrier frame slot threads jobs) s = .next { s with dev := s.dev.updAir fun a => { a with plans := a.plans ++ [{ carrier := carrier, frame := frame, slot := slot, charges := s.dev.planCharges s.clk.atc 0 threads (jobs.map furtherJob), jobs := jobs.map furtherJob }] } }) ∧
  (∀ (s : State) (carrier frame slot : Nat) (threads jobs : List Nat) (k : Carrier),
    s.dev.carrier carrier = some k → s.dev.sourceOf carrier = 1 → ((tget {} s.dev.devmode.conf carrier).start : Int) ≤ k.slotStart frame (slot : Int) → slot < k.slotsFrame → (s.clk.atc : Int) ≤ k.slotStart frame ((slot : Int) - 2) → s.dev.devmode.pend = none → (∀ q ∈ s.dev.air.plans, ¬(q.carrier = carrier ∧ q.frame = frame ∧ q.slot = slot)) → s.dev.admission s.clk.atc (s.dev.planCharges s.clk.atc 0 threads (jobs.map furtherJob)) ≠ stOK → 
      exec (.confPlanForm carrier frame slot threads jobs) s = .next { s with dev := s.dev.updDevmode fun m => { m with refused := m.refused ++ [(carrier, frame, slot)] } })

/-- MB_RING hands a slot over and makes it owned; EVT_CONS, BAR2_WIN and the snapshot registers take their values; the snapshot fields change with SNAP_SEQ; a word of the page reads as the register it is. Each clause ends in: exec of its command is a next state. So these commands complete: mbRing, evtConsWrite, bar2WinWrite, ntcSnapshotTrigger, snapSeqIncrement, hostMemoryRead, hostMemoryWrite, registerWrite, rcRegisterRead. [02_host_and_mailboxes.md, R47, R49, R52, R54, R58, R59, R68] -/
def Obligations.DoorbellsAndPages : Prop :=
  (∀ (s : State) (func mask i : Nat) (q : Waiting),
    s.dev.onLink func = true → func < 16 → i < 16 → mask = 2 ^ i → s.dev.host.waiting = [] → (s.dev.func func).owned.getLsbD i = false → s.dev.slotRequest s.clk func i = q → q.refuse = none → 
      exec (.mbRing func mask) s = .next { s with dev := (s.dev.updFunc func fun g => { g with owned := g.owned ||| BitVec.ofNat 16 (2 ^ i) }).updHost fun h => { (if bit q.flags 0 then h.fetch func q.reqAddr q.reqLen else h) with waiting := [q] } }) ∧
  (∀ (s : State) (func mask i : Nat),
    s.dev.onLink func = true → func < 16 → i < 16 → mask = 2 ^ i → s.dev.host.waiting = [] → (s.dev.func func).owned.getLsbD i = true → 
      exec (.mbRing func mask) s = .next { s with dev := s.dev.updFunc func fun g => { g with dbBad := satAdd 32 g.dbBad 1, dbBadTotal := satAdd 32 g.dbBadTotal 1 } }) ∧
  (∀ (s : State) (func value : Nat),
    s.dev.onLink func = true → s.dev.mgmt.svc = true → func < 16 → (s.dev.func func).held = [] → (s.dev.func func).lostRun = 0 → 
      exec (.evtConsWrite func value) s = .next { s with dev := s.dev.updFunc func fun g => { g with cons := value % 65536 } }) ∧
  (∀ (s : State) (func value : Nat),
    s.dev.onLink func = true → s.dev.mgmt.svc = true → func = 0 → 
      exec (.bar2WinWrite func value) s = .next { s with dev := s.dev.updHost fun h => { h with bar2Win := value % 8 } }) ∧
  (∀ (s : State) (func : Nat),
    s.dev.onLink func = true → s.dev.mgmt.svc = true → (s.dev.func func).snapBusy = none → 
      exec (.ntcSnapshotTrigger func) s = .next { s with dev := s.dev.updFunc func fun g => { g with snapBusy := some (s.clk.sec, s.clk.ns, s.clk.frac, s.clk.atc) } }) ∧
  (∀ (s : State) (func : Nat) (x : Nat × Nat × Nat × Nat),
    (s.dev.func func).snapBusy = some x → 
      exec (.snapSeqIncrement func) s = .next { s with dev := s.dev.updFunc func fun g => { g with snapSec := x.1, snapNs := x.2.1, snapFrac := x.2.2.1, snapAtc := x.2.2.2, snapBusy := none, snapSeq := (g.snapSeq + 1) % 2 ^ 32 } }) ∧
  (∀ (s : State) (func bar off len : Nat),
    s.dev.onLink func = true → bar = 0 → off = 0x1004 → len = 4 → func < 16 → s.dev.mgmt.svc = true → 
      exec (.hostMemoryRead func bar off len) s = .next { s with dev := s.dev.updHost fun h => { h with cpl := some (0, le 4 (s.dev.func func).owned.toNat) } }) ∧
  (∀ (s : State) (func bar off : Nat) (data : List Byte) (ep : Bool),
    s.dev.onLink func = true → bar = 0 → off + data.length ≤ 4096 → data ≠ [] → ep = false → func < 16 → s.dev.mgmt.svc = true → (s.dev.func func).owned = 0 → 
      ∃ t, exec (.hostMemoryWrite func bar off data ep) s = .next t ∧
      (∀ i < data.length, tget 0 t.dev.host.mb (4096 * func + off + i) = data.getD i 0) ∧
      (∀ a, (a < 4096 * func + off ∨ 4096 * func + off + data.length ≤ a) → tget 0 t.dev.host.mb a = tget 0 s.dev.host.mb a)) ∧
  (∀ (s : State) (kind idx priv addr v : Nat) (data : List Byte),
    requesterOf kind idx priv = .pcie 0 → addr = 0x0300700024 → data = le 4 v → 
      exec (.registerWrite kind idx priv addr data) s = .next { s with dev := s.dev.updMgmt fun m => { m with logCons := leVal (le 4 v) } }) ∧
  (∀ (s : State) (kind idx priv addr len : Nat),
    requesterOf kind idx priv = .pcie 0 → addr = 0x0300700028 → len = 4 → 
      exec (.rcRegisterRead kind idx priv addr len) s = .next { s with dev := ((s.dev.updCyc fun y => { y with rc := tdel y.rc 0x700028 }).updMgmt fun m => { m with logLost := m.logLost - min (tget 0 s.dev.cyc.rc 0x700028) m.logLost }).updHost fun h => { h with cpl := some (0, le 4 (min (tget 0 s.dev.cyc.rc 0x700028) s.dev.mgmt.logLost)) } })

/-- A function-level reset clears the function's event ring, slots and doorbell state and leaves the other functions as they were; a link going down resets every function of its port; PERST takes its link down and its release lets it train; VF Enable is set and cleared by configuration. Each clause ends in: exec of its command is a next state. So these commands complete: functionLevelReset, linkDown, perstAssert, perstDeassert, configRequest. [02_host_and_mailboxes.md, R46, R47, R604, R621] -/
def Obligations.LinkResetsAndConfiguration : Prop :=
  (∀ (s : State) (func : Nat),
    s.dev.onLink func = true → func ≠ 0 → 
      ∃ t, exec (.functionLevelReset func) s = .next t ∧
      (t.dev.func func).ringAddr = 0 ∧ (t.dev.func func).owned = 0 ∧ (t.dev.func func).prod = 0 ∧ (t.dev.func func).vect = [] ∧
      (t.dev.func func).vectors = (s.dev.func func).vectors ∧ (∀ v ∈ t.dev.host.waiting, v.page ≠ func) ∧
      (∀ f, f ≠ func → t.dev.func f = s.dev.func f) ∧ t.dev.host.bar2Win = s.dev.host.bar2Win) ∧
  (∀ (s : State) (port : Nat),
    port = 0 → 
      ∃ t, exec (.linkDown port) s = .next t ∧
      (∀ f ∈ List.range 17, (t.dev.func f).owned = 0 ∧ (t.dev.func f).ringAddr = 0) ∧ t.dev.host.vfEnable = false ∧ t.dev.host.bar2Win = 0) ∧
  (∀ (s : State) (port : Nat),
    port = 0 → 
      ∃ t, exec (.perstAssert port) s = .next t ∧
      t.dev.host.perst.1 = true ∧ t.dev.host.linkUp = (false, s.dev.host.linkUp.2) ∧ t.dev.host.vfEnable = false) ∧
  (∀ (s : State) (port : Nat),
    port = 0 → s.dev.startup.phase = .service → s.dev.host.perst.2 = true → s.dev.host.linkUp.1 = false → 
      ∃ t, exec (.perstDeassert port) s = .next t ∧
      t.dev.host.perst = (false, true) ∧ t.dev.host.linkUp = (true, s.dev.host.linkUp.2) ∧ 1 ≤ t.dev.host.linkRate.1 ∧ t.dev.host.linkRate.1 ≤ 6 ∧ t.dev.host.linkWidth.1 ≤ 16) ∧
  (∀ (s : State) (func : Nat) (write : Bool) (field value : Nat),
    func = 0 → write = true → field = 1 → bit value 0 = true → s.dev.host.linkUp.1 = true → s.dev.startup.cfgOk = true → 
      exec (.configRequest func write field value) s = .next { s with dev := s.dev.updHost fun h => { h with vfEnable := true, cpl := some (0, []) } }) ∧
  (∀ (s : State) (func : Nat) (write : Bool) (field value : Nat),
    func = 0 → s.dev.host.linkUp.1 = true → s.dev.startup.cfgOk = false → 
      exec (.configRequest func write field value) s = .next { s with dev := s.dev.updHost fun h => { h with cpl := some (2, []) } })

/-- An unmasked vector with a pending bit sends its message; a vector whose moderation time has passed sends it; HOST_SET_EVENT_RING, HOST_SET_VECTORS, HOST_SET_MODERATION, HOST_ASSIGN_QUEUES and HOST_SET_QUEUE leave the settings they were given; HOST_GET_FUNC_STATS answers the counters. Each clause ends in: exec of its command is a next state. So these commands complete: msixUnmask, msixModerationTimeout, hostSetEventRing, hostSetVectors, hostSetModeration, hostAssignQueues, hostSetQueue, hostGetFuncStats. [02_host_and_mailboxes.md, R60, R67, R70, R71, R77] -/
def Obligations.VectorsAndQueues : Prop :=
  (∀ (s : State) (func vector : Nat),
    s.dev.onLink func = true → s.dev.mgmt.svc = true → vector < s.dev.vectorsOf func → (tget {} (s.dev.func func).vect vector).masked = true → (tget {} (s.dev.func func).vect vector).pba = true → 
      exec (.msixUnmask func vector) s = .next { s with dev := (s.dev.updFunc func fun g => { g with vect := tmod {} g.vect vector fun x => { x with masked := false, pba := false } }).updHost fun h => { h with msix := h.msix ++ [⟨func, vector⟩] } }) ∧
  (∀ (s : State) (func vector : Nat) (x : Vect),
    tget {} (s.dev.func func).vect vector = x → x.masked = false → x.causes ≠ 0 → x.time * 196608 ≤ (s.clk.atc - x.first) * 100 → 
      exec (.msixModerationTimeout func vector) s = .next { s with dev := (s.dev.updFunc func fun g => { g with vect := tset {} g.vect vector { x with causes := 0, first := 0 } }).updHost fun h => { h with msix := h.msix ++ [⟨func, vector⟩] } }) ∧
  (∀ (s : State) (r : Req) (w : Waiting) (addr log : Nat),
    Waits s r 0x0110 w → addr % 4096 = 0 → addr ≠ 0 → (6 ≤ log ∧ log ≤ 16) → (s.dev.func w.func).ringAddr = 0 → 
      exec (.hostSetEventRing r addr log) s = .next { s with dev := answered s.clk w (rOk) (noted (s.dev.updFunc w.func fun g => { g with ringAddr := addr, ringLog := log, prod := 0, cons := 0, phase := true, held := [], lostRun := 0 })) }) ∧
  (∀ (s : State) (r : Req) (w : Waiting) (addr log : Nat),
    Waits s r 0x0110 w → addr = 0 → 
      exec (.hostSetEventRing r addr log) s = .next { s with dev := answered s.clk w (rOk) (noted (s.dev.updFunc w.func fun g => { g.dropHeld with ringAddr := 0 })) }) ∧
  (∀ (s : State) (r : Req) (w : Waiting) (counts : List Nat),
    Waits s r 0x0111 w → vectorsFault s.dev.host.twoX8 counts = none → s.dev.host.vfEnable = false → 
      ∃ t, exec (.hostSetVectors r counts) s = .next t ∧
      t.dev.host.mb = (answered s.clk w rOk s.dev).host.mb ∧ (∀ f ∈ List.range 17, (t.dev.func f).vectors = counts.getD f 0) ∧
      (∀ f ∈ List.range 17, (t.dev.func f).ringAddr = (s.dev.func f).ringAddr ∧ (t.dev.func f).vect = (s.dev.func f).vect ∨ f = w.page)) ∧
  (∀ (s : State) (r : Req) (w : Waiting) (vector count time : Nat),
    Waits s r 0x0112 w → vector < s.dev.vectorsOf w.func → count ≠ 0 → (tget {} (s.dev.func w.func).vect vector).causes = 0 → 
      exec (.hostSetModeration r vector count time) s = .next { s with dev := answered s.clk w (rOk) (noted (s.dev.updFunc w.func fun g => { g with vect := tmod {} g.vect vector fun v => { v with count := count, time := time } })) }) ∧
  (∀ (s : State) (r : Req) (w : Waiting) (owners : List Nat) (q : Nat),
    Waits s r 0x0113 w → q < 64 → (∀ i ∈ List.range 64, owners.getD i 0 % 256 < 16 ∨ owners.getD i 0 % 256 = 0xFF) → (∀ i ∈ List.range 64, owners.getD i 0 / 256 = 0) → (∀ i ∈ List.range 64, (s.dev.chan (512 + i)).dis = .off) → 
      ∃ t, exec (.hostAssignQueues r owners) s = .next t ∧
      t.dev.host.mb = (answered s.clk w rOk s.dev).host.mb ∧ tget 0xFF t.dev.host.qOwner q = owners.getD q 0 % 256 ∧ tget 0 t.dev.host.qPort q = 0) ∧
  (∀ (s : State) (r : Req) (w : Waiting) (queue addr entries dir vector noSnoop n k : Nat),
    Waits s r 0x0114 w → Fits w 1 → (s.dev.localQueues w.func)[queue]? = some n → ringLog? entries = some k → dir ≤ 1 → 2 ≤ vector → vector < s.dev.vectorsOf (if tget 0 s.dev.host.qPort (n - 512) = 1 then 16 else w.func) → noSnoop ≤ 1 → ((s.dev.chan n).dis = .off ∨ (s.dev.chan n).dis = .disabled) → 
      exec (.hostSetQueue r queue addr entries dir vector noSnoop) s = .next { s with dev := answered s.clk w (rOk [(1, n - 512)]) (noted (s.dev.updChan n fun y => { y with owner := 1, base := addr, log := k, dir := dir, vector := vector, noSnoop := noSnoop = 1, dis := .on, stall := false, starts := 0, halted := false, from_ := 0, started := false, left := 0, prod := 0, fetch := 0, done := 0 })) }) ∧
  (∀ (s : State) (r : Req) (w : Waiting),
    Waits s r 0x0115 w → Fits w 20 → 
      exec (.hostGetFuncStats r) s = .next { s with dev := answered s.clk w (rOk [(8, (s.dev.func w.func).completed), (4, (s.dev.func w.func).refused), (4, (s.dev.func w.func).dbBadTotal), (4, (s.dev.func w.func).evtLostTotal)]) s.dev })

/-- A cycle advances ATC by 2 Tc and NTC by 3,125 / 3,072 ns, marks the entries it leaves due as crowded and completes the posts in progress. A CORE_EVENT entry that fires sets its core's EVPEND bits, and is gone if one-shot or has its next trigger if periodic. A post in time is stored in the lowest free entry; a late one without LATE_FIRE is not stored and counts in CAD_LATE. A cancel frees a live entry, and of no live entry answers GONE. CAD_ASSIGN_PORT stores owner and pool. A post and a cancel at a port are carried out and leave the port busy with their RESULT to come. A read of ATC_NOW's low word latches the high one. Each clause ends in: exec of its command is a next state. So these commands complete: cadenceCycle, cadenceEntryFire, cadPost, cadCancel, cadAssignPort, cadPortPost, cadPortCancel, atcNowLowRead. [03_air_time.md, R78, R81, R86, R88, R89, R92, R93, R95, R638] -/
def Obligations.CadenceEntries : Prop :=
  (∀ (s : State),
    s.clk.run = true → s.dev.air.firing s.clk.atc = [] → 
      ∃ t, exec (.cadenceCycle) s = .next t ∧
      t.clk = s.clk.tick ∧ t.clk.atc = s.clk.atc + 2 ∧ t.clk.ns * 3072 + t.clk.rem + 3072000000000 * t.clk.sec = s.clk.ns * 3072 + s.clk.rem + 3125 + 3072000000000 * s.clk.sec ∧
      t.dev = (s.dev.updAir fun a => (a.crowd s.clk.atc).finishPosts).newCycle) ∧
  (∀ (s : State) (found i core : Nat) (e : CadEntry) (es : List (Nat × CadEntry)),
    s.dev.air.firing s.clk.atc = (i, e) :: es → found = 0 → s.dev.mem.ecc = [] → e.action = 2 → e.period = 0 → e.flags = 0 → e.target = core → core < 1024 → s.dev.awake (core / 64) = true → 
      exec (.cadenceEntryFire found) s = .next { s with dev := (s.dev.updAir fun a => { a with firedNow := a.firedNow + 1, cad := tdel a.cad i }).updCore core fun k => k.pend s.clk (BitVec.ofNat 32 (e.arg % 2 ^ 31)) }) ∧
  (∀ (s : State) (found i core : Nat) (e : CadEntry) (es : List (Nat × CadEntry)),
    s.dev.air.firing s.clk.atc = (i, e) :: es → found = 0 → s.dev.mem.ecc = [] → e.action = 2 → e.period ≠ 0 → e.count = 0 → e.lateAt = 0 → e.flags = 0 → e.target = core → core < 1024 → s.dev.awake (core / 64) = true → 
      exec (.cadenceEntryFire found) s = .next { s with dev := (s.dev.updAir fun a => { a with firedNow := a.firedNow + 1, cad := tput a.cad i { e with trigger := e.trigger + e.period, fired := e.fired + 1, crowded := false } }).updCore core fun k => k.pend s.clk (BitVec.ofNat 32 (e.arg % 2 ^ 31)) }) ∧
  (∀ (s : State) (r : Req) (w : Waiting) (trigger period count action flags target arg i : Nat),
    Waits s r 0x0210 w → Fits w 3 → (period = 0 ∨ 256 ≤ period) → action = 2 → flags < 8 → target < 1024 → s.clk.atc + 3932 < trigger → s.dev.freeCad = some i → 
      exec (.cadPost r trigger period count action flags target arg) s = .next { s with dev := answered s.clk w (rOk [(2, i), (1, 0)]) (noted (s.dev.updAir fun a => { a with cad := tput a.cad i { trigger := trigger, period := period, count := count, action := action, flags := flags, target := target, arg := arg } })) }) ∧
  (∀ (s : State) (r : Req) (w : Waiting) (trigger period count action flags target arg : Nat),
    Waits s r 0x0210 w → Fits w 3 → (period = 0 ∨ 256 ≤ period) → action = 2 → flags < 8 → bit flags 0 = false → target < 1024 → trigger ≤ s.clk.atc + 3932 → 
      ∃ t, exec (.cadPost r trigger period count action flags target arg) s = .next t ∧
      t.dev.air.cad = s.dev.air.cad ∧ t.dev.air.cadLate = satAdd 32 s.dev.air.cadLate 1) ∧
  (∀ (s : State) (r : Req) (w : Waiting) (index : Nat) (e : CadEntry),
    Waits s r 0x0211 w → Fits w 1 → tfind s.dev.air.cad index = some e → (∀ f ∈ s.dev.air.firing s.clk.atc, f.1 ≠ index) → 
      exec (.cadCancel r index) s = .next { s with dev := answered s.clk w (rOk [(1, 0)]) (noted (s.dev.updAir fun a => { a with cad := tdel a.cad index })) }) ∧
  (∀ (s : State) (r : Req) (w : Waiting) (index : Nat),
    Waits s r 0x0211 w → Fits w 1 → tfind s.dev.air.cad index = none → 
      exec (.cadCancel r index) s = .next { s with dev := answered s.clk w (rOk [(1, 1)]) (noted s.dev) }) ∧
  (∀ (s : State) (r : Req) (w : Waiting) (port owner pool : Nat),
    Waits s r 0x0212 w → (4 ≤ port ∧ port < 64) → owner = 1 → pool < 64 → (s.dev.postPort port).done = true → 
      exec (.cadAssignPort r port owner pool) s = .next { s with dev := answered s.clk w (rOk) (noted (s.dev.updPostPort port fun q => { q with owner := 1, pool := pool })) }) ∧
  (∀ (s : State) (port who i : Nat) (q : PostPort),
    s.dev.postPort port = q → 4 ≤ port → q.owner = 0 → who = 1024 → q.done = true → q.action = 2 → q.target < 1024 → q.flags < 8 → q.period = 0 → s.clk.atc + 3932 < q.trigger → s.dev.freeCad = some i → 
      exec (.cadPortPost port who) s = .next { s with dev := (s.dev.updAir fun a => { a with cad := tput a.cad i { trigger := q.trigger, period := 0, count := q.count, action := 2, flags := q.flags, target := q.target, arg := q.arg } }).updPostPort port fun q => q.busy 0 i }) ∧
  (∀ (s : State) (port who : Nat) (q : PostPort),
    s.dev.postPort port = q → 4 ≤ port → q.owner = 0 → who = 1024 → q.done = true → tfind s.dev.air.cad q.index = none → 
      exec (.cadPortCancel port who) s = .next { s with dev := s.dev.updPostPort port fun q => q.busy 6 q.resIndex }) ∧
  (∀ (s : State) (requester : Nat),
    
      exec (.atcNowLowRead requester) s = .next { s with dev := s.dev.updHost fun h => { h with atcLatch := tput h.atcLatch requester (s.clk.atc / 2 ^ 32) } })

/-- AIR_CARRIER_ADD stores the carrier with a standing mark, AIR_CARRIER_REMOVE takes both away; AIR_GET_TIME answers ATC, NTC and the place in the frame; AIR_SHADOW_ARM with no write of the instance waiting sets ARM in this cycle, and AIR_SHADOW_STATUS answers ARM, SEQ, MISSED and the last copy; a plan that the ledger admits joins the plans with its charges and jobs and a cancelled one leaves them; a slot that begins without a plan is posted; charges leave the ledger when their bucket has ended. At a mark ACTIVE becomes SHADOW as it stood before the cycle of the mark, a write of the mark's own cycle stays in SHADOW, and a second write of a cycle lands in the next. Each clause ends in: exec of its command is a next state. So these commands complete: airCarrierAdd, airCarrierRemove, airGetTime, airShadowArm, airShadowStatus, airPlanSubmit, airPlanCancel, planGap, ledgerChargeExpire. [03_air_time.md, R82, R97, R98, R99, R100, R101, R102, R105, R106, R107, R108] -/
def Obligations.CarriersAndPlans : Prop :=
  (∀ (s : State) (r : Req) (w : Waiting) (carrier std bw mu cp off hostCar i : Nat),
    Waits s r 0x0201 w → carrier < 512 → s.dev.carrierFault w.func std bw mu cp off hostCar = none → std < 3 → s.dev.carrier carrier = none → s.dev.air.carriers.length < 512 → s.dev.freeCad = some i → 
      ∃ t, exec (.airCarrierAdd r carrier std bw mu cp off hostCar) s = .next t ∧
      t.dev.host = (answered s.clk w rOk s.dev).host ∧ (∃ k, t.dev.carrier carrier = some k ∧ k.owner = w.func ∧ k.std = std ∧ k.bw = bw ∧ k.mu = mu ∧ k.off = off ∧ k.mark = i) ∧
      (∃ e, tfind t.dev.air.cad i = some e ∧ e.action = 4 ∧ e.target = 8 * 2 ^ 28 + carrier ∧ e.standing = true ∧ (s.clk.atc + 2 ≤ e.trigger) ∧ off % 19660800 = e.trigger % 19660800) ∧
      (∀ n, n ≠ carrier → t.dev.carrier n = s.dev.carrier n)) ∧
  (∀ (s : State) (r : Req) (w : Waiting) (carrier : Nat) (k : Carrier),
    Waits s r 0x0202 w → s.dev.carrier carrier = some k → Sees w.func k.owner → s.dev.hasPlans carrier = false → s.dev.fe.streams = [] → (∀ e ∈ s.dev.air.carriers, e.2.std < 3) → 
      exec (.airCarrierRemove r carrier) s = .next { s with dev := answered s.clk w (rOk) (noted (((s.dev.delStanding k.mark).updAir fun a => { a with carriers := tdel a.carriers carrier }).updDevmode fun m => { m with conf := tdel m.conf carrier })) }) ∧
  (∀ (s : State) (r : Req) (w : Waiting) (carrier : Nat),
    Waits s r 0x0203 w → Fits w 26 → carrier = 0xFFFF → 
      exec (.airGetTime r carrier) s = .next { s with dev := answered s.clk w (rOk [(8, s.clk.atc), (8, s.clk.sec), (4, s.clk.ns), (4, s.clk.atc / 19660800), (1, 0xFF), (1, 0xFF)]) s.dev }) ∧
  (∀ (s : State) (r : Req) (w : Waiting) (cls inst value : Nat) (y : Stream),
    Waits s r 0x0220 w → Fits w 10 → (cls = 1 ∨ cls = 2) → inst < 2048 → s.dev.stream inst = some y → Sees w.func y.owner → value ≤ 1 → (s.dev.shadow cls inst).next = [] → s.dev.air.cad = [] → 
      exec (.airShadowArm r cls inst value) s = .next { s with dev := answered s.clk w (rOk [(8, s.clk.atc), (2, (s.dev.shadow cls inst).seq)]) (noted (s.dev.updShadow cls inst fun y => y.touched s.clk.atc (value = 1))) }) ∧
  (∀ (s : State) (r : Req) (w : Waiting) (cls inst : Nat) (y : Stream),
    Waits s r 0x0221 w → Fits w 15 → (cls = 1 ∨ cls = 2) → inst < 2048 → s.dev.stream inst = some y → Sees w.func y.owner → 
      exec (.airShadowStatus r cls inst) s = .next { s with dev := answered s.clk w (rOk [(1, ((s.dev.shadow cls inst).armNow s.clk.atc).toNat), (2, (s.dev.shadow cls inst).seq), (4, (s.dev.shadow cls inst).missed), (8, (s.dev.shadow cls inst).lastCopy)]) s.dev }) ∧
  (∀ (s : State) (r : Req) (w : Waiting) (carrier sfn slot flags count override : Nat) (records : List Byte) (times threads further : List Nat) (k : Carrier) (f : Nat) (js : List PlanJob),
    Waits s r 0x0230 w → s.dev.carrier carrier = some k → Sees w.func k.owner → sfn < 1024 → k.frameOf s.clk.atc sfn = f → slot < k.slotsFrame → f * k.slotsFrame + slot ≤ (k.place s.clk.atc).1 * k.slotsFrame + (k.place s.clk.atc).2.1 + 32 → flags = 0 → (count ≠ 0 ∧ count ≤ 4096) → recordFault (k.std = 1) count 16 records = none → s.dev.devmode.mode.air = true → s.dev.sourceOf carrier = 0 → s.dev.afterDrain (k.slotStart f ((slot : Int) + 1)) = false → (∀ q ∈ s.dev.air.plans, ¬(q.carrier = carrier ∧ q.frame = f ∧ q.slot = slot)) → (w.rung : Int) ≤ k.slotStart f ((slot : Int) - 2) → js = recordJobs times count records ++ further.map furtherJob → s.dev.admission s.clk.atc (s.dev.planCharges s.clk.atc override threads js) = stOK → 
      exec (.airPlanSubmit r carrier sfn slot flags count override records times threads further) s = .next { s with dev := answered s.clk w (rOk) (noted (s.dev.updAir fun a => { a with plans := a.plans ++ [{ carrier := carrier, frame := f, slot := slot, charges := s.dev.planCharges s.clk.atc override threads js, jobs := js }], carriers := tput a.carriers carrier { k with stopAt := none } })) }) ∧
  (∀ (s : State) (r : Req) (w : Waiting) (carrier frame slot : Nat) (k : Carrier) (q : Plan),
    Waits s r 0x0231 w → s.dev.carrier carrier = some k → Sees w.func k.owner → slot < k.slotsFrame → s.dev.air.plans = [q] → (q.carrier = carrier ∧ q.frame % 2 ^ 32 = frame ∧ q.slot = slot) → (w.rung : Int) ≤ k.slotStart q.frame ((slot : Int) - 2) → 
      exec (.airPlanCancel r carrier frame slot) s = .next { s with dev := answered s.clk w (rOk) (noted (s.dev.updAir fun a => { a with plans := [] })) }) ∧
  (∀ (s : State) (carrier : Nat) (k : Carrier) (f slot : Nat),
    s.dev.carrier carrier = some k → s.dev.devmode.mode = .hub → s.dev.devmode.pend = none → k.place s.clk.atc = (f, slot, 0) → k.nextSlot ≤ f * k.slotsFrame + slot → k.off ≤ s.clk.atc → (k.stopped = false ∧ k.stopAt = none) → s.dev.air.plans = [] → s.dev.devmode.drainedAt = none → s.dev.mgmt.limp = false → 
      exec (.planGap carrier slot) s = .next { s with dev := ((s.dev.updAir fun a => { a with carriers := tput a.carriers carrier { k with nextSlot := f * k.slotsFrame + slot + 1 } }).updDevmode fun m => { m with refused := m.refused.filter fun q => q != (carrier, f, slot) }).evt s.clk k.owner k.owner 0x0282 0 [(0, 2, carrier), (2, 4, f), (6, 1, slot)] }) ∧
  (∀ (s : State),
    
      ∃ t, exec (.ledgerChargeExpire) s = .next t ∧
      (∀ q ∈ t.dev.air.plans, ∀ x ∈ q.charges, s.clk.atc / 245760 ≤ x.2.2.1) ∧ t.dev.air.carriers = s.dev.air.carriers ∧ t.dev.host = s.dev.host) ∧
  (∀ (i : Inst FeSet) (m : Nat) (f g : FeSet → FeSet), (i.copy m).act = i.shAt m ∧ (i.copy m).sh = (i.copy m).act ∧
      ((i.write m m f).copy m).act = i.shAt m ∧ ((i.write m m f).copy m).latest = f i.latest ∧
      (((i.write m m f).write m (m + 2) g).copy (m + 2)).act = f i.latest ∧ (((i.write m m f).write m (m + 2) g).copy (m + 2)).latest = g (f i.latest))

/-- Alone in its bundle on a core at rest, each writes its register after its latency and nothing else, and the next bundle is the sequential one; a branch or call opens a delay sequence, REP a loop, WAIT stops issue, and a false guard leaves the syllable without effect. Each clause ends in: exec of its command is a next state. So these commands complete: nop, add, sub, and, or, xor, shl, shr, addi, movi, movl, cmp, maxi, mini, br, call, jr, rep, fenceW, fenceI, scadj, wait. [04_signal_core.md, R112, R113, R114, R115, R122, R125, R136, R137, R146, R150] -/
def Obligations.ScalarSlotX : Prop :=
  (∀ (s : State) (b : BCtx) (k : Core) (g : Guard) (slot : Nat),
    Rests s b k → Alone b → 
      exec (.nop b g slot) s = .next { s with dev := s.dev.setCore b.core k.went }) ∧
  (∀ (s : State) (b : BCtx) (k : Core) (g : Guard) (d a c sub : Nat),
    Rests s b k → Alone b → k.guard g = true → sub = 0 → 
      exec (.add b g d a c sub) s = .next { s with dev := s.dev.setCore b.core ({ k with fly := [⟨k.n + 1, .s (mapS k.rrb d) (BitVec.ofInt 32 ((k.rs a).toInt + (k.rs c).toInt)), k.n⟩] }.went) }) ∧
  (∀ (s : State) (b : BCtx) (k : Core) (g : Guard) (d a c sub : Nat),
    Rests s b k → Alone b → k.guard g = false → 
      exec (.add b g d a c sub) s = .next { s with dev := s.dev.setCore b.core k.went }) ∧
  (∀ (s : State) (b : BCtx) (k : Core) (g : Guard) (d a c sub : Nat),
    Rests s b k → Alone b → k.guard g = true → sub = 1 → 
      exec (.sub b g d a c sub) s = .next { s with dev := s.dev.setCore b.core ({ k with fly := [⟨k.n + 1, .s (mapS k.rrb d) (BitVec.ofInt 32 (satS 32 ((k.rs a).toInt - (k.rs c).toInt))), k.n⟩] }.went) }) ∧
  (∀ (s : State) (b : BCtx) (k : Core) (g : Guard) (d a c sub : Nat),
    Rests s b k → Alone b → k.guard g = true → sub = 0 → 
      exec (.and b g d a c sub) s = .next { s with dev := s.dev.setCore b.core ({ k with fly := [⟨k.n + 1, .s (mapS k.rrb d) (k.rs a &&& k.rs c), k.n⟩] }.went) }) ∧
  (∀ (s : State) (b : BCtx) (k : Core) (g : Guard) (d a c sub : Nat),
    Rests s b k → Alone b → k.guard g = true → sub = 0 → 
      exec (.or b g d a c sub) s = .next { s with dev := s.dev.setCore b.core ({ k with fly := [⟨k.n + 1, .s (mapS k.rrb d) (k.rs a ||| k.rs c), k.n⟩] }.went) }) ∧
  (∀ (s : State) (b : BCtx) (k : Core) (g : Guard) (d a c sub : Nat),
    Rests s b k → Alone b → k.guard g = true → sub = 0 → 
      exec (.xor b g d a c sub) s = .next { s with dev := s.dev.setCore b.core ({ k with fly := [⟨k.n + 1, .s (mapS k.rrb d) (k.rs a ^^^ k.rs c), k.n⟩] }.went) }) ∧
  (∀ (s : State) (b : BCtx) (k : Core) (g : Guard) (d a c sub : Nat),
    Rests s b k → Alone b → k.guard g = true → sub ≤ 1 → 
      exec (.shl b g d a c sub) s = .next { s with dev := s.dev.setCore b.core ({ k with fly := [⟨k.n + 1, .s (mapS k.rrb d) (shlOp sub (k.rs a) ((k.rs c).toNat % 32)), k.n⟩] }.went) }) ∧
  (∀ (s : State) (b : BCtx) (k : Core) (g : Guard) (d a c sub : Nat),
    Rests s b k → Alone b → k.guard g = true → sub ≤ 2 → 
      exec (.shr b g d a c sub) s = .next { s with dev := s.dev.setCore b.core ({ k with fly := [⟨k.n + 1, .s (mapS k.rrb d) (shrOp sub (k.rs a) ((k.rs c).toNat % 32)), k.n⟩] }.went) }) ∧
  (∀ (s : State) (b : BCtx) (k : Core) (g : Guard) (d a imm : Nat),
    Rests s b k → Alone b → k.guard g = true → 
      exec (.addi b g d a imm) s = .next { s with dev := s.dev.setCore b.core ({ k with fly := [⟨k.n + 1, .s (mapS k.rrb d) (k.rs a + BitVec.ofInt 32 (sgn 8 imm)), k.n⟩] }.went) }) ∧
  (∀ (s : State) (b : BCtx) (k : Core) (g : Guard) (d imm : Nat),
    Rests s b k → Alone b → k.guard g = true → 
      exec (.movi b g d imm) s = .next { s with dev := s.dev.setCore b.core ({ k with fly := [⟨k.n + 1, .s (mapS k.rrb d) (BitVec.ofInt 32 (sgn 14 imm)), k.n⟩] }.went) }) ∧
  (∀ (s : State) (b : BCtx) (k : Core) (g : Guard) (d : Nat),
    Rests s b k → AloneMovl b → k.guard g = true → 
      exec (.movl b g d) s = .next { s with dev := s.dev.setCore b.core ({ k with fly := [⟨k.n + 1, .s (mapS k.rrb d) b.l1, k.n⟩] }.went) }) ∧
  (∀ (s : State) (b : BCtx) (k : Core) (g : Guard) (qd cond a c : Nat),
    Rests s b k → Alone b → k.guard g = true → cond < 8 → 
      exec (.cmp b g qd cond a c) s = .next { s with dev := s.dev.setCore b.core ({ k with fly := [⟨k.n + 1, .q (mapQ k.rrb qd) (condHolds cond (k.rs a) (k.rs c)), k.n⟩] }.went) }) ∧
  (∀ (s : State) (b : BCtx) (k : Core) (g : Guard) (d a c sub : Nat),
    Rests s b k → Alone b → k.guard g = true → d % 2 = 0 → sub ≤ 1 → 
      exec (.maxi b g d a c sub) s = .next { s with dev := s.dev.setCore b.core ({ k with fly := [⟨k.n + 2, .search (mapS k.rrb d) (mapS k.rrb (d + 1)) true (sub = 1) (k.rs a) (k.rs c), k.n⟩] }.went) }) ∧
  (∀ (s : State) (b : BCtx) (k : Core) (g : Guard) (d a c sub : Nat),
    Rests s b k → Alone b → k.guard g = true → d % 2 = 0 → sub ≤ 1 → 
      exec (.mini b g d a c sub) s = .next { s with dev := s.dev.setCore b.core ({ k with fly := [⟨k.n + 2, .search (mapS k.rrb d) (mapS k.rrb (d + 1)) false (sub = 1) (k.rs a) (k.rs c), k.n⟩] }.went) }) ∧
  (∀ (s : State) (b : BCtx) (k : Core) (g : Guard) (annul : Bool) (off : Nat),
    Rests s b k → Alone b → k.guard g = true → 
      exec (.br b g annul off) s = .next { s with dev := s.dev.setCore b.core ({ k with ds := some { target := uns 32 ((k.pc : Int) + 16 * sgn 19 off), taken := true, annul := annul, remain := 3 } }.went) }) ∧
  (∀ (s : State) (b : BCtx) (k : Core) (g : Guard) (annul : Bool) (off : Nat),
    Rests s b k → Alone b → k.guard g = true → 
      exec (.call b g annul off) s = .next { s with dev := s.dev.setCore b.core ({ k with fly := [⟨k.n + 1, .s 31 (BitVec.ofNat 32 (k.pc + 64)), k.n⟩], ds := some { target := uns 32 ((k.pc : Int) + 16 * sgn 19 off), taken := true, annul := annul, remain := 3 } }.went) }) ∧
  (∀ (s : State) (b : BCtx) (k : Core) (g : Guard) (annul : Bool) (a : Nat),
    Rests s b k → Alone b → k.guard g = true → 
      exec (.jr b g annul a) s = .next { s with dev := s.dev.setCore b.core ({ k with ds := some { target := bits (k.rs a).toNat 4 13 * 16, taken := true, annul := annul, remain := 3 } }.went) }) ∧
  (∀ (s : State) (b : BCtx) (k : Core) (g : Guard) (len : Nat) (rot : Bool) (stg : Nat) (ci : Bool) (cnt : Nat),
    Rests s b k → Alone b → k.guard g = true → rot = false → ci = true → cnt ≠ 0 → cnt ≤ k.repmax → 
      exec (.rep b g len rot stg ci cnt) s = .next { s with dev := s.dev.setCore b.core ({ k with rep := { start := k.pc + 16, last := k.pc + 16 * len, cnt := cnt, rot := false, count := cnt, j := 0 } }.went) }) ∧
  (∀ (s : State) (b : BCtx) (k : Core) (g : Guard),
    Rests s b k → Alone b → k.guard g = true → 
      exec (.fenceW b g) s = .next { s with dev := s.dev.setCore b.core k.went }) ∧
  (∀ (s : State) (b : BCtx) (k : Core) (g : Guard),
    Rests s b k → Alone b → k.guard g = true → 
      exec (.fenceI b g) s = .next { s with dev := s.dev.setCore b.core k.went }) ∧
  (∀ (s : State) (b : BCtx) (k : Core) (g : Guard),
    Rests s b k → Alone b → k.guard g = true → sclAuto k.scl = true → 
      exec (.scadj b g) s = .next { s with dev := s.dev.setCore b.core ({ k with fly := [⟨k.n + 5, .adjust k.n (k.growBy.any (0 ≤ ·)), k.n⟩] }.went) }) ∧
  (∀ (s : State) (b : BCtx) (k : Core) (g : Guard),
    Rests s b k → Alone b → k.guard g = true → k.evpend &&& k.evmask = 0 → s.dev.preReq b.core = false → 
      exec (.wait b g) s = .next { s with dev := s.dev.setCore b.core ({ k with waiting := true, lost := true }.went) })

/-- A permitted CSR read gives its value, a permitted write lands after its latency, a write without the privilege traps; TRAP and BREAK save the bundle's PC, cause and status and enter the handler; RFE to K or T restores PC, privilege and enables; a bundle that meets a parity error in the registers halts the core with cause 0x40 and its self-test runs. Each clause ends in: exec of its command is a next state. So these commands complete: csrr, csrw, csrs, csrc, nop, trap, brk, rfe. [04_signal_core.md, R138, R141, R142, R143, R144, R145, R378] -/
def Obligations.ControlRegistersAndTraps : Prop :=
  (∀ (s : State) (b : BCtx) (k : Core) (g : Guard) (reg addr rd : Nat) (wr : Option Nat),
    Rests s b k → Alone b → k.guard g = true → csrPerm addr = some (rd, wr) → rd ≤ k.priv → (¬(0x090 ≤ addr ∧ addr ≤ 0x094)) → (addr ≠ 0x0C1 ∧ addr ≠ 0x0C2 ∧ addr ≠ 0x082 ∧ addr ≠ 0x0C3) → 
      exec (.csrr b g reg addr) s = .next { s with dev := s.dev.setCore b.core ({ k with fly := [⟨k.n + 1, .s (mapS k.rrb reg) (BitVec.ofNat 32 (k.csrRead b.core s.clk addr)), k.n⟩] }.went) }) ∧
  (∀ (s : State) (b : BCtx) (k : Core) (g : Guard) (reg addr rd w : Nat),
    Rests s b k → Alone b → k.guard g = true → csrPerm addr = some (rd, some w) → w ≤ k.priv → (¬(0x090 ≤ addr ∧ addr ≤ 0x094)) → 
      exec (.csrw b g reg addr) s = .next { s with dev := s.dev.setCore b.core ({ k with fly := [⟨k.n + 2, .csr .w addr k.priv (k.rs reg), k.n⟩] }.went) }) ∧
  (∀ (s : State) (b : BCtx) (k : Core) (g : Guard) (reg addr rd w : Nat),
    Rests s b k → Alone b → k.guard g = true → csrPerm addr = some (rd, some w) → w ≤ k.priv → (¬(0x090 ≤ addr ∧ addr ≤ 0x094)) → 
      exec (.csrs b g reg addr) s = .next { s with dev := s.dev.setCore b.core ({ k with fly := [⟨k.n + 2, .csr .s addr k.priv (k.rs reg), k.n⟩] }.went) }) ∧
  (∀ (s : State) (b : BCtx) (k : Core) (g : Guard) (reg addr rd w : Nat),
    Rests s b k → Alone b → k.guard g = true → csrPerm addr = some (rd, some w) → w ≤ k.priv → (¬(0x090 ≤ addr ∧ addr ≤ 0x094)) → 
      exec (.csrc b g reg addr) s = .next { s with dev := s.dev.setCore b.core ({ k with fly := [⟨k.n + 2, .csr .c addr k.priv (k.rs reg), k.n⟩] }.went) }) ∧
  (∀ (s : State) (b : BCtx) (k : Core) (g : Guard) (reg addr rd w : Nat),
    Rests s b k → Alone b → k.guard g = true → csrPerm addr = some (rd, some w) → k.priv < w → (¬(0x090 ≤ addr ∧ addr ≤ 0x094)) → 
      exec (.csrw b g reg addr) s = .next { s with dev := s.dev.setCore b.core (k.trapped 0x03 0) }) ∧
  (∀ (s : State) (b : BCtx) (k : Core) (g : Guard) (slot : Nat),
    s.dev.core b.core = k → s.dev.canRun b.core = true → k.stalled = none → k.fly = [] → k.vop = none → b.parity = true → 
      exec (.nop b g slot) s = .next { s with dev := (((s.dev.setCore b.core k).haltCore s.clk b.core 0x40 k.pc).startBist b.core).parityTest 2 b.core (b.core / 64) }) ∧
  (∀ (s : State) (b : BCtx) (k : Core) (g : Guard) (code : Nat),
    Rests s b k → Alone b → k.guard g = true → (k.priv = 2 → k.te = true) → 
      exec (.trap b g code) s = .next { s with dev := s.dev.setCore b.core (k.trapped 0x10 code) }) ∧
  (∀ (s : State) (b : BCtx) (k : Core) (g : Guard),
    Rests s b k → Alone b → k.guard g = true → (k.priv = 2 → k.te = true) → 
      exec (.brk b g) s = .next { s with dev := s.dev.setCore b.core (k.trapped 0x11 0) }) ∧
  (∀ (s : State) (b : BCtx) (k : Core) (g : Guard),
    Rests s b k → Alone b → k.guard g = true → k.priv = 1 → k.k.status.toNat % 4 ≤ 1 → k.k.rep.cnt = 0 → bit k.k.dscCtl.toNat 2 = false → 
      exec (.rfe b g) s = .next { s with dev := s.dev.setCore b.core ({ k with te := bit k.k.status.toNat 3, ie := bit k.k.status.toNat 2, priv := k.k.status.toNat % 4, rrb := k.k.rrb, rep := { k.rep with cnt := 0, rot := false }, n := k.n + 1, cycle := (k.cycle + 1) % 2 ^ 64, pc := k.k.epc.toNat, stalled := none, repEnd := false, ds := none }) })

/-- A load of the core's data memory gives its register the bytes at the address, a store writes exactly its bytes there, and a pointer takes its update; pointer moves, products and accumulator steps write what they name. Each clause ends in: exec of its command is a next state. So these commands complete: ldb, ldh, ldw, ldd, stb, sth, stw, std, ldwD, stwD, padd, pmod, pset, pget, mset, mac, cmac, mul, mva, aclr. [04_signal_core.md, R110, R114, R117, R121, R130, R131, R133, R141] -/
def Obligations.ScalarMemoryAndAccumulators : Prop :=
  (∀ (s : State) (b : BCtx) (k : Core) (g : Guard) (l1 : Bool) (d p m am : Nat) (sx : Bool),
    Rests s b k → Alone b → k.guard g = true → k.ea p m am % 1 = 0 → inLdm (k.ea p m am) 1 = true → 
      exec (.ldb b g l1 d p m am sx) s = .next { s with dev := s.dev.setCore b.core ({ k with fly := ⟨k.n + 4, .s (mapS k.rrb d) (if sx then BitVec.ofInt 32 (sgn 8 (readLe s.dev.mem.ldm (2 ^ 18 * b.core + k.ea p m am) 1)) else BitVec.ofNat 32 (readLe s.dev.mem.ldm (2 ^ 18 * b.core + k.ea p m am) 1)), k.n⟩ :: (if am = 0 then [] else [⟨k.n + 1, .p p (k.ptrNext p m am 0), k.n⟩]) }.went) }) ∧
  (∀ (s : State) (b : BCtx) (k : Core) (g : Guard) (l1 : Bool) (d p m am : Nat) (sx : Bool),
    Rests s b k → Alone b → k.guard g = true → k.ea p m am % 2 = 0 → inLdm (k.ea p m am) 2 = true → 
      exec (.ldh b g l1 d p m am sx) s = .next { s with dev := s.dev.setCore b.core ({ k with fly := ⟨k.n + 4, .s (mapS k.rrb d) (if sx then BitVec.ofInt 32 (sgn 16 (readLe s.dev.mem.ldm (2 ^ 18 * b.core + k.ea p m am) 2)) else BitVec.ofNat 32 (readLe s.dev.mem.ldm (2 ^ 18 * b.core + k.ea p m am) 2)), k.n⟩ :: (if am = 0 then [] else [⟨k.n + 1, .p p (k.ptrNext p m am 1), k.n⟩]) }.went) }) ∧
  (∀ (s : State) (b : BCtx) (k : Core) (g : Guard) (l1 : Bool) (d p m am : Nat) (sx : Bool),
    Rests s b k → Alone b → k.guard g = true → k.ea p m am % 4 = 0 → inLdm (k.ea p m am) 4 = true → 
      exec (.ldw b g l1 d p m am sx) s = .next { s with dev := s.dev.setCore b.core ({ k with fly := ⟨k.n + 4, .s (mapS k.rrb d) (if sx then BitVec.ofInt 32 (sgn 32 (readLe s.dev.mem.ldm (2 ^ 18 * b.core + k.ea p m am) 4)) else BitVec.ofNat 32 (readLe s.dev.mem.ldm (2 ^ 18 * b.core + k.ea p m am) 4)), k.n⟩ :: (if am = 0 then [] else [⟨k.n + 1, .p p (k.ptrNext p m am 2), k.n⟩]) }.went) }) ∧
  (∀ (s : State) (b : BCtx) (k : Core) (g : Guard) (l1 : Bool) (d p m am : Nat) (sx : Bool),
    Rests s b k → Alone b → k.guard g = true → d % 2 = 0 → k.ea p m am % 8 = 0 → inLdm (k.ea p m am) 8 = true → 
      exec (.ldd b g l1 d p m am sx) s = .next { s with dev := s.dev.setCore b.core ({ k with fly := ⟨k.n + 4, .s (mapS k.rrb d) (BitVec.ofNat 32 (readLe s.dev.mem.ldm (2 ^ 18 * b.core + k.ea p m am) 8)), k.n⟩ :: ⟨k.n + 4, .s (mapS k.rrb (d + 1)) (BitVec.ofNat 32 (readLe s.dev.mem.ldm (2 ^ 18 * b.core + k.ea p m am) 8 / 2 ^ 32)), k.n⟩ :: (if am = 0 then [] else [⟨k.n + 1, .p p (k.ptrNext p m am 3), k.n⟩]) }.went) }) ∧
  (∀ (s : State) (b : BCtx) (k : Core) (g : Guard) (l1 : Bool) (d p m am : Nat),
    Rests s b k → Alone b → k.guard g = true → k.ea p m am % 1 = 0 → inLdm (k.ea p m am) 1 = true → 
      exec (.stb b g l1 d p m am) s = .next { s with dev := { s.dev.setCore b.core ({ k with fly := if am = 0 then [] else [⟨k.n + 1, .p p (k.ptrNext p m am 0), k.n⟩] } : Core).went with mem := { s.dev.mem with ldm := writeBytes s.dev.mem.ldm (2 ^ 18 * b.core + k.ea p m am) (le 1 (k.rs d).toNat) } } }) ∧
  (∀ (s : State) (b : BCtx) (k : Core) (g : Guard) (l1 : Bool) (d p m am : Nat),
    Rests s b k → Alone b → k.guard g = true → k.ea p m am % 2 = 0 → inLdm (k.ea p m am) 2 = true → 
      exec (.sth b g l1 d p m am) s = .next { s with dev := { s.dev.setCore b.core ({ k with fly := if am = 0 then [] else [⟨k.n + 1, .p p (k.ptrNext p m am 1), k.n⟩] } : Core).went with mem := { s.dev.mem with ldm := writeBytes s.dev.mem.ldm (2 ^ 18 * b.core + k.ea p m am) (le 2 (k.rs d).toNat) } } }) ∧
  (∀ (s : State) (b : BCtx) (k : Core) (g : Guard) (l1 : Bool) (d p m am : Nat),
    Rests s b k → Alone b → k.guard g = true → k.ea p m am % 4 = 0 → inLdm (k.ea p m am) 4 = true → 
      exec (.stw b g l1 d p m am) s = .next { s with dev := { s.dev.setCore b.core ({ k with fly := if am = 0 then [] else [⟨k.n + 1, .p p (k.ptrNext p m am 2), k.n⟩] } : Core).went with mem := { s.dev.mem with ldm := writeBytes s.dev.mem.ldm (2 ^ 18 * b.core + k.ea p m am) (le 4 (k.rs d).toNat) } } }) ∧
  (∀ (s : State) (b : BCtx) (k : Core) (g : Guard) (l1 : Bool) (d p m am : Nat),
    Rests s b k → Alone b → k.guard g = true → d % 2 = 0 → k.ea p m am % 8 = 0 → inLdm (k.ea p m am) 8 = true → 
      exec (.std b g l1 d p m am) s = .next { s with dev := { s.dev.setCore b.core ({ k with fly := if am = 0 then [] else [⟨k.n + 1, .p p (k.ptrNext p m am 3), k.n⟩] } : Core).went with mem := { s.dev.mem with ldm := writeBytes s.dev.mem.ldm (2 ^ 18 * b.core + k.ea p m am) (le 8 ((k.rs d).toNat + (k.rs (d + 1)).toNat * 2 ^ 32)) } } }) ∧
  (∀ (s : State) (b : BCtx) (k : Core) (g : Guard) (l1 : Bool) (d p disp : Nat),
    Rests s b k → Alone b → k.guard g = true → wrap48 (k.rp p + 4 * sgn 10 disp) % 4 = 0 → inLdm (wrap48 (k.rp p + 4 * sgn 10 disp)) 4 = true → 
      exec (.ldwD b g l1 d p disp) s = .next { s with dev := s.dev.setCore b.core ({ k with fly := [⟨k.n + 4, .s (mapS k.rrb d) (BitVec.ofNat 32 (readLe s.dev.mem.ldm (2 ^ 18 * b.core + wrap48 (k.rp p + 4 * sgn 10 disp)) 4)), k.n⟩] }.went) }) ∧
  (∀ (s : State) (b : BCtx) (k : Core) (g : Guard) (l1 : Bool) (d p disp : Nat),
    Rests s b k → Alone b → k.guard g = true → wrap48 (k.rp p + 4 * sgn 10 disp) % 4 = 0 → inLdm (wrap48 (k.rp p + 4 * sgn 10 disp)) 4 = true → 
      exec (.stwD b g l1 d p disp) s = .next { s with dev := { s.dev.setCore b.core k.went with mem := { s.dev.mem with ldm := writeBytes s.dev.mem.ldm (2 ^ 18 * b.core + wrap48 (k.rp p + 4 * sgn 10 disp)) (le 4 (k.rs d).toNat) } } }) ∧
  (∀ (s : State) (b : BCtx) (k : Core) (g : Guard) (l1 : Bool) (pd pa a : Nat),
    Rests s b k → Alone b → k.guard g = true → 
      exec (.padd b g l1 pd pa a) s = .next { s with dev := s.dev.setCore b.core ({ k with fly := [⟨k.n + 1, .p pd (wrap48 (k.rp pa + (k.rs a).toInt)), k.n⟩] }.went) }) ∧
  (∀ (s : State) (b : BCtx) (k : Core) (g : Guard) (l1 : Bool) (p m am : Nat),
    Rests s b k → Alone b → k.guard g = true → am ≠ 0 → 
      exec (.pmod b g l1 p m am) s = .next { s with dev := s.dev.setCore b.core ({ k with fly := [⟨k.n + 1, .p p (k.ptrNext p m am 0), k.n⟩] }.went) }) ∧
  (∀ (s : State) (b : BCtx) (k : Core) (g : Guard) (l1 : Bool) (pd a : Nat),
    Rests s b k → Alone b → k.guard g = true → a % 2 = 0 → 
      exec (.pset b g l1 pd a) s = .next { s with dev := s.dev.setCore b.core ({ k with fly := [⟨k.n + 1, .p pd ((k.rs a).toNat + (k.rs (a + 1)).toNat % 65536 * 2 ^ 32), k.n⟩] }.went) }) ∧
  (∀ (s : State) (b : BCtx) (k : Core) (g : Guard) (l1 : Bool) (d p : Nat),
    Rests s b k → Alone b → k.guard g = true → d % 2 = 0 → 
      exec (.pget b g l1 d p) s = .next { s with dev := s.dev.setCore b.core ({ k with fly := [⟨k.n + 1, .s (mapS k.rrb d) (BitVec.ofNat 32 (k.rp p)), k.n⟩, ⟨k.n + 1, .s (mapS k.rrb (d + 1)) (BitVec.ofNat 32 (k.rp p / 2 ^ 32)), k.n⟩] }.went) }) ∧
  (∀ (s : State) (b : BCtx) (k : Core) (g : Guard) (l1 : Bool) (md a : Nat),
    Rests s b k → Alone b → k.guard g = true → 
      exec (.mset b g l1 md a) s = .next { s with dev := s.dev.setCore b.core ({ k with fly := [⟨k.n + 1, .m md (k.rs a), k.n⟩] }.went) }) ∧
  (∀ (s : State) (b : BCtx) (k : Core) (g : Guard) (an a c sub : Nat),
    Rests s b k → Alone b → k.guard g = true → sub ≤ 2 → 
      exec (.mac b g an a c sub) s = .next { s with dev := s.dev.setCore b.core ({ k with fly := [⟨k.n + 3, .acc an (sub = 2) (some (if sub = 1 then -(sgn 16 (k.rs a).toNat * sgn 16 (k.rs c).toNat) else sgn 16 (k.rs a).toNat * sgn 16 (k.rs c).toNat)) none, k.n⟩] }.went) }) ∧
  (∀ (s : State) (b : BCtx) (k : Core) (g : Guard) (an a c sub : Nat),
    Rests s b k → Alone b → k.guard g = true → sub = 0 → 
      exec (.cmac b g an a c sub) s = .next { s with dev := s.dev.setCore b.core ({ k with fly := [⟨k.n + 3, .acc an false (some (product 3 false (k.rs a).toNat (k.rs c).toNat).1) (some (product 3 false (k.rs a).toNat (k.rs c).toNat).2), k.n⟩] }.went) }) ∧
  (∀ (s : State) (b : BCtx) (k : Core) (g : Guard) (d a c sub : Nat),
    Rests s b k → Alone b → k.guard g = true → sub ≤ 1 → 
      exec (.mul b g d a c sub) s = .next { s with dev := s.dev.setCore b.core ({ k with fly := [⟨k.n + 3, .s (mapS k.rrb d) (BitVec.ofInt 32 (if sub = 0 then (k.rs a).toInt * (k.rs c).toInt else (k.rs a).toInt * (k.rs c).toInt / 2 ^ 32)), k.n⟩] }.went) }) ∧
  (∀ (s : State) (b : BCtx) (k : Core) (g : Guard) (d an form : Nat),
    Rests s b k → Alone b → k.guard g = true → form ≤ 2 → 
      exec (.mva b g d an form) s = .next { s with dev := s.dev.setCore b.core ({ k with fly := ⟨k.n + 2, .s (mapS k.rrb d) (mvaResult form (k.ra an).1 (k.ra an).2 (sclScale k.scl) (sclHead k.scl)).1, k.n⟩ :: (if (mvaResult form (k.ra an).1 (k.ra an).2 (sclScale k.scl) (sclHead k.scl)).2 then [⟨k.n + 2, .grow, k.n⟩] else []) }.went) }) ∧
  (∀ (s : State) (b : BCtx) (k : Core) (g : Guard) (an : Nat),
    Rests s b k → Alone b → k.guard g = true → 
      exec (.aclr b g an) s = .next { s with dev := s.dev.setCore b.core ({ k with fly := [⟨k.n + 3, .acc an true (some 0) (some 0), k.n⟩] }.went) })

/-- A legal vector syllable alone in its bundle takes the slot with what it reads at issue, runs its first beat in that bundle, and the next bundle is the sequential one; VSETVL sets VL to the least of its operand and VLMAX. Each clause ends in: exec of its command is a next state. So these commands complete: vsetvl, vadd, vsub, vadds, vand, vor, vxor, vshl, vshr, vmin, vmax, vabs, vmerge, vconj, vmul, vmuls, vmac, vwmac, vmag2, vfadd, vfsub, vfmul, vfma, vcvt, vcmp, vslideup, vslidedn, vzip, vbcast, vext, vins, vrsum, vmaxi, vmini, vmva. [05_vector_extension.md, R157, R158, R159, R162, R163, R164, R165, R170, R171, R172] -/
def Obligations.VectorArithmetic : Prop :=
  (∀ (s : State) (b : BCtx) (k : Core) (g : Guard) (d v a : Nat) (mk : Bool),
    Rests s b k → Alone b → k.guard g = true → 
      exec (.vsetvl b g d v a mk) s = .next { s with dev := s.dev.setCore b.core ({ k with fly := [⟨k.n + 1, .vl (min (k.rs a).toNat k.vlmax), k.n⟩, ⟨k.n + 1, .s (mapS k.rrb d) (BitVec.ofNat 32 (min (k.rs a).toNat k.vlmax)), k.n⟩] }.went) }) ∧
  (∀ (s : State) (b : BCtx) (k : Core) (g : Guard) (vd : Nat) (va : Nat) (vb : Nat) (mk : Bool) (sub : Nat),
    Rests s b k → Alone b → k.guard g = true → bit k.imgFlags 0 = true → k.vLegal (.vv .add vd va vb mk sub) = true → 
      exec (.vadd b g vd va vb mk sub) s = .next { s with dev := s.dev.setCore b.core (({ k with vop := (k.startV (.vv .add vd va vb mk sub) true 0).vop } : Core).beat.went) }) ∧
  (∀ (s : State) (b : BCtx) (k : Core) (g : Guard) (vd : Nat) (va : Nat) (vb : Nat) (mk : Bool) (sub : Nat),
    Rests s b k → Alone b → k.guard g = true → bit k.imgFlags 0 = true → k.vLegal (.vv .sub vd va vb mk sub) = true → 
      exec (.vsub b g vd va vb mk sub) s = .next { s with dev := s.dev.setCore b.core (({ k with vop := (k.startV (.vv .sub vd va vb mk sub) true 0).vop } : Core).beat.went) }) ∧
  (∀ (s : State) (b : BCtx) (k : Core) (g : Guard) (vd : Nat) (va : Nat) (rd : Nat) (mk : Bool) (sub : Nat),
    Rests s b k → Alone b → k.guard g = true → bit k.imgFlags 0 = true → k.vLegal (.vs .adds vd va rd mk sub) = true → 
      exec (.vadds b g vd va rd mk sub) s = .next { s with dev := s.dev.setCore b.core (({ k with vop := (k.startV (.vs .adds vd va rd mk sub) true 0).vop } : Core).beat.went) }) ∧
  (∀ (s : State) (b : BCtx) (k : Core) (g : Guard) (vd : Nat) (va : Nat) (vb : Nat) (mk : Bool) (sub : Nat),
    Rests s b k → Alone b → k.guard g = true → bit k.imgFlags 0 = true → k.vLegal (.vv .and vd va vb mk sub) = true → 
      exec (.vand b g vd va vb mk sub) s = .next { s with dev := s.dev.setCore b.core (({ k with vop := (k.startV (.vv .and vd va vb mk sub) true 0).vop } : Core).beat.went) }) ∧
  (∀ (s : State) (b : BCtx) (k : Core) (g : Guard) (vd : Nat) (va : Nat) (vb : Nat) (mk : Bool) (sub : Nat),
    Rests s b k → Alone b → k.guard g = true → bit k.imgFlags 0 = true → k.vLegal (.vv .or vd va vb mk sub) = true → 
      exec (.vor b g vd va vb mk sub) s = .next { s with dev := s.dev.setCore b.core (({ k with vop := (k.startV (.vv .or vd va vb mk sub) true 0).vop } : Core).beat.went) }) ∧
  (∀ (s : State) (b : BCtx) (k : Core) (g : Guard) (vd : Nat) (va : Nat) (vb : Nat) (mk : Bool) (sub : Nat),
    Rests s b k → Alone b → k.guard g = true → bit k.imgFlags 0 = true → k.vLegal (.vv .xor vd va vb mk sub) = true → 
      exec (.vxor b g vd va vb mk sub) s = .next { s with dev := s.dev.setCore b.core (({ k with vop := (k.startV (.vv .xor vd va vb mk sub) true 0).vop } : Core).beat.went) }) ∧
  (∀ (s : State) (b : BCtx) (k : Core) (g : Guard) (vd : Nat) (va : Nat) (rd : Nat) (mk : Bool) (sub : Nat),
    Rests s b k → Alone b → k.guard g = true → bit k.imgFlags 0 = true → k.vLegal (.vs .shl vd va rd mk sub) = true → 
      exec (.vshl b g vd va rd mk sub) s = .next { s with dev := s.dev.setCore b.core (({ k with vop := (k.startV (.vs .shl vd va rd mk sub) true 0).vop } : Core).beat.went) }) ∧
  (∀ (s : State) (b : BCtx) (k : Core) (g : Guard) (vd : Nat) (va : Nat) (rd : Nat) (mk : Bool) (sub : Nat),
    Rests s b k → Alone b → k.guard g = true → bit k.imgFlags 0 = true → k.vLegal (.vs .shr vd va rd mk sub) = true → 
      exec (.vshr b g vd va rd mk sub) s = .next { s with dev := s.dev.setCore b.core (({ k with vop := (k.startV (.vs .shr vd va rd mk sub) true 0).vop } : Core).beat.went) }) ∧
  (∀ (s : State) (b : BCtx) (k : Core) (g : Guard) (vd : Nat) (va : Nat) (vb : Nat) (mk : Bool) (sub : Nat),
    Rests s b k → Alone b → k.guard g = true → bit k.imgFlags 0 = true → k.vLegal (.vv .min vd va vb mk sub) = true → 
      exec (.vmin b g vd va vb mk sub) s = .next { s with dev := s.dev.setCore b.core (({ k with vop := (k.startV (.vv .min vd va vb mk sub) true 0).vop } : Core).beat.went) }) ∧
  (∀ (s : State) (b : BCtx) (k : Core) (g : Guard) (vd : Nat) (va : Nat) (vb : Nat) (mk : Bool) (sub : Nat),
    Rests s b k → Alone b → k.guard g = true → bit k.imgFlags 0 = true → k.vLegal (.vv .max vd va vb mk sub) = true → 
      exec (.vmax b g vd va vb mk sub) s = .next { s with dev := s.dev.setCore b.core (({ k with vop := (k.startV (.vv .max vd va vb mk sub) true 0).vop } : Core).beat.went) }) ∧
  (∀ (s : State) (b : BCtx) (k : Core) (g : Guard) (vd : Nat) (va : Nat) (vb : Nat) (mk : Bool) (sub : Nat),
    Rests s b k → Alone b → k.guard g = true → bit k.imgFlags 0 = true → k.vLegal (.vv .abs vd va vb mk sub) = true → 
      exec (.vabs b g vd va vb mk sub) s = .next { s with dev := s.dev.setCore b.core (({ k with vop := (k.startV (.vv .abs vd va vb mk sub) true 0).vop } : Core).beat.went) }) ∧
  (∀ (s : State) (b : BCtx) (k : Core) (g : Guard) (vd : Nat) (va : Nat) (vb : Nat) (mk : Bool) (sub : Nat),
    Rests s b k → Alone b → k.guard g = true → bit k.imgFlags 0 = true → k.vLegal (.vv .merge vd va vb mk sub) = true → 
      exec (.vmerge b g vd va vb mk sub) s = .next { s with dev := s.dev.setCore b.core (({ k with vop := (k.startV (.vv .merge vd va vb mk sub) true 0).vop } : Core).beat.went) }) ∧
  (∀ (s : State) (b : BCtx) (k : Core) (g : Guard) (vd : Nat) (va : Nat) (vb : Nat) (mk : Bool) (sub : Nat),
    Rests s b k → Alone b → k.guard g = true → bit k.imgFlags 0 = true → k.vLegal (.vv .conj vd va vb mk sub) = true → 
      exec (.vconj b g vd va vb mk sub) s = .next { s with dev := s.dev.setCore b.core (({ k with vop := (k.startV (.vv .conj vd va vb mk sub) true 0).vop } : Core).beat.went) }) ∧
  (∀ (s : State) (b : BCtx) (k : Core) (g : Guard) (vd : Nat) (va : Nat) (vb : Nat) (mk : Bool) (sub : Nat),
    Rests s b k → Alone b → k.guard g = true → bit k.imgFlags 0 = true → k.vLegal (.vv .mul vd va vb mk sub) = true → 
      exec (.vmul b g vd va vb mk sub) s = .next { s with dev := s.dev.setCore b.core (({ k with vop := (k.startV (.vv .mul vd va vb mk sub) true 0).vop } : Core).beat.went) }) ∧
  (∀ (s : State) (b : BCtx) (k : Core) (g : Guard) (vd : Nat) (va : Nat) (rd : Nat) (mk : Bool) (sub : Nat),
    Rests s b k → Alone b → k.guard g = true → bit k.imgFlags 0 = true → k.vLegal (.vs .muls vd va rd mk sub) = true → 
      exec (.vmuls b g vd va rd mk sub) s = .next { s with dev := s.dev.setCore b.core (({ k with vop := (k.startV (.vs .muls vd va rd mk sub) true 0).vop } : Core).beat.went) }) ∧
  (∀ (s : State) (b : BCtx) (k : Core) (g : Guard) (vd : Nat) (va : Nat) (vb : Nat) (mk : Bool) (sub : Nat),
    Rests s b k → Alone b → k.guard g = true → bit k.imgFlags 0 = true → k.vLegal (.vv .mac vd va vb mk sub) = true → 
      exec (.vmac b g vd va vb mk sub) s = .next { s with dev := s.dev.setCore b.core (({ k with vop := (k.startV (.vv .mac vd va vb mk sub) true 0).vop } : Core).beat.went) }) ∧
  (∀ (s : State) (b : BCtx) (k : Core) (g : Guard) (vd : Nat) (va : Nat) (vb : Nat) (mk : Bool) (sub : Nat),
    Rests s b k → Alone b → k.guard g = true → bit k.imgFlags 0 = true → k.vLegal (.vv .wmac vd va vb mk sub) = true → 
      exec (.vwmac b g vd va vb mk sub) s = .next { s with dev := s.dev.setCore b.core (({ k with vop := (k.startV (.vv .wmac vd va vb mk sub) true 0).vop } : Core).beat.went) }) ∧
  (∀ (s : State) (b : BCtx) (k : Core) (g : Guard) (vd : Nat) (va : Nat) (vb : Nat) (mk : Bool) (sub : Nat),
    Rests s b k → Alone b → k.guard g = true → bit k.imgFlags 0 = true → k.vLegal (.vv .mag2 vd va vb mk sub) = true → 
      exec (.vmag2 b g vd va vb mk sub) s = .next { s with dev := s.dev.setCore b.core (({ k with vop := (k.startV (.vv .mag2 vd va vb mk sub) true 0).vop } : Core).beat.went) }) ∧
  (∀ (s : State) (b : BCtx) (k : Core) (g : Guard) (vd : Nat) (va : Nat) (vb : Nat) (mk : Bool) (sub : Nat),
    Rests s b k → Alone b → k.guard g = true → bit k.imgFlags 0 = true → k.vLegal (.vv .fadd vd va vb mk sub) = true → 
      exec (.vfadd b g vd va vb mk sub) s = .next { s with dev := s.dev.setCore b.core (({ k with vop := (k.startV (.vv .fadd vd va vb mk sub) true 0).vop } : Core).beat.went) }) ∧
  (∀ (s : State) (b : BCtx) (k : Core) (g : Guard) (vd : Nat) (va : Nat) (vb : Nat) (mk : Bool) (sub : Nat),
    Rests s b k → Alone b → k.guard g = true → bit k.imgFlags 0 = true → k.vLegal (.vv .fsub vd va vb mk sub) = true → 
      exec (.vfsub b g vd va vb mk sub) s = .next { s with dev := s.dev.setCore b.core (({ k with vop := (k.startV (.vv .fsub vd va vb mk sub) true 0).vop } : Core).beat.went) }) ∧
  (∀ (s : State) (b : BCtx) (k : Core) (g : Guard) (vd : Nat) (va : Nat) (vb : Nat) (mk : Bool) (sub : Nat),
    Rests s b k → Alone b → k.guard g = true → bit k.imgFlags 0 = true → k.vLegal (.vv .fmul vd va vb mk sub) = true → 
      exec (.vfmul b g vd va vb mk sub) s = .next { s with dev := s.dev.setCore b.core (({ k with vop := (k.startV (.vv .fmul vd va vb mk sub) true 0).vop } : Core).beat.went) }) ∧
  (∀ (s : State) (b : BCtx) (k : Core) (g : Guard) (vd : Nat) (va : Nat) (vb : Nat) (mk : Bool) (sub : Nat),
    Rests s b k → Alone b → k.guard g = true → bit k.imgFlags 0 = true → k.vLegal (.vv .fma vd va vb mk sub) = true → 
      exec (.vfma b g vd va vb mk sub) s = .next { s with dev := s.dev.setCore b.core (({ k with vop := (k.startV (.vv .fma vd va vb mk sub) true 0).vop } : Core).beat.went) }) ∧
  (∀ (s : State) (b : BCtx) (k : Core) (g : Guard) (vd : Nat) (va : Nat) (vb : Nat) (mk : Bool) (sub : Nat),
    Rests s b k → Alone b → k.guard g = true → bit k.imgFlags 0 = true → k.vLegal (.vv .cvt vd va vb mk sub) = true → 
      exec (.vcvt b g vd va vb mk sub) s = .next { s with dev := s.dev.setCore b.core (({ k with vop := (k.startV (.vv .cvt vd va vb mk sub) true 0).vop } : Core).beat.went) }) ∧
  (∀ (s : State) (b : BCtx) (k : Core) (g : Guard) (vd : Nat) (va : Nat) (vb : Nat) (mk : Bool) (sub : Nat),
    Rests s b k → Alone b → k.guard g = true → bit k.imgFlags 0 = true → k.vLegal (.vv .cmp vd va vb mk sub) = true → 
      exec (.vcmp b g vd va vb mk sub) s = .next { s with dev := s.dev.setCore b.core (({ k with vop := (k.startV (.vv .cmp vd va vb mk sub) true 0).vop } : Core).beat.went) }) ∧
  (∀ (s : State) (b : BCtx) (k : Core) (g : Guard) (vd : Nat) (va : Nat) (rd : Nat) (mk : Bool) (sub : Nat),
    Rests s b k → Alone b → k.guard g = true → bit k.imgFlags 0 = true → k.vLegal (.vs .slideup vd va rd mk sub) = true → 
      exec (.vslideup b g vd va rd mk sub) s = .next { s with dev := s.dev.setCore b.core (({ k with vop := (k.startV (.vs .slideup vd va rd mk sub) true 0).vop } : Core).beat.went) }) ∧
  (∀ (s : State) (b : BCtx) (k : Core) (g : Guard) (vd : Nat) (va : Nat) (rd : Nat) (mk : Bool) (sub : Nat),
    Rests s b k → Alone b → k.guard g = true → bit k.imgFlags 0 = true → k.vLegal (.vs .slidedn vd va rd mk sub) = true → 
      exec (.vslidedn b g vd va rd mk sub) s = .next { s with dev := s.dev.setCore b.core (({ k with vop := (k.startV (.vs .slidedn vd va rd mk sub) true 0).vop } : Core).beat.went) }) ∧
  (∀ (s : State) (b : BCtx) (k : Core) (g : Guard) (vd : Nat) (va : Nat) (vb : Nat) (mk : Bool) (sub : Nat),
    Rests s b k → Alone b → k.guard g = true → bit k.imgFlags 0 = true → k.vLegal (.vv .zip vd va vb mk sub) = true → 
      exec (.vzip b g vd va vb mk sub) s = .next { s with dev := s.dev.setCore b.core (({ k with vop := (k.startV (.vv .zip vd va vb mk sub) true 0).vop } : Core).beat.went) }) ∧
  (∀ (s : State) (b : BCtx) (k : Core) (g : Guard) (rd : Nat) (v : Nat) (s2 : Nat) (mk : Bool) (sub : Nat),
    Rests s b k → Alone b → k.guard g = true → bit k.imgFlags 0 = true → k.vLegal (.vx .bcast rd v s2 mk sub) = true → (¬(k.vt = 4 ∧ rd = 63)) → 
      exec (.vbcast b g rd v s2 mk sub) s = .next { s with dev := s.dev.setCore b.core (({ k with vop := (k.startV (.vx .bcast rd v s2 mk sub) true 0).vop } : Core).beat.went) }) ∧
  (∀ (s : State) (b : BCtx) (k : Core) (g : Guard) (rd : Nat) (v : Nat) (s2 : Nat) (mk : Bool) (sub : Nat),
    Rests s b k → Alone b → k.guard g = true → bit k.imgFlags 0 = true → k.vLegal (.vx .bcast rd v s2 mk sub) = true → (k.vt = 4 ∧ rd = 63) → 
      exec (.vbcast b g rd v s2 mk sub) s = .next { s with dev := { s.dev.setCore b.core ({ k with vop := (k.startV (.vx .bcast rd v s2 mk sub) true (Config.freeNat s.dev.free)).vop } : Core).beat.went with free := s.dev.free + 1 } }) ∧
  (∀ (s : State) (b : BCtx) (k : Core) (g : Guard) (rd : Nat) (v : Nat) (s2 : Nat) (mk : Bool) (sub : Nat),
    Rests s b k → Alone b → k.guard g = true → bit k.imgFlags 0 = true → k.vLegal (.vx .ext rd v s2 mk sub) = true → 
      exec (.vext b g rd v s2 mk sub) s = .next { s with dev := s.dev.setCore b.core (({ k with vop := (k.startV (.vx .ext rd v s2 mk sub) true 0).vop } : Core).beat.went) }) ∧
  (∀ (s : State) (b : BCtx) (k : Core) (g : Guard) (rd : Nat) (v : Nat) (s2 : Nat) (mk : Bool) (sub : Nat),
    Rests s b k → Alone b → k.guard g = true → bit k.imgFlags 0 = true → k.vLegal (.vx .ins rd v s2 mk sub) = true → (¬(k.vt = 4 ∧ rd = 63)) → 
      exec (.vins b g rd v s2 mk sub) s = .next { s with dev := s.dev.setCore b.core (({ k with vop := (k.startV (.vx .ins rd v s2 mk sub) true 0).vop } : Core).beat.went) }) ∧
  (∀ (s : State) (b : BCtx) (k : Core) (g : Guard) (rd : Nat) (v : Nat) (s2 : Nat) (mk : Bool) (sub : Nat),
    Rests s b k → Alone b → k.guard g = true → bit k.imgFlags 0 = true → k.vLegal (.vx .ins rd v s2 mk sub) = true → (k.vt = 4 ∧ rd = 63) → 
      exec (.vins b g rd v s2 mk sub) s = .next { s with dev := { s.dev.setCore b.core ({ k with vop := (k.startV (.vx .ins rd v s2 mk sub) true (Config.freeNat s.dev.free)).vop } : Core).beat.went with free := s.dev.free + 1 } }) ∧
  (∀ (s : State) (b : BCtx) (k : Core) (g : Guard) (an : Nat) (va : Nat) (mk : Bool) (sub : Nat),
    Rests s b k → Alone b → k.guard g = true → bit k.imgFlags 0 = true → k.vLegal (.vrsum an va mk sub) = true → 
      exec (.vrsum b g an va mk sub) s = .next { s with dev := s.dev.setCore b.core (({ k with vop := (k.startV (.vrsum an va mk sub) true 0).vop } : Core).beat.went) }) ∧
  (∀ (s : State) (b : BCtx) (k : Core) (g : Guard) (rd : Nat) (v : Nat) (s2 : Nat) (mk : Bool) (sub : Nat),
    Rests s b k → Alone b → k.guard g = true → bit k.imgFlags 0 = true → k.vLegal (.vx .maxi rd v s2 mk sub) = true → 
      exec (.vmaxi b g rd v s2 mk sub) s = .next { s with dev := s.dev.setCore b.core (({ k with vop := (k.startV (.vx .maxi rd v s2 mk sub) true 0).vop } : Core).beat.went) }) ∧
  (∀ (s : State) (b : BCtx) (k : Core) (g : Guard) (rd : Nat) (v : Nat) (s2 : Nat) (mk : Bool) (sub : Nat),
    Rests s b k → Alone b → k.guard g = true → bit k.imgFlags 0 = true → k.vLegal (.vx .mini rd v s2 mk sub) = true → 
      exec (.vmini b g rd v s2 mk sub) s = .next { s with dev := s.dev.setCore b.core (({ k with vop := (k.startV (.vx .mini rd v s2 mk sub) true 0).vop } : Core).beat.went) }) ∧
  (∀ (s : State) (b : BCtx) (k : Core) (g : Guard) (vd : Nat) (va : Nat) (vb : Nat) (mk : Bool) (sub : Nat),
    Rests s b k → Alone b → k.guard g = true → bit k.imgFlags 0 = true → k.vLegal (.vv .mva vd va vb mk sub) = true → 
      exec (.vmva b g vd va vb mk sub) s = .next { s with dev := s.dev.setCore b.core (({ k with vop := (k.startV (.vv .mva vd va vb mk sub) true 0).vop } : Core).beat.went) })

/-- An unmasked vector load from the core's data memory that starts at element 0 gives each element the bytes at its address, a vector store writes each element's bytes there in ascending order, VSTART is left 0, the pointer is updated as the format says, and the phase takes its cycles. Each clause ends in: exec of its command is a next state. So these commands complete: vld, vst, vlds, vsts, vgath, vscat, vldr, vstr. [05_vector_extension.md, R176, R177, R178, R180, R181, R182] -/
def Obligations.VectorMemory : Prop :=
  (∀ (s : State) (b : BCtx) (k : Core) (g : Guard) (pc : Nat) (l1 : Bool) (v p m am : Nat) (mk : Bool),
    Rests s b k → Alone b → k.guard g = true → bit k.imgFlags 0 = true → k.vLegal (.vld false v p m am mk) = true → mk = false → k.vstart = 0 → phaseCycles k (.vld false v p m am mk) (min k.vl k.vlmax) (List.range (min k.vl k.vlmax)) (vtWidth k.vt) = some pc → (∀ i ∈ List.range (min k.vl k.vlmax), inLdm (vaddr k (.vld false v p m am mk) i) (vtWidth k.vt / 8) = true ∧ (vaddr k (.vld false v p m am mk) i) % (vtWidth k.vt / 8) = 0) → 
      exec (.vld b g l1 v p m am mk) s = .next { s with dev := s.dev.setCore b.core ({ k with vstart := 0, cycle := (k.cycle + pc - 1) % 2 ^ 64, fly := loadFly k.n k.rrb v (vtWidth k.vt) ((List.range (min k.vl k.vlmax)).map fun i => (i, readLe s.dev.mem.ldm (2 ^ 18 * b.core + vaddr k (.vld false v p m am mk) i) (vtWidth k.vt / 8))) ++ (if am = 0 then [] else ([⟨k.n + 1, (.p p (k.ptrNext p m am (szLog (vtWidth k.vt / 8)))), k.n⟩] : List Fly)) }.went) }) ∧
  (∀ (s : State) (b : BCtx) (k : Core) (g : Guard) (pc : Nat) (l1 : Bool) (v p m am : Nat) (mk : Bool),
    Rests s b k → Alone b → k.guard g = true → bit k.imgFlags 0 = true → k.vLegal (.vst false v p m am mk) = true → mk = false → k.vstart = 0 → phaseCycles k (.vst false v p m am mk) (min k.vl k.vlmax) (List.range (min k.vl k.vlmax)) (vtWidth k.vt) = some pc → (∀ i ∈ List.range (min k.vl k.vlmax), inLdm (vaddr k (.vst false v p m am mk) i) (vtWidth k.vt / 8) = true ∧ (vaddr k (.vst false v p m am mk) i) % (vtWidth k.vt / 8) = 0) → 
      exec (.vst b g l1 v p m am mk) s = .next { s with dev := { s.dev.setCore b.core ({ k with vstart := 0, cycle := (k.cycle + pc - 1) % 2 ^ 64, fly := (if am = 0 then [] else [⟨k.n + 1, .p p (k.ptrNext p m am (szLog (vtWidth k.vt / 8))), k.n⟩]) } : Core).went with mem := { s.dev.mem with ldm := (List.range (min k.vl k.vlmax)).foldl (fun l i => writeBytes l (2 ^ 18 * b.core + vaddr k (.vst false v p m am mk) i) (le (vtWidth k.vt / 8) (k.elem k.rrb v (vtWidth k.vt) i))) s.dev.mem.ldm } } }) ∧
  (∀ (s : State) (b : BCtx) (k : Core) (g : Guard) (pc : Nat) (l1 : Bool) (v p m am : Nat) (mk : Bool),
    Rests s b k → Alone b → k.guard g = true → bit k.imgFlags 0 = true → k.vLegal (.vlds v p m am mk) = true → mk = false → k.vstart = 0 → phaseCycles k (.vlds v p m am mk) (min k.vl k.vlmax) (List.range (min k.vl k.vlmax)) (vtWidth k.vt) = some pc → (∀ i ∈ List.range (min k.vl k.vlmax), inLdm (vaddr k (.vlds v p m am mk) i) (vtWidth k.vt / 8) = true ∧ (vaddr k (.vlds v p m am mk) i) % (vtWidth k.vt / 8) = 0) → 
      exec (.vlds b g l1 v p m am mk) s = .next { s with dev := s.dev.setCore b.core ({ k with vstart := 0, cycle := (k.cycle + pc - 1) % 2 ^ 64, fly := loadFly k.n k.rrb v (vtWidth k.vt) ((List.range (min k.vl k.vlmax)).map fun i => (i, readLe s.dev.mem.ldm (2 ^ 18 * b.core + vaddr k (.vlds v p m am mk) i) (vtWidth k.vt / 8))) ++ [] }.went) }) ∧
  (∀ (s : State) (b : BCtx) (k : Core) (g : Guard) (pc : Nat) (l1 : Bool) (v p m am : Nat) (mk : Bool),
    Rests s b k → Alone b → k.guard g = true → bit k.imgFlags 0 = true → k.vLegal (.vsts v p m am mk) = true → mk = false → k.vstart = 0 → phaseCycles k (.vsts v p m am mk) (min k.vl k.vlmax) (List.range (min k.vl k.vlmax)) (vtWidth k.vt) = some pc → (∀ i ∈ List.range (min k.vl k.vlmax), inLdm (vaddr k (.vsts v p m am mk) i) (vtWidth k.vt / 8) = true ∧ (vaddr k (.vsts v p m am mk) i) % (vtWidth k.vt / 8) = 0) → 
      exec (.vsts b g l1 v p m am mk) s = .next { s with dev := { s.dev.setCore b.core ({ k with vstart := 0, cycle := (k.cycle + pc - 1) % 2 ^ 64, fly := [] } : Core).went with mem := { s.dev.mem with ldm := (List.range (min k.vl k.vlmax)).foldl (fun l i => writeBytes l (2 ^ 18 * b.core + vaddr k (.vsts v p m am mk) i) (le (vtWidth k.vt / 8) (k.elem k.rrb v (vtWidth k.vt) i))) s.dev.mem.ldm } } }) ∧
  (∀ (s : State) (b : BCtx) (k : Core) (g : Guard) (pc : Nat) (l1 : Bool) (v p vi : Nat) (mk : Bool) (sc : Nat),
    Rests s b k → Alone b → k.guard g = true → bit k.imgFlags 0 = true → k.vLegal (.vgath v p vi mk sc) = true → mk = false → k.vstart = 0 → phaseCycles k (.vgath v p vi mk sc) (min k.vl k.vlmax) (List.range (min k.vl k.vlmax)) (vtWidth k.vt) = some pc → (∀ i ∈ List.range (min k.vl k.vlmax), inLdm (vaddr k (.vgath v p vi mk sc) i) (vtWidth k.vt / 8) = true ∧ (vaddr k (.vgath v p vi mk sc) i) % (vtWidth k.vt / 8) = 0) → 
      exec (.vgath b g l1 v p vi mk sc) s = .next { s with dev := s.dev.setCore b.core ({ k with vstart := 0, cycle := (k.cycle + pc - 1) % 2 ^ 64, fly := loadFly k.n k.rrb v (vtWidth k.vt) ((List.range (min k.vl k.vlmax)).map fun i => (i, readLe s.dev.mem.ldm (2 ^ 18 * b.core + vaddr k (.vgath v p vi mk sc) i) (vtWidth k.vt / 8))) ++ [] }.went) }) ∧
  (∀ (s : State) (b : BCtx) (k : Core) (g : Guard) (pc : Nat) (l1 : Bool) (v p vi : Nat) (mk : Bool) (sc : Nat),
    Rests s b k → Alone b → k.guard g = true → bit k.imgFlags 0 = true → k.vLegal (.vscat v p vi mk sc) = true → mk = false → k.vstart = 0 → phaseCycles k (.vscat v p vi mk sc) (min k.vl k.vlmax) (List.range (min k.vl k.vlmax)) (vtWidth k.vt) = some pc → (∀ i ∈ List.range (min k.vl k.vlmax), inLdm (vaddr k (.vscat v p vi mk sc) i) (vtWidth k.vt / 8) = true ∧ (vaddr k (.vscat v p vi mk sc) i) % (vtWidth k.vt / 8) = 0) → 
      exec (.vscat b g l1 v p vi mk sc) s = .next { s with dev := { s.dev.setCore b.core ({ k with vstart := 0, cycle := (k.cycle + pc - 1) % 2 ^ 64, fly := [] } : Core).went with mem := { s.dev.mem with ldm := (List.range (min k.vl k.vlmax)).foldl (fun l i => writeBytes l (2 ^ 18 * b.core + vaddr k (.vscat v p vi mk sc) i) (le (vtWidth k.vt / 8) (k.elem k.rrb v (vtWidth k.vt) i))) s.dev.mem.ldm } } }) ∧
  (∀ (s : State) (b : BCtx) (k : Core) (g : Guard) (pc : Nat) (l1 : Bool) (v p m am : Nat) (mk : Bool),
    Rests s b k → Alone b → k.guard g = true → bit k.imgFlags 0 = true → k.vLegal (.vld true v p m am mk) = true → mk = false → k.vstart = 0 → phaseCycles k (.vld true v p m am mk) 512 (List.range 512) 8 = some pc → (∀ i ∈ List.range (512), inLdm (vaddr k (.vld true v p m am mk) i) 1 = true ∧ (vaddr k (.vld true v p m am mk) i) % 1 = 0) → 
      exec (.vldr b g l1 v p m am mk) s = .next { s with dev := s.dev.setCore b.core ({ k with vstart := 0, cycle := (k.cycle + pc - 1) % 2 ^ 64, fly := loadFly k.n k.rrb v (8) ((List.range (512)).map fun i => (i, readLe s.dev.mem.ldm (2 ^ 18 * b.core + vaddr k (.vld true v p m am mk) i) 1)) ++ (if am = 0 then [] else ([⟨k.n + 1, (.p p (k.ptrNext p m am 0)), k.n⟩] : List Fly)) }.went) }) ∧
  (∀ (s : State) (b : BCtx) (k : Core) (g : Guard) (pc : Nat) (l1 : Bool) (v p m am : Nat) (mk : Bool),
    Rests s b k → Alone b → k.guard g = true → bit k.imgFlags 0 = true → k.vLegal (.vst true v p m am mk) = true → mk = false → k.vstart = 0 → phaseCycles k (.vst true v p m am mk) 512 (List.range 512) 8 = some pc → (∀ i ∈ List.range (512), inLdm (vaddr k (.vst true v p m am mk) i) 1 = true ∧ (vaddr k (.vst true v p m am mk) i) % 1 = 0) → 
      exec (.vstr b g l1 v p m am mk) s = .next { s with dev := { s.dev.setCore b.core ({ k with vstart := 0, cycle := (k.cycle + pc - 1) % 2 ^ 64, fly := (if am = 0 then [] else [⟨k.n + 1, .p p (k.ptrNext p m am 0), k.n⟩]) } : Core).went with mem := { s.dev.mem with ldm := (List.range (512)).foldl (fun l i => writeBytes l (2 ^ 18 * b.core + vaddr k (.vst true v p m am mk) i) (le 1 (k.elem k.rrb v (8) i))) s.dev.mem.ldm } } })

/-- A command enters its unit's queue when a slot is free; the unit starts the oldest waiting command of the next core in turn; a scalar command gives its result and a matrix command its status; a pop moves the oldest finished entry to its registers and claims it until it commits three bundles later, and a pop of an empty DONE queue gives 0 and all ones; QUIESCE passes once all is finished, DISCARD is issued to remove what has finished when it commits, COPST answers its test. Each clause ends in: exec of its command is a next state. So these commands complete: cop0, cop1, cop2, popR, popD, quiesce, discard, copst, copUnitStart, sfuResultReady, copBlockDone. [06_octet_coprocessors.md, R188, R192, R194, R195, R197, R198, R199] -/
def Obligations.CoprocessorSyllables : Prop :=
  (∀ (s : State) (b : BCtx) (k : Core) (g : Guard) (fn a c tag : Nat),
    Rests s b k → Alone b → k.guard g = true → bit k.imgFlags 1 = true → fn < 8 → k.copEnabled false = true → k.slotState false false = .free → 
      exec (.cop0 b g fn a c tag) s = .next { s with dev := s.dev.setCore b.core ({ k with sfu := k.sfu ++ [({ block := false, fn := fn, a := (k.rs a).toNat, b := (k.rs c).toNat, ctl := 0, tag := tag, stage := .waiting, issued := k.n } : CopCmd)] }.went) }) ∧
  (∀ (s : State) (b : BCtx) (k : Core) (g : Guard) (fn ps pd a : Nat),
    Rests s b k → Alone b → k.guard g = true → bit k.imgFlags 1 = true → fn < 8 → k.copEnabled false = true → k.slotState false true = .free → 
      exec (.cop1 b g fn ps pd a) s = .next { s with dev := s.dev.setCore b.core ({ k with sfu := k.sfu ++ [({ block := true, fn := fn, a := k.rp ps, b := k.rp pd, ctl := (k.rs a).toNat, tag := (k.rs a).toNat / 65536, stage := .waiting, issued := k.n } : CopCmd)] }.went) }) ∧
  (∀ (s : State) (b : BCtx) (k : Core) (g : Guard) (fn ps pd a : Nat),
    Rests s b k → Alone b → k.guard g = true → bit k.imgFlags 1 = true → fn < 4 → k.copEnabled true = true → k.slotState true true = .free → 
      exec (.cop2 b g fn ps pd a) s = .next { s with dev := s.dev.setCore b.core ({ k with mxu := k.mxu ++ [({ block := true, fn := fn, a := k.rp ps, b := k.rp pd, ctl := (k.rs a).toNat, tag := (k.rs a).toNat / 65536, stage := .waiting, issued := k.n } : CopCmd)] }.went) }) ∧
  (∀ (s : State) (b : BCtx) (k : Core) (g : Guard) (d : Nat) (mxu : Bool) (e : CopCmd),
    Rests s b k → Alone b → k.guard g = true → bit k.imgFlags 1 = true → mxu = false → d % 2 = 0 → k.copEnabled false = true → firstReady false k.sfu = some e → 
      exec (.popR b g d mxu) s = .next { s with dev := s.dev.setCore b.core ({ k with sfu := k.sfu.map (fun (y : CopCmd) => if y.issued = e.issued then { y with claimed := true } else y), fly := [⟨k.n + 2, .s (mapS k.rrb d) (BitVec.ofNat 32 e.result), k.n⟩, ⟨k.n + 2, .s (mapS k.rrb (d + 1)) (BitVec.ofNat 32 (e.flags % 256 * 65536 + e.tag % 65536)), k.n⟩, ⟨k.n + 4, .popped false e.issued e.flags, k.n⟩] }.went) }) ∧
  (∀ (s : State) (b : BCtx) (k : Core) (g : Guard) (d : Nat) (mxu : Bool) (e : CopCmd),
    Rests s b k → Alone b → k.guard g = true → bit k.imgFlags 1 = true → d % 2 = 0 → k.copEnabled mxu = true → firstReady true (k.unit mxu) = some e → 
      exec (.popD b g d mxu) s = .next { s with dev := s.dev.setCore b.core ({ k.setUnit mxu ((k.unit mxu).map (fun (y : CopCmd) => if y.issued = e.issued then { y with claimed := true } else y)) with fly := [⟨k.n + 2, .s (mapS k.rrb d) (BitVec.ofNat 32 e.tag), k.n⟩, ⟨k.n + 2, .s (mapS k.rrb (d + 1)) (BitVec.ofNat 32 e.result), k.n⟩, ⟨k.n + 4, .popped mxu e.issued e.flags, k.n⟩] }.went) }) ∧
  (∀ (s : State) (b : BCtx) (k : Core) (g : Guard) (d : Nat) (mxu : Bool),
    Rests s b k → Alone b → k.guard g = true → bit k.imgFlags 1 = true → d % 2 = 0 → k.copEnabled mxu = true → firstReady true (k.unit mxu) = none → 
      exec (.popD b g d mxu) s = .next { s with dev := s.dev.setCore b.core ({ k with fly := [⟨k.n + 2, .s (mapS k.rrb d) 0, k.n⟩, ⟨k.n + 2, .s (mapS k.rrb (d + 1)) 0xFFFFFFFF, k.n⟩] }.went) }) ∧
  (∀ (s : State) (b : BCtx) (k : Core) (g : Guard) (mxu : Bool),
    Rests s b k → Alone b → k.guard g = true → bit k.imgFlags 1 = true → k.copEnabled mxu = true → (∀ e ∈ k.unit mxu, e.stage = .done) → 
      exec (.quiesce b g mxu) s = .next { s with dev := s.dev.setCore b.core k.went }) ∧
  (∀ (s : State) (b : BCtx) (k : Core) (g : Guard) (mxu : Bool),
    Rests s b k → Alone b → k.guard g = true → bit k.imgFlags 1 = true → k.copEnabled mxu = true → 
      exec (.discard b g mxu) s = .next { s with dev := s.dev.setCore b.core ({ k with fly := [⟨k.n + 4, .discard mxu, k.n⟩] }.went) }) ∧
  (∀ (s : State) (b : BCtx) (k : Core) (g : Guard) (qd : Nat) (mxu : Bool) (test : Nat),
    Rests s b k → Alone b → k.guard g = true → bit k.imgFlags 1 = true → k.copEnabled mxu = true → 
      exec (.copst b g qd mxu test) s = .next { s with dev := s.dev.setCore b.core ({ k with fly := [⟨k.n + 1, .q (mapQ k.rrb qd) (if test = 0 then !mxu && k.slotState mxu false = SlotSt.free else if test = 1 then k.slotState mxu true = SlotSt.free else (firstReady (test = 3) (k.unit mxu)).isSome), k.n⟩] }.went) }) ∧
  (∀ (s : State) (octet : Nat) (mxu : Bool) (i : Nat),
    octet < 128 → s.dev.awake (octet / 8) = true → (mxu = true → ((List.range 8).any fun i => (s.dev.core (8 * octet + i)).mxu.any CopCmd.isRunning) = false) → (((List.range 8).map fun i => (tget 0 s.dev.cores.copLast (2 * octet + mxu.toNat) + 1 + i) % 8).find? fun i => ((s.dev.core (8 * octet + i)).unit mxu).any CopCmd.isWaiting) = some i → 
      exec (.copUnitStart octet mxu) s = .next { s with dev := (s.dev.updCore (8 * octet + i) fun k => k.setUnit mxu (replFirst CopCmd.isWaiting (fun c => { c with stage := .running }) (k.unit mxu))).updCores fun x => { x with copLast := tset 0 x.copLast (2 * octet + mxu.toNat) i } }) ∧
  (∀ (s : State) (core : Nat) (parity : Bool) (c : CopCmd) (l : List CopCmd),
    s.dev.awake (core / 64) = true → (s.dev.core core).sfu = c :: l → parity = false → c.block = false → c.stage = .running → (s.dev.core core).stalled = none → 
      ∃ t, exec (.sfuResultReady core parity) s = .next t ∧
      (t.dev.core core).sfu = { c with stage := .done, result := (sfuValue c.fn c.a c.b (Config.freeNat s.dev.free)).1 % 2 ^ 32, flags := (sfuValue c.fn c.a c.b (Config.freeNat s.dev.free)).2 } :: l ∧ t.dev.free = s.dev.free + 1 ∧ t.dev.mem = s.dev.mem ∧ t.dev.host = s.dev.host) ∧
  (∀ (s : State) (core : Nat) (mxu parity : Bool) (c : CopCmd) (l : List CopCmd),
    s.dev.awake (core / 64) = true → parity = false → mxu = true → (s.dev.core core).mxu = c :: l → c.block = true → c.stage = .running → (s.dev.core core).stalled = none → 
      ∃ t, exec (.copBlockDone core mxu parity) s = .next t ∧
      (t.dev.core core).mxu = { c with stage := .done, result := (s.dev.mxuBlock s.clk core c).1, flags := 0 } :: l ∧ (t.dev.core core).sfu = ((s.dev.mxuBlock s.clk core c).2.core core).sfu)

/-- A REP iteration returns to its start or ends; a waiting core resumes on a selected event; a stalled far load is answered; a buffered store is performed; PREEMPT and EVENT enter the handler; images are checked, loaded, bound and swapped; a halted core restarts from its image. Each clause ends in: exec of its command is a next state. So these commands complete: repIterationEnd, waitResume, farLoadAnswer, writeBufferAnswer, preemptInterrupt, eventInterrupt, imgLoad, imgBind, imgSwap, coreReload, imgSwapped, imgInfo, coreGetState, coreRestart. [04_signal_core.md, R126, R129, R142, R147, R149, R150, R151, R578] -/
def Obligations.CoreEventsAndImages : Prop :=
  (∀ (s : State) (core : Nat),
    s.dev.coreLive core = true → (s.dev.core core).repEnd = true → 1 < (s.dev.core core).rep.cnt → (s.dev.core core).rep.rot = false → 
      exec (.repIterationEnd core) s = .next { s with dev := s.dev.updCore core fun k => { k with repEnd := false, rep := { k.rep with cnt := k.rep.cnt - 1, j := k.rep.j + 1 }, pc := k.rep.start } }) ∧
  (∀ (s : State) (core : Nat),
    s.dev.coreLive core = true → (s.dev.core core).repEnd = true → (s.dev.core core).rep.cnt = 1 → (s.dev.core core).rep.rot = false → sclAuto (s.dev.core core).scl = false → 
      exec (.repIterationEnd core) s = .next { s with dev := s.dev.updCore core fun k => { k with repEnd := false, rep := { k.rep with cnt := 0, rot := false }, pc := k.rep.last + 16 } }) ∧
  (∀ (s : State) (core : Nat),
    s.dev.coreLive core = true → (s.dev.core core).waiting = true → (s.dev.core core).evpend &&& (s.dev.core core).evmask ≠ 0 → 
      exec (.waitResume core) s = .next { s with dev := s.dev.updCore core fun k => { k with waiting := false } }) ∧
  (∀ (s : State) (core resp : Nat) (data : List Byte) (a : Nat),
    (s.dev.core core).stalled = some { x := ({}, .nop), l0 := ({}, .ld 4 5 0 0 0 false), l1 := ({}, .nop), v := ({}, .nop) } → s.dev.coreLive core = true → s.dev.canIssue core = true → ((s.dev.core core).ds = none ∧ (s.dev.core core).fly = [] ∧ (s.dev.core core).vop = none ∧ (s.dev.core core).wbuf = []) → ((s.dev.core core).repEnd = false ∧ (s.dev.core core).rep.cnt = 0 ∧ s.dev.mem.ecc = [] ∧ (s.dev.core core).pc + 16 ≤ 0x20000) → (s.dev.core core).priv = 2 → (s.dev.core core).ea 0 0 0 = a → (0x0200000000 ≤ a ∧ a + 4 ≤ 0x0203FFFFFF ∧ a % 4 = 0) → 
      ∃ t, exec (.farLoadAnswer core resp data) s = .next t ∧
      (t.dev.core core).stalled = none ∧ (t.dev.core core).pc = (s.dev.core core).pc + 16 ∧ (t.dev.core core).fly.length = 1) ∧
  (∀ (s : State) (core resp : Nat) (e : BufStore) (rest : List BufStore),
    (s.dev.core core).wbuf = e :: rest → (s.dev.core core).stalled = none → (s.dev.core core).spill = [] → e.more = [] → (0x0202000000 ≤ e.addr ∧ e.addr % 8 = 0 ∧ e.addr < 0x0203000000) → e.bytes.length = 8 → s.dev.mem.ecc = [] → 
      exec (.writeBufferAnswer core resp) s = .next { s with dev := (s.dev.updCore core fun k => { k with wbuf := rest }).updMem fun m => { m with cells := writeBytes m.cells e.addr e.bytes } }) ∧
  (∀ (s : State) (core : Nat) (k : Core),
    s.dev.core core = k → s.dev.coreLive core = true → s.dev.intDue core = some 0x80 → s.dev.leaving core = .stay → (k.fly = [] ∧ k.vop = none ∧ k.priv < 2 ∧ k.repEnd = false ∧ k.copWait = false) → s.dev.mem.ecc = [] → k.pc + 16 ≤ 0x20000 → 
      exec (.preemptInterrupt core) s = .next { s with dev := s.dev.setCore core { ({ k with preTaken := true, waiting := false }.trapped 0x80 0) with n := k.n } }) ∧
  (∀ (s : State) (core : Nat) (k : Core),
    s.dev.core core = k → s.dev.coreLive core = true → s.dev.intDue core = some 0x81 → s.dev.leaving core = .stay → (k.fly = [] ∧ k.vop = none ∧ k.priv < 2 ∧ k.repEnd = false ∧ k.copWait = false) → s.dev.mem.ecc = [] → k.pc + 16 ≤ 0x20000 → 
      exec (.eventInterrupt core) s = .next { s with dev := s.dev.setCore core { ({ k with waiting := false }.trapped 0x81 0) with n := k.n } }) ∧
  (∀ (s : State) (r : Req) (w : Waiting) (slot : Nat) (image : List Byte),
    Waits s r 0x0401 w → Fits w 8 → slot < 32 → ({ bytes := image } : Image).fault = none → s.dev.slotBound slot = false → 
      exec (.imgLoad r slot image) s = .next { s with dev := answered s.clk w (rOk [(4, image.length), (4, fieldAt image 36 4)]) (noted (s.dev.updCores fun x => { x with images := tset {} x.images slot { bytes := image } })) }) ∧
  (∀ (s : State) (r : Req) (w : Waiting) (pool slot n : Nat),
    Waits s r 0x0402 w → (pool < 64 ∧ slot < 32) → s.dev.members pool = [n] → ((s.dev.core n).thread = none ∧ (s.dev.core n).st = .idle) → (s.dev.image slot).bytes.isEmpty = false → s.dev.awake (n / 64) = true → 
      exec (.imgBind r pool slot) s = .next { s with dev := answered s.clk w (rOk) (noted ((s.dev.updPool pool fun p => { p with image := slot, swap := none }).startCore n slot)) }) ∧
  (∀ (s : State) (r : Req) (w : Waiting) (pool slot prompt : Nat),
    Waits s r 0x0403 w → (pool < 64 ∧ slot < 32) → (s.dev.pool pool).swap = none → (s.dev.image slot).bytes.isEmpty = false → 
      exec (.imgSwap r pool slot prompt) s = .next { s with dev := answered s.clk w (rAcc) (noted (s.dev.updPool pool fun p => { p with swap := some { slot := slot, prompt := prompt != 0, tag := w.tag, old := s.dev.threads.filter fun t => s.dev.tPool t = pool && 2 ≤ s.dev.tState t } })) }) ∧
  (∀ (s : State) (core p : Nat) (x : Swap),
    (s.dev.core core).pool = some p → (s.dev.pool p).swap = some x → s.dev.toReload p x = [core] → ((s.dev.core core).thread = none ∧ (s.dev.core core).wb = [] ∧ (s.dev.core core).saddle = .empty) → s.dev.awake (core / 64) = true → s.dev.charges = [] → x.old = [] → 
      ∃ t, exec (.coreReload core) s = .next t ∧
      (t.dev.core core).st = .running ∧ (t.dev.core core).imgSlot = x.slot ∧ (t.dev.core core).pc = fieldAt (s.dev.image x.slot).bytes 20 4 ∧ (t.dev.core core).repmax = fieldAt (s.dev.image x.slot).bytes 32 2 ∧
      (t.dev.core core).priv = 2 ∧ (t.dev.core core).pool = some p ∧ (t.dev.pool p).swap = some { x with done := x.done ++ [core] }) ∧
  (∀ (s : State) (pool : Nat) (x : Swap),
    (s.dev.pool pool).swap = some x → s.dev.toReload pool x = [] → s.dev.threads = [] → 
      exec (.imgSwapped pool) s = .next { s with dev := (s.dev.updPool pool fun y => { y with image := x.slot, swap := none }).evt0 s.clk 0x0481 x.tag [(0, 1, pool), (1, 1, x.slot)] }) ∧
  (∀ (s : State) (r : Req) (w : Waiting) (slot : Nat),
    Waits s r 0x0404 w → Fits w 64 → slot < 32 → (s.dev.image slot).bytes.isEmpty = false → 
      ∃ t, exec (.imgInfo r slot) s = .next t ∧
      t.dev = answered s.clk w { status := stOK, payload := (s.dev.image slot).bytes.take 64 } s.dev) ∧
  (∀ (s : State) (r : Req) (w : Waiting) (core : Nat) (k : Core),
    Waits s r 0x0410 w → Fits w 16 → core < 1024 → s.dev.core core = k → 
      exec (.coreGetState r core) s = .next { s with dev := answered s.clk w (rOk [(1, s.dev.coreState core), (1, k.priv), (4, k.pc), (1, k.k.cause.toNat), (1, k.mt.cause.toNat), (4, k.k.epc.toNat), (4, k.mt.epc.toNat)]) s.dev }) ∧
  (∀ (s : State) (r : Req) (w : Waiting) (core : Nat),
    Waits s r 0x0411 w → core < 1024 → (s.dev.core core).st = .halted → (s.dev.core core).leftPool = none → s.dev.awake (core / 64) = true → 
      exec (.coreRestart r core) s = .next { s with dev := answered s.clk w (rOk) (noted (s.dev.startCore core (s.dev.core core).imgSlot)) }) ∧
  (∀ (s : State) (r : Req) (w : Waiting) (core p : Nat),
    Waits s r 0x0411 w → core < 1024 → (s.dev.core core).st = .halted → (s.dev.core core).leftPool = some p → (s.dev.pool p).image ≠ 0xFF → s.dev.awake (core / 64) = true → 
      exec (.coreRestart r core) s = .next { s with dev := answered s.clk w (rOk) (noted (s.dev.startCore core (s.dev.pool p).image)) }) ∧
  (∀ (s : State) (r : Req) (w : Waiting) (core : Nat),
    Waits s r 0x0411 w → core < 1024 → (s.dev.core core).st ≠ .halted → 
      exec (.coreRestart r core) s = .next { s with dev := answered s.clk w (rSt 0x0022) s.dev })

/-- READY makes an idle thread ready with the deadline given; CANCEL makes a ready one idle; BLOCK and YIELD act on the running thread; SPAWN starts a copy of a template in the lowest free thread; SETDL sets a deadline; a ready thread takes a saddle, is loaded, and starts fresh; a thread that has blocked leaves its core, and once its write-back is answered it becomes idle, one that yielded ready. A thread that reaches its deadline misses it once, counted in its block and in its pool. Each clause ends in: exec of its command is a next state. So these commands complete: ready, cancel, block, yield, spawn, setdl, saddleLoad, saddleLoadComplete, threadSwitch, writebackDone, deadlineMiss. [07_peloton.md, R204, R206, R207, R215, R216, R217, R219, R220, R223] -/
def Obligations.PelotonOperations : Prop :=
  (∀ (s : State) (port thread : Nat) (flag : Bool),
    port < 1024 → (s.dev.core port).wbuf = [] → (s.dev.core port).portDone = true → ((s.dev.core port).priv = 1 ∨ (s.dev.core port).priv = 2) → s.dev.tState thread = 1 → s.dev.pel.cyc = [] → (s.dev.pool (s.dev.tPool thread)).dis = .on → 
      ∃ t, exec (.ready port flag thread) s = .next t ∧
      t.dev.tState thread = 2 ∧ t.dev.tDeadline thread = (if flag then (s.dev.core port).argDl % 2 ^ 64 else s.dev.tDeadline thread) ∧ t.dev.core port = { s.dev.core port with portCode := 0, portNew := 0 }) ∧
  (∀ (s : State) (port thread : Nat) (flag : Bool),
    port < 1024 → (s.dev.core port).wbuf = [] → (s.dev.core port).portDone = true → (s.dev.core port).priv = 1 → s.dev.tState thread = 0 → s.dev.pel.cyc = [] → 
      ∃ t, exec (.ready port flag thread) s = .next t ∧
      t.dev.core port = { s.dev.core port with portCode := 4, portNew := 0 } ∧ t.dev.mem = s.dev.mem) ∧
  (∀ (s : State) (port thread : Nat),
    s.dev.pel.trcMode = 0 → port < 1024 → (s.dev.core port).wbuf = [] → (s.dev.core port).portDone = true → (s.dev.core port).priv = 1 → s.dev.tState thread = 2 → s.dev.pel.cyc = [] → s.dev.coreOf thread = none → 
      ∃ t, exec (.cancel port thread) s = .next t ∧
      t.dev.tState thread = 1 ∧ t.dev.tFlag thread 2 = false ∧ t.dev.tFlag thread 3 = true ∧ t.dev.tDeadline thread = s.dev.tDeadline thread ∧ (t.dev.core port).portCode = 0) ∧
  (∀ (s : State) (port th : Nat) (reset : Bool),
    port < 1024 → (s.dev.core port).wbuf = [] → (s.dev.core port).portDone = true → (s.dev.core port).thread = some th → (s.dev.core port).leave = .stay → 
      ∃ t, exec (.block port reset) s = .next t ∧
      t.dev.core port = { s.dev.core port with leave := .block, portCode := 0, portNew := 0 } ∧ t.dev.tFlag th 3 = (reset || s.dev.tFlag th 3)) ∧
  (∀ (s : State) (port th u : Nat),
    port < 1024 → (s.dev.core port).wbuf = [] → (s.dev.core port).portDone = true → (s.dev.core port).thread = some th → (s.dev.core port).leave = .stay → (s.dev.core port).saddle = .full u → s.dev.precedes u th = true → 
      ∃ t, exec (.yield port) s = .next t ∧
      t.dev.core port = { s.dev.core port with leave := .yield, portCode := 0, portNew := 0 } ∧ t.dev.mem = s.dev.mem) ∧
  (∀ (s : State) (port th u : Nat),
    port < 1024 → (s.dev.core port).wbuf = [] → (s.dev.core port).portDone = true → (s.dev.core port).thread = some th → (s.dev.core port).saddle = .full u → (s.dev.core port).leaving = none → s.dev.precedes u th = false → 
      ∃ t, exec (.yield port) s = .next t ∧
      t.dev.core port = { s.dev.core port with portCode := 0, portNew := 0 } ∧ t.dev.mem = s.dev.mem) ∧
  (∀ (s : State) (port thread n : Nat) (flag : Bool),
    port < 1024 → (s.dev.core port).wbuf = [] → (s.dev.core port).portDone = true → (s.dev.core port).priv = 1 → s.dev.tState thread ≠ 0 → s.dev.lowestFree = some n → n ≠ thread → (s.dev.pool (s.dev.tPool thread)).dis = .on → s.dev.tb thread 2 1 < 64 → 
      ∃ t, exec (.spawn port flag thread) s = .next t ∧
      t.dev.tState n = 2 ∧ t.dev.tPool n = s.dev.tPool thread ∧ t.dev.tb n 32 4 = s.dev.tb thread 32 4 ∧ t.dev.tb n 36 4 = (s.dev.core port).arg0 % 2 ^ 32 ∧
      t.dev.tb n 40 4 = (s.dev.core port).arg1 % 2 ^ 32 ∧ t.dev.tDeadline n = (if flag then (s.dev.core port).argDl % 2 ^ 64 else s.dev.tDeadline thread) ∧
      t.dev.tFlag n 3 = true ∧ (t.dev.core port).portCode = 0 ∧ (t.dev.core port).portNew = n) ∧
  (∀ (s : State) (port thread : Nat),
    port < 1024 → (s.dev.core port).wbuf = [] → (s.dev.core port).portDone = true → (s.dev.core port).priv = 1 → s.dev.tState thread ≠ 0 → s.dev.pel.cyc = [] → 
      ∃ t, exec (.setdl port thread) s = .next t ∧
      t.dev.tDeadline thread = (s.dev.core port).argDl % 2 ^ 64 ∧ t.dev.tState thread = s.dev.tState thread ∧ t.dev.core port = { s.dev.core port with portCode := 0, portNew := 0 }) ∧
  (∀ (s : State) (pool u n : Nat),
    s.dev.pel.trcMode = 0 → ((s.dev.inState pool tsREADY).findSome? fun u => (s.dev.saddleTarget pool u).map fun x => (u, x)) = some (u, n, none) → 
      ∃ t, exec (.saddleLoad pool) s = .next t ∧
      t.dev.tState u = 3 ∧ (t.dev.core n) = { s.dev.core n with saddle := .loading u } ∧ t.dev.tKey u = s.dev.tKey u) ∧
  (∀ (s : State) (core u : Nat),
    (s.dev.core core).saddle = .loading u → s.dev.mem.ecc = [] → s.dev.reachable (s.dev.tb u 24 6) = true → (s.dev.tb u 24 6) < 2 ^ 47 → 
      ∃ t, exec (.saddleLoadComplete core) s = .next t ∧
      (t.dev.core core).saddle = .full u ∧ t.dev.mem.cells = s.dev.mem.cells ∧ (t.dev.core core).st = (s.dev.core core).st) ∧
  (∀ (s : State) (core u : Nat),
    s.dev.pel.trcMode = 0 → ((s.dev.core core).st = .idle ∧ (s.dev.core core).bist = false ∧ s.dev.awake (core / 64) = true) → (s.dev.core core).thread = none → (s.dev.core core).saddle = .full u → (s.dev.core core).boundary = true → ((s.dev.core core).fly = [] ∧ (s.dev.core core).vop = none) → s.dev.tFlag u 3 = true → (s.dev.pool (s.dev.tPool u)).swap = none → 
      ∃ t, exec (.threadSwitch core) s = .next t ∧
      (t.dev.core core).st = .running ∧ (t.dev.core core).thread = some u ∧ (t.dev.core core).saddle = .empty ∧ (t.dev.core core).pc = s.dev.tb u 32 4 ∧ (t.dev.core core).priv = 0 ∧
      t.dev.tState u = 4 ∧ t.dev.tFlag u 3 = false ∧ (t.dev.core core).rs 1 = BitVec.ofNat 32 (s.dev.tb u 36 4) ∧ (t.dev.core core).rs 3 = BitVec.ofNat 32 u) ∧
  (∀ (s : State) (core u : Nat),
    s.dev.pel.trcMode = 0 → ((s.dev.core core).st = .running ∧ (s.dev.core core).bist = false ∧ s.dev.awake (core / 64) = true) → (s.dev.core core).thread = some u → s.dev.leaving core = .block → (s.dev.core core).saddle = .empty → ((s.dev.core core).fly = [] ∧ (s.dev.core core).vop = none) → (s.dev.core core).leaving = none → core < 1024 → 
      ∃ t, exec (.threadSwitch core) s = .next t ∧
      (t.dev.core core).st = .idle ∧ (t.dev.core core).thread = none ∧ (t.dev.core core).leave = .stay ∧ (t.dev.core core).wb = (s.dev.core core).wb ++ [(u, 1, (s.dev.core core).seatFrame)] ∧ t.dev.tState u = s.dev.tState u) ∧
  (∀ (s : State) (core u f : Nat) (rest : List (Nat × Nat × Nat)),
    (s.dev.core core).wb = (u, 2, f) :: rest → s.dev.reachable (s.dev.tb u 24 6) = true → (0x0200000000 ≤ s.dev.tb u 24 6 ∧ s.dev.tb u 24 6 + 2048 ≤ 0x0202000000) → s.dev.mem.ecc = [] → (s.dev.core core).pool = none → 
      ∃ t, exec (.writebackDone core) s = .next t ∧
      t.dev.tState u = 2 ∧ (t.dev.core core) = { s.dev.core core with wb := rest }) ∧
  (∀ (s : State) (core u f : Nat) (rest : List (Nat × Nat × Nat)),
    (s.dev.core core).wb = (u, 1, f) :: rest → s.dev.tFlag u 2 = false → s.dev.reachable (s.dev.tb u 24 6) = true → (0x0200000000 ≤ s.dev.tb u 24 6 ∧ s.dev.tb u 24 6 + 2048 ≤ 0x0202000000) → s.dev.mem.ecc = [] → (s.dev.core core).pool = none → 
      ∃ t, exec (.writebackDone core) s = .next t ∧
      t.dev.tState u = 1 ∧ (t.dev.core core) = { s.dev.core core with wb := rest }) ∧
  (∀ (s : State) (thread : Nat),
    s.dev.pel.trcMode = 0 → 2 ≤ s.dev.tState thread → s.dev.tDeadline thread ≤ s.clk.atc → s.dev.pel.missed.contains thread = false → s.dev.ending thread = false → s.dev.tb thread 5 1 = 0 → 
      ∃ t, exec (.deadlineMiss thread) s = .next t ∧
      t.dev.pel.missed = s.dev.pel.missed ++ [thread] ∧ t.dev.tb thread 56 4 = (s.dev.tb thread 56 4 + 1) % 2 ^ 32 ∧ (t.dev.pool (s.dev.tPool thread)).misses = satAdd 32 (s.dev.pool (s.dev.tPool thread)).misses 1 ∧ t.dev.tState thread = s.dev.tState thread)

/-- A pool takes its configuration, its cores, and a disable or an enable; a thread takes its definition and may be freed and read; an operation answers its code; a ledger read answers buckets; tracing is set; RESIZE_DONE and POOL_DISABLED follow. Each clause ends in: exec of its command is a next state. So these commands complete: pelPoolConfig, pelResize, resizeDone, pelThreadSet, pelThreadFree, pelThreadGet, pelOp, pelPoolDisable, poolDisabled, pelPoolEnable, pelLedgerGet, pelTraceSet. [07_peloton.md, R208, R226, R227, R228, R230, R233, R236, R238] -/
def Obligations.PelotonCommands : Prop :=
  (∀ (s : State) (r : Req) (w : Waiting) (pool edfp cap : Nat),
    Waits s r 0x0301 w → pool < 64 → (50 ≤ cap ∧ cap ≤ 100) → 
      exec (.pelPoolConfig r pool edfp cap) s = .next { s with dev := answered s.clk w (rOk) (noted (s.dev.updPool pool fun y => { y with edfp := edfp != 0, cap := cap })) }) ∧
  (∀ (s : State) (r : Req) (w : Waiting) (pool edfp cap : Nat),
    Waits s r 0x0301 w → pool < 64 → (cap < 50 ∨ 100 < cap) → 
      ∃ t, exec (.pelPoolConfig r pool edfp cap) s = .next t ∧
      Answers s t w (rBad 2)) ∧
  (∀ (s : State) (r : Req) (w : Waiting) (pool prompt mask n : Nat),
    Waits s r 0x0302 w → pool < 64 → s.dev.members pool = [] → ones 1024 mask = [n] → (s.dev.pool pool).resize = none → (s.dev.pool pool).image = 0xFF → (s.dev.core n).pool = none → s.dev.charges = [] → s.dev.pel.trcMode = 0 → 
      exec (.pelResize r pool prompt mask) s = .next { s with dev := answered s.clk w (rAcc) (noted ((s.dev.updPool pool fun y => { y with resize := some w.tag, joined := (y.joined.filter fun j => bucketOf s.clk.atc + 2 < j.2 + 3) ++ [(n, bucketOf s.clk.atc + 2)] }).updCore n fun k => { k with pool := some pool })) }) ∧
  (∀ (s : State) (pool tag : Nat),
    (s.dev.pool pool).resize = some tag → ((s.dev.members pool).any fun n => (s.dev.core n).leaving.isSome) = false → 
      exec (.resizeDone pool) s = .next { s with dev := (s.dev.updPool pool fun y => { y with resize := none }).evt0 s.clk 0x0381 tag [(0, 1, pool), (2, 2, (s.dev.members pool).length)] }) ∧
  (∀ (s : State) (r : Req) (w : Waiting) (thread pool band misspol flags escband ctxHome entry arg0 arg1 est user : Nat),
    Waits s r 0x0303 w → (pool < 64 ∧ band < 16 ∧ misspol < 3 ∧ flags < 4 ∧ escband < 16 ∧ ctxHome % 64 = 0) → s.dev.tState thread ≤ 1 → (ctxHome < 2 ^ 48 ∧ entry < 2 ^ 32) → 
      ∃ t, exec (.pelThreadSet r thread pool band misspol flags escband ctxHome entry arg0 arg1 est user) s = .next t ∧
      Answers s t w rOk ∧ t.dev.tState thread = 1 ∧ t.dev.tPool thread = pool ∧ t.dev.tBand thread = band ∧ t.dev.tb thread 5 1 = misspol ∧ t.dev.tb thread 6 1 = flags + 8 ∧ t.dev.tb thread 7 1 = escband ∧ t.dev.tb thread 24 6 = ctxHome ∧ t.dev.tb thread 32 4 = entry) ∧
  (∀ (s : State) (r : Req) (w : Waiting) (thread : Nat),
    Waits s r 0x0304 w → s.dev.tState thread = 1 → 
      exec (.pelThreadFree r thread) s = .next { s with dev := answered s.clk w (rOk) (noted (s.dev.putCells (0x0202000000 + 256 * thread + 4) [0])) }) ∧
  (∀ (s : State) (r : Req) (w : Waiting) (thread : Nat),
    Waits s r 0x0304 w → s.dev.tState thread ≠ 1 → 
      ∃ t, exec (.pelThreadFree r thread) s = .next t ∧
      Answers s t w (rSt 0x0010)) ∧
  (∀ (s : State) (r : Req) (w : Waiting) (thread : Nat),
    Waits s r 0x0305 w → Fits w 128 → 
      ∃ t, exec (.pelThreadGet r thread) s = .next t ∧
      t.dev = answered s.clk w { status := stOK, payload := readBytes s.dev.mem.cells (0x0202000000 + 256 * thread) 128 } s.dev) ∧
  (∀ (s : State) (r : Req) (w : Waiting) (op flag thread deadline arg0 arg1 : Nat),
    Waits s r 0x0306 w → Fits w 3 → op = 1 → s.dev.tState thread = 1 → s.dev.pel.cyc = [] → (s.dev.pool (s.dev.tPool thread)).dis = .on → 
      ∃ t, exec (.pelOp r op flag thread deadline arg0 arg1) s = .next t ∧
      Answers s t w (rOk [(1, 0), (2, 0)]) ∧ t.dev.tState thread = 2 ∧ t.dev.tDeadline thread = (if flag = 0 then s.dev.tDeadline thread else deadline % 2 ^ 64)) ∧
  (∀ (s : State) (r : Req) (w : Waiting) (op flag thread deadline arg0 arg1 : Nat),
    Waits s r 0x0306 w → Fits w 3 → (op = 3 ∨ op = 4) → 
      exec (.pelOp r op flag thread deadline arg0 arg1) s = .next { s with dev := answered s.clk w (rOk [(1, 3), (2, 0)]) (noted s.dev) }) ∧
  (∀ (s : State) (r : Req) (w : Waiting) (pool mode : Nat),
    Waits s r 0x0307 w → (pool < 64 ∧ mode ≤ 1) → (s.dev.pool pool).dis = .on → s.dev.threads = [] → 
      exec (.pelPoolDisable r pool mode) s = .next { s with dev := answered s.clk w (rAcc) (noted (s.dev.updPool pool fun y => { y with dis := .ending (mode = 1) s.clk.atc w.tag })) }) ∧
  (∀ (s : State) (pool atc tag : Nat) (abort : Bool),
    (s.dev.pool pool).dis = .ending abort atc tag → (s.dev.threads.any fun t => s.dev.tPool t = pool && 2 ≤ s.dev.tState t) = false → 
      exec (.poolDisabled pool) s = .next { s with dev := (s.dev.updPool pool fun y => { y with dis := .disabled }).evt0 s.clk 0x0382 tag [(0, 1, pool), (1, 1, abort.toNat)] }) ∧
  (∀ (s : State) (r : Req) (w : Waiting) (pool : Nat),
    Waits s r 0x0308 w → pool < 64 → (s.dev.pool pool).dis = .disabled → 
      exec (.pelPoolEnable r pool) s = .next { s with dev := answered s.clk w (rOk) (noted (s.dev.updPool pool fun y => { y with dis := .on })) }) ∧
  (∀ (s : State) (r : Req) (w : Waiting) (pool first count : Nat),
    Waits s r 0x0309 w → Fits w 12 → pool < 64 → count = 1 → s.dev.charges = [] → 
      exec (.pelLedgerGet r pool first count) s = .next { s with dev := answered s.clk w (rOk [(4, min (s.dev.acctCap pool first) (2 ^ 32 - 1)), (4, 0), (4, min (s.dev.pool pool).misses (2 ^ 32 - 1))]) s.dev }) ∧
  (∀ (s : State) (r : Req) (w : Waiting) (addr log2 mode events pools : Nat),
    Waits s r 0x030A w → (addr % 4096 = 0 ∧ 8 ≤ log2 ∧ log2 ≤ 24 ∧ 1 ≤ mode ∧ mode ≤ 2) → s.dev.pel.trcMode = 0 → 
      exec (.pelTraceSet r addr log2 mode events pools) s = .next { s with dev := answered s.clk w (rOk) (noted (s.dev.updPel fun p => { p with trcAddr := addr, trcLog := log2, trcMode := mode, trcEvents := events, trcPools := pools })) })

/-- A doorbell in range sets PROD; the next owned descriptor, accepted and with an engine to serve it, is fetched and waits; a free engine takes a sound head job; the job's end frees the engine and counts the job and its time; a job past START_BY leaves the queue and counts in LATE; a drained disable of a ring, or of engines, is reported. Each clause ends in: exec of its command is a next state. So these commands complete: engRingDoorbell, descriptorFetch, jobStart, jobEnd, jobLate, engDisabled. [08_baseband_engines.md, R243, R245, R246, R247, R249, R250, R262, R269, R271] -/
def Obligations.EngineJobs : Prop :=
  (∀ (s : State) (who ring prod : Nat),
    who = 1024 → (s.dev.ring ring).owner = 1 → (s.dev.ring ring).dis = .on → (prod + 65536 - (s.dev.ring ring).done) % 65536 ≤ 2 ^ (s.dev.ring ring).log → 
      exec (.engRingDoorbell who ring prod) s = .next { s with dev := s.dev.updRing ring fun r => { r with prod := prod, stall := false } }) ∧
  (∀ (s : State) (ring : Nat) (x : Ring) (y : List Byte),
    s.dev.ring ring = x → x.dis = .on → x.stall = false → x.fetch ≠ x.prod → s.dev.mem.ecc = [] → y = s.dev.cellBytes (x.base + 128 * (x.fetch % 2 ^ x.log)) 128 → bit (fieldAt y 0 4) 31 = true → s.dev.noEngine x = false → x.accepted x.fetch = true → 
      exec (.descriptorFetch ring) s = .next { s with dev := s.dev.updRing ring fun r => { r with fetch := (r.fetch + 1) % 65536, refused := r.refused.filter (· != x.fetch), queue := r.queue ++ [⟨x.fetch, y⟩] } }) ∧
  (∀ (s : State) (eng ri : Nat) (j : QueuedJob),
    eng < 56 → (s.dev.engine eng).job = none → (s.dev.engine eng).dis = .on → s.dev.awake (engDomain eng) = true → s.dev.asked (engDomain eng) = false → s.dev.pickRing eng s.clk.atc = some (ri, j) → descFault (s.dev.ring ri).cls j.desc = none → s.dev.addrFault (s.dev.ring ri) j.desc = none → 
      exec (.jobStart eng) s = .next { s with dev := (s.dev.updRing ri fun r => { r with queue := r.queue.drop 1 }).updEngine eng fun x => { x with job := some { ring := ri, idx := j.idx, desc := j.desc, start := s.clk.atc } } }) ∧
  (∀ (s : State) (eng : Nat) (parity : Bool) (j : RunJob),
    eng < 56 → (s.dev.engine eng).job = some j → (s.dev.engine eng).dis = .on → parity = false → 
      ∃ t, exec (.jobEnd eng parity) s = .next t ∧
      (t.dev.engine eng).job = none ∧ (t.dev.engine eng).dis = .on ∧ (t.dev.engine eng).jobs = ((s.dev.engine eng).jobs + 1) % 2 ^ 64 ∧ (t.dev.engine eng).busy = ((s.dev.engine eng).busy + tcToNs (s.clk.atc - j.start)) % 2 ^ 64) ∧
  (∀ (s : State) (ring : Nat) (j : QueuedJob),
    (s.dev.ring ring).queue = [j] → dStartKey j.desc ≤ s.clk.atc → bit (fieldAt j.desc 0 4) 28 = false → 
      ∃ t, exec (.jobLate ring) s = .next t ∧
      (t.dev.ring ring).queue = [] ∧ (t.dev.ring ring).late = satAdd 32 (s.dev.ring ring).late 1 ∧ (t.dev.ring ring).prod = (s.dev.ring ring).prod) ∧
  (∀ (s : State) (isRing : Bool) (ring at_ tag : Nat) (ab : Bool),
    isRing = true → (s.dev.ring ring).dis = .ending ab at_ tag → (s.dev.ring ring).done = (s.dev.ring ring).tdProd → (s.dev.ring ring).tdProd < 65536 → 
      exec (.engDisabled isRing ring) s = .next { s with dev := (s.dev.updRing ring fun y => { y with dis := .disabled }).evt0 s.clk 0x0582 tag [(0, 1, 1), (1, 1, ab.toNat), (2, 1, ring)] }) ∧
  (∀ (s : State) (isRing : Bool) (ring : Nat) (q : EngDis),
    isRing = false → s.dev.eng.pend = [q] → (∀ e ∈ ones 56 q.mask, (s.dev.engine e).job = none) → 
      exec (.engDisabled isRing ring) s = .next { s with dev := (s.dev.updEng fun y => { y with pend := [] }).evt0 s.clk 0x0582 q.tag [(0, 1, 0), (1, 1, q.abort.toNat), (8, 8, q.mask)] })

/-- A ring takes its settings and reports its registers; engines and rings are disabled and enabled; statistics, HARQ partitions and class caps are read and set; a microcode update disables the first engine of its mask; the engine that has drained is enabled, and after the last the update is over. Each clause ends in: exec of its command is a next state. So these commands complete: engRingSet, engRingStatus, engDisable, engEnable, engRingDisable, engRingEnable, engGetStats, engHarqConfig, engClassConfig, updEngMicrocode, updEngDone. [08_baseband_engines.md, R264, R265, R268, R269, R270, R579, R581] -/
def Obligations.EngineCommands : Prop :=
  (∀ (s : State) (r : Req) (w : Waiting) (ring cls mask prio owner pool base log2 : Nat),
    Waits s r 0x0501 w → 64 ≤ ring → cls ≤ 3 → mask &&& classMask cls = mask → prio ≤ 3 → owner = 1 → regionOf base = .dram → inMemory base (128 * 2 ^ log2) = true → (3 ≤ log2 ∧ log2 ≤ 12) → (s.dev.ring ring).dis = .off → 
      exec (.engRingSet r ring cls mask prio owner pool base log2) s = .next { s with dev := answered s.clk w (rOk) (noted (s.dev.updRing ring fun y => { y with dis := .on, cls := cls, mask := mask, prio := prio, owner := 1, pool := pool, base := base, log := log2, stall := false })) }) ∧
  (∀ (s : State) (r : Req) (w : Waiting) (ring : Nat),
    Waits s r 0x0502 w → Fits w 15 → 
      exec (.engRingStatus r ring) s = .next { s with dev := answered s.clk w (rOk [(2, (s.dev.ring ring).prod), (2, (s.dev.ring ring).fetch), (2, (s.dev.ring ring).done), (1, (s.dev.ring ring).state), (4, (s.dev.ring ring).bad), (4, (s.dev.ring ring).late)]) s.dev }) ∧
  (∀ (s : State) (r : Req) (w : Waiting) (mask mode : Nat),
    Waits s r 0x0503 w → Fits w 8 → mask < 2 ^ 56 → mode ≤ 1 → s.dev.eng.pend = [] → s.dev.eng.rings = [] → (∀ e ∈ ones 56 mask, (s.dev.engine e).dis = .on ∧ (s.dev.engine e).job = none) → 
      ∃ t, exec (.engDisable r mask mode) s = .next t ∧
      Answers s t w (rAcc [(8, s.clk.atc)]) ∧ (∀ e ∈ ones 56 mask, (t.dev.engine e).dis = .disabled) ∧ (∀ e, e ∉ ones 56 mask → t.dev.engine e = s.dev.engine e) ∧ t.dev.eng.pend = [⟨mask, mode = 1, w.tag⟩]) ∧
  (∀ (s : State) (r : Req) (w : Waiting) (mask : Nat),
    Waits s r 0x0504 w → mask < 2 ^ 56 → s.dev.eng.pend = [] → (∀ e ∈ ones 56 mask, (s.dev.engine e).dis.isEnding = false) → 
      ∃ t, exec (.engEnable r mask) s = .next t ∧
      Answers s t w rOk ∧ (∀ e ∈ ones 56 mask, (t.dev.engine e).dis = .on) ∧ (∀ e, e ∉ ones 56 mask → t.dev.engine e = s.dev.engine e)) ∧
  (∀ (s : State) (r : Req) (w : Waiting) (ring mode : Nat),
    Waits s r 0x0505 w → Fits w 8 → mode = 0 → (s.dev.ring ring).dis = .on → 
      exec (.engRingDisable r ring mode) s = .next { s with dev := answered s.clk w (rAcc [(8, s.clk.atc)]) (noted (s.dev.updRing ring fun y => { y with dis := .ending false s.clk.atc w.tag, tdProd := y.prod })) }) ∧
  (∀ (s : State) (r : Req) (w : Waiting) (ring : Nat),
    Waits s r 0x0506 w → (s.dev.ring ring).dis = .disabled → 
      exec (.engRingEnable r ring) s = .next { s with dev := answered s.clk w (rOk) (noted (s.dev.updRing ring fun y => { y with dis := .on })) }) ∧
  (∀ (s : State) (r : Req) (w : Waiting) (engine n0 n1 n2 n3 n4 n5 n6 n7 : Nat),
    Waits s r 0x0507 w → Fits w 48 → engine < 56 → (s.dev.engine engine).byStatus = [n0, n1, n2, n3, n4, n5, n6, n7] → 
      exec (.engGetStats r engine) s = .next { s with dev := answered s.clk w (rOk [(8, (s.dev.engine engine).jobs), (8, (s.dev.engine engine).busy), (4, n0), (4, n1), (4, n2), (4, n3), (4, n4), (4, n5), (4, n6), (4, n7)]) s.dev }) ∧
  (∀ (s : State) (r : Req) (w : Waiting) (func base size : Nat),
    Waits s r 0x0508 w → func < 16 → size ≠ 0 → (s.dev.mem.map.getD 5 (0, 0)).1 ≤ base → base + size ≤ (s.dev.mem.map.getD 5 (0, 0)).1 + (s.dev.mem.map.getD 5 (0, 0)).2 → s.dev.eng.harq = [] → 
      exec (.engHarqConfig r func base size) s = .next { s with dev := answered s.clk w (rOk) (noted (s.dev.updEng fun y => { y with harq := [(func, (base, size))] })) }) ∧
  (∀ (s : State) (r : Req) (w : Waiting) (cls cap : Nat),
    Waits s r 0x0509 w → cls ≤ 3 → (50 ≤ cap ∧ cap ≤ 100) → s.dev.air.plans = [] → 
      exec (.engClassConfig r cls cap) s = .next { s with dev := answered s.clk w (rOk) (noted (s.dev.updEng fun y => { y with caps := tset 90 y.caps cls cap })) }) ∧
  (∀ (s : State) (r : Req) (w : Waiting) (cls mask force e : Nat),
    Waits s r 0x1004 w → cls ≤ 3 → e < 56 → mask = 2 ^ e → mask &&& classMask cls = mask → s.dev.mgmt.engUpd = none → s.dev.eng.rings = [] → (s.dev.engine e).job = none → 
      ∃ t, exec (.updEngMicrocode r cls mask force) s = .next t ∧
      Answers s t w rAcc ∧ t.dev.mgmt.engUpd = some { cls := cls, todo := 0, done := 0, force := force != 0, tag := w.tag, cur := mask } ∧ (t.dev.engine e).dis = .disabled) ∧
  (∀ (s : State) (u : EngUpd),
    s.dev.mgmt.engUpd = some u → u.todo = 0 → (∀ e ∈ ones 56 u.cur, (s.dev.engine e).job = none) → 
      ∃ t, exec (.updEngDone) s = .next t ∧
      t.dev.mgmt.engUpd = none ∧ (∀ e ∈ ones 56 u.cur, (t.dev.engine e).dis = .on))

/-- FE_STREAM_SET configures a stream and FE_STREAM_REMOVE takes it away; shadow writes change SHADOW and leave ACTIVE; a cassette is written while it rests, a shift starts a fade, and its end makes the new cassette active; a sample enters its chain; counters are answered and cleared. Each clause ends in: exec of its command is a next state. So these commands complete: feStreamSet, feStreamRemove, feShadowWrite, feCassetteWrite, feShift, cassetteDone, feStatus, feGetDelay, chainSampleEntry, cmpShadowWrite, cmpStatus, cmpClear. [09_front_end_chain.md, R274, R275, R276, R277, R278, R279, R284, R286, R288, R293, R311] -/
def Obligations.FrontEndStreams : Prop :=
  (∀ (s : State) (r : Req) (w : Waiting) (stream carrier fin fout hb rs side leadTx lagRx : Nat) (k : Carrier),
    Waits s r 0x0601 w → stream < 2048 → s.dev.stream stream = none → s.dev.carrier carrier = some k → k.owner = w.func → rateFault fin fout hb rs = none → side ≤ 1 → (19661 ≤ leadTx ∧ leadTx ≤ 983040) → (9831 ≤ lagRx ∧ lagRx ≤ 983040) → s.dev.hasPlans carrier = false → s.dev.fe.streams.length < 2048 → s.dev.standing (fun _ => true) + k.charge ≤ 65536 → 
      ∃ t, exec (.feStreamSet r stream carrier fin fout hb rs side leadTx lagRx) s = .next t ∧
      Answers s t w rOk ∧ t.dev.stream stream = some { owner := w.func, carrier := carrier, fin := fin, fout := fout, hb := hb, rs := rs, side := side, leadTx := leadTx, lagRx := lagRx } ∧
      (∀ n, n ≠ stream → t.dev.stream n = s.dev.stream n) ∧ t.dev.shadow 1 stream = {} ∧ t.dev.shadow 2 stream = {}) ∧
  (∀ (s : State) (r : Req) (w : Waiting) (stream : Nat) (y : Stream),
    Waits s r 0x0609 w → Fits w 2 → s.dev.stream stream = some y → Sees w.func y.owner → s.dev.streamBusy stream y = false → s.dev.devmode.mode = .relay → 
      ∃ t, exec (.feStreamRemove r stream) s = .next t ∧
      Answers s t w (rOk [(2, 0)]) ∧ t.dev.stream stream = none ∧ (∀ n, n ≠ stream → t.dev.stream n = s.dev.stream n)) ∧
  (∀ (s : State) (r : Req) (w : Waiting) (stream dir mask sectEn gain phase dlyInt dlyFrac mute : Nat) (y : Stream),
    Waits s r 0x0602 w → s.dev.stream stream = some y → Sees w.func y.owner → dir = 0 → mask = 2 → 
      ∃ t, exec (.feShadowWrite r stream dir mask sectEn gain phase dlyInt dlyFrac mute) s = .next t ∧
      Answers s t w rOk ∧ (t.dev.feSet stream 0).latest = { (s.dev.feSet stream 0).latest with gain := gain } ∧ (t.dev.feSet stream 0).act = (s.dev.feSet stream 0).act ∧
      (t.dev.feSet stream 1).latest = (s.dev.feSet stream 1).latest ∧ (t.dev.shadow 1 stream).latest = false) ∧
  (∀ (s : State) (r : Req) (w : Waiting) (stream dir cas mask : Nat) (coefs : List Nat) (y : Stream),
    Waits s r 0x0603 w → s.dev.stream stream = some y → Sees w.func y.owner → dir ≤ 1 → cas = 1 → s.dev.shiftDue s.clk stream = false → coefs.length = 5 * (ones 8 mask).length → (s.dev.chain stream dir).active = 0 → (s.dev.chain stream dir).fade = none → (s.dev.chain stream dir).held = none → 
      exec (.feCassetteWrite r stream dir cas mask coefs) s = .next { s with dev := answered s.clk w (rOk) (noted (s.dev.updChain stream dir fun k => { k with casB := putCoefs k.casB (ones 8 mask) coefs })) }) ∧
  (∀ (s : State) (r : Req) (w : Waiting) (stream dir target len notify : Nat) (y : Stream),
    Waits s r 0x0604 w → Fits w 1 → s.dev.stream stream = some y → Sees w.func y.owner → dir ≤ 1 → target ≤ 1 → (16 ≤ len ∧ len ≤ 4096) → notify = 1 → s.dev.shiftDue s.clk stream = false → (s.dev.chain stream dir).fade = none → (s.dev.chain stream dir).held = none → (s.dev.chain stream dir).active ≠ target → 
      exec (.feShift r stream dir target len notify) s = .next { s with dev := answered s.clk w (rOk [(1, 0)]) (noted (s.dev.updChain stream dir fun k => k.startFade len (some w.tag) (s.clk.atc + 2))) }) ∧
  (∀ (s : State) (stream dir : Nat) (f : Fade),
    (s.dev.chain stream dir).fade = some f → f.len ≤ f.n → f.notify = none → (s.dev.chain stream dir).held = none → 
      exec (.cassetteDone stream dir) s = .next { s with dev := s.dev.updChain stream dir fun k => { (k.setSt k.active zeroSect) with active := 1 - k.active, fade := none, held := none } }) ∧
  (∀ (s : State) (r : Req) (w : Waiting) (stream dir : Nat) (y : Stream) (k : Chain),
    Waits s r 0x0605 w → Fits w 14 → s.dev.stream stream = some y → Sees w.func y.owner → dir ≤ 1 → s.dev.chain stream dir = k → k.fade = none → k.held = none → 
      exec (.feStatus r stream dir) s = .next { s with dev := answered s.clk w (rOk [(1, k.active), (2, 0xFFFF), (1, 0xFF), (2, 0), (4, k.sat), (4, k.gaps)]) s.dev }) ∧
  (∀ (s : State) (r : Req) (w : Waiting) (stream dir : Nat) (y : Stream),
    Waits s r 0x0608 w → Fits w 24 → s.dev.stream stream = some y → Sees w.func y.owner → dir ≤ 1 → 
      ∃ t, exec (.feGetDelay r stream dir) s = .next t ∧
      t.dev.host.waiting = [] ∧ t.dev.fe = s.dev.fe ∧ (∃ f g, Answers s t w (rOk [(8, f), (8, g), (8, f + g)]))) ∧
  (∀ (s : State) (stream dir re im buf f : Nat) (present : Bool) (y : Stream) (car : Carrier) (k : Chain),
    dir = 1 → s.dev.stream stream = some y → s.dev.carrierOf y = some car → s.dev.chain stream 1 = k → k.frame = some f → k.nIn < y.fout * 10 → entryAt car y 1 f k.nIn ≤ s.clk.atc → k.endDue = false → k.anchorDue y 1 = false → 
      ∃ t, exec (.chainSampleEntry stream dir present re im buf) s = .next t ∧
      (t.dev.chain stream 1).nIn = k.nIn + 1 ∧ (t.dev.chain stream 1).frame = some f ∧ t.dev.host = s.dev.host) ∧
  (∀ (s : State) (stream dir re im buf f : Nat) (present : Bool) (y : Stream) (car : Carrier) (k : Chain),
    dir = 0 → s.dev.stream stream = some y → s.dev.carrierOf y = some car → s.dev.chain stream 0 = k → k.frame = some f → k.nIn < y.fin * 10 → entryAt car y 0 f k.nIn ≤ s.clk.atc → k.endDue = false → k.anchorDue y 0 = false → s.dev.spk.maps = [] → tfind s.dev.tnd.streams stream = none → 
      ∃ t, exec (.chainSampleEntry stream dir present re im buf) s = .next t ∧
      (t.dev.chain stream 0).nIn = k.nIn + 1 ∧ (t.dev.chain stream 0).frame = some f) ∧
  (∀ (s : State) (r : Req) (w : Waiting) (stream dir mask mode m mMin mMax bound : Nat) (y : Stream),
    Waits s r 0x0690 w → s.dev.stream stream = some y → Sees w.func y.owner → dir = 1 → mask = 1 → mode ≤ 2 → 
      ∃ t, exec (.cmpShadowWrite r stream dir mask mode m mMin mMax bound) s = .next t ∧
      Answers s t w rOk ∧ (t.dev.cmpSet stream 1).latest = { (s.dev.cmpSet stream 1).latest with mode := mode } ∧ (t.dev.cmpSet stream 1).act = (s.dev.cmpSet stream 1).act ∧
      (t.dev.cmpSet stream 0).latest = (s.dev.cmpSet stream 0).latest ∧ t.dev.fe.sets = s.dev.fe.sets) ∧
  (∀ (s : State) (r : Req) (w : Waiting) (stream dir : Nat) (y : Stream) (a : CmpSet) (k : Chain),
    Waits s r 0x0691 w → Fits w 34 → s.dev.stream stream = some y → Sees w.func y.owner → dir ≤ 1 → (s.dev.cmpSet stream dir).act = a → s.dev.chain stream dir = k → 
      exec (.cmpStatus r stream dir) s = .next { s with dev := answered s.clk w (rOk [(1, a.mode), (1, a.m), (1, a.mMin), (1, a.mMax), (2, a.bound), (8, k.blocks), (8, k.sumM), (4, k.boundMiss), (4, k.cmpSat), (4, k.badHdr)]) s.dev }) ∧
  (∀ (s : State) (r : Req) (w : Waiting) (stream dir : Nat) (y : Stream),
    Waits s r 0x0692 w → s.dev.stream stream = some y → Sees w.func y.owner → dir ≤ 1 → 
      exec (.cmpClear r stream dir) s = .next { s with dev := answered s.clk w (rOk) (noted (s.dev.updChain stream dir fun k => { k with blocks := 0, sumM := 0, boundMiss := 0, cmpSat := 0, badHdr := 0 })) })

/-- FE_DETECT_SET changes an idle detector's tap and window, FE_DETECT_READ answers the reports; a full window is latched; an envelope crossing is posted; a frame whose samples have all entered gives way to the next, its windows before the resampler cut; and a fractional stage that has given all outputs of its frame re-anchors. Each clause ends in: exec of its command is a next state. So these commands complete: feDetectSet, feDetectRead, detectWindowEnd, feEnvelope, resamplerReanchor. [09_front_end_chain.md, R274, R292, R294, R295, R296, R299] -/
def Obligations.DetectorsAndResampler : Prop :=
  (∀ (s : State) (r : Req) (w : Waiting) (stream dir det tap k att dec hi lo : Nat) (y : Stream),
    Waits s r 0x0606 w → s.dev.stream stream = some y → Sees w.func y.owner → dir ≤ 1 → det = 0 → tap ≤ 2 → (4 ≤ k ∧ k ≤ 20) → (s.dev.chain stream dir).peak.count = 0 → 
      exec (.feDetectSet r stream dir det tap k att dec hi lo) s = .next { s with dev := answered s.clk w (rOk) (noted (s.dev.updChain stream dir fun y => { y with peak := { y.peak with tap := tap, k := k } })) }) ∧
  (∀ (s : State) (r : Req) (w : Waiting) (stream dir : Nat) (y : Stream) (k : Chain),
    Waits s r 0x0607 w → Fits w 42 → s.dev.stream stream = some y → Sees w.func y.owner → dir ≤ 1 → s.dev.chain stream dir = k → 
      exec (.feDetectRead r stream dir) s = .next { s with dev := answered s.clk w (rOk [(4, k.peak.p), (2, uns 16 (levelOf k.peak.p 0)), (8, k.peak.endAtc), (4, k.rms.p), (2, uns 16 (levelOf k.rms.p 0)), (8, k.rms.endAtc), (4, k.rms.samples), (4, k.env.e), (2, uns 16 (levelOf (k.env.e * k.env.e) 32)), (4, k.env.suppressed)]) s.dev }) ∧
  (∀ (s : State) (stream dir : Nat) (rms : Bool) (x : Detector),
    rms = true → (s.dev.chain stream dir).rms = x → x.count = 2 ^ x.k → x.next = none → 
      exec (.detectWindowEnd stream dir rms) s = .next { s with dev := s.dev.updChain stream dir fun k => { k with rms := { x with p := x.acc / x.count, endAtc := x.at_, samples := x.count, acc := 0, count := 0 } } }) ∧
  (∀ (s : State) (stream dir q : Nat) (lv : Int) (y : Stream),
    (s.dev.chain stream dir).env.cross = some (q, lv) → s.dev.stream stream = some y → 
      exec (.feEnvelope stream dir) s = .next { s with dev := (s.dev.updChain stream dir fun k => { k with env := { k.env with cross := none, posted := s.clk.atc + 1 } }).evt s.clk y.owner y.owner 0x0682 0 [(0, 2, stream), (2, 1, dir), (3, 1, q), (4, 2, uns 16 lv)] }) ∧
  (∀ (s : State) (stream dir f : Nat) (y : Stream) (car : Carrier),
    s.dev.stream stream = some y → s.dev.carrierOf y = some car → (s.dev.chain stream dir).frame = some f → y.rateIn dir * 10 ≤ (s.dev.chain stream dir).nIn → (s.dev.chain stream dir).frameGaps = 0 → (s.dev.chain stream dir).anchorDue y dir = false → 
      exec (.resamplerReanchor stream dir) s = .next { s with dev := s.dev.updChain stream dir fun k => { k.cutWindows dir false with frame := some (f + 1), nIn := 0, frameGaps := 0 } }) ∧
  (∀ (s : State) (stream dir f : Nat) (y : Stream) (car : Carrier),
    s.dev.stream stream = some y → s.dev.carrierOf y = some car → (s.dev.chain stream dir).frame = some f → (s.dev.chain stream dir).nIn < y.rateIn dir * 10 → (s.dev.chain stream dir).anchorDue y dir = true → 
      exec (.resamplerReanchor stream dir) s = .next { s with dev := s.dev.updChain stream dir fun k => { k with anchors := k.anchors + 1, fracFrame := k.fracFrame + 1, nFrac := 0, pos := y.anchored dir (k.anchors + 1) } })

/-- A core's read of awake, clean DRAM is answered DONE with the bytes it holds; the response that the output port serves next leaves the fabric and reaches its requester; a read at a closed gate is answered ASLEEP and counted; a held request for DRAM goes once its flow is clear, and the cycles it was held count; a closed gate with nothing outstanding isolates its domain. Each clause ends in: exec of its command is a next state. So these commands complete: fabricRequest, fabricResponse, packetAtClosedGate, flipHoldRelease, gateIsolated. [11_wicker_fabric.md, R325, R328, R333, R336, R339, R340] -/
def Obligations.FabricPackets : Prop :=
  (∀ (s : State) (src sport type pri tag addr len peer kind idx priv errNode errPort replays : Nat) (data : List Byte) (dom : Nat),
    nodeExists src = true → type = 1 → replays = 0 → kind = 0 → len < 512 → pri < 4 → regionOf addr = .dram → inMemory addr (len + 1) = true → memDomain addr = some dom → (s.dev.gate dom).st = 0 → s.dev.awake dom = true → s.dev.fab.flipping = none → s.dev.fab.trcMode = 0 → s.dev.mem.ecc = [] → 
      ∃ t, exec (.fabricRequest src sport type pri tag addr len data peer kind idx priv errNode errPort replays) s = .next t ∧
      (∃ q : Packet, t.dev.fab.rsp = s.dev.fab.rsp ++ [q] ∧ q.resp = 0 ∧ q.dest = src ∧ q.tag = tag ∧ q.type = 4 ∧ q.data = readBytes s.dev.mem.cells addr (len + 1)) ∧ t.dev.mem = s.dev.mem) ∧
  (∀ (s : State) (q : Packet),
    (s.dev.fab.arbitrate s.dev.fab.rsp ((s.dev.fab.rsp.head?.map (·.exit)).getD 0)).1 = some q → q.counted = false → q.rid.1 = 5 → q.resp = 0 → 
      exec (.fabricResponse) s = .next { s with dev := s.dev.updFab fun _ => { (s.dev.fab.arbitrate s.dev.fab.rsp q.exit).2 with rsp := s.dev.fab.rsp.erase q, got := some q } }) ∧
  (∀ (s : State) (q : Packet) (qs : List Packet),
    s.dev.fab.atGate = q :: qs → q.type = 1 → q.counted = false → 
      ∃ t, exec (.packetAtClosedGate) s = .next t ∧
      t.dev.fab.atGate = qs ∧ (t.dev.gate q.dom).asleep = satAdd 32 (s.dev.gate q.dom).asleep 1 ∧ (∃ x : Packet, t.dev.fab.rsp = s.dev.fab.rsp ++ [x] ∧ x.resp = 1 ∧ x.dest = q.src)) ∧
  (∀ (s : State) (q : Packet),
    s.dev.fab.held = [q] → s.dev.fab.atGate = [] → regionOf q.addr = .dram → 
      ∃ t, exec (.flipHoldRelease) s = .next t ∧
      t.dev.fab.held = [] ∧ t.dev.fab.flipStall = satAdd 32 s.dev.fab.flipStall (fabricCycles (s.clk.atc - q.heldAt))) ∧
  (∀ (s : State) (dom : Nat),
    (s.dev.gate dom).st = 1 → s.dev.fab.rsp = [] → s.dev.fab.atGate = [] → s.dev.fab.held = [] → 
      exec (.gateIsolated dom) s = .next { s with dev := s.dev.updGate dom fun g => { g with st := 2 } })

/-- A table that keeps the conditions of R334 is stored in the new bank; a commit is accepted with its epoch, which the flip makes current and which retires the old one once it has drained; a link that fails leaves its routes and returns after a clean self-test; probes and the trace are set; the status commands answer the registers. Each clause ends in: exec of its command is a next state. So these commands complete: fabRouteWrite, fabRouteCommit, routeFlip, fabEpochRetired, fabRouteStatus, fabProbeSet, fabTraceSet, fabGateStatus, fabLinkFault, linkSelftestDone, fabLinkStatus. [11_wicker_fabric.md, R332, R334, R335, R336, R337, R342, R344, R345] -/
def Obligations.FabricRoutesAndProbes : Prop :=
  (∀ (s : State) (r : Req) (w : Waiting) (node bank turns : Nat) (table : List Nat),
    Waits s r 0x0EC0 w → nodeExists node = true → bank = 1 - s.dev.fab.epoch → s.dev.fab.epoch ≤ 1 → s.dev.fab.oldDrained = true → table.length = 128 → s.dev.fab.written = [] → 
      exec (.fabRouteWrite r node bank turns table) s = .next { s with dev := (if s.dev.fab.routesOk turns (fun n t => if n = node then table.getD (t % 128) 0xFF else s.dev.fab.route s.dev.fab.epoch n t) then answered s.clk w rOk (noted (s.dev.updFab fun f => { f with routes := tput f.routes (256 * bank + node) table, turns := turns % 16, written := [node] })) else answered s.clk w (rBad 3) s.dev) }) ∧
  (∀ (s : State) (r : Req) (w : Waiting) (at_ : Nat),
    Waits s r 0x0EC1 w → Fits w 1 → s.dev.fab.flipAt = none → s.dev.fab.flipping = none → s.dev.fab.oldDrained = true → s.dev.fab.written ≠ [] → w.rung + 39322 ≤ at_ → 
      exec (.fabRouteCommit r at_) s = .next { s with dev := answered s.clk w (rAcc [(1, 1 - s.dev.fab.epoch)]) (noted (s.dev.updFab fun f => { f.fillBanks with flipAt := some (at_, w.tag), written := [] })) }) ∧
  (∀ (s : State) (at_ tag : Nat),
    s.dev.fab.flipAt = some (at_, tag) → at_ ≤ s.clk.atc → 
      exec (.routeFlip) s = .next { s with dev := s.dev.updFab fun f => { f with epoch := 1 - f.epoch, flipAt := none, flipping := some tag, oldDrained := false } }) ∧
  (∀ (s : State) (tag : Nat),
    s.dev.fab.flipping = some tag → s.dev.fab.held = [] → s.dev.fab.drain (1 - s.dev.fab.epoch) = 0 → 
      exec (.fabEpochRetired) s = .next { s with dev := (s.dev.updFab fun f => { f with flipping := none, oldDrained := true, retiredAt := s.clk.atc }).evt0 s.clk 0x0EE0 tag [(0, 1, 1 - s.dev.fab.epoch), (8, 8, s.clk.atc)] }) ∧
  (∀ (s : State) (r : Req) (w : Waiting),
    Waits s r 0x0EC2 w → Fits w 23 → 
      exec (.fabRouteStatus r) s = .next { s with dev := answered s.clk w (rOk [(1, s.dev.fab.epoch), (1, s.dev.fab.flipPend.toNat), (1, s.dev.fab.oldDrained.toNat), (4, s.dev.fab.drain0), (4, s.dev.fab.drain1), (4, s.dev.fab.flipStall), (8, s.dev.fab.retiredAt)]) s.dev }) ∧
  (∀ (s : State) (r : Req) (w : Waiting) (probe enable node port dir mode srcLo srcHi destLo destHi pri vc type addrLo addrHi : Nat),
    Waits s r 0x0EC3 w → probe < 32 → enable ≤ 1 → nodeExists node = true → port = localPort node → dir ≤ 1 → mode ≤ 2 → (tget {} s.dev.fab.probes probe).en = false → 
      exec (.fabProbeSet r probe enable node port dir mode srcLo srcHi destLo destHi pri vc type addrLo addrHi) s = .next { s with dev := answered s.clk w (rOk) (noted (s.dev.updFab fun f => { f with probes := tmod {} f.probes probe fun p => { p with en := enable = 1, node := node, port := port, dir := dir, mode := mode, src := (srcLo, srcHi), dest := (destLo, destHi), pri := pri, vc := vc, type := type, addr := (addrLo, addrHi) } })) }) ∧
  (∀ (s : State) (r : Req) (w : Waiting) (addr log mode : Nat),
    Waits s r 0x0EC4 w → addr % 4096 = 0 → regionOf addr = .dram → regionOf (addr + 32 * 2 ^ log - 1) = .dram → (8 ≤ log ∧ log ≤ 20) → mode ≤ 2 → s.dev.fab.probes = [] → 
      exec (.fabTraceSet r addr log mode) s = .next { s with dev := answered s.clk w (rOk) (noted (s.dev.updFab fun f => { f with trcAddr := addr, trcLog := log, trcMode := mode })) }) ∧
  (∀ (s : State) (r : Req) (w : Waiting) (dom : Nat),
    Waits s r 0x0EC5 w → Fits w 9 → dom < 32 → 
      exec (.fabGateStatus r dom) s = .next { s with dev := answered s.clk w (rOk [(1, (s.dev.gate dom).st), (4, (s.dev.gate dom).asleep), (4, (s.dev.gate dom).drop)]) s.dev }) ∧
  (∀ (s : State) (node port k : Nat),
    linkKey node port = some k → (s.dev.fab.link node port).failed = false → 
      ∃ t, exec (.fabLinkFault node port) s = .next t ∧
      (t.dev.fab.link node port).failed = true ∧ (t.dev.fab.link node port).epoch = s.dev.fab.epoch ∧ (t.dev.fab.link node port).replays = satAdd 32 (s.dev.fab.link node port).replays 8) ∧
  (∀ (s : State) (node port k : Nat) (errors : Bool),
    linkKey node port = some k → (s.dev.fab.link node port).failed = true → (s.dev.fab.link node port).lasting = false → (s.dev.fab.link node port).epoch ≠ s.dev.fab.epoch → s.dev.fab.oldDrained = true → errors = false → fourth 4 k (recentTransients s.clk.atc 4 k s.dev.mem.transients) = false → 
      ∃ t, exec (.linkSelftestDone node port errors) s = .next t ∧
      (t.dev.fab.link node port).failed = false ∧ t.dev.fab.routes = s.dev.fab.routes) ∧
  (∀ (s : State) (r : Req) (w : Waiting) (node port k : Nat),
    Waits s r 0x0EC6 w → Fits w 9 → linkKey node port = some k → 
      exec (.fabLinkStatus r node port) s = .next { s with dev := answered s.clk w (rOk [(1, (s.dev.fab.link node port).failed.toNat), (4, (s.dev.fab.link node port).replays), (4, (s.dev.fab.link node port).crc)]) s.dev })

/-- A PROD write in range sets PROD where no firing of its cycle waits for it; a host fill descriptor of one piece writes its bytes and ends with status DONE; a source outside the channel's window halts the channel with its address and cause DENIED; a resume retries, skips or aborts; a disable with no descriptor left is done, with its event. Each clause ends in: exec of its command is a next state. So these commands complete: movDoorbell, hostQueueDoorbell, descriptorComplete, movHalted, resumeRetry, resumeSkip, resumeAbort, movDisabled. [12_movers.md, R351, R355, R356, R357, R362, R363, R364] -/
def Obligations.MoverRings : Prop :=
  (∀ (s : State) (chan prod kind idx priv : Nat),
    chan < 592 → kind = 3 → idx = 0 → (s.dev.chan chan).dis = .on → s.dev.cyc.missed = [] → (prod % 65536 + 65536 - (s.dev.chan chan).done) % 65536 ≤ 2 ^ (s.dev.chan chan).log → 
      exec (.movDoorbell chan prod kind idx priv) s = .next { s with dev := s.dev.updChan chan fun k => { k with prod := prod % 65536, stall := false } }) ∧
  (∀ (s : State) (func queue value n : Nat),
    (s.dev.queues func)[queue]? = some n → (s.dev.chan n).dis = .on → s.dev.cyc.missed = [] → (value % 65536 + 65536 - (s.dev.chan n).done) % 65536 ≤ 2 ^ (s.dev.chan n).log → 
      exec (.hostQueueDoorbell func queue value) s = .next { s with dev := s.dev.updChan n fun k => { k with prod := value % 65536, stall := false } }) ∧
  (∀ (s : State) (chan : Nat) (peer : List Byte) (x : Desc),
    (512 ≤ chan ∧ chan < 576) → s.dev.txPort chan = none → s.dev.rxBound chan = false → s.dev.lookBound chan = false → s.dev.chanReady chan = true → (s.dev.chan chan).verdict = none → (s.dev.chan chan).dir = 1 → (s.dev.chan chan).from_ = 0 → (s.dev.headDesc s.clk chan).1 = .inr x → x.own = true → (s.dev.headDesc s.clk chan).2.descBad chan x = false → x.kind = 1 → x.rows = 1 → x.len ≤ 512 → x.dst < 2 ^ 64 → (x.srcLdm = false ∧ x.dstLdm = false) → 
      exec (.descriptorComplete chan peer) s = .next { s with dev := ((s.dev.headDesc s.clk chan).2.chanStore chan x.dst ((List.range x.len).map fun i => x.fill.getD (i % 4) 0)).endDesc s.clk chan x (s.dev.headWord chan) 0 0 0 x.arrive.toNat x.len }) ∧
  (∀ (s : State) (chan cause at_ : Nat) (peer : List Byte) (write : Bool) (x : Desc),
    chan < 512 → s.dev.chanReady chan = true → (s.dev.chan chan).verdict = none → (s.dev.chan chan).halted = false → (s.dev.chan chan).from_ = 0 → s.dev.headDesc s.clk chan = (.inr x, s.dev) → x.own = true → s.dev.descBad chan x = false → x.kind = 0 → x.srcLdm = false → x.src < 2 ^ 48 → x.len ≤ 512 → x.rows = 1 → inMemory x.src x.len = true → (s.dev.chan chan).srcWin.2 = 0 → 
      ∃ t, exec (.movHalted chan peer cause at_ write) s = .next t ∧
      (t.dev.chan chan).halted = true ∧ (t.dev.chan chan).errAddr = x.src ∧ (t.dev.chan chan).errCause = 4 ∧ (t.dev.chan chan).errDir = 0 ∧ (t.dev.chan chan).done = (s.dev.chan chan).done ∧ t.dev.mem = s.dev.mem) ∧
  (∀ (s : State) (chan kind idx priv : Nat),
    chan < 592 → kind = 3 → idx = 0 → (s.dev.chan chan).halted = true → 
      exec (.resumeRetry chan kind idx priv) s = .next { s with dev := s.dev.updChan chan fun k => { k with halted := false } }) ∧
  (∀ (s : State) (chan kind idx priv : Nat),
    chan < 592 → kind = 3 → idx = 0 → (s.dev.chan chan).halted = true → 
      ∃ t, exec (.resumeSkip chan kind idx priv) s = .next t ∧
      (t.dev.chan chan).halted = false ∧ (t.dev.chan chan).done = ((s.dev.chan chan).done + 1) % 65536 ∧ (t.dev.chan chan).from_ = 0) ∧
  (∀ (s : State) (chan kind idx priv : Nat),
    chan < 592 → kind = 3 → idx = 0 → (s.dev.chan chan).halted = true → (s.dev.chan chan).dis = .on → 
      ∃ t, exec (.resumeAbort chan kind idx priv) s = .next t ∧
      (t.dev.chan chan).halted = false ∧ (t.dev.chan chan).done = ((s.dev.chan chan).done + 1) % 65536 ∧ (t.dev.chan chan).dis = .ending true s.clk.atc 0) ∧
  (∀ (s : State) (chan at_ tag : Nat) (abort : Bool),
    (s.dev.chan chan).dis = .ending abort at_ tag → (s.dev.chan chan).done = (s.dev.chan chan).prod → 
      exec (.movDisabled chan) s = .next { s with dev := ((s.dev.updChan chan fun k => { k with dis := .disabled, done := k.prod, fetch := k.prod, starts := 0 }).flushPort chan).evt s.clk (s.dev.chanRing chan) (s.dev.chanRing chan) 0x0EA2 tag [(0, 2, chan), (2, 1, abort.toNat)] })

/-- MOV_CHAN_SET of a cluster-mover channel that is not configured and not Breano's stores its settings and enables it; MOV_CHAN_STATUS answers its registers; MOV_DISABLE begins its end at the present ATC and answers it, MOV_ENABLE enables a disabled channel, and MOV_RESUME with action retry ends its halt; MOV_FUNC_WINDOW stores the window, empty or in DRAM, of a function with no queue where no function has a window yet. Each clause ends in: exec of its command is a next state. So these commands complete: movChanSet, movChanStatus, movDisable, movEnable, movResume, movFuncWindow. [12_movers.md, R350, R354, R355, R363, R364, R365] -/
def Obligations.MoverCommands : Prop :=
  (∀ (s : State) (r : Req) (w : Waiting) (chan owner pool base log prio timed deadline srcBase srcSize dstBase dstSize : Nat),
    Waits s r 0x0E80 w → chan < 512 → breanoChan chan = false → (owner = 1 ∨ owner = 2) → pool < 64 → inMemory base (64 * 2 ^ log) = true → (3 ≤ log ∧ log ≤ 12) → prio ≤ 3 → timed ≤ 1 → deadline ≤ 1 → (s.dev.chan chan).dis = .off → 
      exec (.movChanSet r chan owner pool base log prio timed deadline srcBase srcSize dstBase dstSize) s = .next { s with dev := answered s.clk w (rOk) (noted (s.dev.updChan chan fun k => { k with owner := owner, pool := pool, base := base, log := log, prio := prio, timed := timed = 1, deadline := deadline = 1, srcWin := (srcBase, srcSize), dstWin := (dstBase, dstSize), dis := .on, stall := false, starts := 0 })) }) ∧
  (∀ (s : State) (r : Req) (w : Waiting) (chan : Nat),
    Waits s r 0x0E81 w → Fits w 31 → chan < 592 → w.func = 0 → 
      exec (.movChanStatus r chan) s = .next { s with dev := answered s.clk w (rOk [(2, (s.dev.chan chan).prod), (2, (s.dev.chan chan).fetch), (2, (s.dev.chan chan).done), (1, (s.dev.chan chan).state), (8, (s.dev.chan chan).errAddr), (2, (s.dev.chan chan).errDesc), (1, (s.dev.chan chan).errDir), (1, (s.dev.chan chan).errCause), (4, (s.dev.chan chan).errDone), (4, (s.dev.chan chan).missed), (4, (s.dev.chan chan).bad)]) s.dev }) ∧
  (∀ (s : State) (r : Req) (w : Waiting) (chan mode : Nat),
    Waits s r 0x0E82 w → Fits w 8 → chan < 592 → mode ≤ 1 → w.func = 0 → (s.dev.chan chan).dis.isEnding = false → 
      exec (.movDisable r chan mode) s = .next { s with dev := answered s.clk w (rAcc [(8, s.clk.atc)]) (noted (s.dev.updChan chan fun k => { k with dis := .ending (mode = 1) s.clk.atc w.tag, tdProd := k.prod })) }) ∧
  (∀ (s : State) (r : Req) (w : Waiting) (chan : Nat),
    Waits s r 0x0E83 w → chan < 592 → w.func = 0 → (s.dev.chan chan).dis = .disabled → 
      exec (.movEnable r chan) s = .next { s with dev := answered s.clk w (rOk) (noted (s.dev.updChan chan fun k => { k with dis := .on })) }) ∧
  (∀ (s : State) (r : Req) (w : Waiting) (chan action : Nat),
    Waits s r 0x0E84 w → chan < 592 → action = 1 → w.func = 0 → (s.dev.chan chan).halted = true → 
      exec (.movResume r chan action) s = .next { s with dev := answered s.clk w (rOk) (noted (s.dev.updChan chan fun k => { k with halted := false })) }) ∧
  (∀ (s : State) (r : Req) (w : Waiting) (func base size : Nat),
    Waits s r 0x0E85 w → func < 16 → (size = 0 ∨ (regionOf base = .dram ∧ regionOf (base + size - 1) = .dram)) → s.dev.mov.windows = [] → (∀ q ∈ List.range 64, tget 0xFF s.dev.host.qOwner q ≠ func) → 
      exec (.movFuncWindow r func base size) s = .next { s with dev := answered s.clk w (rOk) (noted (s.dev.updMov fun m => { m with windows := tset (0, 0) m.windows func (base, size) })) })

/-- A targeted DRAM test that passes is counted transient and one that fails is counted lasting, its row listed for repair; the splice table goes to flash; the scrubber passes over a clean word and corrects and counts a correctable one; an error period without an error ends; listed rows are repaired; the memory commands answer and store their settings; an injection into a clean word marks that word and no other; a splice takes the next spare row; an asked test waits with its command's tag. Each clause ends in: exec of its command is a next state. So these commands complete: memTested, spliceFlashWrite, scrubRead, memUePeriodEnd, memRepairDone, memGetMap, memPartitionSet, memScrubSet, memScrubStatus, memErrStats, memInject, memSpliceList, memSpliceAdd, memRepair, memSelftest. [13_memory_and_protection.md, R373, R379, R382, R383, R384, R386, R388, R641] -/
def Obligations.MemoryErrors : Prop :=
  (∀ (s : State) (kind unit : Nat) (failed : Bool),
    s.dev.mem.tests = [{ kind := kind, unit := unit }] → kind = 1 → failed = false → s.dev.mem.transients = [] → 
      ∃ t, exec (.memTested kind unit failed) s = .next t ∧
      t.dev.mem.tests = [] ∧ t.dev.mem.transients = [(1, unit, s.clk.atc)] ∧ tget {} t.dev.mem.stats 0 = { tget {} s.dev.mem.stats 0 with transient := satAdd 32 (tget {} s.dev.mem.stats 0).transient 1 } ∧
      t.dev.mem.cells = s.dev.mem.cells ∧ t.dev.mem.repair = s.dev.mem.repair) ∧
  (∀ (s : State) (kind unit : Nat) (failed : Bool),
    s.dev.mem.tests = [{ kind := kind, unit := unit }] → kind = 1 → failed = true → s.dev.mem.repair = [] → s.dev.mem.unrepairable = [] → 
      ∃ t, exec (.memTested kind unit failed) s = .next t ∧
      t.dev.mem.tests = [] ∧ t.dev.mem.repair = [unit] ∧ tget {} t.dev.mem.stats 0 = { tget {} s.dev.mem.stats 0 with lasting := satAdd 32 (tget {} s.dev.mem.stats 0).lasting 1 }) ∧
  (∀ (s : State) (at_ : Nat),
    s.dev.mem.spliceDue = some at_ → 
      exec (.spliceFlashWrite) s = .next { s with dev := s.dev.updMem fun m => { m with flashSplices := m.splices, spliceDue := none } }) ∧
  (∀ (s : State) (cls found : Nat) (x : Scrub),
    cls = 0 → s.dev.mem.scrubD = x → x.period ≠ 0 → x.pos + 1 < 2 ^ 32 → s.clk.atc ≤ x.start + 2 * periodTc 0 x.period → (memDomain (scrubAddr 0 x.pos)).all s.dev.awake = true → s.dev.mgmt.fatal = false → (tget {} s.dev.mem.ecc (scrubAddr 0 x.pos)).kind = .clean → found = 0 → 
      exec (.scrubRead cls found) s = .next { s with dev := s.dev.updMem fun m => { m with scrubD := { x with pos := x.pos + 1 } } }) ∧
  (∀ (s : State) (cls found : Nat) (x : Scrub),
    cls = 0 → s.dev.mem.scrubD = x → x.period ≠ 0 → x.pos + 1 < 2 ^ 32 → s.clk.atc ≤ x.start + 2 * periodTc 0 x.period → (memDomain (scrubAddr 0 x.pos)).all s.dev.awake = true → s.dev.mgmt.fatal = false → (tget {} s.dev.mem.ecc (scrubAddr 0 x.pos)).kind = .clean → found = 1 → 
      ∃ t, exec (.scrubRead cls found) s = .next t ∧
      t.dev.mem.scrubD.pos = x.pos + 1 ∧ (tget {} t.dev.mem.stats 0).ce = satAdd 32 (tget {} s.dev.mem.stats 0).ce 1 ∧ (tget {} t.dev.mem.ecc (scrubAddr 0 x.pos)).kind = .clean ∧ t.dev.mem.cells = s.dev.mem.cells) ∧
  (∀ (s : State) (cls : Nat) (q : UePeriod),
    tfind s.dev.mem.uePer cls = some q → q.start + 1966080 ≤ s.clk.atc → q.count = 0 → 
      exec (.memUePeriodEnd cls) s = .next { s with dev := s.dev.updMem fun m => { m with uePer := tdel m.uePer cls } }) ∧
  (∀ (s : State) (unrepairable : List Nat) (tag n : Nat),
    s.dev.mem.repairing = [(tag, n)] → s.dev.mem.repair.length ≤ n → unrepairable = [] → 
      ∃ t, exec (.memRepairDone unrepairable) s = .next t ∧
      t.dev.mem.repair = [] ∧ t.dev.mem.repairing = [] ∧ t.dev.mem.unrepairable = s.dev.mem.unrepairable ∧ t.dev.mem.cells = s.dev.mem.cells) ∧
  (∀ (s : State) (r : Req) (w : Waiting),
    Waits s r 0x0E01 w → Fits w 96 → 
      ∃ t, exec (.memGetMap r) s = .next t ∧
      t.dev = answered s.clk w s.dev.mem.mapReply s.dev) ∧
  (∀ (s : State) (r : Req) (w : Waiting) (harq stream : Nat),
    Waits s r 0x0E02 w → Fits w 96 → (8 ≤ harq ∧ harq ≤ 80) → (4 ≤ stream ∧ stream ≤ 32) → s.dev.air.carriers = [] → s.dev.eng.harq = [] → 
      ∃ t, exec (.memPartitionSet r harq stream) s = .next t ∧
      t.dev.mem = { s.dev.mem with harqGB := harq, streamGB := stream } ∧ Answers s t w ({ s.dev.mem with harqGB := harq, streamGB := stream } : Mem).mapReply) ∧
  (∀ (s : State) (r : Req) (w : Waiting) (cls period : Nat),
    Waits s r 0x0E03 w → cls = 0 → period ≤ 168 → 
      exec (.memScrubSet r cls period) s = .next { s with dev := answered s.clk w (rOk) (noted (s.dev.updMem fun m => { m with scrubD := { m.scrubD with period := period } })) }) ∧
  (∀ (s : State) (r : Req) (w : Waiting) (cls period : Nat),
    Waits s r 0x0E03 w → cls = 1 → period ≤ 60 → 
      exec (.memScrubSet r cls period) s = .next { s with dev := answered s.clk w (rOk) (noted (s.dev.updMem fun m => { m with scrubS := { m.scrubS with period := period } })) }) ∧
  (∀ (s : State) (r : Req) (w : Waiting) (cls : Nat),
    Waits s r 0x0E04 w → Fits w 12 → cls ≤ 1 → 
      exec (.memScrubStatus r cls) s = .next { s with dev := answered s.clk w (rOk [(2, (s.dev.mem.scrub cls).period), (2, (s.dev.mem.scrub cls).pos * 1000 / passWords cls), (8, (s.dev.mem.scrub cls).last)]) s.dev }) ∧
  (∀ (s : State) (r : Req) (w : Waiting) (cls : Nat) (x : MemStats),
    Waits s r 0x0E05 w → Fits w 36 → cls ≤ 2 → tget {} s.dev.mem.stats cls = x → 
      exec (.memErrStats r cls) s = .next { s with dev := answered s.clk w (rOk [(4, x.ce), (4, x.ue), (4, x.transient), (4, x.lasting), (4, x.unclassified), (4, x.injected), (4, x.spliced), (4, x.retired), (4, if cls = 0 then s.dev.mem.repair.length else 0)]) s.dev }) ∧
  (∀ (s : State) (r : Req) (w : Waiting) (addr kind : Nat),
    Waits s r 0x0E06 w → regionOf addr = .dram → kind = 0 → (tget {} s.dev.mem.ecc (addr / 32 * 32)).kind = .clean → (memDomain addr).all s.dev.awake = true → s.dev.mem.injPending < 64 → 
      ∃ t, exec (.memInject r addr kind) s = .next t ∧
      Answers s t w rOk ∧ tget {} t.dev.mem.ecc (addr / 32 * 32) = { kind := .ce, injected := true, pending := true } ∧ t.dev.mem.cells = s.dev.mem.cells ∧
      (∀ a, a ≠ addr / 32 * 32 → tget {} t.dev.mem.ecc a = tget {} s.dev.mem.ecc a)) ∧
  (∀ (s : State) (r : Req) (w : Waiting) (first count : Nat) (x : Splice),
    Waits s r 0x0E07 w → Fits w 8 → (count ≠ 0 ∧ count ≤ 64) → first = 0 → s.dev.mem.splices = [x] → 
      exec (.memSpliceList r first count) s = .next { s with dev := answered s.clk w (rOk [(8, x.macroNo % 2 ^ 20 + x.row % 2 ^ 12 * 2 ^ 20 + x.kind % 256 * 2 ^ 32 + x.spare % 256 * 2 ^ 40)]) s.dev }) ∧
  (∀ (s : State) (r : Req) (w : Waiting) (addr : Nat),
    Waits s r 0x0E08 w → Fits w 2 → regionOf addr = .sram → s.dev.mem.sparesUsed (macroOf addr) < 2 → s.dev.mem.splices.length < 4096 → 
      ∃ t, exec (.memSpliceAdd r addr) s = .next t ∧
      t.dev.mem.splices = s.dev.mem.splices ++ [{ macroNo := macroOf addr, row := rowNo addr, kind := 0, spare := s.dev.mem.sparesUsed (macroOf addr) }] ∧ t.dev.mem.spliceDue ≠ none) ∧
  (∀ (s : State) (r : Req) (w : Waiting),
    Waits s r 0x0E09 w → Fits w 4 → (s.dev.devmode.mode = .dormant ∨ s.dev.devmode.mode = .linetest) → 
      exec (.memRepair r) s = .next { s with dev := answered s.clk w (rAcc [(4, s.dev.mem.repair.length)]) (noted (s.dev.updMem fun m => { m with repairing := m.repairing ++ [(w.tag, m.repair.length - (m.repairing.map (·.2)).sum)] })) }) ∧
  (∀ (s : State) (r : Req) (w : Waiting) (addr core cls : Nat),
    Waits s r 0x0E0A w → cls = 0 → regionOf addr = .dram → (memDomain addr).all s.dev.awake = true → 
      exec (.memSelftest r addr core cls) s = .next { s with dev := answered s.clk w (rAcc) (noted (s.dev.updMem fun m => { m with tests := m.tests ++ [⟨1, addr / 256 * 256, some w.tag⟩] })) }) ∧
  (∀ (s : State) (r : Req) (w : Waiting) (addr core cls : Nat),
    Waits s r 0x0E0A w → cls = 3 → core < 1024 → s.dev.awake (core / 64) = true → 
      ∃ t, exec (.memSelftest r addr core cls) s = .next t ∧
      t.dev.mem.tests = s.dev.mem.tests ++ [⟨2, core, some w.tag⟩] ∧ Answers s t w rAcc)

/-- Each bring-up event takes a spoke from its state to the next one; skew in LOCK and a timeout of LOCK fail it, and it waits, longer each time; the wait's end starts it again; a CAP is sent with its sequence number; a CAP that arrives makes the agreement, a CONFIRM with another choice fails it and one with its choice and digest makes the spoke ACTIVE; hi_ber takes an ACTIVE spoke to TEST and tests its lane, and errors within the limit leave it; a clean test starts the retry wait and a test with errors retires the lane; a disable with no work left rests the spoke, and a resize that is ACTIVE is reported under its tag. Each clause ends in: exec of its command is a next state. So these commands complete: detectPulse, cdrLockHeld, pcsLock, coefficientUpdateRequest, bringupTimeout, retryWaitEnd, capFrameSend, cap, confirm, spokeFault, laneSelftestDone, spkDisabled, spkResized. [14_serial_spokes.md, R395, R398, R400, R401, R402, R403, R404, R406, R407] -/
def Obligations.SpokeBringUp : Prop :=
  (∀ (s : State) (spoke : Nat) (hit : Bool) (y : Spoke),
    s.dev.spoke spoke = some y → y.st = .detect → y.pulse = 0 → 
      exec (.detectPulse spoke hit) s = .next { s with dev := s.dev.updSpoke spoke fun y => if hit then { y with st := .train, since := s.clk.atc } else { y with pulse := s.clk.atc + 1 } }) ∧
  (∀ (s : State) (spoke : Nat) (y : Spoke),
    s.dev.spoke spoke = some y → y.st = .train → y.since + 1966080 ≤ s.clk.atc → 
      exec (.cdrLockHeld spoke) s = .next { s with dev := s.dev.updSpoke spoke fun y => { y with st := .lock, since := s.clk.atc } }) ∧
  (∀ (s : State) (spoke : Nat) (skewOk : Bool) (y : Spoke),
    s.dev.spoke spoke = some y → y.st = .lock → skewOk = true → y.profile = 1 → 
      exec (.pcsLock spoke skewOk) s = .next { s with dev := s.dev.updSpoke spoke fun y => { y with st := .exchange, since := s.clk.atc, nextSend := s.clk.atc, peerCap := [], agreed := none } }) ∧
  (∀ (s : State) (spoke : Nat) (skewOk : Bool) (y : Spoke),
    s.dev.spoke spoke = some y → y.st = .lock → skewOk = false → y.fails = 0 → 
      exec (.pcsLock spoke skewOk) s = .next { s with dev := s.dev.updSpoke spoke fun y => { y with st := .wait, since := s.clk.atc, waitEnd := s.clk.atc + 39321600, fails := 1, reason := 4 } }) ∧
  (∀ (s : State) (lane : Nat),
    
      exec (.coefficientUpdateRequest lane) s = .next s) ∧
  (∀ (s : State) (spoke : Nat) (y : Spoke),
    s.dev.spoke spoke = some y → y.st = .lock → y.since + 196608000 ≤ s.clk.atc → y.fails < 15 → 
      exec (.bringupTimeout spoke) s = .next { s with dev := s.dev.updSpoke spoke fun y => { y with st := .wait, since := s.clk.atc, waitEnd := s.clk.atc + 19660800 * 2 ^ min (y.fails + 1) 7, fails := y.fails + 1, reason := 3 } }) ∧
  (∀ (s : State) (spoke : Nat) (y : Spoke),
    s.dev.spoke spoke = some y → y.st = .lock → s.clk.atc < y.since + 196608000 → 
      exec (.bringupTimeout spoke) s = .next s) ∧
  (∀ (s : State) (spoke : Nat) (y : Spoke),
    s.dev.spoke spoke = some y → spoke < 128 → (y.st = .wait ∧ y.waitEnd ≤ s.clk.atc) → y.port = 2 → (s.dev.lane spoke).scan = none → 
      ∃ t, exec (.retryWaitEnd spoke) s = .next t ∧
      t.dev.spoke spoke = some { y with st := if s.dev.laneOptical spoke then .train else .detect, since := s.clk.atc, told := false, pulse := 0, fast := false, first := none, agreed := none, peerCap := [], window := false }) ∧
  (∀ (s : State) (spoke : Nat) (y : Spoke),
    s.dev.spoke spoke = some y → spoke < 128 → y.st = .exchange → y.nextSend ≤ s.clk.atc → 
      ∃ t, exec (.capFrameSend spoke) s = .next t ∧
      t.dev.spoke spoke = some { y with seq := (y.seq + 1) % 256, nextSend := s.clk.atc + 196608, ownCap := s.dev.capBody spoke y } ∧
      (t.dev.port spoke).queue = (s.dev.port spoke).queue ++ [{ cls := 3, bytes := be 6 (2 ^ 48 - 1) ++ be 6 (s.dev.port spoke).ownMac ++ be 2 0x88B5 ++ s.dev.handshakePayload spoke y, ready := s.clk.atc }]) ∧
  (∀ (s : State) (spoke : Nat) (payload : List Byte) (y : Spoke) (a : Agreement),
    s.dev.spoke spoke = some y → y.st = .exchange → y.agreed = none → y.first = none → payload.length = 64 → fieldAt payload 0 1 = 1 → fieldAt payload 1 1 = 1 → agree y (s.dev.capBody spoke y) ((payload.drop 4).take 28) = some a → 
      exec (.cap spoke payload) s = .next { s with dev := s.dev.updSpoke spoke fun y => { y with agreed := some a, peerCap := (payload.drop 4).take 28 } }) ∧
  (∀ (s : State) (spoke : Nat) (payload : List Byte) (y : Spoke) (a : Agreement),
    s.dev.spoke spoke = some y → y.st = .exchange → y.agreed = some a → payload.length = 64 → fieldAt payload 0 1 = 2 → fieldAt payload 1 1 = 1 → fieldAt payload 32 4 ≠ a.word → y.fails = 0 → 
      exec (.confirm spoke payload) s = .next { s with dev := s.dev.updSpoke spoke fun y => { y with st := .wait, since := s.clk.atc, waitEnd := s.clk.atc + 39321600, fails := 1, reason := 6 } }) ∧
  (∀ (s : State) (spoke : Nat) (payload : List Byte) (y : Spoke) (a : Agreement),
    s.dev.spoke spoke = some y → spoke < 128 → y.st = .exchange → y.agreed = some a → payload.length = 64 → fieldAt payload 0 1 = 2 → fieldAt payload 1 1 = 1 → fieldAt payload 32 4 = a.word → fieldAt payload 36 4 = digest (s.dev.capBody spoke y) y.peerCap → (a.fast = false ∨ y.fast = true) → 
      exec (.confirm spoke payload) s = .next { s with dev := (s.dev.updSpoke spoke fun y => { y with st := .active, since := s.clk.atc, agreed := some a, fails := 0, reason := 0, window := !y.timed }).evt0 s.clk 0x0780 0 [(0, 1, spoke), (1, 1, a.fast.toNat), (2, 1, a.fec)] }) ∧
  (∀ (s : State) (spoke kind ue : Nat) (y : Spoke),
    s.dev.spoke spoke = some y → spoke < 128 → y.st = .active → y.port = 2 → y.uncorr < 2 ^ 64 → kind = 1 → 
      ∃ t, exec (.spokeFault spoke kind ue) s = .next t ∧
      t.dev.spoke spoke = some { y with st := .test, since := s.clk.atc, reason := 9, window := false, ues := [] } ∧ (t.dev.lane spoke).testAt = s.clk.atc + 1 ∧ (t.dev.lane spoke).asked = none ∧ (t.dev.port spoke).queue = []) ∧
  (∀ (s : State) (spoke kind ue : Nat) (y : Spoke),
    s.dev.spoke spoke = some y → kind = 2 → ((y.seeUe s.clk.atc ue).ues.map (·.2)).sum ≤ y.ueLimit → 
      exec (.spokeFault spoke kind ue) s = .next s) ∧
  (∀ (s : State) (lane : Nat) (errors : Bool) (x : Lane) (y : Spoke),
    s.dev.lane lane = x → lane < 128 → x.testAt ≠ 0 → x.testAt + 19660800 ≤ s.clk.atc + 1 → errors = false → s.dev.mem.transients = [] → s.dev.spk.spokes = [(lane, y)] → (y.st = .test ∧ y.port = 2) → 
      ∃ t, exec (.laneSelftestDone lane errors) s = .next t ∧
      t.dev.lane lane = { x with testAt := 0, asked := none, retired := false } ∧ t.dev.spoke lane = some { y with st := .wait, since := s.clk.atc, waitEnd := s.clk.atc + 19660800 * 2 ^ min y.fails 7 }) ∧
  (∀ (s : State) (lane : Nat) (errors : Bool) (x : Lane),
    s.dev.lane lane = x → lane < 128 → x.testAt ≠ 0 → x.testAt + 19660800 ≤ s.clk.atc + 1 → x.scan = none → errors = true → 
      ∃ t, exec (.laneSelftestDone lane errors) s = .next t ∧
      (t.dev.lane lane) = { x with testAt := 0, asked := none, retired := true } ∧ bit (tget 0 t.dev.mgmt.trb (20 + lane / 32)).toNat 8 = true) ∧
  (∀ (s : State) (spoke tD tag : Nat) (abort : Bool) (y : Spoke),
    s.dev.spoke spoke = some y → spoke < 128 → (y.st = .active ∧ y.port = 2) → y.dis = .ending abort tD tag → y.resize = none → s.dev.portIdle spoke = true → (s.dev.lane spoke).scan = none → 
      ∃ t, exec (.spkDisabled spoke) s = .next t ∧
      t.dev.spoke spoke = some { y with st := .disabled, since := s.clk.atc, dis := .disabled, window := false, fast := false, agreed := none }) ∧
  (∀ (s : State) (spoke ty tag : Nat) (y : Spoke),
    s.dev.spoke spoke = some y → y.st = .active → y.resized = some (ty, tag) → 
      exec (.spkResized spoke) s = .next { s with dev := (s.dev.updSpoke spoke fun y => { y with resized := none }).evt0 s.clk 0x0786 tag [(0, 1, spoke), (1, 1, ty)] })

/-- A resting spoke of port type 2 takes its configuration, and a port type that is none is BADARG; a configured spoke is enabled, an unconfigured one answers BADSTATE; disable and resize are ACCEPTED and begin; status and latency answer the spoke's own values; a map takes an entry; a lane-table entry is applied and read; a free lane is looped, driven, checked, injected and tested, and one that is not free answers BADSTATE; the checker locks, loses lock, is read and cleared; an interval injects or is skipped; a scan begins, ends or is reported aborted, and its eye is read. Each clause ends in: exec of its command is a next state. So these commands complete: spkConfig, spkEnable, spkDisable, spkStatus, spkGetLatency, spkMapWrite, spkResize, laneTableApply, laneTableGet, laneLoop, lanePatgen, lanePatchk, laneInject, injectInterval, checkerLock, checkerLockLoss, laneChkRead, laneEyescan, eyeDone, laneEyeRead, laneSelftest. [14_serial_spokes.md, R389, R390, R396, R399, R408, R412, R413, R416, R417, R418, R423] -/
def Obligations.SpokeCommands : Prop :=
  (∀ (s : State) (r : Req) (w : Waiting) (spoke port profile fec rate cmp mRange domains timed ueLimit : Nat) (y : Spoke),
    Waits s r 0x0701 w → spoke < 128 → (port = 2 ∧ profile ≤ 1 ∧ fec ≤ 1 ∧ rate ≤ 1 ∧ cmp < 8 ∧ mRange = 0xA0 ∧ domains < 4 ∧ timed ≤ 1) → s.dev.spoke spoke = some y → s.dev.spk.spokes = [(spoke, y)] → y.resting = true → y.port = 2 → 
      exec (.spkConfig r spoke port profile fec rate cmp mRange domains timed ueLimit) s = .next { s with dev := answered s.clk w (rOk) (noted (s.dev.updSpk fun x => { x with spokes := tput x.spokes spoke { port := 2, profile := profile, fecPref := fec, fastOk := rate = 1, cmp := cmp, mRange := 0xA0, domains := domains, timed := timed = 1, ueLimit := ueLimit } })) }) ∧
  (∀ (s : State) (r : Req) (w : Waiting) (spoke port profile fec rate cmp mRange domains timed ueLimit : Nat),
    Waits s r 0x0701 w → spoke < 128 → (port = 0 ∨ 10 < port) → 
      ∃ t, exec (.spkConfig r spoke port profile fec rate cmp mRange domains timed ueLimit) s = .next t ∧
      Answers s t w (rBad 1)) ∧
  (∀ (s : State) (r : Req) (w : Waiting) (spoke : Nat) (y : Spoke),
    Waits s r 0x0702 w → spoke < 128 → s.dev.spk.spokes = [(spoke, y)] → y.resting = true → y.port = 2 → s.dev.laneBar spoke 25781250 = none → (s.dev.lane spoke).retired = false → (s.dev.lane spoke).scan = none → y.fast = false → 
      ∃ t, exec (.spkEnable r spoke) s = .next t ∧
      Answers s t w rOk ∧ t.dev.spoke spoke = some { y with dis := .on, fails := 0, reason := 0, st := if s.dev.laneOptical spoke then .train else .detect, since := s.clk.atc, told := false, pulse := 0, first := none, agreed := none, peerCap := [], window := false }) ∧
  (∀ (s : State) (r : Req) (w : Waiting) (spoke : Nat),
    Waits s r 0x0702 w → spoke < 128 → s.dev.spk.spokes = [] → 
      exec (.spkEnable r spoke) s = .next { s with dev := answered s.clk w (rSt 0x0022) s.dev }) ∧
  (∀ (s : State) (r : Req) (w : Waiting) (spoke mode : Nat) (y : Spoke),
    Waits s r 0x0703 w → Fits w 8 → spoke < 128 → mode = 0 → s.dev.spk.spokes = [(spoke, y)] → y.st = .active → y.dis = .on → y.port = 2 → 
      exec (.spkDisable r spoke mode) s = .next { s with dev := answered s.clk w (rAcc [(8, s.clk.atc)]) (noted (s.dev.updSpoke spoke fun y => { y with dis := .ending false s.clk.atc w.tag })) }) ∧
  (∀ (s : State) (r : Req) (w : Waiting) (spoke : Nat),
    Waits s r 0x0704 w → Fits w 64 → spoke < 128 → s.dev.liveSpoke spoke = none → 
      exec (.spkStatus r spoke) s = .next { s with dev := answered s.clk w (rOk [(64, 0)]) s.dev }) ∧
  (∀ (s : State) (r : Req) (w : Waiting) (spoke : Nat) (y : Spoke) (a : Agreement),
    Waits s r 0x0704 w → Fits w 64 → spoke < 128 → s.dev.liveSpoke spoke = some y → y.agreed = some a → 
      exec (.spkStatus r spoke) s = .next { s with dev := answered s.clk w (rOk [(1, y.st.code), (1, y.reason), (1, y.fails), (1, a.fast.toNat), (1, a.fec), (1, a.cmp), (1, a.mLo + 16 * a.mHi), (1, a.domains), (4, fieldAt y.peerCap 8 4), (4, fieldAt y.peerCap 12 4), (8, fieldAt y.peerCap 20 8), (8, y.corr), (8, y.uncorr), (8, y.mismatch), (8, y.winDrop), (8, y.winBad)]) s.dev }) ∧
  (∀ (s : State) (r : Req) (w : Waiting) (spoke : Nat) (y : Spoke),
    Waits s r 0x0705 w → Fits w 16 → spoke < 128 → s.dev.liveSpoke spoke = some y → y.st = .active → (y.port = 2 ∧ y.fast = false) → (y.agreed.map (·.fec)) = some 0 → 
      exec (.spkGetLatency r spoke) s = .next { s with dev := answered s.clk w (rOk [(8, roundEven (30 * 196608 * 65536) 100000), (8, roundEven (42 * 196608 * 65536) 100000)]) s.dev }) ∧
  (∀ (s : State) (r : Req) (w : Waiting) (spoke first count e : Nat) (entries : List Nat) (y : Spoke),
    Waits s r 0x0706 w → spoke < 128 → (first < 256 ∧ count = 1 ∧ entries = [e]) → bits e 14 2 = 0 → s.dev.liveSpoke spoke = some y → s.dev.mapFault spoke [MapEntry.of e] (if y.profile = 1 && y.agreed.isNone then y.domains else (y.agreed.getD y.standard).domains) = none → ((MapEntry.of e).tx = false ∧ (MapEntry.of e).rx = true) → (s.dev.mapLoad spoke (tput (s.dev.mapOf spoke).latest first (MapEntry.of e)) * 100) ≤ y.rate.1 * 1000000 / max y.rate.2 1 * 95 → 
      ∃ t, exec (.spkMapWrite r spoke first count entries) s = .next t ∧
      Answers s t w rOk ∧ (t.dev.mapOf spoke).latest = tput (s.dev.mapOf spoke).latest first (MapEntry.of e) ∧ (t.dev.mapOf spoke).act = (s.dev.mapOf spoke).act) ∧
  (∀ (s : State) (r : Req) (w : Waiting) (spoke port : Nat) (y : Spoke),
    Waits s r 0x0707 w → Fits w 8 → spoke < 128 → port = 1 → s.dev.spk.spokes = [(spoke, y)] → (y.st = .active ∧ y.dis = .on ∧ y.port = 2 ∧ y.profile = 1) → s.dev.laneOptical spoke = false → 
      ∃ t, exec (.spkResize r spoke port) s = .next t ∧
      Answers s t w (rAcc [(8, s.clk.atc)]) ∧ t.dev.spoke spoke = some { y with dis := .ending false s.clk.atc w.tag, resize := some 1 }) ∧
  (∀ (s : State) (r : Req) (w : Waiting) (first count : Nat) (entries : List Byte),
    Waits s r 0x0710 w → (first + count ≤ 128 ∧ first < 128) → entries.length = 48 * count → count = 1 → laneEntryFault first entries = none → s.dev.spk.spokes = [] → s.dev.pkg.blobFlash = none → s.dev.truing.units = [] → 
      exec (.laneTableApply r first count entries) s = .next { s with dev := answered s.clk w (rOk) (noted (s.dev.updSpk fun x => { x with table := x.table.take (48 * first) ++ entries ++ x.table.drop (48 * (first + 1)) })) }) ∧
  (∀ (s : State) (r : Req) (w : Waiting) (lane : Nat),
    Waits s r 0x0711 w → Fits w 48 → lane < 128 → 
      ∃ t, exec (.laneTableGet r lane) s = .next t ∧
      t.dev = answered s.clk w { status := stOK, payload := (s.dev.laneEntry lane ++ List.replicate 48 0).take 48 } s.dev) ∧
  (∀ (s : State) (r : Req) (w : Waiting) (lane loop echo : Nat),
    Waits s r 0x0712 w → (lane < 128 ∧ loop ≤ 3 ∧ echo ≤ 1) → s.dev.laneFree lane = true → 
      exec (.laneLoop r lane loop echo) s = .next { s with dev := answered s.clk w (rOk) (noted (s.dev.updLane lane fun x => { x with loop := loop, echo := echo = 1 })) }) ∧
  (∀ (s : State) (r : Req) (w : Waiting) (lane loop echo : Nat),
    Waits s r 0x0712 w → (lane < 128 ∧ loop ≤ 3 ∧ echo ≤ 1) → s.dev.laneFree lane = false → 
      ∃ t, exec (.laneLoop r lane loop echo) s = .next t ∧
      Answers s t w (rSt 0x0022)) ∧
  (∀ (s : State) (r : Req) (w : Waiting) (lane pat inv user raw : Nat),
    Waits s r 0x0713 w → (lane < 128 ∧ pat ≤ 6 ∧ inv ≤ 1) → raw = 0 → (s.dev.lane lane).raw = 0 → s.dev.laneFree lane = true → 
      exec (.lanePatgen r lane pat inv user raw) s = .next { s with dev := answered s.clk w (rOk) (noted (s.dev.updLane lane fun x => { x with gen := { pat := pat, inv := inv = 1, user := user } })) }) ∧
  (∀ (s : State) (r : Req) (w : Waiting) (lane pat inv user enable : Nat),
    Waits s r 0x0714 w → (lane < 128 ∧ pat ≤ 6 ∧ inv ≤ 1 ∧ enable ≤ 1) → (s.dev.lane lane).locked = false → s.dev.laneFree lane = true → 
      exec (.lanePatchk r lane pat inv user enable) s = .next { s with dev := answered s.clk w (rOk) (noted (s.dev.updLane lane fun x => { x with chk := { pat := pat, inv := inv = 1, user := user }, chkOn := enable = 1, locked := false })) }) ∧
  (∀ (s : State) (r : Req) (w : Waiting) (lane point len every : Nat),
    Waits s r 0x0715 w → (lane < 128 ∧ point = 0 ∧ 1 ≤ len ∧ len ≤ 64) → (every = 0 ∨ 1024 ≤ every ∧ every ≤ 2 ^ 40) → s.dev.laneFree lane = true → 
      exec (.laneInject r lane point len every) s = .next { s with dev := answered s.clk w (rOk) (noted (s.dev.updLane lane fun x => { x with injPoint := 0, injLen := len, injEvery := every, injected := x.injected + 1 })) }) ∧
  (∀ (s : State) (lane : Nat) (overlap : Bool),
    (s.dev.lane lane).injLen ≠ 0 → (s.dev.lane lane).injEvery ≠ 0 → 
      exec (.injectInterval lane overlap) s = .next { s with dev := s.dev.updLane lane fun x => if overlap then { x with skipped := min (x.skipped + 1) (2 ^ 32 - 1) } else { x with injected := x.injected + 1 } }) ∧
  (∀ (s : State) (lane : Nat),
    (s.dev.lane lane).chkOn = true → (s.dev.lane lane).locked = false → 
      exec (.checkerLock lane) s = .next { s with dev := s.dev.updLane lane fun x => { x with locked := true, lockAt := s.clk.atc } }) ∧
  (∀ (s : State) (lane : Nat),
    (s.dev.lane lane).locked = true → 
      ∃ t, exec (.checkerLockLoss lane) s = .next t ∧
      (t.dev.lane lane).locked = false ∧ (t.dev.lane lane).nLoss = min ((s.dev.lane lane).nLoss + 1) (2 ^ 48 - 1) ∧ (t.dev.lane lane).lockAt = s.clk.atc ∧
      (t.dev.lane lane).nBits = min ((s.dev.lane lane).nBits + (s.clk.atc - (s.dev.lane lane).lockAt) * (s.dev.laneSpeed lane).1 / 1966080) (2 ^ 48 - 1)) ∧
  (∀ (s : State) (r : Req) (w : Waiting) (lane clear : Nat) (x : Lane),
    Waits s r 0x0716 w → Fits w 37 → lane < 128 → clear = 1 → s.dev.lane lane = x → x.locked = false → 
      exec (.laneChkRead r lane clear) s = .next { s with dev := answered s.clk w (rOk [(1, 0), (8, x.nBits), (8, x.nErr), (8, x.nSym), (8, x.nLoss), (4, x.skipped)]) (s.dev.updLane lane fun y => { y with nBits := 0, nErr := 0, nSym := 0, nLoss := 0 }) }) ∧
  (∀ (s : State) (r : Req) (w : Waiting) (lane kind n : Nat),
    Waits s r 0x0717 w → (lane < 128 ∧ kind ≤ 1 ∧ 6 ≤ n ∧ n ≤ 12) → s.dev.laneSpeed lane = (25781250, false) → (s.dev.lane lane).scan = none → 
      exec (.laneEyescan r lane kind n) s = .next { s with dev := answered s.clk w (rAcc) (noted (s.dev.updLane lane fun y => { y with scan := some { kind := kind, n := n, tag := w.tag, ends := s.clk.atc + ((if kind = 1 then 8192 else 192) * 3 * 10 ^ n * 1966080 + 25781249) / 25781250 } })) }) ∧
  (∀ (s : State) (lane : Nat) (x : Scan),
    (s.dev.lane lane).scan = some x → x.aborted = true → 
      exec (.eyeDone lane) s = .next { s with dev := (s.dev.updLane lane fun y => { y with scan := none }).evt0 s.clk 0x0783 x.tag [(0, 1, lane), (1, 1, 1)] }) ∧
  (∀ (s : State) (lane : Nat) (x : Scan),
    (s.dev.lane lane).scan = some x → x.aborted = false → x.ends ≤ s.clk.atc → x.kind = 0 → 
      ∃ t, exec (.eyeDone lane) s = .next t ∧
      (t.dev.lane lane).scan = none ∧ ((t.dev.lane lane).eye.map fun e => (e.kind, e.atc, e.map)) = some (0, s.clk.atc, []) ∧ t.dev.free = s.dev.free + 2) ∧
  (∀ (s : State) (r : Req) (w : Waiting) (lane : Nat) (e : Eye),
    Waits s r 0x0718 w → Fits w 26 → lane < 128 → (s.dev.lane lane).eye = some e → e.eyes = [(3, 4, 5, 6)] → bit w.flags 0 = false → 
      exec (.laneEyeRead r lane) s = .next { s with dev := answered s.clk w (rOk [(2, 3), (2, 4), (1, 5), (1, 6), (6, 0), (6, 0), (8, e.atc)]) s.dev }) ∧
  (∀ (s : State) (r : Req) (w : Waiting) (lane : Nat),
    Waits s r 0x0719 w → lane < 128 → s.dev.laneFree lane = true → 
      exec (.laneSelftest r lane) s = .next { s with dev := answered s.clk w (rAcc) (noted (s.dev.updLane lane fun x => { x with testAt := s.clk.atc + 1, asked := some w.tag })) })

/-- A frame with a bad FCS is counted and dropped and a good PAUSE frame stops the port for its time; pauses end; stream frames held too long are dropped; the next frame starts, padded and with its FCS, and its end is set; underrun ends a frame, counts and raises START_TH by 128; with few buffers left PFC is sent; an idle port enters low-power idle, counted, and leaves it after TW; an unanswered delay measurement is reported under its tag; replaced steering is kept 1 ms; Breano's PTP message is queued. Each clause ends in: exec of its command is a next state. So these commands complete: frameReceive, pauseExpire, streamHoldExpire, frameTransmit, txUnderrun, pfcSend, lpiEnter, lpiWake, delayMeasurementTimeout, steerKeepExpire, ptpEventMessage. [15_frame_mac.md, R426, R436, R441, R444, R445, R447, R448, R449, R450, R451, R435] -/
def Obligations.MacTraffic : Prop :=
  (∀ (s : State) (port fecCorr fecUe : Nat) (frame : List Byte) (symErr : Bool) (y : Spoke),
    port < 128 → s.dev.liveSpoke port = some y → y.st = .active → y.dis.isEnding = false → s.dev.awake (spkBlock port) = true → fcs (frame.take (frame.length - 4)) ≠ frame.drop (frame.length - 4) → (s.dev.port port).keepBad = false → 
      ∃ t, exec (.frameReceive port frame symErr fecCorr fecUe) s = .next t ∧
      tget 0 (t.dev.port port).stats 0 = satAdd 64 (tget 0 (s.dev.port port).stats 0) 1 ∧ tget 0 (t.dev.port port).stats 4 = satAdd 64 (tget 0 (s.dev.port port).stats 4) 1 ∧ tget 0 (t.dev.port port).stats 1 = satAdd 64 (tget 0 (s.dev.port port).stats 1) frame.length ∧
      (t.dev.port port).pause = (s.dev.port port).pause ∧ (t.dev.port port).queue = (s.dev.port port).queue ∧ t.dev.host = s.dev.host) ∧
  (∀ (s : State) (port fecCorr fecUe : Nat) (frame : List Byte) (symErr : Bool) (y : Spoke),
    port < 128 → s.dev.liveSpoke port = some y → y.st = .active → y.dis.isEnding = false → s.dev.awake (spkBlock port) = true → frame.length = 64 → fcs (frame.take 60) = frame.drop 60 → symErr = false → 64 ≤ (s.dev.port port).maxFrame → (s.dev.port port).accept (fieldBe frame 0 6) = .yes → fieldBe frame 12 2 = 0x8808 → fieldBe frame 14 2 = 1 → (s.dev.port port).rxPause = true → (s.dev.port port).vlanCheck = false → (s.dev.port port).pause.length = 9 → fieldBe frame 16 2 ≠ 0 → 
      ∃ t, exec (.frameReceive port frame symErr fecCorr fecUe) s = .next t ∧
      (t.dev.port port).pause = (s.dev.port port).pause.set 8 (s.clk.atc + y.bitsTc (512 * fieldBe frame 16 2)) ∧ tget 0 (t.dev.port port).stats 17 = satAdd 64 (tget 0 (s.dev.port port).stats 17) 1 ∧ t.dev.host = s.dev.host) ∧
  (∀ (s : State) (port prio : Nat),
    prio < 9 → (s.dev.port port).pause.getD prio 0 ≤ s.clk.atc → (s.dev.port port).queue = [] → (s.dev.port port).heldAt = 0 → 
      exec (.pauseExpire port prio) s = .next { s with dev := s.dev.updPort port fun p => { p with pause := p.pause.set prio 0 } }) ∧
  (∀ (s : State) (port : Nat),
    
      ∃ t, exec (.streamHoldExpire port) s = .next t ∧
      (t.dev.port port).queue = (s.dev.port port).queue.filter (fun f => !(f.cls = 2 && (s.dev.port port).hold * 196608 ≤ (s.clk.atc - f.ready) * 100)) ∧ (t.dev.port port).sent = (s.dev.port port).sent ∧ (t.dev.port port).busy = (s.dev.port port).busy) ∧
  (∀ (s : State) (port : Nat) (y : Spoke) (f : TxFrame),
    s.dev.spoke port = some y → y.st = .active → (s.dev.port port).busy = none → (s.dev.port port).lpi = 0 → (s.dev.port port).heldAt = 0 → s.dev.idleOnly = false → (s.dev.port port).queue = [f] → f.cls = 1 → f.insert = 0 → 
      ∃ t, exec (.frameTransmit port) s = .next t ∧
      (t.dev.port port).queue = [] ∧ (t.dev.port port).sent = (f.bytes ++ List.replicate (60 - f.bytes.length) 0) ++ fcs (f.bytes ++ List.replicate (60 - f.bytes.length) 0) ∧ (t.dev.port port).sentBad = false ∧
      (t.dev.port port).busy = some ({ f with depart := s.clk.instant + y.bitsFine 64 + y.lats.1 }, s.clk.atc + y.bitsTc (8 * (max f.bytes.length 60 + 24)))) ∧
  (∀ (s : State) (port e : Nat) (f : TxFrame),
    (s.dev.port port).busy = some (f, e) → s.clk.atc < e → (s.dev.port port).startTh < (s.dev.port port).maxFrame → (s.dev.port port).startTh < f.bytes.length → 
      ∃ t, exec (.txUnderrun port) s = .next t ∧
      (t.dev.port port).busy = none ∧ (t.dev.port port).sentBad = true ∧ (t.dev.port port).startTh = (s.dev.port port).startTh + 128 ∧ tget 0 (t.dev.port port).stats 16 = satAdd 64 (tget 0 (s.dev.port port).stats 16) 1 ∧ (t.dev.port port).queue = (s.dev.port port).queue) ∧
  (∀ (s : State) (port : Nat) (y : Spoke),
    s.dev.liveSpoke port = some y → (y.st = .active ∧ y.dis = .on) → s.dev.awake (spkBlock port) = true → (s.dev.port port).txPfc ≠ 0 → (s.dev.port port).rxChan ≠ 0xFFFF → s.dev.posted (s.dev.port port).rxChan < 8 → (s.dev.port port).pfcAt = none → 
      ∃ t, exec (.pfcSend port) s = .next t ∧
      (t.dev.port port).queue = (s.dev.port port).queue ++ [{ cls := 1, bytes := (s.dev.port port).pfcFrame (s.dev.port port).txPfc 0xFFFF, ready := s.clk.atc }] ∧ (t.dev.port port).pfcAt = some s.clk.atc) ∧
  (∀ (s : State) (port : Nat) (y : Spoke),
    s.dev.liveSpoke port = some y → y.st = .active → (s.dev.port port).lpiEn = true → (s.dev.port port).tw.isSome = true → (s.dev.port port).lpi = 0 → (s.dev.port port).queue = [] → (s.dev.port port).busy = none → (s.dev.port port).lpiAt + usTc (s.dev.port port).lpiIdle ≤ s.clk.atc → 
      ∃ t, exec (.lpiEnter port) s = .next t ∧
      (t.dev.port port).lpi = 1 ∧ (t.dev.port port).lpiAt = s.clk.atc ∧ tget 0 (t.dev.port port).stats 21 = satAdd 64 (tget 0 (s.dev.port port).stats 21) 1) ∧
  (∀ (s : State) (port : Nat),
    (s.dev.port port).lpi = 2 → (s.dev.port port).lpiAt + usTc ((s.dev.port port).tw.getD 0) ≤ s.clk.atc → 
      ∃ t, exec (.lpiWake port) s = .next t ∧
      (t.dev.port port).lpi = 0 ∧ (t.dev.port port).lpiAt = s.clk.atc ∧ (t.dev.port port).queue = (s.dev.port port).queue) ∧
  (∀ (s : State) (port : Nat) (m : DelayMeas),
    (s.dev.port port).meas = some m → m.start + 19660800 ≤ s.clk.atc → 
      exec (.delayMeasurementTimeout port) s = .next { s with dev := (s.dev.updPort port fun p => { p with meas := none }).evt0 s.clk 0x0881 m.tag [(0, 1, port), (1, 1, m.id), (2, 1, 1), (8, 8, 0)] }) ∧
  (∀ (s : State) (port : Nat) (o : Nat × List (Nat × Nat × Nat)),
    port < 128 → (s.dev.port port).oldSteer = some o → o.1 + 1966080 ≤ s.clk.atc → 
      exec (.steerKeepExpire port) s = .next { s with dev := s.dev.updPort port fun p => { p with oldSteer := none } }) ∧
  (∀ (s : State) (port : Nat) (event : Bool) (frame : List Byte) (y : Spoke),
    s.dev.spoke port = some y → (y.st = .active ∧ y.dis = .on) → s.dev.awake (spkBlock port) = true → s.dev.time.tports = [port] → s.dev.time.set.profile ≠ 0 → s.dev.time.set.roles = [(1, 0)] → s.dev.devmode.mode ≠ .stoker → 14 ≤ frame.length → fieldBe frame 12 2 ≠ 0x8100 → 
      ∃ t, exec (.ptpEventMessage port event frame) s = .next t ∧
      (t.dev.port port).queue = (s.dev.port port).queue ++ [{ cls := 3, bytes := frame, ready := s.clk.atc, insert := if event then 1 else 0 }])

/-- On a configured port MAC_PORT_SET, MAC_FILTER_SET, MAC_FLOW_SET, MAC_LPI_SET and MAC_QUEUE_SET set what they name and leave the port's other settings; a steering entry goes to SHADOW; START_TH is answered and reset; counters are answered and cleared; a delay measurement sends its request; the port's status is answered; without the spoke MAC_PORT_SET answers BADSTATE. Each clause ends in: exec of its command is a next state. So these commands complete: macPortSet, macFilterSet, macFlowSet, macLpiSet, macQueueSet, macSteerWrite, macTxthreshReset, macGetStats, macDelayMeasure, macPortStatus. [15_frame_mac.md, R425, R428, R433, R435, R436, R442, R446, R450, R451, R452, R453] -/
def Obligations.MacCommands : Prop :=
  (∀ (s : State) (r : Req) (w : Waiting) (port ownMac peerMac tci transport ownIp peerIp udp dscp maxFrame seg : Nat) (y : Spoke),
    Waits s r 0x0801 w → port < 128 → s.dev.liveSpoke port = some y → (transport ≤ 2 ∧ dscp < 64 ∧ 1518 ≤ maxFrame ∧ maxFrame ≤ 9600 ∧ seg % 16 = 0 ∧ 16 ≤ seg ∧ seg ≤ 2048) → headerLen transport tci + seg / 16 * 65 ≤ maxFrame → s.dev.mapActive port = false → 
      exec (.macPortSet r port ownMac peerMac tci transport ownIp peerIp udp dscp maxFrame seg) s = .next { s with dev := answered s.clk w (rOk) (noted (s.dev.updPort port fun p => { p with ownMac := ownMac, peerMac := peerMac, tci := tci, transport := transport, ownIp := ownIp, peerIp := peerIp, udp := udp, dscp := dscp, maxFrame := maxFrame, seg := seg })) }) ∧
  (∀ (s : State) (r : Req) (w : Waiting) (port ownMac peerMac tci transport ownIp peerIp udp dscp maxFrame seg : Nat),
    Waits s r 0x0801 w → port < 128 → s.dev.liveSpoke port = none → 
      exec (.macPortSet r port ownMac peerMac tci transport ownIp peerIp udp dscp maxFrame seg) s = .next { s with dev := answered s.clk w (rSt 0x0022) s.dev }) ∧
  (∀ (s : State) (r : Req) (w : Waiting) (port enable prom allmc keepBad vlanCheck : Nat) (addrs : List Nat) (y : Spoke),
    Waits s r 0x0802 w → port < 128 → s.dev.liveSpoke port = some y → (addrs.length = 16 ∧ prom ≤ 1 ∧ allmc ≤ 1 ∧ keepBad ≤ 1 ∧ vlanCheck ≤ 1) → 
      exec (.macFilterSet r port enable addrs prom allmc keepBad vlanCheck) s = .next { s with dev := answered s.clk w (rOk) (noted (s.dev.updPort port fun p => { p with fltOn := enable, flt := addrs, prom := prom = 1, allmc := allmc = 1, keepBad := keepBad = 1, vlanCheck := vlanCheck = 1 })) }) ∧
  (∀ (s : State) (r : Req) (w : Waiting) (port rxPause pfcRx txPfc hold : Nat) (y : Spoke),
    Waits s r 0x0803 w → port < 128 → s.dev.liveSpoke port = some y → (rxPause ≤ 1 ∧ hold ≤ 500) → bit txPfc ((s.dev.port port).tci / 8192) = false → (s.dev.port port).queue = [] → (s.dev.port port).heldAt = 0 → 
      exec (.macFlowSet r port rxPause pfcRx txPfc hold) s = .next { s with dev := answered s.clk w (rOk) (noted (s.dev.updPort port fun p => { p with rxPause := rxPause = 1, pfcRx := pfcRx, txPfc := txPfc, hold := hold })) }) ∧
  (∀ (s : State) (r : Req) (w : Waiting) (port en idle : Nat) (y : Spoke),
    Waits s r 0x0804 w → port < 128 → s.dev.liveSpoke port = some y → y.port = 2 → en = 1 → (1 ≤ idle ∧ idle ≤ 1000) → 
      exec (.macLpiSet r port en idle) s = .next { s with dev := answered s.clk w (rOk) (noted (s.dev.updPort port fun p => { p with lpiEn := true, lpiIdle := idle })) }) ∧
  (∀ (s : State) (r : Req) (w : Waiting) (port rx tx : Nat) (y : Spoke),
    Waits s r 0x0805 w → port < 128 → s.dev.liveSpoke port = some y → (512 ≤ rx ∧ rx < 576 ∧ tx = 0xFFFF) → s.dev.chanFunc rx = 0 → (s.dev.chan rx).dis = .off → 
      exec (.macQueueSet r port rx tx) s = .next { s with dev := answered s.clk w (rOk) (noted (s.dev.updPort port fun p => { p with rxChan := rx, txChan := 0xFFFF })) }) ∧
  (∀ (s : State) (r : Req) (w : Waiting) (port first count e : Nat) (entries : List Nat) (y : Spoke),
    Waits s r 0x0806 w → port < 128 → s.dev.liveSpoke port = some y → (first < 256 ∧ count = 1 ∧ entries = [e]) → bits e 27 5 = 0 → 
      ∃ t, exec (.macSteerWrite r port first count entries) s = .next t ∧
      Answers s t w rOk ∧ (t.dev.steerOf port).latest = tput (s.dev.steerOf port).latest first (bits e 0 16, bits e 16 11) ∧ (t.dev.steerOf port).act = (s.dev.steerOf port).act) ∧
  (∀ (s : State) (r : Req) (w : Waiting) (port : Nat) (y : Spoke),
    Waits s r 0x0807 w → Fits w 2 → port < 128 → s.dev.liveSpoke port = some y → (s.dev.port port).raisedAt ≠ s.clk.atc + 1 → 
      exec (.macTxthreshReset r port) s = .next { s with dev := answered s.clk w (rOk [(2, (s.dev.port port).startTh)]) (noted (s.dev.updPort port fun p => { p with startTh := 256 })) }) ∧
  (∀ (s : State) (r : Req) (w : Waiting) (port clear : Nat) (y : Spoke),
    Waits s r 0x0808 w → Fits w 224 → port < 128 → s.dev.liveSpoke port = some y → clear = 1 → (s.dev.port port).queue = [] → (s.dev.port port).heldAt = 0 → (s.dev.port port).lpi ≠ 1 → tget [] s.dev.cyc.mac port = (s.dev.port port).stats → 
      ∃ t, exec (.macGetStats r port clear) s = .next t ∧
      Answers s t w (rOk ((List.range 28).map fun i => (8, tget 0 (s.dev.port port).stats i))) ∧ t.dev.port port = { s.dev.port port with stats := [] }) ∧
  (∀ (s : State) (r : Req) (w : Waiting) (port two id : Nat) (y : Spoke),
    Waits s r 0x0809 w → port < 128 → s.dev.liveSpoke port = some y → y.dis = .on → s.dev.awake (spkBlock port) = true → two = 0 → (s.dev.port port).meas = none → 
      ∃ t, exec (.macDelayMeasure r port two id) s = .next t ∧
      Answers s t w rAcc ∧ (t.dev.port port).meas = some { id := id, two := false, start := s.clk.atc, tag := w.tag } ∧ (t.dev.port port).queue = (s.dev.port port).queue ++ [{ cls := 3, bytes := (s.dev.port port).wrap (delayMsg id 0 0 0), ready := s.clk.atc, insert := 2, pcp := if fieldBe ((s.dev.port port).wrap (delayMsg id 0 0 0)) 12 2 = 0x8100 then fieldBe ((s.dev.port port).wrap (delayMsg id 0 0 0)) 14 2 / 8192 else 0 }]) ∧
  (∀ (s : State) (r : Req) (w : Waiting) (port : Nat) (y : Spoke),
    Waits s r 0x080A w → Fits w 8 → port < 128 → s.dev.liveSpoke port = some y → (s.dev.port port).pause = List.replicate 9 0 → (s.dev.port port).lpiEn = false → 
      exec (.macPortStatus r port) s = .next { s with dev := answered s.clk w (rOk [(2, (s.dev.port port).startTh), (1, 0), (1, 0), (2, (s.dev.port port).tw.getD 0), (2, (s.dev.shadow 3 port).seq)]) s.dev })

/-- A superframe's start sets the header of a running full-duplex pair; a sync match within tolerance makes a candidate and one beyond it none; a good header starts a burst, a bad one is counted, and a burst ends; a bad link frame is counted, a DETECT_REPLY takes a pair to PROBE; the timeout of ECHO waits, longer each time; a swap writes a new table and awaits its TABLE_ACK; a mean margin below 0 dB takes an ACTIVE spoke down and tests its pair, and a passed test waits; a disable with nothing to send rests the spoke; a pair change and a qualification end with their events. Each clause ends in: exec of its command is a next state. So these commands complete: lineSuperframe, syncMatch, headerDecision, burstEnd, linkFrameReceive, copBringupTimeout, autoSwap, copDown, pairSelftestDone, copDisabled, copPairsDone, copQualifyDone. [16_copper_spokes.md, R466, R472, R478, R480, R481, R482, R486, R487, R488, R489, R490] -/
def Obligations.CopperLine : Prop :=
  (∀ (s : State) (spoke echo : Nat) (y : CopSpoke),
    (128 ≤ spoke ∧ spoke < 144) → s.dev.copper spoke = some y → (y.dis = .on ∧ y.mode = 0 ∧ y.mask = 1 ∧ y.change = none ∧ y.active = false ∧ y.queue = [] ∧ y.part = []) → (s.dev.pair (4 * (spoke - 128))).st = .active → (s.dev.pair (4 * (spoke - 128))).swapAt = none → y.frame ≠ (s.clk.atc + y.lineAdv) / 19660800 + 1 → 
      ∃ t, exec (.lineSuperframe spoke echo) s = .next t ∧
      t.dev.copper spoke = some { y with frame := (s.clk.atc + y.lineAdv) / 19660800 + 1, sent := [] } ∧
      (t.dev.pair (4 * (spoke - 128))).header = headerBits 0 0 1022 ((s.dev.shadow 5 (4 * (spoke - 128))).seq % 16) ((s.dev.shadow 5 (4 * (spoke - 128))).seq % 16)) ∧
  (∀ (s : State) (pair q errs power : Nat) (y : CopSpoke),
    s.dev.pairSpoke pair = some y → y.mode = 0 → (q + y.lineAdv) % 19660800 = 0 → q + 19200 ≤ s.clk.atc → errs ≤ y.syncTol → (s.dev.pair pair).st = .active → 
      exec (.syncMatch pair q errs power) s = .next { s with dev := s.dev.updPair pair fun p => { p with cand := some { q := q, errs := errs, strength := levelOf power 4 } } }) ∧
  (∀ (s : State) (pair q errs power : Nat) (y : CopSpoke),
    s.dev.pairSpoke pair = some y → y.syncTol < errs → 
      exec (.syncMatch pair q errs power) s = .next s) ∧
  (∀ (s : State) (pair header : Nat) (y : CopSpoke) (o : SyncCand),
    s.dev.pairSpoke pair = some y → y.mode = 0 → (s.dev.pair pair).cand = some o → o.q + 38400 ≤ s.clk.atc → (s.dev.pair pair).st = .load → bits header 48 16 = crc16 (bits header 0 48) → bits header 4 1 = 1 → 
      exec (.headerDecision pair header) s = .next { s with dev := s.dev.updPair pair fun p => { p with cand := none, synced := true, burst := some (o.q + 38400 + 19200 * bits header 5 10, bits header 0 4, true), strength := tput p.strength (bits header 0 4) (o.strength, o.q) } }) ∧
  (∀ (s : State) (pair header : Nat) (y : CopSpoke) (o : SyncCand),
    s.dev.pairSpoke pair = some y → (s.dev.pair pair).cand = some o → o.q + 38400 ≤ s.clk.atc → bits header 48 16 ≠ crc16 (bits header 0 48) → 
      ∃ t, exec (.headerDecision pair header) s = .next t ∧
      (t.dev.pair pair).cand = none ∧ (t.dev.pair pair).burst = (s.dev.pair pair).burst ∧ tget 0 (t.dev.pair pair).stats 1 = satAdd 64 (tget 0 (s.dev.pair pair).stats 1) 1) ∧
  (∀ (s : State) (pair : Nat) (x : Nat × Nat × Bool),
    (s.dev.pair pair).burst = some x → x.1 ≤ s.clk.atc → 
      exec (.burstEnd pair) s = .next { s with dev := s.dev.updPair pair fun p => { p with burst := none } }) ∧
  (∀ (s : State) (pair : Nat) (frame : List Byte) (y : CopSpoke),
    s.dev.copper (pairSpokeNo pair) = some y → (s.dev.pair pair).st = .load → s.dev.awake (copBlock (pairSpokeNo pair)) = true → (frame.length ≠ 12 + fieldBe frame 2 2 ∨ fieldBe frame (8 + fieldBe frame 2 2) 4 ≠ crc32 (frame.take (8 + fieldBe frame 2 2))) → 
      ∃ t, exec (.linkFrameReceive pair frame) s = .next t ∧
      tget 0 (t.dev.pair pair).stats 0 = satAdd 64 (tget 0 (s.dev.pair pair).stats 0) 1 ∧ (t.dev.pair pair).st = .load ∧ t.dev.host = s.dev.host ∧ t.dev.mem = s.dev.mem) ∧
  (∀ (s : State) (pair : Nat) (frame : List Byte) (y : CopSpoke),
    s.dev.copper (pairSpokeNo pair) = some y → y.mode = 0 → (s.dev.pair pair).st = .detect → s.dev.awake (copBlock (pairSpokeNo pair)) = true → frame.length = 12 + fieldBe frame 2 2 → fieldBe frame (8 + fieldBe frame 2 2) 4 = crc32 (frame.take (8 + fieldBe frame 2 2)) → (11 ≤ fieldBe frame 2 2 ∧ fieldBe frame 2 2 ≤ 16384) → fieldAt frame 0 1 = 1 → fieldAt frame 8 1 = 2 → bit (fieldAt frame 18 1) 0 = true → 
      exec (.linkFrameReceive pair frame) s = .next { s with dev := s.dev.updPair pair fun q => { q with st := .probe, since := s.clk.atc, rp := 0, reported := false } }) ∧
  (∀ (s : State) (pair : Nat) (y : CopSpoke),
    s.dev.copper (pairSpokeNo pair) = some y → y.mode = 0 → (s.dev.pair pair).st = .echo → (s.dev.pair pair).since + 983040000 ≤ s.clk.atc → y.fails < 15 → 
      ∃ t, exec (.copBringupTimeout pair) s = .next t ∧
      t.dev.copper (pairSpokeNo pair) = some { y with fails := y.fails + 1, reason := 3 } ∧ (t.dev.pair pair).st = .wait ∧ (t.dev.pair pair).waitEnd = s.clk.atc + 19660800 * 2 ^ min (y.fails + 1) 7) ∧
  (∀ (s : State) (pair : Nat) (up : Bool) (y : CopSpoke),
    s.dev.copper (pairSpokeNo pair) = some y → y.autoSwap = true → y.active = true → s.dev.breanoAway = false → (s.dev.pair pair).st = .active → (s.dev.pair pair).up = 1 → 
      ∃ t, exec (.autoSwap pair up) s = .next t ∧
      t.dev.free = s.dev.free + 1 ∧ (t.dev.pair pair).toArm = true ∧ (t.dev.pair pair).need = (if up then ((s.dev.pair pair).need.1, 1) else (1, (s.dev.pair pair).need.2)) ∧ (t.dev.loadOf pair).act = (s.dev.loadOf pair).act ∧ ((t.dev.loadOf pair).latest.dir (!up).toNat) = ((s.dev.loadOf pair).latest.dir (!up).toNat)) ∧
  (∀ (s : State) (spoke kind pair : Nat) (y : CopSpoke),
    s.dev.copper spoke = some y → (y.active = true ∧ y.mask = 1 ∧ y.change = none ∧ y.mark = 0xFFFF) → kind = 2 → 
      ∃ t, exec (.copDown spoke kind pair) s = .next t ∧
      t.dev.copper spoke = some { y with active := false, window := false, queue := [], crcWin := [], reason := 7 } ∧ (t.dev.pair (4 * (spoke - 128))).st = .test ∧ (t.dev.pair (4 * (spoke - 128))).test = (s.clk.atc + 1, none)) ∧
  (∀ (s : State) (pair at_ : Nat) (pass : Bool) (y : CopSpoke),
    s.dev.copper (pairSpokeNo pair) = some y → (s.dev.pair pair).test = (at_, none) → (at_ ≠ 0 ∧ at_ + 19660800 ≤ s.clk.atc + 1) → pass = true → s.dev.mem.transients = [] → (s.dev.pair pair).st = .test → 
      ∃ t, exec (.pairSelftestDone pair pass) s = .next t ∧
      (t.dev.pair pair) = { s.dev.pair pair with test := (0, none), st := .wait, since := s.clk.atc, waitEnd := s.clk.atc + 19660800 * 2 ^ min y.fails 7 } ∧ bit (tget 0 t.dev.mgmt.trb (copBlock (pairSpokeNo pair))).toNat 6 = true) ∧
  (∀ (s : State) (spoke tD tag : Nat) (abort : Bool) (y : CopSpoke),
    s.dev.copper spoke = some y → y.dis = .ending abort tD tag → (y.queue = [] ∧ y.mark = 0xFFFF ∧ y.mask = 1 ∧ y.change = none) → 
      ∃ t, exec (.copDisabled spoke) s = .next t ∧
      t.dev.copper spoke = some { y with active := false, window := false, crcWin := [], dis := .disabled } ∧ (t.dev.pair (4 * (spoke - 128))).st = .disabled ∧ (t.dev.pair (4 * (spoke - 128))).test = (0, none)) ∧
  (∀ (s : State) (spoke tag : Nat) (y : CopSpoke),
    s.dev.copper spoke = some y → y.mask = 1 → y.change = some (1, tag) → (s.dev.pair (4 * (spoke - 128))).st = .active → 
      exec (.copPairsDone spoke) s = .next { s with dev := (s.dev.updCopper spoke fun y => { y.regroup spoke 1 with mask := 1, change := none }).evt0 s.clk 0x0986 tag [(0, 1, spoke), (1, 1, 1)] }) ∧
  (∀ (s : State) (pair tag margin addr len : Nat) (noPeer : Bool),
    (s.dev.pair pair).qualify = some (tag, margin, addr, len) → noPeer = true → 
      exec (.copQualifyDone pair noPeer) s = .next { s with dev := (s.dev.updPair pair fun q => { q with qualify := none }).evt0 s.clk 0x0987 tag [(0, 1, pair), (1, 1, 1)] }) ∧
  (∀ (s : State) (pair tag margin addr len : Nat) (noPeer : Bool),
    (s.dev.pair pair).qualify = some (tag, margin, addr, len) → noPeer = false → 
      ∃ t, exec (.copQualifyDone pair noPeer) s = .next t ∧
      t.dev.free = s.dev.free + 2 ∧ (t.dev.pair pair).qualify = none ∧ t.dev.mem = s.dev.mem)

/-- A resting copper spoke is configured and masked; it is enabled, and one not configured answers BADSTATE; it is disabled and its status read; a table is written to SHADOW and armed with FORCE, and read; SNR, counters and latency are read and the counters cleared; a segment's radio points are planned; a pair is added, tested and, in LINETEST, qualified. Each clause ends in: exec of its command is a next state. So these commands complete: copConfig, copEnable, copDisable, copStatus, copMaskSet, copLoadWrite, copLoadRead, copSnrRead, copBurstSet, copPairsSet, copGetLatency, copGetStats, copSelftest, copQualify. [16_copper_spokes.md, R456, R460, R461, R476, R482, R483, R488, R489, R490, R492, R493] -/
def Obligations.CopperCommands : Prop :=
  (∀ (s : State) (r : Req) (w : Waiting) (spoke mode mask lineAdv timed margin minMargin autoSwap syncWord syncTol syncBase syncStep ramp crcLimit : Nat) (y : CopSpoke),
    Waits s r 0x0901 w → (128 ≤ spoke ∧ spoke < 144) → (mode ≤ 1 ∧ mask ≠ 0 ∧ mask < 16 ∧ lineAdv ≤ 983040 ∧ lineAdv % 2 = 0 ∧ timed ≤ 1 ∧ autoSwap ≤ 1 ∧ syncTol ≤ 12 ∧ 8 ≤ ramp ∧ ramp ≤ 256) → ((maskPairs spoke mask).any fun p => (s.dev.pair p).retired || !s.dev.pairFitted p) = false → placementOk (s.dev.copMask spoke) syncBase syncStep = true → s.dev.copper spoke = some y → y.resting = true → 
      exec (.copConfig r spoke mode mask lineAdv timed margin minMargin autoSwap syncWord syncTol syncBase syncStep ramp crcLimit) s = .next { s with dev := answered s.clk w (rOk) (noted (s.dev.updCop fun x => { x with spokes := tput x.spokes spoke { mode := mode, mask := mask, lineAdv := lineAdv, timed := timed = 1, margin := margin, minMargin := minMargin, autoSwap := autoSwap = 1, syncWord := syncWord, syncTol := syncTol, syncBase := syncBase, syncStep := syncStep, ramp := ramp, crcLimit := crcLimit } })) }) ∧
  (∀ (s : State) (r : Req) (w : Waiting) (spoke : Nat) (y : CopSpoke),
    Waits s r 0x0902 w → (128 ≤ spoke ∧ spoke < 144) → s.dev.copper spoke = some y → y.resting = true → y.mask = 1 → (s.dev.pair (4 * (spoke - 128))).retired = false → 
      ∃ t, exec (.copEnable r spoke) s = .next t ∧
      Answers s t w rOk ∧ t.dev.copper spoke = some { y with dis := .on, fails := 0, reason := 0, told := false } ∧ (t.dev.pair (4 * (spoke - 128))).st = .detect ∧ (t.dev.pair (4 * (spoke - 128))).since = s.clk.atc) ∧
  (∀ (s : State) (r : Req) (w : Waiting) (spoke : Nat),
    Waits s r 0x0902 w → (128 ≤ spoke ∧ spoke < 144) → s.dev.copper spoke = none → 
      exec (.copEnable r spoke) s = .next { s with dev := answered s.clk w (rSt 0x0022) s.dev }) ∧
  (∀ (s : State) (r : Req) (w : Waiting) (spoke mode : Nat) (y : CopSpoke),
    Waits s r 0x0903 w → Fits w 8 → (128 ≤ spoke ∧ spoke < 144) → mode ≤ 1 → s.dev.copper spoke = some y → y.dis.isEnding = false → 
      exec (.copDisable r spoke mode) s = .next { s with dev := answered s.clk w (rAcc [(8, s.clk.atc)]) (noted (s.dev.updCopper spoke fun y => { y with dis := .ending (mode = 1) s.clk.atc w.tag, queue := if mode = 1 then [] else y.queue })) }) ∧
  (∀ (s : State) (r : Req) (w : Waiting) (spoke : Nat) (y : CopSpoke),
    Waits s r 0x0904 w → Fits w 34 → (128 ≤ spoke ∧ spoke < 144) → s.dev.copper spoke = some y → y.mask = 1 → (s.dev.pair (4 * (spoke - 128))).st ≠ .active → 
      ∃ t, exec (.copStatus r spoke) s = .next t ∧
      Answers s t w (rOk (((List.range 4).map fun x => (1, (s.dev.pair (4 * (spoke - 128) + x)).st.code)) ++ [(1, y.reason), (1, y.fails), (4, 0), (4, 0), (2, Config.freeNat s.dev.free), (2, Config.freeNat (s.dev.free + 1))] ++
      ((List.range 4).flatMap fun x => [(2, (s.dev.shadow 5 (4 * (spoke - 128) + x)).seq), (2, (s.dev.shadow 5 (4 * (spoke - 128) + x)).seq)]))) ∧ t.dev.free = s.dev.free + 2) ∧
  (∀ (s : State) (r : Req) (w : Waiting) (spoke nguard : Nat) (points notches : List Nat),
    Waits s r 0x0905 w → (128 ≤ spoke ∧ spoke < 144) → (nguard ≤ 64 ∧ 2 ≤ points.length ∧ points.length ≤ 64 ∧ notches.length ≤ 32) → pointsFault (points.map breakpoint) = none → (notches.all fun v => v % 65536 ≤ v / 65536 && v / 65536 < 4096) = true → (CopMask.mk (points.map breakpoint) nguard (notches.map fun v => (v % 65536, v / 65536))).tooStrong = false → ((s.dev.copper spoke).all fun y => y.resting) = true → 
      exec (.copMaskSet r spoke nguard points notches) s = .next { s with dev := answered s.clk w (rOk) (noted (s.dev.updCop fun x => { x with masks := tset {} x.masks spoke { points := points.map breakpoint, nguard := nguard, notches := notches.map fun v => (v % 65536, v / 65536) } })) }) ∧
  (∀ (s : State) (r : Req) (w : Waiting) (pair dir force : Nat) (table : List Nat) (y : CopSpoke),
    Waits s r 0x0906 w → (pair < 64 ∧ dir ≤ 1 ∧ force ≤ 1 ∧ table.length = 4096) → s.dev.pairSpoke pair = some y → y.autoSwap = false → s.dev.tableFault (pairSpokeNo pair) table = none → force = 1 → 
      ∃ t, exec (.copLoadWrite r pair dir force table) s = .next t ∧
      Answers s t w rOk ∧ (t.dev.loadOf pair).latest.dir dir = table ∧ (t.dev.loadOf pair).act = (s.dev.loadOf pair).act ∧ (t.dev.shadow 5 pair).latest = true ∧ (t.dev.pair pair) = s.dev.pair pair) ∧
  (∀ (s : State) (r : Req) (w : Waiting) (pair dir set : Nat),
    Waits s r 0x0907 w → Fits w 2 → (pair < 64 ∧ dir ≤ 1 ∧ set ≤ 1) → bit w.flags 0 = false → 
      ∃ t, exec (.copLoadRead r pair dir set) s = .next t ∧
      t.dev = answered s.clk w { status := stOK, payload := le 2 (s.dev.shadow 5 pair).seq } s.dev) ∧
  (∀ (s : State) (r : Req) (w : Waiting) (pair dir rp : Nat),
    Waits s r 0x0908 w → Fits w 16384 → (pair < 64 ∧ dir ≤ 1 ∧ rp < 16) → (s.dev.pair pair).st = .active → 
      ∃ t, exec (.copSnrRead r pair dir rp) s = .next t ∧
      t.dev = answered s.clk w { status := stOK, payload := (List.range 4096).flatMap fun i => le 2 ((tget ([], []) (s.dev.pair pair).snr (16 * dir + rp)).1.getD i 0) ++ le 2 ((tget ([], []) (s.dev.pair pair).snr (16 * dir + rp)).2.getD i 0) } s.dev) ∧
  (∀ (s : State) (r : Req) (w : Waiting) (pair rpMask down up : Nat) (plan : List Nat) (y : CopSpoke),
    Waits s r 0x0909 w → pair < 64 → plan.length = (ones 16 rpMask).length → (plan.all fun v => v / 65536 ≤ 1023) = true → planOverlap (plan.map fun v => (v % 65536, v / 65536)) = false → s.dev.pairSpoke pair = some y → y.mode ≠ 0 → (s.dev.pair pair).st ≠ .active → 
      exec (.copBurstSet r pair rpMask plan down up) s = .next { s with dev := answered s.clk w (rOk) (noted (s.dev.updPair pair fun q => { q with rpMask := rpMask, plan := (List.range (ones 16 rpMask).length).foldl (fun (p : List (Nat × Nat)) i => p.set ((ones 16 rpMask).getD i 0) ((plan.map fun v => (v % 65536, v / 65536)).getD i (0, 0))) (List.replicate 16 (0, 0)), share := (down, up), up := q.up &&& rpMask })) }) ∧
  (∀ (s : State) (r : Req) (w : Waiting) (spoke mask : Nat) (y : CopSpoke),
    Waits s r 0x090A w → (128 ≤ spoke ∧ spoke < 144) → s.dev.copper spoke = some y → (y.mask = 1 ∧ y.active = true ∧ y.dis = .on ∧ y.change = none) → mask = 3 → (s.dev.pair (4 * (spoke - 128) + 1)).retired = false → s.dev.pairFitted (4 * (spoke - 128) + 1) = true → 
      ∃ t, exec (.copPairsSet r spoke mask) s = .next t ∧
      Answers s t w rAcc ∧ t.dev.copper spoke = some { y with change := some (3, w.tag), told := false } ∧ (t.dev.pair (4 * (spoke - 128) + 1)).st = .detect) ∧
  (∀ (s : State) (r : Req) (w : Waiting) (spoke : Nat),
    Waits s r 0x090B w → Fits w 16 → (128 ≤ spoke ∧ spoke < 144) → 
      exec (.copGetLatency r spoke) s = .next { s with dev := answered s.clk w (rOk [(8, 38912 * 65536), (8, 39936 * 65536)]) s.dev }) ∧
  (∀ (s : State) (r : Req) (w : Waiting) (pair rp clear : Nat),
    Waits s r 0x090C w → Fits w 66 → (pair < 64 ∧ rp < 16) → clear = 1 → tget [] s.dev.cyc.cop pair = (s.dev.pair pair).stats → 
      exec (.copGetStats r pair rp clear) s = .next { s with dev := answered s.clk w (rOk (((List.range 7).map fun i => (8, tget 0 (s.dev.pair pair).stats i)) ++ [(2, uns 16 (tget (0, 0) (s.dev.pair pair).strength rp).1), (8, (tget (0, 0) (s.dev.pair pair).strength rp).2)])) ({ s.dev.updPair pair (fun q => { q with stats := [] }) with cyc := { s.dev.cyc with cop := tdel s.dev.cyc.cop pair } }) }) ∧
  (∀ (s : State) (r : Req) (w : Waiting) (pair : Nat) (y : CopSpoke),
    Waits s r 0x090D w → pair < 64 → s.dev.pairSpoke pair = some y → y.resting = true → 
      exec (.copSelftest r pair) s = .next { s with dev := answered s.clk w (rAcc) (noted (s.dev.updPair pair fun q => { q with test := (s.clk.atc + 1, some w.tag) })) }) ∧
  (∀ (s : State) (r : Req) (w : Waiting) (pair margin : Nat),
    Waits s r 0x090E w → pair < 64 → bit w.flags 0 = true → 16384 ≤ w.respLen → s.dev.devmode.mode = .linetest → 
      exec (.copQualify r pair margin) s = .next { s with dev := answered s.clk w (rAcc) (noted (s.dev.updPair pair fun q => { q with qualify := some (w.tag, margin, w.respAddr, w.respLen) })) })

/-- Network time is read; servo settings are stored, and profile 0 makes it free-running; without a profile the rate is trimmed within its limit and not beyond, slewed to the end with an event, and without carriers stepped, with one BADSTATE; the servo acquires, by a slew or a step, locks, holds over and lets its hold expire; ports are named; stamps and edges are read and cleared, an edge is captured with its stamp and, out of service, none; an output is set, its pulse begins and ends; a recovered clock is set and its squelch ends with an event; the UTC offset and a leap second are set, and the leap second moves the UTC offset and not NTC. Each clause ends in: exec of its command is a next state. So these commands complete: timeGet, timeServoSet, timeAdjFreq, timeSlew, slewDone, timeStep, timePortSet, timeStampRead, timeTsinSet, timeTsinRead, tsinEdge, timeTsoutSet, ppsPulse, pulseEnd, timeSynceSet, synceSquelch, timeUtcSet, leapSecond, servoSourceQualify, servoLock, servoHoldover, servoHoldoverExpire. [17_network_time.md, R497, R499, R501, R502, R509, R510, R512, R515, R518, R519, R520] -/
def Obligations.NetworkTime : Prop :=
  (∀ (s : State) (r : Req) (w : Waiting),
    Waits s r 0x0A01 w → Fits w 51 → s.dev.devmode.mode ≠ .stoker → 
      exec (.timeGet r) s = .next { s with dev := answered s.clk w (rOk [(8, s.clk.sec), (4, s.clk.ns), (2, s.clk.rem * 65536 / 3072), (8, s.clk.atc), (1, s.dev.time.st), (1, s.dev.time.source), (1, s.dev.time.parent), (8, uns 64 s.dev.time.offset), (8, uns 64 s.dev.time.ftrim), (8, uns 64 s.dev.time.fslew), (2, s.dev.time.utc)]) s.dev }) ∧
  (∀ (s : State) (r : Req) (w : Waiting) (profile domain tsin lane lockTh hold : Nat) (roles : List Nat),
    Waits s r 0x0A02 w → profile ≤ 2 → ((List.range 8).all fun i => roles.getD (2 * i) 0 ≤ 3) = true → (tsin < 8 ∨ tsin = 0xFF) → (lane < 128 ∨ lane = 0xFF) → s.dev.devmode.mode ≠ .stoker → profile = s.dev.time.set.profile → 
      exec (.timeServoSet r profile domain roles tsin lane lockTh hold) s = .next { s with dev := answered s.clk w (rOk) (noted (s.dev.updTime fun y => { y with set := { profile := profile, domain := domain, roles := (List.range 8).map fun i => (roles.getD (2 * i) 0, roles.getD (2 * i + 1) 0), tsin := tsin, lane := lane, lockTh := lockTh, hold := hold } })) }) ∧
  (∀ (s : State) (r : Req) (w : Waiting) (profile domain tsin lane lockTh hold : Nat) (roles : List Nat),
    Waits s r 0x0A02 w → profile = 0 → ((List.range 8).all fun i => roles.getD (2 * i) 0 ≤ 3) = true → (tsin = 0xFF ∧ lane = 0xFF) → s.dev.devmode.mode ≠ .stoker → s.dev.time.set.profile = 1 → 
      ∃ t, exec (.timeServoSet r profile domain roles tsin lane lockTh hold) s = .next t ∧
      t.dev.time.st = 5 ∧ t.dev.time.set.profile = 0 ∧ t.dev.time.source = 0 ∧ t.dev.time.fslew = 0 ∧ t.dev.time.ftrim = s.dev.time.ftrim) ∧
  (∀ (s : State) (r : Req) (w : Waiting) (ftrim : Int),
    Waits s r 0x0A03 w → (s.dev.time.set.profile = 0 ∧ s.dev.devmode.mode ≠ .stoker) → (ftrim + s.dev.time.fslew).natAbs ≤ 8796093022 → 
      exec (.timeAdjFreq r ftrim) s = .next { s with dev := answered s.clk w (rOk) (noted (s.dev.updTime fun y => { y with ftrim := ftrim })) }) ∧
  (∀ (s : State) (r : Req) (w : Waiting) (ftrim : Int),
    Waits s r 0x0A03 w → (s.dev.time.set.profile = 0 ∧ s.dev.devmode.mode ≠ .stoker) → 8796093022 < (ftrim + s.dev.time.fslew).natAbs → 
      ∃ t, exec (.timeAdjFreq r ftrim) s = .next t ∧
      Answers s t w (rBad 0)) ∧
  (∀ (s : State) (r : Req) (w : Waiting) (off : Int) (rate : Nat),
    Waits s r 0x0A04 w → (s.dev.time.set.profile = 0 ∧ s.dev.devmode.mode ≠ .stoker) → off < 0 → (1 ≤ rate ∧ rate ≤ 10) → freqOk s.dev.time.ftrim (-(slewOf rate : Nat)) = true → 
      exec (.timeSlew r off rate) s = .next { s with dev := answered s.clk w (rAcc) (noted (s.dev.updTime fun y => { y with fslew := -(slewOf rate : Nat), slew := some { off := off, rate := rate, start := s.clk.atc, tag := w.tag } })) }) ∧
  (∀ (s : State) (y : Slew),
    s.dev.time.slew = some y → y.off.natAbs * 1966080000 ≤ y.rate * (s.clk.atc - y.start) * 65536 → 
      exec (.slewDone) s = .next { s with dev := (s.dev.updTime fun y => { y with fslew := 0, slew := none }).evt0 s.clk 0x0A84 y.tag [(8, 8, s.clk.atc)] }) ∧
  (∀ (s : State) (r : Req) (w : Waiting) (mode arg ns frac a : Nat),
    Waits s r 0x0A05 w → Fits w 8 → mode = 0 → (s.dev.time.set.profile = 0 ∧ s.dev.devmode.mode ≠ .stoker) → s.dev.air.carriers = [] → steppedAtc s.clk.atc (roundEvenS (3 * sgn 64 arg) 200000) = some a → 
      ∃ t, exec (.timeStep r mode arg ns frac) s = .next t ∧
      Answers s t w (rOk [(8, a)]) ∧ t.clk.atc = a ∧ t.clk.sec = 315964819 + a / 1966080000 ∧ t.clk.ns = 3125 * (a % 1966080000 / 2) / 3072 ∧ t.clk.rem = 3125 * (a % 1966080000 / 2) % 3072 ∧ t.clk.run = s.clk.run ∧ t.dev.time = s.dev.time) ∧
  (∀ (s : State) (r : Req) (w : Waiting) (mode arg ns frac : Nat),
    Waits s r 0x0A05 w → mode ≤ 1 → mode = 0 → s.dev.air.carriers ≠ [] → s.dev.time.set.profile = 0 → 
      exec (.timeStep r mode arg ns frac) s = .next { s with dev := answered s.clk w (rSt 0x0022) s.dev }) ∧
  (∀ (s : State) (r : Req) (w : Waiting) (ports : List Nat),
    Waits s r 0x0A06 w → ports.length = 8 → (ports.all fun p => p = 0xFF || (p < 128 && !s.dev.absorbed p)) = true → s.dev.spk.spokes = [] → 
      exec (.timePortSet r ports) s = .next { s with dev := answered s.clk w (rOk) (noted (s.dev.updTime fun y => { y with tports := ports })) }) ∧
  (∀ (s : State) (r : Req) (w : Waiting) (port n clear : Nat) (q : StampQ),
    Waits s r 0x0A07 w → Fits w 8 → (port < 128 ∧ 1 ≤ n ∧ n ≤ 14 ∧ clear ≤ 1) → (s.dev.liveSpoke port).isSome = true → tget {} s.dev.time.stamps port = q → q.q = [] → q.lostAt ≠ s.clk.atc + 1 → clear = 1 → 
      exec (.timeStampRead r port n clear) s = .next { s with dev := answered s.clk w (rOk [(1, 0), (1, q.ovf.toNat), (2, 0), (4, q.lost)]) (s.dev.updTime fun y => { y with stamps := tset {} y.stamps port { q with emptied := true, ovf := false, lost := 0, was := (false, 0) } }) }) ∧
  (∀ (s : State) (r : Req) (w : Waiting) (port n clear : Nat) (q : StampQ) (e : List Byte),
    Waits s r 0x0A07 w → Fits w 24 → (port < 128 ∧ 1 ≤ n ∧ n ≤ 14 ∧ clear = 0) → (s.dev.liveSpoke port).isSome = true → tget {} s.dev.time.stamps port = q → q.q = [e] → e.length = 16 → q.lastAt ≠ s.clk.atc → q.lostAt ≠ s.clk.atc + 1 → 
      ∃ t, exec (.timeStampRead r port n clear) s = .next t ∧
      t.dev = answered s.clk w { status := stOK, payload := pk [(1, 1), (1, q.ovf.toNat), (2, 0), (4, q.lost)] ++ e } (s.dev.updTime fun y => { y with stamps := tset {} y.stamps port { q with q := [], emptied := true } })) ∧
  (∀ (s : State) (r : Req) (w : Waiting) (input edges wake : Nat),
    Waits s r 0x0A08 w → (input < 8 ∧ edges ≤ 3 ∧ wake ≤ 1) → 
      exec (.timeTsinSet r input edges wake) s = .next { s with dev := answered s.clk w (rOk) (noted (s.dev.setTsin input { s.dev.tsin input with edges := edges, wake := wake = 1 })) }) ∧
  (∀ (s : State) (r : Req) (w : Waiting) (input n clear : Nat),
    Waits s r 0x0A09 w → Fits w 8 → (input < 8 ∧ 1 ≤ n ∧ n ≤ 14 ∧ clear = 0) → (s.dev.tsin input).q.q = [] → (s.dev.tsin input).q.lostAt ≠ s.clk.atc + 1 → 
      exec (.timeTsinRead r input n clear) s = .next { s with dev := answered s.clk w (rOk [(1, 0), (1, (s.dev.tsin input).q.ovf.toNat), (2, 0), (4, (s.dev.tsin input).q.lost)]) (s.dev.setTsin input { s.dev.tsin input with q := { (s.dev.tsin input).q with emptied := true } }) }) ∧
  (∀ (s : State) (input sub : Nat) (falling : Bool),
    s.dev.mgmt.svc = true → s.dev.devmode.mode ≠ .dormant → (s.dev.tsin input).edges = 3 → (s.dev.tsin input).last = 0 → (s.dev.tsin input).q.q = [] → 
      ∃ t, exec (.tsinEdge input falling sub) s = .next t ∧
      t.dev.tsin input = { s.dev.tsin input with seq := ((s.dev.tsin input).seq + 1) % 65536, last := s.clk.instant + min sub 66666 + 1, q := (t.dev.tsin input).q } ∧
      (t.dev.tsin input).q.q = [stampBytes (s.clk.instant + min sub 66666) (s.dev.tsin input).seq (s.dev.stampFlags false falling)]) ∧
  (∀ (s : State) (input sub : Nat) (falling : Bool),
    s.dev.mgmt.svc = false → 
      exec (.tsinEdge input falling sub) s = .next s) ∧
  (∀ (s : State) (r : Req) (w : Waiting) (output mode pol ppsW : Nat),
    Waits s r 0x0A0A w → (output < 8 ∧ mode ≤ 2 ∧ pol ≤ 1 ∧ 8 ≤ ppsW ∧ ppsW ≤ 500000000) → mode ≠ 0 → 
      exec (.timeTsoutSet r output mode pol ppsW) s = .next { s with dev := answered s.clk w (rOk) (noted (s.dev.setTsout output { s.dev.tsout output with mode := mode, pol := pol, ppsW := ppsW })) }) ∧
  (∀ (s : State) (output : Nat),
    (s.dev.tsout output).mode = 2 → (s.clk.ns = 0 ∧ s.clk.rem = 0 ∧ s.clk.run = true) → 
      exec (.ppsPulse output) s = .next { s with dev := s.dev.setTsout output { s.dev.tsout output with edge := s.clk.instant, until_ := s.clk.instant + (s.dev.tsout output).ppsW * 65536 } }) ∧
  (∀ (s : State) (output : Nat),
    (s.dev.tsout output).until_ ≠ 0 → (s.dev.tsout output).until_ ≤ s.clk.instant → 
      exec (.pulseEnd output) s = .next { s with dev := s.dev.setTsout output { s.dev.tsout output with until_ := 0 } }) ∧
  (∀ (s : State) (r : Req) (w : Waiting) (output lane div : Nat),
    Waits s r 0x0A0B w → Fits w 4 → (output < 2 ∧ lane < 128 ∧ 16 ≤ div) → (s.dev.laneSpeed lane).1 ≤ 200000 * div → 
      exec (.timeSynceSet r output lane div) s = .next { s with dev := answered s.clk w (rOk [(4, (s.dev.laneSpeed lane).1 * 1000 / div)]) (noted (s.dev.setSynce output { lane := lane, div := div, squelched := !s.dev.laneActive lane })) }) ∧
  (∀ (s : State) (output : Nat),
    (s.dev.synce output).lane ≠ 0xFF → s.dev.laneActive (s.dev.synce output).lane = true → (s.dev.synce output).squelched = true → 
      exec (.synceSquelch output) s = .next { s with dev := (s.dev.setSynce output { s.dev.synce output with squelched := false }).evt0 s.clk 0x0A86 0 [(0, 1, output), (1, 1, (s.dev.synce output).lane), (2, 1, 0)] }) ∧
  (∀ (s : State) (r : Req) (w : Waiting) (utc leap second : Nat),
    Waits s r 0x0A0C w → leap ≤ 2 → (leap = 0 ∨ s.clk.sec < second) → 
      exec (.timeUtcSet r utc leap second) s = .next { s with dev := answered s.clk w (rOk) (noted (s.dev.updTime fun y => { y with utc := utc, leap := if leap = 0 then none else some (leap, second) })) }) ∧
  (∀ (s : State) (k x : Nat),
    s.dev.time.leap = some (k, x) → x ≤ s.clk.sec → 
      exec (.leapSecond) s = .next { s with dev := s.dev.updTime fun y => { y with leap := none, utc := (y.utc + (if k = 1 then 1 else 65535)) % 65536 } }) ∧
  (∀ (s : State) (source parent : Nat) (off : Int),
    s.dev.breanoAway = false → (source = 1 ∨ source = 2) → s.dev.time.set.profile ≠ 0 → s.dev.devmode.mode ≠ .stoker → s.dev.time.st = 0 → s.dev.air.carriers ≠ [] → off < 0 → 
      ∃ t, exec (.servoSourceQualify source parent off) s = .next t ∧
      t.clk = s.clk ∧ t.dev.time = { s.dev.time with source := source, parent := parent, offset := off, fslew := (slewOf 10 : Nat), st := 1, since := s.clk.atc }) ∧
  (∀ (s : State) (source parent a : Nat) (off : Int),
    s.dev.breanoAway = false → (source = 1 ∨ source = 2) → s.dev.time.set.profile ≠ 0 → s.dev.devmode.mode ≠ .stoker → s.dev.time.st = 0 → s.dev.air.carriers = [] → 65536000 < off.natAbs → steppedAtc s.clk.atc (roundEvenS (-3 * off) 200000) = some a → 
      ∃ t, exec (.servoSourceQualify source parent off) s = .next t ∧
      t.clk = s.clk.atAtc a ∧ t.dev.time = { s.dev.time with source := source, parent := parent, offset := 0, fslew := 0, st := 1, since := a }) ∧
  (∀ (s : State) (off : Int),
    s.dev.breanoAway = false → s.dev.time.st = 1 → off.natAbs ≤ s.dev.time.set.lockTh * 65536 → s.dev.time.since + 117964800000 ≤ s.clk.atc → 
      ∃ t, exec (.servoLock off) s = .next t ∧
      t.dev.time = { s.dev.time with offset := off, fslew := 0, st := 2, since := s.clk.atc }) ∧
  (∀ (s : State) (mean : Int),
    s.dev.breanoAway = false → (s.dev.time.st = 1 ∨ s.dev.time.st = 2) → mean.natAbs ≤ 8796093022 → 
      ∃ t, exec (.servoHoldover mean) s = .next t ∧
      t.dev.time = { s.dev.time with ftrim := mean, fslew := 0, source := 0, st := 3, since := s.clk.atc }) ∧
  (∀ (s : State),
    s.dev.breanoAway = false → s.dev.time.st = 3 → s.dev.time.since + s.dev.time.set.hold * 1966080000 < s.clk.atc → 
      ∃ t, exec (.servoHoldoverExpire) s = .next t ∧
      t.dev.time = { s.dev.time with st := 4, since := s.clk.atc })

/-- A LAT_TX measurement above its convergence limit lowers the code of the trim served by one tap, returns its count to 0 and is kept as the latency figure. A LAT_RX measurement within half a tap leaves the code and counts one, where the last measurement is not older than STALE. A gap whose end has come is closed. A measurement older than STALE takes back the count of a trim that is not yet converged. An hour after the last time the trims are stored, and they stay as they are. TRUE_SET stores the enables and STALE of one unit. TRUE_STATUS answers the trim and the figures of a tandem link that has measured none. TRUE_RESET takes every trim and its count of a disabled unit back. Each clause ends in: exec of its command is a next state. So these commands complete: trueMeasure, trueGapExpire, trueStale, trimStore, trueSet, trueStatus, trueReset. [18_truing.md, R525, R527, R529, R530, R532, R533, R535, R536] -/
def Obligations.TruingSteps : Prop :=
  (∀ (s : State) (kind index gap id : Nat) (residual toward : Int) (x : Trim),
    (kind = 0 ∧ index < 128) → s.dev.gapOpen s.clk.atc 0 index gap = true → s.dev.chooseTrim 0 index gap = some id → id = 4 → (s.dev.unit 0 index).trim 0 id = x → x.stuck = false → (-64 < x.code ∧ x.code ≤ 64) → 0 < residual → 1500000 < residual.natAbs * 10000 → x.count < 4 → 
      ∃ t, exec (.trueMeasure kind index gap residual toward) s = .next t ∧
      ((t.dev.unit 0 index).trim 0 id) = { x with code := x.code - 1, count := 0, residual := residual, at_ := s.clk.atc, seen := true } ∧ (t.dev.unit 0 index).last = 4 ∧ (t.dev.unit 0 index).figures = (s.dev.unit 0 index).figures.set 6 residual) ∧
  (∀ (s : State) (kind index gap id : Nat) (residual toward : Int) (x : Trim),
    (kind = 0 ∧ index < 128) → s.dev.gapOpen s.clk.atc 0 index gap = true → s.dev.chooseTrim 0 index gap = some id → id = 5 → (s.dev.unit 0 index).trim 0 id = x → x.stuck = false → residual.natAbs * 10000 ≤ 78125 → x.count < 3 → s.clk.atc ≤ x.at_ + (s.dev.unit 0 index).stale * 1966080 → 
      ∃ t, exec (.trueMeasure kind index gap residual toward) s = .next t ∧
      ((t.dev.unit 0 index).trim 0 id) = { x with count := x.count + 1, residual := residual, at_ := s.clk.atc, seen := true } ∧ (t.dev.unit 0 index).last = 5) ∧
  (∀ (s : State) (kind index : Nat),
    (kind ≤ 2 ∧ index < unitCount kind) → (s.dev.unit kind index).gap ≠ 0 → (s.dev.unit kind index).gap ≤ s.clk.atc → 
      exec (.trueGapExpire kind index) s = .next { s with dev := s.dev.updUnit kind index fun u => { u with gap := 0 } }) ∧
  (∀ (s : State) (kind index trim : Nat) (x : Trim),
    (kind ≤ 2 ∧ index < unitCount kind ∧ trim < trimCount kind) → (s.dev.unit kind index).trim kind trim = x → (0 < x.count ∧ x.count < 4) → x.at_ + (s.dev.unit kind index).stale * 1966080 < s.clk.atc → 
      exec (.trueStale kind index trim) s = .next { s with dev := s.dev.updUnit kind index fun u => { u with trims := tput u.trims trim { x with count := 0 } } }) ∧
  (∀ (s : State),
    s.dev.mgmt.svc = true → s.dev.truing.storedAt + 7077888000000 ≤ s.clk.atc → 
      ∃ t, exec (.trimStore) s = .next t ∧
      t.dev.truing.storedAt = s.clk.atc ∧ t.dev.truing.units = s.dev.truing.units) ∧
  (∀ (s : State) (r : Req) (w : Waiting) (kind index enable stale : Nat),
    Waits s r 0x0B01 w → (kind ≤ 2 ∧ index < unitCount kind ∧ 10 ≤ stale ∧ stale ≤ 1000) → index ≠ 0xFF → 
      exec (.trueSet r kind index enable stale) s = .next { s with dev := answered s.clk w (rOk) (noted (s.dev.updUnit kind index fun u => { u with enable := enable, stale := stale })) }) ∧
  (∀ (s : State) (r : Req) (w : Waiting) (kind index : Nat) (u : TrueUnit) (x : Trim),
    Waits s r 0x0B02 w → Fits w 79 → (kind = 2 ∧ index < 8) → s.dev.unit 2 index = u → u.trim 2 0 = x → u.figures = List.replicate 17 0 → 
      exec (.trueStatus r kind index) s = .next { s with dev := answered s.clk w (rOk [(1, 1), (2, uns 16 x.code), (1, x.count), (1, (u.converged s.clk.atc 2 0).toNat), (4, uns 32 x.residual), (8, x.at_), (2, 0), (2, 0), (2, 0), (2, 0), (2, 0), (2, 0), (4, 0), (4, 0), (4, 0), (4, 0), (4, 0), (4, 0), (4, 0), (4, 0), (4, 0), (4, 0), (2, 0), (4, u.ignored), (4, u.broken)]) s.dev }) ∧
  (∀ (s : State) (r : Req) (w : Waiting) (kind index : Nat),
    Waits s r 0x0B03 w → (kind ≤ 2 ∧ index < unitCount kind) → s.dev.unitDisabled kind index = true → 
      exec (.trueReset r kind index) s = .next { s with dev := answered s.clk w (rOk) (noted (s.dev.updUnit kind index fun u => { u with trims := [], last := 0xFF })) })

/-- A HELLO of the group brings the link up; at each millisecond the captain sends a heartbeat, and no other cycle; an exchange gives the delay; a stoker takes in its captain's heartbeat and steers within the limit, and an older epoch does nothing; a missed heartbeat counts, and the third makes the vice-captain captain with the epoch raised; a captain notes a joining member, and a lost one leaves the list with its event; at its boundary a handback makes the acting captain a stoker; a peer's write is performed where an export names the member and DENIED elsewhere; a link with a pending disable rests. Each clause ends in: exec of its command is a next state. So these commands complete: hello, heartbeatSend, echoExchange, heartbeatReceive, heartbeatMiss, statusFrame, memberTimeout, handbackBoundary, tandemWindowAccess, tndLinkDisabled. [19_tandem.md, R541, R544, R545, R547, R549, R550, R551, R552, R553, R554, R557] -/
def Obligations.TandemEvents : Prop :=
  (∀ (s : State) (link group id peerLink epoch ident : Nat) (y : Spoke),
    s.dev.spoke (256 + link) = some y → y.st = .exchange → (s.dev.tnd.group.map (·.1)) = some group → s.dev.linkPeer link = some (id, peerLink) → 
      ∃ t, exec (.hello link group id peerLink epoch ident) s = .next t ∧
      (t.dev.tndLink link).peer = id ∧ ((t.dev.spoke (256 + link)).map fun z => z.st) = some .active ∧ ((t.dev.spoke (256 + link)).map fun z => z.fails) = some 0) ∧
  (∀ (s : State),
    s.dev.devmode.mode = .captain → s.clk.atc % 1966080 = 0 → ((List.range 8).any s.dev.linkActive) = true → 
      exec (.heartbeatSend) s = .next { s with dev := s.dev.updTnd fun y => { y with sent := s.dev.heartbeat s.clk, seq := (y.seq + 1) % 2 ^ 32 } }) ∧
  (∀ (s : State),
    s.clk.atc % 1966080 ≠ 0 → 
      exec (.heartbeatSend) s = .next s) ∧
  (∀ (s : State) (link rtt turn : Nat),
    s.dev.linkActive link = true → 
      exec (.echoExchange link rtt turn) s = .next { s with dev := s.dev.updTndLink link fun l => { l with delay := (((rtt : Int) - turn) / 2 + l.asym * 65536 / 2000).toNat } }) ∧
  (∀ (s : State) (link group epoch servo boundary seq : Nat) (captain dissolve : Bool) (raw filtered : Int),
    s.dev.linkActive link = true → captain = true → (s.dev.tnd.group.map (·.1)) = some group → s.dev.devmode.mode = .stoker → epoch = s.dev.tnd.epoch → (s.dev.tndLink link).peer = s.dev.tnd.captain → (s.dev.updTnd fun y => { y with epoch := epoch, capEpoch := epoch }).upstream = some link → (s.dev.tnd.beatAt ≠ 0 ∧ s.dev.tnd.missed = 0) → seq = (s.dev.tnd.beatSeq + 1) % 2 ^ 32 → s.dev.breanoAway = false → filtered = 0 → dissolve = false → 
      ∃ t, exec (.heartbeatReceive link group epoch servo captain dissolve boundary seq raw filtered) s = .next t ∧
      t.dev.tnd.beatAt = s.clk.atc + 1 ∧ t.dev.tnd.beatSeq = seq ∧ t.dev.tnd.capServo = servo ∧ t.dev.tnd.missed = 0 ∧ t.dev.tnd.offset = 0 ∧ t.dev.tnd.good = min (s.dev.tnd.good + 1) 16 ∧ t.dev.free = s.dev.free + 2 ∧ (t.dev.time.ftrim + t.dev.time.fslew).natAbs ≤ 8796093022) ∧
  (∀ (s : State) (link group epoch servo boundary seq : Nat) (captain dissolve : Bool) (raw filtered : Int),
    epoch < s.dev.tnd.epoch → 
      exec (.heartbeatReceive link group epoch servo captain dissolve boundary seq raw filtered) s = .next s) ∧
  (∀ (s : State) (mean : Int) (m : Nat),
    s.dev.devmode.mode = .stoker → s.dev.missDue s.clk = some m → s.dev.pkg.tandemId ≠ 1 → s.dev.tnd.following = false → 
      ∃ t, exec (.heartbeatMiss mean) s = .next t ∧
      t.dev.tnd = { s.dev.tnd with missed := s.dev.tnd.missed + 1, missAt := m + 1, good := 0 } ∧ t.dev.time.fslew = 0 ∧ t.dev.devmode = s.dev.devmode) ∧
  (∀ (s : State) (mean : Int) (m : Nat),
    s.dev.devmode.mode = .stoker → s.dev.missDue s.clk = some m → s.dev.pkg.tandemId = 1 → s.dev.tnd.missed = 2 → s.dev.tnd.reportAt = 0 → s.dev.tnd.dissolve = none → 
      ∃ t, exec (.heartbeatMiss mean) s = .next t ∧
      t.dev.devmode.mode = .captain ∧ t.dev.devmode.since = s.clk.atc ∧ t.dev.tnd.epoch = (s.dev.tnd.epoch + 1) % 256 ∧ t.dev.tnd.captain = 0xFF ∧ t.dev.tnd.members = s.dev.tnd.members) ∧
  (∀ (s : State) (member boundary : Nat) (received joins leaves : Bool),
    s.dev.devmode.mode = .captain → (joins = true ∧ leaves = false) → 
      exec (.statusFrame member received joins leaves boundary) s = .next { s with dev := s.dev.updTnd fun y => { y with joining := y.joining ++ [(member, boundary)] } }) ∧
  (∀ (s : State) (member : Nat),
    s.dev.devmode.mode = .captain → bit s.dev.tnd.members member = true → (((List.range 8).filter fun k => (s.dev.tndLink k).peer = member).any fun k => s.dev.linkActive k || s.clk.atc < (s.dev.tndLink k).downAt + 19660800) = false → 
      exec (.memberTimeout member) s = .next { s with dev := (s.dev.updTnd fun y => { y with members := y.members &&& (255 - 2 ^ member) }).evt0 s.clk 0x0C86 0 [(0, 1, member), (1, 1, 0), (2, 1, s.dev.tnd.members &&& (255 - 2 ^ member))] }) ∧
  (∀ (s : State) (at_ q tag : Nat),
    s.dev.devmode.mode = .captain → s.dev.tnd.handback = some (q, tag) → q ≤ s.clk.atc → 
      ∃ t, exec (.handbackBoundary at_) s = .next t ∧
      t.dev.devmode.mode = .stoker ∧ t.dev.tnd.handback = none ∧ t.dev.tnd.captain = 0 ∧ t.dev.devmode.since = s.clk.atc) ∧
  (∀ (s : State) (member kind idx priv addr len peer : Nat) (incoming write : Bool) (data : List Byte),
    incoming = true → write = true → s.dev.exported member addr data.length = true → regionOf addr = .dram → inMemory addr data.length = true → ((memDomain addr).all s.dev.awake) = true → s.dev.mem.ecc = [] → 
      exec (.tandemWindowAccess incoming member write kind idx priv addr len data peer) s = .next { s with dev := (s.dev.updMem fun m => { m with cells := writeBytes m.cells addr data }).updTnd fun y => { y with sent := [0] } }) ∧
  (∀ (s : State) (member kind idx priv addr len peer : Nat) (incoming write : Bool) (data : List Byte),
    incoming = true → write = true → s.dev.exported member addr data.length = false → 
      exec (.tandemWindowAccess incoming member write kind idx priv addr len data peer) s = .next { s with dev := s.dev.updTnd fun y => { y with sent := [4] } }) ∧
  (∀ (s : State) (link tD tag : Nat) (abort : Bool) (y : Spoke),
    link < 8 → s.dev.spoke (256 + link) = some y → y.st ≠ .active → y.dis = .ending abort tD tag → y.resize = none → 
      ∃ t, exec (.tndLinkDisabled link) s = .next t ∧
      t.dev.spoke (256 + link) = some { y with st := .disabled, since := s.clk.atc, dis := .disabled, window := false, fast := false, agreed := none })

/-- The group, a link's asymmetry, windows, exports, streams and exchange channels are set; a link is disabled, enabled and tested; status is answered; an acting captain's handback is accepted two frames ahead and LATE nearer. Each clause ends in: exec of its command is a next state. So these commands complete: tndGroupSet, tndLinkSet, tndStatus, tndLinkDisable, tndLinkEnable, tndWindowSet, tndExportSet, tndStreamSet, tndXchgSet, tndHandback, tndLinkSelftest. [19_tandem.md, R540, R543, R544, R554, R555, R556, R557, R559] -/
def Obligations.TandemCommands : Prop :=
  (∀ (s : State) (r : Req) (w : Waiting) (group topology n : Nat),
    Waits s r 0x0C01 w → (topology ≤ 1 ∧ 2 ≤ n ∧ n ≤ 3) → (s.dev.devmode.mode ≠ .captain ∧ s.dev.devmode.mode ≠ .stoker) → 
      exec (.tndGroupSet r group topology n) s = .next { s with dev := answered s.clk w (rOk) (noted (s.dev.updTnd fun y => { y with group := some (group, topology, n) })) }) ∧
  (∀ (s : State) (r : Req) (w : Waiting) (link : Nat) (asym : Int),
    Waits s r 0x0C02 w → link < 8 → 
      exec (.tndLinkSet r link asym) s = .next { s with dev := answered s.clk w (rOk) (noted (s.dev.updTndLink link fun l => { l with asym := asym })) }) ∧
  (∀ (s : State) (r : Req) (w : Waiting),
    Waits s r 0x0C03 w → Fits w 93 → 
      ∃ t, exec (.tndStatus r) s = .next t ∧
      Answers s t w (rOk ([(1, s.dev.pkg.tandemId), (1, s.dev.tnd.epoch), (1, s.dev.tnd.following.toNat), (1, s.dev.upstream.getD 0xFF), (8, uns 64 s.dev.tnd.offset), (1, s.dev.tnd.members)] ++
      ((List.range 8).flatMap fun k => [(1, ((s.dev.spoke (256 + k)).map fun z => z.st.code).getD 0), (1, s.dev.linkReason k), (8, (s.dev.tndLink k).delay)]))) ∧ t.dev.tnd = s.dev.tnd) ∧
  (∀ (s : State) (r : Req) (w : Waiting) (link mode : Nat) (y : Spoke),
    Waits s r 0x0C04 w → Fits w 8 → link < 8 → mode = 0 → s.dev.spoke (256 + link) = some y → y.st = .active → y.dis = .on → 
      exec (.tndLinkDisable r link mode) s = .next { s with dev := answered s.clk w (rAcc [(8, s.clk.atc)]) (noted (s.dev.updSpoke (256 + link) fun y => { y with dis := .ending false s.clk.atc w.tag })) }) ∧
  (∀ (s : State) (r : Req) (w : Waiting) (link : Nat) (y : Spoke),
    Waits s r 0x0C05 w → link < 8 → (s.dev.linkPeer link).isSome = true → s.dev.spoke (256 + link) = some y → y = { Spoke.tandem with dis := .disabled } → (s.dev.laneBar (256 + 2 * link) 112500000 = none ∧ s.dev.laneBar (257 + 2 * link) 112500000 = none) → ((s.dev.lane (256 + 2 * link)).retired = false ∧ (s.dev.lane (257 + 2 * link)).retired = false) → 
      ∃ t, exec (.tndLinkEnable r link) s = .next t ∧
      Answers s t w rOk ∧ ((t.dev.spoke (256 + link)).map fun z => z.st) = some (if s.dev.laneOptical (256 + 2 * link) then .train else .detect) ∧ ((t.dev.spoke (256 + link)).map fun z => z.dis) = some .on) ∧
  (∀ (s : State) (r : Req) (w : Waiting) (window peer base : Nat),
    Waits s r 0x0C06 w → (window < 8 ∧ peer < 8) → base % 0x10000000 = 0 → regionOf base = .dram → 
      exec (.tndWindowSet r window peer base) s = .next { s with dev := answered s.clk w (rOk) (noted (s.dev.updTnd fun y => { y with windows := tput y.windows window (peer, base) })) }) ∧
  (∀ (s : State) (r : Req) (w : Waiting) (range base size mask : Nat),
    Waits s r 0x0C07 w → range < 8 → size ≠ 0 → regionOf base = .dram → regionOf (base + size - 1) = .dram → 
      exec (.tndExportSet r range base size mask) s = .next { s with dev := answered s.clk w (rOk) (noted (s.dev.updTnd fun y => { y with exports := tput y.exports range (base, size, mask) })) }) ∧
  (∀ (s : State) (r : Req) (w : Waiting) (stream outlet spoke dirs pcid enable : Nat) (fits : Bool) (y : Stream),
    Waits s r 0x0C08 w → s.dev.stream stream = some y → Sees w.func y.owner → (outlet < 8 ∧ outlet ≠ s.dev.pkg.tandemId ∧ spoke < 144 ∧ 1 ≤ dirs ∧ dirs ≤ 3) → enable = 1 → s.dev.streamBusy stream y = false → fits = true → 
      exec (.tndStreamSet r stream outlet spoke dirs pcid enable fits) s = .next { s with dev := answered s.clk w (rOk) (noted (s.dev.updTnd fun z => { z with streams := tput z.streams stream { outlet := outlet, spoke := spoke, dirs := dirs, pcid := pcid } })) }) ∧
  (∀ (s : State) (r : Req) (w : Waiting) (chan owner pool base log prio timed deadline srcBase srcSize dstBase dstSize : Nat),
    Waits s r 0x0C09 w → (576 ≤ chan ∧ chan < 592) → (owner = 1 ∨ owner = 2) → (pool < 64 ∧ 3 ≤ log ∧ log ≤ 12 ∧ prio ≤ 3 ∧ timed ≤ 1 ∧ deadline ≤ 1) → inMemory base (64 * 2 ^ log) = true → (s.dev.chan chan).dis = .off → 
      exec (.tndXchgSet r chan owner pool base log prio timed deadline srcBase srcSize dstBase dstSize) s = .next { s with dev := answered s.clk w (rOk) (noted (s.dev.updChan chan fun k => { k with owner := owner, pool := pool, base := base, log := log, prio := prio, timed := timed = 1, deadline := deadline = 1, srcWin := (srcBase, srcSize), dstWin := (dstBase, dstSize), dis := .on, stall := false, starts := 0 })) }) ∧
  (∀ (s : State) (r : Req) (w : Waiting) (boundary : Nat),
    Waits s r 0x0C0A w → boundary % 19660800 = 0 → s.dev.devmode.mode = .captain → s.dev.pkg.tandemId ≠ 0 → s.dev.devmode.pend = none → s.dev.tnd.handback = none → s.clk.atc + 39321600 ≤ boundary → 
      exec (.tndHandback r boundary) s = .next { s with dev := answered s.clk w (rAcc) (noted (s.dev.updTnd fun y => { y with handback := some (boundary, w.tag) })) }) ∧
  (∀ (s : State) (r : Req) (w : Waiting) (boundary : Nat),
    Waits s r 0x0C0A w → boundary % 19660800 = 0 → s.dev.devmode.mode = .captain → s.dev.pkg.tandemId ≠ 0 → s.dev.devmode.pend = none → s.dev.tnd.handback = none → boundary < s.clk.atc + 39321600 → 
      exec (.tndHandback r boundary) s = .next { s with dev := answered s.clk w (rSt 0x0032) s.dev }) ∧
  (∀ (s : State) (r : Req) (w : Waiting) (link : Nat) (y : Spoke),
    Waits s r 0x0C0B w → link < 8 → s.dev.spoke (256 + link) = some y → y.st = .disabled → 
      ∃ t, exec (.tndLinkSelftest r link) s = .next t ∧
      Answers s t w rAcc ∧ (t.dev.lane (256 + 2 * link)).testAt = s.clk.atc + 1 ∧ (t.dev.lane (257 + 2 * link)).testAt = s.clk.atc + 1 ∧ (t.dev.lane (257 + 2 * link)).asked = some w.tag)

/-- A pair's heartbeat is kept; a failed active pair starts limp with a standby and the coast without one; the standby takes over; a checkpoint clears the journal; the standby becomes ready with its event; at the coast's boundary the device is fatal; the supervisor's restarts count, the third within a second holding it; a keyed RESTART starts up again from the clocks, and without its key does nothing; writing ones clears bits of a trouble word but those an event set in the same cycle. Each clause ends in: exec of its command is a next state. So these commands complete: pairHeartbeat, pairFailed, mgmtTakeover, checkpoint, mgmtStandby, mgmtFatal, mgmtSupervisor, warmRestart, trbClear. [20_management_and_recovery.md, R562, R563, R564, R565, R566, R567, R569, R570, R571, R577] -/
def Obligations.ManagementEvents : Prop :=
  (∀ (s : State) (pair : Nat),
    
      exec (.pairHeartbeat pair) s = .next { s with dev := s.dev.updMgmt fun m => { m with beat := if pair = 1 then (m.beat.1, s.clk.atc) else (s.clk.atc, m.beat.2) } }) ∧
  (∀ (s : State) (pair cause : Nat),
    (s.dev.mgmt.svc = true ∧ s.dev.mgmt.fatal = false ∧ s.dev.mgmt.coasting = false ∧ s.dev.mgmt.limp = false ∧ s.dev.mgmt.supHeld = false) → pair = 0 → s.dev.mgmt.activeB = false → cause = 2 → s.dev.mgmt.pairB = .ready → s.dev.mgmt.fwRun = none → 
      ∃ t, exec (.pairFailed pair cause) s = .next t ∧
      t.dev.mgmt.limp = true ∧ t.dev.mgmt.limpCause = some (2, s.clk.atc, 0) ∧ t.dev.mgmt.pairA = .testing ∧ t.dev.mgmt.activeB = false ∧ bit (tget 0 t.dev.mgmt.trb 34).toNat 1 = true) ∧
  (∀ (s : State) (pair cause : Nat),
    (s.dev.mgmt.svc = true ∧ s.dev.mgmt.fatal = false ∧ s.dev.mgmt.coasting = false ∧ s.dev.mgmt.limp = false ∧ s.dev.mgmt.supHeld = false) → pair = 0 → s.dev.mgmt.activeB = false → cause = 2 → s.dev.mgmt.pairB = .retired → 
      ∃ t, exec (.pairFailed pair cause) s = .next t ∧
      t.dev.mgmt.coasting = true ∧ t.dev.mgmt.coastEnd = some (upTo (s.clk.atc + s.dev.mgmt.coastMs * 1966080) 19660800, 1) ∧ t.dev.mgmt.limp = false) ∧
  (∀ (s : State) (at_ tag : Nat),
    s.dev.mgmt.limp = true → s.dev.mgmt.limpCause = some (2, at_, tag) → s.dev.mgmt.activeB = false → s.dev.mgmt.limpHeld = [] → 
      ∃ t, exec (.mgmtTakeover) s = .next t ∧
      t.dev.mgmt.limp = false ∧ t.dev.mgmt.activeB = true ∧ t.dev.mgmt.pairB = .active ∧ t.dev.mgmt.pairA = .testing ∧ t.dev.mgmt.takeovers = (s.dev.mgmt.takeovers + 1) % 2 ^ 32 ∧ t.dev.mgmt.beat = (s.clk.atc, s.clk.atc)) ∧
  (∀ (s : State),
    (s.dev.mgmt.limp = false ∧ s.dev.mgmt.fatal = false ∧ s.dev.mgmt.coasting = false) → s.dev.mgmt.fwRun = none → 
      exec (.checkpoint) s = .next { s with dev := s.dev.updMgmt fun m => { m with ckptAt := s.clk.atc, journal := 0 } }) ∧
  (∀ (s : State) (pass : Bool),
    (s.dev.mgmt.limp = false ∧ s.dev.mgmt.fatal = false ∧ s.dev.mgmt.activeB = false) → s.dev.mgmt.pairB = .loading → pass = true → s.dev.mgmt.fwRun = none → 
      exec (.mgmtStandby pass) s = .next { s with dev := (s.dev.updMgmt fun m => { m with pairB := .ready }).evt0 s.clk 0x0F81 0 [(0, 1, 0)] }) ∧
  (∀ (s : State) (q cause : Nat),
    s.dev.mgmt.coasting = true → s.dev.mgmt.coastEnd = some (q, cause) → q ≤ s.clk.atc → s.dev.mgmt.fatal = false → 
      ∃ t, exec (.mgmtFatal) s = .next t ∧
      t.dev.mgmt.fatal = true ∧ t.dev.mgmt.fatalCause = cause ∧ t.dev.mgmt.fatalAt = q ∧ t.dev.mgmt.logFlash = some t.dev.mgmt.log ∧ t.dev.air.carriers = s.dev.air.carriers.map (fun e => (e.1, { e.2 with stopped := true }))) ∧
  (∀ (s : State),
    s.dev.mgmt.supHeld = false → s.dev.mgmt.supTimes = [] → 
      ∃ t, exec (.mgmtSupervisor) s = .next t ∧
      t.dev.mgmt.supRestarts = (s.dev.mgmt.supRestarts + 1) % 2 ^ 32 ∧ t.dev.mgmt.supTimes = [s.clk.atc] ∧ t.dev.mgmt.supHeld = false) ∧
  (∀ (s : State) (a c : Nat),
    s.dev.mgmt.supHeld = false → s.dev.mgmt.supTimes = [a, c] → (s.clk.atc < a + 1966080000 ∧ s.clk.atc < c + 1966080000) → 
      ∃ t, exec (.mgmtSupervisor) s = .next t ∧
      t.dev.mgmt.supRestarts = (s.dev.mgmt.supRestarts + 1) % 2 ^ 32 ∧ t.dev.mgmt.supHeld = true) ∧
  (∀ (s : State) (key : Nat) (go : Bool),
    (key = 0xA5 ∧ go = true) → s.dev.startup.phase = .service → s.clk.run = true → 
      ∃ t, exec (.warmRestart key go) s = .next t ∧
      t.clk = s.clk ∧ t.dev.startup.phase = .clocks ∧ t.dev.startup.warm = some s.clk.atc ∧ t.dev.host.linkUp = s.dev.host.linkUp ∧ t.dev.host.mem = s.dev.host.mem ∧ t.dev.mgmt.trb = s.dev.mgmt.trb ∧ t.dev.mgmt.log = s.dev.mgmt.log ∧ t.dev.mgmt.takeovers = s.dev.mgmt.takeovers ∧ t.dev.mgmt.svc = false ∧ t.dev.mem.cells = [] ∧ t.dev.air.carriers = [] ∧ t.dev.pkg.blobFlash = s.dev.pkg.blobFlash) ∧
  (∀ (s : State) (key : Nat) (go : Bool),
    (key ≠ 0xA5 ∨ go = false) → 
      exec (.warmRestart key go) s = .next s) ∧
  (∀ (s : State) (v mask : Nat),
    v < 37 → 
      exec (.trbClear v mask) s = .next { s with dev := s.dev.updMgmt fun m => { m with trb := tmod 0 m.trb v fun x => x &&& (~~~(BitVec.ofNat 16 mask) ||| tget 0 s.dev.cyc.trb v) } })

/-- The coast time is set and with PERSIST kept; status is answered; a takeover is begun with a ready standby and BADSTATE without; the log is read and saved and the trouble words read; signed firmware is loaded into the slot not booted and unsigned is BADARG; it is activated, its update ends with an event, and its status is answered. Each clause ends in: exec of its command is a next state. So these commands complete: mgmtSet, mgmtStatus, mgmtFailover, trbLogRead, trbLogSave, trbGet, updFwLoad, updFwActivate, updFwDone, updFwStatus. [20_management_and_recovery.md, R564, R567, R571, R572, R574, R576, R577, R580] -/
def Obligations.ManagementCommands : Prop :=
  (∀ (s : State) (r : Req) (w : Waiting) (coast persist : Nat),
    Waits s r 0x0F01 w → coast ≤ 2000 → persist = 0 → 
      exec (.mgmtSet r coast persist) s = .next { s with dev := answered s.clk w (rOk) (noted (s.dev.updMgmt fun m => { m with coastMs := coast })) }) ∧
  (∀ (s : State) (r : Req) (w : Waiting) (coast persist : Nat),
    Waits s r 0x0F01 w → coast ≤ 2000 → persist ≠ 0 → 
      exec (.mgmtSet r coast persist) s = .next { s with dev := answered s.clk w (rOk) (noted ((s.dev.updMgmt fun m => { m with coastMs := coast }).updStartup fun u => { u with profCoast := some coast })) }) ∧
  (∀ (s : State) (r : Req) (w : Waiting),
    Waits s r 0x0F02 w → Fits w 23 → 
      exec (.mgmtStatus r) s = .next { s with dev := answered s.clk w (rOk [(4, s.dev.mgmt.word0), (4, s.dev.mgmt.takeovers), (4, s.dev.mgmt.supRestarts), (1, s.dev.mgmt.standby.code), (8, s.dev.mgmt.ckptAt), (2, s.dev.mgmt.journal)]) s.dev }) ∧
  (∀ (s : State) (r : Req) (w : Waiting) (v : Waiting),
    Waits s r 0x0F03 w → s.dev.mgmt.activeB = false → s.dev.mgmt.pairB = .ready → s.dev.mgmt.pairA = .active → v = w → 
      ∃ t, exec (.mgmtFailover r) s = .next t ∧
      t.dev.mgmt.limp = true ∧ t.dev.mgmt.limpCause = some (3, s.clk.atc, w.tag) ∧ t.dev.mgmt.pairA = .testing ∧ t.dev.mgmt.activeB = false ∧ t.dev.host.waiting = []) ∧
  (∀ (s : State) (r : Req) (w : Waiting),
    Waits s r 0x0F03 w → s.dev.mgmt.activeB = false → s.dev.mgmt.pairB = .loading → 
      exec (.mgmtFailover r) s = .next { s with dev := answered s.clk w (rSt 0x0022) s.dev }) ∧
  (∀ (s : State) (r : Req) (w : Waiting) (first count source : Nat) (e : LogEntry),
    Waits s r 0x0F10 w → Fits w 38 → (1 ≤ count ∧ count ≤ 4096) → source = 0 → s.dev.mgmt.log = [e] → e.seq = first → e.data.length = 14 → 
      ∃ t, exec (.trbLogRead r first count source) s = .next t ∧
      t.dev = answered s.clk w { status := stOK, payload := pk [(2, 1), (4, first)] ++ e.bytes } s.dev) ∧
  (∀ (s : State) (r : Req) (w : Waiting),
    Waits s r 0x0F11 w → 
      exec (.trbLogSave r) s = .next { s with dev := answered s.clk w (rAcc) (s.dev.updMgmt fun m => { m with logFlash := some m.log }) }) ∧
  (∀ (s : State) (r : Req) (w : Waiting),
    Waits s r 0x0F12 w → Fits w 74 → 
      exec (.trbGet r) s = .next { s with dev := answered s.clk w (rOk ((List.range 37).map fun v => (2, (tget 0 s.dev.mgmt.trb v).toNat))) s.dev }) ∧
  (∀ (s : State) (r : Req) (w : Waiting) (release ckptVer : Nat) (sigOk : Bool),
    Waits s r 0x1001 w → Fits w 6 → s.dev.mgmt.updating = false → s.dev.mgmt.booted = 0 → sigOk = true → 
      exec (.updFwLoad r sigOk release ckptVer) s = .next { s with dev := answered s.clk w (rOk [(4, release), (2, ckptVer)]) (noted (s.dev.updMgmt fun m => { m with fw1 := { loaded := true, release := release, ckpt := ckptVer } })) }) ∧
  (∀ (s : State) (r : Req) (w : Waiting) (release ckptVer : Nat) (sigOk : Bool),
    Waits s r 0x1001 w → s.dev.mgmt.updating = false → sigOk = false → 
      ∃ t, exec (.updFwLoad r sigOk release ckptVer) s = .next t ∧
      Answers s t w (rBad 0) ∧ t.dev.mgmt = s.dev.mgmt) ∧
  (∀ (s : State) (r : Req) (w : Waiting),
    Waits s r 0x1002 w → s.dev.mgmt.updating = false → (s.dev.mgmt.booted = 0 ∧ s.dev.mgmt.activeB = false) → s.dev.mgmt.fw1.loaded = true → s.dev.mgmt.pairB = .ready → s.dev.mgmt.fw1.ckpt = s.dev.mgmt.fw0.ckpt → 
      ∃ t, exec (.updFwActivate r) s = .next t ∧
      t.dev.mgmt.updating = true ∧ t.dev.mgmt.fwRun = some { step := 1, since := s.clk.atc, tag := w.tag } ∧ t.dev.mgmt.pairB = .loading ∧ t.dev.host.waiting = []) ∧
  (∀ (s : State) (bootOk : Bool) (x : FwRun),
    s.dev.mgmt.fwRun = some x → x.step = 5 → 
      exec (.updFwDone bootOk) s = .next { s with dev := (s.dev.updMgmt fun m => { m with updating := false, fwRun := none }).evt0 s.clk 0x1080 x.tag [(0, 1, 1), (2, 2, s.dev.mgmt.running % 65536)] }) ∧
  (∀ (s : State) (r : Req) (w : Waiting),
    Waits s r 0x1003 w → Fits w 10 → s.dev.mgmt.fwRun = none → 
      exec (.updFwStatus r) s = .next { s with dev := answered s.clk w (rOk [(1, s.dev.mgmt.booted), (4, s.dev.mgmt.fw0.release), (4, s.dev.mgmt.fw1.release), (1, 0)]) s.dev })

/-- A level change is posted as a Cadence entry, LATE if too near, and ends with its target in force, reported if asked; a sleep request begins with the first domain and is BADSTATE for one asleep; a domain acknowledges and enters sleep or refuses, stops and is asleep, and the group ends with its event; a wake makes a domain wake, and it is awake with its gate open; the status of every domain is answered; DORMANT's wake mode and ATC are kept, and it wakes at it. Each clause ends in: exec of its command is a next state. So these commands complete: pwrLevelSet, pwrLevelDone, pwrSleep, domainAck, domainStopped, pwrSlept, pwrWake, pwrWoke, pwrStatus, pwrDormantSet, dormantWake. [21_power.md, R584, R585, R586, R588, R590, R593, R594, R595, R596, R598, R600] -/
def Obligations.PowerDomains : Prop :=
  (∀ (s : State) (r : Req) (w : Waiting) (mask level at_ notify n i : Nat) (e : Dev),
    Waits s r 0x0D01 w → Fits w 40 → (mask < 2 ^ 20 ∧ level ≤ 7) → ones 20 mask = [n] → s.clk.atc + 3932 < at_ → s.dev.charges = [] → notify = 0 → s.dev.breanoPost s.clk { trigger := at_, period := 0, count := 0, action := 7, flags := 0, target := n, arg := level } = some (i, e) → e.host = s.dev.host → 
      exec (.pwrLevelSet r mask level at_ notify) s = .next { s with dev := answered s.clk w (rOk ((List.range 20).map fun k => (2, if k = n then i else 0xFFFF))) (noted e) }) ∧
  (∀ (s : State) (r : Req) (w : Waiting) (mask level at_ notify : Nat),
    Waits s r 0x0D01 w → (mask < 2 ^ 20 ∧ level ≤ 7) → (at_ ≠ 0 ∧ at_ ≤ s.clk.atc + 3932) → 
      exec (.pwrLevelSet r mask level at_ notify) s = .next { s with dev := answered s.clk w (rSt 0x0032) s.dev }) ∧
  (∀ (s : State) (dom at_ : Nat),
    (s.dev.dom dom).firedAt = some at_ → (s.dev.dom dom).notify = none → 
      exec (.pwrLevelDone dom) s = .next { s with dev := s.dev.updDom dom fun x => { x with level := x.target, firedAt := none, notify := none } }) ∧
  (∀ (s : State) (dom at_ tag : Nat),
    (s.dev.dom dom).firedAt = some at_ → (s.dev.dom dom).notify = some tag → 
      exec (.pwrLevelDone dom) s = .next { s with dev := (s.dev.updDom dom fun x => { x with level := x.target, firedAt := none, notify := none }).evt0 s.clk 0x0D82 tag [(0, 1, dom), (1, 1, (s.dev.dom dom).target), (8, 8, s.clk.atc)] }) ∧
  (∀ (s : State) (r : Req) (w : Waiting) (mask depth wake n : Nat),
    Waits s r 0x0D02 w → Fits w 2 → ones 32 mask = [n] → mask < 2 ^ 32 → (1 ≤ depth ∧ depth ≤ 3) → (s.dev.dom n).st = .awake → s.dev.power.group = none → s.dev.charges = [] → 
      exec (.pwrSleep r mask depth wake) s = .next { s with dev := answered s.clk w (rAcc [(1, 0xFF), (1, 0)]) (noted (s.dev.updPower fun p => { p with group := some { mask := mask, depth := depth, wake := wake, tag := w.tag, asking := some (n, false), askedAt := s.clk.atc } })) }) ∧
  (∀ (s : State) (r : Req) (w : Waiting) (mask depth wake : Nat),
    Waits s r 0x0D02 w → mask ≠ 0 → (1 ≤ depth ∧ depth ≤ 3) → ((ones 32 mask).any fun n => (s.dev.dom n).st != .awake) = true → 
      exec (.pwrSleep r mask depth wake) s = .next { s with dev := answered s.clk w (rSt 0x0022) s.dev }) ∧
  (∀ (s : State) (dom : Nat) (g : SleepGroup),
    s.dev.power.group = some g → g.asking = some (dom, false) → g.askedAt + 2 ≤ s.clk.atc → g.refusal = none → s.dev.refusal g dom = none → 
      ∃ t, exec (.domainAck dom) s = .next t ∧
      (t.dev.dom dom).st = .entering ∧ (t.dev.dom dom).depth = g.depthOf dom ∧ t.dev.power.group = some { g with asking := some (dom, true) } ∧ (t.dev.gate dom).st = 1) ∧
  (∀ (s : State) (dom why : Nat) (g : SleepGroup),
    s.dev.power.group = some g → g.asking = some (dom, false) → g.askedAt + 2 ≤ s.clk.atc → g.refusal = none → s.dev.refusal g dom = some why → g.stopped = [] → 
      exec (.domainAck dom) s = .next { s with dev := s.dev.updPower fun p => { p with group := some { g with asking := none, refusal := some (dom, why) } } }) ∧
  (∀ (s : State) (dom : Nat) (g : SleepGroup),
    s.dev.power.group = some g → g.asking = some (dom, true) → s.dev.gateIsolated dom = true → (g.dormant = false ∧ ones 32 g.mask = [dom] ∧ g.stopped = []) → 
      ∃ t, exec (.domainStopped dom) s = .next t ∧
      (t.dev.dom dom).st = .asleep ∧ t.dev.power.group = some { g with stopped := [dom], asking := none } ∧ t.dev.mem = s.dev.mem) ∧
  (∀ (s : State) (g : SleepGroup),
    s.dev.power.group = some g → g.refusal = none → ((ones 32 g.mask).all fun n => g.stopped.contains n) = true → (g.wake = 0 ∧ g.latched = []) → (s.dev.devmode.mode ≠ .dormant ∨ g.dormant = true) → s.dev.mgmt.limp = false → s.dev.power.replayed < 2 ^ 32 → 
      exec (.pwrSlept) s = .next { s with dev := (s.dev.updPower fun p => { p with group := none }).evt0 s.clk 0x0D80 g.tag [(0, 4, g.mask), (4, 1, g.depth), (5, 1, 0), (6, 1, 0xFF), (7, 1, 0)] }) ∧
  (∀ (s : State) (r : Req) (w : Waiting) (mask n : Nat),
    Waits s r 0x0D03 w → s.dev.devmode.mode ≠ .dormant → ones 32 mask = [n] → s.dev.power.group = none → (s.dev.dom n).st = .asleep → s.dev.power.down = [] → 
      exec (.pwrWake r mask) s = .next { s with dev := answered s.clk w (rAcc) (noted (s.dev.updDom n fun x => { x with st := .waking, wakeAt := s.clk.atc, wakeCause := 1, wakeTag := w.tag })) }) ∧
  (∀ (s : State) (dom : Nat),
    (s.dev.dom dom).st = .waking → (s.dev.dom dom).depth ≠ 3 → s.dev.devmode.pend = none → s.dev.power.group = none → s.dev.mgmt.limp = false → 
      ∃ t, exec (.pwrWoke dom) s = .next t ∧
      (t.dev.dom dom) = { s.dev.dom dom with st := .awake, depth := 0 } ∧ (t.dev.gate dom).st = 0 ∧ t.dev.mem = s.dev.mem) ∧
  (∀ (s : State) (r : Req) (w : Waiting),
    Waits s r 0x0D04 w → Fits w 136 → 
      ∃ t, exec (.pwrStatus r) s = .next t ∧
      Answers s t w (rOk ((List.range 32).flatMap (fun n => [(1, (s.dev.dom n).st.code), (1, (s.dev.dom n).depth), (1, if n < 20 then (s.dev.dom n).level else 0), (1, if n < 20 then (s.dev.dom n).target else 0)]) ++ [(4, s.dev.power.replayed), (4, s.dev.power.discarded)])) ∧ t.dev.power = s.dev.power) ∧
  (∀ (s : State) (r : Req) (w : Waiting) (mode wake : Nat),
    Waits s r 0x0D05 w → (1 ≤ mode ∧ mode ≤ 7 ∧ mode ≠ 2) → 
      exec (.pwrDormantSet r mode wake) s = .next { s with dev := answered s.clk w (rOk) (noted (s.dev.updPower fun p => { p with wakeMode := mode, wakeAtc := wake })) }) ∧
  (∀ (s : State),
    s.dev.devmode.mode = .dormant → s.dev.devmode.pend = none → (s.dev.power.wakeAtc ≠ 0 ∧ s.dev.power.wakeAtc ≤ s.clk.atc) → 
      ∃ t, exec (.dormantWake) s = .next t ∧
      t.dev.power.wakeAtc = 0 ∧ (t.dev.devmode.pend.map fun q => q.target) = some ((Mode.ofCode s.dev.power.wakeMode).getD .hub))

/-- Power-on reset, clock lock, Breano's boot, the self-tests and service-ready follow one another, a core that fails its test being retired; without a blob, by a failed check or at the deadline start-up stops; a resume restores the profile's streams, and its timeout ends it with an event; the profile is saved, and start-up status and a resume are answered, a resume with none pending BADSTATE. Each clause ends in: exec of its command is a next state. So these commands complete: powerOnReset, clockLock, breanoBoot, startupSelftestDone, serviceReady, startupStop, startupTimeout, resumeDone, resumeTimeout, deviceProfileSave, deviceStartupStatus, deviceResume. [22_power_to_service.md, R602, R603, R605, R607, R608, R609, R611, R612] -/
def Obligations.StartUpSteps : Prop :=
  (∀ (s : State) (spliceOk : Bool),
    s.dev.startup.phase = .held → spliceOk = true → 
      ∃ t, exec (.powerOnReset spliceOk) s = .next t ∧
      t.dev.startup.phase = .reset ∧ t.dev.startup.ends = s.dev.startup.ends.set 0 s.clk.atc ∧ t.dev.pkg.tandemId = s.dev.pkg.tandemStrap % 8 ∧ t.dev.pkg.blobForce = s.dev.pkg.blobForceStrap ∧ t.dev.mem.splices = s.dev.mem.flashSplices) ∧
  (∀ (s : State),
    s.dev.startup.phase = .reset → 
      ∃ t, exec (.clockLock) s = .next t ∧
      t.clk = { s.clk with run := true } ∧ t.dev.startup.phase = .clocks ∧ t.dev.startup.ends = s.dev.startup.ends.set 1 s.clk.atc) ∧
  (∀ (s : State),
    s.dev.startup.phase ≠ .reset → 
      exec (.clockLock) s = .next s) ∧
  (∀ (s : State) (imgOk pairOk : Bool),
    s.dev.startup.phase = .clocks → (imgOk = true ∧ pairOk = true) → s.dev.startup.warm = none → 
      ∃ t, exec (.breanoBoot imgOk pairOk) s = .next t ∧
      t.dev.mgmt.activeB = s.dev.mgmt.activeB ∧
      (match s.dev.pkg.chooseBlob with
      | some (q, _) => t.dev.startup.phase = .boot ∧ t.dev.pkg.blob = q ∧ t.dev.spk.table = (q.drop 64).take 6144 ∧ t.dev.spk.tandemTable = (q.drop 6208).take 768
      | none => t.dev.startup.phase = .stopped ∧ t.dev.startup.stop = (3, 5))) ∧
  (∀ (s : State) (imgOk pairOk : Bool),
    s.dev.startup.phase = .clocks → imgOk = true → (s.dev.pkg.blobFlash = none ∧ s.dev.pkg.blobBoard = none) → 
      ∃ t, exec (.breanoBoot imgOk pairOk) s = .next t ∧
      t.dev.startup.phase = .stopped ∧ t.dev.startup.stop = (3, 5) ∧ t.dev.mgmt.fatal = true ∧ t.dev.mgmt.fatalCause = 3 ∧ t.dev.pkg.devFault = true) ∧
  (∀ (s : State) (cores clusters rows rams : List Nat),
    s.dev.startup.phase = .boot → (cores = [] ∧ clusters = [] ∧ rows = [] ∧ rams = []) → 
      exec (.startupSelftestDone cores clusters rows rams) s = .next { s with dev := s.dev.updStartup fun u => { u with ends := (u.ends.set 4 s.clk.atc).set 5 s.clk.atc, phase := .tested } }) ∧
  (∀ (s : State) (cores clusters rows rams : List Nat) (n : Nat),
    s.dev.startup.phase = .boot → n < 1024 → (cores = [n] ∧ clusters = [] ∧ rows = [] ∧ rams = []) → (s.dev.core n).st = .idle → 
      ∃ t, exec (.startupSelftestDone cores clusters rows rams) s = .next t ∧
      t.dev.startup.phase = .tested ∧ (t.dev.core n).st = .retired) ∧
  (∀ (s : State) (standby : Bool),
    s.dev.startup.phase = .tested → s.clk.atc < s.dev.startup.deadline → s.dev.startup.profile = none → s.dev.mgmt.activeB = false → 
      ∃ t, exec (.serviceReady standby) s = .next t ∧
      t.dev.startup.phase = .service ∧ t.dev.startup.readyAt = s.clk.atc ∧ t.dev.mgmt.svc = true ∧ t.dev.mgmt.pairA = .active ∧ t.dev.mgmt.pairB = (if standby then .ready else .testing) ∧ t.dev.devmode.mode = .dormant ∧ t.dev.devmode.since = s.clk.atc ∧ t.dev.time.st = 5 ∧ t.dev.time.ftrim = s.dev.time.ftrim ∧ t.dev.power = s.dev.power) ∧
  (∀ (s : State) (step reason : Nat),
    s.dev.startup.phase = .boot → (step = 4 ∧ reason = 6) → 
      ∃ t, exec (.startupStop step reason) s = .next t ∧
      t.dev.startup.phase = .stopped ∧ t.dev.startup.stop = (4, 6) ∧ t.dev.mgmt.fatal = true ∧ t.dev.pkg.devFault = true) ∧
  (∀ (s : State),
    s.dev.startup.phase = .tested → s.dev.startup.deadline ≤ s.clk.atc → 
      ∃ t, exec (.startupTimeout) s = .next t ∧
      t.dev.startup.phase = .stopped ∧ t.dev.startup.stop = (6, 8) ∧ t.dev.mgmt.fatal = true ∧ t.dev.pkg.devFault = true) ∧
  (∀ (s : State) (q : Profile),
    s.dev.startup.resume = 1 → (s.dev.mgmt.fatal = false ∧ s.dev.mgmt.coasting = false ∧ s.dev.mgmt.limp = false) → s.dev.time.st = 2 → s.dev.time.set.profile ≠ 0 → s.dev.startup.profile = some q → q.carriers = [] → 
      ∃ t, exec (.resumeDone) s = .next t ∧
      t.dev.startup.resume = 2 ∧ t.dev.fe.streams = q.fe.streams ∧ t.dev.air.carriers = s.dev.air.carriers) ∧
  (∀ (s : State) (q : Profile),
    s.dev.startup.profile = some q → s.dev.startup.resume = 1 → s.dev.startup.readyAt + q.wait * 1966080000 ≤ s.clk.atc → s.dev.mgmt.limp = false → 
      exec (.resumeTimeout) s = .next { s with dev := (s.dev.updStartup fun u => { u with resume := 3, stokerWait := false }).evt0 s.clk 0x0188 0 [(0, 1, 1), (1, 1, 0), (2, 2, 0)] }) ∧
  (∀ (s : State) (r : Req) (w : Waiting) (auto wait : Nat),
    Waits s r 0x0104 w → Fits w 12 → (auto ≤ 1 ∧ wait ≤ 3600) → s.dev.mgmt.updating = false → s.dev.devmode.pend = none → 
      ∃ t, exec (.deviceProfileSave r auto wait) s = .next t ∧
      Answers s t w (rOk [(8, s.clk.atc), (4, Config.freeNat s.dev.free % 2 ^ 32)]) ∧ t.dev.free = s.dev.free + 1 ∧ t.dev.startup.profile = some (s.dev.profile (auto = 1) wait) ∧ t.dev.startup.profCoast = some s.dev.mgmt.coastMs) ∧
  (∀ (s : State) (r : Req) (w : Waiting),
    Waits s r 0x0105 w → Fits w 57 → s.dev.startup.ends.length = 6 → 
      ∃ t, exec (.deviceStartupStatus r) s = .next t ∧
      Answers s t w (rOk (s.dev.startup.ends.map (fun e => (8, e)) ++ [(1, s.dev.startup.stop.1), (1, s.dev.startup.stop.2), (2, (s.dev.cores.core.filter fun e => e.2.st = .retired).length), (2, s.dev.mem.retiredPages.length), (2, s.dev.mem.repair.length), (1, s.dev.startup.resume)])) ∧ t.dev.startup = s.dev.startup) ∧
  (∀ (s : State) (r : Req) (w : Waiting) (q : Profile),
    Waits s r 0x0106 w → Fits w 2 → s.dev.startup.resume = 1 → s.dev.startup.profile = some q → q.carriers = [] → 
      ∃ t, exec (.deviceResume r) s = .next t ∧
      t.dev.startup.resume = 2 ∧ t.dev.fe.streams = q.fe.streams ∧ t.dev.air.carriers = s.dev.air.carriers ∧ t.dev.host.waiting = []) ∧
  (∀ (s : State) (r : Req) (w : Waiting),
    Waits s r 0x0106 w → s.dev.startup.resume ≠ 1 → 
      exec (.deviceResume r) s = .next { s with dev := answered s.clk w (rSt 0x0022) s.dev })

/-- VIN at 5.8 V or more starts the supplies and below it has no effect. VIN below 5.4 V turns the device off: memory and log are lost, flash and host memory stay; at 5.4 V or more it has no effect. VIN above 62 V turns it off, and its return below 60.5 V starts the supplies again. PFAIL drives DEV_FAULT and saves the first 512 log entries. A refresh stores the readings, and one that finds a junction at 105 C or more marks the device hot. A sensor at 115 C or more for 1 ms shuts the device down. DEVICE_GET_SENSORS answers the readings. A whole blob without a fault goes to flash, one with a fault is refused at its offset, and one shorter than 8,192 bytes at offset 8. DEVICE_BLOB_READ of the flash answers its bytes and whether they are valid. Each clause ends in: exec of its command is a next state. So these commands complete: vinRise, vinFall, vinOvervoltage, vinOvervoltageClear, pfail, sensorRefresh, thermalShutdown, deviceGetSensors, deviceBlobWrite, deviceBlobRead. [23_package_and_electrical.md, R617, R619, R626, R627, R630, R631, R633] -/
def Obligations.PackageAndSupplies : Prop :=
  (∀ (s : State) (mv : Nat),
    s.dev.startup.phase = .off → s.dev.pkg.vin < 5800 → (5800 ≤ mv ∧ mv ≤ 62000) → 
      exec (.vinRise mv) s = .next { s with dev := (s.dev.updPkg fun p => { p with vin := mv }).updStartup fun u => { u with phase := .held } }) ∧
  (∀ (s : State) (mv : Nat),
    mv < 5800 → 
      exec (.vinRise mv) s = .next s) ∧
  (∀ (s : State) (mv : Nat),
    mv < 5400 → 
      ∃ t, exec (.vinFall mv) s = .next t ∧
      t.clk = {} ∧ t.dev.startup.phase = .off ∧ t.dev.pkg.vin = mv ∧ t.dev.mem.cells = [] ∧ t.dev.mgmt.log = [] ∧ t.dev.mgmt.logFlash = s.dev.mgmt.logFlash ∧ t.dev.mem.flashSplices = s.dev.mem.flashSplices ∧ t.dev.startup.profile = s.dev.startup.profile ∧ t.dev.host.mem = s.dev.host.mem ∧ t.dev.pkg.blobFlash = s.dev.pkg.blobFlash ∧ t.dev.spk.spokes = Spokes.spokes {}) ∧
  (∀ (s : State) (mv : Nat),
    5400 ≤ mv → 
      exec (.vinFall mv) s = .next s) ∧
  (∀ (s : State) (mv : Nat),
    62000 < mv → s.dev.startup.phase ≠ .thermal → 
      ∃ t, exec (.vinOvervoltage mv) s = .next t ∧
      t.clk = {} ∧ t.dev.startup.phase = .off ∧ t.dev.pkg.vin = mv ∧ t.dev.mem.cells = [] ∧ t.dev.mgmt.logFlash = s.dev.mgmt.logFlash) ∧
  (∀ (s : State) (mv : Nat),
    (5400 ≤ mv ∧ mv < 60500) → 62000 < s.dev.pkg.vin → s.dev.startup.phase = .off → 
      exec (.vinOvervoltageClear mv) s = .next { s with dev := (s.dev.updPkg fun p => { p with vin := mv }).updStartup fun u => { u with phase := .held } }) ∧
  (∀ (s : State),
    s.dev.startup.phase = .service → 
      ∃ t, exec (.pfail) s = .next t ∧
      t.dev.startup.phase = .powerFail ∧ t.dev.pkg.pfail = true ∧ t.dev.pkg.devFault = true ∧ t.dev.mgmt.logFlash = some (s.dev.mgmt.log.take 512) ∧ t.dev.mgmt.log = s.dev.mgmt.log ∧ t.dev.mem = s.dev.mem) ∧
  (∀ (s : State) (vin iin pin : Nat) (junction dramTemps : List Int),
    s.dev.startup.phase = .service → (junction.length = 24 ∧ dramTemps.length = 4) → (hottest junction).2 < 1000 → s.dev.pkg.hot = false → 
      exec (.sensorRefresh vin iin pin junction dramTemps) s = .next { s with dev := s.dev.updPkg fun p => { p with vin := vin, iin := iin, pin := pin, junction := junction, dramTemps := dramTemps, readAt := s.clk.atc, over115 := over115 s.clk.atc p.over115 junction } }) ∧
  (∀ (s : State) (vin iin pin : Nat) (junction dramTemps : List Int),
    s.dev.startup.phase = .service → (junction.length = 24 ∧ dramTemps.length = 4) → 1050 ≤ (hottest junction).2 → s.dev.pkg.hot = false → s.dev.pkg.warnAt = (0, 0) → 
      ∃ t, exec (.sensorRefresh vin iin pin junction dramTemps) s = .next t ∧
      t.dev.pkg.hot = true ∧ t.dev.pkg.warnAt = (0, s.clk.atc + 1) ∧ t.dev.pkg.junction = junction ∧ t.dev.pkg.readAt = s.clk.atc) ∧
  (∀ (s : State) (sensor at_ : Nat),
    tfind s.dev.pkg.over115 sensor = some at_ → s.dev.startup.phase = .service → at_ + 1966080 ≤ s.clk.atc + 1 → 
      ∃ t, exec (.thermalShutdown sensor) s = .next t ∧
      t.clk = s.clk ∧ t.dev.startup.phase = .thermal ∧ t.dev.pkg.devFault = true ∧ t.dev.mgmt.logFlash = some t.dev.mgmt.log ∧ t.dev.mem.cells = [] ∧ t.dev.mgmt.svc = false ∧ t.dev.mgmt.trb = s.dev.mgmt.trb ∧ t.dev.pkg.tandemId = s.dev.pkg.tandemId) ∧
  (∀ (s : State) (r : Req) (w : Waiting),
    Waits s r 0x0107 w → Fits w 76 → (s.dev.pkg.junction.length = 24 ∧ s.dev.pkg.dramTemps.length = 4) → 
      ∃ t, exec (.deviceGetSensors r) s = .next t ∧
      Answers s t w (rOk ([(4, s.dev.pkg.vin), (4, s.dev.pkg.iin), (4, s.dev.pkg.pin)] ++ (s.dev.pkg.junction ++ s.dev.pkg.dramTemps).map (fun v => (2, uns 16 v)) ++ [(8, s.dev.pkg.readAt)])) ∧ t.dev.pkg = s.dev.pkg) ∧
  (∀ (s : State) (r : Req) (w : Waiting) (blob : List Byte),
    Waits s r 0x0108 w → blob.length = 8192 → s.dev.mgmt.updating = false → 
      exec (.deviceBlobWrite r blob) s = .next { s with dev := (match blobFault blob with | none => answered s.clk w rOk (noted (s.dev.updPkg fun p => { p with blobFlash := some blob })) | some o => answered s.clk w (rBad o) s.dev) }) ∧
  (∀ (s : State) (r : Req) (w : Waiting) (blob : List Byte),
    Waits s r 0x0108 w → blob.length < 8192 → 
      ∃ t, exec (.deviceBlobWrite r blob) s = .next t ∧
      Answers s t w (rBad 8) ∧ t.dev.pkg = s.dev.pkg) ∧
  (∀ (s : State) (r : Req) (w : Waiting) (source : Nat) (q : List Byte),
    Waits s r 0x0109 w → Fits w 8193 → source = 0 → s.dev.pkg.blobFlash = some q → q.length = 8192 → 
      ∃ t, exec (.deviceBlobRead r source) s = .next t ∧
      t.dev = answered s.clk w { status := stOK, payload := pk [(1, (blobValid q).toNat)] ++ q } s.dev)

/-- With a command at the front of its queue, a step is that command on the state with the queue's rest; with an empty queue the block idles (log 110, the model's choice). [95_what_each_step_holds.md] -/
def Obligations.StepRunsFront : Prop :=
  (∀ (i : Instr) (rest : List Instr) (s : State), s.pending = i :: rest → step s = exec i { s with pending := rest }) ∧
      (∀ s : State, s.pending = [] → step s = .next s)

/-- Whatever the state and the operands, a command answers a next state with the same queue; network time and air time move only at a cadence cycle, a time step, a servo step, the clock's lock, a loss of supply and an overvoltage stop. [95_what_each_step_holds.md, R78, R81, R515, R603] -/
def Obligations.EveryCommandCompletes : Prop :=
  ∀ (i : Instr) (s : State), ∃ t, exec i s = .next t ∧ t.pending = s.pending ∧ (movesTime i = false → t.clk = s.clk)

/-- After power-on reset NTC holds SEC 315,964,819 with nothing beyond, ATC is 0, the relation of R78 holds, the servo is in FREERUN, no command waits, and every byte memory is in its one form; the contents of memory at reset are the model's choice (log 1). [R19, R495, R66, 17_network_time.md] -/
def Obligations.ResetIsSound : Prop :=
  State.reset.clk.sec = 315964819 ∧ State.reset.clk.ns = 0 ∧ State.reset.clk.rem = 0 ∧ State.reset.clk.atc = 0 ∧
      Clock.Wf State.reset.clk ∧ State.reset.dev.time.st = 0 ∧ State.reset.dev.host.waiting = [] ∧ State.reset.pending = [] ∧ State.reset.MemWf

/-- From every state in which NTC and ATC stand in the relation of R78 on a whole cadence cycle, every step, whatever its command, leaves them in it: ATC is the TAI time since NTC second 315,964,819 multiplied by 1,966,080,000 and rounded down; no command configures the relation. [R78] -/
def Obligations.TimeRelationKept : Prop :=
  ∀ s t : State, step s = .next t → Clock.Wf s.clk →
      Clock.Wf t.clk ∧ t.clk.atc = ((t.clk.sec - 315964819) * 3072000000000 + (t.clk.ns * 3072 + t.clk.rem)) * 1966080000 / 3072000000000

/-- A cadence cycle with nothing due adds 2 to ATC and 3,125 / 3,072 ns to NTC; ATC stays even over every step; outside a step of network time and a loss of supply no command takes ATC back, and none takes it further than one cycle. [R78, R81, R515] -/
def Obligations.AirTimeMovesByTwo : Prop :=
  (∀ s : State, s.clk.run = true → s.dev.air.firing s.clk.atc = [] →
      ∃ t, exec .cadenceCycle s = .next t ∧ t.clk.atc = s.clk.atc + 2 ∧
      t.clk.sec * 3072000000000 + t.clk.ns * 3072 + t.clk.rem = s.clk.sec * 3072000000000 + s.clk.ns * 3072 + s.clk.rem + 3125) ∧
      (∀ s t : State, step s = .next t → s.clk.atc % 2 = 0 → t.clk.atc % 2 = 0) ∧
      (∀ (i : Instr) (s t : State), exec i s = .next t →
      (∀ r a b c d, i ≠ .timeStep r a b c d) → (∀ a b c, i ≠ .servoSourceQualify a b c) → (∀ a, i ≠ .vinFall a) → (∀ a, i ≠ .vinOvervoltage a) →
      s.clk.atc ≤ t.clk.atc ∧ t.clk.atc ≤ s.clk.atc + 2)

/-- A command of the mailbox whose slot does not wait with its CODE, was refused by its header, waits behind a SERIAL command, or is not at its function's turn, leaves the whole state as it was (log 10). [R55, R58, R59, 02_host_and_mailboxes.md] -/
def Obligations.SlotCommandNeedsItsTurn : Prop :=
  ∀ (i : Instr) (r : Req) (code : Nat) (s : State), slotCommand i = some (r, code) → s.dev.pick r code = none → exec i s = .next s

/-- Inline, the response header and payload stand in the slot as R55 lays them out; every other mailbox byte is as before; MB_OWNED loses this slot's bit alone; no other slot stops waiting; the function has completed one command more. By reference, a response other than BADARG stands in the response buffer, no other byte of host memory changes (no event asked for), and the slot holds its length. [R55, R60, R63, R64, R66, R71, 02_host_and_mailboxes.md] -/
def Obligations.AnswerInSlot : Prop :=
  (∀ (c : Clock) (d : Dev) (w : Waiting) (rep : Reply),
      bit w.flags 0 = false → rep.payload.length ≤ 240 → w.slot < 16 →
      readBytes (answered c w rep d).host.mb (slotBase w.page w.slot) (16 + rep.payload.length) =
      pk [(2, w.code), (2, w.tag), (2, rep.payload.length), (2, w.flags), (1, w.func), (1, 0), (2, rep.status), (4, rep.detail)] ++ rep.payload ∧
      (∀ a, a < slotBase w.page w.slot ∨ slotBase w.page w.slot + 16 + rep.payload.length ≤ a →
      tget 0 (answered c w rep d).host.mb a = tget 0 d.host.mb a) ∧
      (∀ i, i < 16 → ((answered c w rep d).func w.page).owned.getLsbD i = ((d.func w.page).owned.getLsbD i && i != w.slot)) ∧
      (answered c w rep d).host.waiting = d.host.waiting.filter (fun v => !(v.page = w.page && v.slot = w.slot)) ∧
      ((answered c w rep d).func w.page).completed = ((d.func w.page).completed + 1) % 2 ^ 64) ∧
      (∀ (c : Clock) (d : Dev) (w : Waiting) (rep : Reply),
      bit w.flags 0 = true → bit w.flags 1 = false → rep.status ≠ stBADARG →
      readBytes (answered c w rep d).host.mem w.respAddr rep.payload.length = rep.payload ∧
      (∀ a, a < w.respAddr ∨ w.respAddr + rep.payload.length ≤ a → tget 0 (answered c w rep d).host.mem a = tget 0 d.host.mem a) ∧
      (rep.payload ≠ [] ∨ rep.status = stOK →
      readBytes (answered c w rep d).host.mb (slotBase w.page w.slot + 16) 4 = le 4 rep.payload.length))

/-- Of every byte memory of the block: what is stored reads back at once, least significant byte first for a number, every other address reads as before, and a memory in its one form stays in it. [R6, 13_memory_and_protection.md] -/
def Obligations.BytesReadBack : Prop :=
  ∀ (m : Tab Byte) (a : Nat) (bs : List Byte),
      readBytes (writeBytes m a bs) a bs.length = bs ∧
      (∀ x, x < a ∨ a + bs.length ≤ x → tget 0 (writeBytes m a bs) x = tget 0 m x) ∧
      (∀ n v, readLe (writeBytes m a (le n v)) a n = v % 256 ^ n) ∧
      (Memory.wf m = true → Memory.wf (writeBytes m a bs) = true)

/-- Without a ring an event is discarded and nothing counted; with space it stands at EVT_PROD with the phase of this pass, EVT_PROD goes on and wraps, and the phase inverts on the wrap; while the ring is full it is held, up to 256 of them, in order; beyond that EVT_LOST counts it. [R66, R67, R68, 02_host_and_mailboxes.md] -/
def Obligations.EventRing : Prop :=
  ∀ (c : Clock) (d : Dev) (f : Nat) (e : Event), e.data.length = 16 →
      ((d.func f).ringAddr = 0 → d.post c f e = d) ∧
      ((d.func f).ringAddr ≠ 0 → (d.func f).ringFull = false → (d.func f).held = [] → (d.func f).lostRun = 0 →
      readBytes (d.post c f e).host.mem ((d.func f).ringAddr + 32 * (d.func f).prod) 32 = e.bytes (d.func f).phase ∧
      ((d.post c f e).func f).prod = ((d.func f).prod + 1) % (d.func f).ringLen ∧
      ((d.post c f e).func f).phase = (if ((d.func f).prod + 1) % (d.func f).ringLen = 0 then !(d.func f).phase else (d.func f).phase) ∧
      ((d.post c f e).func f).evtLost = (d.func f).evtLost) ∧
      ((d.func f).ringAddr ≠ 0 → (d.func f).ringFull = true → (d.func f).held.length < 256 →
      d.post c f e = d.updFunc f fun g => { g with held := g.held ++ [e] }) ∧
      ((d.func f).ringAddr ≠ 0 → (d.func f).ringFull = true → 256 ≤ (d.func f).held.length →
      ((d.post c f e).func f).evtLost = satAdd 32 (d.func f).evtLost 1 ∧ ((d.post c f e).func f).held = (d.func f).held ∧
      (d.post c f e).host.mem = d.host.mem)

/-- While MB_OWNED bit s is 1, a host write within slot s changes nothing but DB_BAD, which gains 1, and so does a doorbell bit for it; while it is 0, the write lands. [R58] -/
def Obligations.OwnedSlotIsIgnored : Prop :=
  (∀ (s : State) (f slot off : Nat) (data : List Byte), f < 16 → slot < 16 → s.dev.onLink f = true → s.dev.mgmt.svc = true →
      data ≠ [] → 256 * slot ≤ off → off + data.length ≤ 256 * slot + 256 → (s.dev.func f).owned.getLsbD slot = true →
      exec (.hostMemoryWrite f 0 off data false) s = .next { s with dev := s.dev.updFunc f fun g =>
      { g with dbBad := satAdd 32 g.dbBad 1, dbBadTotal := satAdd 32 g.dbBadTotal 1 } }) ∧
      (∀ (s : State) (f slot : Nat), f < 16 → slot < 16 → s.dev.onLink f = true → s.dev.host.waiting.all (fun w => w.refuse.isNone) = true →
      (s.dev.func f).owned.getLsbD slot = true →
      exec (.mbRing f (2 ^ slot)) s = .next { s with dev := s.dev.updFunc f fun g =>
      { g with dbBad := satAdd 32 g.dbBad 1, dbBadTotal := satAdd 32 g.dbBadTotal 1 } }) ∧
      (∀ (s : State) (f slot off : Nat) (data : List Byte), f < 16 → slot < 16 → s.dev.onLink f = true → s.dev.mgmt.svc = true →
      data ≠ [] → 256 * slot ≤ off → off + data.length ≤ 256 * slot + 256 → (s.dev.func f).owned.getLsbD slot = false →
      ∃ t, exec (.hostMemoryWrite f 0 off data false) s = .next t ∧ readBytes t.dev.host.mb (4096 * f + off) data.length = data ∧
      t.dev.host.funcs = s.dev.host.funcs)

/-- A core that COR or a pool has just started from its image holds zero in every S, A, P, M and V register and in Q1 to Q15, one in Q0, and RRB 0; so does every core after reset of the device. [R111] -/
def Obligations.CoreResetRegisters : Prop :=
  (∀ (d : Dev) (id slot n : Nat),
      tget 0 ((d.startCore id slot).core id).s n = 0 ∧ tget (0, 0) ((d.startCore id slot).core id).a n = (0, 0) ∧
      tget 0 ((d.startCore id slot).core id).p n = 0 ∧ tget 0 ((d.startCore id slot).core id).m n = 0 ∧
      tget 0 ((d.startCore id slot).core id).v n = 0 ∧ ((d.startCore id slot).core id).q = 1 ∧ ((d.startCore id slot).core id).rrb = 0) ∧
      (∀ id n : Nat, tget 0 (State.reset.dev.core id).s n = 0 ∧ tget (0, 0) (State.reset.dev.core id).a n = (0, 0) ∧
      tget 0 (State.reset.dev.core id).p n = 0 ∧ tget 0 (State.reset.dev.core id).m n = 0 ∧ tget 0 (State.reset.dev.core id).v n = 0 ∧
      (State.reset.dev.core id).q = 1 ∧ (State.reset.dev.core id).rrb = 0)

/-- A write in flight is not seen before the bundle in which it lands and is seen from then on, in the physical register chosen at its decode; when two writes to one register land in one cycle, that of the younger bundle stays, in whichever order the two were added. [R116, R118, R128, 04_signal_core.md] -/
def Obligations.WritesLand : Prop :=
  (∀ (k : Core) (id : Nat) (c : Clock) (f : Fly), k.fly = [f] → k.n < f.land → k.land id c = k) ∧
      (∀ (k : Core) (id : Nat) (c : Clock) (l n i : Nat) (v : Word), k.fly = [⟨l, .s n v, i⟩] → l ≤ k.n → n ≠ 0 →
      tget 0 (k.land id c).s n = v ∧ (k.land id c).fly = [] ∧ ∀ x, x ≠ n → tget 0 (k.land id c).s x = tget 0 k.s x) ∧
      (∀ (k : Core) (id : Nat) (c : Clock) (l l' n i i' : Nat) (v v' : Word), k.fly = [⟨l, .s n v, i⟩, ⟨l', .s n v', i'⟩] → l ≤ k.n → l' ≤ k.n → n ≠ 0 →
      tget 0 (k.land id c).s n = (if i ≤ i' then v' else v) ∧ (k.land id c).fly = [])

/-- For each numerology of R83, normal or at 60 kHz extended: a half-subframe's symbols take 983,040 Tc; the symbol that holds an instant starts no later and ends after it; the frame that holds an instant starts no later and ends after it; symbol g of a frame is the symbol at its own start. [R82, R83, 03_air_time.md] -/
def Obligations.CarrierTimeline : Prop :=
  ∀ k : Carrier, k.mu ≤ 4 → (k.ext = true → k.mu = 0 ∨ k.mu = 2) →
      (k.firstLen + (k.symsHalf - 1) * k.symLen = 983040) ∧
      (∀ x, x < 19660800 → k.symStart (k.symAt x) ≤ x ∧ x < k.symStart (k.symAt x + 1)) ∧
      (∀ g, g < 20 * k.symsHalf → k.symAt (k.symStart g) = g) ∧
      (∀ t, k.off ≤ t → k.frameStart (k.frameAt t) ≤ t ∧ t < k.frameStart (k.frameAt t + 1))

/-- For a block of 16-bit components coded in m bits: each decoded component stands within 2^(e-1) of its input; for m up to 15 the exponent is at most 17 - m, and is 17 - m only where a rounded component exceeds 2^(m-1) - 1 at 16 - m; at m = 16 the exponent is 0 and every component exact; a component that saturates on decoding stood at most 2^(e-1) below 32,768; so BOUNDED mode with M_MAX 16 never misses its bound. [R305, R306, R307, R308, 10_compression.md] -/
def Obligations.BlockErrorBound : Prop :=
  (∀ (c : List Int) (m : Nat), (∀ x ∈ c, -32768 ≤ x ∧ x ≤ 32767) → 6 ≤ m → m ≤ 16 →
      (∀ x ∈ c, 2 * (decodeComp (quant x (chooseE c m)) (chooseE c m) - x).natAbs ≤ 2 ^ chooseE c m) ∧
      (m ≤ 15 → chooseE c m ≤ 17 - m ∧ (chooseE c m = 17 - m → ∃ x ∈ c, 2 ^ (m - 1) - 1 < quant x (16 - m))) ∧
      (m = 16 → chooseE c m = 0 ∧ ∀ x ∈ c, decodeComp (quant x (chooseE c m)) (chooseE c m) = x) ∧
      (∀ x ∈ c, decodeComp (quant x (chooseE c m)) (chooseE c m) ≠ quant x (chooseE c m) * 2 ^ chooseE c m →
      decodeComp (quant x (chooseE c m)) (chooseE c m) = 32767 ∧ 2 * (32768 - x) ≤ 2 ^ chooseE c m)) ∧
      (∀ (c : List Int) (s : CmpSet), (∀ x ∈ c, -32768 ≤ x ∧ x ≤ 32767) → s.mMin ≤ 16 → s.mMax = 16 → (chooseM c s).2 = false) ∧
      (∀ (c : List Int) (s : CmpSet) (m : Nat), chooseM c s = (m, false) → blockError c m ≤ s.bound ∧ s.mMin ≤ m ∧ m ≤ s.mMax)

/-- In each compression mode, the bits the encoder writes for a block of 32 components decode to one block whose components are the decoded mantissas, with no invalid header, none left over, and the saturating ones counted; in mode NONE to the components themselves. [R303, R304, R305, R306, 10_compression.md] -/
def Obligations.BlockRoundTrip : Prop :=
  ∀ (s : CmpSet) (c : List Int), c.length = 32 → (∀ x ∈ c, -32768 ≤ x ∧ x ≤ 32767) →
      (s.mode = 0 → (decodeBlocks 0 s.m 1 (encodeBlock s c).1 {}).comps = c ∧ (decodeBlocks 0 s.m 1 (encodeBlock s c).1 {}).sat = 0) ∧
      (s.mode = 1 → 6 ≤ s.m → s.m ≤ 16 →
      (decodeBlocks 1 s.m 1 (encodeBlock s c).1 {}).comps = c.map (fun x => decodeComp (quant x (chooseE c s.m)) (chooseE c s.m)) ∧
      (decodeBlocks 1 s.m 1 (encodeBlock s c).1 {}).bad = none ∧ (decodeBlocks 1 s.m 1 (encodeBlock s c).1 {}).short = false ∧
      (decodeBlocks 1 s.m 1 (encodeBlock s c).1 {}).used = (encodeBlock s c).1.length) ∧
      (s.mode = 2 → 6 ≤ s.mMin → s.mMin ≤ s.mMax → s.mMax ≤ 16 →
      (decodeBlocks 2 s.m 1 (encodeBlock s c).1 {}).comps =
      c.map (fun x => decodeComp (quant x (chooseE c (chooseM c s).1)) (chooseE c (chooseM c s).1)) ∧
      (decodeBlocks 2 s.m 1 (encodeBlock s c).1 {}).bad = none ∧ (decodeBlocks 2 s.m 1 (encodeBlock s c).1 {}).short = false ∧
      (decodeBlocks 2 s.m 1 (encodeBlock s c).1 {}).sumM = (chooseM c s).1 ∧
      (decodeBlocks 2 s.m 1 (encodeBlock s c).1 {}).used = (encodeBlock s c).1.length)

/-- In a BOUNDED block bits [7:4] of the header are e and bits [3:0] are m mod 16, where 0 stands for 16; a header with a code of 1 to 5 decodes as invalid and no other does. [R304] -/
def Obligations.BoundedHeader : Prop :=
  (∀ (s : CmpSet) (c : List Int), s.mode = 2 → s.mMin ≤ s.mMax → s.mMax ≤ 16 →
      ofMsb ((encodeBlock s c).1.take 8) = chooseE c (chooseM c s).1 * 16 + (chooseM c s).1 % 16) ∧
      (∀ (mode m : Nat) (e code : Nat) (rest : List Bool), mode = 2 → e < 16 → 1 ≤ code → code ≤ 5 →
      (decodeBlocks mode m 1 (msb 4 e ++ msb 4 code ++ rest) {}).bad = some (16 * e + code)) ∧
      (∀ (mode m : Nat) (e code : Nat) (rest : List Bool), mode = 2 → e < 16 → code < 16 → code = 0 ∨ 6 ≤ code →
      (decodeBlocks mode m 1 (msb 4 e ++ msb 4 code ++ rest) {}).bad = none ∧
      (decodeBlocks mode m 1 (msb 4 e ++ msb 4 code ++ rest) {}).sumM = if code = 0 then 16 else code)

/-- In a buffer long enough, entry k reads as the level its LLR was given, whatever the other entries; each code's level encodes to that code again; and an LLR at a level is kept exactly. [R312, R313, R314, R315, 10_compression.md] -/
def Obligations.LlrBuffers : Prop :=
  (∀ (code len : Nat) (xs : List Int) (k : Nat) (x : Int), code ≤ 2 → (∀ y ∈ xs, -128 ≤ y ∧ y ≤ 127) →
      llrBits code * xs.length ≤ 8 * len → xs[k]? = some x →
      llrAt code (llrPack code len xs) k = llrValue code (llrEntry code x)) ∧
      (∀ x ∈ llrLevels4, llrDec llrLevels4 (llrEnc llrLevels4 x) = x ∧ llrDec llrLevels4 (llrEnc llrLevels4 (-(x : Int))) = -x) ∧
      (∀ x ∈ llrLevels5, llrDec llrLevels5 (llrEnc llrLevels5 x) = x ∧ llrDec llrLevels5 (llrEnc llrLevels5 (-(x : Int))) = -x)

/-- For every command of the mailbox, each part that is not among those it may change (touches) is the same in the next state: the parts of the device, every byte of device memory, of host memory and of the mailbox pages. [95_what_each_step_holds.md, 02_host_and_mailboxes.md, R55, R64] -/
def Obligations.FramesOfMailboxCommands : Prop :=
  ∀ (i : Instr) (s t : State) (p : Part), (slotCommand i).isSome = true → exec i s = .next t → p ∉ touches i → s.dev.same t.dev p

/-- For every command that is not of the mailbox, each part that is not among those it may change (touches) is the same in the next state: the parts of the device, every byte of device memory, of host memory and of the mailbox pages. [95_what_each_step_holds.md, R78, R112] -/
def Obligations.FramesOfEvents : Prop :=
  ∀ (i : Instr) (s t : State) (p : Part), slotCommand i = none → exec i s = .next t → p ∉ touches i → s.dev.same t.dev p
end

