-- ==== Sys2Proof/Laws/State.lean ====
section
/-! SUPPORT. What each update of the state leaves and writes, field by field, and the shape of a meaning: proofs cite these and
unfold no record. -/
namespace Sys2Proof.Machine

/-! ### updDevmode -/

@[simp] theorem Dev.updDevmode_devmode (d : Dev) (f : DevMode → DevMode) : (d.updDevmode f).devmode = f d.devmode := rfl
@[simp] theorem Dev.updDevmode_host (d : Dev) (f : DevMode → DevMode) : (d.updDevmode f).host = d.host := rfl
@[simp] theorem Dev.updDevmode_air (d : Dev) (f : DevMode → DevMode) : (d.updDevmode f).air = d.air := rfl
@[simp] theorem Dev.updDevmode_cores (d : Dev) (f : DevMode → DevMode) : (d.updDevmode f).cores = d.cores := rfl
@[simp] theorem Dev.updDevmode_pel (d : Dev) (f : DevMode → DevMode) : (d.updDevmode f).pel = d.pel := rfl
@[simp] theorem Dev.updDevmode_eng (d : Dev) (f : DevMode → DevMode) : (d.updDevmode f).eng = d.eng := rfl
@[simp] theorem Dev.updDevmode_fe (d : Dev) (f : DevMode → DevMode) : (d.updDevmode f).fe = d.fe := rfl
@[simp] theorem Dev.updDevmode_fab (d : Dev) (f : DevMode → DevMode) : (d.updDevmode f).fab = d.fab := rfl
@[simp] theorem Dev.updDevmode_mov (d : Dev) (f : DevMode → DevMode) : (d.updDevmode f).mov = d.mov := rfl
@[simp] theorem Dev.updDevmode_mem (d : Dev) (f : DevMode → DevMode) : (d.updDevmode f).mem = d.mem := rfl
@[simp] theorem Dev.updDevmode_spk (d : Dev) (f : DevMode → DevMode) : (d.updDevmode f).spk = d.spk := rfl
@[simp] theorem Dev.updDevmode_mac (d : Dev) (f : DevMode → DevMode) : (d.updDevmode f).mac = d.mac := rfl
@[simp] theorem Dev.updDevmode_cop (d : Dev) (f : DevMode → DevMode) : (d.updDevmode f).cop = d.cop := rfl
@[simp] theorem Dev.updDevmode_time (d : Dev) (f : DevMode → DevMode) : (d.updDevmode f).time = d.time := rfl
@[simp] theorem Dev.updDevmode_truing (d : Dev) (f : DevMode → DevMode) : (d.updDevmode f).truing = d.truing := rfl
@[simp] theorem Dev.updDevmode_tnd (d : Dev) (f : DevMode → DevMode) : (d.updDevmode f).tnd = d.tnd := rfl
@[simp] theorem Dev.updDevmode_mgmt (d : Dev) (f : DevMode → DevMode) : (d.updDevmode f).mgmt = d.mgmt := rfl
@[simp] theorem Dev.updDevmode_power (d : Dev) (f : DevMode → DevMode) : (d.updDevmode f).power = d.power := rfl
@[simp] theorem Dev.updDevmode_startup (d : Dev) (f : DevMode → DevMode) : (d.updDevmode f).startup = d.startup := rfl
@[simp] theorem Dev.updDevmode_pkg (d : Dev) (f : DevMode → DevMode) : (d.updDevmode f).pkg = d.pkg := rfl
@[simp] theorem Dev.updDevmode_cyc (d : Dev) (f : DevMode → DevMode) : (d.updDevmode f).cyc = d.cyc := rfl
@[simp] theorem Dev.updDevmode_free (d : Dev) (f : DevMode → DevMode) : (d.updDevmode f).free = d.free := rfl
theorem Dev.updDevmode_comp (d : Dev) (f g : DevMode → DevMode) : (d.updDevmode f).updDevmode g = d.updDevmode fun x => g (f x) := rfl

/-! ### updHost -/

@[simp] theorem Dev.updHost_devmode (d : Dev) (f : HostIf → HostIf) : (d.updHost f).devmode = d.devmode := rfl
@[simp] theorem Dev.updHost_host (d : Dev) (f : HostIf → HostIf) : (d.updHost f).host = f d.host := rfl
@[simp] theorem Dev.updHost_air (d : Dev) (f : HostIf → HostIf) : (d.updHost f).air = d.air := rfl
@[simp] theorem Dev.updHost_cores (d : Dev) (f : HostIf → HostIf) : (d.updHost f).cores = d.cores := rfl
@[simp] theorem Dev.updHost_pel (d : Dev) (f : HostIf → HostIf) : (d.updHost f).pel = d.pel := rfl
@[simp] theorem Dev.updHost_eng (d : Dev) (f : HostIf → HostIf) : (d.updHost f).eng = d.eng := rfl
@[simp] theorem Dev.updHost_fe (d : Dev) (f : HostIf → HostIf) : (d.updHost f).fe = d.fe := rfl
@[simp] theorem Dev.updHost_fab (d : Dev) (f : HostIf → HostIf) : (d.updHost f).fab = d.fab := rfl
@[simp] theorem Dev.updHost_mov (d : Dev) (f : HostIf → HostIf) : (d.updHost f).mov = d.mov := rfl
@[simp] theorem Dev.updHost_mem (d : Dev) (f : HostIf → HostIf) : (d.updHost f).mem = d.mem := rfl
@[simp] theorem Dev.updHost_spk (d : Dev) (f : HostIf → HostIf) : (d.updHost f).spk = d.spk := rfl
@[simp] theorem Dev.updHost_mac (d : Dev) (f : HostIf → HostIf) : (d.updHost f).mac = d.mac := rfl
@[simp] theorem Dev.updHost_cop (d : Dev) (f : HostIf → HostIf) : (d.updHost f).cop = d.cop := rfl
@[simp] theorem Dev.updHost_time (d : Dev) (f : HostIf → HostIf) : (d.updHost f).time = d.time := rfl
@[simp] theorem Dev.updHost_truing (d : Dev) (f : HostIf → HostIf) : (d.updHost f).truing = d.truing := rfl
@[simp] theorem Dev.updHost_tnd (d : Dev) (f : HostIf → HostIf) : (d.updHost f).tnd = d.tnd := rfl
@[simp] theorem Dev.updHost_mgmt (d : Dev) (f : HostIf → HostIf) : (d.updHost f).mgmt = d.mgmt := rfl
@[simp] theorem Dev.updHost_power (d : Dev) (f : HostIf → HostIf) : (d.updHost f).power = d.power := rfl
@[simp] theorem Dev.updHost_startup (d : Dev) (f : HostIf → HostIf) : (d.updHost f).startup = d.startup := rfl
@[simp] theorem Dev.updHost_pkg (d : Dev) (f : HostIf → HostIf) : (d.updHost f).pkg = d.pkg := rfl
@[simp] theorem Dev.updHost_cyc (d : Dev) (f : HostIf → HostIf) : (d.updHost f).cyc = d.cyc := rfl
@[simp] theorem Dev.updHost_free (d : Dev) (f : HostIf → HostIf) : (d.updHost f).free = d.free := rfl
theorem Dev.updHost_comp (d : Dev) (f g : HostIf → HostIf) : (d.updHost f).updHost g = d.updHost fun x => g (f x) := rfl

/-! ### updAir -/

@[simp] theorem Dev.updAir_devmode (d : Dev) (f : Air → Air) : (d.updAir f).devmode = d.devmode := rfl
@[simp] theorem Dev.updAir_host (d : Dev) (f : Air → Air) : (d.updAir f).host = d.host := rfl
@[simp] theorem Dev.updAir_air (d : Dev) (f : Air → Air) : (d.updAir f).air = f d.air := rfl
@[simp] theorem Dev.updAir_cores (d : Dev) (f : Air → Air) : (d.updAir f).cores = d.cores := rfl
@[simp] theorem Dev.updAir_pel (d : Dev) (f : Air → Air) : (d.updAir f).pel = d.pel := rfl
@[simp] theorem Dev.updAir_eng (d : Dev) (f : Air → Air) : (d.updAir f).eng = d.eng := rfl
@[simp] theorem Dev.updAir_fe (d : Dev) (f : Air → Air) : (d.updAir f).fe = d.fe := rfl
@[simp] theorem Dev.updAir_fab (d : Dev) (f : Air → Air) : (d.updAir f).fab = d.fab := rfl
@[simp] theorem Dev.updAir_mov (d : Dev) (f : Air → Air) : (d.updAir f).mov = d.mov := rfl
@[simp] theorem Dev.updAir_mem (d : Dev) (f : Air → Air) : (d.updAir f).mem = d.mem := rfl
@[simp] theorem Dev.updAir_spk (d : Dev) (f : Air → Air) : (d.updAir f).spk = d.spk := rfl
@[simp] theorem Dev.updAir_mac (d : Dev) (f : Air → Air) : (d.updAir f).mac = d.mac := rfl
@[simp] theorem Dev.updAir_cop (d : Dev) (f : Air → Air) : (d.updAir f).cop = d.cop := rfl
@[simp] theorem Dev.updAir_time (d : Dev) (f : Air → Air) : (d.updAir f).time = d.time := rfl
@[simp] theorem Dev.updAir_truing (d : Dev) (f : Air → Air) : (d.updAir f).truing = d.truing := rfl
@[simp] theorem Dev.updAir_tnd (d : Dev) (f : Air → Air) : (d.updAir f).tnd = d.tnd := rfl
@[simp] theorem Dev.updAir_mgmt (d : Dev) (f : Air → Air) : (d.updAir f).mgmt = d.mgmt := rfl
@[simp] theorem Dev.updAir_power (d : Dev) (f : Air → Air) : (d.updAir f).power = d.power := rfl
@[simp] theorem Dev.updAir_startup (d : Dev) (f : Air → Air) : (d.updAir f).startup = d.startup := rfl
@[simp] theorem Dev.updAir_pkg (d : Dev) (f : Air → Air) : (d.updAir f).pkg = d.pkg := rfl
@[simp] theorem Dev.updAir_cyc (d : Dev) (f : Air → Air) : (d.updAir f).cyc = d.cyc := rfl
@[simp] theorem Dev.updAir_free (d : Dev) (f : Air → Air) : (d.updAir f).free = d.free := rfl
theorem Dev.updAir_comp (d : Dev) (f g : Air → Air) : (d.updAir f).updAir g = d.updAir fun x => g (f x) := rfl

/-! ### updCores -/

@[simp] theorem Dev.updCores_devmode (d : Dev) (f : Cores → Cores) : (d.updCores f).devmode = d.devmode := rfl
@[simp] theorem Dev.updCores_host (d : Dev) (f : Cores → Cores) : (d.updCores f).host = d.host := rfl
@[simp] theorem Dev.updCores_air (d : Dev) (f : Cores → Cores) : (d.updCores f).air = d.air := rfl
@[simp] theorem Dev.updCores_cores (d : Dev) (f : Cores → Cores) : (d.updCores f).cores = f d.cores := rfl
@[simp] theorem Dev.updCores_pel (d : Dev) (f : Cores → Cores) : (d.updCores f).pel = d.pel := rfl
@[simp] theorem Dev.updCores_eng (d : Dev) (f : Cores → Cores) : (d.updCores f).eng = d.eng := rfl
@[simp] theorem Dev.updCores_fe (d : Dev) (f : Cores → Cores) : (d.updCores f).fe = d.fe := rfl
@[simp] theorem Dev.updCores_fab (d : Dev) (f : Cores → Cores) : (d.updCores f).fab = d.fab := rfl
@[simp] theorem Dev.updCores_mov (d : Dev) (f : Cores → Cores) : (d.updCores f).mov = d.mov := rfl
@[simp] theorem Dev.updCores_mem (d : Dev) (f : Cores → Cores) : (d.updCores f).mem = d.mem := rfl
@[simp] theorem Dev.updCores_spk (d : Dev) (f : Cores → Cores) : (d.updCores f).spk = d.spk := rfl
@[simp] theorem Dev.updCores_mac (d : Dev) (f : Cores → Cores) : (d.updCores f).mac = d.mac := rfl
@[simp] theorem Dev.updCores_cop (d : Dev) (f : Cores → Cores) : (d.updCores f).cop = d.cop := rfl
@[simp] theorem Dev.updCores_time (d : Dev) (f : Cores → Cores) : (d.updCores f).time = d.time := rfl
@[simp] theorem Dev.updCores_truing (d : Dev) (f : Cores → Cores) : (d.updCores f).truing = d.truing := rfl
@[simp] theorem Dev.updCores_tnd (d : Dev) (f : Cores → Cores) : (d.updCores f).tnd = d.tnd := rfl
@[simp] theorem Dev.updCores_mgmt (d : Dev) (f : Cores → Cores) : (d.updCores f).mgmt = d.mgmt := rfl
@[simp] theorem Dev.updCores_power (d : Dev) (f : Cores → Cores) : (d.updCores f).power = d.power := rfl
@[simp] theorem Dev.updCores_startup (d : Dev) (f : Cores → Cores) : (d.updCores f).startup = d.startup := rfl
@[simp] theorem Dev.updCores_pkg (d : Dev) (f : Cores → Cores) : (d.updCores f).pkg = d.pkg := rfl
@[simp] theorem Dev.updCores_cyc (d : Dev) (f : Cores → Cores) : (d.updCores f).cyc = d.cyc := rfl
@[simp] theorem Dev.updCores_free (d : Dev) (f : Cores → Cores) : (d.updCores f).free = d.free := rfl
theorem Dev.updCores_comp (d : Dev) (f g : Cores → Cores) : (d.updCores f).updCores g = d.updCores fun x => g (f x) := rfl

/-! ### updPel -/

@[simp] theorem Dev.updPel_devmode (d : Dev) (f : Pel → Pel) : (d.updPel f).devmode = d.devmode := rfl
@[simp] theorem Dev.updPel_host (d : Dev) (f : Pel → Pel) : (d.updPel f).host = d.host := rfl
@[simp] theorem Dev.updPel_air (d : Dev) (f : Pel → Pel) : (d.updPel f).air = d.air := rfl
@[simp] theorem Dev.updPel_cores (d : Dev) (f : Pel → Pel) : (d.updPel f).cores = d.cores := rfl
@[simp] theorem Dev.updPel_pel (d : Dev) (f : Pel → Pel) : (d.updPel f).pel = f d.pel := rfl
@[simp] theorem Dev.updPel_eng (d : Dev) (f : Pel → Pel) : (d.updPel f).eng = d.eng := rfl
@[simp] theorem Dev.updPel_fe (d : Dev) (f : Pel → Pel) : (d.updPel f).fe = d.fe := rfl
@[simp] theorem Dev.updPel_fab (d : Dev) (f : Pel → Pel) : (d.updPel f).fab = d.fab := rfl
@[simp] theorem Dev.updPel_mov (d : Dev) (f : Pel → Pel) : (d.updPel f).mov = d.mov := rfl
@[simp] theorem Dev.updPel_mem (d : Dev) (f : Pel → Pel) : (d.updPel f).mem = d.mem := rfl
@[simp] theorem Dev.updPel_spk (d : Dev) (f : Pel → Pel) : (d.updPel f).spk = d.spk := rfl
@[simp] theorem Dev.updPel_mac (d : Dev) (f : Pel → Pel) : (d.updPel f).mac = d.mac := rfl
@[simp] theorem Dev.updPel_cop (d : Dev) (f : Pel → Pel) : (d.updPel f).cop = d.cop := rfl
@[simp] theorem Dev.updPel_time (d : Dev) (f : Pel → Pel) : (d.updPel f).time = d.time := rfl
@[simp] theorem Dev.updPel_truing (d : Dev) (f : Pel → Pel) : (d.updPel f).truing = d.truing := rfl
@[simp] theorem Dev.updPel_tnd (d : Dev) (f : Pel → Pel) : (d.updPel f).tnd = d.tnd := rfl
@[simp] theorem Dev.updPel_mgmt (d : Dev) (f : Pel → Pel) : (d.updPel f).mgmt = d.mgmt := rfl
@[simp] theorem Dev.updPel_power (d : Dev) (f : Pel → Pel) : (d.updPel f).power = d.power := rfl
@[simp] theorem Dev.updPel_startup (d : Dev) (f : Pel → Pel) : (d.updPel f).startup = d.startup := rfl
@[simp] theorem Dev.updPel_pkg (d : Dev) (f : Pel → Pel) : (d.updPel f).pkg = d.pkg := rfl
@[simp] theorem Dev.updPel_cyc (d : Dev) (f : Pel → Pel) : (d.updPel f).cyc = d.cyc := rfl
@[simp] theorem Dev.updPel_free (d : Dev) (f : Pel → Pel) : (d.updPel f).free = d.free := rfl
theorem Dev.updPel_comp (d : Dev) (f g : Pel → Pel) : (d.updPel f).updPel g = d.updPel fun x => g (f x) := rfl

/-! ### updEng -/

@[simp] theorem Dev.updEng_devmode (d : Dev) (f : Engines → Engines) : (d.updEng f).devmode = d.devmode := rfl
@[simp] theorem Dev.updEng_host (d : Dev) (f : Engines → Engines) : (d.updEng f).host = d.host := rfl
@[simp] theorem Dev.updEng_air (d : Dev) (f : Engines → Engines) : (d.updEng f).air = d.air := rfl
@[simp] theorem Dev.updEng_cores (d : Dev) (f : Engines → Engines) : (d.updEng f).cores = d.cores := rfl
@[simp] theorem Dev.updEng_pel (d : Dev) (f : Engines → Engines) : (d.updEng f).pel = d.pel := rfl
@[simp] theorem Dev.updEng_eng (d : Dev) (f : Engines → Engines) : (d.updEng f).eng = f d.eng := rfl
@[simp] theorem Dev.updEng_fe (d : Dev) (f : Engines → Engines) : (d.updEng f).fe = d.fe := rfl
@[simp] theorem Dev.updEng_fab (d : Dev) (f : Engines → Engines) : (d.updEng f).fab = d.fab := rfl
@[simp] theorem Dev.updEng_mov (d : Dev) (f : Engines → Engines) : (d.updEng f).mov = d.mov := rfl
@[simp] theorem Dev.updEng_mem (d : Dev) (f : Engines → Engines) : (d.updEng f).mem = d.mem := rfl
@[simp] theorem Dev.updEng_spk (d : Dev) (f : Engines → Engines) : (d.updEng f).spk = d.spk := rfl
@[simp] theorem Dev.updEng_mac (d : Dev) (f : Engines → Engines) : (d.updEng f).mac = d.mac := rfl
@[simp] theorem Dev.updEng_cop (d : Dev) (f : Engines → Engines) : (d.updEng f).cop = d.cop := rfl
@[simp] theorem Dev.updEng_time (d : Dev) (f : Engines → Engines) : (d.updEng f).time = d.time := rfl
@[simp] theorem Dev.updEng_truing (d : Dev) (f : Engines → Engines) : (d.updEng f).truing = d.truing := rfl
@[simp] theorem Dev.updEng_tnd (d : Dev) (f : Engines → Engines) : (d.updEng f).tnd = d.tnd := rfl
@[simp] theorem Dev.updEng_mgmt (d : Dev) (f : Engines → Engines) : (d.updEng f).mgmt = d.mgmt := rfl
@[simp] theorem Dev.updEng_power (d : Dev) (f : Engines → Engines) : (d.updEng f).power = d.power := rfl
@[simp] theorem Dev.updEng_startup (d : Dev) (f : Engines → Engines) : (d.updEng f).startup = d.startup := rfl
@[simp] theorem Dev.updEng_pkg (d : Dev) (f : Engines → Engines) : (d.updEng f).pkg = d.pkg := rfl
@[simp] theorem Dev.updEng_cyc (d : Dev) (f : Engines → Engines) : (d.updEng f).cyc = d.cyc := rfl
@[simp] theorem Dev.updEng_free (d : Dev) (f : Engines → Engines) : (d.updEng f).free = d.free := rfl
theorem Dev.updEng_comp (d : Dev) (f g : Engines → Engines) : (d.updEng f).updEng g = d.updEng fun x => g (f x) := rfl

/-! ### updFe -/

@[simp] theorem Dev.updFe_devmode (d : Dev) (f : FrontEnd → FrontEnd) : (d.updFe f).devmode = d.devmode := rfl
@[simp] theorem Dev.updFe_host (d : Dev) (f : FrontEnd → FrontEnd) : (d.updFe f).host = d.host := rfl
@[simp] theorem Dev.updFe_air (d : Dev) (f : FrontEnd → FrontEnd) : (d.updFe f).air = d.air := rfl
@[simp] theorem Dev.updFe_cores (d : Dev) (f : FrontEnd → FrontEnd) : (d.updFe f).cores = d.cores := rfl
@[simp] theorem Dev.updFe_pel (d : Dev) (f : FrontEnd → FrontEnd) : (d.updFe f).pel = d.pel := rfl
@[simp] theorem Dev.updFe_eng (d : Dev) (f : FrontEnd → FrontEnd) : (d.updFe f).eng = d.eng := rfl
@[simp] theorem Dev.updFe_fe (d : Dev) (f : FrontEnd → FrontEnd) : (d.updFe f).fe = f d.fe := rfl
@[simp] theorem Dev.updFe_fab (d : Dev) (f : FrontEnd → FrontEnd) : (d.updFe f).fab = d.fab := rfl
@[simp] theorem Dev.updFe_mov (d : Dev) (f : FrontEnd → FrontEnd) : (d.updFe f).mov = d.mov := rfl
@[simp] theorem Dev.updFe_mem (d : Dev) (f : FrontEnd → FrontEnd) : (d.updFe f).mem = d.mem := rfl
@[simp] theorem Dev.updFe_spk (d : Dev) (f : FrontEnd → FrontEnd) : (d.updFe f).spk = d.spk := rfl
@[simp] theorem Dev.updFe_mac (d : Dev) (f : FrontEnd → FrontEnd) : (d.updFe f).mac = d.mac := rfl
@[simp] theorem Dev.updFe_cop (d : Dev) (f : FrontEnd → FrontEnd) : (d.updFe f).cop = d.cop := rfl
@[simp] theorem Dev.updFe_time (d : Dev) (f : FrontEnd → FrontEnd) : (d.updFe f).time = d.time := rfl
@[simp] theorem Dev.updFe_truing (d : Dev) (f : FrontEnd → FrontEnd) : (d.updFe f).truing = d.truing := rfl
@[simp] theorem Dev.updFe_tnd (d : Dev) (f : FrontEnd → FrontEnd) : (d.updFe f).tnd = d.tnd := rfl
@[simp] theorem Dev.updFe_mgmt (d : Dev) (f : FrontEnd → FrontEnd) : (d.updFe f).mgmt = d.mgmt := rfl
@[simp] theorem Dev.updFe_power (d : Dev) (f : FrontEnd → FrontEnd) : (d.updFe f).power = d.power := rfl
@[simp] theorem Dev.updFe_startup (d : Dev) (f : FrontEnd → FrontEnd) : (d.updFe f).startup = d.startup := rfl
@[simp] theorem Dev.updFe_pkg (d : Dev) (f : FrontEnd → FrontEnd) : (d.updFe f).pkg = d.pkg := rfl
@[simp] theorem Dev.updFe_cyc (d : Dev) (f : FrontEnd → FrontEnd) : (d.updFe f).cyc = d.cyc := rfl
@[simp] theorem Dev.updFe_free (d : Dev) (f : FrontEnd → FrontEnd) : (d.updFe f).free = d.free := rfl
theorem Dev.updFe_comp (d : Dev) (f g : FrontEnd → FrontEnd) : (d.updFe f).updFe g = d.updFe fun x => g (f x) := rfl

/-! ### updFab -/

@[simp] theorem Dev.updFab_devmode (d : Dev) (f : Fabric → Fabric) : (d.updFab f).devmode = d.devmode := rfl
@[simp] theorem Dev.updFab_host (d : Dev) (f : Fabric → Fabric) : (d.updFab f).host = d.host := rfl
@[simp] theorem Dev.updFab_air (d : Dev) (f : Fabric → Fabric) : (d.updFab f).air = d.air := rfl
@[simp] theorem Dev.updFab_cores (d : Dev) (f : Fabric → Fabric) : (d.updFab f).cores = d.cores := rfl
@[simp] theorem Dev.updFab_pel (d : Dev) (f : Fabric → Fabric) : (d.updFab f).pel = d.pel := rfl
@[simp] theorem Dev.updFab_eng (d : Dev) (f : Fabric → Fabric) : (d.updFab f).eng = d.eng := rfl
@[simp] theorem Dev.updFab_fe (d : Dev) (f : Fabric → Fabric) : (d.updFab f).fe = d.fe := rfl
@[simp] theorem Dev.updFab_fab (d : Dev) (f : Fabric → Fabric) : (d.updFab f).fab = f d.fab := rfl
@[simp] theorem Dev.updFab_mov (d : Dev) (f : Fabric → Fabric) : (d.updFab f).mov = d.mov := rfl
@[simp] theorem Dev.updFab_mem (d : Dev) (f : Fabric → Fabric) : (d.updFab f).mem = d.mem := rfl
@[simp] theorem Dev.updFab_spk (d : Dev) (f : Fabric → Fabric) : (d.updFab f).spk = d.spk := rfl
@[simp] theorem Dev.updFab_mac (d : Dev) (f : Fabric → Fabric) : (d.updFab f).mac = d.mac := rfl
@[simp] theorem Dev.updFab_cop (d : Dev) (f : Fabric → Fabric) : (d.updFab f).cop = d.cop := rfl
@[simp] theorem Dev.updFab_time (d : Dev) (f : Fabric → Fabric) : (d.updFab f).time = d.time := rfl
@[simp] theorem Dev.updFab_truing (d : Dev) (f : Fabric → Fabric) : (d.updFab f).truing = d.truing := rfl
@[simp] theorem Dev.updFab_tnd (d : Dev) (f : Fabric → Fabric) : (d.updFab f).tnd = d.tnd := rfl
@[simp] theorem Dev.updFab_mgmt (d : Dev) (f : Fabric → Fabric) : (d.updFab f).mgmt = d.mgmt := rfl
@[simp] theorem Dev.updFab_power (d : Dev) (f : Fabric → Fabric) : (d.updFab f).power = d.power := rfl
@[simp] theorem Dev.updFab_startup (d : Dev) (f : Fabric → Fabric) : (d.updFab f).startup = d.startup := rfl
@[simp] theorem Dev.updFab_pkg (d : Dev) (f : Fabric → Fabric) : (d.updFab f).pkg = d.pkg := rfl
@[simp] theorem Dev.updFab_cyc (d : Dev) (f : Fabric → Fabric) : (d.updFab f).cyc = d.cyc := rfl
@[simp] theorem Dev.updFab_free (d : Dev) (f : Fabric → Fabric) : (d.updFab f).free = d.free := rfl
theorem Dev.updFab_comp (d : Dev) (f g : Fabric → Fabric) : (d.updFab f).updFab g = d.updFab fun x => g (f x) := rfl

/-! ### updMov -/

@[simp] theorem Dev.updMov_devmode (d : Dev) (f : Movers → Movers) : (d.updMov f).devmode = d.devmode := rfl
@[simp] theorem Dev.updMov_host (d : Dev) (f : Movers → Movers) : (d.updMov f).host = d.host := rfl
@[simp] theorem Dev.updMov_air (d : Dev) (f : Movers → Movers) : (d.updMov f).air = d.air := rfl
@[simp] theorem Dev.updMov_cores (d : Dev) (f : Movers → Movers) : (d.updMov f).cores = d.cores := rfl
@[simp] theorem Dev.updMov_pel (d : Dev) (f : Movers → Movers) : (d.updMov f).pel = d.pel := rfl
@[simp] theorem Dev.updMov_eng (d : Dev) (f : Movers → Movers) : (d.updMov f).eng = d.eng := rfl
@[simp] theorem Dev.updMov_fe (d : Dev) (f : Movers → Movers) : (d.updMov f).fe = d.fe := rfl
@[simp] theorem Dev.updMov_fab (d : Dev) (f : Movers → Movers) : (d.updMov f).fab = d.fab := rfl
@[simp] theorem Dev.updMov_mov (d : Dev) (f : Movers → Movers) : (d.updMov f).mov = f d.mov := rfl
@[simp] theorem Dev.updMov_mem (d : Dev) (f : Movers → Movers) : (d.updMov f).mem = d.mem := rfl
@[simp] theorem Dev.updMov_spk (d : Dev) (f : Movers → Movers) : (d.updMov f).spk = d.spk := rfl
@[simp] theorem Dev.updMov_mac (d : Dev) (f : Movers → Movers) : (d.updMov f).mac = d.mac := rfl
@[simp] theorem Dev.updMov_cop (d : Dev) (f : Movers → Movers) : (d.updMov f).cop = d.cop := rfl
@[simp] theorem Dev.updMov_time (d : Dev) (f : Movers → Movers) : (d.updMov f).time = d.time := rfl
@[simp] theorem Dev.updMov_truing (d : Dev) (f : Movers → Movers) : (d.updMov f).truing = d.truing := rfl
@[simp] theorem Dev.updMov_tnd (d : Dev) (f : Movers → Movers) : (d.updMov f).tnd = d.tnd := rfl
@[simp] theorem Dev.updMov_mgmt (d : Dev) (f : Movers → Movers) : (d.updMov f).mgmt = d.mgmt := rfl
@[simp] theorem Dev.updMov_power (d : Dev) (f : Movers → Movers) : (d.updMov f).power = d.power := rfl
@[simp] theorem Dev.updMov_startup (d : Dev) (f : Movers → Movers) : (d.updMov f).startup = d.startup := rfl
@[simp] theorem Dev.updMov_pkg (d : Dev) (f : Movers → Movers) : (d.updMov f).pkg = d.pkg := rfl
@[simp] theorem Dev.updMov_cyc (d : Dev) (f : Movers → Movers) : (d.updMov f).cyc = d.cyc := rfl
@[simp] theorem Dev.updMov_free (d : Dev) (f : Movers → Movers) : (d.updMov f).free = d.free := rfl
theorem Dev.updMov_comp (d : Dev) (f g : Movers → Movers) : (d.updMov f).updMov g = d.updMov fun x => g (f x) := rfl

/-! ### updMem -/

@[simp] theorem Dev.updMem_devmode (d : Dev) (f : Mem → Mem) : (d.updMem f).devmode = d.devmode := rfl
@[simp] theorem Dev.updMem_host (d : Dev) (f : Mem → Mem) : (d.updMem f).host = d.host := rfl
@[simp] theorem Dev.updMem_air (d : Dev) (f : Mem → Mem) : (d.updMem f).air = d.air := rfl
@[simp] theorem Dev.updMem_cores (d : Dev) (f : Mem → Mem) : (d.updMem f).cores = d.cores := rfl
@[simp] theorem Dev.updMem_pel (d : Dev) (f : Mem → Mem) : (d.updMem f).pel = d.pel := rfl
@[simp] theorem Dev.updMem_eng (d : Dev) (f : Mem → Mem) : (d.updMem f).eng = d.eng := rfl
@[simp] theorem Dev.updMem_fe (d : Dev) (f : Mem → Mem) : (d.updMem f).fe = d.fe := rfl
@[simp] theorem Dev.updMem_fab (d : Dev) (f : Mem → Mem) : (d.updMem f).fab = d.fab := rfl
@[simp] theorem Dev.updMem_mov (d : Dev) (f : Mem → Mem) : (d.updMem f).mov = d.mov := rfl
@[simp] theorem Dev.updMem_mem (d : Dev) (f : Mem → Mem) : (d.updMem f).mem = f d.mem := rfl
@[simp] theorem Dev.updMem_spk (d : Dev) (f : Mem → Mem) : (d.updMem f).spk = d.spk := rfl
@[simp] theorem Dev.updMem_mac (d : Dev) (f : Mem → Mem) : (d.updMem f).mac = d.mac := rfl
@[simp] theorem Dev.updMem_cop (d : Dev) (f : Mem → Mem) : (d.updMem f).cop = d.cop := rfl
@[simp] theorem Dev.updMem_time (d : Dev) (f : Mem → Mem) : (d.updMem f).time = d.time := rfl
@[simp] theorem Dev.updMem_truing (d : Dev) (f : Mem → Mem) : (d.updMem f).truing = d.truing := rfl
@[simp] theorem Dev.updMem_tnd (d : Dev) (f : Mem → Mem) : (d.updMem f).tnd = d.tnd := rfl
@[simp] theorem Dev.updMem_mgmt (d : Dev) (f : Mem → Mem) : (d.updMem f).mgmt = d.mgmt := rfl
@[simp] theorem Dev.updMem_power (d : Dev) (f : Mem → Mem) : (d.updMem f).power = d.power := rfl
@[simp] theorem Dev.updMem_startup (d : Dev) (f : Mem → Mem) : (d.updMem f).startup = d.startup := rfl
@[simp] theorem Dev.updMem_pkg (d : Dev) (f : Mem → Mem) : (d.updMem f).pkg = d.pkg := rfl
@[simp] theorem Dev.updMem_cyc (d : Dev) (f : Mem → Mem) : (d.updMem f).cyc = d.cyc := rfl
@[simp] theorem Dev.updMem_free (d : Dev) (f : Mem → Mem) : (d.updMem f).free = d.free := rfl
theorem Dev.updMem_comp (d : Dev) (f g : Mem → Mem) : (d.updMem f).updMem g = d.updMem fun x => g (f x) := rfl

/-! ### updSpk -/

@[simp] theorem Dev.updSpk_devmode (d : Dev) (f : Spokes → Spokes) : (d.updSpk f).devmode = d.devmode := rfl
@[simp] theorem Dev.updSpk_host (d : Dev) (f : Spokes → Spokes) : (d.updSpk f).host = d.host := rfl
@[simp] theorem Dev.updSpk_air (d : Dev) (f : Spokes → Spokes) : (d.updSpk f).air = d.air := rfl
@[simp] theorem Dev.updSpk_cores (d : Dev) (f : Spokes → Spokes) : (d.updSpk f).cores = d.cores := rfl
@[simp] theorem Dev.updSpk_pel (d : Dev) (f : Spokes → Spokes) : (d.updSpk f).pel = d.pel := rfl
@[simp] theorem Dev.updSpk_eng (d : Dev) (f : Spokes → Spokes) : (d.updSpk f).eng = d.eng := rfl
@[simp] theorem Dev.updSpk_fe (d : Dev) (f : Spokes → Spokes) : (d.updSpk f).fe = d.fe := rfl
@[simp] theorem Dev.updSpk_fab (d : Dev) (f : Spokes → Spokes) : (d.updSpk f).fab = d.fab := rfl
@[simp] theorem Dev.updSpk_mov (d : Dev) (f : Spokes → Spokes) : (d.updSpk f).mov = d.mov := rfl
@[simp] theorem Dev.updSpk_mem (d : Dev) (f : Spokes → Spokes) : (d.updSpk f).mem = d.mem := rfl
@[simp] theorem Dev.updSpk_spk (d : Dev) (f : Spokes → Spokes) : (d.updSpk f).spk = f d.spk := rfl
@[simp] theorem Dev.updSpk_mac (d : Dev) (f : Spokes → Spokes) : (d.updSpk f).mac = d.mac := rfl
@[simp] theorem Dev.updSpk_cop (d : Dev) (f : Spokes → Spokes) : (d.updSpk f).cop = d.cop := rfl
@[simp] theorem Dev.updSpk_time (d : Dev) (f : Spokes → Spokes) : (d.updSpk f).time = d.time := rfl
@[simp] theorem Dev.updSpk_truing (d : Dev) (f : Spokes → Spokes) : (d.updSpk f).truing = d.truing := rfl
@[simp] theorem Dev.updSpk_tnd (d : Dev) (f : Spokes → Spokes) : (d.updSpk f).tnd = d.tnd := rfl
@[simp] theorem Dev.updSpk_mgmt (d : Dev) (f : Spokes → Spokes) : (d.updSpk f).mgmt = d.mgmt := rfl
@[simp] theorem Dev.updSpk_power (d : Dev) (f : Spokes → Spokes) : (d.updSpk f).power = d.power := rfl
@[simp] theorem Dev.updSpk_startup (d : Dev) (f : Spokes → Spokes) : (d.updSpk f).startup = d.startup := rfl
@[simp] theorem Dev.updSpk_pkg (d : Dev) (f : Spokes → Spokes) : (d.updSpk f).pkg = d.pkg := rfl
@[simp] theorem Dev.updSpk_cyc (d : Dev) (f : Spokes → Spokes) : (d.updSpk f).cyc = d.cyc := rfl
@[simp] theorem Dev.updSpk_free (d : Dev) (f : Spokes → Spokes) : (d.updSpk f).free = d.free := rfl
theorem Dev.updSpk_comp (d : Dev) (f g : Spokes → Spokes) : (d.updSpk f).updSpk g = d.updSpk fun x => g (f x) := rfl

/-! ### updMac -/

@[simp] theorem Dev.updMac_devmode (d : Dev) (f : Macs → Macs) : (d.updMac f).devmode = d.devmode := rfl
@[simp] theorem Dev.updMac_host (d : Dev) (f : Macs → Macs) : (d.updMac f).host = d.host := rfl
@[simp] theorem Dev.updMac_air (d : Dev) (f : Macs → Macs) : (d.updMac f).air = d.air := rfl
@[simp] theorem Dev.updMac_cores (d : Dev) (f : Macs → Macs) : (d.updMac f).cores = d.cores := rfl
@[simp] theorem Dev.updMac_pel (d : Dev) (f : Macs → Macs) : (d.updMac f).pel = d.pel := rfl
@[simp] theorem Dev.updMac_eng (d : Dev) (f : Macs → Macs) : (d.updMac f).eng = d.eng := rfl
@[simp] theorem Dev.updMac_fe (d : Dev) (f : Macs → Macs) : (d.updMac f).fe = d.fe := rfl
@[simp] theorem Dev.updMac_fab (d : Dev) (f : Macs → Macs) : (d.updMac f).fab = d.fab := rfl
@[simp] theorem Dev.updMac_mov (d : Dev) (f : Macs → Macs) : (d.updMac f).mov = d.mov := rfl
@[simp] theorem Dev.updMac_mem (d : Dev) (f : Macs → Macs) : (d.updMac f).mem = d.mem := rfl
@[simp] theorem Dev.updMac_spk (d : Dev) (f : Macs → Macs) : (d.updMac f).spk = d.spk := rfl
@[simp] theorem Dev.updMac_mac (d : Dev) (f : Macs → Macs) : (d.updMac f).mac = f d.mac := rfl
@[simp] theorem Dev.updMac_cop (d : Dev) (f : Macs → Macs) : (d.updMac f).cop = d.cop := rfl
@[simp] theorem Dev.updMac_time (d : Dev) (f : Macs → Macs) : (d.updMac f).time = d.time := rfl
@[simp] theorem Dev.updMac_truing (d : Dev) (f : Macs → Macs) : (d.updMac f).truing = d.truing := rfl
@[simp] theorem Dev.updMac_tnd (d : Dev) (f : Macs → Macs) : (d.updMac f).tnd = d.tnd := rfl
@[simp] theorem Dev.updMac_mgmt (d : Dev) (f : Macs → Macs) : (d.updMac f).mgmt = d.mgmt := rfl
@[simp] theorem Dev.updMac_power (d : Dev) (f : Macs → Macs) : (d.updMac f).power = d.power := rfl
@[simp] theorem Dev.updMac_startup (d : Dev) (f : Macs → Macs) : (d.updMac f).startup = d.startup := rfl
@[simp] theorem Dev.updMac_pkg (d : Dev) (f : Macs → Macs) : (d.updMac f).pkg = d.pkg := rfl
@[simp] theorem Dev.updMac_cyc (d : Dev) (f : Macs → Macs) : (d.updMac f).cyc = d.cyc := rfl
@[simp] theorem Dev.updMac_free (d : Dev) (f : Macs → Macs) : (d.updMac f).free = d.free := rfl
theorem Dev.updMac_comp (d : Dev) (f g : Macs → Macs) : (d.updMac f).updMac g = d.updMac fun x => g (f x) := rfl

/-! ### updCop -/

@[simp] theorem Dev.updCop_devmode (d : Dev) (f : Copper → Copper) : (d.updCop f).devmode = d.devmode := rfl
@[simp] theorem Dev.updCop_host (d : Dev) (f : Copper → Copper) : (d.updCop f).host = d.host := rfl
@[simp] theorem Dev.updCop_air (d : Dev) (f : Copper → Copper) : (d.updCop f).air = d.air := rfl
@[simp] theorem Dev.updCop_cores (d : Dev) (f : Copper → Copper) : (d.updCop f).cores = d.cores := rfl
@[simp] theorem Dev.updCop_pel (d : Dev) (f : Copper → Copper) : (d.updCop f).pel = d.pel := rfl
@[simp] theorem Dev.updCop_eng (d : Dev) (f : Copper → Copper) : (d.updCop f).eng = d.eng := rfl
@[simp] theorem Dev.updCop_fe (d : Dev) (f : Copper → Copper) : (d.updCop f).fe = d.fe := rfl
@[simp] theorem Dev.updCop_fab (d : Dev) (f : Copper → Copper) : (d.updCop f).fab = d.fab := rfl
@[simp] theorem Dev.updCop_mov (d : Dev) (f : Copper → Copper) : (d.updCop f).mov = d.mov := rfl
@[simp] theorem Dev.updCop_mem (d : Dev) (f : Copper → Copper) : (d.updCop f).mem = d.mem := rfl
@[simp] theorem Dev.updCop_spk (d : Dev) (f : Copper → Copper) : (d.updCop f).spk = d.spk := rfl
@[simp] theorem Dev.updCop_mac (d : Dev) (f : Copper → Copper) : (d.updCop f).mac = d.mac := rfl
@[simp] theorem Dev.updCop_cop (d : Dev) (f : Copper → Copper) : (d.updCop f).cop = f d.cop := rfl
@[simp] theorem Dev.updCop_time (d : Dev) (f : Copper → Copper) : (d.updCop f).time = d.time := rfl
@[simp] theorem Dev.updCop_truing (d : Dev) (f : Copper → Copper) : (d.updCop f).truing = d.truing := rfl
@[simp] theorem Dev.updCop_tnd (d : Dev) (f : Copper → Copper) : (d.updCop f).tnd = d.tnd := rfl
@[simp] theorem Dev.updCop_mgmt (d : Dev) (f : Copper → Copper) : (d.updCop f).mgmt = d.mgmt := rfl
@[simp] theorem Dev.updCop_power (d : Dev) (f : Copper → Copper) : (d.updCop f).power = d.power := rfl
@[simp] theorem Dev.updCop_startup (d : Dev) (f : Copper → Copper) : (d.updCop f).startup = d.startup := rfl
@[simp] theorem Dev.updCop_pkg (d : Dev) (f : Copper → Copper) : (d.updCop f).pkg = d.pkg := rfl
@[simp] theorem Dev.updCop_cyc (d : Dev) (f : Copper → Copper) : (d.updCop f).cyc = d.cyc := rfl
@[simp] theorem Dev.updCop_free (d : Dev) (f : Copper → Copper) : (d.updCop f).free = d.free := rfl
theorem Dev.updCop_comp (d : Dev) (f g : Copper → Copper) : (d.updCop f).updCop g = d.updCop fun x => g (f x) := rfl

/-! ### updTime -/

@[simp] theorem Dev.updTime_devmode (d : Dev) (f : NetTime → NetTime) : (d.updTime f).devmode = d.devmode := rfl
@[simp] theorem Dev.updTime_host (d : Dev) (f : NetTime → NetTime) : (d.updTime f).host = d.host := rfl
@[simp] theorem Dev.updTime_air (d : Dev) (f : NetTime → NetTime) : (d.updTime f).air = d.air := rfl
@[simp] theorem Dev.updTime_cores (d : Dev) (f : NetTime → NetTime) : (d.updTime f).cores = d.cores := rfl
@[simp] theorem Dev.updTime_pel (d : Dev) (f : NetTime → NetTime) : (d.updTime f).pel = d.pel := rfl
@[simp] theorem Dev.updTime_eng (d : Dev) (f : NetTime → NetTime) : (d.updTime f).eng = d.eng := rfl
@[simp] theorem Dev.updTime_fe (d : Dev) (f : NetTime → NetTime) : (d.updTime f).fe = d.fe := rfl
@[simp] theorem Dev.updTime_fab (d : Dev) (f : NetTime → NetTime) : (d.updTime f).fab = d.fab := rfl
@[simp] theorem Dev.updTime_mov (d : Dev) (f : NetTime → NetTime) : (d.updTime f).mov = d.mov := rfl
@[simp] theorem Dev.updTime_mem (d : Dev) (f : NetTime → NetTime) : (d.updTime f).mem = d.mem := rfl
@[simp] theorem Dev.updTime_spk (d : Dev) (f : NetTime → NetTime) : (d.updTime f).spk = d.spk := rfl
@[simp] theorem Dev.updTime_mac (d : Dev) (f : NetTime → NetTime) : (d.updTime f).mac = d.mac := rfl
@[simp] theorem Dev.updTime_cop (d : Dev) (f : NetTime → NetTime) : (d.updTime f).cop = d.cop := rfl
@[simp] theorem Dev.updTime_time (d : Dev) (f : NetTime → NetTime) : (d.updTime f).time = f d.time := rfl
@[simp] theorem Dev.updTime_truing (d : Dev) (f : NetTime → NetTime) : (d.updTime f).truing = d.truing := rfl
@[simp] theorem Dev.updTime_tnd (d : Dev) (f : NetTime → NetTime) : (d.updTime f).tnd = d.tnd := rfl
@[simp] theorem Dev.updTime_mgmt (d : Dev) (f : NetTime → NetTime) : (d.updTime f).mgmt = d.mgmt := rfl
@[simp] theorem Dev.updTime_power (d : Dev) (f : NetTime → NetTime) : (d.updTime f).power = d.power := rfl
@[simp] theorem Dev.updTime_startup (d : Dev) (f : NetTime → NetTime) : (d.updTime f).startup = d.startup := rfl
@[simp] theorem Dev.updTime_pkg (d : Dev) (f : NetTime → NetTime) : (d.updTime f).pkg = d.pkg := rfl
@[simp] theorem Dev.updTime_cyc (d : Dev) (f : NetTime → NetTime) : (d.updTime f).cyc = d.cyc := rfl
@[simp] theorem Dev.updTime_free (d : Dev) (f : NetTime → NetTime) : (d.updTime f).free = d.free := rfl
theorem Dev.updTime_comp (d : Dev) (f g : NetTime → NetTime) : (d.updTime f).updTime g = d.updTime fun x => g (f x) := rfl

/-! ### updTruing -/

@[simp] theorem Dev.updTruing_devmode (d : Dev) (f : Truing → Truing) : (d.updTruing f).devmode = d.devmode := rfl
@[simp] theorem Dev.updTruing_host (d : Dev) (f : Truing → Truing) : (d.updTruing f).host = d.host := rfl
@[simp] theorem Dev.updTruing_air (d : Dev) (f : Truing → Truing) : (d.updTruing f).air = d.air := rfl
@[simp] theorem Dev.updTruing_cores (d : Dev) (f : Truing → Truing) : (d.updTruing f).cores = d.cores := rfl
@[simp] theorem Dev.updTruing_pel (d : Dev) (f : Truing → Truing) : (d.updTruing f).pel = d.pel := rfl
@[simp] theorem Dev.updTruing_eng (d : Dev) (f : Truing → Truing) : (d.updTruing f).eng = d.eng := rfl
@[simp] theorem Dev.updTruing_fe (d : Dev) (f : Truing → Truing) : (d.updTruing f).fe = d.fe := rfl
@[simp] theorem Dev.updTruing_fab (d : Dev) (f : Truing → Truing) : (d.updTruing f).fab = d.fab := rfl
@[simp] theorem Dev.updTruing_mov (d : Dev) (f : Truing → Truing) : (d.updTruing f).mov = d.mov := rfl
@[simp] theorem Dev.updTruing_mem (d : Dev) (f : Truing → Truing) : (d.updTruing f).mem = d.mem := rfl
@[simp] theorem Dev.updTruing_spk (d : Dev) (f : Truing → Truing) : (d.updTruing f).spk = d.spk := rfl
@[simp] theorem Dev.updTruing_mac (d : Dev) (f : Truing → Truing) : (d.updTruing f).mac = d.mac := rfl
@[simp] theorem Dev.updTruing_cop (d : Dev) (f : Truing → Truing) : (d.updTruing f).cop = d.cop := rfl
@[simp] theorem Dev.updTruing_time (d : Dev) (f : Truing → Truing) : (d.updTruing f).time = d.time := rfl
@[simp] theorem Dev.updTruing_truing (d : Dev) (f : Truing → Truing) : (d.updTruing f).truing = f d.truing := rfl
@[simp] theorem Dev.updTruing_tnd (d : Dev) (f : Truing → Truing) : (d.updTruing f).tnd = d.tnd := rfl
@[simp] theorem Dev.updTruing_mgmt (d : Dev) (f : Truing → Truing) : (d.updTruing f).mgmt = d.mgmt := rfl
@[simp] theorem Dev.updTruing_power (d : Dev) (f : Truing → Truing) : (d.updTruing f).power = d.power := rfl
@[simp] theorem Dev.updTruing_startup (d : Dev) (f : Truing → Truing) : (d.updTruing f).startup = d.startup := rfl
@[simp] theorem Dev.updTruing_pkg (d : Dev) (f : Truing → Truing) : (d.updTruing f).pkg = d.pkg := rfl
@[simp] theorem Dev.updTruing_cyc (d : Dev) (f : Truing → Truing) : (d.updTruing f).cyc = d.cyc := rfl
@[simp] theorem Dev.updTruing_free (d : Dev) (f : Truing → Truing) : (d.updTruing f).free = d.free := rfl
theorem Dev.updTruing_comp (d : Dev) (f g : Truing → Truing) : (d.updTruing f).updTruing g = d.updTruing fun x => g (f x) := rfl

/-! ### updTnd -/

@[simp] theorem Dev.updTnd_devmode (d : Dev) (f : Tandem → Tandem) : (d.updTnd f).devmode = d.devmode := rfl
@[simp] theorem Dev.updTnd_host (d : Dev) (f : Tandem → Tandem) : (d.updTnd f).host = d.host := rfl
@[simp] theorem Dev.updTnd_air (d : Dev) (f : Tandem → Tandem) : (d.updTnd f).air = d.air := rfl
@[simp] theorem Dev.updTnd_cores (d : Dev) (f : Tandem → Tandem) : (d.updTnd f).cores = d.cores := rfl
@[simp] theorem Dev.updTnd_pel (d : Dev) (f : Tandem → Tandem) : (d.updTnd f).pel = d.pel := rfl
@[simp] theorem Dev.updTnd_eng (d : Dev) (f : Tandem → Tandem) : (d.updTnd f).eng = d.eng := rfl
@[simp] theorem Dev.updTnd_fe (d : Dev) (f : Tandem → Tandem) : (d.updTnd f).fe = d.fe := rfl
@[simp] theorem Dev.updTnd_fab (d : Dev) (f : Tandem → Tandem) : (d.updTnd f).fab = d.fab := rfl
@[simp] theorem Dev.updTnd_mov (d : Dev) (f : Tandem → Tandem) : (d.updTnd f).mov = d.mov := rfl
@[simp] theorem Dev.updTnd_mem (d : Dev) (f : Tandem → Tandem) : (d.updTnd f).mem = d.mem := rfl
@[simp] theorem Dev.updTnd_spk (d : Dev) (f : Tandem → Tandem) : (d.updTnd f).spk = d.spk := rfl
@[simp] theorem Dev.updTnd_mac (d : Dev) (f : Tandem → Tandem) : (d.updTnd f).mac = d.mac := rfl
@[simp] theorem Dev.updTnd_cop (d : Dev) (f : Tandem → Tandem) : (d.updTnd f).cop = d.cop := rfl
@[simp] theorem Dev.updTnd_time (d : Dev) (f : Tandem → Tandem) : (d.updTnd f).time = d.time := rfl
@[simp] theorem Dev.updTnd_truing (d : Dev) (f : Tandem → Tandem) : (d.updTnd f).truing = d.truing := rfl
@[simp] theorem Dev.updTnd_tnd (d : Dev) (f : Tandem → Tandem) : (d.updTnd f).tnd = f d.tnd := rfl
@[simp] theorem Dev.updTnd_mgmt (d : Dev) (f : Tandem → Tandem) : (d.updTnd f).mgmt = d.mgmt := rfl
@[simp] theorem Dev.updTnd_power (d : Dev) (f : Tandem → Tandem) : (d.updTnd f).power = d.power := rfl
@[simp] theorem Dev.updTnd_startup (d : Dev) (f : Tandem → Tandem) : (d.updTnd f).startup = d.startup := rfl
@[simp] theorem Dev.updTnd_pkg (d : Dev) (f : Tandem → Tandem) : (d.updTnd f).pkg = d.pkg := rfl
@[simp] theorem Dev.updTnd_cyc (d : Dev) (f : Tandem → Tandem) : (d.updTnd f).cyc = d.cyc := rfl
@[simp] theorem Dev.updTnd_free (d : Dev) (f : Tandem → Tandem) : (d.updTnd f).free = d.free := rfl
theorem Dev.updTnd_comp (d : Dev) (f g : Tandem → Tandem) : (d.updTnd f).updTnd g = d.updTnd fun x => g (f x) := rfl

/-! ### updMgmt -/

@[simp] theorem Dev.updMgmt_devmode (d : Dev) (f : Mgmt → Mgmt) : (d.updMgmt f).devmode = d.devmode := rfl
@[simp] theorem Dev.updMgmt_host (d : Dev) (f : Mgmt → Mgmt) : (d.updMgmt f).host = d.host := rfl
@[simp] theorem Dev.updMgmt_air (d : Dev) (f : Mgmt → Mgmt) : (d.updMgmt f).air = d.air := rfl
@[simp] theorem Dev.updMgmt_cores (d : Dev) (f : Mgmt → Mgmt) : (d.updMgmt f).cores = d.cores := rfl
@[simp] theorem Dev.updMgmt_pel (d : Dev) (f : Mgmt → Mgmt) : (d.updMgmt f).pel = d.pel := rfl
@[simp] theorem Dev.updMgmt_eng (d : Dev) (f : Mgmt → Mgmt) : (d.updMgmt f).eng = d.eng := rfl
@[simp] theorem Dev.updMgmt_fe (d : Dev) (f : Mgmt → Mgmt) : (d.updMgmt f).fe = d.fe := rfl
@[simp] theorem Dev.updMgmt_fab (d : Dev) (f : Mgmt → Mgmt) : (d.updMgmt f).fab = d.fab := rfl
@[simp] theorem Dev.updMgmt_mov (d : Dev) (f : Mgmt → Mgmt) : (d.updMgmt f).mov = d.mov := rfl
@[simp] theorem Dev.updMgmt_mem (d : Dev) (f : Mgmt → Mgmt) : (d.updMgmt f).mem = d.mem := rfl
@[simp] theorem Dev.updMgmt_spk (d : Dev) (f : Mgmt → Mgmt) : (d.updMgmt f).spk = d.spk := rfl
@[simp] theorem Dev.updMgmt_mac (d : Dev) (f : Mgmt → Mgmt) : (d.updMgmt f).mac = d.mac := rfl
@[simp] theorem Dev.updMgmt_cop (d : Dev) (f : Mgmt → Mgmt) : (d.updMgmt f).cop = d.cop := rfl
@[simp] theorem Dev.updMgmt_time (d : Dev) (f : Mgmt → Mgmt) : (d.updMgmt f).time = d.time := rfl
@[simp] theorem Dev.updMgmt_truing (d : Dev) (f : Mgmt → Mgmt) : (d.updMgmt f).truing = d.truing := rfl
@[simp] theorem Dev.updMgmt_tnd (d : Dev) (f : Mgmt → Mgmt) : (d.updMgmt f).tnd = d.tnd := rfl
@[simp] theorem Dev.updMgmt_mgmt (d : Dev) (f : Mgmt → Mgmt) : (d.updMgmt f).mgmt = f d.mgmt := rfl
@[simp] theorem Dev.updMgmt_power (d : Dev) (f : Mgmt → Mgmt) : (d.updMgmt f).power = d.power := rfl
@[simp] theorem Dev.updMgmt_startup (d : Dev) (f : Mgmt → Mgmt) : (d.updMgmt f).startup = d.startup := rfl
@[simp] theorem Dev.updMgmt_pkg (d : Dev) (f : Mgmt → Mgmt) : (d.updMgmt f).pkg = d.pkg := rfl
@[simp] theorem Dev.updMgmt_cyc (d : Dev) (f : Mgmt → Mgmt) : (d.updMgmt f).cyc = d.cyc := rfl
@[simp] theorem Dev.updMgmt_free (d : Dev) (f : Mgmt → Mgmt) : (d.updMgmt f).free = d.free := rfl
theorem Dev.updMgmt_comp (d : Dev) (f g : Mgmt → Mgmt) : (d.updMgmt f).updMgmt g = d.updMgmt fun x => g (f x) := rfl

/-! ### updPower -/

@[simp] theorem Dev.updPower_devmode (d : Dev) (f : Power → Power) : (d.updPower f).devmode = d.devmode := rfl
@[simp] theorem Dev.updPower_host (d : Dev) (f : Power → Power) : (d.updPower f).host = d.host := rfl
@[simp] theorem Dev.updPower_air (d : Dev) (f : Power → Power) : (d.updPower f).air = d.air := rfl
@[simp] theorem Dev.updPower_cores (d : Dev) (f : Power → Power) : (d.updPower f).cores = d.cores := rfl
@[simp] theorem Dev.updPower_pel (d : Dev) (f : Power → Power) : (d.updPower f).pel = d.pel := rfl
@[simp] theorem Dev.updPower_eng (d : Dev) (f : Power → Power) : (d.updPower f).eng = d.eng := rfl
@[simp] theorem Dev.updPower_fe (d : Dev) (f : Power → Power) : (d.updPower f).fe = d.fe := rfl
@[simp] theorem Dev.updPower_fab (d : Dev) (f : Power → Power) : (d.updPower f).fab = d.fab := rfl
@[simp] theorem Dev.updPower_mov (d : Dev) (f : Power → Power) : (d.updPower f).mov = d.mov := rfl
@[simp] theorem Dev.updPower_mem (d : Dev) (f : Power → Power) : (d.updPower f).mem = d.mem := rfl
@[simp] theorem Dev.updPower_spk (d : Dev) (f : Power → Power) : (d.updPower f).spk = d.spk := rfl
@[simp] theorem Dev.updPower_mac (d : Dev) (f : Power → Power) : (d.updPower f).mac = d.mac := rfl
@[simp] theorem Dev.updPower_cop (d : Dev) (f : Power → Power) : (d.updPower f).cop = d.cop := rfl
@[simp] theorem Dev.updPower_time (d : Dev) (f : Power → Power) : (d.updPower f).time = d.time := rfl
@[simp] theorem Dev.updPower_truing (d : Dev) (f : Power → Power) : (d.updPower f).truing = d.truing := rfl
@[simp] theorem Dev.updPower_tnd (d : Dev) (f : Power → Power) : (d.updPower f).tnd = d.tnd := rfl
@[simp] theorem Dev.updPower_mgmt (d : Dev) (f : Power → Power) : (d.updPower f).mgmt = d.mgmt := rfl
@[simp] theorem Dev.updPower_power (d : Dev) (f : Power → Power) : (d.updPower f).power = f d.power := rfl
@[simp] theorem Dev.updPower_startup (d : Dev) (f : Power → Power) : (d.updPower f).startup = d.startup := rfl
@[simp] theorem Dev.updPower_pkg (d : Dev) (f : Power → Power) : (d.updPower f).pkg = d.pkg := rfl
@[simp] theorem Dev.updPower_cyc (d : Dev) (f : Power → Power) : (d.updPower f).cyc = d.cyc := rfl
@[simp] theorem Dev.updPower_free (d : Dev) (f : Power → Power) : (d.updPower f).free = d.free := rfl
theorem Dev.updPower_comp (d : Dev) (f g : Power → Power) : (d.updPower f).updPower g = d.updPower fun x => g (f x) := rfl

/-! ### updStartup -/

@[simp] theorem Dev.updStartup_devmode (d : Dev) (f : Startup → Startup) : (d.updStartup f).devmode = d.devmode := rfl
@[simp] theorem Dev.updStartup_host (d : Dev) (f : Startup → Startup) : (d.updStartup f).host = d.host := rfl
@[simp] theorem Dev.updStartup_air (d : Dev) (f : Startup → Startup) : (d.updStartup f).air = d.air := rfl
@[simp] theorem Dev.updStartup_cores (d : Dev) (f : Startup → Startup) : (d.updStartup f).cores = d.cores := rfl
@[simp] theorem Dev.updStartup_pel (d : Dev) (f : Startup → Startup) : (d.updStartup f).pel = d.pel := rfl
@[simp] theorem Dev.updStartup_eng (d : Dev) (f : Startup → Startup) : (d.updStartup f).eng = d.eng := rfl
@[simp] theorem Dev.updStartup_fe (d : Dev) (f : Startup → Startup) : (d.updStartup f).fe = d.fe := rfl
@[simp] theorem Dev.updStartup_fab (d : Dev) (f : Startup → Startup) : (d.updStartup f).fab = d.fab := rfl
@[simp] theorem Dev.updStartup_mov (d : Dev) (f : Startup → Startup) : (d.updStartup f).mov = d.mov := rfl
@[simp] theorem Dev.updStartup_mem (d : Dev) (f : Startup → Startup) : (d.updStartup f).mem = d.mem := rfl
@[simp] theorem Dev.updStartup_spk (d : Dev) (f : Startup → Startup) : (d.updStartup f).spk = d.spk := rfl
@[simp] theorem Dev.updStartup_mac (d : Dev) (f : Startup → Startup) : (d.updStartup f).mac = d.mac := rfl
@[simp] theorem Dev.updStartup_cop (d : Dev) (f : Startup → Startup) : (d.updStartup f).cop = d.cop := rfl
@[simp] theorem Dev.updStartup_time (d : Dev) (f : Startup → Startup) : (d.updStartup f).time = d.time := rfl
@[simp] theorem Dev.updStartup_truing (d : Dev) (f : Startup → Startup) : (d.updStartup f).truing = d.truing := rfl
@[simp] theorem Dev.updStartup_tnd (d : Dev) (f : Startup → Startup) : (d.updStartup f).tnd = d.tnd := rfl
@[simp] theorem Dev.updStartup_mgmt (d : Dev) (f : Startup → Startup) : (d.updStartup f).mgmt = d.mgmt := rfl
@[simp] theorem Dev.updStartup_power (d : Dev) (f : Startup → Startup) : (d.updStartup f).power = d.power := rfl
@[simp] theorem Dev.updStartup_startup (d : Dev) (f : Startup → Startup) : (d.updStartup f).startup = f d.startup := rfl
@[simp] theorem Dev.updStartup_pkg (d : Dev) (f : Startup → Startup) : (d.updStartup f).pkg = d.pkg := rfl
@[simp] theorem Dev.updStartup_cyc (d : Dev) (f : Startup → Startup) : (d.updStartup f).cyc = d.cyc := rfl
@[simp] theorem Dev.updStartup_free (d : Dev) (f : Startup → Startup) : (d.updStartup f).free = d.free := rfl
theorem Dev.updStartup_comp (d : Dev) (f g : Startup → Startup) : (d.updStartup f).updStartup g = d.updStartup fun x => g (f x) := rfl

/-! ### updCyc -/

@[simp] theorem Dev.updCyc_devmode (d : Dev) (f : Cycle → Cycle) : (d.updCyc f).devmode = d.devmode := rfl
@[simp] theorem Dev.updCyc_host (d : Dev) (f : Cycle → Cycle) : (d.updCyc f).host = d.host := rfl
@[simp] theorem Dev.updCyc_air (d : Dev) (f : Cycle → Cycle) : (d.updCyc f).air = d.air := rfl
@[simp] theorem Dev.updCyc_cores (d : Dev) (f : Cycle → Cycle) : (d.updCyc f).cores = d.cores := rfl
@[simp] theorem Dev.updCyc_pel (d : Dev) (f : Cycle → Cycle) : (d.updCyc f).pel = d.pel := rfl
@[simp] theorem Dev.updCyc_eng (d : Dev) (f : Cycle → Cycle) : (d.updCyc f).eng = d.eng := rfl
@[simp] theorem Dev.updCyc_fe (d : Dev) (f : Cycle → Cycle) : (d.updCyc f).fe = d.fe := rfl
@[simp] theorem Dev.updCyc_fab (d : Dev) (f : Cycle → Cycle) : (d.updCyc f).fab = d.fab := rfl
@[simp] theorem Dev.updCyc_mov (d : Dev) (f : Cycle → Cycle) : (d.updCyc f).mov = d.mov := rfl
@[simp] theorem Dev.updCyc_mem (d : Dev) (f : Cycle → Cycle) : (d.updCyc f).mem = d.mem := rfl
@[simp] theorem Dev.updCyc_spk (d : Dev) (f : Cycle → Cycle) : (d.updCyc f).spk = d.spk := rfl
@[simp] theorem Dev.updCyc_mac (d : Dev) (f : Cycle → Cycle) : (d.updCyc f).mac = d.mac := rfl
@[simp] theorem Dev.updCyc_cop (d : Dev) (f : Cycle → Cycle) : (d.updCyc f).cop = d.cop := rfl
@[simp] theorem Dev.updCyc_time (d : Dev) (f : Cycle → Cycle) : (d.updCyc f).time = d.time := rfl
@[simp] theorem Dev.updCyc_truing (d : Dev) (f : Cycle → Cycle) : (d.updCyc f).truing = d.truing := rfl
@[simp] theorem Dev.updCyc_tnd (d : Dev) (f : Cycle → Cycle) : (d.updCyc f).tnd = d.tnd := rfl
@[simp] theorem Dev.updCyc_mgmt (d : Dev) (f : Cycle → Cycle) : (d.updCyc f).mgmt = d.mgmt := rfl
@[simp] theorem Dev.updCyc_power (d : Dev) (f : Cycle → Cycle) : (d.updCyc f).power = d.power := rfl
@[simp] theorem Dev.updCyc_startup (d : Dev) (f : Cycle → Cycle) : (d.updCyc f).startup = d.startup := rfl
@[simp] theorem Dev.updCyc_pkg (d : Dev) (f : Cycle → Cycle) : (d.updCyc f).pkg = d.pkg := rfl
@[simp] theorem Dev.updCyc_cyc (d : Dev) (f : Cycle → Cycle) : (d.updCyc f).cyc = f d.cyc := rfl
@[simp] theorem Dev.updCyc_free (d : Dev) (f : Cycle → Cycle) : (d.updCyc f).free = d.free := rfl
theorem Dev.updCyc_comp (d : Dev) (f g : Cycle → Cycle) : (d.updCyc f).updCyc g = d.updCyc fun x => g (f x) := rfl

/-! ### updPkg -/

@[simp] theorem Dev.updPkg_devmode (d : Dev) (f : Pkg → Pkg) : (d.updPkg f).devmode = d.devmode := rfl
@[simp] theorem Dev.updPkg_host (d : Dev) (f : Pkg → Pkg) : (d.updPkg f).host = d.host := rfl
@[simp] theorem Dev.updPkg_air (d : Dev) (f : Pkg → Pkg) : (d.updPkg f).air = d.air := rfl
@[simp] theorem Dev.updPkg_cores (d : Dev) (f : Pkg → Pkg) : (d.updPkg f).cores = d.cores := rfl
@[simp] theorem Dev.updPkg_pel (d : Dev) (f : Pkg → Pkg) : (d.updPkg f).pel = d.pel := rfl
@[simp] theorem Dev.updPkg_eng (d : Dev) (f : Pkg → Pkg) : (d.updPkg f).eng = d.eng := rfl
@[simp] theorem Dev.updPkg_fe (d : Dev) (f : Pkg → Pkg) : (d.updPkg f).fe = d.fe := rfl
@[simp] theorem Dev.updPkg_fab (d : Dev) (f : Pkg → Pkg) : (d.updPkg f).fab = d.fab := rfl
@[simp] theorem Dev.updPkg_mov (d : Dev) (f : Pkg → Pkg) : (d.updPkg f).mov = d.mov := rfl
@[simp] theorem Dev.updPkg_mem (d : Dev) (f : Pkg → Pkg) : (d.updPkg f).mem = d.mem := rfl
@[simp] theorem Dev.updPkg_spk (d : Dev) (f : Pkg → Pkg) : (d.updPkg f).spk = d.spk := rfl
@[simp] theorem Dev.updPkg_mac (d : Dev) (f : Pkg → Pkg) : (d.updPkg f).mac = d.mac := rfl
@[simp] theorem Dev.updPkg_cop (d : Dev) (f : Pkg → Pkg) : (d.updPkg f).cop = d.cop := rfl
@[simp] theorem Dev.updPkg_time (d : Dev) (f : Pkg → Pkg) : (d.updPkg f).time = d.time := rfl
@[simp] theorem Dev.updPkg_truing (d : Dev) (f : Pkg → Pkg) : (d.updPkg f).truing = d.truing := rfl
@[simp] theorem Dev.updPkg_tnd (d : Dev) (f : Pkg → Pkg) : (d.updPkg f).tnd = d.tnd := rfl
@[simp] theorem Dev.updPkg_mgmt (d : Dev) (f : Pkg → Pkg) : (d.updPkg f).mgmt = d.mgmt := rfl
@[simp] theorem Dev.updPkg_power (d : Dev) (f : Pkg → Pkg) : (d.updPkg f).power = d.power := rfl
@[simp] theorem Dev.updPkg_startup (d : Dev) (f : Pkg → Pkg) : (d.updPkg f).startup = d.startup := rfl
@[simp] theorem Dev.updPkg_pkg (d : Dev) (f : Pkg → Pkg) : (d.updPkg f).pkg = f d.pkg := rfl
@[simp] theorem Dev.updPkg_cyc (d : Dev) (f : Pkg → Pkg) : (d.updPkg f).cyc = d.cyc := rfl
@[simp] theorem Dev.updPkg_free (d : Dev) (f : Pkg → Pkg) : (d.updPkg f).free = d.free := rfl
theorem Dev.updPkg_comp (d : Dev) (f g : Pkg → Pkg) : (d.updPkg f).updPkg g = d.updPkg fun x => g (f x) := rfl

/-! ### The shape of a meaning -/

/-- A command of the device answers a next state, always. -/
theorem onDev_eq (f : Clock → Dev → Dev) (s : State) : onDev f s = .next { s with dev := f s.clk s.dev } := rfl

theorem onBoth_eq (f : Clock → Dev → Clock × Dev) (s : State) :
    onBoth f s = .next { s with clk := (f s.clk s.dev).1, dev := (f s.clk s.dev).2 } := rfl

/-- What a command of the device can do: the clock and the queue stay. -/
theorem onDev_next {f : Clock → Dev → Dev} {s t : State} (h : onDev f s = .next t) :
    t.clk = s.clk ∧ t.pending = s.pending ∧ t.dev = f s.clk s.dev := by
  cases h; exact ⟨rfl, rfl, rfl⟩

/-- What a command that moves time can do: the queue stays. -/
theorem onBoth_next {f : Clock → Dev → Clock × Dev} {s t : State} (h : onBoth f s = .next t) :
    t.clk = (f s.clk s.dev).1 ∧ t.pending = s.pending ∧ t.dev = (f s.clk s.dev).2 := by
  cases h; exact ⟨rfl, rfl, rfl⟩

/-- A step runs the front of the queue. -/
theorem step_cons {s : State} {i : Instr} {rest : List Instr} (h : s.pending = i :: rest) :
    step s = exec i { s with pending := rest } := by
  unfold step; rw [h]

theorem step_nil {s : State} (h : s.pending = []) : step s = .next s := by
  unfold step; rw [h]

end Sys2Proof.Machine
end

