-- ==== Sys2Proof/Laws/Tables.lean ====
section
/-! SUPPORT. Sparse tables and byte memories: reads after writes, and the one form that every write keeps. -/
namespace Sys2Proof.Machine

variable {α : Type}

/-! ### Reads after writes -/

@[simp] theorem tget_nil (d : α) (k : Nat) : tget d [] k = d := rfl

theorem tget_tput (d : α) (m : Tab α) (k i : Nat) (v : α) : tget d (tput m k v) i = if i = k then v else tget d m i := by
  induction m with
  | nil => simp [tput, tget]
  | cons e m ih =>
    obtain ⟨k', v'⟩ := e
    by_cases h : k < k'
    · simp [tput, tget, h]
    · by_cases h2 : k = k'
      · subst h2
        by_cases h3 : i = k <;> simp [tput, tget, h3]
      · simp only [tput, h, h2, if_false, tget, ih]
        by_cases h3 : i = k' <;> by_cases h4 : i = k <;> simp_all

theorem tget_tdel (d : α) (m : Tab α) (k i : Nat) : tget d (tdel m k) i = if i = k then d else tget d m i := by
  induction m with
  | nil => simp [tdel, tget]
  | cons e m ih =>
    obtain ⟨k', v'⟩ := e
    by_cases h : k = k'
    · subst h
      simp only [tdel, if_true, ih, tget]
      by_cases h3 : i = k <;> simp [h3]
    · simp only [tdel, h, if_false, tget, ih]
      by_cases h3 : i = k' <;> by_cases h4 : i = k <;> simp_all

/-- A canonical write reads back, and every other key reads as before. -/
theorem tget_tset [DecidableEq α] (d : α) (m : Tab α) (k i : Nat) (v : α) :
    tget d (tset d m k v) i = if i = k then v else tget d m i := by
  unfold tset
  split
  · rename_i h; rw [tget_tdel, h]
  · rw [tget_tput]

theorem tget_tmod [DecidableEq α] (d : α) (m : Tab α) (k i : Nat) (f : α → α) :
    tget d (tmod d m k f) i = if i = k then f (tget d m k) else tget d m i := by
  unfold tmod; rw [tget_tset]

/-! ### The one form -/

theorem rising_mono {lo lo' : Nat} {m : Tab α} (h : lo' ≤ lo) (hm : rising lo m = true) : rising lo' m = true := by
  cases m with
  | nil => rfl
  | cons e m => simp only [rising, Bool.and_eq_true, decide_eq_true_eq] at *; exact ⟨by omega, hm.2⟩

theorem rising_tput {lo k : Nat} {m : Tab α} (v : α) (hm : rising lo m = true) (hk : lo ≤ k) :
    rising lo (tput m k v) = true := by
  induction m generalizing lo with
  | nil => simp [tput, rising, hk]
  | cons e m ih =>
    obtain ⟨k', v'⟩ := e
    simp only [rising, Bool.and_eq_true, decide_eq_true_eq] at hm
    by_cases h : k < k'
    · simp only [tput, h, if_true, rising, Bool.and_eq_true, decide_eq_true_eq]; exact ⟨hk, by omega, hm.2⟩
    · by_cases h2 : k = k'
      · subst h2; simp only [tput, h, if_false, if_true, rising, Bool.and_eq_true, decide_eq_true_eq]; exact ⟨hk, hm.2⟩
      · simp only [tput, h, h2, if_false, rising, Bool.and_eq_true, decide_eq_true_eq]
        exact ⟨hm.1, ih hm.2 (by omega)⟩

theorem rising_tdel {lo : Nat} {m : Tab α} (k : Nat) (hm : rising lo m = true) : rising lo (tdel m k) = true := by
  induction m generalizing lo with
  | nil => rfl
  | cons e m ih =>
    obtain ⟨k', v'⟩ := e
    simp only [rising, Bool.and_eq_true, decide_eq_true_eq] at hm
    by_cases h : k = k'
    · simp only [tdel, h, if_true]; subst h; exact rising_mono (by omega) (ih hm.2)
    · simp only [tdel, h, if_false, rising, Bool.and_eq_true, decide_eq_true_eq]; exact ⟨hm.1, ih hm.2⟩

theorem all_tput {p : Nat × α → Bool} {m : Tab α} {k : Nat} {v : α} (hm : m.all p = true) (hv : p (k, v) = true) :
    (tput m k v).all p = true := by
  induction m with
  | nil => simp [tput, hv]
  | cons e m ih =>
    obtain ⟨k', v'⟩ := e
    simp only [List.all_cons, Bool.and_eq_true] at hm
    unfold tput
    split
    · simp [hv, hm.1, hm.2]
    · split
      · simp [hv, hm.2]
      · simp [hm.1, ih hm.2]

theorem all_tdel {p : Nat × α → Bool} {m : Tab α} (k : Nat) (hm : m.all p = true) : (tdel m k).all p = true := by
  induction m with
  | nil => rfl
  | cons e m ih =>
    obtain ⟨k', v'⟩ := e
    simp only [List.all_cons, Bool.and_eq_true] at hm
    unfold tdel
    split
    · exact ih hm.2
    · simp [hm.1, ih hm.2]

/-- A canonical write keeps the one form. -/
theorem wf_tset [DecidableEq α] {d : α} {m : Tab α} (k : Nat) (v : α) (h : Tab.wf d m = true) :
    Tab.wf d (tset d m k v) = true := by
  simp only [Tab.wf, Bool.and_eq_true] at *
  unfold tset
  split
  · exact ⟨rising_tdel k h.1, all_tdel k h.2⟩
  · rename_i hv
    exact ⟨rising_tput v h.1 (by omega), all_tput h.2 (by simpa using hv)⟩

theorem wf_tmod [DecidableEq α] {d : α} {m : Tab α} (k : Nat) (f : α → α) (h : Tab.wf d m = true) :
    Tab.wf d (tmod d m k f) = true := wf_tset k _ h

/-- A write of bytes keeps the one form of a memory. -/
theorem wf_writeBytes (bs : List Byte) (m : Tab Byte) (a : Nat) (h : Memory.wf m = true) :
    Memory.wf (writeBytes m a bs) = true := by
  induction bs generalizing m a with
  | nil => exact h
  | cons b bs ih => exact ih _ _ (wf_tset a b h)

/-! ### Byte memories -/

/-- One byte of a memory after a write of bytes. -/
theorem tget_writeBytes (bs : List Byte) (m : Tab Byte) (a i : Nat) :
    tget 0 (writeBytes m a bs) i = if a ≤ i ∧ i < a + bs.length then bs.getD (i - a) 0 else tget 0 m i := by
  induction bs generalizing m a with
  | nil => rw [if_neg (by simp only [List.length_nil]; omega)]; rfl
  | cons b bs ih =>
    rw [writeBytes, ih, tget_tset]
    by_cases h1 : i = a
    · subst h1
      rw [if_neg (by omega), if_pos rfl, if_pos ⟨by omega, by simp only [List.length_cons]; omega⟩, Nat.sub_self]
      rfl
    · by_cases h2 : a ≤ i ∧ i < a + (bs.length + 1)
      · rw [if_pos (by omega : a + 1 ≤ i ∧ i < a + 1 + bs.length), if_pos (by simpa using h2)]
        rw [show i - a = (i - (a + 1)) + 1 by omega]; simp
      · rw [if_neg (by omega), if_neg h1, if_neg (by simpa using h2)]

@[simp] theorem readBytes_length (m : Tab Byte) (a n : Nat) : (readBytes m a n).length = n := by simp [readBytes]

/-- What was stored reads back. -/
theorem readBytes_writeBytes (m : Tab Byte) (a : Nat) (bs : List Byte) :
    readBytes (writeBytes m a bs) a bs.length = bs := by
  apply List.ext_getElem
  · simp
  · intro i h1 h2
    simp only [readBytes, List.getElem_map, List.getElem_range]
    rw [tget_writeBytes, if_pos (by omega)]
    simp [h2]

/-- A read outside the bytes stored. -/
theorem readBytes_writeBytes_outside (m : Tab Byte) (a b n : Nat) (bs : List Byte) (h : b + n ≤ a ∨ a + bs.length ≤ b) :
    readBytes (writeBytes m a bs) b n = readBytes m b n := by
  apply List.ext_getElem
  · simp
  · intro i h1 h2
    simp only [readBytes_length] at h1
    simp only [readBytes, List.getElem_map, List.getElem_range]
    rw [tget_writeBytes, if_neg (by omega)]

/-! ### Little-endian fields -/

@[simp] theorem le_length (n v : Nat) : (le n v).length = n := by
  induction n generalizing v with
  | zero => rfl
  | succ n ih => simp [le, ih]

theorem leVal_le (n v : Nat) : leVal (le n v) = v % 256 ^ n := by
  induction n generalizing v with
  | zero => simp [le, leVal, Nat.mod_one]
  | succ n ih =>
    rw [le, leVal, ih, BitVec.toNat_ofNat, show 256 ^ (n + 1) = 256 * 256 ^ n from Nat.pow_succ',
      show 2 ^ 8 = 256 from rfl, Nat.mod_mul]

end Sys2Proof.Machine
end

