-- ==== Sys2Proof/Laws/Answers.lean ====
section
/-! SUPPORT. What the shared operations of the mailbox, the event rings and the trouble record can do: which parts of the block
each of them leaves alone. -/
namespace Sys2Proof.Machine

/-! ### Functions -/

@[simp] theorem Dev.updFunc_updHost (d : Dev) (f : Nat) (g : Func → Func) :
    d.updFunc f g = d.updHost fun h => { h with funcs := tmod {} h.funcs f g } := rfl

/-- A function after an update of some function. -/
theorem Dev.func_updFunc (d : Dev) (f i : Nat) (g : Func → Func) :
    (d.updFunc f g).func i = if i = f then g (d.func f) else d.func i := by
  simp only [Dev.func, Dev.updFunc, Dev.updHost_host, tget_tmod]

/-! ### Interrupts and events change the host interface, and the trouble record where an event is lost -/

/-- `d'` differs from `d` at most in the management record and in the host interface, there in the functions, host memory and
messages sent. -/
structure HostOnly (d d' : Dev) : Prop where
  dev : d' = { d with host := d'.host, mgmt := d'.mgmt, cyc := d'.cyc }
  host : d'.host = { d.host with funcs := d'.host.funcs, mem := d'.host.mem, msix := d'.host.msix, link := d'.host.link }

theorem HostOnly.refl (d : Dev) : HostOnly d d := ⟨rfl, rfl⟩

theorem HostOnly.trans {a b c : Dev} (h : HostOnly a b) (k : HostOnly b c) : HostOnly a c := by
  refine ⟨?_, ?_⟩
  · rw [k.dev, h.dev]
  · rw [k.host, h.host]

theorem HostOnly.updFunc (d : Dev) (f : Nat) (g : Func → Func) : HostOnly d (d.updFunc f g) := ⟨rfl, rfl⟩

theorem HostOnly.tryVector (c : Clock) (d : Dev) (f v : Nat) : HostOnly d (d.tryVector c f v) := by
  unfold Dev.tryVector
  dsimp only
  split
  · exact .refl d
  · split
    · split <;> exact ⟨rfl, rfl⟩
    · exact .refl d

theorem HostOnly.cause (c : Clock) (d : Dev) (f v : Nat) : HostOnly d (d.cause c f v) := by
  unfold Dev.cause
  split
  · exact .trans (.updFunc d f _) (.tryVector c _ f v)
  · exact .refl d

theorem HostOnly.store (d : Dev) (f a g b : Nat) (x y : List Byte) :
    HostOnly d (d.updHost fun h => (h.store f a x).store g b y) := ⟨rfl, rfl⟩

theorem HostOnly.writeEvent (c : Clock) (d : Dev) (f : Nat) (e : Event) : HostOnly d (d.writeEvent c f e) := by
  unfold Dev.writeEvent
  exact .trans (.trans (.store d f _ f _ _ _) (.updFunc _ f _)) (.cause c _ f 1)

theorem HostOnly.trouble (d : Dev) (w b : Nat) : HostOnly d (d.trouble w b) := ⟨rfl, rfl⟩

/-- Posting an event touches the host interface, and the trouble record where the event is lost (R68). -/
theorem HostOnly.post (c : Clock) (d : Dev) (f : Nat) (e : Event) : HostOnly d (d.post c f e) := by
  unfold Dev.post
  dsimp only
  split
  · exact .refl d
  · split
    · split
      · exact .updFunc d f _
      · exact .trans (.trouble d 33 trbOVERFLOW) (.updFunc _ f _)
    · exact .writeEvent c d f e

theorem HostOnly.evt (c : Clock) (d : Dev) (ring own code tag : Nat) (fs : List (Nat × Nat × Nat)) :
    HostOnly d (d.evt c ring own code tag fs) := .post c d ring _

theorem HostOnly.waiting {d d' : Dev} (h : HostOnly d d') : d'.host.waiting = d.host.waiting := by rw [h.host]

theorem HostOnly.mb {d d' : Dev} (h : HostOnly d d') : d'.host.mb = d.host.mb := by rw [h.host]

theorem HostOnly.cores {d d' : Dev} (h : HostOnly d d') : d'.cores = d.cores := by rw [h.dev]

theorem HostOnly.mem {d d' : Dev} (h : HostOnly d d') : d'.mem = d.mem := by rw [h.dev]

/-- Without a ring an event leaves the block as it was (R68). -/
theorem Dev.post_noRing {c : Clock} {d : Dev} {f : Nat} {e : Event} (h : (d.func f).ringAddr = 0) : d.post c f e = d := by
  unfold Dev.post; simp [h]

/-! ### The trouble record changes the management record alone, and notes what the cycle has set -/

/-- An entry of the log changes the management record alone. -/
theorem Dev.logOnly_eq (c : Clock) (d : Dev) (w sev code : Nat) (data : List Byte) :
    d.logOnly c w sev code data = { d with mgmt := (d.logOnly c w sev code data).mgmt } := rfl

theorem Dev.log_eq (c : Clock) (d : Dev) (w b code : Nat) (data : List Byte) :
    d.log c w b code data = { d with mgmt := (d.log c w b code data).mgmt, cyc := (d.log c w b code data).cyc } := rfl

/-! ### Answers -/

@[simp] theorem HostIf.answer_waiting (h : HostIf) (w : Waiting) (r : Reply) :
    (h.answer w r).waiting = h.waiting.filter fun v => !(v.page = w.page && v.slot = w.slot) := by
  unfold HostIf.answer; dsimp only

/-- The response of a request that is not by reference: header and payload. -/
theorem HostIf.answer_mb (h : HostIf) (w : Waiting) (r : Reply) (hf : bit w.flags 0 = false) :
    (h.answer w r).mb = writeBytes h.mb (slotBase w.page w.slot)
      (pk [(2, w.code), (2, w.tag), (2, r.payload.length), (2, w.flags), (1, w.func), (1, 0), (2, r.status), (4, r.detail)] ++ r.payload) := by
  unfold HostIf.answer; simp [hf]

/-- An answer changes the host interface, and the trouble record where its event is lost. -/
theorem Dev.respond_dev (c : Clock) (d : Dev) (w : Waiting) (r : Reply) :
    d.respond c w r = { d with host := (d.respond c w r).host, mgmt := (d.respond c w r).mgmt, cyc := (d.respond c w r).cyc } := by
  unfold Dev.respond
  dsimp only
  split <;> split <;> first
    | rfl
    | exact (HostOnly.dev (.evt c _ w.page w.func 0x0180 w.tag _)).trans rfl
    | exact (HostOnly.dev (.cause c _ w.page 0)).trans rfl
    | exact (HostOnly.dev (.trans (.evt c _ w.page w.func 0x0180 w.tag _) (.cause c _ w.page 0))).trans rfl

/-- The slot answered waits no more, and every other slot still does (R60). -/
theorem Dev.respond_waiting (c : Clock) (d : Dev) (w : Waiting) (r : Reply) :
    (d.respond c w r).host.waiting = d.host.waiting.filter fun v => !(v.page = w.page && v.slot = w.slot) := by
  unfold Dev.respond
  dsimp only
  rw [← HostIf.answer_waiting d.host w r]
  split <;> split <;> first
    | rfl
    | exact (HostOnly.waiting (.evt c _ w.page w.func 0x0180 w.tag _)).trans rfl
    | exact (HostOnly.waiting (.cause c _ w.page 0)).trans rfl
    | exact (HostOnly.waiting (.trans (.evt c _ w.page w.func 0x0180 w.tag _) (.cause c _ w.page 0))).trans rfl

/-- The mailbox bytes after an answer: header and payload in the slot (R55). -/
theorem Dev.respond_mb (c : Clock) (d : Dev) (w : Waiting) (r : Reply) (h : bit w.flags 0 = false) :
    (d.respond c w r).host.mb = writeBytes d.host.mb (slotBase w.page w.slot)
      (pk [(2, w.code), (2, w.tag), (2, r.payload.length), (2, w.flags), (1, w.func), (1, 0), (2, r.status), (4, r.detail)] ++ r.payload) := by
  unfold Dev.respond
  dsimp only
  rw [← HostIf.answer_mb d.host w r h]
  split <;> split <;> first
    | rfl
    | exact (HostOnly.mb (.evt c _ w.page w.func 0x0180 w.tag _)).trans rfl
    | exact (HostOnly.mb (.cause c _ w.page 0)).trans rfl
    | exact (HostOnly.mb (.trans (.evt c _ w.page w.func 0x0180 w.tag _) (.cause c _ w.page 0))).trans rfl

/-! ### Serving a command -/

/-- A command that is not there to serve leaves the block as it was (log 10). -/
theorem serve_none {code : Nat} {r : Req} {h : Ctx → Dev → Reply × Dev} {c : Clock} {d : Dev} (hp : d.pick r code = none) :
    serve code r h c d = d := by
  unfold serve; rw [hp]

theorem serveThen_none {code : Nat} {r : Req} {h : Ctx → Dev → Reply × Dev} {p : Ctx → Dev → Dev} {c : Clock} {d : Dev}
    (hp : d.pick r code = none) : serveThen code r h p c d = d := by
  unfold serveThen; rw [hp]

/-- The block after a handler: its effect, journalled where the command is and the answer is no refusal (R563). -/
def effected (code : Nat) (o : Reply × Dev) : Dev :=
  if (o.1.status = stOK || o.1.status = stACCEPTED) && journalled code then noted o.2 else o.2

/-- What serving a command does: the handler's answer and effect where the answer fits. -/
theorem serve_some {code : Nat} {r : Req} {h : Ctx → Dev → Reply × Dev} {c : Clock} {d : Dev} {w : Waiting}
    (hp : d.pick r code = some w) (hm : misfit w (h (w.ctx c) d).1 = none) :
    serve code r h c d = (answered c w (h (w.ctx c) d).1 (effected code (h (w.ctx c) d))).settleHeaders c
      (effected code (h (w.ctx c) d)).host.waiting.length := by
  unfold serve; rw [hp]; simp only [Waiting.ctx] at hm; simp only [hm]; rfl

/-- An answer that does not fit is a refusal, and the command has had no effect (R64). -/
theorem serve_misfit {code : Nat} {r : Req} {h : Ctx → Dev → Reply × Dev} {c : Clock} {d : Dev} {w : Waiting} {b : Reply}
    (hp : d.pick r code = some w) (hm : misfit w (h (w.ctx c) d).1 = some b) :
    serve code r h c d = (answered c w b d).settleHeaders c d.host.waiting.length := by
  unfold serve; rw [hp]; simp only [Waiting.ctx] at hm; simp only [hm]; rfl

/-- The only command that waits is served, whoever was served last (R59). -/
theorem pick_alone {d : Dev} {r : Req} {code : Nat} {w : Waiting} (hw : d.host.waiting = [w]) (hp : w.page = r.page)
    (hs : w.slot = r.slot) (hc : w.code = code) (hr : w.refuse = none) (hb : w.page < 16) : d.pick r code = some w := by
  have hm : mayStart d.host.waiting w = true := by rw [hw]; simp [mayStart]
  have ht : turn d.host = some w.page := by
    unfold turn
    rw [List.find?_map]
    have key : ∀ p, (d.host.waiting.any fun v => v.page = p && mayStart d.host.waiting v) = decide (w.page = p) := by
      intro p; rw [hw]; simp [mayStart]
    simp only [Function.comp_def, key]
    cases hf : (List.range 16).find? (fun i => decide (w.page = (d.host.lastServed + 1 + i) % 16)) with
    | some i =>
      have := List.find?_some hf
      simp only [decide_eq_true_eq] at this
      simp [← this]
    | none =>
      exfalso
      rw [List.find?_eq_none] at hf
      have := hf ((w.page + 15 * (d.host.lastServed + 1)) % 16) (by simp; omega)
      simp only [decide_eq_true_eq] at this
      omega
  unfold Dev.pick
  rw [hw] at hm ⊢
  simp [hp.symm, hs.symm, hc.symm, hr, hm, ht]

/-- Nothing waits: no header to answer. -/
theorem Dev.settleHeaders_nil {c : Clock} {d : Dev} (n : Nat) (h : d.host.waiting = []) : d.settleHeaders c n = d := by
  cases n with
  | zero => rfl
  | succ n => simp [Dev.settleHeaders, h]

/-- After the answer of the only command that waits, nothing waits. -/
theorem answered_waiting {c : Clock} {w : Waiting} {b : Reply} {d : Dev} (h : d.host.waiting = [w]) :
    (answered c w b d).host.waiting = [] := by
  unfold answered
  rw [Dev.respond_waiting]
  simp [Dev.updHost, h]

/-- The only command that waits is answered, with the handler's effect (R59, R60, R563). -/
theorem serve_alone {s : State} {code : Nat} {r : Req} {w : Waiting} {h : Ctx → Dev → Reply × Dev} (hw : Waits s r code w)
    (hm : misfit w (h (w.ctx s.clk) s.dev).1 = none) (hk : (h (w.ctx s.clk) s.dev).2.host.waiting = [w]) :
    serve code r h s.clk s.dev = answered s.clk w (h (w.ctx s.clk) s.dev).1 (effected code (h (w.ctx s.clk) s.dev)) := by
  obtain ⟨hw1, hw2, hw3, hw4, hw5, hw6, _⟩ := hw
  rw [serve_some (pick_alone hw1 hw2 hw3 hw4 hw5 (hw2 ▸ hw6)) hm]
  refine Dev.settleHeaders_nil _ (answered_waiting ?_)
  unfold effected
  split
  · exact hk
  · exact hk

end Sys2Proof.Machine
end

