-- ==== Sys2Proof/WellFormed.lean ====
section
/-! DEFINITION. Well-formed commands: every operand within the width its rule gives it. -/
namespace Sys2Proof

/-- A value within `n` bits. -/
def fits (n v : Nat) : Bool := v < 2 ^ n

/-- Every value of a list within `n` bits. -/
def allFits (n : Nat) (l : List Nat) : Bool := l.all fun v => fits n v

/-- A signed value within `n` bits. -/
def fitsS (n : Nat) (v : Int) : Bool := -(2 ^ (n - 1) : Int) ≤ v && v < 2 ^ (n - 1)

/-- A mailbox slot exists (R55). -/
def Req.wf (r : Req) : Bool := r.page < 16 && r.slot < 16

/-- A core exists (R110). -/
def BCtx.wf (c : BCtx) : Bool := fits 10 c.core

/-- A guard's register number (R112). -/
def Guard.wf (g : Guard) : Bool := fits 4 g.qg

/-- Every operand of the command is within its width. -/
def wfInstr : Instr → Bool
  | .deviceSetMode r mode live => r.wf && fits 8 mode && fits 64 live
  | .modeLiveBoundary => true
  | .modeDrainBoundary => true
  | .modeDrainAbort => true
  | .modeDone => true
  | .deviceGetMode r => r.wf
  | .deviceGetCapacity r => r.wf
  | .deviceLookBind r stream dir chan domain => r.wf && fits 16 stream && fits 8 dir && fits 16 chan && fits 8 domain
  | .deviceLookStatus r stream dir => r.wf && fits 16 stream && fits 8 dir
  | .lookTxMessage stream => fits 11 stream
  | .lookRxMessage chan => fits 16 chan
  | .deviceConfSet r carrier source model pci vslot start => r.wf && fits 16 carrier && fits 8 source && fits 8 model && fits 16 pci && fits 8 vslot && fits 64 start
  | .deviceConfVectorLoad r vslot tracks frames rate _ => r.wf && fits 8 vslot && fits 8 tracks && fits 8 frames && fits 32 rate
  | .deviceConfCapture r stream start frames => r.wf && fits 16 stream && fits 64 start && fits 8 frames
  | .confCaptureDone => true
  | .confPlanForm carrier frame slot threads jobs => fits 16 carrier && fits 32 frame && fits 8 slot && allFits 144 threads && allFits 912 jobs
  | .mbRing func mask => fits 5 func && fits 16 mask
  | .evtConsWrite func value => fits 5 func && fits 16 value
  | .bar2WinWrite func value => fits 5 func && fits 32 value
  | .ntcSnapshotTrigger func => fits 5 func
  | .snapSeqIncrement func => fits 5 func
  | .functionLevelReset func => fits 5 func
  | .linkDown port => fits 1 port
  | .perstAssert port => fits 1 port
  | .configRequest func _ field value => fits 5 func && fits 2 field && fits 32 value
  | .hostMemoryRead func bar off len => fits 5 func && fits 3 bar && fits 34 off && fits 13 len
  | .hostMemoryWrite func bar off _ _ => fits 5 func && fits 3 bar && fits 34 off
  | .registerWrite kind idx priv addr _ => fits 3 kind && fits 11 idx && fits 2 priv && fits 48 addr
  | .rcRegisterRead kind idx priv addr len => fits 3 kind && fits 11 idx && fits 2 priv && fits 48 addr && fits 4 len
  | .msixUnmask func vector => fits 5 func && fits 9 vector
  | .msixModerationTimeout func vector => fits 5 func && fits 9 vector
  | .hostSetEventRing r addr log => r.wf && fits 64 addr && fits 8 log
  | .hostSetVectors r counts => r.wf && allFits 16 counts
  | .hostSetModeration r vector count time => r.wf && fits 16 vector && fits 8 count && fits 16 time
  | .hostAssignQueues r owners => r.wf && allFits 16 owners
  | .hostSetQueue r queue addr entries dir vector noSnoop => r.wf && fits 8 queue && fits 64 addr && fits 16 entries && fits 8 dir && fits 16 vector && fits 8 noSnoop
  | .hostGetFuncStats r => r.wf
  | .hostQueueDoorbell func queue value => fits 5 func && fits 9 queue && fits 32 value
  | .cadPortPost port who => fits 6 port && fits 11 who
  | .cadPortCancel port who => fits 6 port && fits 11 who
  | .atcNowLowRead requester => fits 16 requester
  | .cadenceEntryFire found => fits 2 found
  | .airCarrierAdd r carrier std bw mu cp off hostCar => r.wf && fits 16 carrier && fits 8 std && fits 16 bw && fits 8 mu && fits 8 cp && fits 32 off && fits 16 hostCar
  | .airCarrierRemove r carrier => r.wf && fits 16 carrier
  | .airGetTime r carrier => r.wf && fits 16 carrier
  | .cadPost r trigger period count action flags target arg => r.wf && fits 64 trigger && fits 32 period && fits 32 count && fits 8 action && fits 8 flags && fits 32 target && fits 64 arg
  | .cadCancel r index => r.wf && fits 16 index
  | .cadAssignPort r port owner pool => r.wf && fits 8 port && fits 8 owner && fits 8 pool
  | .airShadowArm r cls inst value => r.wf && fits 8 cls && fits 32 inst && fits 8 value
  | .airShadowStatus r cls inst => r.wf && fits 8 cls && fits 32 inst
  | .airPlanSubmit r carrier sfn slot flags count override _ times threads further => r.wf && fits 16 carrier && fits 16 sfn && fits 8 slot && fits 8 flags && fits 16 count && fits 64 override && allFits 128 times && allFits 144 threads && allFits 912 further
  | .airPlanCancel r carrier frame slot => r.wf && fits 16 carrier && fits 32 frame && fits 8 slot
  | .planGap carrier slot => fits 9 carrier && fits 8 slot
  | .ledgerChargeExpire => true
  | .nop c g slot => c.wf && g.wf && fits 2 slot
  | .add c g d a b sub => c.wf && g.wf && fits 6 d && fits 6 a && fits 6 b && fits 2 sub
  | .sub c g d a b sub => c.wf && g.wf && fits 6 d && fits 6 a && fits 6 b && fits 2 sub
  | .and c g d a b sub => c.wf && g.wf && fits 6 d && fits 6 a && fits 6 b && fits 2 sub
  | .or c g d a b sub => c.wf && g.wf && fits 6 d && fits 6 a && fits 6 b && fits 2 sub
  | .xor c g d a b sub => c.wf && g.wf && fits 6 d && fits 6 a && fits 6 b && fits 2 sub
  | .shl c g d a b sub => c.wf && g.wf && fits 6 d && fits 6 a && fits 6 b && fits 2 sub
  | .shr c g d a b sub => c.wf && g.wf && fits 6 d && fits 6 a && fits 6 b && fits 2 sub
  | .addi c g d a imm => c.wf && g.wf && fits 6 d && fits 6 a && fits 8 imm
  | .movi c g d imm => c.wf && g.wf && fits 6 d && fits 14 imm
  | .movl c g d => c.wf && g.wf && fits 6 d
  | .cmp c g qd cond a b => c.wf && g.wf && fits 4 qd && fits 4 cond && fits 6 a && fits 6 b
  | .maxi c g d a b sub => c.wf && g.wf && fits 6 d && fits 6 a && fits 6 b && fits 2 sub
  | .mini c g d a b sub => c.wf && g.wf && fits 6 d && fits 6 a && fits 6 b && fits 2 sub
  | .br c g _ off => c.wf && g.wf && fits 19 off
  | .call c g _ off => c.wf && g.wf && fits 19 off
  | .jr c g _ a => c.wf && g.wf && fits 6 a
  | .rep c g len _ stg _ cnt => c.wf && g.wf && fits 5 len && fits 3 stg && fits 10 cnt
  | .repIterationEnd core => fits 10 core
  | .csrr c g reg addr => c.wf && g.wf && fits 6 reg && fits 12 addr
  | .csrw c g reg addr => c.wf && g.wf && fits 6 reg && fits 12 addr
  | .csrs c g reg addr => c.wf && g.wf && fits 6 reg && fits 12 addr
  | .csrc c g reg addr => c.wf && g.wf && fits 6 reg && fits 12 addr
  | .fenceW c g => c.wf && g.wf
  | .fenceI c g => c.wf && g.wf
  | .scadj c g => c.wf && g.wf
  | .wait c g => c.wf && g.wf
  | .waitResume core => fits 10 core
  | .trap c g code => c.wf && g.wf && fits 8 code
  | .brk c g => c.wf && g.wf
  | .rfe c g => c.wf && g.wf
  | .ldb c g _ s p m am _ => c.wf && g.wf && fits 6 s && fits 4 p && fits 4 m && fits 2 am
  | .ldh c g _ s p m am _ => c.wf && g.wf && fits 6 s && fits 4 p && fits 4 m && fits 2 am
  | .ldw c g _ s p m am _ => c.wf && g.wf && fits 6 s && fits 4 p && fits 4 m && fits 2 am
  | .ldd c g _ s p m am _ => c.wf && g.wf && fits 6 s && fits 4 p && fits 4 m && fits 2 am
  | .stb c g _ s p m am => c.wf && g.wf && fits 6 s && fits 4 p && fits 4 m && fits 2 am
  | .sth c g _ s p m am => c.wf && g.wf && fits 6 s && fits 4 p && fits 4 m && fits 2 am
  | .stw c g _ s p m am => c.wf && g.wf && fits 6 s && fits 4 p && fits 4 m && fits 2 am
  | .std c g _ s p m am => c.wf && g.wf && fits 6 s && fits 4 p && fits 4 m && fits 2 am
  | .ldwD c g _ s p disp => c.wf && g.wf && fits 6 s && fits 4 p && fits 10 disp
  | .stwD c g _ s p disp => c.wf && g.wf && fits 6 s && fits 4 p && fits 10 disp
  | .padd c g _ pd pa s => c.wf && g.wf && fits 4 pd && fits 4 pa && fits 6 s
  | .pmod c g _ p m am => c.wf && g.wf && fits 4 p && fits 4 m && fits 2 am
  | .pset c g _ pd s => c.wf && g.wf && fits 4 pd && fits 6 s
  | .pget c g _ s p => c.wf && g.wf && fits 6 s && fits 4 p
  | .mset c g _ md s => c.wf && g.wf && fits 4 md && fits 6 s
  | .mac c g an a b sub => c.wf && g.wf && fits 3 an && fits 6 a && fits 6 b && fits 2 sub
  | .cmac c g an a b sub => c.wf && g.wf && fits 3 an && fits 6 a && fits 6 b && fits 2 sub
  | .mul c g d a b sub => c.wf && g.wf && fits 6 d && fits 6 a && fits 6 b && fits 2 sub
  | .mva c g d an form => c.wf && g.wf && fits 6 d && fits 3 an && fits 2 form
  | .aclr c g an => c.wf && g.wf && fits 3 an
  | .farLoadAnswer core resp _ => fits 10 core && fits 3 resp
  | .writeBufferAnswer core resp => fits 10 core && fits 3 resp
  | .preemptInterrupt core => fits 10 core
  | .eventInterrupt core => fits 10 core
  | .imgLoad r slot _ => r.wf && fits 8 slot
  | .imgBind r pool slot => r.wf && fits 8 pool && fits 8 slot
  | .imgSwap r pool slot prompt => r.wf && fits 8 pool && fits 8 slot && fits 8 prompt
  | .coreReload core => fits 10 core
  | .imgSwapped pool => fits 6 pool
  | .imgInfo r slot => r.wf && fits 8 slot
  | .coreGetState r core => r.wf && fits 16 core
  | .coreRestart r core => r.wf && fits 16 core
  | .vsetvl c g s v s2 _ => c.wf && g.wf && fits 6 s && fits 5 v && fits 6 s2
  | .vadd c g vd va vb _ sub => c.wf && g.wf && fits 5 vd && fits 5 va && fits 5 vb && fits 4 sub
  | .vsub c g vd va vb _ sub => c.wf && g.wf && fits 5 vd && fits 5 va && fits 5 vb && fits 4 sub
  | .vadds c g vd va s _ sub => c.wf && g.wf && fits 5 vd && fits 5 va && fits 6 s && fits 3 sub
  | .vand c g vd va vb _ sub => c.wf && g.wf && fits 5 vd && fits 5 va && fits 5 vb && fits 4 sub
  | .vor c g vd va vb _ sub => c.wf && g.wf && fits 5 vd && fits 5 va && fits 5 vb && fits 4 sub
  | .vxor c g vd va vb _ sub => c.wf && g.wf && fits 5 vd && fits 5 va && fits 5 vb && fits 4 sub
  | .vshl c g vd va s _ sub => c.wf && g.wf && fits 5 vd && fits 5 va && fits 6 s && fits 3 sub
  | .vshr c g vd va s _ sub => c.wf && g.wf && fits 5 vd && fits 5 va && fits 6 s && fits 3 sub
  | .vmin c g vd va vb _ sub => c.wf && g.wf && fits 5 vd && fits 5 va && fits 5 vb && fits 4 sub
  | .vmax c g vd va vb _ sub => c.wf && g.wf && fits 5 vd && fits 5 va && fits 5 vb && fits 4 sub
  | .vabs c g vd va vb _ sub => c.wf && g.wf && fits 5 vd && fits 5 va && fits 5 vb && fits 4 sub
  | .vmerge c g vd va vb _ sub => c.wf && g.wf && fits 5 vd && fits 5 va && fits 5 vb && fits 4 sub
  | .vconj c g vd va vb _ sub => c.wf && g.wf && fits 5 vd && fits 5 va && fits 5 vb && fits 4 sub
  | .vmul c g vd va vb _ sub => c.wf && g.wf && fits 5 vd && fits 5 va && fits 5 vb && fits 4 sub
  | .vmuls c g vd va s _ sub => c.wf && g.wf && fits 5 vd && fits 5 va && fits 6 s && fits 3 sub
  | .vmac c g vd va vb _ sub => c.wf && g.wf && fits 5 vd && fits 5 va && fits 5 vb && fits 4 sub
  | .vwmac c g vd va vb _ sub => c.wf && g.wf && fits 5 vd && fits 5 va && fits 5 vb && fits 4 sub
  | .vmag2 c g vd va vb _ sub => c.wf && g.wf && fits 5 vd && fits 5 va && fits 5 vb && fits 4 sub
  | .vfadd c g vd va vb _ sub => c.wf && g.wf && fits 5 vd && fits 5 va && fits 5 vb && fits 4 sub
  | .vfsub c g vd va vb _ sub => c.wf && g.wf && fits 5 vd && fits 5 va && fits 5 vb && fits 4 sub
  | .vfmul c g vd va vb _ sub => c.wf && g.wf && fits 5 vd && fits 5 va && fits 5 vb && fits 4 sub
  | .vfma c g vd va vb _ sub => c.wf && g.wf && fits 5 vd && fits 5 va && fits 5 vb && fits 4 sub
  | .vcvt c g vd va vb _ sub => c.wf && g.wf && fits 5 vd && fits 5 va && fits 5 vb && fits 4 sub
  | .vcmp c g vd va vb _ sub => c.wf && g.wf && fits 5 vd && fits 5 va && fits 5 vb && fits 4 sub
  | .vslideup c g vd va s _ sub => c.wf && g.wf && fits 5 vd && fits 5 va && fits 6 s && fits 3 sub
  | .vslidedn c g vd va s _ sub => c.wf && g.wf && fits 5 vd && fits 5 va && fits 6 s && fits 3 sub
  | .vzip c g vd va vb _ sub => c.wf && g.wf && fits 5 vd && fits 5 va && fits 5 vb && fits 4 sub
  | .vbcast c g s v s2 _ sub => c.wf && g.wf && fits 6 s && fits 5 v && fits 6 s2 && fits 2 sub
  | .vext c g s v s2 _ sub => c.wf && g.wf && fits 6 s && fits 5 v && fits 6 s2 && fits 2 sub
  | .vins c g s v s2 _ sub => c.wf && g.wf && fits 6 s && fits 5 v && fits 6 s2 && fits 2 sub
  | .vrsum c g an va _ sub => c.wf && g.wf && fits 3 an && fits 5 va && fits 2 sub
  | .vmaxi c g s v s2 _ sub => c.wf && g.wf && fits 6 s && fits 5 v && fits 6 s2 && fits 2 sub
  | .vmini c g s v s2 _ sub => c.wf && g.wf && fits 6 s && fits 5 v && fits 6 s2 && fits 2 sub
  | .vmva c g vd va vb _ sub => c.wf && g.wf && fits 5 vd && fits 5 va && fits 5 vb && fits 4 sub
  | .vld c g _ v p m am _ => c.wf && g.wf && fits 5 v && fits 4 p && fits 4 m && fits 2 am
  | .vst c g _ v p m am _ => c.wf && g.wf && fits 5 v && fits 4 p && fits 4 m && fits 2 am
  | .vlds c g _ v p m am _ => c.wf && g.wf && fits 5 v && fits 4 p && fits 4 m && fits 2 am
  | .vsts c g _ v p m am _ => c.wf && g.wf && fits 5 v && fits 4 p && fits 4 m && fits 2 am
  | .vgath c g _ v p vi _ sc => c.wf && g.wf && fits 5 v && fits 4 p && fits 5 vi && fits 2 sc
  | .vscat c g _ v p vi _ sc => c.wf && g.wf && fits 5 v && fits 4 p && fits 5 vi && fits 2 sc
  | .vldr c g _ v p m am _ => c.wf && g.wf && fits 5 v && fits 4 p && fits 4 m && fits 2 am
  | .vstr c g _ v p m am _ => c.wf && g.wf && fits 5 v && fits 4 p && fits 4 m && fits 2 am
  | .cop0 c g fn sa sb tag => c.wf && g.wf && fits 4 fn && fits 6 sa && fits 6 sb && fits 4 tag
  | .cop1 c g fn ps pd sc => c.wf && g.wf && fits 4 fn && fits 4 ps && fits 4 pd && fits 6 sc
  | .cop2 c g fn ps pd sc => c.wf && g.wf && fits 4 fn && fits 4 ps && fits 4 pd && fits 6 sc
  | .popR c g sd _ => c.wf && g.wf && fits 6 sd
  | .popD c g sd _ => c.wf && g.wf && fits 6 sd
  | .quiesce c g _ => c.wf && g.wf
  | .discard c g _ => c.wf && g.wf
  | .copst c g qd _ test => c.wf && g.wf && fits 4 qd && fits 2 test
  | .copUnitStart octet _ => fits 7 octet
  | .sfuResultReady core _ => fits 10 core
  | .copBlockDone core _ _ => fits 10 core
  | .ready port _ thread => fits 10 port && fits 16 thread
  | .cancel port thread => fits 10 port && fits 16 thread
  | .block port _ => fits 10 port
  | .yield port => fits 10 port
  | .spawn port _ thread => fits 10 port && fits 16 thread
  | .setdl port thread => fits 10 port && fits 16 thread
  | .saddleLoad pool => fits 6 pool
  | .saddleLoadComplete core => fits 10 core
  | .threadSwitch core => fits 10 core
  | .writebackDone core => fits 10 core
  | .deadlineMiss thread => fits 16 thread
  | .pelPoolConfig r pool edfp cap => r.wf && fits 8 pool && fits 8 edfp && fits 8 cap
  | .pelResize r pool prompt mask => r.wf && fits 8 pool && fits 8 prompt && fits 1024 mask
  | .resizeDone pool => fits 6 pool
  | .pelThreadSet r thread pool band misspol flags escband ctxHome entry arg0 arg1 est user => r.wf && fits 16 thread && fits 8 pool && fits 8 band && fits 8 misspol && fits 8 flags && fits 8 escband && fits 48 ctxHome && fits 32 entry && fits 32 arg0 && fits 32 arg1 && fits 32 est && fits 1024 user
  | .pelThreadFree r thread => r.wf && fits 16 thread
  | .pelThreadGet r thread => r.wf && fits 16 thread
  | .pelOp r op flag thread deadline arg0 arg1 => r.wf && fits 8 op && fits 8 flag && fits 16 thread && fits 64 deadline && fits 32 arg0 && fits 32 arg1
  | .pelPoolDisable r pool mode => r.wf && fits 8 pool && fits 8 mode
  | .poolDisabled pool => fits 6 pool
  | .pelPoolEnable r pool => r.wf && fits 8 pool
  | .pelLedgerGet r pool first count => r.wf && fits 8 pool && fits 64 first && fits 8 count
  | .pelTraceSet r addr log2 mode events pools => r.wf && fits 64 addr && fits 8 log2 && fits 8 mode && fits 16 events && fits 64 pools
  | .engRingDoorbell who ring prod => fits 11 who && fits 8 ring && fits 16 prod
  | .descriptorFetch ring => fits 8 ring
  | .jobStart eng => fits 6 eng
  | .jobLate ring => fits 8 ring
  | .jobEnd eng _ => fits 6 eng
  | .engRingSet r ring cls mask prio owner pool base log2 => r.wf && fits 8 ring && fits 8 cls && fits 64 mask && fits 8 prio && fits 8 owner && fits 8 pool && fits 64 base && fits 8 log2
  | .engRingStatus r ring => r.wf && fits 8 ring
  | .engDisable r mask mode => r.wf && fits 64 mask && fits 8 mode
  | .engEnable r mask => r.wf && fits 64 mask
  | .engRingDisable r ring mode => r.wf && fits 8 ring && fits 8 mode
  | .engRingEnable r ring => r.wf && fits 8 ring
  | .engDisabled _ ring => fits 8 ring
  | .engGetStats r engine => r.wf && fits 8 engine
  | .engHarqConfig r func base size => r.wf && fits 8 func && fits 64 base && fits 64 size
  | .engClassConfig r cls cap => r.wf && fits 8 cls && fits 8 cap
  | .feStreamSet r stream carrier fin fout hb rs side leadTx lagRx => r.wf && fits 16 stream && fits 16 carrier && fits 32 fin && fits 32 fout && fits 8 hb && fits 8 rs && fits 8 side && fits 32 leadTx && fits 32 lagRx
  | .feShadowWrite r stream dir mask sectEn gain phase dlyInt dlyFrac mute => r.wf && fits 16 stream && fits 8 dir && fits 8 mask && fits 8 sectEn && fits 16 gain && fits 16 phase && fits 16 dlyInt && fits 16 dlyFrac && fits 8 mute
  | .feCassetteWrite r stream dir cas mask coefs => r.wf && fits 16 stream && fits 8 dir && fits 8 cas && fits 8 mask && allFits 32 coefs
  | .feShift r stream dir target len notify => r.wf && fits 16 stream && fits 8 dir && fits 8 target && fits 16 len && fits 8 notify
  | .cassetteDone stream dir => fits 11 stream && fits 1 dir
  | .feStatus r stream dir => r.wf && fits 16 stream && fits 8 dir
  | .feDetectSet r stream dir det tap k att dec hi lo => r.wf && fits 16 stream && fits 8 dir && fits 8 det && fits 8 tap && fits 8 k && fits 8 att && fits 8 dec && fits 32 hi && fits 32 lo
  | .feDetectRead r stream dir => r.wf && fits 16 stream && fits 8 dir
  | .feGetDelay r stream dir => r.wf && fits 16 stream && fits 8 dir
  | .feStreamRemove r stream => r.wf && fits 16 stream
  | .detectWindowEnd stream dir _ => fits 11 stream && fits 1 dir
  | .feEnvelope stream dir => fits 11 stream && fits 1 dir
  | .resamplerReanchor stream dir => fits 11 stream && fits 1 dir
  | .cmpShadowWrite r stream dir mask mode m mMin mMax bound => r.wf && fits 16 stream && fits 8 dir && fits 8 mask && fits 8 mode && fits 8 m && fits 8 mMin && fits 8 mMax && fits 16 bound
  | .cmpStatus r stream dir => r.wf && fits 16 stream && fits 8 dir
  | .cmpClear r stream dir => r.wf && fits 16 stream && fits 8 dir
  | .fabricRequest src sport type pri tag addr len _ peer kind idx priv errNode errPort replays => fits 8 src && fits 4 sport && fits 4 type && fits 2 pri && fits 12 tag && fits 48 addr && fits 9 len && fits 3 peer && fits 3 kind && fits 11 idx && fits 2 priv && fits 8 errNode && fits 4 errPort && fits 16 replays
  | .fabricResponse => true
  | .packetAtClosedGate => true
  | .gateIsolated dom => fits 5 dom
  | .fabLinkFault node port => fits 8 node && fits 4 port
  | .linkSelftestDone node port _ => fits 8 node && fits 4 port
  | .routeFlip => true
  | .flipHoldRelease => true
  | .fabEpochRetired => true
  | .fabRouteWrite r node bank turns table => r.wf && fits 8 node && fits 8 bank && fits 8 turns && allFits 8 table
  | .fabRouteCommit r at_ => r.wf && fits 64 at_
  | .fabRouteStatus r => r.wf
  | .fabProbeSet r probe enable node port dir mode srcLo srcHi destLo destHi pri vc type addrLo addrHi => r.wf && fits 8 probe && fits 8 enable && fits 8 node && fits 8 port && fits 8 dir && fits 8 mode && fits 8 srcLo && fits 8 srcHi && fits 8 destLo && fits 8 destHi && fits 8 pri && fits 8 vc && fits 16 type && fits 64 addrLo && fits 64 addrHi
  | .fabTraceSet r addr log mode => r.wf && fits 64 addr && fits 8 log && fits 8 mode
  | .fabGateStatus r dom => r.wf && fits 8 dom
  | .fabLinkStatus r node port => r.wf && fits 8 node && fits 8 port
  | .movDoorbell chan prod kind idx priv => fits 10 chan && fits 16 prod && fits 3 kind && fits 11 idx && fits 2 priv
  | .resumeRetry chan kind idx priv => fits 10 chan && fits 3 kind && fits 11 idx && fits 2 priv
  | .resumeSkip chan kind idx priv => fits 10 chan && fits 3 kind && fits 11 idx && fits 2 priv
  | .resumeAbort chan kind idx priv => fits 10 chan && fits 3 kind && fits 11 idx && fits 2 priv
  | .descriptorComplete chan _ => fits 10 chan
  | .movHalted chan _ cause at_ _ => fits 10 chan && fits 3 cause && fits 24 at_
  | .movChanSet r chan owner pool base log prio timed deadline srcBase srcSize dstBase dstSize => r.wf && fits 16 chan && fits 8 owner && fits 8 pool && fits 64 base && fits 8 log && fits 8 prio && fits 8 timed && fits 8 deadline && fits 64 srcBase && fits 64 srcSize && fits 64 dstBase && fits 64 dstSize
  | .movChanStatus r chan => r.wf && fits 16 chan
  | .movDisable r chan mode => r.wf && fits 16 chan && fits 8 mode
  | .movEnable r chan => r.wf && fits 16 chan
  | .movResume r chan action => r.wf && fits 16 chan && fits 8 action
  | .movDisabled chan => fits 10 chan
  | .movFuncWindow r func base size => r.wf && fits 8 func && fits 64 base && fits 64 size
  | .memTested kind unit _ => fits 2 kind && fits 48 unit
  | .spliceFlashWrite => true
  | .scrubRead cls found => fits 1 cls && fits 2 found
  | .memUePeriodEnd cls => fits 4 cls
  | .memGetMap r => r.wf
  | .memPartitionSet r harq stream => r.wf && fits 8 harq && fits 8 stream
  | .memScrubSet r cls period => r.wf && fits 8 cls && fits 16 period
  | .memScrubStatus r cls => r.wf && fits 8 cls
  | .memErrStats r cls => r.wf && fits 8 cls
  | .memInject r addr kind => r.wf && fits 64 addr && fits 8 kind
  | .memSpliceList r first count => r.wf && fits 16 first && fits 16 count
  | .memSpliceAdd r addr => r.wf && fits 64 addr
  | .memRepair r => r.wf
  | .memRepairDone unrepairable => allFits 48 unrepairable
  | .memSelftest r addr core cls => r.wf && fits 64 addr && fits 16 core && fits 8 cls
  | .spkConfig r spoke port profile fec rate cmp mRange domains timed ueLimit => r.wf && fits 8 spoke && fits 8 port && fits 8 profile && fits 8 fec && fits 8 rate && fits 8 cmp && fits 8 mRange && fits 8 domains && fits 8 timed && fits 16 ueLimit
  | .spkEnable r spoke => r.wf && fits 8 spoke
  | .spkDisable r spoke mode => r.wf && fits 8 spoke && fits 8 mode
  | .spkDisabled spoke => fits 9 spoke
  | .spkStatus r spoke => r.wf && fits 8 spoke
  | .spkGetLatency r spoke => r.wf && fits 8 spoke
  | .spkMapWrite r spoke first count entries => r.wf && fits 8 spoke && fits 8 first && fits 8 count && allFits 32 entries
  | .spkResize r spoke port => r.wf && fits 8 spoke && fits 8 port
  | .spkResized spoke => fits 7 spoke
  | .detectPulse spoke _ => fits 9 spoke
  | .cdrLockHeld spoke => fits 9 spoke
  | .pcsLock spoke _ => fits 9 spoke
  | .bringupTimeout spoke => fits 9 spoke
  | .retryWaitEnd spoke => fits 9 spoke
  | .capFrameSend spoke => fits 9 spoke
  | .cap spoke _ => fits 7 spoke
  | .confirm spoke _ => fits 7 spoke
  | .spokeFault spoke kind ue => fits 9 spoke && fits 2 kind && fits 32 ue
  | .laneSelftestDone lane _ => fits 9 lane
  | .laneTableApply r first count _ => r.wf && fits 8 first && fits 8 count
  | .laneTableGet r lane => r.wf && fits 8 lane
  | .laneLoop r lane loop echo => r.wf && fits 8 lane && fits 8 loop && fits 8 echo
  | .lanePatgen r lane pat inv user raw => r.wf && fits 8 lane && fits 8 pat && fits 8 inv && fits 64 user && fits 32 raw
  | .lanePatchk r lane pat inv user enable => r.wf && fits 8 lane && fits 8 pat && fits 8 inv && fits 64 user && fits 8 enable
  | .laneInject r lane point len every => r.wf && fits 8 lane && fits 8 point && fits 8 len && fits 64 every
  | .injectInterval lane _ => fits 7 lane
  | .laneChkRead r lane clear => r.wf && fits 8 lane && fits 8 clear
  | .laneEyescan r lane kind n => r.wf && fits 8 lane && fits 8 kind && fits 8 n
  | .eyeDone lane => fits 7 lane
  | .laneEyeRead r lane => r.wf && fits 8 lane
  | .laneSelftest r lane => r.wf && fits 8 lane
  | .frameReceive port _ _ fecCorr fecUe => fits 9 port && fits 16 fecCorr && fits 16 fecUe
  | .pauseExpire port prio => fits 7 port && fits 4 prio
  | .streamHoldExpire port => fits 7 port
  | .frameTransmit port => fits 9 port
  | .txUnderrun port => fits 7 port
  | .pfcSend port => fits 7 port
  | .lpiEnter port => fits 7 port
  | .lpiWake port => fits 7 port
  | .delayMeasurementTimeout port => fits 7 port
  | .steerKeepExpire port => fits 8 port
  | .macPortSet r port ownMac peerMac tci transport ownIp peerIp udp dscp maxFrame seg => r.wf && fits 8 port && fits 48 ownMac && fits 48 peerMac && fits 16 tci && fits 8 transport && fits 128 ownIp && fits 128 peerIp && fits 16 udp && fits 8 dscp && fits 16 maxFrame && fits 16 seg
  | .macFilterSet r port enable addrs prom allmc keepBad vlanCheck => r.wf && fits 8 port && fits 16 enable && allFits 48 addrs && fits 8 prom && fits 8 allmc && fits 8 keepBad && fits 8 vlanCheck
  | .macFlowSet r port rxPause pfcRx txPfc hold => r.wf && fits 8 port && fits 8 rxPause && fits 8 pfcRx && fits 8 txPfc && fits 16 hold
  | .macLpiSet r port en idle => r.wf && fits 8 port && fits 8 en && fits 16 idle
  | .macQueueSet r port rx tx => r.wf && fits 8 port && fits 16 rx && fits 16 tx
  | .macSteerWrite r port first count entries => r.wf && fits 8 port && fits 8 first && fits 8 count && allFits 32 entries
  | .macTxthreshReset r port => r.wf && fits 8 port
  | .macGetStats r port clear => r.wf && fits 8 port && fits 8 clear
  | .macDelayMeasure r port two id => r.wf && fits 8 port && fits 8 two && fits 8 id
  | .macPortStatus r port => r.wf && fits 8 port
  | .copConfig r spoke mode mask lineAdv timed margin minMargin autoSwap syncWord syncTol syncBase syncStep ramp crcLimit => r.wf && fits 8 spoke && fits 8 mode && fits 8 mask && fits 32 lineAdv && fits 8 timed && fits 16 margin && fits 16 minMargin && fits 8 autoSwap && fits 64 syncWord && fits 8 syncTol && fits 16 syncBase && fits 16 syncStep && fits 16 ramp && fits 32 crcLimit
  | .copEnable r spoke => r.wf && fits 8 spoke
  | .copDisable r spoke mode => r.wf && fits 8 spoke && fits 8 mode
  | .copDisabled spoke => fits 8 spoke
  | .copStatus r spoke => r.wf && fits 8 spoke
  | .copMaskSet r spoke nguard points notches => r.wf && fits 8 spoke && fits 8 nguard && allFits 32 points && allFits 32 notches
  | .copLoadWrite r pair dir force table => r.wf && fits 8 pair && fits 8 dir && fits 8 force && allFits 16 table
  | .copLoadRead r pair dir set => r.wf && fits 8 pair && fits 8 dir && fits 8 set
  | .copSnrRead r pair dir rp => r.wf && fits 8 pair && fits 8 dir && fits 8 rp
  | .copBurstSet r pair rpMask plan down up => r.wf && fits 8 pair && fits 16 rpMask && allFits 32 plan && fits 16 down && fits 16 up
  | .copPairsSet r spoke mask => r.wf && fits 8 spoke && fits 8 mask
  | .copPairsDone spoke => fits 8 spoke
  | .copGetLatency r spoke => r.wf && fits 8 spoke
  | .copGetStats r pair rp clear => r.wf && fits 8 pair && fits 8 rp && fits 8 clear
  | .copSelftest r pair => r.wf && fits 8 pair
  | .copQualify r pair margin => r.wf && fits 8 pair && fits 16 margin
  | .copQualifyDone pair _ => fits 6 pair
  | .lineSuperframe spoke echo => fits 8 spoke && fits 4 echo
  | .syncMatch pair q errs power => fits 6 pair && fits 64 q && fits 7 errs && fits 48 power
  | .headerDecision pair header => fits 6 pair && fits 64 header
  | .burstEnd pair => fits 6 pair
  | .linkFrameReceive pair _ => fits 6 pair
  | .copBringupTimeout pair => fits 6 pair
  | .autoSwap pair _ => fits 6 pair
  | .copDown spoke kind pair => fits 8 spoke && fits 2 kind && fits 2 pair
  | .pairSelftestDone pair _ => fits 6 pair
  | .timeGet r => r.wf
  | .timeServoSet r profile domain roles tsin lane lockTh hold => r.wf && fits 8 profile && fits 8 domain && allFits 8 roles && fits 8 tsin && fits 8 lane && fits 16 lockTh && fits 32 hold
  | .timeAdjFreq r ftrim => r.wf && fitsS 64 ftrim
  | .timeSlew r off rate => r.wf && fitsS 64 off && fits 32 rate
  | .slewDone => true
  | .timeStep r mode arg ns frac => r.wf && fits 8 mode && fits 64 arg && fits 32 ns && fits 16 frac
  | .timePortSet r ports => r.wf && allFits 8 ports
  | .timeStampRead r port n clear => r.wf && fits 8 port && fits 8 n && fits 8 clear
  | .timeTsinSet r input edges wake => r.wf && fits 8 input && fits 8 edges && fits 8 wake
  | .timeTsinRead r input n clear => r.wf && fits 8 input && fits 8 n && fits 8 clear
  | .tsinEdge input _ sub => fits 3 input && fits 17 sub
  | .timeTsoutSet r output mode pol ppsW => r.wf && fits 8 output && fits 8 mode && fits 8 pol && fits 32 ppsW
  | .ppsPulse output => fits 3 output
  | .pulseEnd output => fits 3 output
  | .timeSynceSet r output lane div => r.wf && fits 8 output && fits 8 lane && fits 16 div
  | .synceSquelch output => fits 1 output
  | .timeUtcSet r utc leap second => r.wf && fits 16 utc && fits 8 leap && fits 64 second
  | .leapSecond => true
  | .servoSourceQualify source parent off => fits 2 source && fits 8 parent && fitsS 64 off
  | .servoLock off => fitsS 64 off
  | .servoHoldover mean => fitsS 64 mean
  | .servoHoldoverExpire => true
  | .trueMeasure kind index gap residual toward => fits 2 kind && fits 8 index && fits 3 gap && fitsS 32 residual && fitsS 2 toward
  | .trueGapExpire kind index => fits 2 kind && fits 8 index
  | .trueStale kind index trim => fits 2 kind && fits 8 index && fits 4 trim
  | .trimStore => true
  | .trueSet r kind index enable stale => r.wf && fits 8 kind && fits 8 index && fits 16 enable && fits 16 stale
  | .trueStatus r kind index => r.wf && fits 8 kind && fits 8 index
  | .trueReset r kind index => r.wf && fits 8 kind && fits 8 index
  | .heartbeatSend => true
  | .heartbeatReceive link group epoch servo _ _ boundary seq raw filtered => fits 3 link && fits 16 group && fits 8 epoch && fits 8 servo && fits 64 boundary && fits 32 seq && fitsS 64 raw && fitsS 64 filtered
  | .echoExchange link rtt turn => fits 3 link && fits 48 rtt && fits 48 turn
  | .heartbeatMiss mean => fitsS 64 mean
  | .statusFrame member _ _ _ boundary => fits 3 member && fits 64 boundary
  | .hello link group id peerLink epoch ident => fits 3 link && fits 16 group && fits 8 id && fits 8 peerLink && fits 8 epoch && fits 64 ident
  | .stokerEntry => true
  | .memberTimeout member => fits 3 member
  | .handbackBoundary at_ => fits 64 at_
  | .tandemWindowAccess _ member _ kind idx priv addr len _ peer => fits 3 member && fits 3 kind && fits 11 idx && fits 2 priv && fits 48 addr && fits 13 len && fits 3 peer
  | .tndGroupSet r group topology n => r.wf && fits 16 group && fits 8 topology && fits 8 n
  | .tndLinkSet r link asym => r.wf && fits 8 link && fitsS 32 asym
  | .tndStatus r => r.wf
  | .tndLinkDisable r link mode => r.wf && fits 8 link && fits 8 mode
  | .tndLinkDisabled link => fits 3 link
  | .tndLinkEnable r link => r.wf && fits 8 link
  | .tndWindowSet r window peer base => r.wf && fits 8 window && fits 8 peer && fits 64 base
  | .tndExportSet r range base size mask => r.wf && fits 8 range && fits 64 base && fits 64 size && fits 8 mask
  | .tndStreamSet r stream outlet spoke dirs pcid enable _ => r.wf && fits 16 stream && fits 8 outlet && fits 8 spoke && fits 8 dirs && fits 16 pcid && fits 8 enable
  | .tndXchgSet r chan owner pool base log prio timed deadline srcBase srcSize dstBase dstSize => r.wf && fits 16 chan && fits 8 owner && fits 8 pool && fits 64 base && fits 8 log && fits 8 prio && fits 8 timed && fits 8 deadline && fits 64 srcBase && fits 64 srcSize && fits 64 dstBase && fits 64 dstSize
  | .tndHandback r boundary => r.wf && fits 64 boundary
  | .tndLinkSelftest r link => r.wf && fits 8 link
  | .pairHeartbeat pair => fits 1 pair
  | .pairFailed pair cause => fits 1 pair && fits 2 cause
  | .mgmtTakeover => true
  | .checkpoint => true
  | .mgmtStandby _ => true
  | .mgmtFatal => true
  | .mgmtSupervisor => true
  | .warmRestart key _ => fits 8 key
  | .trbClear w mask => fits 6 w && fits 16 mask
  | .mgmtSet r coast persist => r.wf && fits 16 coast && fits 8 persist
  | .mgmtStatus r => r.wf
  | .mgmtFailover r => r.wf
  | .trbLogRead r first count source => r.wf && fits 32 first && fits 16 count && fits 8 source
  | .trbLogSave r => r.wf
  | .trbGet r => r.wf
  | .updFwLoad r _ release ckptVer => r.wf && fits 32 release && fits 16 ckptVer
  | .updFwActivate r => r.wf
  | .updFwDone _ => true
  | .updFwStatus r => r.wf
  | .updEngMicrocode r cls mask force => r.wf && fits 8 cls && fits 64 mask && fits 8 force
  | .updEngDone => true
  | .pwrLevelSet r mask level at_ notify => r.wf && fits 32 mask && fits 8 level && fits 64 at_ && fits 8 notify
  | .pwrLevelDone dom => fits 5 dom
  | .pwrSleep r mask depth wake => r.wf && fits 32 mask && fits 8 depth && fits 64 wake
  | .domainAck dom => fits 5 dom
  | .domainStopped dom => fits 5 dom
  | .pwrSlept => true
  | .pwrWake r mask => r.wf && fits 32 mask
  | .pwrWoke dom => fits 5 dom
  | .pwrStatus r => r.wf
  | .pwrDormantSet r mode wake => r.wf && fits 8 mode && fits 64 wake
  | .dormantWake => true
  | .vinRise mv => fits 32 mv
  | .vinFall mv => fits 32 mv
  | .vinOvervoltage mv => fits 32 mv
  | .powerOnReset _ => true
  | .clockLock => true
  | .breanoBoot _ _ => true
  | .startupSelftestDone cores clusters rows rams => allFits 10 cores && allFits 4 clusters && allFits 48 rows && allFits 50 rams
  | .serviceReady _ => true
  | .startupStop step reason => fits 8 step && fits 8 reason
  | .startupTimeout => true
  | .resumeDone => true
  | .resumeTimeout => true
  | .deviceProfileSave r auto wait => r.wf && fits 8 auto && fits 16 wait
  | .deviceStartupStatus r => r.wf
  | .deviceResume r => r.wf
  | .pfail => true
  | .sensorRefresh vin iin pin junction dramTemps => fits 32 vin && fits 32 iin && fits 32 pin && junction.all (fitsS 16) && dramTemps.all (fitsS 16)
  | .thermalShutdown sensor => fits 5 sensor
  | .deviceGetSensors r => r.wf
  | .deviceBlobWrite r _ => r.wf
  | .deviceBlobRead r source => r.wf && fits 8 source
  | .cadenceCycle => true
  | .chainSampleEntry stream dir _ re im buf => fits 11 stream && fits 1 dir && fits 16 re && fits 16 im && fits 48 buf
  | .coefficientUpdateRequest lane => fits 7 lane
  | .checkerLock lane => fits 7 lane
  | .checkerLockLoss lane => fits 7 lane
  | .ptpEventMessage port _ _ => fits 7 port
  | .vinOvervoltageClear mv => fits 32 mv
  | .perstDeassert port => fits 1 port

end Sys2Proof
end

