-- ==== Sys2Proof/Laws/PerInstr.lean ====
section
/-! SUPPORT. Statements about every command, one lemma per constructor. CommandCode: a command of the mailbox has an assigned CODE
(R76), and a well-formed one names a page and a slot that exist (R55). -/
namespace Sys2Proof.Laws.CommandCode

open Sys2Proof Sys2Proof.Machine

set_option Elab.async false

def Statement (i : Instr) : Prop :=
  match slotCommand i with
  | some (r, code) => (cmdInfo code).isSome = true ∧ (wfInstr i = true → r.page < 16 ∧ r.slot < 16)
  | none => True

theorem left {a b : Bool} (h : (a && b) = true) : a = true := (Bool.and_eq_true_iff.mp h).1

theorem of_req {r : Req} (h : r.wf = true) : r.page < 16 ∧ r.slot < 16 := by
  simpa [Req.wf] using h

theorem deviceSetMode (r : Req) (mode live : Nat) : Statement (.deviceSetMode r mode live) := ⟨by decide +kernel, fun h => of_req (left (left h))⟩
theorem modeLiveBoundary : Statement (.modeLiveBoundary ) := trivial
theorem modeDrainBoundary : Statement (.modeDrainBoundary ) := trivial
theorem modeDrainAbort : Statement (.modeDrainAbort ) := trivial
theorem modeDone : Statement (.modeDone ) := trivial
theorem deviceGetMode (r : Req) : Statement (.deviceGetMode r) := ⟨by decide +kernel, fun h => of_req h⟩
theorem deviceGetCapacity (r : Req) : Statement (.deviceGetCapacity r) := ⟨by decide +kernel, fun h => of_req h⟩
theorem deviceLookBind (r : Req) (stream dir chan domain : Nat) : Statement (.deviceLookBind r stream dir chan domain) := ⟨by decide +kernel, fun h => of_req (left (left (left (left h))))⟩
theorem deviceLookStatus (r : Req) (stream dir : Nat) : Statement (.deviceLookStatus r stream dir) := ⟨by decide +kernel, fun h => of_req (left (left h))⟩
theorem lookTxMessage (stream : Nat) : Statement (.lookTxMessage stream) := trivial
theorem lookRxMessage (chan : Nat) : Statement (.lookRxMessage chan) := trivial
theorem deviceConfSet (r : Req) (carrier source model pci vslot start : Nat) : Statement (.deviceConfSet r carrier source model pci vslot start) := ⟨by decide +kernel, fun h => of_req (left (left (left (left (left (left h))))))⟩
theorem deviceConfVectorLoad (r : Req) (vslot tracks frames rate : Nat) (samples : List Byte) : Statement (.deviceConfVectorLoad r vslot tracks frames rate samples) := ⟨by decide +kernel, fun h => of_req (left (left (left (left h))))⟩
theorem deviceConfCapture (r : Req) (stream start frames : Nat) : Statement (.deviceConfCapture r stream start frames) := ⟨by decide +kernel, fun h => of_req (left (left (left h)))⟩
theorem confCaptureDone : Statement (.confCaptureDone ) := trivial
theorem confPlanForm (carrier frame slot : Nat) (threads jobs : List Nat) : Statement (.confPlanForm carrier frame slot threads jobs) := trivial
theorem mbRing (func mask : Nat) : Statement (.mbRing func mask) := trivial
theorem evtConsWrite (func value : Nat) : Statement (.evtConsWrite func value) := trivial
theorem bar2WinWrite (func value : Nat) : Statement (.bar2WinWrite func value) := trivial
theorem ntcSnapshotTrigger (func : Nat) : Statement (.ntcSnapshotTrigger func) := trivial
theorem snapSeqIncrement (func : Nat) : Statement (.snapSeqIncrement func) := trivial
theorem functionLevelReset (func : Nat) : Statement (.functionLevelReset func) := trivial
theorem linkDown (port : Nat) : Statement (.linkDown port) := trivial
theorem perstAssert (port : Nat) : Statement (.perstAssert port) := trivial
theorem configRequest (func : Nat) (write : Bool) (field value : Nat) : Statement (.configRequest func write field value) := trivial
theorem hostMemoryRead (func bar off len : Nat) : Statement (.hostMemoryRead func bar off len) := trivial
theorem hostMemoryWrite (func bar off : Nat) (data : List Byte) (ep : Bool) : Statement (.hostMemoryWrite func bar off data ep) := trivial
theorem registerWrite (kind idx priv addr : Nat) (data : List Byte) : Statement (.registerWrite kind idx priv addr data) := trivial
theorem rcRegisterRead (kind idx priv addr len : Nat) : Statement (.rcRegisterRead kind idx priv addr len) := trivial
theorem msixUnmask (func vector : Nat) : Statement (.msixUnmask func vector) := trivial
theorem msixModerationTimeout (func vector : Nat) : Statement (.msixModerationTimeout func vector) := trivial
theorem hostSetEventRing (r : Req) (addr log : Nat) : Statement (.hostSetEventRing r addr log) := ⟨by decide +kernel, fun h => of_req (left (left h))⟩
theorem hostSetVectors (r : Req) (counts : List Nat) : Statement (.hostSetVectors r counts) := ⟨by decide +kernel, fun h => of_req (left h)⟩
theorem hostSetModeration (r : Req) (vector count time : Nat) : Statement (.hostSetModeration r vector count time) := ⟨by decide +kernel, fun h => of_req (left (left (left h)))⟩
theorem hostAssignQueues (r : Req) (owners : List Nat) : Statement (.hostAssignQueues r owners) := ⟨by decide +kernel, fun h => of_req (left h)⟩
theorem hostSetQueue (r : Req) (queue addr entries dir vector noSnoop : Nat) : Statement (.hostSetQueue r queue addr entries dir vector noSnoop) := ⟨by decide +kernel, fun h => of_req (left (left (left (left (left (left h))))))⟩
theorem hostGetFuncStats (r : Req) : Statement (.hostGetFuncStats r) := ⟨by decide +kernel, fun h => of_req h⟩
theorem hostQueueDoorbell (func queue value : Nat) : Statement (.hostQueueDoorbell func queue value) := trivial
theorem cadPortPost (port who : Nat) : Statement (.cadPortPost port who) := trivial
theorem cadPortCancel (port who : Nat) : Statement (.cadPortCancel port who) := trivial
theorem atcNowLowRead (requester : Nat) : Statement (.atcNowLowRead requester) := trivial
theorem cadenceEntryFire (found : Nat) : Statement (.cadenceEntryFire found) := trivial
theorem airCarrierAdd (r : Req) (carrier std bw mu cp off hostCar : Nat) : Statement (.airCarrierAdd r carrier std bw mu cp off hostCar) := ⟨by decide +kernel, fun h => of_req (left (left (left (left (left (left (left h)))))))⟩
theorem airCarrierRemove (r : Req) (carrier : Nat) : Statement (.airCarrierRemove r carrier) := ⟨by decide +kernel, fun h => of_req (left h)⟩
theorem airGetTime (r : Req) (carrier : Nat) : Statement (.airGetTime r carrier) := ⟨by decide +kernel, fun h => of_req (left h)⟩
theorem cadPost (r : Req) (trigger period count action flags target arg : Nat) : Statement (.cadPost r trigger period count action flags target arg) := ⟨by decide +kernel, fun h => of_req (left (left (left (left (left (left (left h)))))))⟩
theorem cadCancel (r : Req) (index : Nat) : Statement (.cadCancel r index) := ⟨by decide +kernel, fun h => of_req (left h)⟩
theorem cadAssignPort (r : Req) (port owner pool : Nat) : Statement (.cadAssignPort r port owner pool) := ⟨by decide +kernel, fun h => of_req (left (left (left h)))⟩
theorem airShadowArm (r : Req) (cls inst value : Nat) : Statement (.airShadowArm r cls inst value) := ⟨by decide +kernel, fun h => of_req (left (left (left h)))⟩
theorem airShadowStatus (r : Req) (cls inst : Nat) : Statement (.airShadowStatus r cls inst) := ⟨by decide +kernel, fun h => of_req (left (left h))⟩
theorem airPlanSubmit (r : Req) (carrier sfn slot flags count override : Nat) (records : List Byte) (times threads further : List Nat) : Statement (.airPlanSubmit r carrier sfn slot flags count override records times threads further) := ⟨by decide +kernel, fun h => of_req (left (left (left (left (left (left (left (left (left h)))))))))⟩
theorem airPlanCancel (r : Req) (carrier frame slot : Nat) : Statement (.airPlanCancel r carrier frame slot) := ⟨by decide +kernel, fun h => of_req (left (left (left h)))⟩
theorem planGap (carrier slot : Nat) : Statement (.planGap carrier slot) := trivial
theorem ledgerChargeExpire : Statement (.ledgerChargeExpire ) := trivial
theorem nop (c : BCtx) (g : Guard) (slot : Nat) : Statement (.nop c g slot) := trivial
theorem add (c : BCtx) (g : Guard) (d a b sub : Nat) : Statement (.add c g d a b sub) := trivial
theorem sub (c : BCtx) (g : Guard) (d a b sub : Nat) : Statement (.sub c g d a b sub) := trivial
theorem and (c : BCtx) (g : Guard) (d a b sub : Nat) : Statement (.and c g d a b sub) := trivial
theorem or (c : BCtx) (g : Guard) (d a b sub : Nat) : Statement (.or c g d a b sub) := trivial
theorem xor (c : BCtx) (g : Guard) (d a b sub : Nat) : Statement (.xor c g d a b sub) := trivial
theorem shl (c : BCtx) (g : Guard) (d a b sub : Nat) : Statement (.shl c g d a b sub) := trivial
theorem shr (c : BCtx) (g : Guard) (d a b sub : Nat) : Statement (.shr c g d a b sub) := trivial
theorem addi (c : BCtx) (g : Guard) (d a imm : Nat) : Statement (.addi c g d a imm) := trivial
theorem movi (c : BCtx) (g : Guard) (d imm : Nat) : Statement (.movi c g d imm) := trivial
theorem movl (c : BCtx) (g : Guard) (d : Nat) : Statement (.movl c g d) := trivial
theorem cmp (c : BCtx) (g : Guard) (qd cond a b : Nat) : Statement (.cmp c g qd cond a b) := trivial
theorem maxi (c : BCtx) (g : Guard) (d a b sub : Nat) : Statement (.maxi c g d a b sub) := trivial
theorem mini (c : BCtx) (g : Guard) (d a b sub : Nat) : Statement (.mini c g d a b sub) := trivial
theorem br (c : BCtx) (g : Guard) (annul : Bool) (off : Nat) : Statement (.br c g annul off) := trivial
theorem call (c : BCtx) (g : Guard) (annul : Bool) (off : Nat) : Statement (.call c g annul off) := trivial
theorem jr (c : BCtx) (g : Guard) (annul : Bool) (a : Nat) : Statement (.jr c g annul a) := trivial
theorem rep (c : BCtx) (g : Guard) (len : Nat) (rot : Bool) (stg : Nat) (ci : Bool) (cnt : Nat) : Statement (.rep c g len rot stg ci cnt) := trivial
theorem repIterationEnd (core : Nat) : Statement (.repIterationEnd core) := trivial
theorem csrr (c : BCtx) (g : Guard) (reg addr : Nat) : Statement (.csrr c g reg addr) := trivial
theorem csrw (c : BCtx) (g : Guard) (reg addr : Nat) : Statement (.csrw c g reg addr) := trivial
theorem csrs (c : BCtx) (g : Guard) (reg addr : Nat) : Statement (.csrs c g reg addr) := trivial
theorem csrc (c : BCtx) (g : Guard) (reg addr : Nat) : Statement (.csrc c g reg addr) := trivial
theorem fenceW (c : BCtx) (g : Guard) : Statement (.fenceW c g) := trivial
theorem fenceI (c : BCtx) (g : Guard) : Statement (.fenceI c g) := trivial
theorem scadj (c : BCtx) (g : Guard) : Statement (.scadj c g) := trivial
theorem wait (c : BCtx) (g : Guard) : Statement (.wait c g) := trivial
theorem waitResume (core : Nat) : Statement (.waitResume core) := trivial
theorem trap (c : BCtx) (g : Guard) (code : Nat) : Statement (.trap c g code) := trivial
theorem brk (c : BCtx) (g : Guard) : Statement (.brk c g) := trivial
theorem rfe (c : BCtx) (g : Guard) : Statement (.rfe c g) := trivial
theorem ldb (c : BCtx) (g : Guard) (l1 : Bool) (s p m am : Nat) (sx : Bool) : Statement (.ldb c g l1 s p m am sx) := trivial
theorem ldh (c : BCtx) (g : Guard) (l1 : Bool) (s p m am : Nat) (sx : Bool) : Statement (.ldh c g l1 s p m am sx) := trivial
theorem ldw (c : BCtx) (g : Guard) (l1 : Bool) (s p m am : Nat) (sx : Bool) : Statement (.ldw c g l1 s p m am sx) := trivial
theorem ldd (c : BCtx) (g : Guard) (l1 : Bool) (s p m am : Nat) (sx : Bool) : Statement (.ldd c g l1 s p m am sx) := trivial
theorem stb (c : BCtx) (g : Guard) (l1 : Bool) (s p m am : Nat) : Statement (.stb c g l1 s p m am) := trivial
theorem sth (c : BCtx) (g : Guard) (l1 : Bool) (s p m am : Nat) : Statement (.sth c g l1 s p m am) := trivial
theorem stw (c : BCtx) (g : Guard) (l1 : Bool) (s p m am : Nat) : Statement (.stw c g l1 s p m am) := trivial
theorem std (c : BCtx) (g : Guard) (l1 : Bool) (s p m am : Nat) : Statement (.std c g l1 s p m am) := trivial
theorem ldwD (c : BCtx) (g : Guard) (l1 : Bool) (s p disp : Nat) : Statement (.ldwD c g l1 s p disp) := trivial
theorem stwD (c : BCtx) (g : Guard) (l1 : Bool) (s p disp : Nat) : Statement (.stwD c g l1 s p disp) := trivial
theorem padd (c : BCtx) (g : Guard) (l1 : Bool) (pd pa s : Nat) : Statement (.padd c g l1 pd pa s) := trivial
theorem pmod (c : BCtx) (g : Guard) (l1 : Bool) (p m am : Nat) : Statement (.pmod c g l1 p m am) := trivial
theorem pset (c : BCtx) (g : Guard) (l1 : Bool) (pd s : Nat) : Statement (.pset c g l1 pd s) := trivial
theorem pget (c : BCtx) (g : Guard) (l1 : Bool) (s p : Nat) : Statement (.pget c g l1 s p) := trivial
theorem mset (c : BCtx) (g : Guard) (l1 : Bool) (md s : Nat) : Statement (.mset c g l1 md s) := trivial
theorem mac (c : BCtx) (g : Guard) (an a b sub : Nat) : Statement (.mac c g an a b sub) := trivial
theorem cmac (c : BCtx) (g : Guard) (an a b sub : Nat) : Statement (.cmac c g an a b sub) := trivial
theorem mul (c : BCtx) (g : Guard) (d a b sub : Nat) : Statement (.mul c g d a b sub) := trivial
theorem mva (c : BCtx) (g : Guard) (d an form : Nat) : Statement (.mva c g d an form) := trivial
theorem aclr (c : BCtx) (g : Guard) (an : Nat) : Statement (.aclr c g an) := trivial
theorem farLoadAnswer (core resp : Nat) (data : List Byte) : Statement (.farLoadAnswer core resp data) := trivial
theorem writeBufferAnswer (core resp : Nat) : Statement (.writeBufferAnswer core resp) := trivial
theorem preemptInterrupt (core : Nat) : Statement (.preemptInterrupt core) := trivial
theorem eventInterrupt (core : Nat) : Statement (.eventInterrupt core) := trivial
theorem imgLoad (r : Req) (slot : Nat) (image : List Byte) : Statement (.imgLoad r slot image) := ⟨by decide +kernel, fun h => of_req (left h)⟩
theorem imgBind (r : Req) (pool slot : Nat) : Statement (.imgBind r pool slot) := ⟨by decide +kernel, fun h => of_req (left (left h))⟩
theorem imgSwap (r : Req) (pool slot prompt : Nat) : Statement (.imgSwap r pool slot prompt) := ⟨by decide +kernel, fun h => of_req (left (left (left h)))⟩
theorem coreReload (core : Nat) : Statement (.coreReload core) := trivial
theorem imgSwapped (pool : Nat) : Statement (.imgSwapped pool) := trivial
theorem imgInfo (r : Req) (slot : Nat) : Statement (.imgInfo r slot) := ⟨by decide +kernel, fun h => of_req (left h)⟩
theorem coreGetState (r : Req) (core : Nat) : Statement (.coreGetState r core) := ⟨by decide +kernel, fun h => of_req (left h)⟩
theorem coreRestart (r : Req) (core : Nat) : Statement (.coreRestart r core) := ⟨by decide +kernel, fun h => of_req (left h)⟩
theorem vsetvl (c : BCtx) (g : Guard) (s v s2 : Nat) (mk : Bool) : Statement (.vsetvl c g s v s2 mk) := trivial
theorem vadd (c : BCtx) (g : Guard) (vd va vb : Nat) (mk : Bool) (sub : Nat) : Statement (.vadd c g vd va vb mk sub) := trivial
theorem vsub (c : BCtx) (g : Guard) (vd va vb : Nat) (mk : Bool) (sub : Nat) : Statement (.vsub c g vd va vb mk sub) := trivial
theorem vadds (c : BCtx) (g : Guard) (vd va s : Nat) (mk : Bool) (sub : Nat) : Statement (.vadds c g vd va s mk sub) := trivial
theorem vand (c : BCtx) (g : Guard) (vd va vb : Nat) (mk : Bool) (sub : Nat) : Statement (.vand c g vd va vb mk sub) := trivial
theorem vor (c : BCtx) (g : Guard) (vd va vb : Nat) (mk : Bool) (sub : Nat) : Statement (.vor c g vd va vb mk sub) := trivial
theorem vxor (c : BCtx) (g : Guard) (vd va vb : Nat) (mk : Bool) (sub : Nat) : Statement (.vxor c g vd va vb mk sub) := trivial
theorem vshl (c : BCtx) (g : Guard) (vd va s : Nat) (mk : Bool) (sub : Nat) : Statement (.vshl c g vd va s mk sub) := trivial
theorem vshr (c : BCtx) (g : Guard) (vd va s : Nat) (mk : Bool) (sub : Nat) : Statement (.vshr c g vd va s mk sub) := trivial
theorem vmin (c : BCtx) (g : Guard) (vd va vb : Nat) (mk : Bool) (sub : Nat) : Statement (.vmin c g vd va vb mk sub) := trivial
theorem vmax (c : BCtx) (g : Guard) (vd va vb : Nat) (mk : Bool) (sub : Nat) : Statement (.vmax c g vd va vb mk sub) := trivial
theorem vabs (c : BCtx) (g : Guard) (vd va vb : Nat) (mk : Bool) (sub : Nat) : Statement (.vabs c g vd va vb mk sub) := trivial
theorem vmerge (c : BCtx) (g : Guard) (vd va vb : Nat) (mk : Bool) (sub : Nat) : Statement (.vmerge c g vd va vb mk sub) := trivial
theorem vconj (c : BCtx) (g : Guard) (vd va vb : Nat) (mk : Bool) (sub : Nat) : Statement (.vconj c g vd va vb mk sub) := trivial
theorem vmul (c : BCtx) (g : Guard) (vd va vb : Nat) (mk : Bool) (sub : Nat) : Statement (.vmul c g vd va vb mk sub) := trivial
theorem vmuls (c : BCtx) (g : Guard) (vd va s : Nat) (mk : Bool) (sub : Nat) : Statement (.vmuls c g vd va s mk sub) := trivial
theorem vmac (c : BCtx) (g : Guard) (vd va vb : Nat) (mk : Bool) (sub : Nat) : Statement (.vmac c g vd va vb mk sub) := trivial
theorem vwmac (c : BCtx) (g : Guard) (vd va vb : Nat) (mk : Bool) (sub : Nat) : Statement (.vwmac c g vd va vb mk sub) := trivial
theorem vmag2 (c : BCtx) (g : Guard) (vd va vb : Nat) (mk : Bool) (sub : Nat) : Statement (.vmag2 c g vd va vb mk sub) := trivial
theorem vfadd (c : BCtx) (g : Guard) (vd va vb : Nat) (mk : Bool) (sub : Nat) : Statement (.vfadd c g vd va vb mk sub) := trivial
theorem vfsub (c : BCtx) (g : Guard) (vd va vb : Nat) (mk : Bool) (sub : Nat) : Statement (.vfsub c g vd va vb mk sub) := trivial
theorem vfmul (c : BCtx) (g : Guard) (vd va vb : Nat) (mk : Bool) (sub : Nat) : Statement (.vfmul c g vd va vb mk sub) := trivial
theorem vfma (c : BCtx) (g : Guard) (vd va vb : Nat) (mk : Bool) (sub : Nat) : Statement (.vfma c g vd va vb mk sub) := trivial
theorem vcvt (c : BCtx) (g : Guard) (vd va vb : Nat) (mk : Bool) (sub : Nat) : Statement (.vcvt c g vd va vb mk sub) := trivial
theorem vcmp (c : BCtx) (g : Guard) (vd va vb : Nat) (mk : Bool) (sub : Nat) : Statement (.vcmp c g vd va vb mk sub) := trivial
theorem vslideup (c : BCtx) (g : Guard) (vd va s : Nat) (mk : Bool) (sub : Nat) : Statement (.vslideup c g vd va s mk sub) := trivial
theorem vslidedn (c : BCtx) (g : Guard) (vd va s : Nat) (mk : Bool) (sub : Nat) : Statement (.vslidedn c g vd va s mk sub) := trivial
theorem vzip (c : BCtx) (g : Guard) (vd va vb : Nat) (mk : Bool) (sub : Nat) : Statement (.vzip c g vd va vb mk sub) := trivial
theorem vbcast (c : BCtx) (g : Guard) (s v s2 : Nat) (mk : Bool) (sub : Nat) : Statement (.vbcast c g s v s2 mk sub) := trivial
theorem vext (c : BCtx) (g : Guard) (s v s2 : Nat) (mk : Bool) (sub : Nat) : Statement (.vext c g s v s2 mk sub) := trivial
theorem vins (c : BCtx) (g : Guard) (s v s2 : Nat) (mk : Bool) (sub : Nat) : Statement (.vins c g s v s2 mk sub) := trivial
theorem vrsum (c : BCtx) (g : Guard) (an va : Nat) (mk : Bool) (sub : Nat) : Statement (.vrsum c g an va mk sub) := trivial
theorem vmaxi (c : BCtx) (g : Guard) (s v s2 : Nat) (mk : Bool) (sub : Nat) : Statement (.vmaxi c g s v s2 mk sub) := trivial
theorem vmini (c : BCtx) (g : Guard) (s v s2 : Nat) (mk : Bool) (sub : Nat) : Statement (.vmini c g s v s2 mk sub) := trivial
theorem vmva (c : BCtx) (g : Guard) (vd va vb : Nat) (mk : Bool) (sub : Nat) : Statement (.vmva c g vd va vb mk sub) := trivial
theorem vld (c : BCtx) (g : Guard) (l1 : Bool) (v p m am : Nat) (mk : Bool) : Statement (.vld c g l1 v p m am mk) := trivial
theorem vst (c : BCtx) (g : Guard) (l1 : Bool) (v p m am : Nat) (mk : Bool) : Statement (.vst c g l1 v p m am mk) := trivial
theorem vlds (c : BCtx) (g : Guard) (l1 : Bool) (v p m am : Nat) (mk : Bool) : Statement (.vlds c g l1 v p m am mk) := trivial
theorem vsts (c : BCtx) (g : Guard) (l1 : Bool) (v p m am : Nat) (mk : Bool) : Statement (.vsts c g l1 v p m am mk) := trivial
theorem vgath (c : BCtx) (g : Guard) (l1 : Bool) (v p vi : Nat) (mk : Bool) (sc : Nat) : Statement (.vgath c g l1 v p vi mk sc) := trivial
theorem vscat (c : BCtx) (g : Guard) (l1 : Bool) (v p vi : Nat) (mk : Bool) (sc : Nat) : Statement (.vscat c g l1 v p vi mk sc) := trivial
theorem vldr (c : BCtx) (g : Guard) (l1 : Bool) (v p m am : Nat) (mk : Bool) : Statement (.vldr c g l1 v p m am mk) := trivial
theorem vstr (c : BCtx) (g : Guard) (l1 : Bool) (v p m am : Nat) (mk : Bool) : Statement (.vstr c g l1 v p m am mk) := trivial
theorem cop0 (c : BCtx) (g : Guard) (fn sa sb tag : Nat) : Statement (.cop0 c g fn sa sb tag) := trivial
theorem cop1 (c : BCtx) (g : Guard) (fn ps pd sc : Nat) : Statement (.cop1 c g fn ps pd sc) := trivial
theorem cop2 (c : BCtx) (g : Guard) (fn ps pd sc : Nat) : Statement (.cop2 c g fn ps pd sc) := trivial
theorem popR (c : BCtx) (g : Guard) (sd : Nat) (mxu : Bool) : Statement (.popR c g sd mxu) := trivial
theorem popD (c : BCtx) (g : Guard) (sd : Nat) (mxu : Bool) : Statement (.popD c g sd mxu) := trivial
theorem quiesce (c : BCtx) (g : Guard) (mxu : Bool) : Statement (.quiesce c g mxu) := trivial
theorem discard (c : BCtx) (g : Guard) (mxu : Bool) : Statement (.discard c g mxu) := trivial
theorem copst (c : BCtx) (g : Guard) (qd : Nat) (mxu : Bool) (test : Nat) : Statement (.copst c g qd mxu test) := trivial
theorem copUnitStart (octet : Nat) (mxu : Bool) : Statement (.copUnitStart octet mxu) := trivial
theorem sfuResultReady (core : Nat) (parity : Bool) : Statement (.sfuResultReady core parity) := trivial
theorem copBlockDone (core : Nat) (mxu parity : Bool) : Statement (.copBlockDone core mxu parity) := trivial
theorem ready (port : Nat) (flag : Bool) (thread : Nat) : Statement (.ready port flag thread) := trivial
theorem cancel (port thread : Nat) : Statement (.cancel port thread) := trivial
theorem block (port : Nat) (reset : Bool) : Statement (.block port reset) := trivial
theorem yield (port : Nat) : Statement (.yield port) := trivial
theorem spawn (port : Nat) (flag : Bool) (thread : Nat) : Statement (.spawn port flag thread) := trivial
theorem setdl (port thread : Nat) : Statement (.setdl port thread) := trivial
theorem saddleLoad (pool : Nat) : Statement (.saddleLoad pool) := trivial
theorem saddleLoadComplete (core : Nat) : Statement (.saddleLoadComplete core) := trivial
theorem threadSwitch (core : Nat) : Statement (.threadSwitch core) := trivial
theorem writebackDone (core : Nat) : Statement (.writebackDone core) := trivial
theorem deadlineMiss (thread : Nat) : Statement (.deadlineMiss thread) := trivial
theorem pelPoolConfig (r : Req) (pool edfp cap : Nat) : Statement (.pelPoolConfig r pool edfp cap) := ⟨by decide +kernel, fun h => of_req (left (left (left h)))⟩
theorem pelResize (r : Req) (pool prompt mask : Nat) : Statement (.pelResize r pool prompt mask) := ⟨by decide +kernel, fun h => of_req (left (left (left h)))⟩
theorem resizeDone (pool : Nat) : Statement (.resizeDone pool) := trivial
theorem pelThreadSet (r : Req) (thread pool band misspol flags escband ctxHome entry arg0 arg1 est user : Nat) : Statement (.pelThreadSet r thread pool band misspol flags escband ctxHome entry arg0 arg1 est user) := ⟨by decide +kernel, fun h => of_req (left (left (left (left (left (left (left (left (left (left (left (left h))))))))))))⟩
theorem pelThreadFree (r : Req) (thread : Nat) : Statement (.pelThreadFree r thread) := ⟨by decide +kernel, fun h => of_req (left h)⟩
theorem pelThreadGet (r : Req) (thread : Nat) : Statement (.pelThreadGet r thread) := ⟨by decide +kernel, fun h => of_req (left h)⟩
theorem pelOp (r : Req) (op flag thread deadline arg0 arg1 : Nat) : Statement (.pelOp r op flag thread deadline arg0 arg1) := ⟨by decide +kernel, fun h => of_req (left (left (left (left (left (left h))))))⟩
theorem pelPoolDisable (r : Req) (pool mode : Nat) : Statement (.pelPoolDisable r pool mode) := ⟨by decide +kernel, fun h => of_req (left (left h))⟩
theorem poolDisabled (pool : Nat) : Statement (.poolDisabled pool) := trivial
theorem pelPoolEnable (r : Req) (pool : Nat) : Statement (.pelPoolEnable r pool) := ⟨by decide +kernel, fun h => of_req (left h)⟩
theorem pelLedgerGet (r : Req) (pool first count : Nat) : Statement (.pelLedgerGet r pool first count) := ⟨by decide +kernel, fun h => of_req (left (left (left h)))⟩
theorem pelTraceSet (r : Req) (addr log2 mode events pools : Nat) : Statement (.pelTraceSet r addr log2 mode events pools) := ⟨by decide +kernel, fun h => of_req (left (left (left (left (left h)))))⟩
theorem engRingDoorbell (who ring prod : Nat) : Statement (.engRingDoorbell who ring prod) := trivial
theorem descriptorFetch (ring : Nat) : Statement (.descriptorFetch ring) := trivial
theorem jobStart (eng : Nat) : Statement (.jobStart eng) := trivial
theorem jobLate (ring : Nat) : Statement (.jobLate ring) := trivial
theorem jobEnd (eng : Nat) (parity : Bool) : Statement (.jobEnd eng parity) := trivial
theorem engRingSet (r : Req) (ring cls mask prio owner pool base log2 : Nat) : Statement (.engRingSet r ring cls mask prio owner pool base log2) := ⟨by decide +kernel, fun h => of_req (left (left (left (left (left (left (left (left h))))))))⟩
theorem engRingStatus (r : Req) (ring : Nat) : Statement (.engRingStatus r ring) := ⟨by decide +kernel, fun h => of_req (left h)⟩
theorem engDisable (r : Req) (mask mode : Nat) : Statement (.engDisable r mask mode) := ⟨by decide +kernel, fun h => of_req (left (left h))⟩
theorem engEnable (r : Req) (mask : Nat) : Statement (.engEnable r mask) := ⟨by decide +kernel, fun h => of_req (left h)⟩
theorem engRingDisable (r : Req) (ring mode : Nat) : Statement (.engRingDisable r ring mode) := ⟨by decide +kernel, fun h => of_req (left (left h))⟩
theorem engRingEnable (r : Req) (ring : Nat) : Statement (.engRingEnable r ring) := ⟨by decide +kernel, fun h => of_req (left h)⟩
theorem engDisabled (isRing : Bool) (ring : Nat) : Statement (.engDisabled isRing ring) := trivial
theorem engGetStats (r : Req) (engine : Nat) : Statement (.engGetStats r engine) := ⟨by decide +kernel, fun h => of_req (left h)⟩
theorem engHarqConfig (r : Req) (func base size : Nat) : Statement (.engHarqConfig r func base size) := ⟨by decide +kernel, fun h => of_req (left (left (left h)))⟩
theorem engClassConfig (r : Req) (cls cap : Nat) : Statement (.engClassConfig r cls cap) := ⟨by decide +kernel, fun h => of_req (left (left h))⟩
theorem feStreamSet (r : Req) (stream carrier fin fout hb rs side leadTx lagRx : Nat) : Statement (.feStreamSet r stream carrier fin fout hb rs side leadTx lagRx) := ⟨by decide +kernel, fun h => of_req (left (left (left (left (left (left (left (left (left h)))))))))⟩
theorem feShadowWrite (r : Req) (stream dir mask sectEn gain phase dlyInt dlyFrac mute : Nat) : Statement (.feShadowWrite r stream dir mask sectEn gain phase dlyInt dlyFrac mute) := ⟨by decide +kernel, fun h => of_req (left (left (left (left (left (left (left (left (left h)))))))))⟩
theorem feCassetteWrite (r : Req) (stream dir cas mask : Nat) (coefs : List Nat) : Statement (.feCassetteWrite r stream dir cas mask coefs) := ⟨by decide +kernel, fun h => of_req (left (left (left (left (left h)))))⟩
theorem feShift (r : Req) (stream dir target len notify : Nat) : Statement (.feShift r stream dir target len notify) := ⟨by decide +kernel, fun h => of_req (left (left (left (left (left h)))))⟩
theorem cassetteDone (stream dir : Nat) : Statement (.cassetteDone stream dir) := trivial
theorem feStatus (r : Req) (stream dir : Nat) : Statement (.feStatus r stream dir) := ⟨by decide +kernel, fun h => of_req (left (left h))⟩
theorem feDetectSet (r : Req) (stream dir det tap k att dec hi lo : Nat) : Statement (.feDetectSet r stream dir det tap k att dec hi lo) := ⟨by decide +kernel, fun h => of_req (left (left (left (left (left (left (left (left (left h)))))))))⟩
theorem feDetectRead (r : Req) (stream dir : Nat) : Statement (.feDetectRead r stream dir) := ⟨by decide +kernel, fun h => of_req (left (left h))⟩
theorem feGetDelay (r : Req) (stream dir : Nat) : Statement (.feGetDelay r stream dir) := ⟨by decide +kernel, fun h => of_req (left (left h))⟩
theorem feStreamRemove (r : Req) (stream : Nat) : Statement (.feStreamRemove r stream) := ⟨by decide +kernel, fun h => of_req (left h)⟩
theorem detectWindowEnd (stream dir : Nat) (rms : Bool) : Statement (.detectWindowEnd stream dir rms) := trivial
theorem feEnvelope (stream dir : Nat) : Statement (.feEnvelope stream dir) := trivial
theorem resamplerReanchor (stream dir : Nat) : Statement (.resamplerReanchor stream dir) := trivial
theorem cmpShadowWrite (r : Req) (stream dir mask mode m mMin mMax bound : Nat) : Statement (.cmpShadowWrite r stream dir mask mode m mMin mMax bound) := ⟨by decide +kernel, fun h => of_req (left (left (left (left (left (left (left (left h))))))))⟩
theorem cmpStatus (r : Req) (stream dir : Nat) : Statement (.cmpStatus r stream dir) := ⟨by decide +kernel, fun h => of_req (left (left h))⟩
theorem cmpClear (r : Req) (stream dir : Nat) : Statement (.cmpClear r stream dir) := ⟨by decide +kernel, fun h => of_req (left (left h))⟩
theorem fabricRequest (src sport type pri tag addr len : Nat) (data : List Byte) (peer kind idx priv errNode errPort replays : Nat) : Statement (.fabricRequest src sport type pri tag addr len data peer kind idx priv errNode errPort replays) := trivial
theorem fabricResponse : Statement (.fabricResponse ) := trivial
theorem packetAtClosedGate : Statement (.packetAtClosedGate ) := trivial
theorem gateIsolated (dom : Nat) : Statement (.gateIsolated dom) := trivial
theorem fabLinkFault (node port : Nat) : Statement (.fabLinkFault node port) := trivial
theorem linkSelftestDone (node port : Nat) (errors : Bool) : Statement (.linkSelftestDone node port errors) := trivial
theorem routeFlip : Statement (.routeFlip ) := trivial
theorem flipHoldRelease : Statement (.flipHoldRelease ) := trivial
theorem fabEpochRetired : Statement (.fabEpochRetired ) := trivial
theorem fabRouteWrite (r : Req) (node bank turns : Nat) (table : List Nat) : Statement (.fabRouteWrite r node bank turns table) := ⟨by decide +kernel, fun h => of_req (left (left (left (left h))))⟩
theorem fabRouteCommit (r : Req) (at_ : Nat) : Statement (.fabRouteCommit r at_) := ⟨by decide +kernel, fun h => of_req (left h)⟩
theorem fabRouteStatus (r : Req) : Statement (.fabRouteStatus r) := ⟨by decide +kernel, fun h => of_req h⟩
theorem fabProbeSet (r : Req) (probe enable node port dir mode srcLo srcHi destLo destHi pri vc type addrLo addrHi : Nat) : Statement (.fabProbeSet r probe enable node port dir mode srcLo srcHi destLo destHi pri vc type addrLo addrHi) := ⟨by decide +kernel, fun h => of_req (left (left (left (left (left (left (left (left (left (left (left (left (left (left (left h)))))))))))))))⟩
theorem fabTraceSet (r : Req) (addr log mode : Nat) : Statement (.fabTraceSet r addr log mode) := ⟨by decide +kernel, fun h => of_req (left (left (left h)))⟩
theorem fabGateStatus (r : Req) (dom : Nat) : Statement (.fabGateStatus r dom) := ⟨by decide +kernel, fun h => of_req (left h)⟩
theorem fabLinkStatus (r : Req) (node port : Nat) : Statement (.fabLinkStatus r node port) := ⟨by decide +kernel, fun h => of_req (left (left h))⟩
theorem movDoorbell (chan prod kind idx priv : Nat) : Statement (.movDoorbell chan prod kind idx priv) := trivial
theorem resumeRetry (chan kind idx priv : Nat) : Statement (.resumeRetry chan kind idx priv) := trivial
theorem resumeSkip (chan kind idx priv : Nat) : Statement (.resumeSkip chan kind idx priv) := trivial
theorem resumeAbort (chan kind idx priv : Nat) : Statement (.resumeAbort chan kind idx priv) := trivial
theorem descriptorComplete (chan : Nat) (peer : List Byte) : Statement (.descriptorComplete chan peer) := trivial
theorem movHalted (chan : Nat) (peer : List Byte) (cause at_ : Nat) (write : Bool) : Statement (.movHalted chan peer cause at_ write) := trivial
theorem movChanSet (r : Req) (chan owner pool base log prio timed deadline srcBase srcSize dstBase dstSize : Nat) : Statement (.movChanSet r chan owner pool base log prio timed deadline srcBase srcSize dstBase dstSize) := ⟨by decide +kernel, fun h => of_req (left (left (left (left (left (left (left (left (left (left (left (left h))))))))))))⟩
theorem movChanStatus (r : Req) (chan : Nat) : Statement (.movChanStatus r chan) := ⟨by decide +kernel, fun h => of_req (left h)⟩
theorem movDisable (r : Req) (chan mode : Nat) : Statement (.movDisable r chan mode) := ⟨by decide +kernel, fun h => of_req (left (left h))⟩
theorem movEnable (r : Req) (chan : Nat) : Statement (.movEnable r chan) := ⟨by decide +kernel, fun h => of_req (left h)⟩
theorem movResume (r : Req) (chan action : Nat) : Statement (.movResume r chan action) := ⟨by decide +kernel, fun h => of_req (left (left h))⟩
theorem movDisabled (chan : Nat) : Statement (.movDisabled chan) := trivial
theorem movFuncWindow (r : Req) (func base size : Nat) : Statement (.movFuncWindow r func base size) := ⟨by decide +kernel, fun h => of_req (left (left (left h)))⟩
theorem memTested (kind unit : Nat) (failed : Bool) : Statement (.memTested kind unit failed) := trivial
theorem spliceFlashWrite : Statement (.spliceFlashWrite ) := trivial
theorem scrubRead (cls found : Nat) : Statement (.scrubRead cls found) := trivial
theorem memUePeriodEnd (cls : Nat) : Statement (.memUePeriodEnd cls) := trivial
theorem memGetMap (r : Req) : Statement (.memGetMap r) := ⟨by decide +kernel, fun h => of_req h⟩
theorem memPartitionSet (r : Req) (harq stream : Nat) : Statement (.memPartitionSet r harq stream) := ⟨by decide +kernel, fun h => of_req (left (left h))⟩
theorem memScrubSet (r : Req) (cls period : Nat) : Statement (.memScrubSet r cls period) := ⟨by decide +kernel, fun h => of_req (left (left h))⟩
theorem memScrubStatus (r : Req) (cls : Nat) : Statement (.memScrubStatus r cls) := ⟨by decide +kernel, fun h => of_req (left h)⟩
theorem memErrStats (r : Req) (cls : Nat) : Statement (.memErrStats r cls) := ⟨by decide +kernel, fun h => of_req (left h)⟩
theorem memInject (r : Req) (addr kind : Nat) : Statement (.memInject r addr kind) := ⟨by decide +kernel, fun h => of_req (left (left h))⟩
theorem memSpliceList (r : Req) (first count : Nat) : Statement (.memSpliceList r first count) := ⟨by decide +kernel, fun h => of_req (left (left h))⟩
theorem memSpliceAdd (r : Req) (addr : Nat) : Statement (.memSpliceAdd r addr) := ⟨by decide +kernel, fun h => of_req (left h)⟩
theorem memRepair (r : Req) : Statement (.memRepair r) := ⟨by decide +kernel, fun h => of_req h⟩
theorem memRepairDone (unrepairable : List Nat) : Statement (.memRepairDone unrepairable) := trivial
theorem memSelftest (r : Req) (addr core cls : Nat) : Statement (.memSelftest r addr core cls) := ⟨by decide +kernel, fun h => of_req (left (left (left h)))⟩
theorem spkConfig (r : Req) (spoke port profile fec rate cmp mRange domains timed ueLimit : Nat) : Statement (.spkConfig r spoke port profile fec rate cmp mRange domains timed ueLimit) := ⟨by decide +kernel, fun h => of_req (left (left (left (left (left (left (left (left (left (left h))))))))))⟩
theorem spkEnable (r : Req) (spoke : Nat) : Statement (.spkEnable r spoke) := ⟨by decide +kernel, fun h => of_req (left h)⟩
theorem spkDisable (r : Req) (spoke mode : Nat) : Statement (.spkDisable r spoke mode) := ⟨by decide +kernel, fun h => of_req (left (left h))⟩
theorem spkDisabled (spoke : Nat) : Statement (.spkDisabled spoke) := trivial
theorem spkStatus (r : Req) (spoke : Nat) : Statement (.spkStatus r spoke) := ⟨by decide +kernel, fun h => of_req (left h)⟩
theorem spkGetLatency (r : Req) (spoke : Nat) : Statement (.spkGetLatency r spoke) := ⟨by decide +kernel, fun h => of_req (left h)⟩
theorem spkMapWrite (r : Req) (spoke first count : Nat) (entries : List Nat) : Statement (.spkMapWrite r spoke first count entries) := ⟨by decide +kernel, fun h => of_req (left (left (left (left h))))⟩
theorem spkResize (r : Req) (spoke port : Nat) : Statement (.spkResize r spoke port) := ⟨by decide +kernel, fun h => of_req (left (left h))⟩
theorem spkResized (spoke : Nat) : Statement (.spkResized spoke) := trivial
theorem detectPulse (spoke : Nat) (hit : Bool) : Statement (.detectPulse spoke hit) := trivial
theorem cdrLockHeld (spoke : Nat) : Statement (.cdrLockHeld spoke) := trivial
theorem pcsLock (spoke : Nat) (skewOk : Bool) : Statement (.pcsLock spoke skewOk) := trivial
theorem bringupTimeout (spoke : Nat) : Statement (.bringupTimeout spoke) := trivial
theorem retryWaitEnd (spoke : Nat) : Statement (.retryWaitEnd spoke) := trivial
theorem capFrameSend (spoke : Nat) : Statement (.capFrameSend spoke) := trivial
theorem cap (spoke : Nat) (payload : List Byte) : Statement (.cap spoke payload) := trivial
theorem confirm (spoke : Nat) (payload : List Byte) : Statement (.confirm spoke payload) := trivial
theorem spokeFault (spoke kind ue : Nat) : Statement (.spokeFault spoke kind ue) := trivial
theorem laneSelftestDone (lane : Nat) (errors : Bool) : Statement (.laneSelftestDone lane errors) := trivial
theorem laneTableApply (r : Req) (first count : Nat) (entries : List Byte) : Statement (.laneTableApply r first count entries) := ⟨by decide +kernel, fun h => of_req (left (left h))⟩
theorem laneTableGet (r : Req) (lane : Nat) : Statement (.laneTableGet r lane) := ⟨by decide +kernel, fun h => of_req (left h)⟩
theorem laneLoop (r : Req) (lane loop echo : Nat) : Statement (.laneLoop r lane loop echo) := ⟨by decide +kernel, fun h => of_req (left (left (left h)))⟩
theorem lanePatgen (r : Req) (lane pat inv user raw : Nat) : Statement (.lanePatgen r lane pat inv user raw) := ⟨by decide +kernel, fun h => of_req (left (left (left (left (left h)))))⟩
theorem lanePatchk (r : Req) (lane pat inv user enable : Nat) : Statement (.lanePatchk r lane pat inv user enable) := ⟨by decide +kernel, fun h => of_req (left (left (left (left (left h)))))⟩
theorem laneInject (r : Req) (lane point len every : Nat) : Statement (.laneInject r lane point len every) := ⟨by decide +kernel, fun h => of_req (left (left (left (left h))))⟩
theorem injectInterval (lane : Nat) (overlap : Bool) : Statement (.injectInterval lane overlap) := trivial
theorem laneChkRead (r : Req) (lane clear : Nat) : Statement (.laneChkRead r lane clear) := ⟨by decide +kernel, fun h => of_req (left (left h))⟩
theorem laneEyescan (r : Req) (lane kind n : Nat) : Statement (.laneEyescan r lane kind n) := ⟨by decide +kernel, fun h => of_req (left (left (left h)))⟩
theorem eyeDone (lane : Nat) : Statement (.eyeDone lane) := trivial
theorem laneEyeRead (r : Req) (lane : Nat) : Statement (.laneEyeRead r lane) := ⟨by decide +kernel, fun h => of_req (left h)⟩
theorem laneSelftest (r : Req) (lane : Nat) : Statement (.laneSelftest r lane) := ⟨by decide +kernel, fun h => of_req (left h)⟩
theorem frameReceive (port : Nat) (frame : List Byte) (symErr : Bool) (fecCorr fecUe : Nat) : Statement (.frameReceive port frame symErr fecCorr fecUe) := trivial
theorem pauseExpire (port prio : Nat) : Statement (.pauseExpire port prio) := trivial
theorem streamHoldExpire (port : Nat) : Statement (.streamHoldExpire port) := trivial
theorem frameTransmit (port : Nat) : Statement (.frameTransmit port) := trivial
theorem txUnderrun (port : Nat) : Statement (.txUnderrun port) := trivial
theorem pfcSend (port : Nat) : Statement (.pfcSend port) := trivial
theorem lpiEnter (port : Nat) : Statement (.lpiEnter port) := trivial
theorem lpiWake (port : Nat) : Statement (.lpiWake port) := trivial
theorem delayMeasurementTimeout (port : Nat) : Statement (.delayMeasurementTimeout port) := trivial
theorem steerKeepExpire (port : Nat) : Statement (.steerKeepExpire port) := trivial
theorem macPortSet (r : Req) (port ownMac peerMac tci transport ownIp peerIp udp dscp maxFrame seg : Nat) : Statement (.macPortSet r port ownMac peerMac tci transport ownIp peerIp udp dscp maxFrame seg) := ⟨by decide +kernel, fun h => of_req (left (left (left (left (left (left (left (left (left (left (left h)))))))))))⟩
theorem macFilterSet (r : Req) (port enable : Nat) (addrs : List Nat) (prom allmc keepBad vlanCheck : Nat) : Statement (.macFilterSet r port enable addrs prom allmc keepBad vlanCheck) := ⟨by decide +kernel, fun h => of_req (left (left (left (left (left (left (left h)))))))⟩
theorem macFlowSet (r : Req) (port rxPause pfcRx txPfc hold : Nat) : Statement (.macFlowSet r port rxPause pfcRx txPfc hold) := ⟨by decide +kernel, fun h => of_req (left (left (left (left (left h)))))⟩
theorem macLpiSet (r : Req) (port en idle : Nat) : Statement (.macLpiSet r port en idle) := ⟨by decide +kernel, fun h => of_req (left (left (left h)))⟩
theorem macQueueSet (r : Req) (port rx tx : Nat) : Statement (.macQueueSet r port rx tx) := ⟨by decide +kernel, fun h => of_req (left (left (left h)))⟩
theorem macSteerWrite (r : Req) (port first count : Nat) (entries : List Nat) : Statement (.macSteerWrite r port first count entries) := ⟨by decide +kernel, fun h => of_req (left (left (left (left h))))⟩
theorem macTxthreshReset (r : Req) (port : Nat) : Statement (.macTxthreshReset r port) := ⟨by decide +kernel, fun h => of_req (left h)⟩
theorem macGetStats (r : Req) (port clear : Nat) : Statement (.macGetStats r port clear) := ⟨by decide +kernel, fun h => of_req (left (left h))⟩
theorem macDelayMeasure (r : Req) (port two id : Nat) : Statement (.macDelayMeasure r port two id) := ⟨by decide +kernel, fun h => of_req (left (left (left h)))⟩
theorem macPortStatus (r : Req) (port : Nat) : Statement (.macPortStatus r port) := ⟨by decide +kernel, fun h => of_req (left h)⟩
theorem copConfig (r : Req) (spoke mode mask lineAdv timed margin minMargin autoSwap syncWord syncTol syncBase syncStep ramp crcLimit : Nat) : Statement (.copConfig r spoke mode mask lineAdv timed margin minMargin autoSwap syncWord syncTol syncBase syncStep ramp crcLimit) := ⟨by decide +kernel, fun h => of_req (left (left (left (left (left (left (left (left (left (left (left (left (left (left h))))))))))))))⟩
theorem copEnable (r : Req) (spoke : Nat) : Statement (.copEnable r spoke) := ⟨by decide +kernel, fun h => of_req (left h)⟩
theorem copDisable (r : Req) (spoke mode : Nat) : Statement (.copDisable r spoke mode) := ⟨by decide +kernel, fun h => of_req (left (left h))⟩
theorem copDisabled (spoke : Nat) : Statement (.copDisabled spoke) := trivial
theorem copStatus (r : Req) (spoke : Nat) : Statement (.copStatus r spoke) := ⟨by decide +kernel, fun h => of_req (left h)⟩
theorem copMaskSet (r : Req) (spoke nguard : Nat) (points notches : List Nat) : Statement (.copMaskSet r spoke nguard points notches) := ⟨by decide +kernel, fun h => of_req (left (left (left (left h))))⟩
theorem copLoadWrite (r : Req) (pair dir force : Nat) (table : List Nat) : Statement (.copLoadWrite r pair dir force table) := ⟨by decide +kernel, fun h => of_req (left (left (left (left h))))⟩
theorem copLoadRead (r : Req) (pair dir set : Nat) : Statement (.copLoadRead r pair dir set) := ⟨by decide +kernel, fun h => of_req (left (left (left h)))⟩
theorem copSnrRead (r : Req) (pair dir rp : Nat) : Statement (.copSnrRead r pair dir rp) := ⟨by decide +kernel, fun h => of_req (left (left (left h)))⟩
theorem copBurstSet (r : Req) (pair rpMask : Nat) (plan : List Nat) (down up : Nat) : Statement (.copBurstSet r pair rpMask plan down up) := ⟨by decide +kernel, fun h => of_req (left (left (left (left (left h)))))⟩
theorem copPairsSet (r : Req) (spoke mask : Nat) : Statement (.copPairsSet r spoke mask) := ⟨by decide +kernel, fun h => of_req (left (left h))⟩
theorem copPairsDone (spoke : Nat) : Statement (.copPairsDone spoke) := trivial
theorem copGetLatency (r : Req) (spoke : Nat) : Statement (.copGetLatency r spoke) := ⟨by decide +kernel, fun h => of_req (left h)⟩
theorem copGetStats (r : Req) (pair rp clear : Nat) : Statement (.copGetStats r pair rp clear) := ⟨by decide +kernel, fun h => of_req (left (left (left h)))⟩
theorem copSelftest (r : Req) (pair : Nat) : Statement (.copSelftest r pair) := ⟨by decide +kernel, fun h => of_req (left h)⟩
theorem copQualify (r : Req) (pair margin : Nat) : Statement (.copQualify r pair margin) := ⟨by decide +kernel, fun h => of_req (left (left h))⟩
theorem copQualifyDone (pair : Nat) (noPeer : Bool) : Statement (.copQualifyDone pair noPeer) := trivial
theorem lineSuperframe (spoke echo : Nat) : Statement (.lineSuperframe spoke echo) := trivial
theorem syncMatch (pair q errs power : Nat) : Statement (.syncMatch pair q errs power) := trivial
theorem headerDecision (pair header : Nat) : Statement (.headerDecision pair header) := trivial
theorem burstEnd (pair : Nat) : Statement (.burstEnd pair) := trivial
theorem linkFrameReceive (pair : Nat) (frame : List Byte) : Statement (.linkFrameReceive pair frame) := trivial
theorem copBringupTimeout (pair : Nat) : Statement (.copBringupTimeout pair) := trivial
theorem autoSwap (pair : Nat) (up : Bool) : Statement (.autoSwap pair up) := trivial
theorem copDown (spoke kind pair : Nat) : Statement (.copDown spoke kind pair) := trivial
theorem pairSelftestDone (pair : Nat) (pass : Bool) : Statement (.pairSelftestDone pair pass) := trivial
theorem timeGet (r : Req) : Statement (.timeGet r) := ⟨by decide +kernel, fun h => of_req h⟩
theorem timeServoSet (r : Req) (profile domain : Nat) (roles : List Nat) (tsin lane lockTh hold : Nat) : Statement (.timeServoSet r profile domain roles tsin lane lockTh hold) := ⟨by decide +kernel, fun h => of_req (left (left (left (left (left (left (left h)))))))⟩
theorem timeAdjFreq (r : Req) (ftrim : Int) : Statement (.timeAdjFreq r ftrim) := ⟨by decide +kernel, fun h => of_req (left h)⟩
theorem timeSlew (r : Req) (off : Int) (rate : Nat) : Statement (.timeSlew r off rate) := ⟨by decide +kernel, fun h => of_req (left (left h))⟩
theorem slewDone : Statement (.slewDone ) := trivial
theorem timeStep (r : Req) (mode arg ns frac : Nat) : Statement (.timeStep r mode arg ns frac) := ⟨by decide +kernel, fun h => of_req (left (left (left (left h))))⟩
theorem timePortSet (r : Req) (ports : List Nat) : Statement (.timePortSet r ports) := ⟨by decide +kernel, fun h => of_req (left h)⟩
theorem timeStampRead (r : Req) (port n clear : Nat) : Statement (.timeStampRead r port n clear) := ⟨by decide +kernel, fun h => of_req (left (left (left h)))⟩
theorem timeTsinSet (r : Req) (input edges wake : Nat) : Statement (.timeTsinSet r input edges wake) := ⟨by decide +kernel, fun h => of_req (left (left (left h)))⟩
theorem timeTsinRead (r : Req) (input n clear : Nat) : Statement (.timeTsinRead r input n clear) := ⟨by decide +kernel, fun h => of_req (left (left (left h)))⟩
theorem tsinEdge (input : Nat) (falling : Bool) (sub : Nat) : Statement (.tsinEdge input falling sub) := trivial
theorem timeTsoutSet (r : Req) (output mode pol ppsW : Nat) : Statement (.timeTsoutSet r output mode pol ppsW) := ⟨by decide +kernel, fun h => of_req (left (left (left (left h))))⟩
theorem ppsPulse (output : Nat) : Statement (.ppsPulse output) := trivial
theorem pulseEnd (output : Nat) : Statement (.pulseEnd output) := trivial
theorem timeSynceSet (r : Req) (output lane div : Nat) : Statement (.timeSynceSet r output lane div) := ⟨by decide +kernel, fun h => of_req (left (left (left h)))⟩
theorem synceSquelch (output : Nat) : Statement (.synceSquelch output) := trivial
theorem timeUtcSet (r : Req) (utc leap second : Nat) : Statement (.timeUtcSet r utc leap second) := ⟨by decide +kernel, fun h => of_req (left (left (left h)))⟩
theorem leapSecond : Statement (.leapSecond ) := trivial
theorem servoSourceQualify (source parent : Nat) (off : Int) : Statement (.servoSourceQualify source parent off) := trivial
theorem servoLock (off : Int) : Statement (.servoLock off) := trivial
theorem servoHoldover (mean : Int) : Statement (.servoHoldover mean) := trivial
theorem servoHoldoverExpire : Statement (.servoHoldoverExpire ) := trivial
theorem trueMeasure (kind index gap : Nat) (residual toward : Int) : Statement (.trueMeasure kind index gap residual toward) := trivial
theorem trueGapExpire (kind index : Nat) : Statement (.trueGapExpire kind index) := trivial
theorem trueStale (kind index trim : Nat) : Statement (.trueStale kind index trim) := trivial
theorem trimStore : Statement (.trimStore ) := trivial
theorem trueSet (r : Req) (kind index enable stale : Nat) : Statement (.trueSet r kind index enable stale) := ⟨by decide +kernel, fun h => of_req (left (left (left (left h))))⟩
theorem trueStatus (r : Req) (kind index : Nat) : Statement (.trueStatus r kind index) := ⟨by decide +kernel, fun h => of_req (left (left h))⟩
theorem trueReset (r : Req) (kind index : Nat) : Statement (.trueReset r kind index) := ⟨by decide +kernel, fun h => of_req (left (left h))⟩
theorem heartbeatSend : Statement (.heartbeatSend ) := trivial
theorem heartbeatReceive (link group epoch servo : Nat) (captain dissolve : Bool) (boundary seq : Nat) (raw filtered : Int) : Statement (.heartbeatReceive link group epoch servo captain dissolve boundary seq raw filtered) := trivial
theorem echoExchange (link rtt turn : Nat) : Statement (.echoExchange link rtt turn) := trivial
theorem heartbeatMiss (mean : Int) : Statement (.heartbeatMiss mean) := trivial
theorem statusFrame (member : Nat) (received joins leaves : Bool) (boundary : Nat) : Statement (.statusFrame member received joins leaves boundary) := trivial
theorem hello (link group id peerLink epoch ident : Nat) : Statement (.hello link group id peerLink epoch ident) := trivial
theorem stokerEntry : Statement (.stokerEntry ) := trivial
theorem memberTimeout (member : Nat) : Statement (.memberTimeout member) := trivial
theorem handbackBoundary (at_ : Nat) : Statement (.handbackBoundary at_) := trivial
theorem tandemWindowAccess (incoming : Bool) (member : Nat) (write : Bool) (kind idx priv addr len : Nat) (data : List Byte) (peer : Nat) : Statement (.tandemWindowAccess incoming member write kind idx priv addr len data peer) := trivial
theorem tndGroupSet (r : Req) (group topology n : Nat) : Statement (.tndGroupSet r group topology n) := ⟨by decide +kernel, fun h => of_req (left (left (left h)))⟩
theorem tndLinkSet (r : Req) (link : Nat) (asym : Int) : Statement (.tndLinkSet r link asym) := ⟨by decide +kernel, fun h => of_req (left (left h))⟩
theorem tndStatus (r : Req) : Statement (.tndStatus r) := ⟨by decide +kernel, fun h => of_req h⟩
theorem tndLinkDisable (r : Req) (link mode : Nat) : Statement (.tndLinkDisable r link mode) := ⟨by decide +kernel, fun h => of_req (left (left h))⟩
theorem tndLinkDisabled (link : Nat) : Statement (.tndLinkDisabled link) := trivial
theorem tndLinkEnable (r : Req) (link : Nat) : Statement (.tndLinkEnable r link) := ⟨by decide +kernel, fun h => of_req (left h)⟩
theorem tndWindowSet (r : Req) (window peer base : Nat) : Statement (.tndWindowSet r window peer base) := ⟨by decide +kernel, fun h => of_req (left (left (left h)))⟩
theorem tndExportSet (r : Req) (range base size mask : Nat) : Statement (.tndExportSet r range base size mask) := ⟨by decide +kernel, fun h => of_req (left (left (left (left h))))⟩
theorem tndStreamSet (r : Req) (stream outlet spoke dirs pcid enable : Nat) (fits : Bool) : Statement (.tndStreamSet r stream outlet spoke dirs pcid enable fits) := ⟨by decide +kernel, fun h => of_req (left (left (left (left (left (left h))))))⟩
theorem tndXchgSet (r : Req) (chan owner pool base log prio timed deadline srcBase srcSize dstBase dstSize : Nat) : Statement (.tndXchgSet r chan owner pool base log prio timed deadline srcBase srcSize dstBase dstSize) := ⟨by decide +kernel, fun h => of_req (left (left (left (left (left (left (left (left (left (left (left (left h))))))))))))⟩
theorem tndHandback (r : Req) (boundary : Nat) : Statement (.tndHandback r boundary) := ⟨by decide +kernel, fun h => of_req (left h)⟩
theorem tndLinkSelftest (r : Req) (link : Nat) : Statement (.tndLinkSelftest r link) := ⟨by decide +kernel, fun h => of_req (left h)⟩
theorem pairHeartbeat (pair : Nat) : Statement (.pairHeartbeat pair) := trivial
theorem pairFailed (pair cause : Nat) : Statement (.pairFailed pair cause) := trivial
theorem mgmtTakeover : Statement (.mgmtTakeover ) := trivial
theorem checkpoint : Statement (.checkpoint ) := trivial
theorem mgmtStandby (pass : Bool) : Statement (.mgmtStandby pass) := trivial
theorem mgmtFatal : Statement (.mgmtFatal ) := trivial
theorem mgmtSupervisor : Statement (.mgmtSupervisor ) := trivial
theorem warmRestart (key : Nat) (go : Bool) : Statement (.warmRestart key go) := trivial
theorem trbClear (w mask : Nat) : Statement (.trbClear w mask) := trivial
theorem mgmtSet (r : Req) (coast persist : Nat) : Statement (.mgmtSet r coast persist) := ⟨by decide +kernel, fun h => of_req (left (left h))⟩
theorem mgmtStatus (r : Req) : Statement (.mgmtStatus r) := ⟨by decide +kernel, fun h => of_req h⟩
theorem mgmtFailover (r : Req) : Statement (.mgmtFailover r) := ⟨by decide +kernel, fun h => of_req h⟩
theorem trbLogRead (r : Req) (first count source : Nat) : Statement (.trbLogRead r first count source) := ⟨by decide +kernel, fun h => of_req (left (left (left h)))⟩
theorem trbLogSave (r : Req) : Statement (.trbLogSave r) := ⟨by decide +kernel, fun h => of_req h⟩
theorem trbGet (r : Req) : Statement (.trbGet r) := ⟨by decide +kernel, fun h => of_req h⟩
theorem updFwLoad (r : Req) (sigOk : Bool) (release ckptVer : Nat) : Statement (.updFwLoad r sigOk release ckptVer) := ⟨by decide +kernel, fun h => of_req (left (left h))⟩
theorem updFwActivate (r : Req) : Statement (.updFwActivate r) := ⟨by decide +kernel, fun h => of_req h⟩
theorem updFwDone (bootOk : Bool) : Statement (.updFwDone bootOk) := trivial
theorem updFwStatus (r : Req) : Statement (.updFwStatus r) := ⟨by decide +kernel, fun h => of_req h⟩
theorem updEngMicrocode (r : Req) (cls mask force : Nat) : Statement (.updEngMicrocode r cls mask force) := ⟨by decide +kernel, fun h => of_req (left (left (left h)))⟩
theorem updEngDone : Statement (.updEngDone ) := trivial
theorem pwrLevelSet (r : Req) (mask level at_ notify : Nat) : Statement (.pwrLevelSet r mask level at_ notify) := ⟨by decide +kernel, fun h => of_req (left (left (left (left h))))⟩
theorem pwrLevelDone (dom : Nat) : Statement (.pwrLevelDone dom) := trivial
theorem pwrSleep (r : Req) (mask depth wake : Nat) : Statement (.pwrSleep r mask depth wake) := ⟨by decide +kernel, fun h => of_req (left (left (left h)))⟩
theorem domainAck (dom : Nat) : Statement (.domainAck dom) := trivial
theorem domainStopped (dom : Nat) : Statement (.domainStopped dom) := trivial
theorem pwrSlept : Statement (.pwrSlept ) := trivial
theorem pwrWake (r : Req) (mask : Nat) : Statement (.pwrWake r mask) := ⟨by decide +kernel, fun h => of_req (left h)⟩
theorem pwrWoke (dom : Nat) : Statement (.pwrWoke dom) := trivial
theorem pwrStatus (r : Req) : Statement (.pwrStatus r) := ⟨by decide +kernel, fun h => of_req h⟩
theorem pwrDormantSet (r : Req) (mode wake : Nat) : Statement (.pwrDormantSet r mode wake) := ⟨by decide +kernel, fun h => of_req (left (left h))⟩
theorem dormantWake : Statement (.dormantWake ) := trivial
theorem vinRise (mv : Nat) : Statement (.vinRise mv) := trivial
theorem vinFall (mv : Nat) : Statement (.vinFall mv) := trivial
theorem vinOvervoltage (mv : Nat) : Statement (.vinOvervoltage mv) := trivial
theorem powerOnReset (spliceOk : Bool) : Statement (.powerOnReset spliceOk) := trivial
theorem clockLock : Statement (.clockLock ) := trivial
theorem breanoBoot (imgOk pairOk : Bool) : Statement (.breanoBoot imgOk pairOk) := trivial
theorem startupSelftestDone (cores clusters rows rams : List Nat) : Statement (.startupSelftestDone cores clusters rows rams) := trivial
theorem serviceReady (standby : Bool) : Statement (.serviceReady standby) := trivial
theorem startupStop (step reason : Nat) : Statement (.startupStop step reason) := trivial
theorem startupTimeout : Statement (.startupTimeout ) := trivial
theorem resumeDone : Statement (.resumeDone ) := trivial
theorem resumeTimeout : Statement (.resumeTimeout ) := trivial
theorem deviceProfileSave (r : Req) (auto wait : Nat) : Statement (.deviceProfileSave r auto wait) := ⟨by decide +kernel, fun h => of_req (left (left h))⟩
theorem deviceStartupStatus (r : Req) : Statement (.deviceStartupStatus r) := ⟨by decide +kernel, fun h => of_req h⟩
theorem deviceResume (r : Req) : Statement (.deviceResume r) := ⟨by decide +kernel, fun h => of_req h⟩
theorem pfail : Statement (.pfail ) := trivial
theorem sensorRefresh (vin iin pin : Nat) (junction dramTemps : List Int) : Statement (.sensorRefresh vin iin pin junction dramTemps) := trivial
theorem thermalShutdown (sensor : Nat) : Statement (.thermalShutdown sensor) := trivial
theorem deviceGetSensors (r : Req) : Statement (.deviceGetSensors r) := ⟨by decide +kernel, fun h => of_req h⟩
theorem deviceBlobWrite (r : Req) (blob : List Byte) : Statement (.deviceBlobWrite r blob) := ⟨by decide +kernel, fun h => of_req h⟩
theorem deviceBlobRead (r : Req) (source : Nat) : Statement (.deviceBlobRead r source) := ⟨by decide +kernel, fun h => of_req (left h)⟩
theorem cadenceCycle : Statement (.cadenceCycle ) := trivial
theorem chainSampleEntry (stream dir : Nat) (present : Bool) (re im buf : Nat) : Statement (.chainSampleEntry stream dir present re im buf) := trivial
theorem coefficientUpdateRequest (lane : Nat) : Statement (.coefficientUpdateRequest lane) := trivial
theorem checkerLock (lane : Nat) : Statement (.checkerLock lane) := trivial
theorem checkerLockLoss (lane : Nat) : Statement (.checkerLockLoss lane) := trivial
theorem ptpEventMessage (port : Nat) (event : Bool) (frame : List Byte) : Statement (.ptpEventMessage port event frame) := trivial
theorem vinOvervoltageClear (mv : Nat) : Statement (.vinOvervoltageClear mv) := trivial
theorem perstDeassert (port : Nat) : Statement (.perstDeassert port) := trivial

end Sys2Proof.Laws.CommandCode
end

