-- ==== Sys2Proof/Tests/Slice0.lean ====
section
/-! SUPPORT. Tests: ill-formed commands, the manual's worked examples, single steps, and for each statement states and operands that
meet its hypotheses. -/

open Sys2Proof Sys2Proof.Machine

namespace Sys2Proof.Tests

set_option Elab.async false
set_option linter.unusedVariables false

/-- The block in service, with nothing configured. -/
def stReady : State :=
  { clk := { run := true }
    dev :=
      { mgmt := { svc := true, pairA := .active, pairB := .ready }
        startup := { phase := .service, cfgOk := true }
        host := { linkUp := (true, false), perst := (false, true) } } }

/-- The block `d` at ATC 0. -/
def onDevice (d : Dev) : State := { clk := { run := true }, dev := d }

/-- A request of PF0 in slot 0, inline. -/
def slot0 (code : Nat) : Waiting :=
  { page := 0, slot := 0, code := code, tag := 7, flags := 0, func := 0, reqAddr := 0, reqLen := 0, respAddr := 0, respLen := 0
    rung := 0 }

/-- The same by reference. -/
def slotRef (code : Nat) : Waiting :=
  { slot0 code with flags := 1, reqAddr := 4096, reqLen := 65536, respAddr := 65536, respLen := 65536 }

/-- `d` with that request waiting. -/
def slotSt (code : Nat) (d : Dev) : State := onDevice { d with host := { d.host with waiting := [slot0 code] } }
def slotRefSt (code : Nat) (d : Dev) : State := onDevice { d with host := { d.host with waiting := [slotRef code] } }

/-- A stream, a carrier and a symbol. -/
def stStream : Stream :=
  { owner := 0, carrier := 1, fin := 30720, fout := 30720, hb := 0, rs := 0, side := 0, leadTx := 65536, lagRx := 65536 }
def stCarrier : Carrier := { owner := 0, std := 1, bw := 200, mu := 0, ext := false, off := 0, hostCar := 0xFFFF, mark := 0 }
def stSym : TxSym := { start := 0, frame := 0, slot := 0, sym := 0, samples := [] }

/-- Stream 3 in LOOKASIDE with a whole symbol waiting, bound to channel 512, in which `n` descriptors are posted. -/
def stLookTx (n : Nat) : Dev :=
  { stReady.dev with
      devmode := { mode := .lookaside, look := [(6, { chan := 512 })] }
      air := { carriers := [(1, stCarrier)], plans := [{ carrier := 1, frame := 0, slot := 0, charges := [] }] }
      fe := { streams := [(3, stStream)], chains := [(6, { syms := [stSym] })] }
      mov := { chans := [(512, { base := 4096, dis := .on, prod := n })] }
      host := { stReady.dev.host with mem := writeBytes [] 4096 (le 4 0x80000000 ++ le 4 80 ++ le 8 8192) } }

/-- An eCPRI IQ body of stream 3: one uncompressed sample. -/
def stMsg : List Byte := [0, 3, 0, 0, 0x80, 0, 0, 0, 0, 0, 0, 1] ++ List.replicate 64 0

/-- A core that runs its image at PC 0x100, in M, with the vector unit and the coprocessors, and its bundle of NOPs. -/
def stCore : Core := { st := .running, pc := 0x100, imgFlags := 3 }
def bctx : BCtx := { core := 0, l0 := 0, l1 := 0, x := 0, v := 0 }
def coreSt (k : Core) : State := onDevice { stReady.dev with cores := { core := [(0, k)] } }

/-- Thread blocks: thread, pool, state, band, deadline. -/
def stThreads (l : List (Nat × Nat × Nat × Nat × Nat)) : Tab Byte :=
  l.foldl (fun m x => writeBytes m (tbAddr x.1) (pk [(2, x.1), (1, x.2.1), (1, x.2.2.2.1), (1, x.2.2.1), (3, 0), (8, x.2.2.2.2)])) []

/-- Cores in service. -/
def stCores (l : Tab Core) : Dev := { stReady.dev with cores := { core := l } }

/-- The same with thread blocks in memory. -/
def stPool (l : Tab Core) (ts : List (Nat × Nat × Nat × Nat × Nat)) : Dev := { stCores l with mem := { cells := stThreads ts } }

/-- An image of one bundle, REPMAX 64, ENTRY 0x100, no flags. -/
def stImage : List Byte :=
  pk [(4, 0x4D495348), (2, 1), (2, 0), (4, 16), (4, 0), (4, 0), (4, 0x100), (4, 0x200), (4, 0x300), (2, 64), (2, 0),
      (4, 0xECBB4B55)] ++ List.replicate 40 0

/-- A serial spoke of type 2 in the SPOKE profile, with an entry in the lane table for each lane. -/
def stSpk (st : SpkSt) : Spoke :=
  { port := 2, profile := 1, fecPref := 0, fastOk := true, cmp := 7, mRange := 0xA0, domains := 3, timed := false, ueLimit := 10
    st := st, dis := if st = .disabled then .disabled else .on }

/-- A spoke that has agreed and awaits the peer's CONFIRM, and a CONFIRM with digest `d`. -/
def stAgreed : Spoke :=
  { stSpk .exchange with agreed := some { fast := false, fec := 0, cmp := 7, mLo := 0, mHi := 10, domains := 3 } }
def stConfirm (d : Nat) : List Byte := pk [(1, 2), (1, 1), (30, 0), (4, 0x03070101), (4, d), (24, 0)]

theorem stConfirm_word (d : Nat) : fieldAt (stConfirm d) 32 4 = 0x03070101 := by
  have h : ((stConfirm d).drop 32).take 4 = le 4 0x03070101 := rfl
  rw [fieldAt, h]; rfl

theorem stConfirm_digest (d : Nat) (hd : d < 2 ^ 32) : fieldAt (stConfirm d) 36 4 = d := by
  have h : ((stConfirm d).drop 36).take 4 = le 4 d := rfl
  rw [fieldAt, h, leVal_le]; exact Nat.mod_eq_of_lt hd

theorem crcBit_lt {c : Nat} (h : c < 2 ^ 32) : crcBit c < 2 ^ 32 := by
  unfold crcBit; split
  · exact Nat.xor_lt_two_pow (by omega) (by decide)
  · omega

theorem crcByte_lt {c : Nat} (b : Byte) (h : c < 2 ^ 32) : crcByte c b < 2 ^ 32 := by
  have key : ∀ (l : List Nat) (x : Nat), x < 2 ^ 32 → l.foldl (fun c _ => crcBit c) x < 2 ^ 32 := by
    intro l; induction l with
    | nil => intro x hx; exact hx
    | cons a l ih => intro x hx; exact ih _ (crcBit_lt hx)
  exact key _ _ (Nat.xor_lt_two_pow h (by have := b.isLt; omega))

theorem crc32_lt (bs : List Byte) : crc32 bs < 2 ^ 32 := by
  have key : ∀ (l : List Byte) (x : Nat), x < 2 ^ 32 → l.foldl crcByte x < 2 ^ 32 := by
    intro l; induction l with
    | nil => intro x hx; exact hx
    | cons a l ih => intro x hx; exact ih _ (crcByte_lt a hx)
  exact Nat.xor_lt_two_pow (key _ _ (by decide)) (by decide)

theorem digest_lt (a b : List Byte) : digest a b < 2 ^ 32 := by
  unfold digest; split <;> exact crc32_lt _

/-- Lane-table entry of lane `l`: tuned, 28.2 Gb/s. -/
def stLane (l : Nat) : List Byte :=
  pk [(1, l), (1, 8), (2, 282), (4, 0), (1, 0), (1, 0), (1, 32), (1, 0), (16, 0), (1, 0), (1, 0), (1, 32), (1, 0), (16, 0)]

/-- Spoke 2 in state `x`, all lane-table entries good. -/
def stSpoke (x : Spoke) : Dev :=
  { stReady.dev with spk := { spokes := [(2, x)], table := (List.range 128).flatMap stLane } }

/-- A PAUSE frame to all, pause time 5, without FCS. -/
def stPause : List Byte := be 6 (2 ^ 48 - 1) ++ be 6 1 ++ be 2 0x8808 ++ be 2 1 ++ be 2 5 ++ List.replicate 42 0

/-- Copper spoke 128 on its pair 0. -/
def stCop (mode : Nat) (dis : Dis) (active : Bool) : CopSpoke :=
  { mode := mode, mask := 1, lineAdv := 0, timed := false, margin := 60, minMargin := 30, autoSwap := false, syncWord := 0
    syncTol := 8, syncBase := 32, syncStep := 62, ramp := 16, crcLimit := 10, dis := dis, active := active }

/-- That spoke, and its pair. -/
def stCopper (x : CopSpoke) (p : PairCh) : Dev := { stReady.dev with cop := { spokes := [(128, x)], pairs := [(0, p)] } }

/-- A DETECT_REPLY of a full-duplex peer at radio point 3, in its link frame. -/
def stReply : List Byte := linkFrame 1 0 [2, 3, 0, 0, 0, 0, 0, 0, 0, 0, 1]

/-- 8,192 bytes of a blob. -/
def blob8192 : List Byte := List.replicate 8192 0

theorem blob8192_length : blob8192.length = 8192 := List.length_replicate

/-- Tandem link 0 ACTIVE to member 1, in a chain of three devices. -/
def stTandem (t : Tandem) : Dev :=
  { stReady.dev with
    spk := { spokes := [(256, { Spoke.tandem with st := .active, dis := .on })] }
    tnd := { t with group := some (7, 0, 3), links := [(0, { peer := 1 })] } }

/-! ### Witnesses -/

/-- Each clause of ModeRequests has a state and operands that meet its hypotheses. -/
theorem wit_ModeRequests :
    (∃ (s : State) (r : Req) (w : Waiting) (m : Mode) (mode live : Nat), (Waits s r 0x0101 w) ∧ (Fits w 8) ∧ (Mode.ofCode mode = some m) ∧ (s.dev.devmode.pend = none) ∧ (s.dev.tnd.handback = none) ∧ (¬(s.dev.devmode.mode = .captain ∧ s.dev.pkg.tandemId ≠ 0 ∧ s.dev.devmode.since = s.clk.atc)) ∧ (m ≠ s.dev.devmode.mode) ∧ (¬(m = .captain ∧ s.dev.pkg.tandemId ≠ 0)) ∧ ((m = .captain ∨ m = .stoker) → s.dev.tnd.group ≠ none) ∧ (s.dev.devmode.mode = .relay → s.dev.standing (fun _ => true) ≤ 65536) ∧ (¬(s.dev.devmode.mode.group = true ∧ m.group = true))) ∧
    (∃ (s : State) (r : Req) (w : Waiting) (m : Mode) (mode live : Nat), (Waits s r 0x0101 w) ∧ (Fits w 8) ∧ (Mode.ofCode mode = some m) ∧ (s.dev.devmode.pend = none) ∧ (s.dev.tnd.handback = none) ∧ (¬(s.dev.devmode.mode = .captain ∧ s.dev.pkg.tandemId ≠ 0 ∧ s.dev.devmode.since = s.clk.atc)) ∧ (m ≠ s.dev.devmode.mode) ∧ (¬(m = .captain ∧ s.dev.pkg.tandemId ≠ 0)) ∧ ((m = .captain ∨ m = .stoker) → s.dev.tnd.group ≠ none) ∧ (s.dev.devmode.mode.group = true) ∧ (m.group = true) ∧ (live % 19660800 = 0) ∧ (s.clk.atc + 39321600 ≤ live) ∧ (m = .stoker → s.dev.stokerReady s.clk = true)) ∧
    (∃ (s : State) (r : Req) (w : Waiting) (mode live : Nat), (Waits s r 0x0101 w) ∧ (Fits w 8) ∧ (Mode.ofCode mode = some s.dev.devmode.mode) ∧ (s.dev.devmode.pend = none) ∧ (s.dev.tnd.handback = none) ∧ (¬(s.dev.devmode.mode = .captain ∧ s.dev.pkg.tandemId ≠ 0 ∧ s.dev.devmode.since = s.clk.atc))) ∧
    (∃ (s : State) (r : Req) (w : Waiting), (Waits s r 0x0102 w) ∧ (Fits w 10)) ∧
    (∃ (s : State) (r : Req) (w : Waiting), (Waits s r 0x0103 w) ∧ (Fits w 8) ∧ (Sees w.func 0)) :=
  ⟨⟨slotSt 0x0101 stReady.dev, ⟨0, 0⟩, slot0 0x0101, .hub, 1, 0, by decide +kernel⟩,
   ⟨slotSt 0x0101 ({ stReady.dev with devmode := { mode := .hub }, tnd := { group := some (1, 0, 2) } }), ⟨0, 0⟩, slot0 0x0101, .captain, 2, 39321600, by decide +kernel⟩,
   ⟨slotSt 0x0101 stReady.dev, ⟨0, 0⟩, slot0 0x0101, 8, 0, by decide +kernel⟩,
   ⟨slotSt 0x0102 stReady.dev, ⟨0, 0⟩, slot0 0x0102, by decide +kernel⟩,
   ⟨slotSt 0x0103 stReady.dev, ⟨0, 0⟩, slot0 0x0103, by decide +kernel⟩⟩

/-- Each clause of ModeBoundaries has a state and operands that meet its hypotheses. -/
theorem wit_ModeBoundaries :
    (∃ (s : State) (q : PendMode), (s.dev.devmode.pend = some q) ∧ (q.live = true) ∧ (q.boundary ≤ s.clk.atc) ∧ (¬(q.target = .captain ∧ s.dev.captainHeard s.clk = true))) ∧
    (∃ (s : State) (q : PendMode), (s.dev.devmode.pend = some q) ∧ (q.live = false) ∧ (q.drained = false) ∧ (q.boundary ≤ s.clk.atc)) ∧
    (∃ (s : State) (q : PendMode), (s.dev.devmode.pend = some q) ∧ (q.drained = true) ∧ (q.aborted = false) ∧ (q.boundary + 49152000 ≤ s.clk.atc)) ∧
    (∃ (s : State) (q : PendMode), (s.dev.devmode.pend = some q) ∧ (q.live = false) ∧ (q.drained = true) ∧ (q.target ≠ .stoker) ∧ (¬(q.target = .captain ∧ s.dev.captainHeard s.clk = true)) ∧ (s.dev.devmode.mode = .dormant ∨ s.dev.devmode.mode = .linetest ∨ s.dev.drainedAll q.target = true ∨ q.boundary + 58982400 ≤ s.clk.atc)) ∧
    (∃ (s : State) (q : PendMode), (s.dev.devmode.pend = some q) ∧ (q.live = false) ∧ (q.drained = true) ∧ (q.target = .stoker) ∧ (s.clk.atc % 1966080 = 0) ∧ (s.dev.stokerReady s.clk = true)) :=
  ⟨⟨onDevice ({ stReady.dev with devmode := { mode := .hub, pend := some { target := .captain, live := true, boundary := 0, tag := 1 } } }), { target := .captain, live := true, boundary := 0, tag := 1 }, by decide +kernel⟩,
   ⟨onDevice ({ stReady.dev with devmode := { mode := .dormant, pend := some { target := .hub, live := false, boundary := 0, tag := 1 } } }), { target := .hub, live := false, boundary := 0, tag := 1 }, by decide +kernel⟩,
   ⟨{ clk := { atc := 49152000, run := true }, dev := { stReady.dev with devmode := { mode := .dormant, pend := some { target := .hub, live := false, boundary := 0, tag := 1, drained := true } } } }, { target := .hub, live := false, boundary := 0, tag := 1, drained := true }, by decide +kernel⟩,
   ⟨onDevice ({ stReady.dev with devmode := { mode := .dormant, pend := some { target := .hub, live := false, boundary := 0, tag := 1, drained := true } } }), { target := .hub, live := false, boundary := 0, tag := 1, drained := true }, by decide +kernel⟩,
   ⟨onDevice ({ stReady.dev with devmode := { mode := .hub, pend := some { target := .stoker, live := false, boundary := 0, tag := 1, drained := true } }, tnd := { group := some (1, 0, 2), beatAt := 1 } }), { target := .stoker, live := false, boundary := 0, tag := 1, drained := true }, by decide +kernel⟩⟩

/-- Each clause of LookasideAndConformance has a state and operands that meet its hypotheses. -/
theorem wit_LookasideAndConformance :
    (∃ (s : State) (r : Req) (w : Waiting) (stream dir chan domain : Nat) (y : Stream), (Waits s r 0x010A w) ∧ (s.dev.stream stream = some y) ∧ (Sees w.func y.owner) ∧ (dir ≤ 1) ∧ (domain ≤ 1) ∧ (chan ≠ 0xFFFF) ∧ (moverOf chan = 24) ∧ (s.dev.chanFunc chan = y.owner) ∧ ((s.dev.chan chan).dir = 1 - dir) ∧ ((s.dev.look stream dir).chan = 0xFFFF)) ∧
    (∃ (s : State) (r : Req) (w : Waiting) (stream dir : Nat) (y : Stream), (Waits s r 0x010B w) ∧ (Fits w 26) ∧ (s.dev.stream stream = some y) ∧ (Sees w.func y.owner) ∧ (dir ≤ 1)) ∧
    (∃ (s : State) (r : Req) (w : Waiting) (carrier source model pci vslot start : Nat) (k : Carrier), (Waits s r 0x010C w) ∧ (s.dev.carrier carrier = some k) ∧ (source = 1) ∧ (k.std < 3) ∧ (modelOk k model = true) ∧ (start % 19660800 = 0) ∧ (s.dev.hasPlans carrier = false) ∧ (w.rung + 39321600 ≤ start)) ∧
    (∃ (s : State) (r : Req) (w : Waiting) (vslot tracks frames rate : Nat) (samples : List Byte), (Waits s r 0x010D w) ∧ (Fits w 4) ∧ (vslot < 16) ∧ (1 ≤ tracks ∧ tracks ≤ 16) ∧ (1 ≤ frames ∧ frames ≤ 64) ∧ (rate ≠ 0) ∧ (s.dev.devmode.vec = []) ∧ (tracks * frames * rate * 10 * 4 ≤ 2 ^ 32) ∧ (samples.length = tracks * frames * rate * 10 * 4) ∧ (s.dev.devmode.conf = [])) ∧
    (∃ (s : State) (r : Req) (w : Waiting) (stream start frames : Nat) (y : Stream), (Waits s r 0x010E w) ∧ (Fits w 12) ∧ (s.dev.stream stream = some y) ∧ (start % 19660800 = 0) ∧ (1 ≤ frames ∧ frames ≤ 16) ∧ (s.dev.devmode.mode = .conformance) ∧ (w.rung + 3932160 ≤ start)) ∧
    (∃ (s : State) (stream : Nat) (y : Stream) (q : TxSym) (qs : List TxSym), (s.dev.stream stream = some y) ∧ ((s.dev.chain stream 0).syms = q :: qs) ∧ (s.dev.devmode.mode = .lookaside) ∧ ((s.dev.look stream 0).chan ≠ 0xFFFF) ∧ (s.dev.carrierOf y = none)) ∧
    (∃ (s : State) (stream : Nat) (y : Stream) (k : Carrier) (q : TxSym) (qs : List TxSym) (d1 : Dev), (s.dev.stream stream = some y) ∧ ((s.dev.chain stream 0).syms = q :: qs) ∧ (s.dev.devmode.mode = .lookaside) ∧ ((s.dev.look stream 0).chan ≠ 0xFFFF) ∧ (s.dev.carrierOf y = some k) ∧ (s.dev.slotRuns y.carrier k q.frame q.slot = true) ∧ (d1 = ((s.dev.updChain stream 0 fun k => { k with syms := qs }).symbolMessages 512 stream y { stream := stream, tx := true, rx := false, domain := (s.dev.look stream 0).domain, pcid := stream } (q.samples.length + 65536) q).2) ∧ (d1.chanReady (s.dev.look stream 0).chan = false)) ∧
    (∃ (s : State) (stream : Nat) (y : Stream) (k : Carrier) (q : TxSym) (qs : List TxSym) (d1 : Dev) (ms : List (List Byte × Nat)) (x : Desc), (s.dev.stream stream = some y) ∧ ((s.dev.chain stream 0).syms = q :: qs) ∧ (s.dev.devmode.mode = .lookaside) ∧ ((s.dev.look stream 0).chan ≠ 0xFFFF) ∧ (s.dev.carrierOf y = some k) ∧ (s.dev.slotRuns y.carrier k q.frame q.slot = true) ∧ ((ms, d1) = (s.dev.updChain stream 0 fun k => { k with syms := qs }).symbolMessages 512 stream y { stream := stream, tx := true, rx := false, domain := (s.dev.look stream 0).domain, pcid := stream } (q.samples.length + 65536) q) ∧ (d1.chanReady (s.dev.look stream 0).chan = true) ∧ ((d1.chan (s.dev.look stream 0).chan).verdict = none) ∧ (((d1.updLook stream 0 fun b => { b with noBuf := satAdd 32 b.noBuf 1 }).headDesc s.clk (s.dev.look stream 0).chan).1 = .inr x) ∧ (x.own = true) ∧ ((ms.flatMap fun m => ecpri 0 m.1).length ≤ x.len)) ∧
    (∃ (s : State) (chan : Nat) (e : Nat × LookBind) (x : Desc) (m body : List Byte), (s.dev.devmode.look = [e]) ∧ (e.2.chan = chan) ∧ (e.1 = 2 * (Msg.of body).pcid + 1) ∧ ((s.dev.headDesc s.clk chan).1 = .inr x) ∧ (s.dev.devmode.mode = .lookaside) ∧ (s.dev.chanReady chan = true) ∧ ((s.dev.chan chan).verdict = none) ∧ (x.own = true) ∧ (x.wake = false) ∧ (m = readBytes s.dev.host.mem x.src x.len) ∧ (m.take 2 = [0x10, 0]) ∧ (m = m.take 4 ++ body) ∧ (fieldBe m 2 2 = body.length) ∧ (12 ≤ body.length) ∧ ((Msg.of body).pcid < 2048) ∧ ((Msg.of body).lengthOk (decompress (Msg.of body).mode (Msg.of body).m (Msg.of body).nsamp (Msg.of body).blocks) = true)) ∧
    (∃ (s : State) (q : Capture) (y : Stream), (s.dev.devmode.capture = some q) ∧ (s.dev.stream q.stream = some y) ∧ (q.frames * y.fin * 10 * 4 ≤ q.stored)) ∧
    (∃ (s : State) (carrier frame slot : Nat) (threads jobs : List Nat) (k : Carrier), (s.dev.carrier carrier = some k) ∧ (s.dev.sourceOf carrier = 1) ∧ (((tget {} s.dev.devmode.conf carrier).start : Int) ≤ k.slotStart frame (slot : Int)) ∧ (slot < k.slotsFrame) ∧ ((s.clk.atc : Int) ≤ k.slotStart frame ((slot : Int) - 2)) ∧ (s.dev.devmode.pend = none) ∧ (∀ q ∈ s.dev.air.plans, ¬(q.carrier = carrier ∧ q.frame = frame ∧ q.slot = slot)) ∧ (s.dev.admission s.clk.atc (s.dev.planCharges s.clk.atc 0 threads (jobs.map furtherJob)) = stOK)) ∧
    (∃ (s : State) (carrier frame slot : Nat) (threads jobs : List Nat) (k : Carrier), (s.dev.carrier carrier = some k) ∧ (s.dev.sourceOf carrier = 1) ∧ (((tget {} s.dev.devmode.conf carrier).start : Int) ≤ k.slotStart frame (slot : Int)) ∧ (slot < k.slotsFrame) ∧ ((s.clk.atc : Int) ≤ k.slotStart frame ((slot : Int) - 2)) ∧ (s.dev.devmode.pend = none) ∧ (∀ q ∈ s.dev.air.plans, ¬(q.carrier = carrier ∧ q.frame = frame ∧ q.slot = slot)) ∧ (s.dev.admission s.clk.atc (s.dev.planCharges s.clk.atc 0 threads (jobs.map furtherJob)) ≠ stOK)) :=
  ⟨⟨slotSt 0x010A ({ stReady.dev with fe := { streams := [(3, stStream)] }, host := { stReady.dev.host with qOwner := [(0, 0)] }, mov := { chans := [(512, { dir := 1 })] } }), ⟨0, 0⟩, slot0 0x010A, 3, 0, 512, 0, stStream, by decide +kernel⟩,
   ⟨slotSt 0x010B ({ stReady.dev with fe := { streams := [(3, stStream)] } }), ⟨0, 0⟩, slot0 0x010B, 3, 0, stStream, by decide +kernel⟩,
   ⟨slotSt 0x010C ({ stReady.dev with air := { carriers := [(1, stCarrier)] } }), ⟨0, 0⟩, slot0 0x010C, 1, 1, 1, 7, 0, 39321600, stCarrier, by decide +kernel⟩,
   ⟨slotSt 0x010D stReady.dev, ⟨0, 0⟩, slot0 0x010D, 2, 1, 1, 1, List.replicate 40 0, by decide +kernel⟩,
   ⟨slotSt 0x010E ({ stReady.dev with fe := { streams := [(3, stStream)] }, devmode := { mode := .conformance } }), ⟨0, 0⟩, slot0 0x010E, 3, 19660800, 1, stStream, by decide +kernel⟩,
   ⟨onDevice ({ stReady.dev with devmode := { mode := .lookaside, look := [(6, { chan := 512 })] }, fe := { streams := [(3, stStream)], chains := [(6, { syms := [stSym] })] } }), 3, stStream, stSym, [], by decide +kernel⟩,
   ⟨onDevice (stLookTx 0), 3, stStream, stCarrier, stSym, [], ((stLookTx 0).updChain 3 0 fun k => { k with syms := [] }), by decide +kernel⟩,
   ⟨onDevice (stLookTx 1), 3, stStream, stCarrier, stSym, [], ((stLookTx 1).updChain 3 0 fun k => { k with syms := [] }), [], Desc.of (le 4 0x80000000 ++ le 4 80 ++ le 8 8192 ++ List.replicate 48 0), by decide +kernel⟩,
   ⟨onDevice ({ stReady.dev with devmode := { mode := .lookaside, look := [(7, { chan := 512 })] }, fe := { streams := [(3, stStream)] }, mov := { chans := [(512, { base := 4096, dis := .on, prod := 1 })] }, host := { stReady.dev.host with mem := writeBytes (writeBytes [] 4096 (le 4 0x80000000 ++ le 4 80 ++ le 8 8192)) 8192 ([0x10, 0, 0, 76] ++ stMsg) } }), 512, (7, { chan := 512 }), Desc.of (le 4 0x80000000 ++ le 4 80 ++ le 8 8192 ++ List.replicate 48 0), [0x10, 0, 0, 76] ++ stMsg, stMsg, by decide +kernel⟩,
   ⟨onDevice ({ stReady.dev with fe := { streams := [(3, stStream)] }, devmode := { capture := some { stream := 3, start := 0, frames := 1, tag := 5, stored := 1228800 } } }), { stream := 3, start := 0, frames := 1, tag := 5, stored := 1228800 }, stStream, by decide +kernel⟩,
   ⟨onDevice ({ stReady.dev with air := { carriers := [(1, stCarrier)] }, devmode := { mode := .conformance, conf := [(1, { source := 1, model := 1 })] } }), 1, 5, 3, [], [], stCarrier, by decide +kernel⟩,
   ⟨onDevice ({ stReady.dev with air := { carriers := [(1, stCarrier)] }, devmode := { mode := .conformance, conf := [(1, { source := 1, model := 1 })] } }), 1, 5, 3, [], [2 ^ 144], stCarrier, by decide +kernel⟩⟩

/-- Each clause of DoorbellsAndPages has a state and operands that meet its hypotheses. -/
theorem wit_DoorbellsAndPages :
    (∃ (s : State) (func mask i : Nat) (q : Waiting), (s.dev.onLink func = true) ∧ (func < 16) ∧ (i < 16) ∧ (mask = 2 ^ i) ∧ (s.dev.host.waiting = []) ∧ ((s.dev.func func).owned.getLsbD i = false) ∧ (s.dev.slotRequest s.clk func i = q) ∧ (q.refuse = none)) ∧
    (∃ (s : State) (func mask i : Nat), (s.dev.onLink func = true) ∧ (func < 16) ∧ (i < 16) ∧ (mask = 2 ^ i) ∧ (s.dev.host.waiting = []) ∧ ((s.dev.func func).owned.getLsbD i = true)) ∧
    (∃ (s : State) (func value : Nat), (s.dev.onLink func = true) ∧ (s.dev.mgmt.svc = true) ∧ (func < 16) ∧ ((s.dev.func func).held = []) ∧ ((s.dev.func func).lostRun = 0)) ∧
    (∃ (s : State) (func value : Nat), (s.dev.onLink func = true) ∧ (s.dev.mgmt.svc = true) ∧ (func = 0)) ∧
    (∃ (s : State) (func : Nat), (s.dev.onLink func = true) ∧ (s.dev.mgmt.svc = true) ∧ ((s.dev.func func).snapBusy = none)) ∧
    (∃ (s : State) (func : Nat) (x : Nat × Nat × Nat × Nat), ((s.dev.func func).snapBusy = some x)) ∧
    (∃ (s : State) (func bar off len : Nat), (s.dev.onLink func = true) ∧ (bar = 0) ∧ (off = 0x1004) ∧ (len = 4) ∧ (func < 16) ∧ (s.dev.mgmt.svc = true)) ∧
    (∃ (s : State) (func bar off : Nat) (data : List Byte) (ep : Bool), (s.dev.onLink func = true) ∧ (bar = 0) ∧ (off + data.length ≤ 4096) ∧ (data ≠ []) ∧ (ep = false) ∧ (func < 16) ∧ (s.dev.mgmt.svc = true) ∧ ((s.dev.func func).owned = 0)) ∧
    (∃ (s : State) (kind idx priv addr v : Nat) (data : List Byte), (requesterOf kind idx priv = .pcie 0) ∧ (addr = 0x0300700024) ∧ (data = le 4 v)) ∧
    (∃ (s : State) (kind idx priv addr len : Nat), (requesterOf kind idx priv = .pcie 0) ∧ (addr = 0x0300700028) ∧ (len = 4)) :=
  ⟨⟨onDevice ({ stReady.dev with host := { stReady.dev.host with mb := writeBytes [] 512 (le 2 0x0102) } }), 0, 4, 2, { slot0 0x0102 with slot := 2, tag := 0 }, by decide +kernel⟩,
   ⟨onDevice ({ stReady.dev with host := { stReady.dev.host with funcs := [(0, { owned := 4 })] } }), 0, 4, 2, by decide +kernel⟩,
   ⟨stReady, 0, 9, by decide +kernel⟩,
   ⟨stReady, 0, 5, by decide +kernel⟩,
   ⟨stReady, 0, by decide +kernel⟩,
   ⟨onDevice ({ stReady.dev with host := { stReady.dev.host with funcs := [(0, { snapBusy := some (315964819, 5, 0, 2) })] } }), 0, (315964819, 5, 0, 2), by decide +kernel⟩,
   ⟨stReady, 0, 0, 0x1004, 4, by decide +kernel⟩,
   ⟨stReady, 0, 0, 7, [5, 6], false, by decide +kernel⟩,
   ⟨stReady, 3, 0, 0, 0x0300700024, 9, le 4 9, by decide +kernel⟩,
   ⟨onDevice ({ stReady.dev with mgmt := { stReady.dev.mgmt with logLost := 3 }, cyc := { rc := [(0x700028, 2)] } }), 3, 0, 0, 0x0300700028, 4, by decide +kernel⟩⟩

/-- Each clause of LinkResetsAndConfiguration has a state and operands that meet its hypotheses. -/
theorem wit_LinkResetsAndConfiguration :
    (∃ (s : State) (func : Nat), (s.dev.onLink func = true) ∧ (func ≠ 0)) ∧
    (∃ (s : State) (port : Nat), (port = 0)) ∧
    (∃ (s : State) (port : Nat), (port = 0)) ∧
    (∃ (s : State) (port : Nat), (port = 0) ∧ (s.dev.startup.phase = .service) ∧ (s.dev.host.perst.2 = true) ∧ (s.dev.host.linkUp.1 = false)) ∧
    (∃ (s : State) (func : Nat) (write : Bool) (field value : Nat), (func = 0) ∧ (write = true) ∧ (field = 1) ∧ (bit value 0 = true) ∧ (s.dev.host.linkUp.1 = true) ∧ (s.dev.startup.cfgOk = true)) ∧
    (∃ (s : State) (func : Nat) (write : Bool) (field value : Nat), (func = 0) ∧ (s.dev.host.linkUp.1 = true) ∧ (s.dev.startup.cfgOk = false)) :=
  ⟨⟨onDevice ({ stReady.dev with host := { stReady.dev.host with vfEnable := true, funcs := [(1, { ringAddr := 4096, ringLog := 6 }), (2, { ringAddr := 8192, owned := 3 })] } }), 2, by decide +kernel⟩,
   ⟨onDevice ({ stReady.dev with host := { stReady.dev.host with vfEnable := true, bar2Win := 3, funcs := [(1, { ringAddr := 4096, ringLog := 6 }), (2, { ringAddr := 8192, owned := 3 })] } }), 0, by decide +kernel⟩,
   ⟨stReady, 0, by decide +kernel⟩,
   ⟨onDevice ({ stReady.dev with host := { stReady.dev.host with perst := (true, true), linkUp := (false, false) } }), 0, by decide +kernel⟩,
   ⟨stReady, 0, true, 1, 1, by decide +kernel⟩,
   ⟨onDevice ({ stReady.dev with startup := { stReady.dev.startup with cfgOk := false } }), 0, true, 1, 1, by decide +kernel⟩⟩

/-- Each clause of VectorsAndQueues has a state and operands that meet its hypotheses. -/
theorem wit_VectorsAndQueues :
    (∃ (s : State) (func vector : Nat), (s.dev.onLink func = true) ∧ (s.dev.mgmt.svc = true) ∧ (vector < s.dev.vectorsOf func) ∧ ((tget {} (s.dev.func func).vect vector).masked = true) ∧ ((tget {} (s.dev.func func).vect vector).pba = true)) ∧
    (∃ (s : State) (func vector : Nat) (x : Vect), (tget {} (s.dev.func func).vect vector = x) ∧ (x.masked = false) ∧ (x.causes ≠ 0) ∧ (x.time * 196608 ≤ (s.clk.atc - x.first) * 100)) ∧
    (∃ (s : State) (r : Req) (w : Waiting) (addr log : Nat), (Waits s r 0x0110 w) ∧ (addr % 4096 = 0) ∧ (addr ≠ 0) ∧ (6 ≤ log ∧ log ≤ 16) ∧ ((s.dev.func w.func).ringAddr = 0)) ∧
    (∃ (s : State) (r : Req) (w : Waiting) (addr log : Nat), (Waits s r 0x0110 w) ∧ (addr = 0)) ∧
    (∃ (s : State) (r : Req) (w : Waiting) (counts : List Nat), (Waits s r 0x0111 w) ∧ (vectorsFault s.dev.host.twoX8 counts = none) ∧ (s.dev.host.vfEnable = false)) ∧
    (∃ (s : State) (r : Req) (w : Waiting) (vector count time : Nat), (Waits s r 0x0112 w) ∧ (vector < s.dev.vectorsOf w.func) ∧ (count ≠ 0) ∧ ((tget {} (s.dev.func w.func).vect vector).causes = 0)) ∧
    (∃ (s : State) (r : Req) (w : Waiting) (owners : List Nat) (q : Nat), (Waits s r 0x0113 w) ∧ (q < 64) ∧ (∀ i ∈ List.range 64, owners.getD i 0 % 256 < 16 ∨ owners.getD i 0 % 256 = 0xFF) ∧ (∀ i ∈ List.range 64, owners.getD i 0 / 256 = 0) ∧ (∀ i ∈ List.range 64, (s.dev.chan (512 + i)).dis = .off)) ∧
    (∃ (s : State) (r : Req) (w : Waiting) (queue addr entries dir vector noSnoop n k : Nat), (Waits s r 0x0114 w) ∧ (Fits w 1) ∧ ((s.dev.localQueues w.func)[queue]? = some n) ∧ (ringLog? entries = some k) ∧ (dir ≤ 1) ∧ (2 ≤ vector) ∧ (vector < s.dev.vectorsOf (if tget 0 s.dev.host.qPort (n - 512) = 1 then 16 else w.func)) ∧ (noSnoop ≤ 1) ∧ ((s.dev.chan n).dis = .off ∨ (s.dev.chan n).dis = .disabled)) ∧
    (∃ (s : State) (r : Req) (w : Waiting), (Waits s r 0x0115 w) ∧ (Fits w 20)) :=
  ⟨⟨onDevice ({ stReady.dev with host := { stReady.dev.host with funcs := [(0, { vect := [(3, { masked := true, pba := true })] })] } }), 0, 3, by decide +kernel⟩,
   ⟨{ clk := { atc := 1966080, run := true }, dev := { stReady.dev with host := { stReady.dev.host with funcs := [(0, { vect := [(3, { masked := false, causes := 2, count := 4, time := 10, first := 0 })] })] } } }, 0, 3, { masked := false, causes := 2, count := 4, time := 10, first := 0 }, by decide +kernel⟩,
   ⟨slotSt 0x0110 stReady.dev, ⟨0, 0⟩, slot0 0x0110, 8192, 6, by decide +kernel⟩,
   ⟨slotSt 0x0110 stReady.dev, ⟨0, 0⟩, slot0 0x0110, 0, 0, by decide +kernel⟩,
   ⟨slotSt 0x0111 stReady.dev, ⟨0, 0⟩, slot0 0x0111, [64, 32, 32, 8] ++ List.replicate 12 2 ++ [0], by decide +kernel⟩,
   ⟨slotSt 0x0112 stReady.dev, ⟨0, 0⟩, slot0 0x0112, 5, 3, 100, by decide +kernel⟩,
   ⟨slotSt 0x0113 stReady.dev, ⟨0, 0⟩, slot0 0x0113, 3 :: List.replicate 63 0xFF, 0, by decide +kernel⟩,
   ⟨slotSt 0x0114 ({ stReady.dev with host := { stReady.dev.host with qOwner := [(0, 0)] } }), ⟨0, 0⟩, slot0 0x0114, 0, 4096, 16, 1, 5, 1, 512, 4, by decide +kernel⟩,
   ⟨slotSt 0x0115 stReady.dev, ⟨0, 0⟩, slot0 0x0115, by decide +kernel⟩⟩

/-- Each clause of CadenceEntries has a state and operands that meet its hypotheses. -/
theorem wit_CadenceEntries :
    (∃ (s : State), (s.clk.run = true) ∧ (s.dev.air.firing s.clk.atc = [])) ∧
    (∃ (s : State) (found i core : Nat) (e : CadEntry) (es : List (Nat × CadEntry)), (s.dev.air.firing s.clk.atc = (i, e) :: es) ∧ (found = 0) ∧ (s.dev.mem.ecc = []) ∧ (e.action = 2) ∧ (e.period = 0) ∧ (e.flags = 0) ∧ (e.target = core) ∧ (core < 1024) ∧ (s.dev.awake (core / 64) = true)) ∧
    (∃ (s : State) (found i core : Nat) (e : CadEntry) (es : List (Nat × CadEntry)), (s.dev.air.firing s.clk.atc = (i, e) :: es) ∧ (found = 0) ∧ (s.dev.mem.ecc = []) ∧ (e.action = 2) ∧ (e.period ≠ 0) ∧ (e.count = 0) ∧ (e.lateAt = 0) ∧ (e.flags = 0) ∧ (e.target = core) ∧ (core < 1024) ∧ (s.dev.awake (core / 64) = true)) ∧
    (∃ (s : State) (r : Req) (w : Waiting) (trigger period count action flags target arg i : Nat), (Waits s r 0x0210 w) ∧ (Fits w 3) ∧ (period = 0 ∨ 256 ≤ period) ∧ (action = 2) ∧ (flags < 8) ∧ (target < 1024) ∧ (s.clk.atc + 3932 < trigger) ∧ (s.dev.freeCad = some i)) ∧
    (∃ (s : State) (r : Req) (w : Waiting) (trigger period count action flags target arg : Nat), (Waits s r 0x0210 w) ∧ (Fits w 3) ∧ (period = 0 ∨ 256 ≤ period) ∧ (action = 2) ∧ (flags < 8) ∧ (bit flags 0 = false) ∧ (target < 1024) ∧ (trigger ≤ s.clk.atc + 3932)) ∧
    (∃ (s : State) (r : Req) (w : Waiting) (index : Nat) (e : CadEntry), (Waits s r 0x0211 w) ∧ (Fits w 1) ∧ (tfind s.dev.air.cad index = some e) ∧ (∀ f ∈ s.dev.air.firing s.clk.atc, f.1 ≠ index)) ∧
    (∃ (s : State) (r : Req) (w : Waiting) (index : Nat), (Waits s r 0x0211 w) ∧ (Fits w 1) ∧ (tfind s.dev.air.cad index = none)) ∧
    (∃ (s : State) (r : Req) (w : Waiting) (port owner pool : Nat), (Waits s r 0x0212 w) ∧ (4 ≤ port ∧ port < 64) ∧ (owner = 1) ∧ (pool < 64) ∧ ((s.dev.postPort port).done = true)) ∧
    (∃ (s : State) (port who i : Nat) (q : PostPort), (s.dev.postPort port = q) ∧ (4 ≤ port) ∧ (q.owner = 0) ∧ (who = 1024) ∧ (q.done = true) ∧ (q.action = 2) ∧ (q.target < 1024) ∧ (q.flags < 8) ∧ (q.period = 0) ∧ (s.clk.atc + 3932 < q.trigger) ∧ (s.dev.freeCad = some i)) ∧
    (∃ (s : State) (port who : Nat) (q : PostPort), (s.dev.postPort port = q) ∧ (4 ≤ port) ∧ (q.owner = 0) ∧ (who = 1024) ∧ (q.done = true) ∧ (tfind s.dev.air.cad q.index = none)) ∧
    (∃ (s : State) (requester : Nat), (True)) :=
  ⟨⟨stReady, by decide +kernel⟩,
   ⟨onDevice ({ stReady.dev with air := { cad := [(4, { trigger := 0, period := 0, count := 0, action := 2, flags := 0, target := 70, arg := 6 })] } }), 0, 4, 70, { trigger := 0, period := 0, count := 0, action := 2, flags := 0, target := 70, arg := 6 }, [], by decide +kernel⟩,
   ⟨onDevice ({ stReady.dev with air := { cad := [(4, { trigger := 0, period := 512, count := 0, action := 2, flags := 0, target := 70, arg := 6 })] } }), 0, 4, 70, { trigger := 0, period := 512, count := 0, action := 2, flags := 0, target := 70, arg := 6 }, [], by decide +kernel⟩,
   ⟨slotSt 0x0210 stReady.dev, ⟨0, 0⟩, slot0 0x0210, 5000, 0, 0, 2, 0, 3, 1, 0, by decide +kernel⟩,
   ⟨slotSt 0x0210 stReady.dev, ⟨0, 0⟩, slot0 0x0210, 3932, 0, 0, 2, 0, 3, 1, by decide +kernel⟩,
   ⟨slotSt 0x0211 ({ stReady.dev with air := { cad := [(4, { trigger := 99, period := 0, count := 0, action := 2, flags := 0, target := 70, arg := 6 })] } }), ⟨0, 0⟩, slot0 0x0211, 4, { trigger := 99, period := 0, count := 0, action := 2, flags := 0, target := 70, arg := 6 }, by decide +kernel⟩,
   ⟨slotSt 0x0211 stReady.dev, ⟨0, 0⟩, slot0 0x0211, 9000, by decide +kernel⟩,
   ⟨slotSt 0x0212 stReady.dev, ⟨0, 0⟩, slot0 0x0212, 4, 1, 9, by decide +kernel⟩,
   ⟨onDevice ({ stReady.dev with air := { ports := [(5, { owner := 0, action := 2, target := 7, trigger := 5000 })] } }), 5, 1024, 0, { owner := 0, action := 2, target := 7, trigger := 5000 }, by decide +kernel⟩,
   ⟨onDevice ({ stReady.dev with air := { ports := [(5, { owner := 0, action := 2, target := 7, trigger := 5000 })] } }), 5, 1024, { owner := 0, action := 2, target := 7, trigger := 5000 }, by decide +kernel⟩,
   ⟨stReady, 9, by decide +kernel⟩⟩

/-- Each clause of CarriersAndPlans has a state and operands that meet its hypotheses. -/
theorem wit_CarriersAndPlans :
    (∃ (s : State) (r : Req) (w : Waiting) (carrier std bw mu cp off hostCar i : Nat), (Waits s r 0x0201 w) ∧ (carrier < 512) ∧ (s.dev.carrierFault w.func std bw mu cp off hostCar = none) ∧ (std < 3) ∧ (s.dev.carrier carrier = none) ∧ (s.dev.air.carriers.length < 512) ∧ (s.dev.freeCad = some i)) ∧
    (∃ (s : State) (r : Req) (w : Waiting) (carrier : Nat) (k : Carrier), (Waits s r 0x0202 w) ∧ (s.dev.carrier carrier = some k) ∧ (Sees w.func k.owner) ∧ (s.dev.hasPlans carrier = false) ∧ (s.dev.fe.streams = []) ∧ (∀ e ∈ s.dev.air.carriers, e.2.std < 3)) ∧
    (∃ (s : State) (r : Req) (w : Waiting) (carrier : Nat), (Waits s r 0x0203 w) ∧ (Fits w 26) ∧ (carrier = 0xFFFF)) ∧
    (∃ (s : State) (r : Req) (w : Waiting) (cls inst value : Nat) (y : Stream), (Waits s r 0x0220 w) ∧ (Fits w 10) ∧ (cls = 1 ∨ cls = 2) ∧ (inst < 2048) ∧ (s.dev.stream inst = some y) ∧ (Sees w.func y.owner) ∧ (value ≤ 1) ∧ ((s.dev.shadow cls inst).next = []) ∧ (s.dev.air.cad = [])) ∧
    (∃ (s : State) (r : Req) (w : Waiting) (cls inst : Nat) (y : Stream), (Waits s r 0x0221 w) ∧ (Fits w 15) ∧ (cls = 1 ∨ cls = 2) ∧ (inst < 2048) ∧ (s.dev.stream inst = some y) ∧ (Sees w.func y.owner)) ∧
    (∃ (s : State) (r : Req) (w : Waiting) (carrier sfn slot flags count override : Nat) (records : List Byte) (times threads further : List Nat) (k : Carrier) (f : Nat) (js : List PlanJob), (Waits s r 0x0230 w) ∧ (s.dev.carrier carrier = some k) ∧ (Sees w.func k.owner) ∧ (sfn < 1024) ∧ (k.frameOf s.clk.atc sfn = f) ∧ (slot < k.slotsFrame) ∧ (f * k.slotsFrame + slot ≤ (k.place s.clk.atc).1 * k.slotsFrame + (k.place s.clk.atc).2.1 + 32) ∧ (flags = 0) ∧ (count ≠ 0 ∧ count ≤ 4096) ∧ (recordFault (k.std = 1) count 16 records = none) ∧ (s.dev.devmode.mode.air = true) ∧ (s.dev.sourceOf carrier = 0) ∧ (s.dev.afterDrain (k.slotStart f ((slot : Int) + 1)) = false) ∧ (∀ q ∈ s.dev.air.plans, ¬(q.carrier = carrier ∧ q.frame = f ∧ q.slot = slot)) ∧ ((w.rung : Int) ≤ k.slotStart f ((slot : Int) - 2)) ∧ (js = recordJobs times count records ++ further.map furtherJob) ∧ (s.dev.admission s.clk.atc (s.dev.planCharges s.clk.atc override threads js) = stOK)) ∧
    (∃ (s : State) (r : Req) (w : Waiting) (carrier frame slot : Nat) (k : Carrier) (q : Plan), (Waits s r 0x0231 w) ∧ (s.dev.carrier carrier = some k) ∧ (Sees w.func k.owner) ∧ (slot < k.slotsFrame) ∧ (s.dev.air.plans = [q]) ∧ (q.carrier = carrier ∧ q.frame % 2 ^ 32 = frame ∧ q.slot = slot) ∧ ((w.rung : Int) ≤ k.slotStart q.frame ((slot : Int) - 2))) ∧
    (∃ (s : State) (carrier : Nat) (k : Carrier) (f slot : Nat), (s.dev.carrier carrier = some k) ∧ (s.dev.devmode.mode = .hub) ∧ (s.dev.devmode.pend = none) ∧ (k.place s.clk.atc = (f, slot, 0)) ∧ (k.nextSlot ≤ f * k.slotsFrame + slot) ∧ (k.off ≤ s.clk.atc) ∧ (k.stopped = false ∧ k.stopAt = none) ∧ (s.dev.air.plans = []) ∧ (s.dev.devmode.drainedAt = none) ∧ (s.dev.mgmt.limp = false)) ∧
    (∃ (s : State), (True)) :=
  ⟨⟨slotSt 0x0201 stReady.dev, ⟨0, 0⟩, slot0 0x0201, 2, 1, 1000, 1, 0, 100, 0xFFFF, 0, by decide +kernel⟩,
   ⟨slotSt 0x0202 ({ stReady.dev with air := { carriers := [(1, stCarrier)] } }), ⟨0, 0⟩, slot0 0x0202, 1, stCarrier, by decide +kernel⟩,
   ⟨slotSt 0x0203 stReady.dev, ⟨0, 0⟩, slot0 0x0203, 0xFFFF, by decide +kernel⟩,
   ⟨slotSt 0x0220 ({ stReady.dev with fe := { streams := [(3, stStream)] } }), ⟨0, 0⟩, slot0 0x0220, 1, 3, 1, stStream, by decide +kernel⟩,
   ⟨slotSt 0x0221 ({ stReady.dev with fe := { streams := [(3, stStream)] } }), ⟨0, 0⟩, slot0 0x0221, 2, 3, stStream, by decide +kernel⟩,
   ⟨slotSt 0x0230 ({ stReady.dev with devmode := { mode := .hub }, air := { carriers := [(1, stCarrier)] } }), ⟨0, 0⟩, slot0 0x0230, 1, 0, 5, 0, 1, 0, [0x11, 2, 104, 0, 0, 0, 0, 0] ++ List.replicate 96 0, [], [], [], stCarrier, 0, [], by decide +kernel⟩,
   ⟨slotSt 0x0231 ({ stReady.dev with air := { carriers := [(1, stCarrier)], plans := [{ carrier := 1, frame := 0, slot := 5, charges := [] }] } }), ⟨0, 0⟩, slot0 0x0231, 1, 0, 5, stCarrier, { carrier := 1, frame := 0, slot := 5, charges := [] }, by decide +kernel⟩,
   ⟨onDevice ({ stReady.dev with devmode := { mode := .hub }, air := { carriers := [(1, stCarrier)] } }), 1, stCarrier, 0, 0, by decide +kernel⟩,
   ⟨stReady, by decide +kernel⟩⟩

/-- Each clause of ScalarSlotX has a state and operands that meet its hypotheses. -/
theorem wit_ScalarSlotX :
    (∃ (s : State) (b : BCtx) (k : Core) (g : Guard) (slot : Nat), (Rests s b k) ∧ (Alone b)) ∧
    (∃ (s : State) (b : BCtx) (k : Core) (g : Guard) (d a c sub : Nat), (Rests s b k) ∧ (Alone b) ∧ (k.guard g = true) ∧ (sub = 0)) ∧
    (∃ (s : State) (b : BCtx) (k : Core) (g : Guard) (d a c sub : Nat), (Rests s b k) ∧ (Alone b) ∧ (k.guard g = false)) ∧
    (∃ (s : State) (b : BCtx) (k : Core) (g : Guard) (d a c sub : Nat), (Rests s b k) ∧ (Alone b) ∧ (k.guard g = true) ∧ (sub = 1)) ∧
    (∃ (s : State) (b : BCtx) (k : Core) (g : Guard) (d a c sub : Nat), (Rests s b k) ∧ (Alone b) ∧ (k.guard g = true) ∧ (sub = 0)) ∧
    (∃ (s : State) (b : BCtx) (k : Core) (g : Guard) (d a c sub : Nat), (Rests s b k) ∧ (Alone b) ∧ (k.guard g = true) ∧ (sub = 0)) ∧
    (∃ (s : State) (b : BCtx) (k : Core) (g : Guard) (d a c sub : Nat), (Rests s b k) ∧ (Alone b) ∧ (k.guard g = true) ∧ (sub = 0)) ∧
    (∃ (s : State) (b : BCtx) (k : Core) (g : Guard) (d a c sub : Nat), (Rests s b k) ∧ (Alone b) ∧ (k.guard g = true) ∧ (sub ≤ 1)) ∧
    (∃ (s : State) (b : BCtx) (k : Core) (g : Guard) (d a c sub : Nat), (Rests s b k) ∧ (Alone b) ∧ (k.guard g = true) ∧ (sub ≤ 2)) ∧
    (∃ (s : State) (b : BCtx) (k : Core) (g : Guard) (d a imm : Nat), (Rests s b k) ∧ (Alone b) ∧ (k.guard g = true)) ∧
    (∃ (s : State) (b : BCtx) (k : Core) (g : Guard) (d imm : Nat), (Rests s b k) ∧ (Alone b) ∧ (k.guard g = true)) ∧
    (∃ (s : State) (b : BCtx) (k : Core) (g : Guard) (d : Nat), (Rests s b k) ∧ (AloneMovl b) ∧ (k.guard g = true)) ∧
    (∃ (s : State) (b : BCtx) (k : Core) (g : Guard) (qd cond a c : Nat), (Rests s b k) ∧ (Alone b) ∧ (k.guard g = true) ∧ (cond < 8)) ∧
    (∃ (s : State) (b : BCtx) (k : Core) (g : Guard) (d a c sub : Nat), (Rests s b k) ∧ (Alone b) ∧ (k.guard g = true) ∧ (d % 2 = 0) ∧ (sub ≤ 1)) ∧
    (∃ (s : State) (b : BCtx) (k : Core) (g : Guard) (d a c sub : Nat), (Rests s b k) ∧ (Alone b) ∧ (k.guard g = true) ∧ (d % 2 = 0) ∧ (sub ≤ 1)) ∧
    (∃ (s : State) (b : BCtx) (k : Core) (g : Guard) (annul : Bool) (off : Nat), (Rests s b k) ∧ (Alone b) ∧ (k.guard g = true)) ∧
    (∃ (s : State) (b : BCtx) (k : Core) (g : Guard) (annul : Bool) (off : Nat), (Rests s b k) ∧ (Alone b) ∧ (k.guard g = true)) ∧
    (∃ (s : State) (b : BCtx) (k : Core) (g : Guard) (annul : Bool) (a : Nat), (Rests s b k) ∧ (Alone b) ∧ (k.guard g = true)) ∧
    (∃ (s : State) (b : BCtx) (k : Core) (g : Guard) (len : Nat) (rot : Bool) (stg : Nat) (ci : Bool) (cnt : Nat), (Rests s b k) ∧ (Alone b) ∧ (k.guard g = true) ∧ (rot = false) ∧ (ci = true) ∧ (cnt ≠ 0) ∧ (cnt ≤ k.repmax)) ∧
    (∃ (s : State) (b : BCtx) (k : Core) (g : Guard), (Rests s b k) ∧ (Alone b) ∧ (k.guard g = true)) ∧
    (∃ (s : State) (b : BCtx) (k : Core) (g : Guard), (Rests s b k) ∧ (Alone b) ∧ (k.guard g = true)) ∧
    (∃ (s : State) (b : BCtx) (k : Core) (g : Guard), (Rests s b k) ∧ (Alone b) ∧ (k.guard g = true) ∧ (sclAuto k.scl = true)) ∧
    (∃ (s : State) (b : BCtx) (k : Core) (g : Guard), (Rests s b k) ∧ (Alone b) ∧ (k.guard g = true) ∧ (k.evpend &&& k.evmask = 0) ∧ (s.dev.preReq b.core = false)) :=
  ⟨⟨coreSt (stCore), bctx, stCore, {}, 0, by decide +kernel⟩,
   ⟨coreSt (stCore), bctx, stCore, {}, 5, 6, 7, 0, by decide +kernel⟩,
   ⟨coreSt (stCore), bctx, stCore, { qg := 0, qn := true }, 5, 6, 7, 0, by decide +kernel⟩,
   ⟨coreSt (stCore), bctx, stCore, {}, 5, 6, 7, 1, by decide +kernel⟩,
   ⟨coreSt (stCore), bctx, stCore, {}, 5, 6, 7, 0, by decide +kernel⟩,
   ⟨coreSt (stCore), bctx, stCore, {}, 5, 6, 7, 0, by decide +kernel⟩,
   ⟨coreSt (stCore), bctx, stCore, {}, 5, 6, 7, 0, by decide +kernel⟩,
   ⟨coreSt (stCore), bctx, stCore, {}, 5, 6, 7, 1, by decide +kernel⟩,
   ⟨coreSt (stCore), bctx, stCore, {}, 5, 6, 7, 2, by decide +kernel⟩,
   ⟨coreSt (stCore), bctx, stCore, {}, 5, 6, 255, by decide +kernel⟩,
   ⟨coreSt (stCore), bctx, stCore, {}, 5, 9, by decide +kernel⟩,
   ⟨coreSt (stCore), { bctx with l1 := 0x12345678 }, stCore, {}, 5, by decide +kernel⟩,
   ⟨coreSt (stCore), bctx, stCore, {}, 1, 2, 6, 7, by decide +kernel⟩,
   ⟨coreSt (stCore), bctx, stCore, {}, 4, 6, 7, 1, by decide +kernel⟩,
   ⟨coreSt (stCore), bctx, stCore, {}, 4, 6, 7, 1, by decide +kernel⟩,
   ⟨coreSt (stCore), bctx, stCore, {}, true, 3, by decide +kernel⟩,
   ⟨coreSt (stCore), bctx, stCore, {}, true, 3, by decide +kernel⟩,
   ⟨coreSt (stCore), bctx, stCore, {}, true, 3, by decide +kernel⟩,
   ⟨coreSt (stCore), bctx, stCore, {}, 2, false, 1, true, 10, by decide +kernel⟩,
   ⟨coreSt (stCore), bctx, stCore, {}, by decide +kernel⟩,
   ⟨coreSt (stCore), bctx, stCore, {}, by decide +kernel⟩,
   ⟨coreSt ({ stCore with scl := sclSetGrow (sclWrite 0xFFFFFFFF) true }), bctx, { stCore with scl := sclSetGrow (sclWrite 0xFFFFFFFF) true }, {}, by decide +kernel⟩,
   ⟨coreSt (stCore), bctx, stCore, {}, by decide +kernel⟩⟩

/-- Each clause of ControlRegistersAndTraps has a state and operands that meet its hypotheses. -/
theorem wit_ControlRegistersAndTraps :
    (∃ (s : State) (b : BCtx) (k : Core) (g : Guard) (reg addr rd : Nat) (wr : Option Nat), (Rests s b k) ∧ (Alone b) ∧ (k.guard g = true) ∧ (csrPerm addr = some (rd, wr)) ∧ (rd ≤ k.priv) ∧ (¬(0x090 ≤ addr ∧ addr ≤ 0x094)) ∧ (addr ≠ 0x0C1 ∧ addr ≠ 0x0C2 ∧ addr ≠ 0x082 ∧ addr ≠ 0x0C3)) ∧
    (∃ (s : State) (b : BCtx) (k : Core) (g : Guard) (reg addr rd w : Nat), (Rests s b k) ∧ (Alone b) ∧ (k.guard g = true) ∧ (csrPerm addr = some (rd, some w)) ∧ (w ≤ k.priv) ∧ (¬(0x090 ≤ addr ∧ addr ≤ 0x094))) ∧
    (∃ (s : State) (b : BCtx) (k : Core) (g : Guard) (reg addr rd w : Nat), (Rests s b k) ∧ (Alone b) ∧ (k.guard g = true) ∧ (csrPerm addr = some (rd, some w)) ∧ (w ≤ k.priv) ∧ (¬(0x090 ≤ addr ∧ addr ≤ 0x094))) ∧
    (∃ (s : State) (b : BCtx) (k : Core) (g : Guard) (reg addr rd w : Nat), (Rests s b k) ∧ (Alone b) ∧ (k.guard g = true) ∧ (csrPerm addr = some (rd, some w)) ∧ (w ≤ k.priv) ∧ (¬(0x090 ≤ addr ∧ addr ≤ 0x094))) ∧
    (∃ (s : State) (b : BCtx) (k : Core) (g : Guard) (reg addr rd w : Nat), (Rests s b k) ∧ (Alone b) ∧ (k.guard g = true) ∧ (csrPerm addr = some (rd, some w)) ∧ (k.priv < w) ∧ (¬(0x090 ≤ addr ∧ addr ≤ 0x094))) ∧
    (∃ (s : State) (b : BCtx) (k : Core) (g : Guard) (slot : Nat), (s.dev.core b.core = k) ∧ (s.dev.canRun b.core = true) ∧ (k.stalled = none) ∧ (k.fly = []) ∧ (k.vop = none) ∧ (b.parity = true)) ∧
    (∃ (s : State) (b : BCtx) (k : Core) (g : Guard) (code : Nat), (Rests s b k) ∧ (Alone b) ∧ (k.guard g = true) ∧ (k.priv = 2 → k.te = true)) ∧
    (∃ (s : State) (b : BCtx) (k : Core) (g : Guard), (Rests s b k) ∧ (Alone b) ∧ (k.guard g = true) ∧ (k.priv = 2 → k.te = true)) ∧
    (∃ (s : State) (b : BCtx) (k : Core) (g : Guard), (Rests s b k) ∧ (Alone b) ∧ (k.guard g = true) ∧ (k.priv = 1) ∧ (k.k.status.toNat % 4 ≤ 1) ∧ (k.k.rep.cnt = 0) ∧ (bit k.k.dscCtl.toNat 2 = false)) :=
  ⟨⟨coreSt (stCore), bctx, stCore, {}, 5, 0x051, 1, some 1, by decide +kernel⟩,
   ⟨coreSt (stCore), bctx, stCore, {}, 5, 0x051, 1, 1, by decide +kernel⟩,
   ⟨coreSt (stCore), bctx, stCore, {}, 5, 0x051, 1, 1, by decide +kernel⟩,
   ⟨coreSt (stCore), bctx, stCore, {}, 5, 0x050, 0, 1, by decide +kernel⟩,
   ⟨coreSt ({ stCore with priv := 1 }), bctx, { stCore with priv := 1 }, {}, 5, 0x101, 2, 2, by decide +kernel⟩,
   ⟨coreSt stCore, { bctx with parity := true }, stCore, {}, 0, by decide +kernel⟩,
   ⟨coreSt (stCore), bctx, stCore, {}, 7, by decide +kernel⟩,
   ⟨coreSt (stCore), bctx, stCore, {}, by decide +kernel⟩,
   ⟨coreSt ({ stCore with priv := 1, k := { status := 4, epc := 0x200 } }), bctx, { stCore with priv := 1, k := { status := 4, epc := 0x200 } }, {}, by decide +kernel⟩⟩

/-- Each clause of ScalarMemoryAndAccumulators has a state and operands that meet its hypotheses. -/
theorem wit_ScalarMemoryAndAccumulators :
    (∃ (s : State) (b : BCtx) (k : Core) (g : Guard) (l1 : Bool) (d p m am : Nat) (sx : Bool), (Rests s b k) ∧ (Alone b) ∧ (k.guard g = true) ∧ (k.ea p m am % 1 = 0) ∧ (inLdm (k.ea p m am) 1 = true)) ∧
    (∃ (s : State) (b : BCtx) (k : Core) (g : Guard) (l1 : Bool) (d p m am : Nat) (sx : Bool), (Rests s b k) ∧ (Alone b) ∧ (k.guard g = true) ∧ (k.ea p m am % 2 = 0) ∧ (inLdm (k.ea p m am) 2 = true)) ∧
    (∃ (s : State) (b : BCtx) (k : Core) (g : Guard) (l1 : Bool) (d p m am : Nat) (sx : Bool), (Rests s b k) ∧ (Alone b) ∧ (k.guard g = true) ∧ (k.ea p m am % 4 = 0) ∧ (inLdm (k.ea p m am) 4 = true)) ∧
    (∃ (s : State) (b : BCtx) (k : Core) (g : Guard) (l1 : Bool) (d p m am : Nat) (sx : Bool), (Rests s b k) ∧ (Alone b) ∧ (k.guard g = true) ∧ (d % 2 = 0) ∧ (k.ea p m am % 8 = 0) ∧ (inLdm (k.ea p m am) 8 = true)) ∧
    (∃ (s : State) (b : BCtx) (k : Core) (g : Guard) (l1 : Bool) (d p m am : Nat), (Rests s b k) ∧ (Alone b) ∧ (k.guard g = true) ∧ (k.ea p m am % 1 = 0) ∧ (inLdm (k.ea p m am) 1 = true)) ∧
    (∃ (s : State) (b : BCtx) (k : Core) (g : Guard) (l1 : Bool) (d p m am : Nat), (Rests s b k) ∧ (Alone b) ∧ (k.guard g = true) ∧ (k.ea p m am % 2 = 0) ∧ (inLdm (k.ea p m am) 2 = true)) ∧
    (∃ (s : State) (b : BCtx) (k : Core) (g : Guard) (l1 : Bool) (d p m am : Nat), (Rests s b k) ∧ (Alone b) ∧ (k.guard g = true) ∧ (k.ea p m am % 4 = 0) ∧ (inLdm (k.ea p m am) 4 = true)) ∧
    (∃ (s : State) (b : BCtx) (k : Core) (g : Guard) (l1 : Bool) (d p m am : Nat), (Rests s b k) ∧ (Alone b) ∧ (k.guard g = true) ∧ (d % 2 = 0) ∧ (k.ea p m am % 8 = 0) ∧ (inLdm (k.ea p m am) 8 = true)) ∧
    (∃ (s : State) (b : BCtx) (k : Core) (g : Guard) (l1 : Bool) (d p disp : Nat), (Rests s b k) ∧ (Alone b) ∧ (k.guard g = true) ∧ (wrap48 (k.rp p + 4 * sgn 10 disp) % 4 = 0) ∧ (inLdm (wrap48 (k.rp p + 4 * sgn 10 disp)) 4 = true)) ∧
    (∃ (s : State) (b : BCtx) (k : Core) (g : Guard) (l1 : Bool) (d p disp : Nat), (Rests s b k) ∧ (Alone b) ∧ (k.guard g = true) ∧ (wrap48 (k.rp p + 4 * sgn 10 disp) % 4 = 0) ∧ (inLdm (wrap48 (k.rp p + 4 * sgn 10 disp)) 4 = true)) ∧
    (∃ (s : State) (b : BCtx) (k : Core) (g : Guard) (l1 : Bool) (pd pa a : Nat), (Rests s b k) ∧ (Alone b) ∧ (k.guard g = true)) ∧
    (∃ (s : State) (b : BCtx) (k : Core) (g : Guard) (l1 : Bool) (p m am : Nat), (Rests s b k) ∧ (Alone b) ∧ (k.guard g = true) ∧ (am ≠ 0)) ∧
    (∃ (s : State) (b : BCtx) (k : Core) (g : Guard) (l1 : Bool) (pd a : Nat), (Rests s b k) ∧ (Alone b) ∧ (k.guard g = true) ∧ (a % 2 = 0)) ∧
    (∃ (s : State) (b : BCtx) (k : Core) (g : Guard) (l1 : Bool) (d p : Nat), (Rests s b k) ∧ (Alone b) ∧ (k.guard g = true) ∧ (d % 2 = 0)) ∧
    (∃ (s : State) (b : BCtx) (k : Core) (g : Guard) (l1 : Bool) (md a : Nat), (Rests s b k) ∧ (Alone b) ∧ (k.guard g = true)) ∧
    (∃ (s : State) (b : BCtx) (k : Core) (g : Guard) (an a c sub : Nat), (Rests s b k) ∧ (Alone b) ∧ (k.guard g = true) ∧ (sub ≤ 2)) ∧
    (∃ (s : State) (b : BCtx) (k : Core) (g : Guard) (an a c sub : Nat), (Rests s b k) ∧ (Alone b) ∧ (k.guard g = true) ∧ (sub = 0)) ∧
    (∃ (s : State) (b : BCtx) (k : Core) (g : Guard) (d a c sub : Nat), (Rests s b k) ∧ (Alone b) ∧ (k.guard g = true) ∧ (sub ≤ 1)) ∧
    (∃ (s : State) (b : BCtx) (k : Core) (g : Guard) (d an form : Nat), (Rests s b k) ∧ (Alone b) ∧ (k.guard g = true) ∧ (form ≤ 2)) ∧
    (∃ (s : State) (b : BCtx) (k : Core) (g : Guard) (an : Nat), (Rests s b k) ∧ (Alone b) ∧ (k.guard g = true)) :=
  ⟨⟨coreSt ({ stCore with p := [(2, 64)], m := [(3, 4)] }), bctx, { stCore with p := [(2, 64)], m := [(3, 4)] }, {}, true, 5, 2, 3, 1, true, by decide +kernel⟩,
   ⟨coreSt ({ stCore with p := [(2, 64)], m := [(3, 4)] }), bctx, { stCore with p := [(2, 64)], m := [(3, 4)] }, {}, true, 5, 2, 3, 1, true, by decide +kernel⟩,
   ⟨coreSt ({ stCore with p := [(2, 64)], m := [(3, 4)] }), bctx, { stCore with p := [(2, 64)], m := [(3, 4)] }, {}, true, 5, 2, 3, 1, true, by decide +kernel⟩,
   ⟨coreSt ({ stCore with p := [(2, 64)], m := [(3, 8)] }), bctx, { stCore with p := [(2, 64)], m := [(3, 8)] }, {}, false, 6, 2, 3, 1, false, by decide +kernel⟩,
   ⟨coreSt ({ stCore with s := [(6, 0x1234)], p := [(2, 64)], m := [(3, 8)] }), bctx, { stCore with s := [(6, 0x1234)], p := [(2, 64)], m := [(3, 8)] }, {}, true, 6, 2, 3, 1, by decide +kernel⟩,
   ⟨coreSt ({ stCore with s := [(6, 0x1234)], p := [(2, 64)], m := [(3, 8)] }), bctx, { stCore with s := [(6, 0x1234)], p := [(2, 64)], m := [(3, 8)] }, {}, true, 6, 2, 3, 1, by decide +kernel⟩,
   ⟨coreSt ({ stCore with s := [(6, 0x1234)], p := [(2, 64)], m := [(3, 8)] }), bctx, { stCore with s := [(6, 0x1234)], p := [(2, 64)], m := [(3, 8)] }, {}, true, 6, 2, 3, 1, by decide +kernel⟩,
   ⟨coreSt ({ stCore with s := [(6, 0x1234)], p := [(2, 64)], m := [(3, 8)] }), bctx, { stCore with s := [(6, 0x1234)], p := [(2, 64)], m := [(3, 8)] }, {}, true, 6, 2, 3, 1, by decide +kernel⟩,
   ⟨coreSt ({ stCore with p := [(2, 64)] }), bctx, { stCore with p := [(2, 64)] }, {}, true, 5, 2, 1023, by decide +kernel⟩,
   ⟨coreSt ({ stCore with p := [(2, 64)], s := [(5, 77)] }), bctx, { stCore with p := [(2, 64)], s := [(5, 77)] }, {}, true, 5, 2, 1023, by decide +kernel⟩,
   ⟨coreSt (stCore), bctx, stCore, {}, false, 3, 4, 5, by decide +kernel⟩,
   ⟨coreSt (stCore), bctx, stCore, {}, false, 3, 4, 1, by decide +kernel⟩,
   ⟨coreSt (stCore), bctx, stCore, {}, false, 3, 4, by decide +kernel⟩,
   ⟨coreSt (stCore), bctx, stCore, {}, false, 4, 3, by decide +kernel⟩,
   ⟨coreSt (stCore), bctx, stCore, {}, false, 4, 3, by decide +kernel⟩,
   ⟨coreSt (stCore), bctx, stCore, {}, 1, 2, 3, 1, by decide +kernel⟩,
   ⟨coreSt (stCore), bctx, stCore, {}, 1, 2, 3, 0, by decide +kernel⟩,
   ⟨coreSt (stCore), bctx, stCore, {}, 1, 2, 3, 1, by decide +kernel⟩,
   ⟨coreSt (stCore), bctx, stCore, {}, 1, 2, 1, by decide +kernel⟩,
   ⟨coreSt (stCore), bctx, stCore, {}, 1, by decide +kernel⟩⟩

/-- Each clause of VectorArithmetic has a state and operands that meet its hypotheses. -/
theorem wit_VectorArithmetic :
    (∃ (s : State) (b : BCtx) (k : Core) (g : Guard) (d v a : Nat) (mk : Bool), (Rests s b k) ∧ (Alone b) ∧ (k.guard g = true)) ∧
    (∃ (s : State) (b : BCtx) (k : Core) (g : Guard) (vd : Nat) (va : Nat) (vb : Nat) (mk : Bool) (sub : Nat), (Rests s b k) ∧ (Alone b) ∧ (k.guard g = true) ∧ (bit k.imgFlags 0 = true) ∧ (k.vLegal (.vv .add vd va vb mk sub) = true)) ∧
    (∃ (s : State) (b : BCtx) (k : Core) (g : Guard) (vd : Nat) (va : Nat) (vb : Nat) (mk : Bool) (sub : Nat), (Rests s b k) ∧ (Alone b) ∧ (k.guard g = true) ∧ (bit k.imgFlags 0 = true) ∧ (k.vLegal (.vv .sub vd va vb mk sub) = true)) ∧
    (∃ (s : State) (b : BCtx) (k : Core) (g : Guard) (vd : Nat) (va : Nat) (rd : Nat) (mk : Bool) (sub : Nat), (Rests s b k) ∧ (Alone b) ∧ (k.guard g = true) ∧ (bit k.imgFlags 0 = true) ∧ (k.vLegal (.vs .adds vd va rd mk sub) = true)) ∧
    (∃ (s : State) (b : BCtx) (k : Core) (g : Guard) (vd : Nat) (va : Nat) (vb : Nat) (mk : Bool) (sub : Nat), (Rests s b k) ∧ (Alone b) ∧ (k.guard g = true) ∧ (bit k.imgFlags 0 = true) ∧ (k.vLegal (.vv .and vd va vb mk sub) = true)) ∧
    (∃ (s : State) (b : BCtx) (k : Core) (g : Guard) (vd : Nat) (va : Nat) (vb : Nat) (mk : Bool) (sub : Nat), (Rests s b k) ∧ (Alone b) ∧ (k.guard g = true) ∧ (bit k.imgFlags 0 = true) ∧ (k.vLegal (.vv .or vd va vb mk sub) = true)) ∧
    (∃ (s : State) (b : BCtx) (k : Core) (g : Guard) (vd : Nat) (va : Nat) (vb : Nat) (mk : Bool) (sub : Nat), (Rests s b k) ∧ (Alone b) ∧ (k.guard g = true) ∧ (bit k.imgFlags 0 = true) ∧ (k.vLegal (.vv .xor vd va vb mk sub) = true)) ∧
    (∃ (s : State) (b : BCtx) (k : Core) (g : Guard) (vd : Nat) (va : Nat) (rd : Nat) (mk : Bool) (sub : Nat), (Rests s b k) ∧ (Alone b) ∧ (k.guard g = true) ∧ (bit k.imgFlags 0 = true) ∧ (k.vLegal (.vs .shl vd va rd mk sub) = true)) ∧
    (∃ (s : State) (b : BCtx) (k : Core) (g : Guard) (vd : Nat) (va : Nat) (rd : Nat) (mk : Bool) (sub : Nat), (Rests s b k) ∧ (Alone b) ∧ (k.guard g = true) ∧ (bit k.imgFlags 0 = true) ∧ (k.vLegal (.vs .shr vd va rd mk sub) = true)) ∧
    (∃ (s : State) (b : BCtx) (k : Core) (g : Guard) (vd : Nat) (va : Nat) (vb : Nat) (mk : Bool) (sub : Nat), (Rests s b k) ∧ (Alone b) ∧ (k.guard g = true) ∧ (bit k.imgFlags 0 = true) ∧ (k.vLegal (.vv .min vd va vb mk sub) = true)) ∧
    (∃ (s : State) (b : BCtx) (k : Core) (g : Guard) (vd : Nat) (va : Nat) (vb : Nat) (mk : Bool) (sub : Nat), (Rests s b k) ∧ (Alone b) ∧ (k.guard g = true) ∧ (bit k.imgFlags 0 = true) ∧ (k.vLegal (.vv .max vd va vb mk sub) = true)) ∧
    (∃ (s : State) (b : BCtx) (k : Core) (g : Guard) (vd : Nat) (va : Nat) (vb : Nat) (mk : Bool) (sub : Nat), (Rests s b k) ∧ (Alone b) ∧ (k.guard g = true) ∧ (bit k.imgFlags 0 = true) ∧ (k.vLegal (.vv .abs vd va vb mk sub) = true)) ∧
    (∃ (s : State) (b : BCtx) (k : Core) (g : Guard) (vd : Nat) (va : Nat) (vb : Nat) (mk : Bool) (sub : Nat), (Rests s b k) ∧ (Alone b) ∧ (k.guard g = true) ∧ (bit k.imgFlags 0 = true) ∧ (k.vLegal (.vv .merge vd va vb mk sub) = true)) ∧
    (∃ (s : State) (b : BCtx) (k : Core) (g : Guard) (vd : Nat) (va : Nat) (vb : Nat) (mk : Bool) (sub : Nat), (Rests s b k) ∧ (Alone b) ∧ (k.guard g = true) ∧ (bit k.imgFlags 0 = true) ∧ (k.vLegal (.vv .conj vd va vb mk sub) = true)) ∧
    (∃ (s : State) (b : BCtx) (k : Core) (g : Guard) (vd : Nat) (va : Nat) (vb : Nat) (mk : Bool) (sub : Nat), (Rests s b k) ∧ (Alone b) ∧ (k.guard g = true) ∧ (bit k.imgFlags 0 = true) ∧ (k.vLegal (.vv .mul vd va vb mk sub) = true)) ∧
    (∃ (s : State) (b : BCtx) (k : Core) (g : Guard) (vd : Nat) (va : Nat) (rd : Nat) (mk : Bool) (sub : Nat), (Rests s b k) ∧ (Alone b) ∧ (k.guard g = true) ∧ (bit k.imgFlags 0 = true) ∧ (k.vLegal (.vs .muls vd va rd mk sub) = true)) ∧
    (∃ (s : State) (b : BCtx) (k : Core) (g : Guard) (vd : Nat) (va : Nat) (vb : Nat) (mk : Bool) (sub : Nat), (Rests s b k) ∧ (Alone b) ∧ (k.guard g = true) ∧ (bit k.imgFlags 0 = true) ∧ (k.vLegal (.vv .mac vd va vb mk sub) = true)) ∧
    (∃ (s : State) (b : BCtx) (k : Core) (g : Guard) (vd : Nat) (va : Nat) (vb : Nat) (mk : Bool) (sub : Nat), (Rests s b k) ∧ (Alone b) ∧ (k.guard g = true) ∧ (bit k.imgFlags 0 = true) ∧ (k.vLegal (.vv .wmac vd va vb mk sub) = true)) ∧
    (∃ (s : State) (b : BCtx) (k : Core) (g : Guard) (vd : Nat) (va : Nat) (vb : Nat) (mk : Bool) (sub : Nat), (Rests s b k) ∧ (Alone b) ∧ (k.guard g = true) ∧ (bit k.imgFlags 0 = true) ∧ (k.vLegal (.vv .mag2 vd va vb mk sub) = true)) ∧
    (∃ (s : State) (b : BCtx) (k : Core) (g : Guard) (vd : Nat) (va : Nat) (vb : Nat) (mk : Bool) (sub : Nat), (Rests s b k) ∧ (Alone b) ∧ (k.guard g = true) ∧ (bit k.imgFlags 0 = true) ∧ (k.vLegal (.vv .fadd vd va vb mk sub) = true)) ∧
    (∃ (s : State) (b : BCtx) (k : Core) (g : Guard) (vd : Nat) (va : Nat) (vb : Nat) (mk : Bool) (sub : Nat), (Rests s b k) ∧ (Alone b) ∧ (k.guard g = true) ∧ (bit k.imgFlags 0 = true) ∧ (k.vLegal (.vv .fsub vd va vb mk sub) = true)) ∧
    (∃ (s : State) (b : BCtx) (k : Core) (g : Guard) (vd : Nat) (va : Nat) (vb : Nat) (mk : Bool) (sub : Nat), (Rests s b k) ∧ (Alone b) ∧ (k.guard g = true) ∧ (bit k.imgFlags 0 = true) ∧ (k.vLegal (.vv .fmul vd va vb mk sub) = true)) ∧
    (∃ (s : State) (b : BCtx) (k : Core) (g : Guard) (vd : Nat) (va : Nat) (vb : Nat) (mk : Bool) (sub : Nat), (Rests s b k) ∧ (Alone b) ∧ (k.guard g = true) ∧ (bit k.imgFlags 0 = true) ∧ (k.vLegal (.vv .fma vd va vb mk sub) = true)) ∧
    (∃ (s : State) (b : BCtx) (k : Core) (g : Guard) (vd : Nat) (va : Nat) (vb : Nat) (mk : Bool) (sub : Nat), (Rests s b k) ∧ (Alone b) ∧ (k.guard g = true) ∧ (bit k.imgFlags 0 = true) ∧ (k.vLegal (.vv .cvt vd va vb mk sub) = true)) ∧
    (∃ (s : State) (b : BCtx) (k : Core) (g : Guard) (vd : Nat) (va : Nat) (vb : Nat) (mk : Bool) (sub : Nat), (Rests s b k) ∧ (Alone b) ∧ (k.guard g = true) ∧ (bit k.imgFlags 0 = true) ∧ (k.vLegal (.vv .cmp vd va vb mk sub) = true)) ∧
    (∃ (s : State) (b : BCtx) (k : Core) (g : Guard) (vd : Nat) (va : Nat) (rd : Nat) (mk : Bool) (sub : Nat), (Rests s b k) ∧ (Alone b) ∧ (k.guard g = true) ∧ (bit k.imgFlags 0 = true) ∧ (k.vLegal (.vs .slideup vd va rd mk sub) = true)) ∧
    (∃ (s : State) (b : BCtx) (k : Core) (g : Guard) (vd : Nat) (va : Nat) (rd : Nat) (mk : Bool) (sub : Nat), (Rests s b k) ∧ (Alone b) ∧ (k.guard g = true) ∧ (bit k.imgFlags 0 = true) ∧ (k.vLegal (.vs .slidedn vd va rd mk sub) = true)) ∧
    (∃ (s : State) (b : BCtx) (k : Core) (g : Guard) (vd : Nat) (va : Nat) (vb : Nat) (mk : Bool) (sub : Nat), (Rests s b k) ∧ (Alone b) ∧ (k.guard g = true) ∧ (bit k.imgFlags 0 = true) ∧ (k.vLegal (.vv .zip vd va vb mk sub) = true)) ∧
    (∃ (s : State) (b : BCtx) (k : Core) (g : Guard) (rd : Nat) (v : Nat) (s2 : Nat) (mk : Bool) (sub : Nat), (Rests s b k) ∧ (Alone b) ∧ (k.guard g = true) ∧ (bit k.imgFlags 0 = true) ∧ (k.vLegal (.vx .bcast rd v s2 mk sub) = true) ∧ (¬(k.vt = 4 ∧ rd = 63))) ∧
    (∃ (s : State) (b : BCtx) (k : Core) (g : Guard) (rd : Nat) (v : Nat) (s2 : Nat) (mk : Bool) (sub : Nat), (Rests s b k) ∧ (Alone b) ∧ (k.guard g = true) ∧ (bit k.imgFlags 0 = true) ∧ (k.vLegal (.vx .bcast rd v s2 mk sub) = true) ∧ (k.vt = 4 ∧ rd = 63)) ∧
    (∃ (s : State) (b : BCtx) (k : Core) (g : Guard) (rd : Nat) (v : Nat) (s2 : Nat) (mk : Bool) (sub : Nat), (Rests s b k) ∧ (Alone b) ∧ (k.guard g = true) ∧ (bit k.imgFlags 0 = true) ∧ (k.vLegal (.vx .ext rd v s2 mk sub) = true)) ∧
    (∃ (s : State) (b : BCtx) (k : Core) (g : Guard) (rd : Nat) (v : Nat) (s2 : Nat) (mk : Bool) (sub : Nat), (Rests s b k) ∧ (Alone b) ∧ (k.guard g = true) ∧ (bit k.imgFlags 0 = true) ∧ (k.vLegal (.vx .ins rd v s2 mk sub) = true) ∧ (¬(k.vt = 4 ∧ rd = 63))) ∧
    (∃ (s : State) (b : BCtx) (k : Core) (g : Guard) (rd : Nat) (v : Nat) (s2 : Nat) (mk : Bool) (sub : Nat), (Rests s b k) ∧ (Alone b) ∧ (k.guard g = true) ∧ (bit k.imgFlags 0 = true) ∧ (k.vLegal (.vx .ins rd v s2 mk sub) = true) ∧ (k.vt = 4 ∧ rd = 63)) ∧
    (∃ (s : State) (b : BCtx) (k : Core) (g : Guard) (an : Nat) (va : Nat) (mk : Bool) (sub : Nat), (Rests s b k) ∧ (Alone b) ∧ (k.guard g = true) ∧ (bit k.imgFlags 0 = true) ∧ (k.vLegal (.vrsum an va mk sub) = true)) ∧
    (∃ (s : State) (b : BCtx) (k : Core) (g : Guard) (rd : Nat) (v : Nat) (s2 : Nat) (mk : Bool) (sub : Nat), (Rests s b k) ∧ (Alone b) ∧ (k.guard g = true) ∧ (bit k.imgFlags 0 = true) ∧ (k.vLegal (.vx .maxi rd v s2 mk sub) = true)) ∧
    (∃ (s : State) (b : BCtx) (k : Core) (g : Guard) (rd : Nat) (v : Nat) (s2 : Nat) (mk : Bool) (sub : Nat), (Rests s b k) ∧ (Alone b) ∧ (k.guard g = true) ∧ (bit k.imgFlags 0 = true) ∧ (k.vLegal (.vx .mini rd v s2 mk sub) = true)) ∧
    (∃ (s : State) (b : BCtx) (k : Core) (g : Guard) (vd : Nat) (va : Nat) (vb : Nat) (mk : Bool) (sub : Nat), (Rests s b k) ∧ (Alone b) ∧ (k.guard g = true) ∧ (bit k.imgFlags 0 = true) ∧ (k.vLegal (.vv .mva vd va vb mk sub) = true)) :=
  ⟨⟨coreSt (stCore), bctx, stCore, {}, 1, 0, 2, false, by decide +kernel⟩,
   ⟨coreSt ({ stCore with vcfg := 0, vl := 20 }), bctx, { stCore with vcfg := 0, vl := 20 }, {}, 4, 8, 12, false, 0, by decide +kernel⟩,
   ⟨coreSt ({ stCore with vcfg := 0, vl := 20 }), bctx, { stCore with vcfg := 0, vl := 20 }, {}, 4, 8, 12, false, 0, by decide +kernel⟩,
   ⟨coreSt ({ stCore with vcfg := 0, vl := 20 }), bctx, { stCore with vcfg := 0, vl := 20 }, {}, 4, 8, 2, false, 0, by decide +kernel⟩,
   ⟨coreSt ({ stCore with vcfg := 0, vl := 20 }), bctx, { stCore with vcfg := 0, vl := 20 }, {}, 4, 8, 12, false, 0, by decide +kernel⟩,
   ⟨coreSt ({ stCore with vcfg := 0, vl := 20 }), bctx, { stCore with vcfg := 0, vl := 20 }, {}, 4, 8, 12, false, 0, by decide +kernel⟩,
   ⟨coreSt ({ stCore with vcfg := 0, vl := 20 }), bctx, { stCore with vcfg := 0, vl := 20 }, {}, 4, 8, 12, false, 0, by decide +kernel⟩,
   ⟨coreSt ({ stCore with vcfg := 0, vl := 20 }), bctx, { stCore with vcfg := 0, vl := 20 }, {}, 4, 8, 2, false, 0, by decide +kernel⟩,
   ⟨coreSt ({ stCore with vcfg := 0, vl := 20 }), bctx, { stCore with vcfg := 0, vl := 20 }, {}, 4, 8, 2, false, 0, by decide +kernel⟩,
   ⟨coreSt ({ stCore with vcfg := 0, vl := 20 }), bctx, { stCore with vcfg := 0, vl := 20 }, {}, 4, 8, 12, false, 0, by decide +kernel⟩,
   ⟨coreSt ({ stCore with vcfg := 0, vl := 20 }), bctx, { stCore with vcfg := 0, vl := 20 }, {}, 4, 8, 12, false, 0, by decide +kernel⟩,
   ⟨coreSt ({ stCore with vcfg := 0, vl := 20 }), bctx, { stCore with vcfg := 0, vl := 20 }, {}, 4, 8, 12, false, 0, by decide +kernel⟩,
   ⟨coreSt ({ stCore with vcfg := 0, vl := 20 }), bctx, { stCore with vcfg := 0, vl := 20 }, {}, 4, 8, 12, false, 0, by decide +kernel⟩,
   ⟨coreSt ({ stCore with vcfg := 3, vl := 20 }), bctx, { stCore with vcfg := 3, vl := 20 }, {}, 4, 8, 12, false, 0, by decide +kernel⟩,
   ⟨coreSt ({ stCore with vcfg := 0, vl := 20 }), bctx, { stCore with vcfg := 0, vl := 20 }, {}, 4, 8, 12, false, 0, by decide +kernel⟩,
   ⟨coreSt ({ stCore with vcfg := 0, vl := 20 }), bctx, { stCore with vcfg := 0, vl := 20 }, {}, 4, 8, 2, false, 0, by decide +kernel⟩,
   ⟨coreSt ({ stCore with vcfg := 1, vl := 20 }), bctx, { stCore with vcfg := 1, vl := 20 }, {}, 4, 8, 12, false, 0, by decide +kernel⟩,
   ⟨coreSt ({ stCore with vcfg := 1, vl := 20 }), bctx, { stCore with vcfg := 1, vl := 20 }, {}, 4, 8, 12, false, 0, by decide +kernel⟩,
   ⟨coreSt ({ stCore with vcfg := 3, vl := 20 }), bctx, { stCore with vcfg := 3, vl := 20 }, {}, 4, 8, 12, false, 0, by decide +kernel⟩,
   ⟨coreSt ({ stCore with vcfg := 5, vl := 20 }), bctx, { stCore with vcfg := 5, vl := 20 }, {}, 4, 8, 12, false, 0, by decide +kernel⟩,
   ⟨coreSt ({ stCore with vcfg := 5, vl := 20 }), bctx, { stCore with vcfg := 5, vl := 20 }, {}, 4, 8, 12, false, 0, by decide +kernel⟩,
   ⟨coreSt ({ stCore with vcfg := 5, vl := 20 }), bctx, { stCore with vcfg := 5, vl := 20 }, {}, 4, 8, 12, false, 0, by decide +kernel⟩,
   ⟨coreSt ({ stCore with vcfg := 5, vl := 20 }), bctx, { stCore with vcfg := 5, vl := 20 }, {}, 4, 8, 12, false, 0, by decide +kernel⟩,
   ⟨coreSt ({ stCore with vcfg := 1, vl := 20 }), bctx, { stCore with vcfg := 1, vl := 20 }, {}, 4, 8, 12, false, 0, by decide +kernel⟩,
   ⟨coreSt ({ stCore with vcfg := 0, vl := 20 }), bctx, { stCore with vcfg := 0, vl := 20 }, {}, 4, 8, 12, false, 0, by decide +kernel⟩,
   ⟨coreSt ({ stCore with vcfg := 0, vl := 20 }), bctx, { stCore with vcfg := 0, vl := 20 }, {}, 4, 8, 2, false, 0, by decide +kernel⟩,
   ⟨coreSt ({ stCore with vcfg := 0, vl := 20 }), bctx, { stCore with vcfg := 0, vl := 20 }, {}, 4, 8, 2, false, 0, by decide +kernel⟩,
   ⟨coreSt ({ stCore with vcfg := 0, vl := 20 }), bctx, { stCore with vcfg := 0, vl := 20 }, {}, 4, 8, 12, false, 0, by decide +kernel⟩,
   ⟨coreSt ({ stCore with vcfg := 0, vl := 20 }), bctx, { stCore with vcfg := 0, vl := 20 }, {}, 2, 8, 3, false, 0, by decide +kernel⟩,
   ⟨coreSt ({ stCore with vcfg := 4, vl := 20 }), bctx, { stCore with vcfg := 4, vl := 20 }, {}, 63, 8, 3, false, 0, by decide +kernel⟩,
   ⟨coreSt ({ stCore with vcfg := 0, vl := 20 }), bctx, { stCore with vcfg := 0, vl := 20 }, {}, 2, 8, 3, false, 0, by decide +kernel⟩,
   ⟨coreSt ({ stCore with vcfg := 0, vl := 20 }), bctx, { stCore with vcfg := 0, vl := 20 }, {}, 2, 8, 3, false, 0, by decide +kernel⟩,
   ⟨coreSt ({ stCore with vcfg := 4, vl := 20 }), bctx, { stCore with vcfg := 4, vl := 20 }, {}, 63, 8, 3, false, 0, by decide +kernel⟩,
   ⟨coreSt ({ stCore with vcfg := 0, vl := 20 }), bctx, { stCore with vcfg := 0, vl := 20 }, {}, 0, 8, false, 0, by decide +kernel⟩,
   ⟨coreSt ({ stCore with vcfg := 0, vl := 20 }), bctx, { stCore with vcfg := 0, vl := 20 }, {}, 2, 8, 3, false, 0, by decide +kernel⟩,
   ⟨coreSt ({ stCore with vcfg := 0, vl := 20 }), bctx, { stCore with vcfg := 0, vl := 20 }, {}, 2, 8, 3, false, 0, by decide +kernel⟩,
   ⟨coreSt ({ stCore with vcfg := 1, vl := 20 }), bctx, { stCore with vcfg := 1, vl := 20 }, {}, 4, 8, 12, false, 0, by decide +kernel⟩⟩

/-- Each clause of VectorMemory has a state and operands that meet its hypotheses. -/
theorem wit_VectorMemory :
    (∃ (s : State) (b : BCtx) (k : Core) (g : Guard) (pc : Nat) (l1 : Bool) (v p m am : Nat) (mk : Bool), (Rests s b k) ∧ (Alone b) ∧ (k.guard g = true) ∧ (bit k.imgFlags 0 = true) ∧ (k.vLegal (.vld false v p m am mk) = true) ∧ (mk = false) ∧ (k.vstart = 0) ∧ (phaseCycles k (.vld false v p m am mk) (min k.vl k.vlmax) (List.range (min k.vl k.vlmax)) (vtWidth k.vt) = some pc) ∧ (∀ i ∈ List.range (min k.vl k.vlmax), inLdm (vaddr k (.vld false v p m am mk) i) (vtWidth k.vt / 8) = true ∧ (vaddr k (.vld false v p m am mk) i) % (vtWidth k.vt / 8) = 0)) ∧
    (∃ (s : State) (b : BCtx) (k : Core) (g : Guard) (pc : Nat) (l1 : Bool) (v p m am : Nat) (mk : Bool), (Rests s b k) ∧ (Alone b) ∧ (k.guard g = true) ∧ (bit k.imgFlags 0 = true) ∧ (k.vLegal (.vst false v p m am mk) = true) ∧ (mk = false) ∧ (k.vstart = 0) ∧ (phaseCycles k (.vst false v p m am mk) (min k.vl k.vlmax) (List.range (min k.vl k.vlmax)) (vtWidth k.vt) = some pc) ∧ (∀ i ∈ List.range (min k.vl k.vlmax), inLdm (vaddr k (.vst false v p m am mk) i) (vtWidth k.vt / 8) = true ∧ (vaddr k (.vst false v p m am mk) i) % (vtWidth k.vt / 8) = 0)) ∧
    (∃ (s : State) (b : BCtx) (k : Core) (g : Guard) (pc : Nat) (l1 : Bool) (v p m am : Nat) (mk : Bool), (Rests s b k) ∧ (Alone b) ∧ (k.guard g = true) ∧ (bit k.imgFlags 0 = true) ∧ (k.vLegal (.vlds v p m am mk) = true) ∧ (mk = false) ∧ (k.vstart = 0) ∧ (phaseCycles k (.vlds v p m am mk) (min k.vl k.vlmax) (List.range (min k.vl k.vlmax)) (vtWidth k.vt) = some pc) ∧ (∀ i ∈ List.range (min k.vl k.vlmax), inLdm (vaddr k (.vlds v p m am mk) i) (vtWidth k.vt / 8) = true ∧ (vaddr k (.vlds v p m am mk) i) % (vtWidth k.vt / 8) = 0)) ∧
    (∃ (s : State) (b : BCtx) (k : Core) (g : Guard) (pc : Nat) (l1 : Bool) (v p m am : Nat) (mk : Bool), (Rests s b k) ∧ (Alone b) ∧ (k.guard g = true) ∧ (bit k.imgFlags 0 = true) ∧ (k.vLegal (.vsts v p m am mk) = true) ∧ (mk = false) ∧ (k.vstart = 0) ∧ (phaseCycles k (.vsts v p m am mk) (min k.vl k.vlmax) (List.range (min k.vl k.vlmax)) (vtWidth k.vt) = some pc) ∧ (∀ i ∈ List.range (min k.vl k.vlmax), inLdm (vaddr k (.vsts v p m am mk) i) (vtWidth k.vt / 8) = true ∧ (vaddr k (.vsts v p m am mk) i) % (vtWidth k.vt / 8) = 0)) ∧
    (∃ (s : State) (b : BCtx) (k : Core) (g : Guard) (pc : Nat) (l1 : Bool) (v p vi : Nat) (mk : Bool) (sc : Nat), (Rests s b k) ∧ (Alone b) ∧ (k.guard g = true) ∧ (bit k.imgFlags 0 = true) ∧ (k.vLegal (.vgath v p vi mk sc) = true) ∧ (mk = false) ∧ (k.vstart = 0) ∧ (phaseCycles k (.vgath v p vi mk sc) (min k.vl k.vlmax) (List.range (min k.vl k.vlmax)) (vtWidth k.vt) = some pc) ∧ (∀ i ∈ List.range (min k.vl k.vlmax), inLdm (vaddr k (.vgath v p vi mk sc) i) (vtWidth k.vt / 8) = true ∧ (vaddr k (.vgath v p vi mk sc) i) % (vtWidth k.vt / 8) = 0)) ∧
    (∃ (s : State) (b : BCtx) (k : Core) (g : Guard) (pc : Nat) (l1 : Bool) (v p vi : Nat) (mk : Bool) (sc : Nat), (Rests s b k) ∧ (Alone b) ∧ (k.guard g = true) ∧ (bit k.imgFlags 0 = true) ∧ (k.vLegal (.vscat v p vi mk sc) = true) ∧ (mk = false) ∧ (k.vstart = 0) ∧ (phaseCycles k (.vscat v p vi mk sc) (min k.vl k.vlmax) (List.range (min k.vl k.vlmax)) (vtWidth k.vt) = some pc) ∧ (∀ i ∈ List.range (min k.vl k.vlmax), inLdm (vaddr k (.vscat v p vi mk sc) i) (vtWidth k.vt / 8) = true ∧ (vaddr k (.vscat v p vi mk sc) i) % (vtWidth k.vt / 8) = 0)) ∧
    (∃ (s : State) (b : BCtx) (k : Core) (g : Guard) (pc : Nat) (l1 : Bool) (v p m am : Nat) (mk : Bool), (Rests s b k) ∧ (Alone b) ∧ (k.guard g = true) ∧ (bit k.imgFlags 0 = true) ∧ (k.vLegal (.vld true v p m am mk) = true) ∧ (mk = false) ∧ (k.vstart = 0) ∧ (phaseCycles k (.vld true v p m am mk) 512 (List.range 512) 8 = some pc) ∧ (∀ i ∈ List.range (512), inLdm (vaddr k (.vld true v p m am mk) i) 1 = true ∧ (vaddr k (.vld true v p m am mk) i) % 1 = 0)) ∧
    (∃ (s : State) (b : BCtx) (k : Core) (g : Guard) (pc : Nat) (l1 : Bool) (v p m am : Nat) (mk : Bool), (Rests s b k) ∧ (Alone b) ∧ (k.guard g = true) ∧ (bit k.imgFlags 0 = true) ∧ (k.vLegal (.vst true v p m am mk) = true) ∧ (mk = false) ∧ (k.vstart = 0) ∧ (phaseCycles k (.vst true v p m am mk) 512 (List.range 512) 8 = some pc) ∧ (∀ i ∈ List.range (512), inLdm (vaddr k (.vst true v p m am mk) i) 1 = true ∧ (vaddr k (.vst true v p m am mk) i) % 1 = 0)) :=
  ⟨⟨coreSt ({ stCore with vl := 3, v := [(8, 0x030201)], p := [(2, 64)], m := [(3, 8)] }), bctx, { stCore with vl := 3, v := [(8, 0x030201)], p := [(2, 64)], m := [(3, 8)] }, {}, 1, true, 8, 2, 3, 1, false, by decide +kernel⟩,
   ⟨coreSt ({ stCore with vl := 3, v := [(8, 0x030201)], p := [(2, 64)], m := [(3, 8)] }), bctx, { stCore with vl := 3, v := [(8, 0x030201)], p := [(2, 64)], m := [(3, 8)] }, {}, 1, true, 8, 2, 3, 1, false, by decide +kernel⟩,
   ⟨coreSt ({ stCore with vl := 3, v := [(8, 0x030201)], p := [(2, 64)], m := [(3, 8)] }), bctx, { stCore with vl := 3, v := [(8, 0x030201)], p := [(2, 64)], m := [(3, 8)] }, {}, 1, true, 8, 2, 3, 0, false, by decide +kernel⟩,
   ⟨coreSt ({ stCore with vl := 3, v := [(8, 0x030201)], p := [(2, 64)], m := [(3, 8)] }), bctx, { stCore with vl := 3, v := [(8, 0x030201)], p := [(2, 64)], m := [(3, 8)] }, {}, 1, true, 8, 2, 3, 0, false, by decide +kernel⟩,
   ⟨coreSt ({ stCore with vl := 3, v := [(8, 0x030201)], p := [(2, 64)], vcfg := 2 }), bctx, { stCore with vl := 3, v := [(8, 0x030201)], p := [(2, 64)], vcfg := 2 }, {}, 1, true, 8, 2, 12, false, 2, by decide +kernel⟩,
   ⟨coreSt ({ stCore with vl := 3, v := [(8, 0x030201)], p := [(2, 64)], vcfg := 2 }), bctx, { stCore with vl := 3, v := [(8, 0x030201)], p := [(2, 64)], vcfg := 2 }, {}, 1, true, 8, 2, 12, false, 2, by decide +kernel⟩,
   ⟨coreSt ({ stCore with vl := 3, v := [(8, 0x030201)], p := [(2, 64)], m := [(3, 8)] }), bctx, { stCore with vl := 3, v := [(8, 0x030201)], p := [(2, 64)], m := [(3, 8)] }, {}, 2, true, 8, 2, 3, 1, false, by decide +kernel⟩,
   ⟨coreSt ({ stCore with vl := 3, v := [(8, 0x030201)], p := [(2, 64)], m := [(3, 8)] }), bctx, { stCore with vl := 3, v := [(8, 0x030201)], p := [(2, 64)], m := [(3, 8)] }, {}, 2, true, 8, 2, 3, 1, false, by decide +kernel⟩⟩

/-- Each clause of CoprocessorSyllables has a state and operands that meet its hypotheses. -/
theorem wit_CoprocessorSyllables :
    (∃ (s : State) (b : BCtx) (k : Core) (g : Guard) (fn a c tag : Nat), (Rests s b k) ∧ (Alone b) ∧ (k.guard g = true) ∧ (bit k.imgFlags 1 = true) ∧ (fn < 8) ∧ (k.copEnabled false = true) ∧ (k.slotState false false = .free)) ∧
    (∃ (s : State) (b : BCtx) (k : Core) (g : Guard) (fn ps pd a : Nat), (Rests s b k) ∧ (Alone b) ∧ (k.guard g = true) ∧ (bit k.imgFlags 1 = true) ∧ (fn < 8) ∧ (k.copEnabled false = true) ∧ (k.slotState false true = .free)) ∧
    (∃ (s : State) (b : BCtx) (k : Core) (g : Guard) (fn ps pd a : Nat), (Rests s b k) ∧ (Alone b) ∧ (k.guard g = true) ∧ (bit k.imgFlags 1 = true) ∧ (fn < 4) ∧ (k.copEnabled true = true) ∧ (k.slotState true true = .free)) ∧
    (∃ (s : State) (b : BCtx) (k : Core) (g : Guard) (d : Nat) (mxu : Bool) (e : CopCmd), (Rests s b k) ∧ (Alone b) ∧ (k.guard g = true) ∧ (bit k.imgFlags 1 = true) ∧ (mxu = false) ∧ (d % 2 = 0) ∧ (k.copEnabled false = true) ∧ (firstReady false k.sfu = some e)) ∧
    (∃ (s : State) (b : BCtx) (k : Core) (g : Guard) (d : Nat) (mxu : Bool) (e : CopCmd), (Rests s b k) ∧ (Alone b) ∧ (k.guard g = true) ∧ (bit k.imgFlags 1 = true) ∧ (d % 2 = 0) ∧ (k.copEnabled mxu = true) ∧ (firstReady true (k.unit mxu) = some e)) ∧
    (∃ (s : State) (b : BCtx) (k : Core) (g : Guard) (d : Nat) (mxu : Bool), (Rests s b k) ∧ (Alone b) ∧ (k.guard g = true) ∧ (bit k.imgFlags 1 = true) ∧ (d % 2 = 0) ∧ (k.copEnabled mxu = true) ∧ (firstReady true (k.unit mxu) = none)) ∧
    (∃ (s : State) (b : BCtx) (k : Core) (g : Guard) (mxu : Bool), (Rests s b k) ∧ (Alone b) ∧ (k.guard g = true) ∧ (bit k.imgFlags 1 = true) ∧ (k.copEnabled mxu = true) ∧ (∀ e ∈ k.unit mxu, e.stage = .done)) ∧
    (∃ (s : State) (b : BCtx) (k : Core) (g : Guard) (mxu : Bool), (Rests s b k) ∧ (Alone b) ∧ (k.guard g = true) ∧ (bit k.imgFlags 1 = true) ∧ (k.copEnabled mxu = true)) ∧
    (∃ (s : State) (b : BCtx) (k : Core) (g : Guard) (qd : Nat) (mxu : Bool) (test : Nat), (Rests s b k) ∧ (Alone b) ∧ (k.guard g = true) ∧ (bit k.imgFlags 1 = true) ∧ (k.copEnabled mxu = true)) ∧
    (∃ (s : State) (octet : Nat) (mxu : Bool) (i : Nat), (octet < 128) ∧ (s.dev.awake (octet / 8) = true) ∧ (mxu = true → ((List.range 8).any fun i => (s.dev.core (8 * octet + i)).mxu.any CopCmd.isRunning) = false) ∧ ((((List.range 8).map fun i => (tget 0 s.dev.cores.copLast (2 * octet + mxu.toNat) + 1 + i) % 8).find? fun i => ((s.dev.core (8 * octet + i)).unit mxu).any CopCmd.isWaiting) = some i)) ∧
    (∃ (s : State) (core : Nat) (parity : Bool) (c : CopCmd) (l : List CopCmd), (s.dev.awake (core / 64) = true) ∧ ((s.dev.core core).sfu = c :: l) ∧ (parity = false) ∧ (c.block = false) ∧ (c.stage = .running) ∧ ((s.dev.core core).stalled = none)) ∧
    (∃ (s : State) (core : Nat) (mxu parity : Bool) (c : CopCmd) (l : List CopCmd), (s.dev.awake (core / 64) = true) ∧ (parity = false) ∧ (mxu = true) ∧ ((s.dev.core core).mxu = c :: l) ∧ (c.block = true) ∧ (c.stage = .running) ∧ ((s.dev.core core).stalled = none)) :=
  ⟨⟨coreSt (stCore), bctx, stCore, {}, 3, 4, 5, 6, by decide +kernel⟩,
   ⟨coreSt (stCore), bctx, stCore, {}, 3, 4, 5, 6, by decide +kernel⟩,
   ⟨coreSt (stCore), bctx, stCore, {}, 3, 4, 5, 6, by decide +kernel⟩,
   ⟨coreSt ({ stCore with sfu := [{ block := false, fn := 0, a := 1, b := 2, ctl := 0, tag := 3, stage := .done, result := 9, flags := 1 }] }), bctx, { stCore with sfu := [{ block := false, fn := 0, a := 1, b := 2, ctl := 0, tag := 3, stage := .done, result := 9, flags := 1 }] }, {}, 4, false, { block := false, fn := 0, a := 1, b := 2, ctl := 0, tag := 3, stage := .done, result := 9, flags := 1 }, by decide +kernel⟩,
   ⟨coreSt ({ stCore with mxu := [{ block := true, fn := 0, a := 1, b := 2, ctl := 0, tag := 3, stage := .done, result := 9, flags := 1 }] }), bctx, { stCore with mxu := [{ block := true, fn := 0, a := 1, b := 2, ctl := 0, tag := 3, stage := .done, result := 9, flags := 1 }] }, {}, 4, true, { block := true, fn := 0, a := 1, b := 2, ctl := 0, tag := 3, stage := .done, result := 9, flags := 1 }, by decide +kernel⟩,
   ⟨coreSt (stCore), bctx, stCore, {}, 4, true, by decide +kernel⟩,
   ⟨coreSt (stCore), bctx, stCore, {}, true, by decide +kernel⟩,
   ⟨coreSt (stCore), bctx, stCore, {}, true, by decide +kernel⟩,
   ⟨coreSt (stCore), bctx, stCore, {}, 2, true, 1, by decide +kernel⟩,
   ⟨onDevice ({ stCores [(24, { sfu := [{ block := false, fn := 0, a := 1, b := 2, ctl := 0, tag := 3, stage := .waiting }] })] with cores := { core := [(24, { sfu := [{ block := false, fn := 0, a := 1, b := 2, ctl := 0, tag := 3, stage := .waiting }] })], copLast := [(6, 7)] } }), 3, false, 0, by decide +kernel⟩,
   ⟨onDevice (stCores [(3, { sfu := [{ block := false, fn := 0, a := 1, b := 2, ctl := 0, tag := 3, stage := .running }] })]), 3, false, { block := false, fn := 0, a := 1, b := 2, ctl := 0, tag := 3, stage := .running }, [], by decide +kernel⟩,
   ⟨onDevice (stCores [(3, { mxu := [{ block := true, fn := 0, a := 64, b := 2048, ctl := 0x020202, tag := 3, stage := .running }] })]), 3, true, false, { block := true, fn := 0, a := 64, b := 2048, ctl := 0x020202, tag := 3, stage := .running }, [], by decide +kernel⟩⟩

/-- Each clause of CoreEventsAndImages has a state and operands that meet its hypotheses. -/
theorem wit_CoreEventsAndImages :
    (∃ (s : State) (core : Nat), (s.dev.coreLive core = true) ∧ ((s.dev.core core).repEnd = true) ∧ (1 < (s.dev.core core).rep.cnt) ∧ ((s.dev.core core).rep.rot = false)) ∧
    (∃ (s : State) (core : Nat), (s.dev.coreLive core = true) ∧ ((s.dev.core core).repEnd = true) ∧ ((s.dev.core core).rep.cnt = 1) ∧ ((s.dev.core core).rep.rot = false) ∧ (sclAuto (s.dev.core core).scl = false)) ∧
    (∃ (s : State) (core : Nat), (s.dev.coreLive core = true) ∧ ((s.dev.core core).waiting = true) ∧ ((s.dev.core core).evpend &&& (s.dev.core core).evmask ≠ 0)) ∧
    (∃ (s : State) (core resp : Nat) (data : List Byte) (a : Nat), ((s.dev.core core).stalled = some { x := ({}, .nop), l0 := ({}, .ld 4 5 0 0 0 false), l1 := ({}, .nop), v := ({}, .nop) }) ∧ (s.dev.coreLive core = true) ∧ (s.dev.canIssue core = true) ∧ ((s.dev.core core).ds = none ∧ (s.dev.core core).fly = [] ∧ (s.dev.core core).vop = none ∧ (s.dev.core core).wbuf = []) ∧ ((s.dev.core core).repEnd = false ∧ (s.dev.core core).rep.cnt = 0 ∧ s.dev.mem.ecc = [] ∧ (s.dev.core core).pc + 16 ≤ 0x20000) ∧ ((s.dev.core core).priv = 2) ∧ ((s.dev.core core).ea 0 0 0 = a) ∧ (0x0200000000 ≤ a ∧ a + 4 ≤ 0x0203FFFFFF ∧ a % 4 = 0)) ∧
    (∃ (s : State) (core resp : Nat) (e : BufStore) (rest : List BufStore), ((s.dev.core core).wbuf = e :: rest) ∧ ((s.dev.core core).stalled = none) ∧ ((s.dev.core core).spill = []) ∧ (e.more = []) ∧ (0x0202000000 ≤ e.addr ∧ e.addr % 8 = 0 ∧ e.addr < 0x0203000000) ∧ (e.bytes.length = 8) ∧ (s.dev.mem.ecc = [])) ∧
    (∃ (s : State) (core : Nat) (k : Core), (s.dev.core core = k) ∧ (s.dev.coreLive core = true) ∧ (s.dev.intDue core = some 0x80) ∧ (s.dev.leaving core = .stay) ∧ (k.fly = [] ∧ k.vop = none ∧ k.priv < 2 ∧ k.repEnd = false ∧ k.copWait = false) ∧ (s.dev.mem.ecc = []) ∧ (k.pc + 16 ≤ 0x20000)) ∧
    (∃ (s : State) (core : Nat) (k : Core), (s.dev.core core = k) ∧ (s.dev.coreLive core = true) ∧ (s.dev.intDue core = some 0x81) ∧ (s.dev.leaving core = .stay) ∧ (k.fly = [] ∧ k.vop = none ∧ k.priv < 2 ∧ k.repEnd = false ∧ k.copWait = false) ∧ (s.dev.mem.ecc = []) ∧ (k.pc + 16 ≤ 0x20000)) ∧
    (∃ (s : State) (r : Req) (w : Waiting) (slot : Nat) (image : List Byte), (Waits s r 0x0401 w) ∧ (Fits w 8) ∧ (slot < 32) ∧ (({ bytes := image } : Image).fault = none) ∧ (s.dev.slotBound slot = false)) ∧
    (∃ (s : State) (r : Req) (w : Waiting) (pool slot n : Nat), (Waits s r 0x0402 w) ∧ (pool < 64 ∧ slot < 32) ∧ (s.dev.members pool = [n]) ∧ ((s.dev.core n).thread = none ∧ (s.dev.core n).st = .idle) ∧ ((s.dev.image slot).bytes.isEmpty = false) ∧ (s.dev.awake (n / 64) = true)) ∧
    (∃ (s : State) (r : Req) (w : Waiting) (pool slot prompt : Nat), (Waits s r 0x0403 w) ∧ (pool < 64 ∧ slot < 32) ∧ ((s.dev.pool pool).swap = none) ∧ ((s.dev.image slot).bytes.isEmpty = false)) ∧
    (∃ (s : State) (core p : Nat) (x : Swap), ((s.dev.core core).pool = some p) ∧ ((s.dev.pool p).swap = some x) ∧ (s.dev.toReload p x = [core]) ∧ ((s.dev.core core).thread = none ∧ (s.dev.core core).wb = [] ∧ (s.dev.core core).saddle = .empty) ∧ (s.dev.awake (core / 64) = true) ∧ (s.dev.charges = []) ∧ (x.old = [])) ∧
    (∃ (s : State) (pool : Nat) (x : Swap), ((s.dev.pool pool).swap = some x) ∧ (s.dev.toReload pool x = []) ∧ (s.dev.threads = [])) ∧
    (∃ (s : State) (r : Req) (w : Waiting) (slot : Nat), (Waits s r 0x0404 w) ∧ (Fits w 64) ∧ (slot < 32) ∧ ((s.dev.image slot).bytes.isEmpty = false)) ∧
    (∃ (s : State) (r : Req) (w : Waiting) (core : Nat) (k : Core), (Waits s r 0x0410 w) ∧ (Fits w 16) ∧ (core < 1024) ∧ (s.dev.core core = k)) ∧
    (∃ (s : State) (r : Req) (w : Waiting) (core : Nat), (Waits s r 0x0411 w) ∧ (core < 1024) ∧ ((s.dev.core core).st = .halted) ∧ ((s.dev.core core).leftPool = none) ∧ (s.dev.awake (core / 64) = true)) ∧
    (∃ (s : State) (r : Req) (w : Waiting) (core p : Nat), (Waits s r 0x0411 w) ∧ (core < 1024) ∧ ((s.dev.core core).st = .halted) ∧ ((s.dev.core core).leftPool = some p) ∧ ((s.dev.pool p).image ≠ 0xFF) ∧ (s.dev.awake (core / 64) = true)) ∧
    (∃ (s : State) (r : Req) (w : Waiting) (core : Nat), (Waits s r 0x0411 w) ∧ (core < 1024) ∧ ((s.dev.core core).st ≠ .halted)) :=
  ⟨⟨onDevice (stCores [(3, { stCore with repEnd := true, rep := { start := 0x110, last := 0x120, cnt := 3, rot := false, count := 3, j := 0 } })]), 3, by decide +kernel⟩,
   ⟨onDevice (stCores [(3, { stCore with repEnd := true, rep := { start := 0x110, last := 0x120, cnt := 1, rot := false, count := 3, j := 2 } })]), 3, by decide +kernel⟩,
   ⟨onDevice (stCores [(3, { stCore with waiting := true, evpend := 4, evmask := 4 })]), 3, by decide +kernel⟩,
   ⟨onDevice (stCores [(3, { stCore with p := [(0, 0x0202000000)], stalled := some { x := ({}, .nop), l0 := ({}, .ld 4 5 0 0 0 false), l1 := ({}, .nop), v := ({}, .nop) } })]), 3, 0, [], 0x0202000000, by decide +kernel⟩,
   ⟨onDevice (stCores [(3, { stCore with wbuf := [{ addr := 0x0202000100, bytes := [1, 2, 3, 4, 5, 6, 7, 8], priv := 1 }] })]), 3, 0, { addr := 0x0202000100, bytes := [1, 2, 3, 4, 5, 6, 7, 8], priv := 1 }, [], by decide +kernel⟩,
   ⟨onDevice ({ stPool [(3, { stCore with priv := 0, ie := true, pool := some 2, thread := some 5, saddle := .full 6 })] [(5, 2, 4, 8, 0), (6, 2, 3, 1, 0)] with mem := { cells := writeBytes (stThreads [(5, 2, 4, 8, 0), (6, 2, 3, 1, 0)]) (tbAddr 5 + 6) [2] } }), 3, { stCore with priv := 0, ie := true, pool := some 2, thread := some 5, saddle := .full 6 }, by decide +kernel⟩,
   ⟨onDevice (stCores [(3, { stCore with priv := 0, ie := true, evpend := 4, evmask := 4 })]), 3, { stCore with priv := 0, ie := true, evpend := 4, evmask := 4 }, by decide +kernel⟩,
   ⟨slotSt 0x0401 stReady.dev, ⟨0, 0⟩, slot0 0x0401, 4, stImage, by decide +kernel⟩,
   ⟨slotSt 0x0402 ({ stReady.dev with cores := { core := [(9, { pool := some 2 })], images := [(4, { bytes := stImage })] } }), ⟨0, 0⟩, slot0 0x0402, 2, 4, 9, by decide +kernel⟩,
   ⟨slotSt 0x0403 ({ stPool [] [(5, 2, 2, 0, 0), (6, 2, 1, 0, 0)] with cores := { images := [(4, { bytes := stImage })] } }), ⟨0, 0⟩, slot0 0x0403, 2, 4, 0, by decide +kernel⟩,
   ⟨onDevice ({ stReady.dev with cores := { core := [(9, { pool := some 2 })], images := [(4, { bytes := stImage })] }, pel := { pools := [(2, { swap := some { slot := 4, prompt := false, tag := 7, old := [] } })] } }), 9, 2, { slot := 4, prompt := false, tag := 7, old := [] }, by decide +kernel⟩,
   ⟨onDevice ({ stReady.dev with pel := { pools := [(2, { swap := some { slot := 4, prompt := false, tag := 7, old := [], done := [9] } })] } }), 2, { slot := 4, prompt := false, tag := 7, old := [], done := [9] }, by decide +kernel⟩,
   ⟨slotSt 0x0404 ({ stReady.dev with cores := { images := [(4, { bytes := stImage })] } }), ⟨0, 0⟩, slot0 0x0404, 4, by decide +kernel⟩,
   ⟨slotSt 0x0410 (stCores [(9, stCore)]), ⟨0, 0⟩, slot0 0x0410, 9, stCore, by decide +kernel⟩,
   ⟨slotSt 0x0411 ({ stReady.dev with cores := { core := [(9, { st := .halted, imgSlot := 4 })], images := [(4, { bytes := stImage })] } }), ⟨0, 0⟩, slot0 0x0411, 9, by decide +kernel⟩,
   ⟨slotSt 0x0411 ({ stReady.dev with cores := { core := [(9, { st := .halted, leftPool := some 2 })], images := [(4, { bytes := stImage })] }, pel := { pools := [(2, { image := 4 })] } }), ⟨0, 0⟩, slot0 0x0411, 9, 2, by decide +kernel⟩,
   ⟨slotSt 0x0411 stReady.dev, ⟨0, 0⟩, slot0 0x0411, 9, by decide +kernel⟩⟩

/-- Each clause of PelotonOperations has a state and operands that meet its hypotheses. -/
theorem wit_PelotonOperations :
    (∃ (s : State) (port thread : Nat) (flag : Bool), (port < 1024) ∧ ((s.dev.core port).wbuf = []) ∧ ((s.dev.core port).portDone = true) ∧ ((s.dev.core port).priv = 1 ∨ (s.dev.core port).priv = 2) ∧ (s.dev.tState thread = 1) ∧ (s.dev.pel.cyc = []) ∧ ((s.dev.pool (s.dev.tPool thread)).dis = .on)) ∧
    (∃ (s : State) (port thread : Nat) (flag : Bool), (port < 1024) ∧ ((s.dev.core port).wbuf = []) ∧ ((s.dev.core port).portDone = true) ∧ ((s.dev.core port).priv = 1) ∧ (s.dev.tState thread = 0) ∧ (s.dev.pel.cyc = [])) ∧
    (∃ (s : State) (port thread : Nat), (s.dev.pel.trcMode = 0) ∧ (port < 1024) ∧ ((s.dev.core port).wbuf = []) ∧ ((s.dev.core port).portDone = true) ∧ ((s.dev.core port).priv = 1) ∧ (s.dev.tState thread = 2) ∧ (s.dev.pel.cyc = []) ∧ (s.dev.coreOf thread = none)) ∧
    (∃ (s : State) (port th : Nat) (reset : Bool), (port < 1024) ∧ ((s.dev.core port).wbuf = []) ∧ ((s.dev.core port).portDone = true) ∧ ((s.dev.core port).thread = some th) ∧ ((s.dev.core port).leave = .stay)) ∧
    (∃ (s : State) (port th u : Nat), (port < 1024) ∧ ((s.dev.core port).wbuf = []) ∧ ((s.dev.core port).portDone = true) ∧ ((s.dev.core port).thread = some th) ∧ ((s.dev.core port).leave = .stay) ∧ ((s.dev.core port).saddle = .full u) ∧ (s.dev.precedes u th = true)) ∧
    (∃ (s : State) (port th u : Nat), (port < 1024) ∧ ((s.dev.core port).wbuf = []) ∧ ((s.dev.core port).portDone = true) ∧ ((s.dev.core port).thread = some th) ∧ ((s.dev.core port).saddle = .full u) ∧ ((s.dev.core port).leaving = none) ∧ (s.dev.precedes u th = false)) ∧
    (∃ (s : State) (port thread n : Nat) (flag : Bool), (port < 1024) ∧ ((s.dev.core port).wbuf = []) ∧ ((s.dev.core port).portDone = true) ∧ ((s.dev.core port).priv = 1) ∧ (s.dev.tState thread ≠ 0) ∧ (s.dev.lowestFree = some n) ∧ (n ≠ thread) ∧ ((s.dev.pool (s.dev.tPool thread)).dis = .on) ∧ (s.dev.tb thread 2 1 < 64)) ∧
    (∃ (s : State) (port thread : Nat), (port < 1024) ∧ ((s.dev.core port).wbuf = []) ∧ ((s.dev.core port).portDone = true) ∧ ((s.dev.core port).priv = 1) ∧ (s.dev.tState thread ≠ 0) ∧ (s.dev.pel.cyc = [])) ∧
    (∃ (s : State) (pool u n : Nat), (s.dev.pel.trcMode = 0) ∧ (((s.dev.inState pool tsREADY).findSome? fun u => (s.dev.saddleTarget pool u).map fun x => (u, x)) = some (u, n, none))) ∧
    (∃ (s : State) (core u : Nat), ((s.dev.core core).saddle = .loading u) ∧ (s.dev.mem.ecc = []) ∧ (s.dev.reachable (s.dev.tb u 24 6) = true) ∧ ((s.dev.tb u 24 6) < 2 ^ 47)) ∧
    (∃ (s : State) (core u : Nat), (s.dev.pel.trcMode = 0) ∧ ((s.dev.core core).st = .idle ∧ (s.dev.core core).bist = false ∧ s.dev.awake (core / 64) = true) ∧ ((s.dev.core core).thread = none) ∧ ((s.dev.core core).saddle = .full u) ∧ ((s.dev.core core).boundary = true) ∧ ((s.dev.core core).fly = [] ∧ (s.dev.core core).vop = none) ∧ (s.dev.tFlag u 3 = true) ∧ ((s.dev.pool (s.dev.tPool u)).swap = none)) ∧
    (∃ (s : State) (core u : Nat), (s.dev.pel.trcMode = 0) ∧ ((s.dev.core core).st = .running ∧ (s.dev.core core).bist = false ∧ s.dev.awake (core / 64) = true) ∧ ((s.dev.core core).thread = some u) ∧ (s.dev.leaving core = .block) ∧ ((s.dev.core core).saddle = .empty) ∧ ((s.dev.core core).fly = [] ∧ (s.dev.core core).vop = none) ∧ ((s.dev.core core).leaving = none) ∧ (core < 1024)) ∧
    (∃ (s : State) (core u f : Nat) (rest : List (Nat × Nat × Nat)), ((s.dev.core core).wb = (u, 2, f) :: rest) ∧ (s.dev.reachable (s.dev.tb u 24 6) = true) ∧ (0x0200000000 ≤ s.dev.tb u 24 6 ∧ s.dev.tb u 24 6 + 2048 ≤ 0x0202000000) ∧ (s.dev.mem.ecc = []) ∧ ((s.dev.core core).pool = none)) ∧
    (∃ (s : State) (core u f : Nat) (rest : List (Nat × Nat × Nat)), ((s.dev.core core).wb = (u, 1, f) :: rest) ∧ (s.dev.tFlag u 2 = false) ∧ (s.dev.reachable (s.dev.tb u 24 6) = true) ∧ (0x0200000000 ≤ s.dev.tb u 24 6 ∧ s.dev.tb u 24 6 + 2048 ≤ 0x0202000000) ∧ (s.dev.mem.ecc = []) ∧ ((s.dev.core core).pool = none)) ∧
    (∃ (s : State) (thread : Nat), (s.dev.pel.trcMode = 0) ∧ (2 ≤ s.dev.tState thread) ∧ (s.dev.tDeadline thread ≤ s.clk.atc) ∧ (s.dev.pel.missed.contains thread = false) ∧ (s.dev.ending thread = false) ∧ (s.dev.tb thread 5 1 = 0)) :=
  ⟨⟨onDevice (stPool [(9, { stCore with priv := 1, argDl := 77, portDone := true })] [(5, 2, 1, 8, 33)]), 9, 5, true, by decide +kernel⟩,
   ⟨onDevice (stPool [(9, { stCore with priv := 1, portDone := true })] []), 9, 5, true, by decide +kernel⟩,
   ⟨onDevice (stPool [(9, { stCore with priv := 1, portDone := true })] [(5, 2, 2, 8, 33)]), 9, 5, by decide +kernel⟩,
   ⟨onDevice (stPool [(9, { stCore with thread := some 5, portDone := true })] [(5, 2, 4, 8, 33)]), 9, 5, true, by decide +kernel⟩,
   ⟨onDevice (stPool [(9, { stCore with thread := some 5, saddle := .full 6, portDone := true })] [(5, 2, 4, 8, 33), (6, 2, 3, 8, 32)]), 9, 5, 6, by decide +kernel⟩,
   ⟨onDevice (stPool [(9, { stCore with thread := some 5, saddle := .full 6, portDone := true })] [(5, 2, 4, 8, 33), (6, 2, 3, 8, 33)]), 9, 5, 6, by decide +kernel⟩,
   ⟨onDevice (stPool [(9, { stCore with priv := 1, arg0 := 3, arg1 := 4, portDone := true })] [(5, 2, 1, 8, 33)]), 9, 5, 0, false, by decide +kernel⟩,
   ⟨onDevice (stPool [(9, { stCore with priv := 1, argDl := 88, portDone := true })] [(5, 2, 2, 8, 33)]), 9, 5, by decide +kernel⟩,
   ⟨onDevice (stPool [(9, { pool := some 2, imgSlot := 4 })] [(5, 2, 2, 8, 33)]), 2, 5, 9, by decide +kernel⟩,
   ⟨onDevice ({ stReady.dev with cores := { core := [(9, { pool := some 2, imgSlot := 4, saddle := .loading 5 })] }, mem := { cells := writeBytes (stThreads [(5, 2, 3, 8, 33)]) (tbAddr 5 + 24) (le 6 0x0201000000) } }), 9, 5, by decide +kernel⟩,
   ⟨onDevice ({ stReady.dev with cores := { core := [(9, { pool := some 2, imgSlot := 4, saddle := .full 5 })] }, mem := { cells := writeBytes (stThreads [(5, 2, 3, 8, 33)]) (tbAddr 5 + 6) [8] } }), 9, 5, by decide +kernel⟩,
   ⟨onDevice (stPool [(9, { stCore with pool := some 2, thread := some 5, leave := .block })] [(5, 2, 4, 8, 33)]), 9, 5, by decide +kernel⟩,
   ⟨onDevice ({ stReady.dev with cores := { core := [(9, { wb := [(5, 2, 0)] })] }, mem := { cells := writeBytes (stThreads [(5, 2, 3, 8, 33)]) (tbAddr 5 + 24) (le 6 0x0201000000) } }), 9, 5, 0, [], by decide +kernel⟩,
   ⟨onDevice ({ stReady.dev with cores := { core := [(9, { wb := [(5, 1, 0)] })] }, mem := { cells := writeBytes (stThreads [(5, 2, 3, 8, 33)]) (tbAddr 5 + 24) (le 6 0x0201000000) } }), 9, 5, 0, [], by decide +kernel⟩,
   ⟨onDevice (stPool [] [(5, 2, 2, 8, 0)]), 5, by decide +kernel⟩⟩

/-- Each clause of PelotonCommands has a state and operands that meet its hypotheses. -/
theorem wit_PelotonCommands :
    (∃ (s : State) (r : Req) (w : Waiting) (pool edfp cap : Nat), (Waits s r 0x0301 w) ∧ (pool < 64) ∧ (50 ≤ cap ∧ cap ≤ 100)) ∧
    (∃ (s : State) (r : Req) (w : Waiting) (pool edfp cap : Nat), (Waits s r 0x0301 w) ∧ (pool < 64) ∧ (cap < 50 ∨ 100 < cap)) ∧
    (∃ (s : State) (r : Req) (w : Waiting) (pool prompt mask n : Nat), (Waits s r 0x0302 w) ∧ (pool < 64) ∧ (s.dev.members pool = []) ∧ (ones 1024 mask = [n]) ∧ ((s.dev.pool pool).resize = none) ∧ ((s.dev.pool pool).image = 0xFF) ∧ ((s.dev.core n).pool = none) ∧ (s.dev.charges = []) ∧ (s.dev.pel.trcMode = 0)) ∧
    (∃ (s : State) (pool tag : Nat), ((s.dev.pool pool).resize = some tag) ∧ (((s.dev.members pool).any fun n => (s.dev.core n).leaving.isSome) = false)) ∧
    (∃ (s : State) (r : Req) (w : Waiting) (thread pool band misspol flags escband ctxHome entry arg0 arg1 est user : Nat), (Waits s r 0x0303 w) ∧ (pool < 64 ∧ band < 16 ∧ misspol < 3 ∧ flags < 4 ∧ escband < 16 ∧ ctxHome % 64 = 0) ∧ (s.dev.tState thread ≤ 1) ∧ (ctxHome < 2 ^ 48 ∧ entry < 2 ^ 32)) ∧
    (∃ (s : State) (r : Req) (w : Waiting) (thread : Nat), (Waits s r 0x0304 w) ∧ (s.dev.tState thread = 1)) ∧
    (∃ (s : State) (r : Req) (w : Waiting) (thread : Nat), (Waits s r 0x0304 w) ∧ (s.dev.tState thread ≠ 1)) ∧
    (∃ (s : State) (r : Req) (w : Waiting) (thread : Nat), (Waits s r 0x0305 w) ∧ (Fits w 128)) ∧
    (∃ (s : State) (r : Req) (w : Waiting) (op flag thread deadline arg0 arg1 : Nat), (Waits s r 0x0306 w) ∧ (Fits w 3) ∧ (op = 1) ∧ (s.dev.tState thread = 1) ∧ (s.dev.pel.cyc = []) ∧ ((s.dev.pool (s.dev.tPool thread)).dis = .on)) ∧
    (∃ (s : State) (r : Req) (w : Waiting) (op flag thread deadline arg0 arg1 : Nat), (Waits s r 0x0306 w) ∧ (Fits w 3) ∧ (op = 3 ∨ op = 4)) ∧
    (∃ (s : State) (r : Req) (w : Waiting) (pool mode : Nat), (Waits s r 0x0307 w) ∧ (pool < 64 ∧ mode ≤ 1) ∧ ((s.dev.pool pool).dis = .on) ∧ (s.dev.threads = [])) ∧
    (∃ (s : State) (pool atc tag : Nat) (abort : Bool), ((s.dev.pool pool).dis = .ending abort atc tag) ∧ ((s.dev.threads.any fun t => s.dev.tPool t = pool && 2 ≤ s.dev.tState t) = false)) ∧
    (∃ (s : State) (r : Req) (w : Waiting) (pool : Nat), (Waits s r 0x0308 w) ∧ (pool < 64) ∧ ((s.dev.pool pool).dis = .disabled)) ∧
    (∃ (s : State) (r : Req) (w : Waiting) (pool first count : Nat), (Waits s r 0x0309 w) ∧ (Fits w 12) ∧ (pool < 64) ∧ (count = 1) ∧ (s.dev.charges = [])) ∧
    (∃ (s : State) (r : Req) (w : Waiting) (addr log2 mode events pools : Nat), (Waits s r 0x030A w) ∧ (addr % 4096 = 0 ∧ 8 ≤ log2 ∧ log2 ≤ 24 ∧ 1 ≤ mode ∧ mode ≤ 2) ∧ (s.dev.pel.trcMode = 0)) :=
  ⟨⟨slotSt 0x0301 stReady.dev, ⟨0, 0⟩, slot0 0x0301, 2, 1, 50, by decide +kernel⟩,
   ⟨slotSt 0x0301 stReady.dev, ⟨0, 0⟩, slot0 0x0301, 2, 1, 101, by decide +kernel⟩,
   ⟨slotSt 0x0302 stReady.dev, ⟨0, 0⟩, slot0 0x0302, 2, 0, 16, 4, by decide +kernel⟩,
   ⟨onDevice ({ stCores [(4, { pool := some 2 })] with pel := { pools := [(2, { resize := some 9 })] } }), 2, 9, by decide +kernel⟩,
   ⟨slotSt 0x0303 stReady.dev, ⟨0, 0⟩, slot0 0x0303, 5, 2, 8, 1, 1, 3, 0x0201000000, 0x100, 1, 2, 3, 4, by decide +kernel⟩,
   ⟨slotSt 0x0304 (stPool [] [(5, 2, 1, 8, 33)]), ⟨0, 0⟩, slot0 0x0304, 5, by decide +kernel⟩,
   ⟨slotSt 0x0304 stReady.dev, ⟨0, 0⟩, slot0 0x0304, 5, by decide +kernel⟩,
   ⟨slotSt 0x0305 stReady.dev, ⟨0, 0⟩, slot0 0x0305, 5, by decide +kernel⟩,
   ⟨slotSt 0x0306 (stPool [] [(5, 2, 1, 8, 33)]), ⟨0, 0⟩, slot0 0x0306, 1, 1, 5, 99, 0, 0, by decide +kernel⟩,
   ⟨slotSt 0x0306 stReady.dev, ⟨0, 0⟩, slot0 0x0306, 4, 1, 5, 99, 0, 0, by decide +kernel⟩,
   ⟨slotSt 0x0307 stReady.dev, ⟨0, 0⟩, slot0 0x0307, 2, 1, by decide +kernel⟩,
   ⟨onDevice ({ stReady.dev with pel := { pools := [(2, { dis := .ending true 5 6 })] } }), 2, 5, 6, true, by decide +kernel⟩,
   ⟨slotSt 0x0308 ({ stReady.dev with pel := { pools := [(2, { dis := .disabled })] } }), ⟨0, 0⟩, slot0 0x0308, 2, by decide +kernel⟩,
   ⟨slotSt 0x0309 stReady.dev, ⟨0, 0⟩, slot0 0x0309, 2, 3, 1, by decide +kernel⟩,
   ⟨slotSt 0x030A stReady.dev, ⟨0, 0⟩, slot0 0x030A, 0x1000000000, 8, 2, 0xFF, 5, by decide +kernel⟩⟩

/-- Each clause of EngineJobs has a state and operands that meet its hypotheses. -/
theorem wit_EngineJobs :
    (∃ (s : State) (who ring prod : Nat), (who = 1024) ∧ ((s.dev.ring ring).owner = 1) ∧ ((s.dev.ring ring).dis = .on) ∧ ((prod + 65536 - (s.dev.ring ring).done) % 65536 ≤ 2 ^ (s.dev.ring ring).log)) ∧
    (∃ (s : State) (ring : Nat) (x : Ring) (y : List Byte), (s.dev.ring ring = x) ∧ (x.dis = .on) ∧ (x.stall = false) ∧ (x.fetch ≠ x.prod) ∧ (s.dev.mem.ecc = []) ∧ (y = s.dev.cellBytes (x.base + 128 * (x.fetch % 2 ^ x.log)) 128) ∧ (bit (fieldAt y 0 4) 31 = true) ∧ (s.dev.noEngine x = false) ∧ (x.accepted x.fetch = true)) ∧
    (∃ (s : State) (eng ri : Nat) (j : QueuedJob), (eng < 56) ∧ ((s.dev.engine eng).job = none) ∧ ((s.dev.engine eng).dis = .on) ∧ (s.dev.awake (engDomain eng) = true) ∧ (s.dev.asked (engDomain eng) = false) ∧ (s.dev.pickRing eng s.clk.atc = some (ri, j)) ∧ (descFault (s.dev.ring ri).cls j.desc = none) ∧ (s.dev.addrFault (s.dev.ring ri) j.desc = none)) ∧
    (∃ (s : State) (eng : Nat) (parity : Bool) (j : RunJob), (eng < 56) ∧ ((s.dev.engine eng).job = some j) ∧ ((s.dev.engine eng).dis = .on) ∧ (parity = false)) ∧
    (∃ (s : State) (ring : Nat) (j : QueuedJob), ((s.dev.ring ring).queue = [j]) ∧ (dStartKey j.desc ≤ s.clk.atc) ∧ (bit (fieldAt j.desc 0 4) 28 = false)) ∧
    (∃ (s : State) (isRing : Bool) (ring at_ tag : Nat) (ab : Bool), (isRing = true) ∧ ((s.dev.ring ring).dis = .ending ab at_ tag) ∧ ((s.dev.ring ring).done = (s.dev.ring ring).tdProd) ∧ ((s.dev.ring ring).tdProd < 65536)) ∧
    (∃ (s : State) (isRing : Bool) (ring : Nat) (q : EngDis), (isRing = false) ∧ (s.dev.eng.pend = [q]) ∧ (∀ e ∈ ones 56 q.mask, (s.dev.engine e).job = none)) :=
  ⟨⟨onDevice ({ stReady.dev with eng := { rings := [(70, { dis := .on, owner := 1, log := 3 })] } }), 1024, 70, 2, by decide +kernel⟩,
   ⟨onDevice ({ stReady.dev with mem := { cells := [(0x1080000003, 0x80)] }, eng := { rings := [(70, { dis := .on, owner := 1, log := 3, prod := 1, base := 0x1080000000, mask := 1 })] } }), 70, { dis := .on, owner := 1, log := 3, prod := 1, base := 0x1080000000, mask := 1 }, le 4 0x80000000 ++ List.replicate 124 0, by decide +kernel⟩,
   ⟨onDevice ({ stReady.dev with eng := { rings := [(70, { dis := .on, owner := 1, log := 3, cls := 1, prod := 1, base := 0x1080000000, mask := 2 ^ 24, queue := [⟨0, le 4 0x81050000 ++ List.replicate 36 0 ++ le 8 0x1080000000 ++ List.replicate 80 0⟩] })] } }), 24, 70, ⟨0, le 4 0x81050000 ++ List.replicate 36 0 ++ le 8 0x1080000000 ++ List.replicate 80 0⟩, by decide +kernel⟩,
   ⟨onDevice ({ stReady.dev with eng := { engines := [(24, { job := some { ring := 70, idx := 0, desc := le 4 0x81050000 ++ List.replicate 36 0 ++ le 8 0x1080000000 ++ List.replicate 80 0, start := 0 } })], rings := [(70, { dis := .on, cls := 1, base := 0x1080000000, log := 3 })] } }), 24, false, { ring := 70, idx := 0, desc := le 4 0x81050000 ++ List.replicate 36 0 ++ le 8 0x1080000000 ++ List.replicate 80 0, start := 0 }, by decide +kernel⟩,
   ⟨{ clk := { atc := 6, run := true }, dev := { stReady.dev with eng := { rings := [(70, { dis := .on, cls := 1, base := 0x1080000000, log := 3, queue := [⟨0, le 8 0x81050000 ++ le 8 5 ++ List.replicate 112 0⟩] })] } } }, 70, ⟨0, le 8 0x81050000 ++ le 8 5 ++ List.replicate 112 0⟩, by decide +kernel⟩,
   ⟨onDevice ({ stReady.dev with eng := { rings := [(70, { dis := .ending false 0 4 })] } }), true, 70, 0, 4, false, by decide +kernel⟩,
   ⟨onDevice ({ stReady.dev with eng := { pend := [⟨3, true, 5⟩] } }), false, 0, ⟨3, true, 5⟩, by decide +kernel⟩⟩

/-- Each clause of EngineCommands has a state and operands that meet its hypotheses. -/
theorem wit_EngineCommands :
    (∃ (s : State) (r : Req) (w : Waiting) (ring cls mask prio owner pool base log2 : Nat), (Waits s r 0x0501 w) ∧ (64 ≤ ring) ∧ (cls ≤ 3) ∧ (mask &&& classMask cls = mask) ∧ (prio ≤ 3) ∧ (owner = 1) ∧ (regionOf base = .dram) ∧ (inMemory base (128 * 2 ^ log2) = true) ∧ (3 ≤ log2 ∧ log2 ≤ 12) ∧ ((s.dev.ring ring).dis = .off)) ∧
    (∃ (s : State) (r : Req) (w : Waiting) (ring : Nat), (Waits s r 0x0502 w) ∧ (Fits w 15)) ∧
    (∃ (s : State) (r : Req) (w : Waiting) (mask mode : Nat), (Waits s r 0x0503 w) ∧ (Fits w 8) ∧ (mask < 2 ^ 56) ∧ (mode ≤ 1) ∧ (s.dev.eng.pend = []) ∧ (s.dev.eng.rings = []) ∧ (∀ e ∈ ones 56 mask, (s.dev.engine e).dis = .on ∧ (s.dev.engine e).job = none)) ∧
    (∃ (s : State) (r : Req) (w : Waiting) (mask : Nat), (Waits s r 0x0504 w) ∧ (mask < 2 ^ 56) ∧ (s.dev.eng.pend = []) ∧ (∀ e ∈ ones 56 mask, (s.dev.engine e).dis.isEnding = false)) ∧
    (∃ (s : State) (r : Req) (w : Waiting) (ring mode : Nat), (Waits s r 0x0505 w) ∧ (Fits w 8) ∧ (mode = 0) ∧ ((s.dev.ring ring).dis = .on)) ∧
    (∃ (s : State) (r : Req) (w : Waiting) (ring : Nat), (Waits s r 0x0506 w) ∧ ((s.dev.ring ring).dis = .disabled)) ∧
    (∃ (s : State) (r : Req) (w : Waiting) (engine n0 n1 n2 n3 n4 n5 n6 n7 : Nat), (Waits s r 0x0507 w) ∧ (Fits w 48) ∧ (engine < 56) ∧ ((s.dev.engine engine).byStatus = [n0, n1, n2, n3, n4, n5, n6, n7])) ∧
    (∃ (s : State) (r : Req) (w : Waiting) (func base size : Nat), (Waits s r 0x0508 w) ∧ (func < 16) ∧ (size ≠ 0) ∧ ((s.dev.mem.map.getD 5 (0, 0)).1 ≤ base) ∧ (base + size ≤ (s.dev.mem.map.getD 5 (0, 0)).1 + (s.dev.mem.map.getD 5 (0, 0)).2) ∧ (s.dev.eng.harq = [])) ∧
    (∃ (s : State) (r : Req) (w : Waiting) (cls cap : Nat), (Waits s r 0x0509 w) ∧ (cls ≤ 3) ∧ (50 ≤ cap ∧ cap ≤ 100) ∧ (s.dev.air.plans = [])) ∧
    (∃ (s : State) (r : Req) (w : Waiting) (cls mask force e : Nat), (Waits s r 0x1004 w) ∧ (cls ≤ 3) ∧ (e < 56) ∧ (mask = 2 ^ e) ∧ (mask &&& classMask cls = mask) ∧ (s.dev.mgmt.engUpd = none) ∧ (s.dev.eng.rings = []) ∧ ((s.dev.engine e).job = none)) ∧
    (∃ (s : State) (u : EngUpd), (s.dev.mgmt.engUpd = some u) ∧ (u.todo = 0) ∧ (∀ e ∈ ones 56 u.cur, (s.dev.engine e).job = none)) :=
  ⟨⟨slotSt 0x0501 stReady.dev, ⟨0, 0⟩, slot0 0x0501, 70, 0, 5, 1, 1, 0, 0x1080000000, 4, by decide +kernel⟩,
   ⟨slotSt 0x0502 stReady.dev, ⟨0, 0⟩, slot0 0x0502, 70, by decide +kernel⟩,
   ⟨slotSt 0x0503 stReady.dev, ⟨0, 0⟩, slot0 0x0503, 5, 0, by decide +kernel⟩,
   ⟨slotSt 0x0504 ({ stReady.dev with eng := { engines := [(0, { dis := .disabled })] } }), ⟨0, 0⟩, slot0 0x0504, 5, by decide +kernel⟩,
   ⟨slotSt 0x0505 ({ stReady.dev with eng := { rings := [(70, { dis := .on })] } }), ⟨0, 0⟩, slot0 0x0505, 70, 0, by decide +kernel⟩,
   ⟨slotSt 0x0506 ({ stReady.dev with eng := { rings := [(70, { dis := .disabled })] } }), ⟨0, 0⟩, slot0 0x0506, 70, by decide +kernel⟩,
   ⟨slotSt 0x0507 stReady.dev, ⟨0, 0⟩, slot0 0x0507, 3, 0, 0, 0, 0, 0, 0, 0, 0, by decide +kernel⟩,
   ⟨slotSt 0x0508 stReady.dev, ⟨0, 0⟩, slot0 0x0508, 2, (stReady.dev.mem.map.getD 5 (0, 0)).1, 4096, by decide +kernel⟩,
   ⟨slotSt 0x0509 stReady.dev, ⟨0, 0⟩, slot0 0x0509, 2, 50, by decide +kernel⟩,
   ⟨slotSt 0x1004 stReady.dev, ⟨0, 0⟩, slot0 0x1004, 0, 4, 0, 2, by decide +kernel⟩,
   ⟨onDevice ({ stReady.dev with mgmt := { stReady.dev.mgmt with engUpd := some { cls := 0, todo := 0, done := 0, force := false, tag := 3, cur := 4 } }, eng := { engines := [(2, { dis := .disabled })] } }), { cls := 0, todo := 0, done := 0, force := false, tag := 3, cur := 4 }, by decide +kernel⟩⟩

/-- Each clause of FrontEndStreams has a state and operands that meet its hypotheses. -/
theorem wit_FrontEndStreams :
    (∃ (s : State) (r : Req) (w : Waiting) (stream carrier fin fout hb rs side leadTx lagRx : Nat) (k : Carrier), (Waits s r 0x0601 w) ∧ (stream < 2048) ∧ (s.dev.stream stream = none) ∧ (s.dev.carrier carrier = some k) ∧ (k.owner = w.func) ∧ (rateFault fin fout hb rs = none) ∧ (side ≤ 1) ∧ (19661 ≤ leadTx ∧ leadTx ≤ 983040) ∧ (9831 ≤ lagRx ∧ lagRx ≤ 983040) ∧ (s.dev.hasPlans carrier = false) ∧ (s.dev.fe.streams.length < 2048) ∧ (s.dev.standing (fun _ => true) + k.charge ≤ 65536)) ∧
    (∃ (s : State) (r : Req) (w : Waiting) (stream : Nat) (y : Stream), (Waits s r 0x0609 w) ∧ (Fits w 2) ∧ (s.dev.stream stream = some y) ∧ (Sees w.func y.owner) ∧ (s.dev.streamBusy stream y = false) ∧ (s.dev.devmode.mode = .relay)) ∧
    (∃ (s : State) (r : Req) (w : Waiting) (stream dir mask sectEn gain phase dlyInt dlyFrac mute : Nat) (y : Stream), (Waits s r 0x0602 w) ∧ (s.dev.stream stream = some y) ∧ (Sees w.func y.owner) ∧ (dir = 0) ∧ (mask = 2)) ∧
    (∃ (s : State) (r : Req) (w : Waiting) (stream dir cas mask : Nat) (coefs : List Nat) (y : Stream), (Waits s r 0x0603 w) ∧ (s.dev.stream stream = some y) ∧ (Sees w.func y.owner) ∧ (dir ≤ 1) ∧ (cas = 1) ∧ (s.dev.shiftDue s.clk stream = false) ∧ (coefs.length = 5 * (ones 8 mask).length) ∧ ((s.dev.chain stream dir).active = 0) ∧ ((s.dev.chain stream dir).fade = none) ∧ ((s.dev.chain stream dir).held = none)) ∧
    (∃ (s : State) (r : Req) (w : Waiting) (stream dir target len notify : Nat) (y : Stream), (Waits s r 0x0604 w) ∧ (Fits w 1) ∧ (s.dev.stream stream = some y) ∧ (Sees w.func y.owner) ∧ (dir ≤ 1) ∧ (target ≤ 1) ∧ (16 ≤ len ∧ len ≤ 4096) ∧ (notify = 1) ∧ (s.dev.shiftDue s.clk stream = false) ∧ ((s.dev.chain stream dir).fade = none) ∧ ((s.dev.chain stream dir).held = none) ∧ ((s.dev.chain stream dir).active ≠ target)) ∧
    (∃ (s : State) (stream dir : Nat) (f : Fade), ((s.dev.chain stream dir).fade = some f) ∧ (f.len ≤ f.n) ∧ (f.notify = none) ∧ ((s.dev.chain stream dir).held = none)) ∧
    (∃ (s : State) (r : Req) (w : Waiting) (stream dir : Nat) (y : Stream) (k : Chain), (Waits s r 0x0605 w) ∧ (Fits w 14) ∧ (s.dev.stream stream = some y) ∧ (Sees w.func y.owner) ∧ (dir ≤ 1) ∧ (s.dev.chain stream dir = k) ∧ (k.fade = none) ∧ (k.held = none)) ∧
    (∃ (s : State) (r : Req) (w : Waiting) (stream dir : Nat) (y : Stream), (Waits s r 0x0608 w) ∧ (Fits w 24) ∧ (s.dev.stream stream = some y) ∧ (Sees w.func y.owner) ∧ (dir ≤ 1)) ∧
    (∃ (s : State) (stream dir re im buf f : Nat) (present : Bool) (y : Stream) (car : Carrier) (k : Chain), (dir = 1) ∧ (s.dev.stream stream = some y) ∧ (s.dev.carrierOf y = some car) ∧ (s.dev.chain stream 1 = k) ∧ (k.frame = some f) ∧ (k.nIn < y.fout * 10) ∧ (entryAt car y 1 f k.nIn ≤ s.clk.atc) ∧ (k.endDue = false) ∧ (k.anchorDue y 1 = false)) ∧
    (∃ (s : State) (stream dir re im buf f : Nat) (present : Bool) (y : Stream) (car : Carrier) (k : Chain), (dir = 0) ∧ (s.dev.stream stream = some y) ∧ (s.dev.carrierOf y = some car) ∧ (s.dev.chain stream 0 = k) ∧ (k.frame = some f) ∧ (k.nIn < y.fin * 10) ∧ (entryAt car y 0 f k.nIn ≤ s.clk.atc) ∧ (k.endDue = false) ∧ (k.anchorDue y 0 = false) ∧ (s.dev.spk.maps = []) ∧ (tfind s.dev.tnd.streams stream = none)) ∧
    (∃ (s : State) (r : Req) (w : Waiting) (stream dir mask mode m mMin mMax bound : Nat) (y : Stream), (Waits s r 0x0690 w) ∧ (s.dev.stream stream = some y) ∧ (Sees w.func y.owner) ∧ (dir = 1) ∧ (mask = 1) ∧ (mode ≤ 2)) ∧
    (∃ (s : State) (r : Req) (w : Waiting) (stream dir : Nat) (y : Stream) (a : CmpSet) (k : Chain), (Waits s r 0x0691 w) ∧ (Fits w 34) ∧ (s.dev.stream stream = some y) ∧ (Sees w.func y.owner) ∧ (dir ≤ 1) ∧ ((s.dev.cmpSet stream dir).act = a) ∧ (s.dev.chain stream dir = k)) ∧
    (∃ (s : State) (r : Req) (w : Waiting) (stream dir : Nat) (y : Stream), (Waits s r 0x0692 w) ∧ (s.dev.stream stream = some y) ∧ (Sees w.func y.owner) ∧ (dir ≤ 1)) :=
  ⟨⟨slotSt 0x0601 ({ stReady.dev with air := { carriers := [(1, stCarrier)] } }), ⟨0, 0⟩, slot0 0x0601, 5, 1, 30720, 30720, 0, 0, 0, 65536, 65536, stCarrier, by decide +kernel⟩,
   ⟨slotSt 0x0609 ({ stReady.dev with devmode := { mode := .relay }, fe := { streams := [(3, stStream)] } }), ⟨0, 0⟩, slot0 0x0609, 3, stStream, by decide +kernel⟩,
   ⟨slotSt 0x0602 ({ stReady.dev with fe := { streams := [(3, stStream)] } }), ⟨0, 0⟩, slot0 0x0602, 3, 0, 2, 0, 77, 0, 0, 0, 0, stStream, by decide +kernel⟩,
   ⟨slotSt 0x0603 ({ stReady.dev with fe := { streams := [(3, stStream)] } }), ⟨0, 0⟩, slot0 0x0603, 3, 1, 1, 1, [1, 2, 3, 4, 5], stStream, by decide +kernel⟩,
   ⟨slotSt 0x0604 ({ stReady.dev with fe := { streams := [(3, stStream)] } }), ⟨0, 0⟩, slot0 0x0604, 3, 1, 1, 64, 1, stStream, by decide +kernel⟩,
   ⟨onDevice ({ stReady.dev with fe := { streams := [(3, stStream)], chains := [(7, { fade := some { n := 16, len := 16, notify := none } })] } }), 3, 1, { n := 16, len := 16, notify := none }, by decide +kernel⟩,
   ⟨slotSt 0x0605 ({ stReady.dev with fe := { streams := [(3, stStream)] } }), ⟨0, 0⟩, slot0 0x0605, 3, 1, stStream, {}, by decide +kernel⟩,
   ⟨slotSt 0x0608 ({ stReady.dev with fe := { streams := [(3, stStream)] } }), ⟨0, 0⟩, slot0 0x0608, 3, 1, stStream, by decide +kernel⟩,
   ⟨{ clk := { atc := 65536, run := true }, dev := { stReady.dev with air := { carriers := [(1, stCarrier)] }, fe := { streams := [(3, stStream)], chains := [(7, { frame := some 0 })] } } }, 3, 1, 0, 0, 0, 0, false, stStream, stCarrier, { frame := some 0 }, by decide +kernel⟩,
   ⟨{ clk := { atc := 65536, run := true }, dev := { stReady.dev with air := { carriers := [(1, stCarrier)] }, fe := { streams := [(3, stStream)], chains := [(6, { frame := some 0 })] } } }, 3, 0, 0, 0, 0, 0, false, stStream, stCarrier, { frame := some 0 }, by decide +kernel⟩,
   ⟨slotSt 0x0690 ({ stReady.dev with fe := { streams := [(3, stStream)] } }), ⟨0, 0⟩, slot0 0x0690, 3, 1, 1, 2, 0, 0, 0, 0, stStream, by decide +kernel⟩,
   ⟨slotSt 0x0691 ({ stReady.dev with fe := { streams := [(3, stStream)] } }), ⟨0, 0⟩, slot0 0x0691, 3, 1, stStream, {}, {}, by decide +kernel⟩,
   ⟨slotSt 0x0692 ({ stReady.dev with fe := { streams := [(3, stStream)], chains := [(7, { blocks := 9 })] } }), ⟨0, 0⟩, slot0 0x0692, 3, 1, stStream, by decide +kernel⟩⟩

/-- Each clause of DetectorsAndResampler has a state and operands that meet its hypotheses. -/
theorem wit_DetectorsAndResampler :
    (∃ (s : State) (r : Req) (w : Waiting) (stream dir det tap k att dec hi lo : Nat) (y : Stream), (Waits s r 0x0606 w) ∧ (s.dev.stream stream = some y) ∧ (Sees w.func y.owner) ∧ (dir ≤ 1) ∧ (det = 0) ∧ (tap ≤ 2) ∧ (4 ≤ k ∧ k ≤ 20) ∧ ((s.dev.chain stream dir).peak.count = 0)) ∧
    (∃ (s : State) (r : Req) (w : Waiting) (stream dir : Nat) (y : Stream) (k : Chain), (Waits s r 0x0607 w) ∧ (Fits w 42) ∧ (s.dev.stream stream = some y) ∧ (Sees w.func y.owner) ∧ (dir ≤ 1) ∧ (s.dev.chain stream dir = k)) ∧
    (∃ (s : State) (stream dir : Nat) (rms : Bool) (x : Detector), (rms = true) ∧ ((s.dev.chain stream dir).rms = x) ∧ (x.count = 2 ^ x.k) ∧ (x.next = none)) ∧
    (∃ (s : State) (stream dir q : Nat) (lv : Int) (y : Stream), ((s.dev.chain stream dir).env.cross = some (q, lv)) ∧ (s.dev.stream stream = some y)) ∧
    (∃ (s : State) (stream dir f : Nat) (y : Stream) (car : Carrier), (s.dev.stream stream = some y) ∧ (s.dev.carrierOf y = some car) ∧ ((s.dev.chain stream dir).frame = some f) ∧ (y.rateIn dir * 10 ≤ (s.dev.chain stream dir).nIn) ∧ ((s.dev.chain stream dir).frameGaps = 0) ∧ ((s.dev.chain stream dir).anchorDue y dir = false)) ∧
    (∃ (s : State) (stream dir f : Nat) (y : Stream) (car : Carrier), (s.dev.stream stream = some y) ∧ (s.dev.carrierOf y = some car) ∧ ((s.dev.chain stream dir).frame = some f) ∧ ((s.dev.chain stream dir).nIn < y.rateIn dir * 10) ∧ ((s.dev.chain stream dir).anchorDue y dir = true)) :=
  ⟨⟨slotSt 0x0606 ({ stReady.dev with fe := { streams := [(3, stStream)] } }), ⟨0, 0⟩, slot0 0x0606, 3, 1, 0, 2, 20, 0, 0, 0, 0, stStream, by decide +kernel⟩,
   ⟨slotSt 0x0607 ({ stReady.dev with fe := { streams := [(3, stStream)] } }), ⟨0, 0⟩, slot0 0x0607, 3, 1, stStream, {}, by decide +kernel⟩,
   ⟨onDevice ({ stReady.dev with fe := { streams := [(3, stStream)], chains := [(7, { rms := { k := 4, count := 16, acc := 160, at_ := 9 } })] } }), 3, 1, true, { k := 4, count := 16, acc := 160, at_ := 9 }, by decide +kernel⟩,
   ⟨onDevice ({ stReady.dev with fe := { streams := [(3, stStream)], chains := [(7, { env := { cross := some (0, -5) } })] } }), 3, 1, 0, -5, stStream, by decide +kernel⟩,
   ⟨onDevice ({ stReady.dev with air := { carriers := [(1, stCarrier)] }, fe := { streams := [(3, stStream)], chains := [(7, { frame := some 7, nIn := 307200 })] } }), 3, 1, 7, stStream, stCarrier, by decide +kernel⟩,
   ⟨onDevice ({ stReady.dev with air := { carriers := [(1, stCarrier)] }, fe := { streams := [(3, stStream)], chains := [(7, { frame := some 7, nIn := 5, nFrac := 307200 })] } }), 3, 1, 7, stStream, stCarrier, by decide +kernel⟩⟩

/-- Each clause of FabricPackets has a state and operands that meet its hypotheses. -/
theorem wit_FabricPackets :
    (∃ (s : State) (src sport type pri tag addr len peer kind idx priv errNode errPort replays : Nat) (data : List Byte) (dom : Nat), (nodeExists src = true) ∧ (type = 1) ∧ (replays = 0) ∧ (kind = 0) ∧ (len < 512) ∧ (pri < 4) ∧ (regionOf addr = .dram) ∧ (inMemory addr (len + 1) = true) ∧ (memDomain addr = some dom) ∧ ((s.dev.gate dom).st = 0) ∧ (s.dev.awake dom = true) ∧ (s.dev.fab.flipping = none) ∧ (s.dev.fab.trcMode = 0) ∧ (s.dev.mem.ecc = [])) ∧
    (∃ (s : State) (q : Packet), ((s.dev.fab.arbitrate s.dev.fab.rsp ((s.dev.fab.rsp.head?.map (·.exit)).getD 0)).1 = some q) ∧ (q.counted = false) ∧ (q.rid.1 = 5) ∧ (q.resp = 0)) ∧
    (∃ (s : State) (q : Packet) (qs : List Packet), (s.dev.fab.atGate = q :: qs) ∧ (q.type = 1) ∧ (q.counted = false)) ∧
    (∃ (s : State) (q : Packet), (s.dev.fab.held = [q]) ∧ (s.dev.fab.atGate = []) ∧ (regionOf q.addr = .dram)) ∧
    (∃ (s : State) (dom : Nat), ((s.dev.gate dom).st = 1) ∧ (s.dev.fab.rsp = []) ∧ (s.dev.fab.atGate = []) ∧ (s.dev.fab.held = [])) :=
  ⟨⟨onDevice ({ stReady.dev with mem := { cells := [(0x1080000000, 7)] } }), 5, 0, 1, 1, 9, 0x1080000000, 3, 0, 0, 3, 1, 0, 0, 0, [], 28, by decide +kernel⟩,
   ⟨onDevice ({ stReady.dev with fab := { rsp := [{ src := 1, sport := 0, dest := 2, type := 4, pri := 1, epoch := 0, tag := 1, len := 7, addr := 0, rid := (5, 0), data := [], injT := 0, dom := 32, counted := false }] } }), { src := 1, sport := 0, dest := 2, type := 4, pri := 1, epoch := 0, tag := 1, len := 7, addr := 0, rid := (5, 0), data := [], injT := 0, dom := 32, counted := false }, by decide +kernel⟩,
   ⟨onDevice ({ stReady.dev with fab := { atGate := [{ src := 1, sport := 0, dest := 2, type := 1, pri := 1, epoch := 0, tag := 1, len := 7, addr := 0x1080000000, rid := (5, 0), data := [], injT := 0, dom := 28, counted := false }] } }), { src := 1, sport := 0, dest := 2, type := 1, pri := 1, epoch := 0, tag := 1, len := 7, addr := 0x1080000000, rid := (5, 0), data := [], injT := 0, dom := 28, counted := false }, [], by decide +kernel⟩,
   ⟨onDevice ({ stReady.dev with fab := { held := [{ src := 1, sport := 0, dest := 2, type := 1, pri := 1, epoch := 0, tag := 1, len := 7, addr := 0x1080000000, rid := (5, 0), data := [], injT := 0, dom := 32, counted := false }] } }), { src := 1, sport := 0, dest := 2, type := 1, pri := 1, epoch := 0, tag := 1, len := 7, addr := 0x1080000000, rid := (5, 0), data := [], injT := 0, dom := 32, counted := false }, by decide +kernel⟩,
   ⟨onDevice ({ stReady.dev with fab := { gates := [(3, { st := 1 })] } }), 3, by decide +kernel⟩⟩

/-- Each clause of FabricRoutesAndProbes has a state and operands that meet its hypotheses. -/
theorem wit_FabricRoutesAndProbes :
    (∃ (s : State) (r : Req) (w : Waiting) (node bank turns : Nat) (table : List Nat), (Waits s r 0x0EC0 w) ∧ (nodeExists node = true) ∧ (bank = 1 - s.dev.fab.epoch) ∧ (s.dev.fab.epoch ≤ 1) ∧ (s.dev.fab.oldDrained = true) ∧ (table.length = 128) ∧ (s.dev.fab.written = [])) ∧
    (∃ (s : State) (r : Req) (w : Waiting) (at_ : Nat), (Waits s r 0x0EC1 w) ∧ (Fits w 1) ∧ (s.dev.fab.flipAt = none) ∧ (s.dev.fab.flipping = none) ∧ (s.dev.fab.oldDrained = true) ∧ (s.dev.fab.written ≠ []) ∧ (w.rung + 39322 ≤ at_)) ∧
    (∃ (s : State) (at_ tag : Nat), (s.dev.fab.flipAt = some (at_, tag)) ∧ (at_ ≤ s.clk.atc)) ∧
    (∃ (s : State) (tag : Nat), (s.dev.fab.flipping = some tag) ∧ (s.dev.fab.held = []) ∧ (s.dev.fab.drain (1 - s.dev.fab.epoch) = 0)) ∧
    (∃ (s : State) (r : Req) (w : Waiting), (Waits s r 0x0EC2 w) ∧ (Fits w 23)) ∧
    (∃ (s : State) (r : Req) (w : Waiting) (probe enable node port dir mode srcLo srcHi destLo destHi pri vc type addrLo addrHi : Nat), (Waits s r 0x0EC3 w) ∧ (probe < 32) ∧ (enable ≤ 1) ∧ (nodeExists node = true) ∧ (port = localPort node) ∧ (dir ≤ 1) ∧ (mode ≤ 2) ∧ ((tget {} s.dev.fab.probes probe).en = false)) ∧
    (∃ (s : State) (r : Req) (w : Waiting) (addr log mode : Nat), (Waits s r 0x0EC4 w) ∧ (addr % 4096 = 0) ∧ (regionOf addr = .dram) ∧ (regionOf (addr + 32 * 2 ^ log - 1) = .dram) ∧ (8 ≤ log ∧ log ≤ 20) ∧ (mode ≤ 2) ∧ (s.dev.fab.probes = [])) ∧
    (∃ (s : State) (r : Req) (w : Waiting) (dom : Nat), (Waits s r 0x0EC5 w) ∧ (Fits w 9) ∧ (dom < 32)) ∧
    (∃ (s : State) (node port k : Nat), (linkKey node port = some k) ∧ ((s.dev.fab.link node port).failed = false)) ∧
    (∃ (s : State) (node port k : Nat) (errors : Bool), (linkKey node port = some k) ∧ ((s.dev.fab.link node port).failed = true) ∧ ((s.dev.fab.link node port).lasting = false) ∧ ((s.dev.fab.link node port).epoch ≠ s.dev.fab.epoch) ∧ (s.dev.fab.oldDrained = true) ∧ (errors = false) ∧ (fourth 4 k (recentTransients s.clk.atc 4 k s.dev.mem.transients) = false)) ∧
    (∃ (s : State) (r : Req) (w : Waiting) (node port k : Nat), (Waits s r 0x0EC6 w) ∧ (Fits w 9) ∧ (linkKey node port = some k)) :=
  ⟨⟨slotSt 0x0EC0 stReady.dev, ⟨0, 0⟩, slot0 0x0EC0, 5, 1, 0, (List.range 128).map (defaultPort 5), by decide +kernel⟩,
   ⟨slotSt 0x0EC1 ({ stReady.dev with fab := { written := [5] } }), ⟨0, 0⟩, slot0 0x0EC1, 50000, by decide +kernel⟩,
   ⟨onDevice ({ stReady.dev with fab := { flipAt := some (0, 4) } }), 0, 4, by decide +kernel⟩,
   ⟨onDevice ({ stReady.dev with fab := { flipping := some 4 } }), 4, by decide +kernel⟩,
   ⟨slotSt 0x0EC2 stReady.dev, ⟨0, 0⟩, slot0 0x0EC2, by decide +kernel⟩,
   ⟨slotSt 0x0EC3 stReady.dev, ⟨0, 0⟩, slot0 0x0EC3, 3, 1, 5, 6, 1, 1, 0, 127, 0, 127, 15, 63, 127, 0, 99, by decide +kernel⟩,
   ⟨slotSt 0x0EC4 stReady.dev, ⟨0, 0⟩, slot0 0x0EC4, 0x1080000000, 8, 2, by decide +kernel⟩,
   ⟨slotSt 0x0EC5 stReady.dev, ⟨0, 0⟩, slot0 0x0EC5, 31, by decide +kernel⟩,
   ⟨stReady, 5, 1, 256 * 5 + 1, by decide +kernel⟩,
   ⟨onDevice ({ stReady.dev with fab := { links := [(1281, { failed := true, epoch := 1 })] } }), 5, 1, 256 * 5 + 1, false, by decide +kernel⟩,
   ⟨slotSt 0x0EC6 stReady.dev, ⟨0, 0⟩, slot0 0x0EC6, 5, 1, 256 * 5 + 1, by decide +kernel⟩⟩

/-- Each clause of MoverRings has a state and operands that meet its hypotheses. -/
theorem wit_MoverRings :
    (∃ (s : State) (chan prod kind idx priv : Nat), (chan < 592) ∧ (kind = 3) ∧ (idx = 0) ∧ ((s.dev.chan chan).dis = .on) ∧ (s.dev.cyc.missed = []) ∧ ((prod % 65536 + 65536 - (s.dev.chan chan).done) % 65536 ≤ 2 ^ (s.dev.chan chan).log)) ∧
    (∃ (s : State) (func queue value n : Nat), ((s.dev.queues func)[queue]? = some n) ∧ ((s.dev.chan n).dis = .on) ∧ (s.dev.cyc.missed = []) ∧ ((value % 65536 + 65536 - (s.dev.chan n).done) % 65536 ≤ 2 ^ (s.dev.chan n).log)) ∧
    (∃ (s : State) (chan : Nat) (peer : List Byte) (x : Desc), (512 ≤ chan ∧ chan < 576) ∧ (s.dev.txPort chan = none) ∧ (s.dev.rxBound chan = false) ∧ (s.dev.lookBound chan = false) ∧ (s.dev.chanReady chan = true) ∧ ((s.dev.chan chan).verdict = none) ∧ ((s.dev.chan chan).dir = 1) ∧ ((s.dev.chan chan).from_ = 0) ∧ ((s.dev.headDesc s.clk chan).1 = .inr x) ∧ (x.own = true) ∧ ((s.dev.headDesc s.clk chan).2.descBad chan x = false) ∧ (x.kind = 1) ∧ (x.rows = 1) ∧ (x.len ≤ 512) ∧ (x.dst < 2 ^ 64) ∧ (x.srcLdm = false ∧ x.dstLdm = false)) ∧
    (∃ (s : State) (chan cause at_ : Nat) (peer : List Byte) (write : Bool) (x : Desc), (chan < 512) ∧ (s.dev.chanReady chan = true) ∧ ((s.dev.chan chan).verdict = none) ∧ ((s.dev.chan chan).halted = false) ∧ ((s.dev.chan chan).from_ = 0) ∧ (s.dev.headDesc s.clk chan = (.inr x, s.dev)) ∧ (x.own = true) ∧ (s.dev.descBad chan x = false) ∧ (x.kind = 0) ∧ (x.srcLdm = false) ∧ (x.src < 2 ^ 48) ∧ (x.len ≤ 512) ∧ (x.rows = 1) ∧ (inMemory x.src x.len = true) ∧ ((s.dev.chan chan).srcWin.2 = 0)) ∧
    (∃ (s : State) (chan kind idx priv : Nat), (chan < 592) ∧ (kind = 3) ∧ (idx = 0) ∧ ((s.dev.chan chan).halted = true)) ∧
    (∃ (s : State) (chan kind idx priv : Nat), (chan < 592) ∧ (kind = 3) ∧ (idx = 0) ∧ ((s.dev.chan chan).halted = true)) ∧
    (∃ (s : State) (chan kind idx priv : Nat), (chan < 592) ∧ (kind = 3) ∧ (idx = 0) ∧ ((s.dev.chan chan).halted = true) ∧ ((s.dev.chan chan).dis = .on)) ∧
    (∃ (s : State) (chan at_ tag : Nat) (abort : Bool), ((s.dev.chan chan).dis = .ending abort at_ tag) ∧ ((s.dev.chan chan).done = (s.dev.chan chan).prod)) :=
  ⟨⟨onDevice ({ stReady.dev with mov := { chans := [(5, { dis := .on, stall := true })] } }), 5, 3, 3, 0, 0, by decide +kernel⟩,
   ⟨onDevice ({ stReady.dev with host := { stReady.dev.host with qOwner := [(3, 2)] }, mov := { chans := [(515, { dis := .on })] } }), 2, 0, 1, 515, by decide +kernel⟩,
   ⟨onDevice ({ stReady.dev with host := { stReady.dev.host with qOwner := [(0, 0)], mem := writeBytes [] 4096 (le 4 0x84000000 ++ le 4 6 ++ le 8 0 ++ le 8 8192 ++ List.replicate 12 0 ++ [1, 2, 3, 4]) }, mov := { chans := [(512, { base := 4096, dir := 1, dis := .on, prod := 1, vector := 0xFFFF })] } }), 512, [], Desc.of (le 4 0x84000000 ++ le 4 6 ++ le 8 0 ++ le 8 8192 ++ List.replicate 12 0 ++ [1, 2, 3, 4] ++ List.replicate 24 0), by decide +kernel⟩,
   ⟨onDevice ({ stReady.dev with mem := { cells := writeBytes [] 0x1000000000 (le 4 0x80000000 ++ le 4 6 ++ le 8 0x1080000000 ++ le 8 0x1080000000) }, mov := { chans := [(5, { base := 0x1000000000, dis := .on, prod := 1 })] } }), 5, 0, 0, [], false, Desc.of (le 4 0x80000000 ++ le 4 6 ++ le 8 0x1080000000 ++ le 8 0x1080000000 ++ List.replicate 40 0), by decide +kernel⟩,
   ⟨onDevice ({ stReady.dev with mov := { chans := [(5, { dis := .on, halted := true })] } }), 5, 3, 0, 0, by decide +kernel⟩,
   ⟨onDevice ({ stReady.dev with mov := { chans := [(5, { base := 0x1000000000, dis := .on, halted := true, prod := 1 })] } }), 5, 3, 0, 0, by decide +kernel⟩,
   ⟨onDevice ({ stReady.dev with mov := { chans := [(5, { base := 0x1000000000, dis := .on, halted := true, prod := 1 })] } }), 5, 3, 0, 0, by decide +kernel⟩,
   ⟨onDevice ({ stReady.dev with mov := { chans := [(5, { dis := .ending true 0 3 })] } }), 5, 0, 3, true, by decide +kernel⟩⟩

/-- Each clause of MoverCommands has a state and operands that meet its hypotheses. -/
theorem wit_MoverCommands :
    (∃ (s : State) (r : Req) (w : Waiting) (chan owner pool base log prio timed deadline srcBase srcSize dstBase dstSize : Nat), (Waits s r 0x0E80 w) ∧ (chan < 512) ∧ (breanoChan chan = false) ∧ (owner = 1 ∨ owner = 2) ∧ (pool < 64) ∧ (inMemory base (64 * 2 ^ log) = true) ∧ (3 ≤ log ∧ log ≤ 12) ∧ (prio ≤ 3) ∧ (timed ≤ 1) ∧ (deadline ≤ 1) ∧ ((s.dev.chan chan).dis = .off)) ∧
    (∃ (s : State) (r : Req) (w : Waiting) (chan : Nat), (Waits s r 0x0E81 w) ∧ (Fits w 31) ∧ (chan < 592) ∧ (w.func = 0)) ∧
    (∃ (s : State) (r : Req) (w : Waiting) (chan mode : Nat), (Waits s r 0x0E82 w) ∧ (Fits w 8) ∧ (chan < 592) ∧ (mode ≤ 1) ∧ (w.func = 0) ∧ ((s.dev.chan chan).dis.isEnding = false)) ∧
    (∃ (s : State) (r : Req) (w : Waiting) (chan : Nat), (Waits s r 0x0E83 w) ∧ (chan < 592) ∧ (w.func = 0) ∧ ((s.dev.chan chan).dis = .disabled)) ∧
    (∃ (s : State) (r : Req) (w : Waiting) (chan action : Nat), (Waits s r 0x0E84 w) ∧ (chan < 592) ∧ (action = 1) ∧ (w.func = 0) ∧ ((s.dev.chan chan).halted = true)) ∧
    (∃ (s : State) (r : Req) (w : Waiting) (func base size : Nat), (Waits s r 0x0E85 w) ∧ (func < 16) ∧ (size = 0 ∨ (regionOf base = .dram ∧ regionOf (base + size - 1) = .dram)) ∧ (s.dev.mov.windows = []) ∧ (∀ q ∈ List.range 64, tget 0xFF s.dev.host.qOwner q ≠ func)) :=
  ⟨⟨slotSt 0x0E80 stReady.dev, ⟨0, 0⟩, slot0 0x0E80, 5, 2, 7, 0x1000000000, 4, 1, 1, 0, 1, 2, 3, 4, by decide +kernel⟩,
   ⟨slotSt 0x0E81 stReady.dev, ⟨0, 0⟩, slot0 0x0E81, 5, by decide +kernel⟩,
   ⟨slotSt 0x0E82 stReady.dev, ⟨0, 0⟩, slot0 0x0E82, 5, 1, by decide +kernel⟩,
   ⟨slotSt 0x0E83 ({ stReady.dev with mov := { chans := [(5, { dis := .disabled })] } }), ⟨0, 0⟩, slot0 0x0E83, 5, by decide +kernel⟩,
   ⟨slotSt 0x0E84 ({ stReady.dev with mov := { chans := [(5, { dis := .on, halted := true })] } }), ⟨0, 0⟩, slot0 0x0E84, 5, 1, by decide +kernel⟩,
   ⟨slotSt 0x0E85 stReady.dev, ⟨0, 0⟩, slot0 0x0E85, 3, 0x1080000000, 4096, by decide +kernel⟩⟩

/-- Each clause of MemoryErrors has a state and operands that meet its hypotheses. -/
theorem wit_MemoryErrors :
    (∃ (s : State) (kind unit : Nat) (failed : Bool), (s.dev.mem.tests = [{ kind := kind, unit := unit }]) ∧ (kind = 1) ∧ (failed = false) ∧ (s.dev.mem.transients = [])) ∧
    (∃ (s : State) (kind unit : Nat) (failed : Bool), (s.dev.mem.tests = [{ kind := kind, unit := unit }]) ∧ (kind = 1) ∧ (failed = true) ∧ (s.dev.mem.repair = []) ∧ (s.dev.mem.unrepairable = [])) ∧
    (∃ (s : State) (at_ : Nat), (s.dev.mem.spliceDue = some at_)) ∧
    (∃ (s : State) (cls found : Nat) (x : Scrub), (cls = 0) ∧ (s.dev.mem.scrubD = x) ∧ (x.period ≠ 0) ∧ (x.pos + 1 < 2 ^ 32) ∧ (s.clk.atc ≤ x.start + 2 * periodTc 0 x.period) ∧ ((memDomain (scrubAddr 0 x.pos)).all s.dev.awake = true) ∧ (s.dev.mgmt.fatal = false) ∧ ((tget {} s.dev.mem.ecc (scrubAddr 0 x.pos)).kind = .clean) ∧ (found = 0)) ∧
    (∃ (s : State) (cls found : Nat) (x : Scrub), (cls = 0) ∧ (s.dev.mem.scrubD = x) ∧ (x.period ≠ 0) ∧ (x.pos + 1 < 2 ^ 32) ∧ (s.clk.atc ≤ x.start + 2 * periodTc 0 x.period) ∧ ((memDomain (scrubAddr 0 x.pos)).all s.dev.awake = true) ∧ (s.dev.mgmt.fatal = false) ∧ ((tget {} s.dev.mem.ecc (scrubAddr 0 x.pos)).kind = .clean) ∧ (found = 1)) ∧
    (∃ (s : State) (cls : Nat) (q : UePeriod), (tfind s.dev.mem.uePer cls = some q) ∧ (q.start + 1966080 ≤ s.clk.atc) ∧ (q.count = 0)) ∧
    (∃ (s : State) (unrepairable : List Nat) (tag n : Nat), (s.dev.mem.repairing = [(tag, n)]) ∧ (s.dev.mem.repair.length ≤ n) ∧ (unrepairable = [])) ∧
    (∃ (s : State) (r : Req) (w : Waiting), (Waits s r 0x0E01 w) ∧ (Fits w 96)) ∧
    (∃ (s : State) (r : Req) (w : Waiting) (harq stream : Nat), (Waits s r 0x0E02 w) ∧ (Fits w 96) ∧ (8 ≤ harq ∧ harq ≤ 80) ∧ (4 ≤ stream ∧ stream ≤ 32) ∧ (s.dev.air.carriers = []) ∧ (s.dev.eng.harq = [])) ∧
    (∃ (s : State) (r : Req) (w : Waiting) (cls period : Nat), (Waits s r 0x0E03 w) ∧ (cls = 0) ∧ (period ≤ 168)) ∧
    (∃ (s : State) (r : Req) (w : Waiting) (cls period : Nat), (Waits s r 0x0E03 w) ∧ (cls = 1) ∧ (period ≤ 60)) ∧
    (∃ (s : State) (r : Req) (w : Waiting) (cls : Nat), (Waits s r 0x0E04 w) ∧ (Fits w 12) ∧ (cls ≤ 1)) ∧
    (∃ (s : State) (r : Req) (w : Waiting) (cls : Nat) (x : MemStats), (Waits s r 0x0E05 w) ∧ (Fits w 36) ∧ (cls ≤ 2) ∧ (tget {} s.dev.mem.stats cls = x)) ∧
    (∃ (s : State) (r : Req) (w : Waiting) (addr kind : Nat), (Waits s r 0x0E06 w) ∧ (regionOf addr = .dram) ∧ (kind = 0) ∧ ((tget {} s.dev.mem.ecc (addr / 32 * 32)).kind = .clean) ∧ ((memDomain addr).all s.dev.awake = true) ∧ (s.dev.mem.injPending < 64)) ∧
    (∃ (s : State) (r : Req) (w : Waiting) (first count : Nat) (x : Splice), (Waits s r 0x0E07 w) ∧ (Fits w 8) ∧ (count ≠ 0 ∧ count ≤ 64) ∧ (first = 0) ∧ (s.dev.mem.splices = [x])) ∧
    (∃ (s : State) (r : Req) (w : Waiting) (addr : Nat), (Waits s r 0x0E08 w) ∧ (Fits w 2) ∧ (regionOf addr = .sram) ∧ (s.dev.mem.sparesUsed (macroOf addr) < 2) ∧ (s.dev.mem.splices.length < 4096)) ∧
    (∃ (s : State) (r : Req) (w : Waiting), (Waits s r 0x0E09 w) ∧ (Fits w 4) ∧ (s.dev.devmode.mode = .dormant ∨ s.dev.devmode.mode = .linetest)) ∧
    (∃ (s : State) (r : Req) (w : Waiting) (addr core cls : Nat), (Waits s r 0x0E0A w) ∧ (cls = 0) ∧ (regionOf addr = .dram) ∧ ((memDomain addr).all s.dev.awake = true)) ∧
    (∃ (s : State) (r : Req) (w : Waiting) (addr core cls : Nat), (Waits s r 0x0E0A w) ∧ (cls = 3) ∧ (core < 1024) ∧ (s.dev.awake (core / 64) = true)) :=
  ⟨⟨onDevice ({ stReady.dev with mem := { tests := [{ kind := 1, unit := 0x1000000100 }] } }), 1, 0x1000000100, false, by decide +kernel⟩,
   ⟨onDevice ({ stReady.dev with mem := { tests := [{ kind := 1, unit := 0x1000000100 }] } }), 1, 0x1000000100, true, by decide +kernel⟩,
   ⟨onDevice ({ stReady.dev with mem := { spliceDue := some 5 } }), 5, by decide +kernel⟩,
   ⟨onDevice ({ stReady.dev with mem := { scrubD := { period := 24 } } }), 0, 0, { period := 24 }, by decide +kernel⟩,
   ⟨onDevice ({ stReady.dev with mem := { scrubD := { period := 24 } } }), 0, 1, { period := 24 }, by decide +kernel⟩,
   ⟨{ clk := { atc := 1966080, run := true }, dev := { stReady.dev with mem := { uePer := [(0, { start := 0, count := 0, first := 0 })] } } }, 0, { start := 0, count := 0, first := 0 }, by decide +kernel⟩,
   ⟨onDevice ({ stReady.dev with mem := { repair := [0x1000000100], repairing := [(3, 1)] } }), [], 3, 1, by decide +kernel⟩,
   ⟨slotSt 0x0E01 stReady.dev, ⟨0, 0⟩, slot0 0x0E01, by decide +kernel⟩,
   ⟨slotSt 0x0E02 stReady.dev, ⟨0, 0⟩, slot0 0x0E02, 80, 4, by decide +kernel⟩,
   ⟨slotSt 0x0E03 stReady.dev, ⟨0, 0⟩, slot0 0x0E03, 0, 168, by decide +kernel⟩,
   ⟨slotSt 0x0E03 stReady.dev, ⟨0, 0⟩, slot0 0x0E03, 1, 60, by decide +kernel⟩,
   ⟨slotSt 0x0E04 stReady.dev, ⟨0, 0⟩, slot0 0x0E04, 1, by decide +kernel⟩,
   ⟨slotSt 0x0E05 stReady.dev, ⟨0, 0⟩, slot0 0x0E05, 0, {}, by decide +kernel⟩,
   ⟨slotSt 0x0E06 stReady.dev, ⟨0, 0⟩, slot0 0x0E06, 0x1080000005, 0, by decide +kernel⟩,
   ⟨slotSt 0x0E07 ({ stReady.dev with mem := { splices := [{ macroNo := 5, row := 6, kind := 0, spare := 1 }] } }), ⟨0, 0⟩, slot0 0x0E07, 0, 64, { macroNo := 5, row := 6, kind := 0, spare := 1 }, by decide +kernel⟩,
   ⟨slotSt 0x0E08 stReady.dev, ⟨0, 0⟩, slot0 0x0E08, 0x0200000040, by decide +kernel⟩,
   ⟨slotSt 0x0E09 stReady.dev, ⟨0, 0⟩, slot0 0x0E09, by decide +kernel⟩,
   ⟨slotSt 0x0E0A stReady.dev, ⟨0, 0⟩, slot0 0x0E0A, 0x1080000105, 0, 0, by decide +kernel⟩,
   ⟨slotSt 0x0E0A stReady.dev, ⟨0, 0⟩, slot0 0x0E0A, 0, 70, 3, by decide +kernel⟩⟩

/-- Each clause of SpokeBringUp has a state and operands that meet its hypotheses. -/
theorem wit_SpokeBringUp :
    (∃ (s : State) (spoke : Nat) (hit : Bool) (y : Spoke), (s.dev.spoke spoke = some y) ∧ (y.st = .detect) ∧ (y.pulse = 0)) ∧
    (∃ (s : State) (spoke : Nat) (y : Spoke), (s.dev.spoke spoke = some y) ∧ (y.st = .train) ∧ (y.since + 1966080 ≤ s.clk.atc)) ∧
    (∃ (s : State) (spoke : Nat) (skewOk : Bool) (y : Spoke), (s.dev.spoke spoke = some y) ∧ (y.st = .lock) ∧ (skewOk = true) ∧ (y.profile = 1)) ∧
    (∃ (s : State) (spoke : Nat) (skewOk : Bool) (y : Spoke), (s.dev.spoke spoke = some y) ∧ (y.st = .lock) ∧ (skewOk = false) ∧ (y.fails = 0)) ∧
    (∃ (s : State) (lane : Nat), (True)) ∧
    (∃ (s : State) (spoke : Nat) (y : Spoke), (s.dev.spoke spoke = some y) ∧ (y.st = .lock) ∧ (y.since + 196608000 ≤ s.clk.atc) ∧ (y.fails < 15)) ∧
    (∃ (s : State) (spoke : Nat) (y : Spoke), (s.dev.spoke spoke = some y) ∧ (y.st = .lock) ∧ (s.clk.atc < y.since + 196608000)) ∧
    (∃ (s : State) (spoke : Nat) (y : Spoke), (s.dev.spoke spoke = some y) ∧ (spoke < 128) ∧ (y.st = .wait ∧ y.waitEnd ≤ s.clk.atc) ∧ (y.port = 2) ∧ ((s.dev.lane spoke).scan = none)) ∧
    (∃ (s : State) (spoke : Nat) (y : Spoke), (s.dev.spoke spoke = some y) ∧ (spoke < 128) ∧ (y.st = .exchange) ∧ (y.nextSend ≤ s.clk.atc)) ∧
    (∃ (s : State) (spoke : Nat) (payload : List Byte) (y : Spoke) (a : Agreement), (s.dev.spoke spoke = some y) ∧ (y.st = .exchange) ∧ (y.agreed = none) ∧ (y.first = none) ∧ (payload.length = 64) ∧ (fieldAt payload 0 1 = 1) ∧ (fieldAt payload 1 1 = 1) ∧ (agree y (s.dev.capBody spoke y) ((payload.drop 4).take 28) = some a)) ∧
    (∃ (s : State) (spoke : Nat) (payload : List Byte) (y : Spoke) (a : Agreement), (s.dev.spoke spoke = some y) ∧ (y.st = .exchange) ∧ (y.agreed = some a) ∧ (payload.length = 64) ∧ (fieldAt payload 0 1 = 2) ∧ (fieldAt payload 1 1 = 1) ∧ (fieldAt payload 32 4 ≠ a.word) ∧ (y.fails = 0)) ∧
    (∃ (s : State) (spoke : Nat) (payload : List Byte) (y : Spoke) (a : Agreement), (s.dev.spoke spoke = some y) ∧ (spoke < 128) ∧ (y.st = .exchange) ∧ (y.agreed = some a) ∧ (payload.length = 64) ∧ (fieldAt payload 0 1 = 2) ∧ (fieldAt payload 1 1 = 1) ∧ (fieldAt payload 32 4 = a.word) ∧ (fieldAt payload 36 4 = digest (s.dev.capBody spoke y) y.peerCap) ∧ (a.fast = false ∨ y.fast = true)) ∧
    (∃ (s : State) (spoke kind ue : Nat) (y : Spoke), (s.dev.spoke spoke = some y) ∧ (spoke < 128) ∧ (y.st = .active) ∧ (y.port = 2) ∧ (y.uncorr < 2 ^ 64) ∧ (kind = 1)) ∧
    (∃ (s : State) (spoke kind ue : Nat) (y : Spoke), (s.dev.spoke spoke = some y) ∧ (kind = 2) ∧ (((y.seeUe s.clk.atc ue).ues.map (·.2)).sum ≤ y.ueLimit)) ∧
    (∃ (s : State) (lane : Nat) (errors : Bool) (x : Lane) (y : Spoke), (s.dev.lane lane = x) ∧ (lane < 128) ∧ (x.testAt ≠ 0) ∧ (x.testAt + 19660800 ≤ s.clk.atc + 1) ∧ (errors = false) ∧ (s.dev.mem.transients = []) ∧ (s.dev.spk.spokes = [(lane, y)]) ∧ (y.st = .test ∧ y.port = 2)) ∧
    (∃ (s : State) (lane : Nat) (errors : Bool) (x : Lane), (s.dev.lane lane = x) ∧ (lane < 128) ∧ (x.testAt ≠ 0) ∧ (x.testAt + 19660800 ≤ s.clk.atc + 1) ∧ (x.scan = none) ∧ (errors = true)) ∧
    (∃ (s : State) (spoke tD tag : Nat) (abort : Bool) (y : Spoke), (s.dev.spoke spoke = some y) ∧ (spoke < 128) ∧ (y.st = .active ∧ y.port = 2) ∧ (y.dis = .ending abort tD tag) ∧ (y.resize = none) ∧ (s.dev.portIdle spoke = true) ∧ ((s.dev.lane spoke).scan = none)) ∧
    (∃ (s : State) (spoke ty tag : Nat) (y : Spoke), (s.dev.spoke spoke = some y) ∧ (y.st = .active) ∧ (y.resized = some (ty, tag))) :=
  ⟨⟨onDevice (stSpoke (stSpk .detect)), 2, true, stSpk .detect, by decide +kernel⟩,
   ⟨{ clk := { atc := 1966080, run := true }, dev := stSpoke (stSpk .train) }, 2, stSpk .train, by decide +kernel⟩,
   ⟨onDevice (stSpoke (stSpk .lock)), 2, true, stSpk .lock, by decide +kernel⟩,
   ⟨onDevice (stSpoke (stSpk .lock)), 2, false, stSpk .lock, by decide +kernel⟩,
   ⟨stReady, 3, by decide +kernel⟩,
   ⟨{ clk := { atc := 196608000, run := true }, dev := stSpoke (stSpk .lock) }, 2, stSpk .lock, by decide +kernel⟩,
   ⟨onDevice (stSpoke (stSpk .lock)), 2, stSpk .lock, by decide +kernel⟩,
   ⟨onDevice (stSpoke (stSpk .wait)), 2, stSpk .wait, by decide +kernel⟩,
   ⟨onDevice (stSpoke (stSpk .exchange)), 2, stSpk .exchange, by decide +kernel⟩,
   ⟨onDevice (stSpoke (stSpk .exchange)), 2, pk [(1, 1), (1, 1), (1, 0), (1, 0), (1, 3), (1, 1), (1, 7), (1, 0xA0), (1, 3), (55, 0)], stSpk .exchange, { fast := true, fec := 0, cmp := 7, mLo := 0, mHi := 10, domains := 3 }, by decide +kernel⟩,
   ⟨onDevice (stSpoke { stSpk .exchange with agreed := some { fast := true, fec := 0, cmp := 7, mLo := 0, mHi := 10, domains := 3 } }), 2, pk [(1, 2), (1, 1), (62, 0)], { stSpk .exchange with agreed := some { fast := true, fec := 0, cmp := 7, mLo := 0, mHi := 10, domains := 3 } }, { fast := true, fec := 0, cmp := 7, mLo := 0, mHi := 10, domains := 3 }, by decide +kernel⟩,
   ⟨onDevice (stSpoke stAgreed), 2, stConfirm (digest ((stSpoke stAgreed).capBody 2 stAgreed) []), stAgreed, { fast := false, fec := 0, cmp := 7, mLo := 0, mHi := 10, domains := 3 }, by decide, by decide, by decide, by decide, by simp [stConfirm, pk], rfl, rfl, stConfirm_word _, stConfirm_digest _ (digest_lt _ _), by decide +kernel⟩,
   ⟨onDevice (stSpoke (stSpk .active)), 2, 1, 0, stSpk .active, by decide +kernel⟩,
   ⟨onDevice (stSpoke (stSpk .active)), 2, 2, 10, stSpk .active, by decide +kernel⟩,
   ⟨{ clk := { atc := 19660800, run := true }, dev := { stReady.dev with spk := { spokes := [(2, stSpk .test)], lanes := [(2, { testAt := 1 })] } } }, 2, false, { testAt := 1 }, stSpk .test, by decide +kernel⟩,
   ⟨{ clk := { atc := 19660800, run := true }, dev := { stReady.dev with spk := { spokes := [(2, stSpk .test)], lanes := [(2, { testAt := 1 })] } } }, 2, true, { testAt := 1 }, by decide +kernel⟩,
   ⟨onDevice (stSpoke { stSpk .active with dis := .ending false 5 6 }), 2, 5, 6, false, { stSpk .active with dis := .ending false 5 6 }, by decide +kernel⟩,
   ⟨onDevice (stSpoke { stSpk .active with resized := some (3, 9) }), 2, 3, 9, { stSpk .active with resized := some (3, 9) }, by decide +kernel⟩⟩

/-- Each clause of SpokeCommands has a state and operands that meet its hypotheses. -/
theorem wit_SpokeCommands :
    (∃ (s : State) (r : Req) (w : Waiting) (spoke port profile fec rate cmp mRange domains timed ueLimit : Nat) (y : Spoke), (Waits s r 0x0701 w) ∧ (spoke < 128) ∧ (port = 2 ∧ profile ≤ 1 ∧ fec ≤ 1 ∧ rate ≤ 1 ∧ cmp < 8 ∧ mRange = 0xA0 ∧ domains < 4 ∧ timed ≤ 1) ∧ (s.dev.spoke spoke = some y) ∧ (s.dev.spk.spokes = [(spoke, y)]) ∧ (y.resting = true) ∧ (y.port = 2)) ∧
    (∃ (s : State) (r : Req) (w : Waiting) (spoke port profile fec rate cmp mRange domains timed ueLimit : Nat), (Waits s r 0x0701 w) ∧ (spoke < 128) ∧ (port = 0 ∨ 10 < port)) ∧
    (∃ (s : State) (r : Req) (w : Waiting) (spoke : Nat) (y : Spoke), (Waits s r 0x0702 w) ∧ (spoke < 128) ∧ (s.dev.spk.spokes = [(spoke, y)]) ∧ (y.resting = true) ∧ (y.port = 2) ∧ (s.dev.laneBar spoke 25781250 = none) ∧ ((s.dev.lane spoke).retired = false) ∧ ((s.dev.lane spoke).scan = none) ∧ (y.fast = false)) ∧
    (∃ (s : State) (r : Req) (w : Waiting) (spoke : Nat), (Waits s r 0x0702 w) ∧ (spoke < 128) ∧ (s.dev.spk.spokes = [])) ∧
    (∃ (s : State) (r : Req) (w : Waiting) (spoke mode : Nat) (y : Spoke), (Waits s r 0x0703 w) ∧ (Fits w 8) ∧ (spoke < 128) ∧ (mode = 0) ∧ (s.dev.spk.spokes = [(spoke, y)]) ∧ (y.st = .active) ∧ (y.dis = .on) ∧ (y.port = 2)) ∧
    (∃ (s : State) (r : Req) (w : Waiting) (spoke : Nat), (Waits s r 0x0704 w) ∧ (Fits w 64) ∧ (spoke < 128) ∧ (s.dev.liveSpoke spoke = none)) ∧
    (∃ (s : State) (r : Req) (w : Waiting) (spoke : Nat) (y : Spoke) (a : Agreement), (Waits s r 0x0704 w) ∧ (Fits w 64) ∧ (spoke < 128) ∧ (s.dev.liveSpoke spoke = some y) ∧ (y.agreed = some a)) ∧
    (∃ (s : State) (r : Req) (w : Waiting) (spoke : Nat) (y : Spoke), (Waits s r 0x0705 w) ∧ (Fits w 16) ∧ (spoke < 128) ∧ (s.dev.liveSpoke spoke = some y) ∧ (y.st = .active) ∧ (y.port = 2 ∧ y.fast = false) ∧ ((y.agreed.map (·.fec)) = some 0)) ∧
    (∃ (s : State) (r : Req) (w : Waiting) (spoke first count e : Nat) (entries : List Nat) (y : Spoke), (Waits s r 0x0706 w) ∧ (spoke < 128) ∧ (first < 256 ∧ count = 1 ∧ entries = [e]) ∧ (bits e 14 2 = 0) ∧ (s.dev.liveSpoke spoke = some y) ∧ (s.dev.mapFault spoke [MapEntry.of e] (if y.profile = 1 && y.agreed.isNone then y.domains else (y.agreed.getD y.standard).domains) = none) ∧ ((MapEntry.of e).tx = false ∧ (MapEntry.of e).rx = true) ∧ ((s.dev.mapLoad spoke (tput (s.dev.mapOf spoke).latest first (MapEntry.of e)) * 100) ≤ y.rate.1 * 1000000 / max y.rate.2 1 * 95)) ∧
    (∃ (s : State) (r : Req) (w : Waiting) (spoke port : Nat) (y : Spoke), (Waits s r 0x0707 w) ∧ (Fits w 8) ∧ (spoke < 128) ∧ (port = 1) ∧ (s.dev.spk.spokes = [(spoke, y)]) ∧ (y.st = .active ∧ y.dis = .on ∧ y.port = 2 ∧ y.profile = 1) ∧ (s.dev.laneOptical spoke = false)) ∧
    (∃ (s : State) (r : Req) (w : Waiting) (first count : Nat) (entries : List Byte), (Waits s r 0x0710 w) ∧ (first + count ≤ 128 ∧ first < 128) ∧ (entries.length = 48 * count) ∧ (count = 1) ∧ (laneEntryFault first entries = none) ∧ (s.dev.spk.spokes = []) ∧ (s.dev.pkg.blobFlash = none) ∧ (s.dev.truing.units = [])) ∧
    (∃ (s : State) (r : Req) (w : Waiting) (lane : Nat), (Waits s r 0x0711 w) ∧ (Fits w 48) ∧ (lane < 128)) ∧
    (∃ (s : State) (r : Req) (w : Waiting) (lane loop echo : Nat), (Waits s r 0x0712 w) ∧ (lane < 128 ∧ loop ≤ 3 ∧ echo ≤ 1) ∧ (s.dev.laneFree lane = true)) ∧
    (∃ (s : State) (r : Req) (w : Waiting) (lane loop echo : Nat), (Waits s r 0x0712 w) ∧ (lane < 128 ∧ loop ≤ 3 ∧ echo ≤ 1) ∧ (s.dev.laneFree lane = false)) ∧
    (∃ (s : State) (r : Req) (w : Waiting) (lane pat inv user raw : Nat), (Waits s r 0x0713 w) ∧ (lane < 128 ∧ pat ≤ 6 ∧ inv ≤ 1) ∧ (raw = 0) ∧ ((s.dev.lane lane).raw = 0) ∧ (s.dev.laneFree lane = true)) ∧
    (∃ (s : State) (r : Req) (w : Waiting) (lane pat inv user enable : Nat), (Waits s r 0x0714 w) ∧ (lane < 128 ∧ pat ≤ 6 ∧ inv ≤ 1 ∧ enable ≤ 1) ∧ ((s.dev.lane lane).locked = false) ∧ (s.dev.laneFree lane = true)) ∧
    (∃ (s : State) (r : Req) (w : Waiting) (lane point len every : Nat), (Waits s r 0x0715 w) ∧ (lane < 128 ∧ point = 0 ∧ 1 ≤ len ∧ len ≤ 64) ∧ (every = 0 ∨ 1024 ≤ every ∧ every ≤ 2 ^ 40) ∧ (s.dev.laneFree lane = true)) ∧
    (∃ (s : State) (lane : Nat) (overlap : Bool), ((s.dev.lane lane).injLen ≠ 0) ∧ ((s.dev.lane lane).injEvery ≠ 0)) ∧
    (∃ (s : State) (lane : Nat), ((s.dev.lane lane).chkOn = true) ∧ ((s.dev.lane lane).locked = false)) ∧
    (∃ (s : State) (lane : Nat), ((s.dev.lane lane).locked = true)) ∧
    (∃ (s : State) (r : Req) (w : Waiting) (lane clear : Nat) (x : Lane), (Waits s r 0x0716 w) ∧ (Fits w 37) ∧ (lane < 128) ∧ (clear = 1) ∧ (s.dev.lane lane = x) ∧ (x.locked = false)) ∧
    (∃ (s : State) (r : Req) (w : Waiting) (lane kind n : Nat), (Waits s r 0x0717 w) ∧ (lane < 128 ∧ kind ≤ 1 ∧ 6 ≤ n ∧ n ≤ 12) ∧ (s.dev.laneSpeed lane = (25781250, false)) ∧ ((s.dev.lane lane).scan = none)) ∧
    (∃ (s : State) (lane : Nat) (x : Scan), ((s.dev.lane lane).scan = some x) ∧ (x.aborted = true)) ∧
    (∃ (s : State) (lane : Nat) (x : Scan), ((s.dev.lane lane).scan = some x) ∧ (x.aborted = false) ∧ (x.ends ≤ s.clk.atc) ∧ (x.kind = 0)) ∧
    (∃ (s : State) (r : Req) (w : Waiting) (lane : Nat) (e : Eye), (Waits s r 0x0718 w) ∧ (Fits w 26) ∧ (lane < 128) ∧ ((s.dev.lane lane).eye = some e) ∧ (e.eyes = [(3, 4, 5, 6)]) ∧ (bit w.flags 0 = false)) ∧
    (∃ (s : State) (r : Req) (w : Waiting) (lane : Nat), (Waits s r 0x0719 w) ∧ (lane < 128) ∧ (s.dev.laneFree lane = true)) :=
  ⟨⟨slotSt 0x0701 (stSpoke (stSpk .disabled)), ⟨0, 0⟩, slot0 0x0701, 2, 2, 1, 1, 1, 7, 0xA0, 3, 0, 4, stSpk .disabled, by decide +kernel⟩,
   ⟨slotSt 0x0701 stReady.dev, ⟨0, 0⟩, slot0 0x0701, 2, 11, 1, 1, 1, 7, 0xA0, 3, 0, 4, by decide +kernel⟩,
   ⟨slotSt 0x0702 (stSpoke (stSpk .disabled)), ⟨0, 0⟩, slot0 0x0702, 2, stSpk .disabled, by decide +kernel⟩,
   ⟨slotSt 0x0702 ({ stReady.dev with spk := { spokes := [] } }), ⟨0, 0⟩, slot0 0x0702, 2, by decide +kernel⟩,
   ⟨slotSt 0x0703 (stSpoke (stSpk .active)), ⟨0, 0⟩, slot0 0x0703, 2, 0, stSpk .active, by decide +kernel⟩,
   ⟨slotSt 0x0704 stReady.dev, ⟨0, 0⟩, slot0 0x0704, 2, by decide +kernel⟩,
   ⟨slotSt 0x0704 (stSpoke { stSpk .active with agreed := some (stSpk .active).standard }), ⟨0, 0⟩, slot0 0x0704, 2, { stSpk .active with agreed := some (stSpk .active).standard }, (stSpk .active).standard, by decide +kernel⟩,
   ⟨slotSt 0x0705 (stSpoke { stSpk .active with agreed := some (stSpk .active).standard }), ⟨0, 0⟩, slot0 0x0705, 2, { stSpk .active with agreed := some (stSpk .active).standard }, by decide +kernel⟩,
   ⟨slotSt 0x0706 ({ stSpoke (stSpk .active) with fe := { streams := [(3, stStream)] } }), ⟨0, 0⟩, slot0 0x0706, 2, 255, 1, 0x1003, [0x1003], stSpk .active, by decide +kernel⟩,
   ⟨slotSt 0x0707 (stSpoke (stSpk .active)), ⟨0, 0⟩, slot0 0x0707, 2, 1, stSpk .active, by decide +kernel⟩,
   ⟨slotSt 0x0710 ({ stReady.dev with spk := { spokes := [], table := (List.range 128).flatMap stLane } }), ⟨0, 0⟩, slot0 0x0710, 2, 1, stLane 2, by decide +kernel⟩,
   ⟨slotSt 0x0711 (stSpoke (stSpk .active)), ⟨0, 0⟩, slot0 0x0711, 2, by decide +kernel⟩,
   ⟨slotSt 0x0712 stReady.dev, ⟨0, 0⟩, slot0 0x0712, 2, 3, 1, by decide +kernel⟩,
   ⟨slotSt 0x0712 (stSpoke (stSpk .active)), ⟨0, 0⟩, slot0 0x0712, 2, 3, 1, by decide +kernel⟩,
   ⟨slotSt 0x0713 stReady.dev, ⟨0, 0⟩, slot0 0x0713, 2, 6, 1, 5, 0, by decide +kernel⟩,
   ⟨slotSt 0x0714 stReady.dev, ⟨0, 0⟩, slot0 0x0714, 2, 6, 1, 5, 1, by decide +kernel⟩,
   ⟨slotSt 0x0715 stReady.dev, ⟨0, 0⟩, slot0 0x0715, 2, 0, 64, 1024, by decide +kernel⟩,
   ⟨onDevice ({ stReady.dev with spk := { lanes := [(2, { injLen := 3, injEvery := 1024 })] } }), 2, true, by decide +kernel⟩,
   ⟨onDevice ({ stReady.dev with spk := { lanes := [(2, { chkOn := true })] } }), 2, by decide +kernel⟩,
   ⟨onDevice ({ stReady.dev with spk := { lanes := [(2, { chkOn := true, locked := true })] } }), 2, by decide +kernel⟩,
   ⟨slotSt 0x0716 ({ stReady.dev with spk := { lanes := [(2, { nBits := 5, nLoss := 1 })] } }), ⟨0, 0⟩, slot0 0x0716, 2, 1, { nBits := 5, nLoss := 1 }, by decide +kernel⟩,
   ⟨slotSt 0x0717 (stSpoke (stSpk .active)), ⟨0, 0⟩, slot0 0x0717, 2, 1, 6, by decide +kernel⟩,
   ⟨onDevice ({ stReady.dev with spk := { lanes := [(2, { scan := some { kind := 0, n := 6, ends := 5, aborted := true } })] } }), 2, { kind := 0, n := 6, ends := 5, aborted := true }, by decide +kernel⟩,
   ⟨onDevice ({ stReady.dev with spk := { lanes := [(2, { scan := some { kind := 0, n := 6, ends := 0 } })] } }), 2, { kind := 0, n := 6, ends := 0 }, by decide +kernel⟩,
   ⟨slotSt 0x0718 ({ stReady.dev with spk := { lanes := [(2, { eye := some { kind := 0, atc := 9, eyes := [(3, 4, 5, 6)], map := [] } })] } }), ⟨0, 0⟩, slot0 0x0718, 2, { kind := 0, atc := 9, eyes := [(3, 4, 5, 6)], map := [] }, by decide +kernel⟩,
   ⟨slotSt 0x0719 stReady.dev, ⟨0, 0⟩, slot0 0x0719, 2, by decide +kernel⟩⟩

/-- Each clause of MacTraffic has a state and operands that meet its hypotheses. -/
theorem wit_MacTraffic :
    (∃ (s : State) (port fecCorr fecUe : Nat) (frame : List Byte) (symErr : Bool) (y : Spoke), (port < 128) ∧ (s.dev.liveSpoke port = some y) ∧ (y.st = .active) ∧ (y.dis.isEnding = false) ∧ (s.dev.awake (spkBlock port) = true) ∧ (fcs (frame.take (frame.length - 4)) ≠ frame.drop (frame.length - 4)) ∧ ((s.dev.port port).keepBad = false)) ∧
    (∃ (s : State) (port fecCorr fecUe : Nat) (frame : List Byte) (symErr : Bool) (y : Spoke), (port < 128) ∧ (s.dev.liveSpoke port = some y) ∧ (y.st = .active) ∧ (y.dis.isEnding = false) ∧ (s.dev.awake (spkBlock port) = true) ∧ (frame.length = 64) ∧ (fcs (frame.take 60) = frame.drop 60) ∧ (symErr = false) ∧ (64 ≤ (s.dev.port port).maxFrame) ∧ ((s.dev.port port).accept (fieldBe frame 0 6) = .yes) ∧ (fieldBe frame 12 2 = 0x8808) ∧ (fieldBe frame 14 2 = 1) ∧ ((s.dev.port port).rxPause = true) ∧ ((s.dev.port port).vlanCheck = false) ∧ ((s.dev.port port).pause.length = 9) ∧ (fieldBe frame 16 2 ≠ 0)) ∧
    (∃ (s : State) (port prio : Nat), (prio < 9) ∧ ((s.dev.port port).pause.getD prio 0 ≤ s.clk.atc) ∧ ((s.dev.port port).queue = []) ∧ ((s.dev.port port).heldAt = 0)) ∧
    (∃ (s : State) (port : Nat), (True)) ∧
    (∃ (s : State) (port : Nat) (y : Spoke) (f : TxFrame), (s.dev.spoke port = some y) ∧ (y.st = .active) ∧ ((s.dev.port port).busy = none) ∧ ((s.dev.port port).lpi = 0) ∧ ((s.dev.port port).heldAt = 0) ∧ (s.dev.idleOnly = false) ∧ ((s.dev.port port).queue = [f]) ∧ (f.cls = 1) ∧ (f.insert = 0)) ∧
    (∃ (s : State) (port e : Nat) (f : TxFrame), ((s.dev.port port).busy = some (f, e)) ∧ (s.clk.atc < e) ∧ ((s.dev.port port).startTh < (s.dev.port port).maxFrame) ∧ ((s.dev.port port).startTh < f.bytes.length)) ∧
    (∃ (s : State) (port : Nat) (y : Spoke), (s.dev.liveSpoke port = some y) ∧ (y.st = .active ∧ y.dis = .on) ∧ (s.dev.awake (spkBlock port) = true) ∧ ((s.dev.port port).txPfc ≠ 0) ∧ ((s.dev.port port).rxChan ≠ 0xFFFF) ∧ (s.dev.posted (s.dev.port port).rxChan < 8) ∧ ((s.dev.port port).pfcAt = none)) ∧
    (∃ (s : State) (port : Nat) (y : Spoke), (s.dev.liveSpoke port = some y) ∧ (y.st = .active) ∧ ((s.dev.port port).lpiEn = true) ∧ ((s.dev.port port).tw.isSome = true) ∧ ((s.dev.port port).lpi = 0) ∧ ((s.dev.port port).queue = []) ∧ ((s.dev.port port).busy = none) ∧ ((s.dev.port port).lpiAt + usTc (s.dev.port port).lpiIdle ≤ s.clk.atc)) ∧
    (∃ (s : State) (port : Nat), ((s.dev.port port).lpi = 2) ∧ ((s.dev.port port).lpiAt + usTc ((s.dev.port port).tw.getD 0) ≤ s.clk.atc)) ∧
    (∃ (s : State) (port : Nat) (m : DelayMeas), ((s.dev.port port).meas = some m) ∧ (m.start + 19660800 ≤ s.clk.atc)) ∧
    (∃ (s : State) (port : Nat) (o : Nat × List (Nat × Nat × Nat)), (port < 128) ∧ ((s.dev.port port).oldSteer = some o) ∧ (o.1 + 1966080 ≤ s.clk.atc)) ∧
    (∃ (s : State) (port : Nat) (event : Bool) (frame : List Byte) (y : Spoke), (s.dev.spoke port = some y) ∧ (y.st = .active ∧ y.dis = .on) ∧ (s.dev.awake (spkBlock port) = true) ∧ (s.dev.time.tports = [port]) ∧ (s.dev.time.set.profile ≠ 0) ∧ (s.dev.time.set.roles = [(1, 0)]) ∧ (s.dev.devmode.mode ≠ .stoker) ∧ (14 ≤ frame.length) ∧ (fieldBe frame 12 2 ≠ 0x8100)) :=
  ⟨⟨onDevice (stSpoke (stSpk .active)), 2, 1, 0, List.replicate 64 1, false, stSpk .active, by decide +kernel⟩,
   ⟨onDevice ({ stSpoke (stSpk .active) with mac := { ports := [(2, { rxPause := true })] } }), 2, 0, 0, stPause ++ fcs stPause, false, stSpk .active, by decide +kernel⟩,
   ⟨onDevice ({ stReady.dev with mac := { ports := [(2, { pause := [1, 1, 1, 1, 1, 1, 1, 1, 0] })] } }), 2, 8, by decide +kernel⟩,
   ⟨onDevice ({ stReady.dev with mac := { ports := [(2, { queue := [{ cls := 2, bytes := [], ready := 0 }] })] } }), 2, by decide +kernel⟩,
   ⟨onDevice ({ stSpoke (stSpk .active) with mac := { ports := [(2, { queue := [{ cls := 1, bytes := [1, 2, 3], ready := 0 }] })] } }), 2, stSpk .active, { cls := 1, bytes := [1, 2, 3], ready := 0 }, by decide +kernel⟩,
   ⟨onDevice ({ stReady.dev with mac := { ports := [(2, { busy := some ({ cls := 4, bytes := List.replicate 300 0, ready := 0 }, 500) })] } }), 2, 500, { cls := 4, bytes := List.replicate 300 0, ready := 0 }, by decide +kernel⟩,
   ⟨onDevice ({ stSpoke (stSpk .active) with mac := { ports := [(2, { txPfc := 2, rxChan := 512 })] } }), 2, stSpk .active, by decide +kernel⟩,
   ⟨{ clk := { atc := 4000, run := true }, dev := { stSpoke (stSpk .active) with mac := { ports := [(2, { lpiEn := true, tw := some 20 })] } } }, 2, stSpk .active, by decide +kernel⟩,
   ⟨{ clk := { atc := 90000, run := true }, dev := { stReady.dev with mac := { ports := [(2, { lpi := 2, tw := some 20 })] } } }, 2, by decide +kernel⟩,
   ⟨{ clk := { atc := 19660800, run := true }, dev := { stReady.dev with mac := { ports := [(2, { meas := some { id := 4, two := false, start := 0 } })] } } }, 2, { id := 4, two := false, start := 0 }, by decide +kernel⟩,
   ⟨{ clk := { atc := 1966080, run := true }, dev := { stReady.dev with mac := { ports := [(2, { oldSteer := some (0, []) })] } } }, 2, (0, []), by decide +kernel⟩,
   ⟨onDevice ({ stSpoke (stSpk .active) with time := { tports := [2], set := { profile := 1, roles := [(1, 0)] } } }), 2, true, List.replicate 60 0, stSpk .active, by decide +kernel⟩⟩

/-- Each clause of MacCommands has a state and operands that meet its hypotheses. -/
theorem wit_MacCommands :
    (∃ (s : State) (r : Req) (w : Waiting) (port ownMac peerMac tci transport ownIp peerIp udp dscp maxFrame seg : Nat) (y : Spoke), (Waits s r 0x0801 w) ∧ (port < 128) ∧ (s.dev.liveSpoke port = some y) ∧ (transport ≤ 2 ∧ dscp < 64 ∧ 1518 ≤ maxFrame ∧ maxFrame ≤ 9600 ∧ seg % 16 = 0 ∧ 16 ≤ seg ∧ seg ≤ 2048) ∧ (headerLen transport tci + seg / 16 * 65 ≤ maxFrame) ∧ (s.dev.mapActive port = false)) ∧
    (∃ (s : State) (r : Req) (w : Waiting) (port ownMac peerMac tci transport ownIp peerIp udp dscp maxFrame seg : Nat), (Waits s r 0x0801 w) ∧ (port < 128) ∧ (s.dev.liveSpoke port = none)) ∧
    (∃ (s : State) (r : Req) (w : Waiting) (port enable prom allmc keepBad vlanCheck : Nat) (addrs : List Nat) (y : Spoke), (Waits s r 0x0802 w) ∧ (port < 128) ∧ (s.dev.liveSpoke port = some y) ∧ (addrs.length = 16 ∧ prom ≤ 1 ∧ allmc ≤ 1 ∧ keepBad ≤ 1 ∧ vlanCheck ≤ 1)) ∧
    (∃ (s : State) (r : Req) (w : Waiting) (port rxPause pfcRx txPfc hold : Nat) (y : Spoke), (Waits s r 0x0803 w) ∧ (port < 128) ∧ (s.dev.liveSpoke port = some y) ∧ (rxPause ≤ 1 ∧ hold ≤ 500) ∧ (bit txPfc ((s.dev.port port).tci / 8192) = false) ∧ ((s.dev.port port).queue = []) ∧ ((s.dev.port port).heldAt = 0)) ∧
    (∃ (s : State) (r : Req) (w : Waiting) (port en idle : Nat) (y : Spoke), (Waits s r 0x0804 w) ∧ (port < 128) ∧ (s.dev.liveSpoke port = some y) ∧ (y.port = 2) ∧ (en = 1) ∧ (1 ≤ idle ∧ idle ≤ 1000)) ∧
    (∃ (s : State) (r : Req) (w : Waiting) (port rx tx : Nat) (y : Spoke), (Waits s r 0x0805 w) ∧ (port < 128) ∧ (s.dev.liveSpoke port = some y) ∧ (512 ≤ rx ∧ rx < 576 ∧ tx = 0xFFFF) ∧ (s.dev.chanFunc rx = 0) ∧ ((s.dev.chan rx).dis = .off)) ∧
    (∃ (s : State) (r : Req) (w : Waiting) (port first count e : Nat) (entries : List Nat) (y : Spoke), (Waits s r 0x0806 w) ∧ (port < 128) ∧ (s.dev.liveSpoke port = some y) ∧ (first < 256 ∧ count = 1 ∧ entries = [e]) ∧ (bits e 27 5 = 0)) ∧
    (∃ (s : State) (r : Req) (w : Waiting) (port : Nat) (y : Spoke), (Waits s r 0x0807 w) ∧ (Fits w 2) ∧ (port < 128) ∧ (s.dev.liveSpoke port = some y) ∧ ((s.dev.port port).raisedAt ≠ s.clk.atc + 1)) ∧
    (∃ (s : State) (r : Req) (w : Waiting) (port clear : Nat) (y : Spoke), (Waits s r 0x0808 w) ∧ (Fits w 224) ∧ (port < 128) ∧ (s.dev.liveSpoke port = some y) ∧ (clear = 1) ∧ ((s.dev.port port).queue = []) ∧ ((s.dev.port port).heldAt = 0) ∧ ((s.dev.port port).lpi ≠ 1) ∧ (tget [] s.dev.cyc.mac port = (s.dev.port port).stats)) ∧
    (∃ (s : State) (r : Req) (w : Waiting) (port two id : Nat) (y : Spoke), (Waits s r 0x0809 w) ∧ (port < 128) ∧ (s.dev.liveSpoke port = some y) ∧ (y.dis = .on) ∧ (s.dev.awake (spkBlock port) = true) ∧ (two = 0) ∧ ((s.dev.port port).meas = none)) ∧
    (∃ (s : State) (r : Req) (w : Waiting) (port : Nat) (y : Spoke), (Waits s r 0x080A w) ∧ (Fits w 8) ∧ (port < 128) ∧ (s.dev.liveSpoke port = some y) ∧ ((s.dev.port port).pause = List.replicate 9 0) ∧ ((s.dev.port port).lpiEn = false)) :=
  ⟨⟨slotSt 0x0801 (stSpoke (stSpk .active)), ⟨0, 0⟩, slot0 0x0801, 2, 1, 2, 3, 2, 4, 5, 6, 63, 9600, 2048, stSpk .active, by decide +kernel⟩,
   ⟨slotSt 0x0801 stReady.dev, ⟨0, 0⟩, slot0 0x0801, 2, 1, 2, 3, 2, 4, 5, 6, 63, 9600, 2048, by decide +kernel⟩,
   ⟨slotSt 0x0802 (stSpoke (stSpk .active)), ⟨0, 0⟩, slot0 0x0802, 2, 1, 1, 0, 1, 0, List.replicate 16 9, stSpk .active, by decide +kernel⟩,
   ⟨slotSt 0x0803 (stSpoke (stSpk .active)), ⟨0, 0⟩, slot0 0x0803, 2, 1, 5, 2, 500, stSpk .active, by decide +kernel⟩,
   ⟨slotSt 0x0804 (stSpoke (stSpk .active)), ⟨0, 0⟩, slot0 0x0804, 2, 1, 1000, stSpk .active, by decide +kernel⟩,
   ⟨slotSt 0x0805 ({ stSpoke (stSpk .active) with host := { stReady.dev.host with qOwner := [(0, 0)] } }), ⟨0, 0⟩, slot0 0x0805, 2, 512, 0xFFFF, stSpk .active, by decide +kernel⟩,
   ⟨slotSt 0x0806 (stSpoke (stSpk .active)), ⟨0, 0⟩, slot0 0x0806, 2, 255, 1, 0x00030007, [0x00030007], stSpk .active, by decide +kernel⟩,
   ⟨slotSt 0x0807 ({ stSpoke (stSpk .active) with mac := { ports := [(2, { startTh := 512 })] } }), ⟨0, 0⟩, slot0 0x0807, 2, stSpk .active, by decide +kernel⟩,
   ⟨slotSt 0x0808 ({ stSpoke (stSpk .active) with mac := { ports := [(2, { stats := [(3, 7)] })] }, cyc := { mac := [(2, [(3, 7)])] } }), ⟨0, 0⟩, slot0 0x0808, 2, 1, stSpk .active, by decide +kernel⟩,
   ⟨slotSt 0x0809 (stSpoke (stSpk .active)), ⟨0, 0⟩, slot0 0x0809, 2, 0, 9, stSpk .active, by decide +kernel⟩,
   ⟨slotSt 0x080A (stSpoke (stSpk .active)), ⟨0, 0⟩, slot0 0x080A, 2, stSpk .active, by decide +kernel⟩⟩

/-- Each clause of CopperLine has a state and operands that meet its hypotheses. -/
theorem wit_CopperLine :
    (∃ (s : State) (spoke echo : Nat) (y : CopSpoke), (128 ≤ spoke ∧ spoke < 144) ∧ (s.dev.copper spoke = some y) ∧ (y.dis = .on ∧ y.mode = 0 ∧ y.mask = 1 ∧ y.change = none ∧ y.active = false ∧ y.queue = [] ∧ y.part = []) ∧ ((s.dev.pair (4 * (spoke - 128))).st = .active) ∧ ((s.dev.pair (4 * (spoke - 128))).swapAt = none) ∧ (y.frame ≠ (s.clk.atc + y.lineAdv) / 19660800 + 1)) ∧
    (∃ (s : State) (pair q errs power : Nat) (y : CopSpoke), (s.dev.pairSpoke pair = some y) ∧ (y.mode = 0) ∧ ((q + y.lineAdv) % 19660800 = 0) ∧ (q + 19200 ≤ s.clk.atc) ∧ (errs ≤ y.syncTol) ∧ ((s.dev.pair pair).st = .active)) ∧
    (∃ (s : State) (pair q errs power : Nat) (y : CopSpoke), (s.dev.pairSpoke pair = some y) ∧ (y.syncTol < errs)) ∧
    (∃ (s : State) (pair header : Nat) (y : CopSpoke) (o : SyncCand), (s.dev.pairSpoke pair = some y) ∧ (y.mode = 0) ∧ ((s.dev.pair pair).cand = some o) ∧ (o.q + 38400 ≤ s.clk.atc) ∧ ((s.dev.pair pair).st = .load) ∧ (bits header 48 16 = crc16 (bits header 0 48)) ∧ (bits header 4 1 = 1)) ∧
    (∃ (s : State) (pair header : Nat) (y : CopSpoke) (o : SyncCand), (s.dev.pairSpoke pair = some y) ∧ ((s.dev.pair pair).cand = some o) ∧ (o.q + 38400 ≤ s.clk.atc) ∧ (bits header 48 16 ≠ crc16 (bits header 0 48))) ∧
    (∃ (s : State) (pair : Nat) (x : Nat × Nat × Bool), ((s.dev.pair pair).burst = some x) ∧ (x.1 ≤ s.clk.atc)) ∧
    (∃ (s : State) (pair : Nat) (frame : List Byte) (y : CopSpoke), (s.dev.copper (pairSpokeNo pair) = some y) ∧ ((s.dev.pair pair).st = .load) ∧ (s.dev.awake (copBlock (pairSpokeNo pair)) = true) ∧ (frame.length ≠ 12 + fieldBe frame 2 2 ∨ fieldBe frame (8 + fieldBe frame 2 2) 4 ≠ crc32 (frame.take (8 + fieldBe frame 2 2)))) ∧
    (∃ (s : State) (pair : Nat) (frame : List Byte) (y : CopSpoke), (s.dev.copper (pairSpokeNo pair) = some y) ∧ (y.mode = 0) ∧ ((s.dev.pair pair).st = .detect) ∧ (s.dev.awake (copBlock (pairSpokeNo pair)) = true) ∧ (frame.length = 12 + fieldBe frame 2 2) ∧ (fieldBe frame (8 + fieldBe frame 2 2) 4 = crc32 (frame.take (8 + fieldBe frame 2 2))) ∧ (11 ≤ fieldBe frame 2 2 ∧ fieldBe frame 2 2 ≤ 16384) ∧ (fieldAt frame 0 1 = 1) ∧ (fieldAt frame 8 1 = 2) ∧ (bit (fieldAt frame 18 1) 0 = true)) ∧
    (∃ (s : State) (pair : Nat) (y : CopSpoke), (s.dev.copper (pairSpokeNo pair) = some y) ∧ (y.mode = 0) ∧ ((s.dev.pair pair).st = .echo) ∧ ((s.dev.pair pair).since + 983040000 ≤ s.clk.atc) ∧ (y.fails < 15)) ∧
    (∃ (s : State) (pair : Nat) (up : Bool) (y : CopSpoke), (s.dev.copper (pairSpokeNo pair) = some y) ∧ (y.autoSwap = true) ∧ (y.active = true) ∧ (s.dev.breanoAway = false) ∧ ((s.dev.pair pair).st = .active) ∧ ((s.dev.pair pair).up = 1)) ∧
    (∃ (s : State) (spoke kind pair : Nat) (y : CopSpoke), (s.dev.copper spoke = some y) ∧ (y.active = true ∧ y.mask = 1 ∧ y.change = none ∧ y.mark = 0xFFFF) ∧ (kind = 2)) ∧
    (∃ (s : State) (pair at_ : Nat) (pass : Bool) (y : CopSpoke), (s.dev.copper (pairSpokeNo pair) = some y) ∧ ((s.dev.pair pair).test = (at_, none)) ∧ (at_ ≠ 0 ∧ at_ + 19660800 ≤ s.clk.atc + 1) ∧ (pass = true) ∧ (s.dev.mem.transients = []) ∧ ((s.dev.pair pair).st = .test)) ∧
    (∃ (s : State) (spoke tD tag : Nat) (abort : Bool) (y : CopSpoke), (s.dev.copper spoke = some y) ∧ (y.dis = .ending abort tD tag) ∧ (y.queue = [] ∧ y.mark = 0xFFFF ∧ y.mask = 1 ∧ y.change = none)) ∧
    (∃ (s : State) (spoke tag : Nat) (y : CopSpoke), (s.dev.copper spoke = some y) ∧ (y.mask = 1) ∧ (y.change = some (1, tag)) ∧ ((s.dev.pair (4 * (spoke - 128))).st = .active)) ∧
    (∃ (s : State) (pair tag margin addr len : Nat) (noPeer : Bool), ((s.dev.pair pair).qualify = some (tag, margin, addr, len)) ∧ (noPeer = true)) ∧
    (∃ (s : State) (pair tag margin addr len : Nat) (noPeer : Bool), ((s.dev.pair pair).qualify = some (tag, margin, addr, len)) ∧ (noPeer = false)) :=
  ⟨⟨onDevice (stCopper (stCop 0 .on false) { st := .active }), 128, 0, stCop 0 .on false, by decide +kernel⟩,
   ⟨{ clk := { atc := 19200, run := true }, dev := stCopper (stCop 0 .on true) { st := .active } }, 0, 0, 8, 5, stCop 0 .on true, by decide +kernel⟩,
   ⟨onDevice (stCopper (stCop 0 .on true) { st := .active }), 0, 0, 9, 5, stCop 0 .on true, by decide +kernel⟩,
   ⟨{ clk := { atc := 38400, run := true }, dev := stCopper (stCop 0 .on true) { st := .load, cand := some { q := 0, errs := 0, strength := -30 } } }, 0, headerBits 0 1 5 0 0, stCop 0 .on true, { q := 0, errs := 0, strength := -30 }, by decide +kernel⟩,
   ⟨{ clk := { atc := 38400, run := true }, dev := stCopper (stCop 0 .on true) { st := .load, cand := some { q := 0, errs := 0, strength := -30 } } }, 0, 0, stCop 0 .on true, { q := 0, errs := 0, strength := -30 }, by decide +kernel⟩,
   ⟨onDevice (stCopper (stCop 0 .on true) { st := .active, burst := some (0, 1, true) }), 0, (0, 1, true), by decide +kernel⟩,
   ⟨onDevice (stCopper (stCop 0 .on true) { st := .load }), 0, [1, 2, 3], stCop 0 .on true, by decide +kernel⟩,
   ⟨onDevice (stCopper (stCop 0 .on false) { st := .detect }), 0, stReply, stCop 0 .on false, by decide +kernel⟩,
   ⟨{ clk := { atc := 983040000, run := true }, dev := stCopper (stCop 0 .on false) { st := .echo } }, 0, stCop 0 .on false, by decide +kernel⟩,
   ⟨onDevice (stCopper { stCop 0 .on true with autoSwap := true } { st := .active, up := 1 }), 0, true, { stCop 0 .on true with autoSwap := true }, by decide +kernel⟩,
   ⟨onDevice (stCopper (stCop 0 .on true) { st := .active }), 128, 2, 0, stCop 0 .on true, by decide +kernel⟩,
   ⟨{ clk := { atc := 19660800, run := true }, dev := stCopper (stCop 0 .on false) { st := .test, test := (1, none) } }, 0, 1, true, stCop 0 .on false, by decide +kernel⟩,
   ⟨onDevice (stCopper (stCop 0 (.ending false 3 4) true) { st := .active }), 128, 3, 4, false, stCop 0 (.ending false 3 4) true, by decide +kernel⟩,
   ⟨onDevice (stCopper { stCop 0 .on true with change := some (1, 4) } { st := .active }), 128, 4, { stCop 0 .on true with change := some (1, 4) }, by decide +kernel⟩,
   ⟨onDevice (stCopper (stCop 0 .on true) { qualify := some (3, 60, 4096, 16384) }), 0, 3, 60, 4096, 16384, true, by decide +kernel⟩,
   ⟨onDevice (stCopper (stCop 0 .on true) { qualify := some (3, 60, 4096, 16384) }), 0, 3, 60, 4096, 16384, false, by decide +kernel⟩⟩

/-- Each clause of CopperCommands has a state and operands that meet its hypotheses. -/
theorem wit_CopperCommands :
    (∃ (s : State) (r : Req) (w : Waiting) (spoke mode mask lineAdv timed margin minMargin autoSwap syncWord syncTol syncBase syncStep ramp crcLimit : Nat) (y : CopSpoke), (Waits s r 0x0901 w) ∧ (128 ≤ spoke ∧ spoke < 144) ∧ (mode ≤ 1 ∧ mask ≠ 0 ∧ mask < 16 ∧ lineAdv ≤ 983040 ∧ lineAdv % 2 = 0 ∧ timed ≤ 1 ∧ autoSwap ≤ 1 ∧ syncTol ≤ 12 ∧ 8 ≤ ramp ∧ ramp ≤ 256) ∧ (((maskPairs spoke mask).any fun p => (s.dev.pair p).retired || !s.dev.pairFitted p) = false) ∧ (placementOk (s.dev.copMask spoke) syncBase syncStep = true) ∧ (s.dev.copper spoke = some y) ∧ (y.resting = true)) ∧
    (∃ (s : State) (r : Req) (w : Waiting) (spoke : Nat) (y : CopSpoke), (Waits s r 0x0902 w) ∧ (128 ≤ spoke ∧ spoke < 144) ∧ (s.dev.copper spoke = some y) ∧ (y.resting = true) ∧ (y.mask = 1) ∧ ((s.dev.pair (4 * (spoke - 128))).retired = false)) ∧
    (∃ (s : State) (r : Req) (w : Waiting) (spoke : Nat), (Waits s r 0x0902 w) ∧ (128 ≤ spoke ∧ spoke < 144) ∧ (s.dev.copper spoke = none)) ∧
    (∃ (s : State) (r : Req) (w : Waiting) (spoke mode : Nat) (y : CopSpoke), (Waits s r 0x0903 w) ∧ (Fits w 8) ∧ (128 ≤ spoke ∧ spoke < 144) ∧ (mode ≤ 1) ∧ (s.dev.copper spoke = some y) ∧ (y.dis.isEnding = false)) ∧
    (∃ (s : State) (r : Req) (w : Waiting) (spoke : Nat) (y : CopSpoke), (Waits s r 0x0904 w) ∧ (Fits w 34) ∧ (128 ≤ spoke ∧ spoke < 144) ∧ (s.dev.copper spoke = some y) ∧ (y.mask = 1) ∧ ((s.dev.pair (4 * (spoke - 128))).st ≠ .active)) ∧
    (∃ (s : State) (r : Req) (w : Waiting) (spoke nguard : Nat) (points notches : List Nat), (Waits s r 0x0905 w) ∧ (128 ≤ spoke ∧ spoke < 144) ∧ (nguard ≤ 64 ∧ 2 ≤ points.length ∧ points.length ≤ 64 ∧ notches.length ≤ 32) ∧ (pointsFault (points.map breakpoint) = none) ∧ ((notches.all fun v => v % 65536 ≤ v / 65536 && v / 65536 < 4096) = true) ∧ ((CopMask.mk (points.map breakpoint) nguard (notches.map fun v => (v % 65536, v / 65536))).tooStrong = false) ∧ (((s.dev.copper spoke).all fun y => y.resting) = true)) ∧
    (∃ (s : State) (r : Req) (w : Waiting) (pair dir force : Nat) (table : List Nat) (y : CopSpoke), (Waits s r 0x0906 w) ∧ (pair < 64 ∧ dir ≤ 1 ∧ force ≤ 1 ∧ table.length = 4096) ∧ (s.dev.pairSpoke pair = some y) ∧ (y.autoSwap = false) ∧ (s.dev.tableFault (pairSpokeNo pair) table = none) ∧ (force = 1)) ∧
    (∃ (s : State) (r : Req) (w : Waiting) (pair dir set : Nat), (Waits s r 0x0907 w) ∧ (Fits w 2) ∧ (pair < 64 ∧ dir ≤ 1 ∧ set ≤ 1) ∧ (bit w.flags 0 = false)) ∧
    (∃ (s : State) (r : Req) (w : Waiting) (pair dir rp : Nat), (Waits s r 0x0908 w) ∧ (Fits w 16384) ∧ (pair < 64 ∧ dir ≤ 1 ∧ rp < 16) ∧ ((s.dev.pair pair).st = .active)) ∧
    (∃ (s : State) (r : Req) (w : Waiting) (pair rpMask down up : Nat) (plan : List Nat) (y : CopSpoke), (Waits s r 0x0909 w) ∧ (pair < 64) ∧ (plan.length = (ones 16 rpMask).length) ∧ ((plan.all fun v => v / 65536 ≤ 1023) = true) ∧ (planOverlap (plan.map fun v => (v % 65536, v / 65536)) = false) ∧ (s.dev.pairSpoke pair = some y) ∧ (y.mode ≠ 0) ∧ ((s.dev.pair pair).st ≠ .active)) ∧
    (∃ (s : State) (r : Req) (w : Waiting) (spoke mask : Nat) (y : CopSpoke), (Waits s r 0x090A w) ∧ (128 ≤ spoke ∧ spoke < 144) ∧ (s.dev.copper spoke = some y) ∧ (y.mask = 1 ∧ y.active = true ∧ y.dis = .on ∧ y.change = none) ∧ (mask = 3) ∧ ((s.dev.pair (4 * (spoke - 128) + 1)).retired = false) ∧ (s.dev.pairFitted (4 * (spoke - 128) + 1) = true)) ∧
    (∃ (s : State) (r : Req) (w : Waiting) (spoke : Nat), (Waits s r 0x090B w) ∧ (Fits w 16) ∧ (128 ≤ spoke ∧ spoke < 144)) ∧
    (∃ (s : State) (r : Req) (w : Waiting) (pair rp clear : Nat), (Waits s r 0x090C w) ∧ (Fits w 66) ∧ (pair < 64 ∧ rp < 16) ∧ (clear = 1) ∧ (tget [] s.dev.cyc.cop pair = (s.dev.pair pair).stats)) ∧
    (∃ (s : State) (r : Req) (w : Waiting) (pair : Nat) (y : CopSpoke), (Waits s r 0x090D w) ∧ (pair < 64) ∧ (s.dev.pairSpoke pair = some y) ∧ (y.resting = true)) ∧
    (∃ (s : State) (r : Req) (w : Waiting) (pair margin : Nat), (Waits s r 0x090E w) ∧ (pair < 64) ∧ (bit w.flags 0 = true) ∧ (16384 ≤ w.respLen) ∧ (s.dev.devmode.mode = .linetest)) :=
  ⟨⟨slotSt 0x0901 ({ stCopper (stCop 0 .disabled false) {} with pkg := { blob := List.replicate 6976 0 ++ [0, 1, 0, 0, 0, 0, 0, 0] } }), ⟨0, 0⟩, slot0 0x0901, 128, 0, 1, 983040, 1, 60, 30, 1, 7, 12, 32, 62, 256, 9, stCop 0 .disabled false, by decide +kernel⟩,
   ⟨slotSt 0x0902 (stCopper (stCop 0 .disabled false) {}), ⟨0, 0⟩, slot0 0x0902, 128, stCop 0 .disabled false, by decide +kernel⟩,
   ⟨slotSt 0x0902 stReady.dev, ⟨0, 0⟩, slot0 0x0902, 128, by decide +kernel⟩,
   ⟨slotSt 0x0903 (stCopper (stCop 0 .on true) {}), ⟨0, 0⟩, slot0 0x0903, 128, 1, stCop 0 .on true, by decide +kernel⟩,
   ⟨slotSt 0x0904 (stCopper (stCop 0 .on false) { st := .wait }), ⟨0, 0⟩, slot0 0x0904, 128, stCop 0 .on false, by decide +kernel⟩,
   ⟨slotSt 0x0905 stReady.dev, ⟨0, 0⟩, slot0 0x0905, 128, 64, [17 + 65536 * 64936, 4079 + 65536 * 64936], [4095 * 65536], by decide +kernel⟩,
   ⟨slotSt 0x0906 (stCopper (stCop 0 .on true) { st := .active }), ⟨0, 0⟩, slot0 0x0906, 0, 1, 1, List.replicate 4096 0, stCop 0 .on true, by decide +kernel⟩,
   ⟨slotSt 0x0907 stReady.dev, ⟨0, 0⟩, slot0 0x0907, 63, 1, 1, by decide +kernel⟩,
   ⟨slotRefSt 0x0908 (stCopper (stCop 0 .on true) { st := .active }), ⟨0, 0⟩, slotRef 0x0908, 0, 1, 15, by decide +kernel⟩,
   ⟨slotSt 0x0909 (stCopper (stCop 1 .on true) { st := .wait }), ⟨0, 0⟩, slot0 0x0909, 0, 0x8001, 3, 4, [1023 * 65536, 1027 + 5 * 65536], stCop 1 .on true, by decide +kernel⟩,
   ⟨slotSt 0x090A ({ stCopper (stCop 0 .on true) { st := .active } with pkg := { blob := List.replicate 6984 0 ++ [1, 1, 0, 0, 0, 0, 0, 0] } }), ⟨0, 0⟩, slot0 0x090A, 128, 3, stCop 0 .on true, by decide +kernel⟩,
   ⟨slotSt 0x090B stReady.dev, ⟨0, 0⟩, slot0 0x090B, 143, by decide +kernel⟩,
   ⟨slotSt 0x090C ({ stCopper (stCop 1 .on true) { stats := [(1, 5)] } with cyc := { cop := [(0, [(1, 5)])] } }), ⟨0, 0⟩, slot0 0x090C, 0, 15, 1, by decide +kernel⟩,
   ⟨slotSt 0x090D (stCopper (stCop 1 .disabled false) {}), ⟨0, 0⟩, slot0 0x090D, 0, stCop 1 .disabled false, by decide +kernel⟩,
   ⟨slotRefSt 0x090E { stCopper (stCop 1 .on true) {} with devmode := { mode := .linetest } }, ⟨0, 0⟩, slotRef 0x090E, 0, 60, by decide +kernel⟩⟩

/-- Each clause of NetworkTime has a state and operands that meet its hypotheses. -/
theorem wit_NetworkTime :
    (∃ (s : State) (r : Req) (w : Waiting), (Waits s r 0x0A01 w) ∧ (Fits w 51) ∧ (s.dev.devmode.mode ≠ .stoker)) ∧
    (∃ (s : State) (r : Req) (w : Waiting) (profile domain tsin lane lockTh hold : Nat) (roles : List Nat), (Waits s r 0x0A02 w) ∧ (profile ≤ 2) ∧ (((List.range 8).all fun i => roles.getD (2 * i) 0 ≤ 3) = true) ∧ (tsin < 8 ∨ tsin = 0xFF) ∧ (lane < 128 ∨ lane = 0xFF) ∧ (s.dev.devmode.mode ≠ .stoker) ∧ (profile = s.dev.time.set.profile)) ∧
    (∃ (s : State) (r : Req) (w : Waiting) (profile domain tsin lane lockTh hold : Nat) (roles : List Nat), (Waits s r 0x0A02 w) ∧ (profile = 0) ∧ (((List.range 8).all fun i => roles.getD (2 * i) 0 ≤ 3) = true) ∧ (tsin = 0xFF ∧ lane = 0xFF) ∧ (s.dev.devmode.mode ≠ .stoker) ∧ (s.dev.time.set.profile = 1)) ∧
    (∃ (s : State) (r : Req) (w : Waiting) (ftrim : Int), (Waits s r 0x0A03 w) ∧ (s.dev.time.set.profile = 0 ∧ s.dev.devmode.mode ≠ .stoker) ∧ ((ftrim + s.dev.time.fslew).natAbs ≤ 8796093022)) ∧
    (∃ (s : State) (r : Req) (w : Waiting) (ftrim : Int), (Waits s r 0x0A03 w) ∧ (s.dev.time.set.profile = 0 ∧ s.dev.devmode.mode ≠ .stoker) ∧ (8796093022 < (ftrim + s.dev.time.fslew).natAbs)) ∧
    (∃ (s : State) (r : Req) (w : Waiting) (off : Int) (rate : Nat), (Waits s r 0x0A04 w) ∧ (s.dev.time.set.profile = 0 ∧ s.dev.devmode.mode ≠ .stoker) ∧ (off < 0) ∧ (1 ≤ rate ∧ rate ≤ 10) ∧ (freqOk s.dev.time.ftrim (-(slewOf rate : Nat)) = true)) ∧
    (∃ (s : State) (y : Slew), (s.dev.time.slew = some y) ∧ (y.off.natAbs * 1966080000 ≤ y.rate * (s.clk.atc - y.start) * 65536)) ∧
    (∃ (s : State) (r : Req) (w : Waiting) (mode arg ns frac a : Nat), (Waits s r 0x0A05 w) ∧ (Fits w 8) ∧ (mode = 0) ∧ (s.dev.time.set.profile = 0 ∧ s.dev.devmode.mode ≠ .stoker) ∧ (s.dev.air.carriers = []) ∧ (steppedAtc s.clk.atc (roundEvenS (3 * sgn 64 arg) 200000) = some a)) ∧
    (∃ (s : State) (r : Req) (w : Waiting) (mode arg ns frac : Nat), (Waits s r 0x0A05 w) ∧ (mode ≤ 1) ∧ (mode = 0) ∧ (s.dev.air.carriers ≠ []) ∧ (s.dev.time.set.profile = 0)) ∧
    (∃ (s : State) (r : Req) (w : Waiting) (ports : List Nat), (Waits s r 0x0A06 w) ∧ (ports.length = 8) ∧ ((ports.all fun p => p = 0xFF || (p < 128 && !s.dev.absorbed p)) = true) ∧ (s.dev.spk.spokes = [])) ∧
    (∃ (s : State) (r : Req) (w : Waiting) (port n clear : Nat) (q : StampQ), (Waits s r 0x0A07 w) ∧ (Fits w 8) ∧ (port < 128 ∧ 1 ≤ n ∧ n ≤ 14 ∧ clear ≤ 1) ∧ ((s.dev.liveSpoke port).isSome = true) ∧ (tget {} s.dev.time.stamps port = q) ∧ (q.q = []) ∧ (q.lostAt ≠ s.clk.atc + 1) ∧ (clear = 1)) ∧
    (∃ (s : State) (r : Req) (w : Waiting) (port n clear : Nat) (q : StampQ) (e : List Byte), (Waits s r 0x0A07 w) ∧ (Fits w 24) ∧ (port < 128 ∧ 1 ≤ n ∧ n ≤ 14 ∧ clear = 0) ∧ ((s.dev.liveSpoke port).isSome = true) ∧ (tget {} s.dev.time.stamps port = q) ∧ (q.q = [e]) ∧ (e.length = 16) ∧ (q.lastAt ≠ s.clk.atc) ∧ (q.lostAt ≠ s.clk.atc + 1)) ∧
    (∃ (s : State) (r : Req) (w : Waiting) (input edges wake : Nat), (Waits s r 0x0A08 w) ∧ (input < 8 ∧ edges ≤ 3 ∧ wake ≤ 1)) ∧
    (∃ (s : State) (r : Req) (w : Waiting) (input n clear : Nat), (Waits s r 0x0A09 w) ∧ (Fits w 8) ∧ (input < 8 ∧ 1 ≤ n ∧ n ≤ 14 ∧ clear = 0) ∧ ((s.dev.tsin input).q.q = []) ∧ ((s.dev.tsin input).q.lostAt ≠ s.clk.atc + 1)) ∧
    (∃ (s : State) (input sub : Nat) (falling : Bool), (s.dev.mgmt.svc = true) ∧ (s.dev.devmode.mode ≠ .dormant) ∧ ((s.dev.tsin input).edges = 3) ∧ ((s.dev.tsin input).last = 0) ∧ ((s.dev.tsin input).q.q = [])) ∧
    (∃ (s : State) (input sub : Nat) (falling : Bool), (s.dev.mgmt.svc = false)) ∧
    (∃ (s : State) (r : Req) (w : Waiting) (output mode pol ppsW : Nat), (Waits s r 0x0A0A w) ∧ (output < 8 ∧ mode ≤ 2 ∧ pol ≤ 1 ∧ 8 ≤ ppsW ∧ ppsW ≤ 500000000) ∧ (mode ≠ 0)) ∧
    (∃ (s : State) (output : Nat), ((s.dev.tsout output).mode = 2) ∧ (s.clk.ns = 0 ∧ s.clk.rem = 0 ∧ s.clk.run = true)) ∧
    (∃ (s : State) (output : Nat), ((s.dev.tsout output).until_ ≠ 0) ∧ ((s.dev.tsout output).until_ ≤ s.clk.instant)) ∧
    (∃ (s : State) (r : Req) (w : Waiting) (output lane div : Nat), (Waits s r 0x0A0B w) ∧ (Fits w 4) ∧ (output < 2 ∧ lane < 128 ∧ 16 ≤ div) ∧ ((s.dev.laneSpeed lane).1 ≤ 200000 * div)) ∧
    (∃ (s : State) (output : Nat), ((s.dev.synce output).lane ≠ 0xFF) ∧ (s.dev.laneActive (s.dev.synce output).lane = true) ∧ ((s.dev.synce output).squelched = true)) ∧
    (∃ (s : State) (r : Req) (w : Waiting) (utc leap second : Nat), (Waits s r 0x0A0C w) ∧ (leap ≤ 2) ∧ (leap = 0 ∨ s.clk.sec < second)) ∧
    (∃ (s : State) (k x : Nat), (s.dev.time.leap = some (k, x)) ∧ (x ≤ s.clk.sec)) ∧
    (∃ (s : State) (source parent : Nat) (off : Int), (s.dev.breanoAway = false) ∧ (source = 1 ∨ source = 2) ∧ (s.dev.time.set.profile ≠ 0) ∧ (s.dev.devmode.mode ≠ .stoker) ∧ (s.dev.time.st = 0) ∧ (s.dev.air.carriers ≠ []) ∧ (off < 0)) ∧
    (∃ (s : State) (source parent a : Nat) (off : Int), (s.dev.breanoAway = false) ∧ (source = 1 ∨ source = 2) ∧ (s.dev.time.set.profile ≠ 0) ∧ (s.dev.devmode.mode ≠ .stoker) ∧ (s.dev.time.st = 0) ∧ (s.dev.air.carriers = []) ∧ (65536000 < off.natAbs) ∧ (steppedAtc s.clk.atc (roundEvenS (-3 * off) 200000) = some a)) ∧
    (∃ (s : State) (off : Int), (s.dev.breanoAway = false) ∧ (s.dev.time.st = 1) ∧ (off.natAbs ≤ s.dev.time.set.lockTh * 65536) ∧ (s.dev.time.since + 117964800000 ≤ s.clk.atc)) ∧
    (∃ (s : State) (mean : Int), (s.dev.breanoAway = false) ∧ (s.dev.time.st = 1 ∨ s.dev.time.st = 2) ∧ (mean.natAbs ≤ 8796093022)) ∧
    (∃ (s : State), (s.dev.breanoAway = false) ∧ (s.dev.time.st = 3) ∧ (s.dev.time.since + s.dev.time.set.hold * 1966080000 < s.clk.atc)) :=
  ⟨⟨slotSt 0x0A01 stReady.dev, ⟨0, 0⟩, slot0 0x0A01, by decide +kernel⟩,
   ⟨slotSt 0x0A02 stReady.dev, ⟨0, 0⟩, slot0 0x0A02, 0, 24, 7, 0xFF, 20, 3600, [3, 1, 2, 5], by decide +kernel⟩,
   ⟨slotSt 0x0A02 ({ stReady.dev with time := { set := { profile := 1 }, st := 2, ftrim := 5 } }), ⟨0, 0⟩, slot0 0x0A02, 0, 24, 0xFF, 0xFF, 20, 3600, [], by decide +kernel⟩,
   ⟨slotSt 0x0A03 stReady.dev, ⟨0, 0⟩, slot0 0x0A03, -8796093022, by decide +kernel⟩,
   ⟨slotSt 0x0A03 stReady.dev, ⟨0, 0⟩, slot0 0x0A03, -8796093023, by decide +kernel⟩,
   ⟨slotSt 0x0A04 stReady.dev, ⟨0, 0⟩, slot0 0x0A04, -65536, 10, by decide +kernel⟩,
   ⟨{ clk := { atc := 196608000, run := true }, dev := { stReady.dev with time := { fslew := 5, slew := some { off := 65536, rate := 10, start := 0, tag := 3 } } } }, { off := 65536, rate := 10, start := 0, tag := 3 }, by decide +kernel⟩,
   ⟨slotSt 0x0A05 stReady.dev, ⟨0, 0⟩, slot0 0x0A05, 0, 65536000000000, 0, 0, 1966080000, by decide +kernel⟩,
   ⟨slotSt 0x0A05 ({ stReady.dev with air := { carriers := [(1, stCarrier)] } }), ⟨0, 0⟩, slot0 0x0A05, 0, 5, 0, 0, by decide +kernel⟩,
   ⟨slotSt 0x0A06 ({ stReady.dev with spk := { spokes := [] } }), ⟨0, 0⟩, slot0 0x0A06, [1, 2, 3, 0xFF, 0xFF, 0xFF, 0xFF, 127], by decide +kernel⟩,
   ⟨slotSt 0x0A07 ({ stSpoke (stSpk .active) with time := { stamps := [(2, { ovf := true, lost := 3 })] } }), ⟨0, 0⟩, slot0 0x0A07, 2, 14, 1, { ovf := true, lost := 3 }, by decide +kernel⟩,
   ⟨slotSt 0x0A07 ({ stSpoke (stSpk .active) with time := { stamps := [(2, { q := [List.replicate 16 7], lastAt := 4 })] } }), ⟨0, 0⟩, slot0 0x0A07, 2, 14, 0, { q := [List.replicate 16 7], lastAt := 4 }, List.replicate 16 7, by decide +kernel⟩,
   ⟨slotSt 0x0A08 stReady.dev, ⟨0, 0⟩, slot0 0x0A08, 7, 3, 1, by decide +kernel⟩,
   ⟨slotSt 0x0A09 stReady.dev, ⟨0, 0⟩, slot0 0x0A09, 7, 1, 0, by decide +kernel⟩,
   ⟨onDevice ({ stReady.dev with devmode := { mode := .hub }, time := { tsin := [(3, { edges := 3 })] } }), 3, 66666, true, by decide +kernel⟩,
   ⟨onDevice ({}), 3, 0, true, by decide +kernel⟩,
   ⟨slotSt 0x0A0A stReady.dev, ⟨0, 0⟩, slot0 0x0A0A, 7, 2, 1, 500000000, by decide +kernel⟩,
   ⟨onDevice ({ stReady.dev with time := { tsout := [(7, { mode := 2, ppsW := 100 })] } }), 7, by decide +kernel⟩,
   ⟨onDevice ({ stReady.dev with time := { tsout := [(7, { mode := 1, until_ := 5 })] } }), 7, by decide +kernel⟩,
   ⟨slotSt 0x0A0B (stSpoke (stSpk .active)), ⟨0, 0⟩, slot0 0x0A0B, 1, 2, 200, by decide +kernel⟩,
   ⟨onDevice ({ stSpoke (stSpk .active) with time := { synce := [(1, { lane := 2, squelched := true })] } }), 1, by decide +kernel⟩,
   ⟨slotSt 0x0A0C stReady.dev, ⟨0, 0⟩, slot0 0x0A0C, 18, 2, 315964820, by decide +kernel⟩,
   ⟨onDevice ({ stReady.dev with time := { utc := 18, leap := some (2, 315964819) } }), 2, 315964819, by decide +kernel⟩,
   ⟨onDevice ({ stReady.dev with air := { carriers := [(1, stCarrier)] }, time := { set := { profile := 1 } } }), 1, 2, -7, by decide +kernel⟩,
   ⟨onDevice ({ stReady.dev with time := { set := { profile := 1 } } }), 1, 2, 1966080000, -65536000000000, by decide +kernel⟩,
   ⟨{ clk := { atc := 117964800000, run := true }, dev := { stReady.dev with time := { st := 1, set := { profile := 1 } } } }, 655360, by decide +kernel⟩,
   ⟨onDevice ({ stReady.dev with time := { st := 2, set := { profile := 1 } } }), -9, by decide +kernel⟩,
   ⟨{ clk := { atc := 1966080002, run := true }, dev := { stReady.dev with time := { st := 3, set := { profile := 1, hold := 1 } } } }, by decide +kernel⟩⟩

/-- Each clause of TruingSteps has a state and operands that meet its hypotheses. -/
theorem wit_TruingSteps :
    (∃ (s : State) (kind index gap id : Nat) (residual toward : Int) (x : Trim), (kind = 0 ∧ index < 128) ∧ (s.dev.gapOpen s.clk.atc 0 index gap = true) ∧ (s.dev.chooseTrim 0 index gap = some id) ∧ (id = 4) ∧ ((s.dev.unit 0 index).trim 0 id = x) ∧ (x.stuck = false) ∧ (-64 < x.code ∧ x.code ≤ 64) ∧ (0 < residual) ∧ (1500000 < residual.natAbs * 10000) ∧ (x.count < 4)) ∧
    (∃ (s : State) (kind index gap id : Nat) (residual toward : Int) (x : Trim), (kind = 0 ∧ index < 128) ∧ (s.dev.gapOpen s.clk.atc 0 index gap = true) ∧ (s.dev.chooseTrim 0 index gap = some id) ∧ (id = 5) ∧ ((s.dev.unit 0 index).trim 0 id = x) ∧ (x.stuck = false) ∧ (residual.natAbs * 10000 ≤ 78125) ∧ (x.count < 3) ∧ (s.clk.atc ≤ x.at_ + (s.dev.unit 0 index).stale * 1966080)) ∧
    (∃ (s : State) (kind index : Nat), (kind ≤ 2 ∧ index < unitCount kind) ∧ ((s.dev.unit kind index).gap ≠ 0) ∧ ((s.dev.unit kind index).gap ≤ s.clk.atc)) ∧
    (∃ (s : State) (kind index trim : Nat) (x : Trim), (kind ≤ 2 ∧ index < unitCount kind ∧ trim < trimCount kind) ∧ ((s.dev.unit kind index).trim kind trim = x) ∧ (0 < x.count ∧ x.count < 4) ∧ (x.at_ + (s.dev.unit kind index).stale * 1966080 < s.clk.atc)) ∧
    (∃ (s : State), (s.dev.mgmt.svc = true) ∧ (s.dev.truing.storedAt + 7077888000000 ≤ s.clk.atc)) ∧
    (∃ (s : State) (r : Req) (w : Waiting) (kind index enable stale : Nat), (Waits s r 0x0B01 w) ∧ (kind ≤ 2 ∧ index < unitCount kind ∧ 10 ≤ stale ∧ stale ≤ 1000) ∧ (index ≠ 0xFF)) ∧
    (∃ (s : State) (r : Req) (w : Waiting) (kind index : Nat) (u : TrueUnit) (x : Trim), (Waits s r 0x0B02 w) ∧ (Fits w 79) ∧ (kind = 2 ∧ index < 8) ∧ (s.dev.unit 2 index = u) ∧ (u.trim 2 0 = x) ∧ (u.figures = List.replicate 17 0)) ∧
    (∃ (s : State) (r : Req) (w : Waiting) (kind index : Nat), (Waits s r 0x0B03 w) ∧ (kind ≤ 2 ∧ index < unitCount kind) ∧ (s.dev.unitDisabled kind index = true)) :=
  ⟨⟨onDevice ({ stSpoke (stSpk .active) with truing := { units := [(2, { gap := 3000, gapLen := 2500, enable := 0x10 })] } }), 0, 2, 2, 4, 151, 0, {}, by decide +kernel⟩,
   ⟨onDevice ({ stSpoke (stSpk .active) with truing := { units := [(2, { gap := 3000, gapLen := 2500, enable := 0x20 })] } }), 0, 2, 2, 5, -7, 0, {}, by decide +kernel⟩,
   ⟨{ clk := { atc := 100, run := true }, dev := { stReady.dev with truing := { units := [(519, { gap := 100 })] } } }, 2, 7, by decide +kernel⟩,
   ⟨{ clk := { atc := 196608002, run := true }, dev := { stReady.dev with truing := { units := [(519, { trims := [(0, { count := 3 })] })] } } }, 2, 7, 0, { count := 3 }, by decide +kernel⟩,
   ⟨{ clk := { atc := 7077888000000, run := true }, dev := { stReady.dev with truing := { units := [(519, { trims := [(0, { code := 3 })] })] } } }, by decide +kernel⟩,
   ⟨slotSt 0x0B01 stReady.dev, ⟨0, 0⟩, slot0 0x0B01, 1, 63, 5, 1000, by decide +kernel⟩,
   ⟨slotSt 0x0B02 ({ stReady.dev with truing := { units := [(519, { trims := [(0, { code := -3, count := 9 })], ignored := 2 })] } }), ⟨0, 0⟩, slot0 0x0B02, 2, 7, { trims := [(0, { code := -3, count := 9 })], ignored := 2 }, { code := -3, count := 9 }, by decide +kernel⟩,
   ⟨slotSt 0x0B03 ({ stReady.dev with truing := { units := [(319, { trims := [(0, { code := -3, count := 9 })] })] } }), ⟨0, 0⟩, slot0 0x0B03, 1, 63, by decide +kernel⟩⟩

/-- Each clause of TandemEvents has a state and operands that meet its hypotheses. -/
theorem wit_TandemEvents :
    (∃ (s : State) (link group id peerLink epoch ident : Nat) (y : Spoke), (s.dev.spoke (256 + link) = some y) ∧ (y.st = .exchange) ∧ ((s.dev.tnd.group.map (·.1)) = some group) ∧ (s.dev.linkPeer link = some (id, peerLink))) ∧
    (∃ (s : State), (s.dev.devmode.mode = .captain) ∧ (s.clk.atc % 1966080 = 0) ∧ (((List.range 8).any s.dev.linkActive) = true)) ∧
    (∃ (s : State), (s.clk.atc % 1966080 ≠ 0)) ∧
    (∃ (s : State) (link rtt turn : Nat), (s.dev.linkActive link = true)) ∧
    (∃ (s : State) (link group epoch servo boundary seq : Nat) (captain dissolve : Bool) (raw filtered : Int), (s.dev.linkActive link = true) ∧ (captain = true) ∧ ((s.dev.tnd.group.map (·.1)) = some group) ∧ (s.dev.devmode.mode = .stoker) ∧ (epoch = s.dev.tnd.epoch) ∧ ((s.dev.tndLink link).peer = s.dev.tnd.captain) ∧ ((s.dev.updTnd fun y => { y with epoch := epoch, capEpoch := epoch }).upstream = some link) ∧ (s.dev.tnd.beatAt ≠ 0 ∧ s.dev.tnd.missed = 0) ∧ (seq = (s.dev.tnd.beatSeq + 1) % 2 ^ 32) ∧ (s.dev.breanoAway = false) ∧ (filtered = 0) ∧ (dissolve = false)) ∧
    (∃ (s : State) (link group epoch servo boundary seq : Nat) (captain dissolve : Bool) (raw filtered : Int), (epoch < s.dev.tnd.epoch)) ∧
    (∃ (s : State) (mean : Int) (m : Nat), (s.dev.devmode.mode = .stoker) ∧ (s.dev.missDue s.clk = some m) ∧ (s.dev.pkg.tandemId ≠ 1) ∧ (s.dev.tnd.following = false)) ∧
    (∃ (s : State) (mean : Int) (m : Nat), (s.dev.devmode.mode = .stoker) ∧ (s.dev.missDue s.clk = some m) ∧ (s.dev.pkg.tandemId = 1) ∧ (s.dev.tnd.missed = 2) ∧ (s.dev.tnd.reportAt = 0) ∧ (s.dev.tnd.dissolve = none)) ∧
    (∃ (s : State) (member boundary : Nat) (received joins leaves : Bool), (s.dev.devmode.mode = .captain) ∧ (joins = true ∧ leaves = false)) ∧
    (∃ (s : State) (member : Nat), (s.dev.devmode.mode = .captain) ∧ (bit s.dev.tnd.members member = true) ∧ ((((List.range 8).filter fun k => (s.dev.tndLink k).peer = member).any fun k => s.dev.linkActive k || s.clk.atc < (s.dev.tndLink k).downAt + 19660800) = false)) ∧
    (∃ (s : State) (at_ q tag : Nat), (s.dev.devmode.mode = .captain) ∧ (s.dev.tnd.handback = some (q, tag)) ∧ (q ≤ s.clk.atc)) ∧
    (∃ (s : State) (member kind idx priv addr len peer : Nat) (incoming write : Bool) (data : List Byte), (incoming = true) ∧ (write = true) ∧ (s.dev.exported member addr data.length = true) ∧ (regionOf addr = .dram) ∧ (inMemory addr data.length = true) ∧ (((memDomain addr).all s.dev.awake) = true) ∧ (s.dev.mem.ecc = [])) ∧
    (∃ (s : State) (member kind idx priv addr len peer : Nat) (incoming write : Bool) (data : List Byte), (incoming = true) ∧ (write = true) ∧ (s.dev.exported member addr data.length = false)) ∧
    (∃ (s : State) (link tD tag : Nat) (abort : Bool) (y : Spoke), (link < 8) ∧ (s.dev.spoke (256 + link) = some y) ∧ (y.st ≠ .active) ∧ (y.dis = .ending abort tD tag) ∧ (y.resize = none)) :=
  ⟨⟨onDevice ({ stTandem {} with spk := { spokes := [(256, { Spoke.tandem with st := .exchange, dis := .on })] } }), 0, 7, 1, 4, 0, 9, { Spoke.tandem with st := .exchange, dis := .on }, by decide +kernel⟩,
   ⟨onDevice ({ stTandem {} with devmode := { mode := .captain } }), by decide +kernel⟩,
   ⟨{ clk := { atc := 2, run := true }, dev := { stTandem {} with devmode := { mode := .captain } } }, by decide +kernel⟩,
   ⟨onDevice (stTandem {}), 0, 1000, 200, by decide +kernel⟩,
   ⟨onDevice ({ stTandem { epoch := 2, captain := 1, beatAt := 1, beatSeq := 5, good := 3 } with devmode := { mode := .stoker } }), 0, 7, 2, 0x12, 0, 6, true, false, 0, 0, by decide +kernel⟩,
   ⟨onDevice ({ stTandem { epoch := 3 } with devmode := { mode := .stoker } }), 0, 7, 2, 0x12, 0, 6, true, false, 0, 0, by decide +kernel⟩,
   ⟨{ clk := { atc := 2162688, run := true }, dev := { stTandem { captain := 1, beatAt := 1 } with devmode := { mode := .stoker } } }, 0, 1, by decide +kernel⟩,
   ⟨{ clk := { atc := 2162688, run := true }, dev := { stTandem { epoch := 255, captain := 1, beatAt := 1, missed := 2 } with devmode := { mode := .stoker }, pkg := { tandemId := 1 } } }, 0, 1, by decide +kernel⟩,
   ⟨onDevice ({ stTandem {} with devmode := { mode := .captain } }), 2, 5, true, true, false, by decide +kernel⟩,
   ⟨onDevice ({ stTandem { members := 6 } with devmode := { mode := .captain } }), 2, by decide +kernel⟩,
   ⟨{ clk := { atc := 39321600, run := true }, dev := { stTandem { handback := some (39321600, 3) } with devmode := { mode := .captain } } }, 0, 39321600, 3, by decide +kernel⟩,
   ⟨onDevice (stTandem { exports := [(0, 0x1000000000, 4096, 4)] }), 2, 0, 0, 0, 0x1000000010, 0, 0, true, true, [1, 2, 3], by decide +kernel⟩,
   ⟨onDevice (stTandem { exports := [(0, 0x1000000000, 4096, 4)] }), 3, 0, 0, 0, 0x1000000010, 0, 0, true, true, [1, 2, 3], by decide +kernel⟩,
   ⟨onDevice ({ stReady.dev with spk := { spokes := [(256, { Spoke.tandem with st := .wait, dis := .ending true 3 4 })] } }), 0, 3, 4, true, { Spoke.tandem with st := .wait, dis := .ending true 3 4 }, by decide +kernel⟩⟩

/-- Each clause of TandemCommands has a state and operands that meet its hypotheses. -/
theorem wit_TandemCommands :
    (∃ (s : State) (r : Req) (w : Waiting) (group topology n : Nat), (Waits s r 0x0C01 w) ∧ (topology ≤ 1 ∧ 2 ≤ n ∧ n ≤ 3) ∧ (s.dev.devmode.mode ≠ .captain ∧ s.dev.devmode.mode ≠ .stoker)) ∧
    (∃ (s : State) (r : Req) (w : Waiting) (link : Nat) (asym : Int), (Waits s r 0x0C02 w) ∧ (link < 8)) ∧
    (∃ (s : State) (r : Req) (w : Waiting), (Waits s r 0x0C03 w) ∧ (Fits w 93)) ∧
    (∃ (s : State) (r : Req) (w : Waiting) (link mode : Nat) (y : Spoke), (Waits s r 0x0C04 w) ∧ (Fits w 8) ∧ (link < 8) ∧ (mode = 0) ∧ (s.dev.spoke (256 + link) = some y) ∧ (y.st = .active) ∧ (y.dis = .on)) ∧
    (∃ (s : State) (r : Req) (w : Waiting) (link : Nat) (y : Spoke), (Waits s r 0x0C05 w) ∧ (link < 8) ∧ ((s.dev.linkPeer link).isSome = true) ∧ (s.dev.spoke (256 + link) = some y) ∧ (y = { Spoke.tandem with dis := .disabled }) ∧ (s.dev.laneBar (256 + 2 * link) 112500000 = none ∧ s.dev.laneBar (257 + 2 * link) 112500000 = none) ∧ ((s.dev.lane (256 + 2 * link)).retired = false ∧ (s.dev.lane (257 + 2 * link)).retired = false)) ∧
    (∃ (s : State) (r : Req) (w : Waiting) (window peer base : Nat), (Waits s r 0x0C06 w) ∧ (window < 8 ∧ peer < 8) ∧ (base % 0x10000000 = 0) ∧ (regionOf base = .dram)) ∧
    (∃ (s : State) (r : Req) (w : Waiting) (range base size mask : Nat), (Waits s r 0x0C07 w) ∧ (range < 8) ∧ (size ≠ 0) ∧ (regionOf base = .dram) ∧ (regionOf (base + size - 1) = .dram)) ∧
    (∃ (s : State) (r : Req) (w : Waiting) (stream outlet spoke dirs pcid enable : Nat) (fits : Bool) (y : Stream), (Waits s r 0x0C08 w) ∧ (s.dev.stream stream = some y) ∧ (Sees w.func y.owner) ∧ (outlet < 8 ∧ outlet ≠ s.dev.pkg.tandemId ∧ spoke < 144 ∧ 1 ≤ dirs ∧ dirs ≤ 3) ∧ (enable = 1) ∧ (s.dev.streamBusy stream y = false) ∧ (fits = true)) ∧
    (∃ (s : State) (r : Req) (w : Waiting) (chan owner pool base log prio timed deadline srcBase srcSize dstBase dstSize : Nat), (Waits s r 0x0C09 w) ∧ (576 ≤ chan ∧ chan < 592) ∧ (owner = 1 ∨ owner = 2) ∧ (pool < 64 ∧ 3 ≤ log ∧ log ≤ 12 ∧ prio ≤ 3 ∧ timed ≤ 1 ∧ deadline ≤ 1) ∧ (inMemory base (64 * 2 ^ log) = true) ∧ ((s.dev.chan chan).dis = .off)) ∧
    (∃ (s : State) (r : Req) (w : Waiting) (boundary : Nat), (Waits s r 0x0C0A w) ∧ (boundary % 19660800 = 0) ∧ (s.dev.devmode.mode = .captain) ∧ (s.dev.pkg.tandemId ≠ 0) ∧ (s.dev.devmode.pend = none) ∧ (s.dev.tnd.handback = none) ∧ (s.clk.atc + 39321600 ≤ boundary)) ∧
    (∃ (s : State) (r : Req) (w : Waiting) (boundary : Nat), (Waits s r 0x0C0A w) ∧ (boundary % 19660800 = 0) ∧ (s.dev.devmode.mode = .captain) ∧ (s.dev.pkg.tandemId ≠ 0) ∧ (s.dev.devmode.pend = none) ∧ (s.dev.tnd.handback = none) ∧ (boundary < s.clk.atc + 39321600)) ∧
    (∃ (s : State) (r : Req) (w : Waiting) (link : Nat) (y : Spoke), (Waits s r 0x0C0B w) ∧ (link < 8) ∧ (s.dev.spoke (256 + link) = some y) ∧ (y.st = .disabled)) :=
  ⟨⟨slotSt 0x0C01 stReady.dev, ⟨0, 0⟩, slot0 0x0C01, 7, 0, 3, by decide +kernel⟩,
   ⟨slotSt 0x0C02 stReady.dev, ⟨0, 0⟩, slot0 0x0C02, 7, -3, by decide +kernel⟩,
   ⟨slotSt 0x0C03 (stTandem {}), ⟨0, 0⟩, slot0 0x0C03, by decide +kernel⟩,
   ⟨slotSt 0x0C04 (stTandem {}), ⟨0, 0⟩, slot0 0x0C04, 0, 0, { Spoke.tandem with st := .active, dis := .on }, by decide +kernel⟩,
   ⟨slotSt 0x0C05 ({ stTandem {} with spk := { spokes := [(256, { Spoke.tandem with dis := .disabled })], tandemTable := (List.range 16).flatMap fun l => pk [(1, l), (1, 8), (2, 1125), (4, 0), (1, 0), (1, 0), (1, 32), (1, 0), (16, 0), (1, 0), (1, 0), (1, 32), (1, 0), (16, 0)] } }), ⟨0, 0⟩, slot0 0x0C05, 0, { Spoke.tandem with dis := .disabled }, by decide +kernel⟩,
   ⟨slotSt 0x0C06 stReady.dev, ⟨0, 0⟩, slot0 0x0C06, 7, 7, 0x1000000000, by decide +kernel⟩,
   ⟨slotSt 0x0C07 stReady.dev, ⟨0, 0⟩, slot0 0x0C07, 7, 0x1000000000, 4096, 6, by decide +kernel⟩,
   ⟨slotSt 0x0C08 ({ stReady.dev with fe := { streams := [(3, stStream)] } }), ⟨0, 0⟩, slot0 0x0C08, 3, 7, 143, 3, 5, 1, true, stStream, by decide +kernel⟩,
   ⟨slotSt 0x0C09 stReady.dev, ⟨0, 0⟩, slot0 0x0C09, 591, 2, 7, 0x1000000000, 4, 1, 1, 0, 1, 2, 3, 4, by decide +kernel⟩,
   ⟨slotSt 0x0C0A ({ stTandem {} with devmode := { mode := .captain }, pkg := { tandemId := 1 } }), ⟨0, 0⟩, slot0 0x0C0A, 39321600, by decide +kernel⟩,
   ⟨slotSt 0x0C0A ({ stTandem {} with devmode := { mode := .captain }, pkg := { tandemId := 1 } }), ⟨0, 0⟩, slot0 0x0C0A, 19660800, by decide +kernel⟩,
   ⟨slotSt 0x0C0B stReady.dev, ⟨0, 0⟩, slot0 0x0C0B, 7, Spoke.tandem, by decide +kernel⟩⟩

/-- Each clause of ManagementEvents has a state and operands that meet its hypotheses. -/
theorem wit_ManagementEvents :
    (∃ (s : State) (pair : Nat), (True)) ∧
    (∃ (s : State) (pair cause : Nat), (s.dev.mgmt.svc = true ∧ s.dev.mgmt.fatal = false ∧ s.dev.mgmt.coasting = false ∧ s.dev.mgmt.limp = false ∧ s.dev.mgmt.supHeld = false) ∧ (pair = 0) ∧ (s.dev.mgmt.activeB = false) ∧ (cause = 2) ∧ (s.dev.mgmt.pairB = .ready) ∧ (s.dev.mgmt.fwRun = none)) ∧
    (∃ (s : State) (pair cause : Nat), (s.dev.mgmt.svc = true ∧ s.dev.mgmt.fatal = false ∧ s.dev.mgmt.coasting = false ∧ s.dev.mgmt.limp = false ∧ s.dev.mgmt.supHeld = false) ∧ (pair = 0) ∧ (s.dev.mgmt.activeB = false) ∧ (cause = 2) ∧ (s.dev.mgmt.pairB = .retired)) ∧
    (∃ (s : State) (at_ tag : Nat), (s.dev.mgmt.limp = true) ∧ (s.dev.mgmt.limpCause = some (2, at_, tag)) ∧ (s.dev.mgmt.activeB = false) ∧ (s.dev.mgmt.limpHeld = [])) ∧
    (∃ (s : State), (s.dev.mgmt.limp = false ∧ s.dev.mgmt.fatal = false ∧ s.dev.mgmt.coasting = false) ∧ (s.dev.mgmt.fwRun = none)) ∧
    (∃ (s : State) (pass : Bool), (s.dev.mgmt.limp = false ∧ s.dev.mgmt.fatal = false ∧ s.dev.mgmt.activeB = false) ∧ (s.dev.mgmt.pairB = .loading) ∧ (pass = true) ∧ (s.dev.mgmt.fwRun = none)) ∧
    (∃ (s : State) (q cause : Nat), (s.dev.mgmt.coasting = true) ∧ (s.dev.mgmt.coastEnd = some (q, cause)) ∧ (q ≤ s.clk.atc) ∧ (s.dev.mgmt.fatal = false)) ∧
    (∃ (s : State), (s.dev.mgmt.supHeld = false) ∧ (s.dev.mgmt.supTimes = [])) ∧
    (∃ (s : State) (a c : Nat), (s.dev.mgmt.supHeld = false) ∧ (s.dev.mgmt.supTimes = [a, c]) ∧ (s.clk.atc < a + 1966080000 ∧ s.clk.atc < c + 1966080000)) ∧
    (∃ (s : State) (key : Nat) (go : Bool), (key = 0xA5 ∧ go = true) ∧ (s.dev.startup.phase = .service) ∧ (s.clk.run = true)) ∧
    (∃ (s : State) (key : Nat) (go : Bool), (key ≠ 0xA5 ∨ go = false)) ∧
    (∃ (s : State) (v mask : Nat), (v < 37)) :=
  ⟨⟨stReady, 1, by decide +kernel⟩,
   ⟨stReady, 0, 2, by decide +kernel⟩,
   ⟨onDevice ({ stReady.dev with mgmt := { stReady.dev.mgmt with pairB := .retired } }), 0, 2, by decide +kernel⟩,
   ⟨onDevice ({ stReady.dev with mgmt := { stReady.dev.mgmt with limp := true, limpCause := some (2, 0, 6), pairA := .testing } }), 0, 6, by decide +kernel⟩,
   ⟨stReady, by decide +kernel⟩,
   ⟨onDevice ({ stReady.dev with mgmt := { stReady.dev.mgmt with pairB := .loading } }), true, by decide +kernel⟩,
   ⟨{ clk := { atc := 19660800, run := true }, dev := { stReady.dev with mgmt := { stReady.dev.mgmt with coasting := true, coastEnd := some (19660800, 1) } } }, 19660800, 1, by decide +kernel⟩,
   ⟨stReady, by decide +kernel⟩,
   ⟨{ clk := { atc := 4, run := true }, dev := { stReady.dev with mgmt := { stReady.dev.mgmt with supTimes := [2, 0] } } }, 2, 0, by decide +kernel⟩,
   ⟨stReady, 0xA5, true, by decide +kernel⟩,
   ⟨stReady, 0xA4, true, by decide +kernel⟩,
   ⟨onDevice ({ stReady.dev with mgmt := { stReady.dev.mgmt with trb := [(36, 7)] }, cyc := { trb := [(36, 4)] } }), 36, 5, by decide +kernel⟩⟩

/-- Each clause of ManagementCommands has a state and operands that meet its hypotheses. -/
theorem wit_ManagementCommands :
    (∃ (s : State) (r : Req) (w : Waiting) (coast persist : Nat), (Waits s r 0x0F01 w) ∧ (coast ≤ 2000) ∧ (persist = 0)) ∧
    (∃ (s : State) (r : Req) (w : Waiting) (coast persist : Nat), (Waits s r 0x0F01 w) ∧ (coast ≤ 2000) ∧ (persist ≠ 0)) ∧
    (∃ (s : State) (r : Req) (w : Waiting), (Waits s r 0x0F02 w) ∧ (Fits w 23)) ∧
    (∃ (s : State) (r : Req) (w : Waiting) (v : Waiting), (Waits s r 0x0F03 w) ∧ (s.dev.mgmt.activeB = false) ∧ (s.dev.mgmt.pairB = .ready) ∧ (s.dev.mgmt.pairA = .active) ∧ (v = w)) ∧
    (∃ (s : State) (r : Req) (w : Waiting), (Waits s r 0x0F03 w) ∧ (s.dev.mgmt.activeB = false) ∧ (s.dev.mgmt.pairB = .loading)) ∧
    (∃ (s : State) (r : Req) (w : Waiting) (first count source : Nat) (e : LogEntry), (Waits s r 0x0F10 w) ∧ (Fits w 38) ∧ (1 ≤ count ∧ count ≤ 4096) ∧ (source = 0) ∧ (s.dev.mgmt.log = [e]) ∧ (e.seq = first) ∧ (e.data.length = 14)) ∧
    (∃ (s : State) (r : Req) (w : Waiting), (Waits s r 0x0F11 w)) ∧
    (∃ (s : State) (r : Req) (w : Waiting), (Waits s r 0x0F12 w) ∧ (Fits w 74)) ∧
    (∃ (s : State) (r : Req) (w : Waiting) (release ckptVer : Nat) (sigOk : Bool), (Waits s r 0x1001 w) ∧ (Fits w 6) ∧ (s.dev.mgmt.updating = false) ∧ (s.dev.mgmt.booted = 0) ∧ (sigOk = true)) ∧
    (∃ (s : State) (r : Req) (w : Waiting) (release ckptVer : Nat) (sigOk : Bool), (Waits s r 0x1001 w) ∧ (s.dev.mgmt.updating = false) ∧ (sigOk = false)) ∧
    (∃ (s : State) (r : Req) (w : Waiting), (Waits s r 0x1002 w) ∧ (s.dev.mgmt.updating = false) ∧ (s.dev.mgmt.booted = 0 ∧ s.dev.mgmt.activeB = false) ∧ (s.dev.mgmt.fw1.loaded = true) ∧ (s.dev.mgmt.pairB = .ready) ∧ (s.dev.mgmt.fw1.ckpt = s.dev.mgmt.fw0.ckpt)) ∧
    (∃ (s : State) (bootOk : Bool) (x : FwRun), (s.dev.mgmt.fwRun = some x) ∧ (x.step = 5)) ∧
    (∃ (s : State) (r : Req) (w : Waiting), (Waits s r 0x1003 w) ∧ (Fits w 10) ∧ (s.dev.mgmt.fwRun = none)) :=
  ⟨⟨slotSt 0x0F01 stReady.dev, ⟨0, 0⟩, slot0 0x0F01, 2000, 0, by decide +kernel⟩,
   ⟨slotSt 0x0F01 stReady.dev, ⟨0, 0⟩, slot0 0x0F01, 0, 1, by decide +kernel⟩,
   ⟨slotSt 0x0F02 stReady.dev, ⟨0, 0⟩, slot0 0x0F02, by decide +kernel⟩,
   ⟨slotSt 0x0F03 stReady.dev, ⟨0, 0⟩, slot0 0x0F03, slot0 0x0F03, by decide +kernel⟩,
   ⟨slotSt 0x0F03 ({ stReady.dev with mgmt := { stReady.dev.mgmt with pairB := .loading } }), ⟨0, 0⟩, slot0 0x0F03, by decide +kernel⟩,
   ⟨slotSt 0x0F10 ({ stReady.dev with mgmt := { stReady.dev.mgmt with log := [{ atc := 3, code := 0x0F48, block := 36, sev := 3, seq := 9, rep := 0, data := List.replicate 14 1 }] } }), ⟨0, 0⟩, slot0 0x0F10, 9, 1, 0, { atc := 3, code := 0x0F48, block := 36, sev := 3, seq := 9, rep := 0, data := List.replicate 14 1 }, by decide +kernel⟩,
   ⟨slotSt 0x0F11 stReady.dev, ⟨0, 0⟩, slot0 0x0F11, by decide +kernel⟩,
   ⟨slotSt 0x0F12 stReady.dev, ⟨0, 0⟩, slot0 0x0F12, by decide +kernel⟩,
   ⟨slotSt 0x1001 stReady.dev, ⟨0, 0⟩, slot0 0x1001, 7, 2, true, by decide +kernel⟩,
   ⟨slotSt 0x1001 stReady.dev, ⟨0, 0⟩, slot0 0x1001, 7, 2, false, by decide +kernel⟩,
   ⟨slotSt 0x1002 ({ stReady.dev with mgmt := { stReady.dev.mgmt with fw1 := { loaded := true } } }), ⟨0, 0⟩, slot0 0x1002, by decide +kernel⟩,
   ⟨onDevice ({ stReady.dev with mgmt := { stReady.dev.mgmt with updating := true, fwRun := some { step := 5, since := 0, tag := 4 } } }), true, { step := 5, since := 0, tag := 4 }, by decide +kernel⟩,
   ⟨slotSt 0x1003 stReady.dev, ⟨0, 0⟩, slot0 0x1003, by decide +kernel⟩⟩

/-- Each clause of PowerDomains has a state and operands that meet its hypotheses. -/
theorem wit_PowerDomains :
    (∃ (s : State) (r : Req) (w : Waiting) (mask level at_ notify n i : Nat) (e : Dev), (Waits s r 0x0D01 w) ∧ (Fits w 40) ∧ (mask < 2 ^ 20 ∧ level ≤ 7) ∧ (ones 20 mask = [n]) ∧ (s.clk.atc + 3932 < at_) ∧ (s.dev.charges = []) ∧ (notify = 0) ∧ (s.dev.breanoPost s.clk { trigger := at_, period := 0, count := 0, action := 7, flags := 0, target := n, arg := level } = some (i, e)) ∧ (e.host = s.dev.host)) ∧
    (∃ (s : State) (r : Req) (w : Waiting) (mask level at_ notify : Nat), (Waits s r 0x0D01 w) ∧ (mask < 2 ^ 20 ∧ level ≤ 7) ∧ (at_ ≠ 0 ∧ at_ ≤ s.clk.atc + 3932)) ∧
    (∃ (s : State) (dom at_ : Nat), ((s.dev.dom dom).firedAt = some at_) ∧ ((s.dev.dom dom).notify = none)) ∧
    (∃ (s : State) (dom at_ tag : Nat), ((s.dev.dom dom).firedAt = some at_) ∧ ((s.dev.dom dom).notify = some tag)) ∧
    (∃ (s : State) (r : Req) (w : Waiting) (mask depth wake n : Nat), (Waits s r 0x0D02 w) ∧ (Fits w 2) ∧ (ones 32 mask = [n]) ∧ (mask < 2 ^ 32) ∧ (1 ≤ depth ∧ depth ≤ 3) ∧ ((s.dev.dom n).st = .awake) ∧ (s.dev.power.group = none) ∧ (s.dev.charges = [])) ∧
    (∃ (s : State) (r : Req) (w : Waiting) (mask depth wake : Nat), (Waits s r 0x0D02 w) ∧ (mask ≠ 0) ∧ (1 ≤ depth ∧ depth ≤ 3) ∧ (((ones 32 mask).any fun n => (s.dev.dom n).st != .awake) = true)) ∧
    (∃ (s : State) (dom : Nat) (g : SleepGroup), (s.dev.power.group = some g) ∧ (g.asking = some (dom, false)) ∧ (g.askedAt + 2 ≤ s.clk.atc) ∧ (g.refusal = none) ∧ (s.dev.refusal g dom = none)) ∧
    (∃ (s : State) (dom why : Nat) (g : SleepGroup), (s.dev.power.group = some g) ∧ (g.asking = some (dom, false)) ∧ (g.askedAt + 2 ≤ s.clk.atc) ∧ (g.refusal = none) ∧ (s.dev.refusal g dom = some why) ∧ (g.stopped = [])) ∧
    (∃ (s : State) (dom : Nat) (g : SleepGroup), (s.dev.power.group = some g) ∧ (g.asking = some (dom, true)) ∧ (s.dev.gateIsolated dom = true) ∧ (g.dormant = false ∧ ones 32 g.mask = [dom] ∧ g.stopped = [])) ∧
    (∃ (s : State) (g : SleepGroup), (s.dev.power.group = some g) ∧ (g.refusal = none) ∧ (((ones 32 g.mask).all fun n => g.stopped.contains n) = true) ∧ (g.wake = 0 ∧ g.latched = []) ∧ (s.dev.devmode.mode ≠ .dormant ∨ g.dormant = true) ∧ (s.dev.mgmt.limp = false) ∧ (s.dev.power.replayed < 2 ^ 32)) ∧
    (∃ (s : State) (r : Req) (w : Waiting) (mask n : Nat), (Waits s r 0x0D03 w) ∧ (s.dev.devmode.mode ≠ .dormant) ∧ (ones 32 mask = [n]) ∧ (s.dev.power.group = none) ∧ ((s.dev.dom n).st = .asleep) ∧ (s.dev.power.down = [])) ∧
    (∃ (s : State) (dom : Nat), ((s.dev.dom dom).st = .waking) ∧ ((s.dev.dom dom).depth ≠ 3) ∧ (s.dev.devmode.pend = none) ∧ (s.dev.power.group = none) ∧ (s.dev.mgmt.limp = false)) ∧
    (∃ (s : State) (r : Req) (w : Waiting), (Waits s r 0x0D04 w) ∧ (Fits w 136)) ∧
    (∃ (s : State) (r : Req) (w : Waiting) (mode wake : Nat), (Waits s r 0x0D05 w) ∧ (1 ≤ mode ∧ mode ≤ 7 ∧ mode ≠ 2)) ∧
    (∃ (s : State), (s.dev.devmode.mode = .dormant) ∧ (s.dev.devmode.pend = none) ∧ (s.dev.power.wakeAtc ≠ 0 ∧ s.dev.power.wakeAtc ≤ s.clk.atc)) :=
  ⟨⟨slotSt 0x0D01 stReady.dev, ⟨0, 0⟩, slot0 0x0D01, 4, 3, 10000, 0, 2, 0, (((slotSt 0x0D01 stReady.dev).dev.breanoPost { run := true } { trigger := 10000, period := 0, count := 0, action := 7, flags := 0, target := 2, arg := 3 }).map (·.2)).getD stReady.dev, by decide +kernel⟩,
   ⟨slotSt 0x0D01 stReady.dev, ⟨0, 0⟩, slot0 0x0D01, 4, 3, 3932, 0, by decide +kernel⟩,
   ⟨onDevice ({ stReady.dev with power := { doms := [(2, { target := 3, firedAt := some 5 })] } }), 2, 5, by decide +kernel⟩,
   ⟨onDevice ({ stReady.dev with power := { doms := [(2, { target := 3, firedAt := some 5, notify := some 9 })] } }), 2, 5, 9, by decide +kernel⟩,
   ⟨slotSt 0x0D02 stReady.dev, ⟨0, 0⟩, slot0 0x0D02, 0x80000000, 3, 0, 31, by decide +kernel⟩,
   ⟨slotSt 0x0D02 ({ stReady.dev with power := { doms := [(2, { st := .asleep })] } }), ⟨0, 0⟩, slot0 0x0D02, 4, 3, 0, by decide +kernel⟩,
   ⟨{ clk := { atc := 2, run := true }, dev := { stReady.dev with power := { group := some { mask := 4, depth := 3, wake := 0, tag := 9, asking := some (2, false), askedAt := 0 } } } }, 2, { mask := 4, depth := 3, wake := 0, tag := 9, asking := some (2, false), askedAt := 0 }, by decide +kernel⟩,
   ⟨{ clk := { atc := 2, run := true }, dev := { stReady.dev with power := { group := some { mask := 2 ^ 28, depth := 3, wake := 0, tag := 9, asking := some (28, false), askedAt := 0 } } } }, 28, 6, { mask := 2 ^ 28, depth := 3, wake := 0, tag := 9, asking := some (28, false), askedAt := 0 }, by decide +kernel⟩,
   ⟨onDevice ({ stReady.dev with fab := { gates := [(2, { st := 2 })] }, power := { group := some { mask := 4, depth := 3, wake := 0, tag := 9, asking := some (2, true), askedAt := 0 } } }), 2, { mask := 4, depth := 3, wake := 0, tag := 9, asking := some (2, true), askedAt := 0 }, by decide +kernel⟩,
   ⟨onDevice ({ stReady.dev with devmode := { mode := .hub }, power := { group := some { mask := 4, depth := 3, wake := 0, tag := 9, stopped := [2] } } }), { mask := 4, depth := 3, wake := 0, tag := 9, stopped := [2] }, by decide +kernel⟩,
   ⟨slotSt 0x0D03 ({ stReady.dev with devmode := { mode := .hub }, power := { doms := [(2, { st := .asleep, depth := 2 })] } }), ⟨0, 0⟩, slot0 0x0D03, 4, 2, by decide +kernel⟩,
   ⟨onDevice ({ stReady.dev with fab := { gates := [(2, { st := 2 })] }, power := { doms := [(2, { st := .waking, depth := 2 })] } }), 2, by decide +kernel⟩,
   ⟨slotSt 0x0D04 stReady.dev, ⟨0, 0⟩, slot0 0x0D04, by decide +kernel⟩,
   ⟨slotSt 0x0D05 stReady.dev, ⟨0, 0⟩, slot0 0x0D05, 7, 5000, by decide +kernel⟩,
   ⟨{ clk := { atc := 500, run := true }, dev := { stReady.dev with devmode := { mode := .dormant }, power := { wakeMode := 2, wakeAtc := 500 } } }, by decide +kernel⟩⟩

/-- Each clause of StartUpSteps has a state and operands that meet its hypotheses. -/
theorem wit_StartUpSteps :
    (∃ (s : State) (spliceOk : Bool), (s.dev.startup.phase = .held) ∧ (spliceOk = true)) ∧
    (∃ (s : State), (s.dev.startup.phase = .reset)) ∧
    (∃ (s : State), (s.dev.startup.phase ≠ .reset)) ∧
    (∃ (s : State) (imgOk pairOk : Bool), (s.dev.startup.phase = .clocks) ∧ (imgOk = true ∧ pairOk = true) ∧ (s.dev.startup.warm = none)) ∧
    (∃ (s : State) (imgOk pairOk : Bool), (s.dev.startup.phase = .clocks) ∧ (imgOk = true) ∧ (s.dev.pkg.blobFlash = none ∧ s.dev.pkg.blobBoard = none)) ∧
    (∃ (s : State) (cores clusters rows rams : List Nat), (s.dev.startup.phase = .boot) ∧ (cores = [] ∧ clusters = [] ∧ rows = [] ∧ rams = [])) ∧
    (∃ (s : State) (cores clusters rows rams : List Nat) (n : Nat), (s.dev.startup.phase = .boot) ∧ (n < 1024) ∧ (cores = [n] ∧ clusters = [] ∧ rows = [] ∧ rams = []) ∧ ((s.dev.core n).st = .idle)) ∧
    (∃ (s : State) (standby : Bool), (s.dev.startup.phase = .tested) ∧ (s.clk.atc < s.dev.startup.deadline) ∧ (s.dev.startup.profile = none) ∧ (s.dev.mgmt.activeB = false)) ∧
    (∃ (s : State) (step reason : Nat), (s.dev.startup.phase = .boot) ∧ (step = 4 ∧ reason = 6)) ∧
    (∃ (s : State), (s.dev.startup.phase = .tested) ∧ (s.dev.startup.deadline ≤ s.clk.atc)) ∧
    (∃ (s : State) (q : Profile), (s.dev.startup.resume = 1) ∧ (s.dev.mgmt.fatal = false ∧ s.dev.mgmt.coasting = false ∧ s.dev.mgmt.limp = false) ∧ (s.dev.time.st = 2) ∧ (s.dev.time.set.profile ≠ 0) ∧ (s.dev.startup.profile = some q) ∧ (q.carriers = [])) ∧
    (∃ (s : State) (q : Profile), (s.dev.startup.profile = some q) ∧ (s.dev.startup.resume = 1) ∧ (s.dev.startup.readyAt + q.wait * 1966080000 ≤ s.clk.atc) ∧ (s.dev.mgmt.limp = false)) ∧
    (∃ (s : State) (r : Req) (w : Waiting) (auto wait : Nat), (Waits s r 0x0104 w) ∧ (Fits w 12) ∧ (auto ≤ 1 ∧ wait ≤ 3600) ∧ (s.dev.mgmt.updating = false) ∧ (s.dev.devmode.pend = none)) ∧
    (∃ (s : State) (r : Req) (w : Waiting), (Waits s r 0x0105 w) ∧ (Fits w 57) ∧ (s.dev.startup.ends.length = 6)) ∧
    (∃ (s : State) (r : Req) (w : Waiting) (q : Profile), (Waits s r 0x0106 w) ∧ (Fits w 2) ∧ (s.dev.startup.resume = 1) ∧ (s.dev.startup.profile = some q) ∧ (q.carriers = [])) ∧
    (∃ (s : State) (r : Req) (w : Waiting), (Waits s r 0x0106 w) ∧ (s.dev.startup.resume ≠ 1)) :=
  ⟨⟨onDevice ({}), true, by decide +kernel⟩,
   ⟨{ dev := { startup := { phase := .reset } } }, by decide +kernel⟩,
   ⟨stReady, by decide +kernel⟩,
   ⟨onDevice ({ startup := { phase := .clocks } }), true, true, by decide +kernel⟩,
   ⟨onDevice ({ startup := { phase := .clocks } }), true, true, by decide +kernel⟩,
   ⟨onDevice ({ startup := { phase := .boot } }), [], [], [], [], by decide +kernel⟩,
   ⟨onDevice ({ startup := { phase := .boot } }), [1023], [], [], [], 1023, by decide +kernel⟩,
   ⟨onDevice ({ startup := { phase := .tested } }), true, by decide +kernel⟩,
   ⟨onDevice ({ startup := { phase := .boot } }), 4, 6, by decide +kernel⟩,
   ⟨{ clk := { atc := 4990 * 1966080, run := true }, dev := { startup := { phase := .tested } } }, by decide +kernel⟩,
   ⟨onDevice ({ stReady.dev with startup := { phase := .service, resume := 1, profile := some (stReady.dev.profile true 60) }, time := { st := 2, set := { profile := 1 } } }), stReady.dev.profile true 60, by decide +kernel⟩,
   ⟨onDevice ({ stReady.dev with startup := { phase := .service, resume := 1, profile := some (stReady.dev.profile true 0) } }), stReady.dev.profile true 0, by decide +kernel⟩,
   ⟨slotSt 0x0104 stReady.dev, ⟨0, 0⟩, slot0 0x0104, 1, 3600, by decide +kernel⟩,
   ⟨slotSt 0x0105 stReady.dev, ⟨0, 0⟩, slot0 0x0105, by decide +kernel⟩,
   ⟨slotSt 0x0106 ({ stReady.dev with startup := { phase := .service, resume := 1, profile := some (stReady.dev.profile true 60) } }), ⟨0, 0⟩, slot0 0x0106, stReady.dev.profile true 60, by decide +kernel⟩,
   ⟨slotSt 0x0106 stReady.dev, ⟨0, 0⟩, slot0 0x0106, by decide +kernel⟩⟩

/-- Each clause of PackageAndSupplies has a state and operands that meet its hypotheses. -/
theorem wit_PackageAndSupplies :
    (∃ (s : State) (mv : Nat), (s.dev.startup.phase = .off) ∧ (s.dev.pkg.vin < 5800) ∧ (5800 ≤ mv ∧ mv ≤ 62000)) ∧
    (∃ (s : State) (mv : Nat), (mv < 5800)) ∧
    (∃ (s : State) (mv : Nat), (mv < 5400)) ∧
    (∃ (s : State) (mv : Nat), (5400 ≤ mv)) ∧
    (∃ (s : State) (mv : Nat), (62000 < mv) ∧ (s.dev.startup.phase ≠ .thermal)) ∧
    (∃ (s : State) (mv : Nat), (5400 ≤ mv ∧ mv < 60500) ∧ (62000 < s.dev.pkg.vin) ∧ (s.dev.startup.phase = .off)) ∧
    (∃ (s : State), (s.dev.startup.phase = .service)) ∧
    (∃ (s : State) (vin iin pin : Nat) (junction dramTemps : List Int), (s.dev.startup.phase = .service) ∧ (junction.length = 24 ∧ dramTemps.length = 4) ∧ ((hottest junction).2 < 1000) ∧ (s.dev.pkg.hot = false)) ∧
    (∃ (s : State) (vin iin pin : Nat) (junction dramTemps : List Int), (s.dev.startup.phase = .service) ∧ (junction.length = 24 ∧ dramTemps.length = 4) ∧ (1050 ≤ (hottest junction).2) ∧ (s.dev.pkg.hot = false) ∧ (s.dev.pkg.warnAt = (0, 0))) ∧
    (∃ (s : State) (sensor at_ : Nat), (tfind s.dev.pkg.over115 sensor = some at_) ∧ (s.dev.startup.phase = .service) ∧ (at_ + 1966080 ≤ s.clk.atc + 1)) ∧
    (∃ (s : State) (r : Req) (w : Waiting), (Waits s r 0x0107 w) ∧ (Fits w 76) ∧ (s.dev.pkg.junction.length = 24 ∧ s.dev.pkg.dramTemps.length = 4)) ∧
    (∃ (s : State) (r : Req) (w : Waiting) (blob : List Byte), (Waits s r 0x0108 w) ∧ (blob.length = 8192) ∧ (s.dev.mgmt.updating = false)) ∧
    (∃ (s : State) (r : Req) (w : Waiting) (blob : List Byte), (Waits s r 0x0108 w) ∧ (blob.length < 8192)) ∧
    (∃ (s : State) (r : Req) (w : Waiting) (source : Nat) (q : List Byte), (Waits s r 0x0109 w) ∧ (Fits w 8193) ∧ (source = 0) ∧ (s.dev.pkg.blobFlash = some q) ∧ (q.length = 8192)) :=
  ⟨⟨onDevice ({ startup := { phase := .off }, pkg := { vin := 0 } }), 5800, by decide +kernel⟩,
   ⟨onDevice ({ startup := { phase := .off }, pkg := { vin := 0 } }), 5799, by decide +kernel⟩,
   ⟨stReady, 5399, by decide +kernel⟩,
   ⟨stReady, 5400, by decide +kernel⟩,
   ⟨stReady, 62001, by decide +kernel⟩,
   ⟨onDevice ({ startup := { phase := .off }, pkg := { vin := 63000 } }), 60499, by decide +kernel⟩,
   ⟨stReady, by decide +kernel⟩,
   ⟨stReady, 12000, 3, 4, List.replicate 24 999, List.replicate 4 400, by decide +kernel⟩,
   ⟨stReady, 12000, 3, 4, List.replicate 24 1050, List.replicate 4 400, by decide +kernel⟩,
   ⟨{ clk := { atc := 1966080, run := true }, dev := { stReady.dev with pkg := { over115 := [(3, 1)] } } }, 3, 1, by decide +kernel⟩,
   ⟨slotSt 0x0107 stReady.dev, ⟨0, 0⟩, slot0 0x0107, by decide +kernel⟩,
   ⟨slotRefSt 0x0108 stReady.dev, ⟨0, 0⟩, slotRef 0x0108, blob8192, by decide, blob8192_length, by decide +kernel⟩,
   ⟨slotRefSt 0x0108 stReady.dev, ⟨0, 0⟩, slotRef 0x0108, [1, 2], by decide +kernel⟩,
   ⟨slotRefSt 0x0109 { stReady.dev with pkg := { blobFlash := some blob8192 } }, ⟨0, 0⟩, slotRef 0x0109, 0, blob8192, by decide, by decide, by decide, rfl, blob8192_length⟩⟩

/-- StepRunsFront: a state for each clause. -/
      theorem wit_StepRunsFront :
      (∃ (i : Instr) (rest : List Instr) (s : State), s.pending = i :: rest) ∧ (∃ s : State, s.pending = []) :=
      ⟨⟨.clockLock, [.modeDone], { State.reset with pending := [.clockLock, .modeDone] }, rfl⟩, ⟨State.reset, rfl⟩⟩

/-- EveryCommandCompletes: a command that moves no time. -/
      theorem wit_EveryCommandCompletes : ∃ i : Instr, movesTime i = false := ⟨.modeDone, rfl⟩

/-- TimeRelationKept: a step from reset. -/
      theorem wit_TimeRelationKept : ∃ s t : State, step s = .next t ∧ Clock.Wf s.clk :=
      ⟨State.reset, State.reset, rfl, by unfold Clock.Wf; decide⟩

/-- AirTimeMovesByTwo: a state for each clause. -/
      theorem wit_AirTimeMovesByTwo :
      (∃ s : State, s.clk.run = true ∧ s.dev.air.firing s.clk.atc = []) ∧
      (∃ s t : State, step s = .next t ∧ s.clk.atc % 2 = 0) ∧
      (∃ (i : Instr) (s t : State), exec i s = .next t ∧ (∀ r a b c d, i ≠ .timeStep r a b c d) ∧
      (∀ a b c, i ≠ .servoSourceQualify a b c) ∧ (∀ a, i ≠ .vinFall a) ∧ (∀ a, i ≠ .vinOvervoltage a)) :=
      ⟨⟨stReady, by decide +kernel, by decide +kernel⟩, ⟨State.reset, State.reset, rfl, rfl⟩,
      ⟨.cadenceCycle, State.reset, State.reset, rfl, by simp, by simp, by simp, by simp⟩⟩

/-- SlotCommandNeedsItsTurn: no command waits after reset. -/
      theorem wit_SlotCommandNeedsItsTurn :
      ∃ (i : Instr) (r : Req) (code : Nat) (s : State), slotCommand i = some (r, code) ∧ s.dev.pick r code = none :=
      ⟨.deviceGetMode ⟨0, 0⟩, ⟨0, 0⟩, 0x0102, State.reset, by decide +kernel, by decide +kernel⟩

/-- AnswerInSlot: an inline slot and an answer of 8 bytes, and one by reference. -/
      theorem wit_AnswerInSlot :
      (∃ (w : Waiting) (rep : Reply), bit w.flags 0 = false ∧ rep.payload.length ≤ 240 ∧ w.slot < 16) ∧
      (∃ (w : Waiting) (rep : Reply), bit w.flags 0 = true ∧ bit w.flags 1 = false ∧ rep.status ≠ stBADARG ∧
      (rep.payload ≠ [] ∨ rep.status = stOK)) :=
      ⟨⟨slot0 0x0103, rOk [(8, 5)], by decide +kernel, by decide +kernel, by decide +kernel⟩,
      ⟨slotRef 0x0109, rOk [(8, 5)], by decide +kernel, by decide +kernel, by decide +kernel, by decide +kernel⟩⟩

/-- BytesReadBack: the empty memory is in the one form. -/
      theorem wit_BytesReadBack : ∃ m : Tab Byte, Memory.wf m = true := ⟨[], rfl⟩

/-- EventRing: a device for each clause. -/
      theorem wit_EventRing :
      (∃ d : Dev, (d.func 0).ringAddr = 0) ∧
      (∃ d : Dev, (d.func 0).ringAddr ≠ 0 ∧ (d.func 0).ringFull = false ∧ (d.func 0).held = [] ∧ (d.func 0).lostRun = 0) ∧
      (∃ d : Dev, (d.func 0).ringAddr ≠ 0 ∧ (d.func 0).ringFull = true ∧ (d.func 0).held.length < 256) ∧
      (∃ d : Dev, (d.func 0).ringAddr ≠ 0 ∧ (d.func 0).ringFull = true ∧ 256 ≤ (d.func 0).held.length) ∧
      (evd []).length = 16 :=
      ⟨⟨{}, rfl⟩,
      ⟨{ host := { funcs := [(0, { ringAddr := 4096, ringLog := 6, prod := 63, cons := 5 })] } }, by decide +kernel, by decide +kernel, by decide +kernel, by decide +kernel⟩,
      ⟨{ host := { funcs := [(0, { ringAddr := 4096, ringLog := 6, prod := 63, cons := 0 })] } }, by decide +kernel, by decide +kernel, by decide +kernel⟩,
      ⟨{ host := { funcs := [(0, { ringAddr := 4096, ringLog := 6, prod := 63, cons := 64, held := List.replicate 256 ⟨0x0181, 0, 0, 0, []⟩ })] } }, by decide +kernel, by decide +kernel, by decide +kernel⟩,
      by decide +kernel⟩

/-- OwnedSlotIsIgnored: a state for each clause, at the last byte and the last slot. -/
      theorem wit_OwnedSlotIsIgnored :
      (∃ s : State, s.dev.onLink 0 = true ∧ s.dev.mgmt.svc = true ∧ (s.dev.func 0).owned.getLsbD 15 = true ∧ 256 * 15 ≤ 4095 ∧ 4095 + 1 ≤ 256 * 15 + 256 ∧
      s.dev.host.waiting.all (fun w => w.refuse.isNone) = true) ∧
      (∃ s : State, s.dev.onLink 0 = true ∧ s.dev.mgmt.svc = true ∧ (s.dev.func 0).owned.getLsbD 15 = false) :=
      ⟨⟨onDevice { stReady.dev with host := { stReady.dev.host with funcs := [(0, { owned := 0x8000 })] } }, by decide +kernel, by decide +kernel, by decide +kernel, by decide +kernel, by decide +kernel, by decide +kernel⟩,
      ⟨stReady, by decide +kernel, by decide +kernel, by decide +kernel⟩⟩

/-- WritesLand: a core for each clause. -/
      theorem wit_WritesLand :
      (∃ (k : Core) (f : Fly), k.fly = [f] ∧ k.n < f.land) ∧
      (∃ (k : Core) (l n i : Nat) (v : Word), k.fly = [⟨l, .s n v, i⟩] ∧ l ≤ k.n ∧ n ≠ 0) ∧
      (∃ (k : Core) (l l' n i i' : Nat) (v v' : Word), k.fly = [⟨l, .s n v, i⟩, ⟨l', .s n v', i'⟩] ∧ l ≤ k.n ∧ l' ≤ k.n ∧ n ≠ 0 ∧ i' < i) :=
      ⟨⟨{ fly := [⟨3, .s 5 7, 1⟩], n := 2 }, ⟨3, .s 5 7, 1⟩, rfl, by decide⟩, ⟨{ fly := [⟨3, .s 5 7, 1⟩], n := 3 }, 3, 5, 1, 7, rfl, by decide, by decide⟩,
      ⟨{ fly := [⟨3, .s 5 7, 2⟩, ⟨3, .s 5 9, 1⟩], n := 3 }, 3, 3, 5, 2, 1, 7, 9, rfl, by decide, by decide, by decide, by decide⟩⟩

/-- CarrierTimeline: carriers at both ends of the numerologies, and an instant of their first frame. -/
      theorem wit_CarrierTimeline :
      (∃ k : Carrier, k.mu ≤ 4 ∧ (k.ext = true → k.mu = 0 ∨ k.mu = 2) ∧ k.off ≤ 5) ∧
      (∃ k : Carrier, k.mu = 2 ∧ k.ext = true) ∧ (∃ k : Carrier, k.mu = 4 ∧ k.ext = false ∧ 0 < 20 * k.symsHalf) :=
      ⟨⟨stCarrier, by decide +kernel, by decide +kernel, by decide +kernel⟩,
      ⟨{ stCarrier with mu := 2, ext := true }, rfl, rfl⟩, ⟨{ stCarrier with mu := 4 }, rfl, rfl, by decide +kernel⟩⟩

/-- BlockErrorBound: blocks at the ends of the range, and the block of the worked example's largest component. -/
      theorem wit_BlockErrorBound :
      (∃ (c : List Int) (m : Nat), (∀ x ∈ c, -32768 ≤ x ∧ x ≤ 32767) ∧ 6 ≤ m ∧ m ≤ 15 ∧ chooseE c m = 17 - m) ∧
      (∃ (c : List Int) (x : Int), (∀ x ∈ c, -32768 ≤ x ∧ x ≤ 32767) ∧ x ∈ c ∧
      decodeComp (quant x (chooseE c 9)) (chooseE c 9) ≠ quant x (chooseE c 9) * 2 ^ chooseE c 9) ∧
      (∃ (c : List Int), (∀ x ∈ c, -32768 ≤ x ∧ x ≤ 32767) ∧ c ≠ []) ∧
      (∃ s : CmpSet, s.mMin ≤ 16 ∧ s.mMax = 16 ∧ chooseM [20000, -9001] s = (11, false)) :=
      ⟨⟨[32767, -32768], 9, by decide +kernel, by decide +kernel, by decide +kernel, by decide +kernel⟩,
      ⟨[32767, 5], 32767, by decide +kernel, by decide +kernel, by decide +kernel⟩,
      ⟨[20000, -9001], by decide +kernel, by decide +kernel⟩, ⟨{ mode := 2, mMin := 6, mMax := 16, bound := 16 }, by decide +kernel, by decide +kernel, by decide +kernel⟩⟩

/-- BlockRoundTrip: a block and a set of each mode. -/
      theorem wit_BlockRoundTrip :
      (∃ c : List Int, c.length = 32 ∧ ∀ x ∈ c, -32768 ≤ x ∧ x ≤ 32767) ∧
      (∃ s : CmpSet, s.mode = 0) ∧ (∃ s : CmpSet, s.mode = 1 ∧ 6 ≤ s.m ∧ s.m ≤ 16) ∧
      (∃ s : CmpSet, s.mode = 2 ∧ 6 ≤ s.mMin ∧ s.mMin ≤ s.mMax ∧ s.mMax ≤ 16) :=
      ⟨⟨List.replicate 31 (-32768) ++ [32767], by decide +kernel, by decide +kernel⟩, ⟨{ mode := 0 }, by decide +kernel⟩,
      ⟨{ mode := 1, m := 16 }, by decide +kernel, by decide +kernel, by decide +kernel⟩,
      ⟨{ mode := 2, mMin := 16, mMax := 16 }, by decide +kernel, by decide +kernel, by decide +kernel, by decide +kernel⟩⟩

/-- BoundedHeader: a set, and operands of each clause at their ends. -/
      theorem wit_BoundedHeader :
      (∃ s : CmpSet, s.mode = 2 ∧ s.mMin ≤ s.mMax ∧ s.mMax ≤ 16) ∧ (∃ e code : Nat, e < 16 ∧ 1 ≤ code ∧ code ≤ 5) ∧
      (∃ e code : Nat, e < 16 ∧ code < 16 ∧ (code = 0 ∨ 6 ≤ code)) :=
      ⟨⟨{ mode := 2, mMin := 6, mMax := 16 }, by decide +kernel, by decide +kernel, by decide +kernel⟩,
      ⟨15, 5, by decide, by decide, by decide⟩, ⟨15, 6, by decide, by decide, by decide⟩⟩

/-- LlrBuffers: three entries of each code. -/
      theorem wit_LlrBuffers :
      ∃ (code len : Nat) (xs : List Int) (k : Nat) (x : Int), code ≤ 2 ∧ (∀ y ∈ xs, -128 ≤ y ∧ y ≤ 127) ∧
      llrBits code * xs.length ≤ 8 * len ∧ xs[k]? = some x :=
      ⟨1, 2, [-128, 127, 5], 1, 127, by decide, by decide, by decide, by decide⟩

/-- FramesOfMailboxCommands: a command, a state and a part. -/
      theorem wit_FramesOfMailboxCommands :
      ∃ (i : Instr) (s t : State) (p : Part), (slotCommand i).isSome = true ∧ exec i s = .next t ∧ p ∉ touches i :=
      ⟨.timeGet ⟨0, 0⟩, State.reset, State.reset, .bytes, by decide +kernel, rfl, by decide +kernel⟩

/-- FramesOfEvents: a syllable, a state and a part. -/
      theorem wit_FramesOfEvents :
      ∃ (i : Instr) (s t : State) (p : Part), slotCommand i = none ∧ exec i s = .next t ∧ p ∉ touches i :=
      ⟨.heartbeatSend, State.reset, State.reset, .bytes, by decide +kernel, rfl, by decide +kernel⟩

/-! ### Ill-formed commands: one for each check -/

theorem test_wf_page : wfInstr (.deviceGetMode ⟨16, 0⟩) = false := by decide +kernel
theorem test_wf_slot : wfInstr (.deviceGetMode ⟨0, 16⟩) = false := by decide +kernel
theorem test_wf_value : wfInstr (.deviceSetMode ⟨0, 0⟩ 256 0) = false := by decide +kernel
theorem test_wf_list : wfInstr (.hostSetVectors ⟨0, 0⟩ [1, 65536]) = false := by decide +kernel
theorem test_wf_signed_high : wfInstr (.timeAdjFreq ⟨0, 0⟩ (2 ^ 63)) = false := by decide +kernel
theorem test_wf_signed_low : wfInstr (.timeAdjFreq ⟨0, 0⟩ (-2 ^ 63 - 1)) = false := by decide +kernel
theorem test_wf_core : wfInstr (.nop { bctx with core := 1024 } {} 0) = false := by decide +kernel
theorem test_wf_guard : wfInstr (.nop bctx { qg := 16 } 0) = false := by decide +kernel
theorem test_wf_register : wfInstr (.add bctx {} 64 0 0 0) = false := by decide +kernel
theorem test_wf_vector_register : wfInstr (.vadd bctx {} 32 0 0 false 0) = false := by decide +kernel
theorem test_wf_port : wfInstr (.linkDown 2) = false := by decide +kernel
theorem test_wf_good :
    wfInstr (.deviceSetMode ⟨15, 15⟩ 255 (2 ^ 64 - 1)) = true ∧ wfInstr (.timeAdjFreq ⟨0, 0⟩ (-2 ^ 63)) = true ∧
      wfInstr (.add bctx {} 63 63 63 1) = true := by decide +kernel

/-! ### The manual's worked examples -/

/-- Chapter 02, one inline command: the response header and payload of DEVICE_GET_CAPACITY in slot 5. -/
theorem test_inline_example :
    readBytes (answered {} { slot0 0x0103 with slot := 5, tag := 0x42, flags := 2 } (rOk [(4, 20430), (2, 510), (2, 180)]) {}).host.mb
        0x0500 24 =
      [0x03, 0x01, 0x42, 0x00, 0x08, 0x00, 0x02, 0x00, 0, 0, 0, 0, 0, 0, 0, 0, 0xCE, 0x4F, 0x00, 0x00, 0xFE, 0x01, 0xB4, 0x00] := by
  decide +kernel

/-- Chapter 03, one TDD frame: symbols 10 and 12 of slot 3 at 30 kHz. -/
theorem test_tdd_symbols :
    ({ stCarrier with mu := 1 } : Carrier).symStart (3 * 14 + 10) = 3651584 ∧
      ({ stCarrier with mu := 1 } : Carrier).symStart (3 * 14 + 12) = 3791872 := by decide +kernel

/-- R83: slots of 492,032 and 491,008 Tc at 60 kHz. -/
theorem test_slots_60kHz :
    ({ stCarrier with mu := 2 } : Carrier).symStart 14 = 492032 ∧
      ({ stCarrier with mu := 2 } : Carrier).symStart 28 = 492032 + 491008 := by decide +kernel

/-- Chapter 10, one block in FIXED mode with m = 9: e = 7, and the first two bytes 0x74, 0xE6. -/
theorem test_block_fixed :
    chooseE [20000, -9001] 9 = 7 ∧
      (toBytes (encodeBlock { mode := 1, m := 9 } [20000, -9001]).1).take 2 = [0x74, 0xE6] ∧
      decodeComp (quant 20000 7) 7 = 19968 ∧ decodeComp (quant (-9001) 7) 7 = -8960 := by decide +kernel

/-- The same in BOUNDED mode with BOUND = 16: m = 11, e = 5, header 0x5B. -/
theorem test_block_bounded :
    (toBytes (encodeBlock { mode := 2, mMin := 6, mMax := 12, bound := 16 } [20000, -9001]).1).head? = some 0x5B := by decide +kernel

/-- A block at full scale with m = 9: e = 8, decoded 32,767 by saturation. -/
theorem test_block_full_scale :
    chooseE [32767] 9 = 8 ∧ quant 32767 8 = 128 ∧ decodeComp 128 8 = 32767 := by decide +kernel

/-- Chapter 13, a stuck bit in cluster memory: core 330's word lies in cluster 5, row 41. -/
theorem test_stuck_bit_place :
    rowNo 0x0105002A48 = 41 ∧ memDomain 0x0105002A48 = some 5 ∧ decodeNode 0x0105002A48 = some (clusterNode 5 2) := by decide +kernel

/-! ### Small steps -/

/-- R495: ATC 0 is TAI second 315,964,819. -/
theorem test_reset_time : State.reset.clk.sec = 315964819 ∧ State.reset.clk.atc = 0 := by decide +kernel

/-- R81, R78: the last cycle of a second carries SEC on and leaves no remainder. -/
theorem test_second_carries :
    ({ sec := 315964819, ns := 999999998, rem := 3019, atc := 1966079998 } : Clock).tick =
      { sec := 315964820, ns := 0, rem := 0, atc := 1966080000 } := by decide +kernel

/-- R113, R114: ADD wraps modulo 2^32 (sub 0) and saturates (sub 1). -/
theorem test_add_wraps :
    (match exec (.add bctx {} 5 6 7 0) (coreSt { stCore with s := [(6, 0x7FFFFFFF), (7, 1)] }) with
      | .next t => (t.dev.core 0).fly.map (·.op)
      | _ => []) = [.s 5 0x80000000] := by decide +kernel
theorem test_add_saturates :
    (match exec (.add bctx {} 5 6 7 1) (coreSt { stCore with s := [(6, 0x7FFFFFFF), (7, 1)] }) with
      | .next t => (t.dev.core 0).fly.map (·.op)
      | _ => []) = [.s 5 0x7FFFFFFF] := by decide +kernel

/-- R67, R68: the entry at the last index has the phase of its pass, and the next pass the other. -/
theorem test_ring_wraps :
    ((Dev.post {} { host := { funcs := [(0, { ringAddr := 4096, ringLog := 6, prod := 63, cons := 5 })] } } 0
        ⟨0x0180, 0, 0x42, 0, evd []⟩).func 0).prod = 0 ∧
      ((Dev.post {} { host := { funcs := [(0, { ringAddr := 4096, ringLog := 6, prod := 63, cons := 5 })] } } 0
        ⟨0x0180, 0, 0x42, 0, evd []⟩).func 0).phase = false := by decide +kernel

end Sys2Proof.Tests
end

section
/-! Byte memories: the read-after-write statement of Sys2Proof/Certificates/Slice0, put together from the laws of tables. -/
namespace Sys2Proof.Machine

/-- No write reaches a byte outside the bytes it stores. -/
theorem tget_writeBytes_outside (m : Tab Byte) (a x : Nat) (bs : List Byte) (h : x < a ∨ a + bs.length ≤ x) :
    tget 0 (writeBytes m a bs) x = tget 0 m x := by
  rw [tget_writeBytes, if_neg (by omega)]

/-- A number stored in `n` bytes reads back as far as `n` bytes hold it (R6). -/
theorem readLe_writeBytes_le (m : Tab Byte) (a n v : Nat) : readLe (writeBytes m a (le n v)) a n = v % 256 ^ n := by
  have stored : readBytes (writeBytes m a (le n v)) a n = le n v := by
    simpa only [le_length] using readBytes_writeBytes m a (le n v)
  rw [readLe, stored, leVal_le]

/-- Settles O49: each clause is the law of reads after writes, or of the one form, of `writeBytes`. -/
theorem bytesReadBack : Obligations.BytesReadBack := by
  unfold Obligations.BytesReadBack
  intro m a bs
  exact ⟨readBytes_writeBytes m a bs, fun x => tget_writeBytes_outside m a x bs, readLe_writeBytes_le m a,
    wf_writeBytes bs m a⟩

end Sys2Proof.Machine
end

section
/-! The mailbox answer of a command that waits alone: what serving it comes to where its answer fits, and what the host link
shows after it. -/
namespace Sys2Proof.Machine

/-! ### Answers that fit -/

/-- A response that fits is no misfit (R63, R64). -/
theorem misfit_of_fits {w : Waiting} {r : Reply} (h : Fits w r.payload.length) : misfit w r = none := by
  unfold misfit
  unfold Fits at h
  dsimp only
  split at h <;> rename_i hf
  · rw [if_pos hf, if_neg (by omega)]
  · rw [if_neg hf, if_neg (by omega)]

/-- An answer without data fits in every slot. -/
theorem fits_zero (w : Waiting) : Fits w 0 := by
  unfold Fits; split <;> omega

/-- The only command that waits is answered as its handler says, with the handler's effect (R59, R60, R563). -/
theorem onDev_serve_alone {s : State} {r : Req} {code : Nat} {w : Waiting} {h : Ctx → Dev → Reply × Dev} {o : Reply × Dev}
    (hw : Waits s r code w)
    (ho : h { page := w.page, func := w.func, tag := w.tag, rung := w.rung, clk := s.clk } s.dev = o)
    (hfit : Fits w o.1.payload.length) (hhost : o.2.host = s.dev.host) :
    onDev (serve code r h) s = .next { s with dev := answered s.clk w o.1 (effected code o) } := by
  have hctx : h (w.ctx s.clk) s.dev = o := ho
  rw [← hctx] at hfit hhost ⊢
  rw [onDev_eq, serve_alone hw (misfit_of_fits hfit) (by rw [hhost]; exact hw.1)]

/-- A journalled command is answered and, where the answer is no refusal, noted (R563). -/
theorem onDev_serve_journalled {s : State} {r : Req} {code : Nat} {w : Waiting} {h : Ctx → Dev → Reply × Dev} {rep : Reply}
    {d : Dev} (hw : Waits s r code w) (hj : journalled code = true) (hr : rep.status = stOK ∨ rep.status = stACCEPTED)
    (hfit : Fits w rep.payload.length) (hhost : d.host = s.dev.host)
    (ho : h { page := w.page, func := w.func, tag := w.tag, rung := w.rung, clk := s.clk } s.dev = (rep, d)) :
    onDev (serve code r h) s = .next { s with dev := answered s.clk w rep (noted d) } := by
  have he : effected code (rep, d) = noted d := by unfold effected; simp [hr, hj]
  rw [onDev_serve_alone hw ho hfit hhost, he]

/-- A command that is not journalled and only answers has no other effect. -/
theorem onDev_serve_noFx {s : State} {r : Req} {code : Nat} {w : Waiting} {h : Ctx → Dev → Reply} {rep : Reply}
    (hw : Waits s r code w) (hj : journalled code = false) (hfit : Fits w rep.payload.length)
    (ho : h { page := w.page, func := w.func, tag := w.tag, rung := w.rung, clk := s.clk } s.dev = rep) :
    onDev (serve code r (noFx h)) s = .next { s with dev := answered s.clk w rep s.dev } := by
  have he : effected code (rep, s.dev) = s.dev := by unfold effected; simp [hj]
  rw [onDev_serve_alone (o := (rep, s.dev)) hw (by rw [noFx, ho]) hfit rfl, he]

/-- A function that sees an object's owner sees the object (R44). -/
theorem Ctx.sees_of_sees {x : Ctx} {owner : Nat} (h : Sees x.func owner) : x.sees owner = true := by simpa [Ctx.sees] using h

@[simp] theorem noted_host (d : Dev) : (noted d).host = d.host := rfl
@[simp] theorem noted_devmode (d : Dev) : (noted d).devmode = d.devmode := rfl

/-- An answer leaves the modes. -/
@[simp] theorem answered_devmode (c : Clock) (w : Waiting) (r : Reply) (d : Dev) : (answered c w r d).devmode = d.devmode := by
  unfold answered; rw [Dev.respond_dev]; rfl

/-! ### The host link after an answer depends on the host link alone -/

theorem Dev.func_congr {d e : Dev} (h : d.host = e.host) (f : Nat) : d.func f = e.func f := by
  unfold Dev.func; rw [h]

theorem Dev.updFunc_host_congr {d e : Dev} (h : d.host = e.host) (f : Nat) (g : Func → Func) :
    (d.updFunc f g).host = (e.updFunc f g).host := by
  simp only [Dev.updFunc, Dev.updHost_host, h]

theorem Dev.tryVector_host_congr {d e : Dev} (c : Clock) (h : d.host = e.host) (f v : Nat) :
    (d.tryVector c f v).host = (e.tryVector c f v).host := by
  unfold Dev.tryVector
  rw [Dev.func_congr h]
  dsimp only
  split
  · exact h
  · split
    · split
      · exact Dev.updFunc_host_congr h f _
      · simp only [Dev.updHost_host, Dev.updFunc_host_congr h f _]
    · exact h

theorem Dev.cause_host_congr {d e : Dev} (c : Clock) (h : d.host = e.host) (f v : Nat) :
    (d.cause c f v).host = (e.cause c f v).host := by
  have hv : d.vectorsOf f = e.vectorsOf f := by unfold Dev.vectorsOf; rw [h, Dev.func_congr h]
  unfold Dev.cause
  rw [hv]
  split
  · exact Dev.tryVector_host_congr c (Dev.updFunc_host_congr h f _) f v
  · exact h

theorem Dev.writeEvent_host_congr {d e : Dev} (c : Clock) (h : d.host = e.host) (f : Nat) (v : Event) :
    (d.writeEvent c f v).host = (e.writeEvent c f v).host := by
  unfold Dev.writeEvent
  rw [Dev.func_congr h]
  refine Dev.cause_host_congr c (Dev.updFunc_host_congr ?_ f _) f 1
  simp only [Dev.updHost_host, h]

theorem Dev.evt_host_congr {d e : Dev} (c : Clock) (h : d.host = e.host) (ring own code tag : Nat)
    (fs : List (Nat × Nat × Nat)) : (d.evt c ring own code tag fs).host = (e.evt c ring own code tag fs).host := by
  unfold Dev.evt Dev.post
  rw [Dev.func_congr h]
  dsimp only
  split
  · exact h
  · split
    · split
      · exact Dev.updFunc_host_congr h ring _
      · exact Dev.updFunc_host_congr (d := d.trouble _ _) (e := e.trouble _ _) h ring _
    · exact Dev.writeEvent_host_congr c h ring _

theorem Dev.respond_host_congr {d e : Dev} (c : Clock) (h : d.host = e.host) (w : Waiting) (r : Reply) :
    (d.respond c w r).host = (e.respond c w r).host := by
  have answer : ∀ g, ((d.updHost fun h => h.answer w r).updFunc w.page g).host =
      ((e.updHost fun h => h.answer w r).updFunc w.page g).host :=
    Dev.updFunc_host_congr (by simp only [Dev.updHost_host, h]) w.page
  unfold Dev.respond
  dsimp only
  split <;> split
  · exact Dev.evt_host_congr c (answer _) ..
  · exact answer _
  · exact Dev.cause_host_congr c (Dev.evt_host_congr c (answer _) ..) ..
  · exact Dev.cause_host_congr c (answer _) ..

/-- What an answer leaves on the host link depends on the host link before it alone. -/
theorem answered_host_congr {d e : Dev} (c : Clock) (w : Waiting) (r : Reply) (h : d.host = e.host) :
    (answered c w r d).host = (answered c w r e).host :=
  Dev.respond_host_congr c (by simp only [Dev.updHost_host, h]) w r

end Sys2Proof.Machine
end

section
/-! What keeps the modes: the operations that mode changes, messages and movers call leave `devmode` alone. -/
namespace Sys2Proof.Machine

/-- What every step of a fold keeps, the fold keeps. -/
theorem foldl_keeps {α β γ : Type} (p : α → γ) {f : α → β → α} (h : ∀ a b, p (f a b) = p a) (l : List β) (a : α) :
    p (l.foldl f a) = p a := by
  induction l generalizing a with
  | nil => rfl
  | cons b l ih => exact (ih (f a b)).trans (h a b)

/-! ### Events, causes and the trouble record -/

theorem HostOnly.devmode {d e : Dev} (h : HostOnly d e) : e.devmode = d.devmode := by rw [h.dev]

theorem HostOnly.tnd {d e : Dev} (h : HostOnly d e) : e.tnd = d.tnd := by rw [h.dev]

@[simp] theorem Dev.cause_devmode (c : Clock) (d : Dev) (f v : Nat) : (d.cause c f v).devmode = d.devmode :=
  (HostOnly.cause c d f v).devmode

@[simp] theorem Dev.evt_devmode (c : Clock) (d : Dev) (ring own code tag : Nat) (fs : List (Nat × Nat × Nat)) :
    (d.evt c ring own code tag fs).devmode = d.devmode := (HostOnly.evt c d ring own code tag fs).devmode

@[simp] theorem Dev.evt0_devmode (c : Clock) (d : Dev) (code tag : Nat) (fs : List (Nat × Nat × Nat)) :
    (d.evt0 c code tag fs).devmode = d.devmode := (HostOnly.evt c d 0 0 code tag fs).devmode

@[simp] theorem Dev.evt0_tnd (c : Clock) (d : Dev) (code tag : Nat) (fs : List (Nat × Nat × Nat)) :
    (d.evt0 c code tag fs).tnd = d.tnd := (HostOnly.evt c d 0 0 code tag fs).tnd

@[simp] theorem Dev.evtBreano_devmode (c : Clock) (d : Dev) (ring own code tag : Nat) (fs : List (Nat × Nat × Nat)) :
    (d.evtBreano c ring own code tag fs).devmode = d.devmode := by
  unfold Dev.evtBreano; split <;> simp

@[simp] theorem Dev.trouble_devmode (d : Dev) (w b : Nat) : (d.trouble w b).devmode = d.devmode := rfl

@[simp] theorem Dev.log_devmode (c : Clock) (d : Dev) (w b code : Nat) (data : List Byte) :
    (d.log c w b code data).devmode = d.devmode := rfl

@[simp] theorem Dev.evtLog_devmode (c : Clock) (d : Dev) (ring own code tag w b : Nat) (fs : List (Nat × Nat × Nat)) :
    (d.evtLog c ring own code tag w b fs).devmode = d.devmode := by
  unfold Dev.evtLog; simp

/-! ### Updates of one unit -/

@[simp] theorem Dev.updEngine_devmode (d : Dev) (e : Nat) (f : Engine → Engine) : (d.updEngine e f).devmode = d.devmode := rfl
@[simp] theorem Dev.updPool_devmode (d : Dev) (p : Nat) (f : Pool → Pool) : (d.updPool p f).devmode = d.devmode := rfl
@[simp] theorem Dev.updLane_devmode (d : Dev) (n : Nat) (f : Lane → Lane) : (d.updLane n f).devmode = d.devmode := rfl
@[simp] theorem Dev.updPort_devmode (d : Dev) (p : Nat) (f : Port → Port) : (d.updPort p f).devmode = d.devmode := rfl
@[simp] theorem Dev.updChan_devmode (d : Dev) (n : Nat) (f : Chan → Chan) : (d.updChan n f).devmode = d.devmode := rfl
@[simp] theorem Dev.updChain_devmode (d : Dev) (n dir : Nat) (f : Chain → Chain) : (d.updChain n dir f).devmode = d.devmode := rfl
@[simp] theorem Dev.updPair_devmode (d : Dev) (p : Nat) (f : PairCh → PairCh) : (d.updPair p f).devmode = d.devmode := rfl

@[simp] theorem Dev.updSpoke_devmode (d : Dev) (n : Nat) (f : Spoke → Spoke) : (d.updSpoke n f).devmode = d.devmode := by
  unfold Dev.updSpoke; split <;> rfl

@[simp] theorem Dev.updCopper_devmode (d : Dev) (n : Nat) (f : CopSpoke → CopSpoke) : (d.updCopper n f).devmode = d.devmode := by
  unfold Dev.updCopper; split <;> rfl

/-! ### Units enabled again (R26, R400, R486) -/

@[simp] theorem Dev.noteDown_devmode (c : Clock) (d : Dev) (n : Nat) : (d.noteDown c n).devmode = d.devmode := by
  unfold Dev.noteDown
  dsimp only
  split
  · rfl
  · split <;> rfl

@[simp] theorem Dev.abortScans_devmode (d : Dev) (ls : List Nat) : (d.abortScans ls).devmode = d.devmode := by
  unfold Dev.abortScans
  rw [foldl_keeps Dev.devmode fun _ _ => Dev.updLane_devmode ..]

@[simp] theorem Dev.reportTable_devmode (c : Clock) (d : Dev) (n : Nat) (bad : List (Nat × Nat)) :
    (d.reportTable c n bad).devmode = d.devmode := by
  unfold Dev.reportTable
  rw [foldl_keeps Dev.devmode fun _ _ => Dev.evtLog_devmode .., Dev.updSpoke_devmode]

@[simp] theorem Dev.resetLaneTrims_devmode (d : Dev) (n : Nat) (ls : List Nat) : (d.resetLaneTrims n ls).devmode = d.devmode := by
  unfold Dev.resetLaneTrims
  split
  · exact foldl_keeps Dev.devmode (f := fun d l => d.resetTrims 0 l) (fun _ _ => rfl) ls d
  · rfl

@[simp] theorem Dev.restartSpoke_devmode (c : Clock) (d : Dev) (n : Nat) : (d.restartSpoke c n).devmode = d.devmode := by
  unfold Dev.restartSpoke
  split
  · rfl
  · simp [apply_ite Dev.devmode]

@[simp] theorem Dev.bringUp_devmode (c : Clock) (d : Dev) (n : Nat) : (d.bringUp c n).devmode = d.devmode := by
  unfold Dev.bringUp
  split
  · rfl
  · simp [apply_ite Dev.devmode]

@[simp] theorem Dev.enableSpoke_devmode (c : Clock) (d : Dev) (n : Nat) : (d.enableSpoke c n).devmode = d.devmode := by
  unfold Dev.enableSpoke
  split
  · rfl
  · simp [apply_ite Dev.devmode]

@[simp] theorem Dev.startPair_devmode (c : Clock) (d : Dev) (p : Nat) : (d.startPair c p).devmode = d.devmode := by
  unfold Dev.startPair; simp

@[simp] theorem Dev.enableUnit_devmode (c : Clock) (d : Dev) (u : Nat × Nat) : (d.enableUnit c u).devmode = d.devmode := by
  unfold Dev.enableUnit
  split
  · rfl
  split
  · simp
  split
  · simp
  split
  · simp
  split
  · split
    · rfl
    · rw [foldl_keeps Dev.devmode fun _ _ => Dev.startPair_devmode .., Dev.updCopper_devmode]
  · rfl

/-- Enabling units again takes them from the list of those that mode changes have disabled, and leaves the modes. -/
theorem Dev.reviveUnits_devmode (c : Clock) (p : Nat × Nat → Bool) (d : Dev) :
    (d.reviveUnits c p).devmode = { d.devmode with drained := d.devmode.drained.filter fun u => !p u } := by
  unfold Dev.reviveUnits
  rw [foldl_keeps Dev.devmode fun _ _ => Dev.enableUnit_devmode ..]
  rfl

/-! ### The servo and the DORMANT entry -/

@[simp] theorem Dev.setServo_devmode (c : Clock) (d : Dev) (st : Nat) : (d.setServo c st).devmode = d.devmode := by
  unfold Dev.setServo
  dsimp only
  split
  · rfl
  · rw [foldl_keeps Dev.devmode fun _ _ => Dev.evt_devmode .., Dev.updTime_devmode]

@[simp] theorem Dev.servoBack_devmode (c : Clock) (d : Dev) : (d.servoBack c).devmode = d.devmode := by
  unfold Dev.servoBack; simp

@[simp] theorem Dev.dormantEntry_devmode (c : Clock) (d : Dev) (tag : Nat) : (d.dormantEntry c tag).devmode = d.devmode := by
  unfold Dev.dormantEntry; split <;> rfl

/-! ### A mode takes effect -/

/-- What a device that has entered mode `m` shows: the mode since this ATC, and no change pending (R23). -/
structure InMode (c : Clock) (m : Mode) (d : Dev) : Prop where
  mode : d.devmode.mode = m
  since : d.devmode.since = c.atc
  idle : d.devmode.pend = none

theorem InMode.of_devmode {c : Clock} {m : Mode} {d e : Dev} (h : InMode c m d) (he : e.devmode = d.devmode) : InMode c m e := by
  obtain ⟨hm, hs, hp⟩ := h
  exact ⟨he ▸ hm, he ▸ hs, he ▸ hp⟩

theorem InMode.reviveUnits {c : Clock} {m : Mode} {d : Dev} (h : InMode c m d) (p : Nat × Nat → Bool) :
    InMode c m (d.reviveUnits c p) := by
  obtain ⟨hm, hs, hi⟩ := h
  have hd := d.reviveUnits_devmode c p
  exact ⟨by rw [hd]; exact hm, by rw [hd]; exact hs, by rw [hd]; exact hi⟩

theorem InMode.ite {c : Clock} {m : Mode} {d e : Dev} {p : Prop} [Decidable p] (h : InMode c m d) (he : e.devmode = d.devmode) :
    InMode c m (if p then e else d) := by
  split
  · exact h.of_devmode he
  · exact h

/-- Whatever it leaves and enters, an entry ends in its mode: only its first update writes the modes. -/
theorem Dev.enterMode_inMode (c : Clock) (m : Mode) (status tag : Nat) (d : Dev) : InMode c m (d.enterMode c m status tag) := by
  unfold Dev.enterMode
  refine .of_devmode ?_ (Dev.evtBreano_devmode ..)
  refine .ite ?_ (Dev.dormantEntry_devmode ..)
  refine .ite ?_ (Dev.updTnd_devmode ..)
  refine .ite ?_ rfl
  refine .ite ?_ (Dev.servoBack_devmode ..)
  refine .reviveUnits ?_ _
  exact ⟨rfl, rfl, rfl⟩

/-- A change to a mode other than CAPTAIN, or one while no other captain is heard, puts the target in force (R554). -/
theorem Dev.changeTo_inMode {c : Clock} {m : Mode} {d : Dev} (tag : Nat) (h : ¬(m = .captain ∧ d.captainHeard c = true)) :
    InMode c m (d.changeTo c m tag) := by
  have hb : ¬((m = .captain && d.captainHeard c && d.tnd.captain != d.pkg.tandemId : Bool) = true) := by
    simp only [Bool.and_eq_true, decide_eq_true_eq]
    exact fun hx => h hx.1
  unfold Dev.changeTo
  rw [if_neg hb]
  exact Dev.enterMode_inMode c m 0 tag d

end Sys2Proof.Machine
end

section
/-! What a message received in LOOKASIDE keeps (R31): reads without a marked word leave the host interface, ends of descriptors
leave the modes, and the use of a message leaves the counts of messages. -/
namespace Sys2Proof.Machine

/-! ### Reads of device memory (R373) -/

@[simp] theorem Dev.trouble_host (d : Dev) (w b : Nat) : (d.trouble w b).host = d.host := rfl
@[simp] theorem Dev.memStat_devmode (d : Dev) (cls : Nat) (f : MemStats → MemStats) : (d.memStat cls f).devmode = d.devmode := rfl
@[simp] theorem Dev.memStat_host (d : Dev) (cls : Nat) (f : MemStats → MemStats) : (d.memStat cls f).host = d.host := rfl

@[simp] theorem Dev.queueTest_devmode (d : Dev) (a : Nat) : (d.queueTest a).devmode = d.devmode := by
  unfold Dev.queueTest; simp [apply_ite Dev.devmode]

@[simp] theorem Dev.queueTest_host (d : Dev) (a : Nat) : (d.queueTest a).host = d.host := by
  unfold Dev.queueTest; simp [apply_ite Dev.host]

@[simp] theorem Dev.noteUe_devmode (c : Clock) (d : Dev) (cls a : Nat) : (d.noteUe c cls a).devmode = d.devmode := by
  unfold Dev.noteUe; split <;> simp

@[simp] theorem Dev.readWord_devmode (c : Clock) (d : Dev) (cw cls rid : Nat) :
    (d.readWord c cw cls rid).2.devmode = d.devmode := by
  unfold Dev.readWord
  dsimp only
  split
  · rfl
  · simp [apply_ite Dev.devmode]
  · simp [apply_ite Dev.devmode]

/-- Only a marked word is told to the host (R388). -/
theorem Dev.readWord_host {c : Clock} {d : Dev} {cw cls rid : Nat} (h : (d.readWord c cw cls rid).1 = false) :
    (d.readWord c cw cls rid).2.host = d.host := by
  unfold Dev.readWord at h ⊢
  dsimp only at h ⊢
  split at h
  case h_1 => rfl
  case h_2 => simp [apply_ite Dev.host]
  case h_3 => cases h

/-- The fold of reads that gathers their marks: where no read marks anything, what an unmarked read keeps is kept. -/
theorem foldl_unmarked {β γ : Type} (p : Dev → γ) {f : Dev → β → Bool × Dev} (h : ∀ d b, (f d b).1 = false → p (f d b).2 = p d)
    (l : List β) (o : Bool × Dev) (ho : (l.foldl (fun o b => (o.1 || (f o.2 b).1, (f o.2 b).2)) o).1 = false) :
    o.1 = false ∧ p (l.foldl (fun o b => (o.1 || (f o.2 b).1, (f o.2 b).2)) o).2 = p o.2 := by
  induction l generalizing o with
  | nil => exact ⟨ho, rfl⟩
  | cons b l ih =>
    obtain ⟨hmark, hkept⟩ := ih _ ho
    obtain ⟨hbefore, hread⟩ := Bool.or_eq_false_iff.1 hmark
    exact ⟨hbefore, hkept.trans (h o.2 b hread)⟩

@[simp] theorem Dev.checkRead_devmode (c : Clock) (d : Dev) (a n cls rid : Nat) :
    (d.checkRead c a n cls rid).2.devmode = d.devmode := by
  refine foldl_keeps (fun o : Bool × Dev => o.2.devmode) (fun o cw => ?_) (codeWords a n) (false, d)
  exact Dev.readWord_devmode c o.2 cw cls rid

/-- A read that marks nothing leaves the host interface. -/
theorem Dev.checkRead_host {c : Clock} {d : Dev} {a n cls rid : Nat} (h : (d.checkRead c a n cls rid).1 = false) :
    (d.checkRead c a n cls rid).2.host = d.host :=
  (foldl_unmarked Dev.host (f := fun d cw => d.readWord c cw cls rid) (fun _ _ => Dev.readWord_host) _ _ h).2

/-! ### Places that a mover reads (R348, R353) -/

@[simp] theorem Dev.chanFetch_devmode (d : Dev) (n a len : Nat) : (d.chanFetch n a len).2.devmode = d.devmode := rfl
@[simp] theorem Dev.chanFetch_hostMem (d : Dev) (n a len : Nat) : (d.chanFetch n a len).2.host.mem = d.host.mem := rfl

@[simp] theorem Dev.memRead_devmode (c : Clock) (d : Dev) (a n cls rid : Nat) :
    (d.memRead c a n cls rid).2.2.devmode = d.devmode :=
  Dev.checkRead_devmode c d a n cls rid

theorem Dev.memRead_host {c : Clock} {d : Dev} {a n cls rid : Nat} (h : (d.memRead c a n cls rid).2.1 = false) :
    (d.memRead c a n cls rid).2.2.host = d.host := Dev.checkRead_host h

/-- A place in device memory is read without a change of the modes, and, where it could be read, of the host interface. -/
theorem Dev.readPlace_dev (c : Clock) (d : Dev) (n len a : Nat) (peer : List Byte) :
    (d.readPlace c n peer len (.dev a)).2.devmode = d.devmode ∧
      ∀ b, (d.readPlace c n peer len (.dev a)).1 = .inr b → (d.readPlace c n peer len (.dev a)).2.host = d.host := by
  unfold Dev.readPlace
  split
  · exact ⟨rfl, fun b h => by cases h⟩
  · refine ⟨Dev.memRead_devmode .., fun b h => Dev.memRead_host ?_⟩
    cases hm : (d.memRead c a len rqMover n).2.1 with
    | false => rfl
    | true =>
      simp only [hm, if_true] at h
      cases h

/-! ### Descriptors (R351, R355) -/

/-- The descriptor at the head of a channel is read without a change of the modes, and, where it could be read, of host
memory. -/
theorem Dev.headDesc_keeps (c : Clock) (d : Dev) (n : Nat) :
    (d.headDesc c n).2.devmode = d.devmode ∧ ∀ x, (d.headDesc c n).1 = .inr x → (d.headDesc c n).2.host.mem = d.host.mem := by
  unfold Dev.headDesc
  dsimp only
  split
  · exact ⟨rfl, fun _ _ => rfl⟩
  · obtain ⟨hmode, hhost⟩ := d.readPlace_dev c n 64 ((d.chan n).slot (d.chan n).done) []
    split
    · exact ⟨hmode, fun x h => by cases h⟩
    · next b hb => exact ⟨hmode, fun x _ => by rw [hhost b hb]⟩

@[simp] theorem Dev.chanStore_devmode (d : Dev) (n a : Nat) (bs : List Byte) : (d.chanStore n a bs).devmode = d.devmode := rfl

@[simp] theorem Dev.flushPort_devmode (d : Dev) (n : Nat) : (d.flushPort n).devmode = d.devmode := by
  unfold Dev.flushPort; split <;> rfl

@[simp] theorem Dev.putCells_devmode (d : Dev) (a : Nat) (bs : List Byte) : (d.putCells a bs).devmode = d.devmode := rfl

@[simp] theorem Dev.writeWord_devmode (d : Dev) (cw a : Nat) (bs : List Byte) : (d.writeWord cw a bs).2.devmode = d.devmode := by
  unfold Dev.writeWord
  dsimp only
  split
  · rfl
  · split
    · rfl
    · simp [apply_ite Dev.devmode]
    · simp [apply_ite Dev.devmode]

@[simp] theorem Dev.memWrite_devmode (d : Dev) (a : Nat) (bs : List Byte) : (d.memWrite a bs).2.devmode = d.devmode := by
  refine foldl_keeps (fun o : Bool × Dev => o.2.devmode) (fun o cw => ?_) (codeWords a bs.length) (false, d)
  exact Dev.writeWord_devmode o.2 cw a bs

@[simp] theorem Dev.logDrop_devmode (c : Clock) (d : Dev) (w addr rid why : Nat) :
    (d.logDrop c w addr rid why).devmode = d.devmode := rfl

@[simp] theorem Dev.gateDrop_devmode (c : Clock) (d : Dev) (dom addr rid : Nat) :
    (d.gateDrop c dom addr rid).devmode = d.devmode := by
  unfold Dev.gateDrop Dev.updGate; simp [apply_ite Dev.devmode]

@[simp] theorem Dev.putDesc_devmode (c : Clock) (d : Dev) (n off v : Nat) : (d.putDesc c n off v).devmode = d.devmode := by
  unfold Dev.putDesc Dev.writePlace
  split <;> simp [apply_ite Dev.devmode]

/-- The end of a descriptor that wakes no thread leaves the modes. -/
theorem Dev.endDesc_devmode (c : Clock) (d : Dev) (n : Nat) (x : Desc) (w0 status cause dir arrived result : Nat)
    (h : x.wake = false) : (d.endDesc c n x w0 status cause dir arrived result).devmode = d.devmode := by
  unfold Dev.endDesc; simp [h, apply_ite Dev.devmode]

/-! ### The counts of messages (R30, R31) -/

theorem Dev.look_congr {d e : Dev} (h : e.devmode = d.devmode) (stream dir : Nat) : e.look stream dir = d.look stream dir := by
  unfold Dev.look; rw [h]

/-- A binding after an update of some binding. -/
theorem Dev.look_updLook (d : Dev) (stream dir i j : Nat) (f : LookBind → LookBind) :
    (d.updLook stream dir f).look i j = if 2 * i + j = 2 * stream + dir then f (d.look stream dir) else d.look i j := by
  simp only [Dev.look, Dev.updLook, Dev.updDevmode_devmode, tget_tmod]

/-- No count of messages moves between two blocks. -/
def SameMessages (d e : Dev) : Prop := ∀ stream dir, (e.look stream dir).messages = (d.look stream dir).messages

theorem SameMessages.of_devmode {d e : Dev} (h : e.devmode = d.devmode) : SameMessages d e := fun stream dir => by
  rw [Dev.look_congr h]

theorem SameMessages.refl (d : Dev) : SameMessages d d := fun _ _ => rfl

theorem SameMessages.ite {p : Prop} [Decidable p] {d a b : Dev} (h : SameMessages d a) (k : SameMessages d b) :
    SameMessages d (if p then a else b) := by
  split
  · exact h
  · exact k

theorem SameMessages.trans {a b d : Dev} (h : SameMessages a b) (k : SameMessages b d) : SameMessages a d := fun i j =>
  (k i j).trans (h i j)

/-- What is counted of a message that is not used leaves the counts of messages. -/
theorem SameMessages.countSp (d : Dev) (sp i n : Nat) : SameMessages d (d.countSp sp i n) := by
  unfold Dev.countSp
  split
  · exact .of_devmode rfl
  · split
    · intro stream dir
      rw [Dev.look_updLook]
      split
      · next h => rw [Dev.look, Dev.look, h]
      · rfl
    · exact .of_devmode rfl

theorem SameMessages.seqGap (d : Dev) (sp pcid seq : Nat) : SameMessages d (d.seqGap sp pcid seq) := by
  unfold Dev.seqGap
  refine .trans ?arrived (.ite (.refl _) (.countSp _ sp 15 _))
  exact .ite (.of_devmode (Dev.updPort_devmode ..)) (.of_devmode (Dev.updCop_devmode ..))

@[simp] theorem Dev.freeSamples_devmode (d : Dev) (n : Nat) : (d.freeSamples n).2.devmode = d.devmode := by
  refine foldl_keeps (fun o : List (Int × Int) × Dev => o.2.devmode) (fun o _ => ?_) (List.range n) ([], d)
  rfl

@[simp] theorem Dev.deliver_devmode (c : Clock) (d : Dev) (stream : Nat) (y : Stream) (k : Carrier) (f n0 : Nat)
    (l : List (Int × Int)) : (d.deliver c stream y k f n0 l).devmode = d.devmode := rfl

/-- The use of a message moves no count of messages. -/
theorem SameMessages.useMessage (c : Clock) (d : Dev) (sp : Nat) (g : Msg) (x : Decoded) (stream : Nat) :
    SameMessages d (d.useMessage c sp g x stream) := by
  unfold Dev.useMessage
  split
  · exact .countSp d sp 13 1
  split
  · exact .countSp d sp 13 1
  dsimp only
  refine .ite (.countSp d sp 26 1) (.trans (.seqGap d sp g.pcid g.seq) ?_)
  refine .ite (.of_devmode (Dev.updSpoke_devmode ..)) (.ite (.countSp _ sp 14 1) ?_)
  refine .trans ?badHeader (.ite (.refl _) ?deliver)
  case badHeader =>
    split
    · exact .ite (.of_devmode (by simp)) (.of_devmode (by simp))
    · exact .of_devmode (by simp)
  case deliver =>
    exact .ite (.of_devmode (Dev.deliver_devmode ..))
      (.of_devmode ((Dev.deliver_devmode ..).trans (Dev.freeSamples_devmode ..)))

end Sys2Proof.Machine
end

section
/-! Statement O1: requests for a mode (R21-R28, R598) and what DEVICE_GET_MODE and DEVICE_GET_CAPACITY answer (R17, R27). -/
namespace Sys2Proof.Machine

/-! ### Wake events change the power record alone -/

theorem Dev.beginWake_eq (c : Clock) (d : Dev) (n cause tag : Nat) :
    d.beginWake c n cause tag = { d with power := (d.beginWake c n cause tag).power } := by
  unfold Dev.beginWake; split <;> rfl

/-- A wake event begins a wake or is latched in its sleep group (R594): both lie in the power record. -/
theorem Dev.wakeEvent_eq (c : Clock) (d : Dev) (n cause tag : Nat) :
    d.wakeEvent c n cause tag = { d with power := (d.wakeEvent c n cause tag).power } := by
  unfold Dev.wakeEvent
  split
  · split
    · rfl
    · exact Dev.beginWake_eq c d n cause tag
  · exact Dev.beginWake_eq c d n cause tag

theorem Dev.wakeEvents_eq (c : Clock) (cause tag : Nat) (ns : List Nat) (d : Dev) :
    ∃ p, ns.foldl (fun d n => d.wakeEvent c n cause tag) d = { d with power := p } := by
  induction ns generalizing d with
  | nil => exact ⟨d.power, rfl⟩
  | cons n ns ih =>
    obtain ⟨p, hp⟩ := ih (d.wakeEvent c n cause tag)
    exact ⟨p, by rw [List.foldl_cons, hp, Dev.wakeEvent_eq]⟩

/-! ### An accepted change is pending -/

theorem Dev.acceptDrained_devmode (c : Clock) (m : Mode) (tag : Nat) (auto : Bool) (d : Dev) :
    (d.acceptDrained c m tag auto).devmode = { d.devmode with
      pend := some { target := m, live := false, boundary := drainBoundary c.atc, tag := tag, auto := auto } } := by
  unfold Dev.acceptDrained; dsimp only; split <;> rfl

theorem Dev.acceptDrained_host (c : Clock) (m : Mode) (tag : Nat) (auto : Bool) (d : Dev) :
    (d.acceptDrained c m tag auto).host = d.host := by
  unfold Dev.acceptDrained; dsimp only; split <;> rfl

theorem Dev.acceptLive_devmode (m : Mode) (b tag : Nat) (auto : Bool) (d : Dev) :
    (d.acceptLive m b tag auto).devmode = { d.devmode with
      pend := some { target := m, live := true, boundary := b, tag := tag, auto := auto } } := by
  unfold Dev.acceptLive; dsimp only; split <;> rfl

theorem Dev.acceptLive_host (m : Mode) (b tag : Nat) (auto : Bool) (d : Dev) :
    (d.acceptLive m b tag auto).host = d.host := by
  unfold Dev.acceptLive; dsimp only; split <;> rfl

/-! ### DEVICE_SET_MODE -/

/-- No change is pending and no takeover or handback holds the device: a request is not answered BUSY (R22, R552). -/
structure Changeable (s : State) : Prop where
  idle : s.dev.devmode.pend = none
  noHandback : s.dev.tnd.handback = none
  notTaken : ¬(s.dev.devmode.mode = .captain ∧ s.dev.pkg.tandemId ≠ 0 ∧ s.dev.devmode.since = s.clk.atc)

/-- The tandem conditions of a request for mode `m` hold (R539, R554). -/
structure TandemAllows (s : State) (m : Mode) : Prop where
  captain : ¬(m = .captain ∧ s.dev.pkg.tandemId ≠ 0)
  grouped : (m = .captain ∨ m = .stoker) → s.dev.tnd.group ≠ none

theorem Changeable.not_busy {s : State} (h : Changeable s) :
    (s.dev.devmode.pend.isSome || s.dev.tnd.handback.isSome ||
      (s.dev.devmode.mode = .captain && s.dev.pkg.tandemId != 0 && s.dev.devmode.since = s.clk.atc : Bool)) = false := by
  obtain ⟨hpend, hback, htaken⟩ := h
  simpa [hpend, hback] using htaken

theorem TandemAllows.not_ungrouped {s : State} {m : Mode} (h : TandemAllows s m) :
    ¬((m = .captain ∨ m = .stoker) ∧ s.dev.tnd.group = none) := fun ⟨hm, hn⟩ => h.grouped hm hn

theorem journalled_setMode : journalled 0x0101 = true := by decide

section
variable {s : State} {r : Req} {w : Waiting} {m : Mode} {mode live : Nat}

/-- A request for the mode in force answers the ATC at which it took effect (R27). -/
theorem exec_deviceSetMode_present (hw : Waits s r 0x0101 w) (hfit : Fits w 8)
    (hm : Mode.ofCode mode = some s.dev.devmode.mode) (hc : Changeable s) :
    exec (.deviceSetMode r mode live) s =
      .next { s with dev := answered s.clk w (rOk [(8, s.dev.devmode.since)]) (noted s.dev) } := by
  refine onDev_serve_journalled hw journalled_setMode (.inl rfl) hfit rfl ?_
  simp only [hm, hc.not_busy]
  simp

/-- A live request that meets R23's conditions is accepted with its own boundary. -/
theorem exec_deviceSetMode_live (hw : Waits s r 0x0101 w) (hfit : Fits w 8) (hm : Mode.ofCode mode = some m)
    (hc : Changeable s) (hne : m ≠ s.dev.devmode.mode) (ht : TandemAllows s m) (hold : s.dev.devmode.mode.group = true)
    (hnew : m.group = true) (hframe : live % 19660800 = 0) (hlate : s.clk.atc + 39321600 ≤ live)
    (hst : m = .stoker → s.dev.stokerReady s.clk = true) :
    exec (.deviceSetMode r mode live) s =
      .next { s with dev := answered s.clk w (rAcc [(8, live)]) (noted (s.dev.acceptLive m live w.tag false)) } := by
  have hrelay : s.dev.devmode.mode ≠ .relay := by intro h; rw [h] at hold; cases hold
  have hready : ¬(m = .stoker ∧ s.dev.stokerReady s.clk = false) := by rintro ⟨h, hf⟩; rw [hst h] at hf; cases hf
  refine onDev_serve_journalled hw journalled_setMode (.inr rfl) hfit (Dev.acceptLive_host ..) ?_
  simp only [hm, hc.not_busy]
  simp [frameTc, hne, ht.captain, ht.not_ungrouped, hrelay, hold, hnew, hframe, Nat.not_lt.2 hlate, hready]

/-- A request that is not live is accepted with the drain boundary (R24); leaving DORMANT wakes the domains (R598). -/
theorem exec_deviceSetMode_drained (hw : Waits s r 0x0101 w) (hfit : Fits w 8) (hm : Mode.ofCode mode = some m)
    (hc : Changeable s) (hne : m ≠ s.dev.devmode.mode) (ht : TandemAllows s m)
    (hrelay : s.dev.devmode.mode = .relay → s.dev.standing (fun _ => true) ≤ 65536)
    (hgroup : ¬(s.dev.devmode.mode.group = true ∧ m.group = true)) :
    ∃ p, exec (.deviceSetMode r mode live) s = .next { s with
      dev := answered s.clk w (rAcc [(8, drainBoundary s.clk.atc)])
        (noted (Dev.acceptDrained s.clk m w.tag false { s.dev with power := p })) } := by
  obtain ⟨p, hp⟩ := Dev.wakeEvents_eq s.clk 4 0 (ones 32 0xBFFFFFFF) s.dev
  have hload : ¬(s.dev.devmode.mode = .relay ∧ 65536 < s.dev.standing fun _ => true) := by
    rintro ⟨h, hs⟩; have := hrelay h; omega
  refine ⟨if s.dev.devmode.mode = .dormant then p else s.dev.power, ?_⟩
  refine onDev_serve_journalled hw journalled_setMode (.inr rfl) hfit (Dev.acceptDrained_host ..) ?_
  simp only [hm, hc.not_busy]
  by_cases hd : s.dev.devmode.mode = .dormant
  · have hawake : m ≠ .dormant := hd ▸ hne
    simp [hawake, ht.captain, ht.not_ungrouped, hd, Mode.group, hp]
  · simp [hne, ht.captain, ht.not_ungrouped, hload, hgroup, hd]

/-! ### DEVICE_GET_MODE and DEVICE_GET_CAPACITY -/

/-- DEVICE_GET_CAPACITY answers PF0 with the figures of the whole device (R17). -/
theorem exec_deviceGetCapacity_pf0 (hw : Waits s r 0x0103 w) (hfit : Fits w 8) (h0 : w.func = 0) :
    exec (.deviceGetCapacity r) s = .next { s with
      dev := answered s.clk w (rOk [(4, s.dev.inForce fun _ => true), (2, s.dev.fe.streams.length),
        (2, s.dev.air.carriers.length)]) s.dev } := by
  have hsees : ∀ owner, Ctx.sees ⟨w.page, w.func, w.tag, w.rung, s.clk⟩ owner = true := fun owner =>
    Ctx.sees_of_sees (.inl h0)
  have hall : ∀ {α : Type} (l : List α), l.filter (fun _ => true) = l := fun l => List.filter_eq_self.2 fun _ _ => rfl
  refine onDev_serve_noFx hw (by decide) hfit ?_
  simp only [hsees, hall]

end

/-- Settles O1: an accepted request is pending with its boundary, and what it leaves on the host link is its answer. -/
theorem modeRequests : Obligations.ModeRequests := by
  unfold Obligations.ModeRequests
  refine ⟨?drained, ?live, ?present, ?getMode, ?capacity⟩
  case drained =>
    intro s r w m mode live hw hfit hm hidle hback htaken hne hcap hgroup hrelay hlive
    obtain ⟨p, hexec⟩ := exec_deviceSetMode_drained (live := live) hw hfit hm ⟨hidle, hback, htaken⟩ hne
      ⟨hcap, hgroup⟩ hrelay hlive
    refine ⟨_, hexec, answered_host_congr s.clk w _ (Dev.acceptDrained_host ..), ?_, ?_⟩ <;>
      simp [Dev.acceptDrained_devmode, drainBoundary, frameTc]
  case live =>
    intro s r w m mode live hw hfit hm hidle hback htaken hne hcap hgroup hold hnew hframe hlate hready
    refine ⟨_, exec_deviceSetMode_live hw hfit hm ⟨hidle, hback, htaken⟩ hne ⟨hcap, hgroup⟩ hold hnew hframe hlate hready,
      answered_host_congr s.clk w _ (Dev.acceptLive_host ..), ?_⟩
    simp [Dev.acceptLive_devmode]
  case present =>
    intro s r w mode live hw hfit hm hidle hback htaken
    exact exec_deviceSetMode_present hw hfit hm ⟨hidle, hback, htaken⟩
  case getMode =>
    intro s r w hw hfit
    exact onDev_serve_noFx hw (by decide) hfit rfl
  case capacity =>
    intro s r w hw hfit hsees
    exact exec_deviceGetCapacity_pf0 hw hfit (hsees.elim id id)

end Sys2Proof.Machine
end

section
/-! Statement O2: a pending mode change takes effect at its boundary (R23, R24, R26, R28, R548). -/
namespace Sys2Proof.Machine

/-! ### Members that join and leave at a live boundary (R549) -/

/-- A change of the captain's member list leaves the modes and the heartbeat of another captain as they are. -/
structure MembersOnly (d e : Dev) : Prop where
  devmode : e.devmode = d.devmode
  beatAt : e.tnd.beatAt = d.tnd.beatAt

theorem MembersOnly.trans {a b d : Dev} (h : MembersOnly a b) (k : MembersOnly b d) : MembersOnly a d :=
  ⟨k.devmode.trans h.devmode, k.beatAt.trans h.beatAt⟩

theorem MembersOnly.captainHeard {d e : Dev} (h : MembersOnly d e) (c : Clock) : e.captainHeard c = d.captainHeard c := by
  unfold Dev.captainHeard; rw [h.beatAt]

theorem MembersOnly.foldl {β : Type} {f : Dev → β → Dev} (h : ∀ d b, MembersOnly d (f d b)) (l : List β) (d : Dev) :
    MembersOnly d (l.foldl f d) :=
  ⟨foldl_keeps Dev.devmode (fun d b => (h d b).devmode) l d, foldl_keeps (fun d => d.tnd.beatAt) (fun d b => (h d b).beatAt) l d⟩

theorem MembersOnly.ite {p : Prop} [Decidable p] {d e : Dev} (h : MembersOnly d e) : MembersOnly d (if p then d else e) := by
  split
  · exact ⟨rfl, rfl⟩
  · exact h

section
variable {s : State} {q : PendMode}

/-- At the boundary of a live change, after the member list has moved, the target mode comes into force (R23). -/
theorem exec_modeLiveBoundary_inMode (hp : s.dev.devmode.pend = some q) (hl : q.live = true) (hb : q.boundary ≤ s.clk.atc)
    (hc : ¬(q.target = .captain ∧ s.dev.captainHeard s.clk = true)) :
    ∃ t, exec .modeLiveBoundary s = .next t ∧ InMode s.clk q.target t.dev := by
  have change : ∀ d, MembersOnly s.dev d → InMode s.clk q.target (match d.devmode.pend with
      | some p => if p.live && p.boundary ≤ s.clk.atc then d.changeTo s.clk p.target p.tag else d
      | none => d) := by
    intro d hd
    rw [hd.devmode, hp]
    simp only [hl, hb, decide_true, Bool.and_self, if_true]
    exact Dev.changeTo_inMode q.tag (hd.captainHeard s.clk ▸ hc)
  have members : ∀ (m : Nat) (v : List (Nat × Nat × Nat)) (d : Dev),
      MembersOnly d ((d.updTnd fun t => { t with members := m }).evt0 s.clk 0x0C86 0 v) := fun m v d =>
    ⟨by simp, by simp⟩
  refine ⟨_, rfl, change _ ?_⟩
  refine .trans (.trans (.ite (.foldl ?joining _ _)) (.ite (.foldl ?leaving _ _))) ⟨rfl, rfl⟩
  case joining => exact fun d j => .ite (members _ _ d)
  case leaving => exact fun d j => .ite (members _ _ d)

/-- The units that the new mode does not use, as the drain boundary leaves them: each begins to end as by DRAIN (R26). -/
def Dev.drainUnused (c : Clock) (q : PendMode) (d : Dev) : Dev := d.disableUnits c false q.tag (d.unused q.target)

/-- What the drain boundary of change `q` leaves of the block `d` (R24, R26). -/
structure DrainedAt (c : Clock) (q : PendMode) (d e : Dev) : Prop where
  pend : e.devmode.pend = some { q with drained := true }
  carriers : ∀ k ∈ e.air.carriers, k.2.stopped = true
  engines : e.eng.engines = (d.drainUnused c q).eng.engines
  pel : e.pel = (d.drainUnused c q).pel
  spk : e.spk = (d.drainUnused c q).spk
  cop : e.cop = (d.drainUnused c q).cop

/-- At the drain boundary the units that the new mode does not use begin to end, every carrier stops, and the change is marked
drained; what the engines are noted with does not reach their own records. -/
theorem exec_modeDrainBoundary_drained (hp : s.dev.devmode.pend = some q) (hl : q.live = false) (hd : q.drained = false)
    (hb : q.boundary ≤ s.clk.atc) :
    ∃ t, exec .modeDrainBoundary s = .next t ∧ DrainedAt s.clk q s.dev t.dev := by
  have hdue : ¬ s.clk.atc < q.boundary := by omega
  refine ⟨_, rfl, ?_⟩
  simp only [hp, hl, hd, hdue, decide_false, Bool.or_self, Bool.false_eq_true, if_false]
  refine ⟨?pend, ?carriers, ?engines, ?pel, ?spk, ?cop⟩
  case pend => simp [hl]
  case carriers =>
    intro k hk
    obtain ⟨e, -, rfl⟩ := List.mem_map.1 hk
    rfl
  all_goals split <;> rfl

/-- 25 ms after the boundary, every unused unit that still has work is ended as by ABORT (R26). -/
theorem exec_modeDrainAbort_aborted (hp : s.dev.devmode.pend = some q) (hd : q.drained = true) (ha : q.aborted = false)
    (hb : q.boundary + 49152000 ≤ s.clk.atc) :
    exec .modeDrainAbort s = .next { s with
      dev := (((s.dev.unitsOff q.target).filter s.dev.unitPending).foldl (Dev.abortUnit s.clk q.tag) s.dev).updDevmode
        fun y => { y with pend := some { q with aborted := true } } } := by
  have hdue : ¬ s.clk.atc < q.boundary + 49152000 := by omega
  show execModeDrainAbort s = _
  unfold execModeDrainAbort
  simp only [onDev_eq, hp]
  rw [if_neg (by simp [hd, ha, hdue])]

/-- A drained change to a mode other than STOKER comes into force in DORMANT and LINETEST, once the unused units rest, or 30 ms
after the boundary (R26, R28). -/
theorem exec_modeDone_inMode (hp : s.dev.devmode.pend = some q) (hl : q.live = false) (hd : q.drained = true)
    (ht : q.target ≠ .stoker) (hc : ¬(q.target = .captain ∧ s.dev.captainHeard s.clk = true))
    (hdue : s.dev.devmode.mode = .dormant ∨ s.dev.devmode.mode = .linetest ∨ s.dev.drainedAll q.target = true ∨
      q.boundary + 58982400 ≤ s.clk.atc) :
    ∃ t, exec .modeDone s = .next t ∧ InMode s.clk q.target t.dev := by
  have hdue' : (decide (q.boundary + 58982400 ≤ s.clk.atc) || (decide (s.dev.devmode.mode = .dormant) ||
      decide (s.dev.devmode.mode = .linetest)) || s.dev.drainedAll q.target) = true := by
    simp only [Bool.or_eq_true, decide_eq_true_eq]
    obtain hdormant | hline | hrest | hlate := hdue
    · exact .inl (.inr (.inl hdormant))
    · exact .inl (.inr (.inr hline))
    · exact .inr hrest
    · exact .inl (.inl hlate)
  refine ⟨_, rfl, ?_⟩
  simp only [hp, hl, hd, ht, hdue', Bool.not_true, Bool.or_self, Bool.false_eq_true, if_false, if_true]
  exact Dev.changeTo_inMode q.tag hc

/-- STOKER is entered at a 1 ms boundary at which its condition holds (R548). -/
theorem exec_stokerEntry_inMode (hp : s.dev.devmode.pend = some q) (hl : q.live = false) (hd : q.drained = true)
    (ht : q.target = .stoker) (hms : s.clk.atc % 1966080 = 0) (hr : s.dev.stokerReady s.clk = true) :
    ∃ t, exec .stokerEntry s = .next t ∧ InMode s.clk .stoker t.dev := by
  refine ⟨_, rfl, ?_⟩
  simp only [hp, hl, hd, ht, hms, hr, bne_self_eq_false, Bool.not_true, Bool.or_self, Bool.false_eq_true, if_false]
  exact Dev.enterMode_inMode s.clk .stoker 0 q.tag s.dev

end

/-- Settles O2: each boundary has its lemma above; a mode in force is `InMode`. -/
theorem modeBoundaries : Obligations.ModeBoundaries := by
  unfold Obligations.ModeBoundaries
  refine ⟨?live, ?drain, ?abort, ?done, ?stoker⟩
  case live =>
    intro s q hp hl hb hc
    obtain ⟨t, hexec, hmode, hsince, hidle⟩ := exec_modeLiveBoundary_inMode hp hl hb hc
    exact ⟨t, hexec, hmode, hsince, hidle⟩
  case drain =>
    intro s q hp hl hd hb
    obtain ⟨t, hexec, hpend, hcarriers, hengines, hpel, hspk, hcop⟩ := exec_modeDrainBoundary_drained hp hl hd hb
    exact ⟨t, hexec, hpend, hcarriers, hengines, hpel, hspk, hcop⟩
  case abort =>
    intro s q hp hd ha hb
    exact exec_modeDrainAbort_aborted hp hd ha hb
  case done =>
    intro s q hp hl hd ht hc hdue
    obtain ⟨t, hexec, hmode, hsince, hidle⟩ := exec_modeDone_inMode hp hl hd ht hc hdue
    exact ⟨t, hexec, hmode, hsince, hidle⟩
  case stoker =>
    intro s q hp hl hd ht hms hr
    obtain ⟨t, hexec, hmode, hsince, hidle⟩ := exec_stokerEntry_inMode hp hl hd ht hms hr
    exact ⟨t, hexec, hmode, hsince, hidle⟩

end Sys2Proof.Machine
end

section
/-! Statement O3: LOOKASIDE bindings and messages (R29-R31), and CONFORMANCE sources, captures and plans (R33-R36). -/
namespace Sys2Proof.Machine

theorem exec_deviceLookBind {s : State} {r : Req} {w : Waiting} {stream dir chan domain : Nat} {y : Stream}
    (hw : Waits s r 0x010A w) (hy : s.dev.stream stream = some y) (hsees : Sees w.func y.owner) (hdir : dir ≤ 1)
    (hdomain : domain ≤ 1) (hchan : chan ≠ 0xFFFF) (hmover : moverOf chan = 24) (howner : s.dev.chanFunc chan = y.owner)
    (hway : (s.dev.chan chan).dir = 1 - dir) (hfree : (s.dev.look stream dir).chan = 0xFFFF) :
    exec (.deviceLookBind r stream dir chan domain) s = .next { s with
      dev := answered s.clk w rOk (noted (s.dev.updLook stream dir fun _ => { chan := chan, domain := domain })) } := by
  refine onDev_serve_journalled hw (by decide) (.inl rfl) (fits_zero w) rfl ?_
  simp [hy, Ctx.sees_of_sees, hsees, Nat.not_lt.2 hdir, Nat.not_lt.2 hdomain, hchan, hmover, howner, hway, hfree]

theorem exec_deviceLookStatus {s : State} {r : Req} {w : Waiting} {stream dir : Nat} {y : Stream} (hw : Waits s r 0x010B w)
    (hfit : Fits w 26) (hy : s.dev.stream stream = some y) (hsees : Sees w.func y.owner) (hdir : dir ≤ 1) :
    exec (.deviceLookStatus r stream dir) s = .next { s with
      dev := answered s.clk w (rOk [(2, (s.dev.look stream dir).chan), (8, (s.dev.look stream dir).messages),
        (4, (s.dev.look stream dir).noBuf), (4, (s.dev.look stream dir).badId), (4, (s.dev.look stream dir).badLen),
        (4, (s.dev.look stream dir).fmtMismatch)]) s.dev } := by
  refine onDev_serve_noFx hw (by decide) hfit ?_
  simp [Dev.seesStream, hy, Ctx.sees_of_sees, hsees, Nat.not_lt.2 hdir]

theorem exec_deviceConfSet_model {s : State} {r : Req} {w : Waiting} {carrier model pci vslot start : Nat} {k : Carrier}
    (hw : Waits s r 0x010C w) (hk : s.dev.carrier carrier = some k) (hstd : k.std < 3) (hmodel : modelOk k model = true)
    (hframe : start % 19660800 = 0) (hplans : s.dev.hasPlans carrier = false) (hlate : w.rung + 39321600 ≤ start) :
    exec (.deviceConfSet r carrier 1 model pci vslot start) s = .next { s with
      dev := answered s.clk w rOk (noted (s.dev.updDevmode fun m => { m with
        conf := tset {} m.conf carrier { source := 1, model := model, pci := pci, vslot := vslot, start := start } })) } := by
  refine onDev_serve_journalled hw (by decide) (.inl rfl) (fits_zero w) rfl ?_
  simp [hk, Nat.not_le.2 hstd, hmodel, frameTc, hframe, hplans, Nat.not_lt.2 hlate]

theorem exec_deviceConfVectorLoad {s : State} {r : Req} {w : Waiting} {vslot tracks frames rate : Nat} {samples : List Byte}
    (hw : Waits s r 0x010D w) (hfit : Fits w 4) (hslot : vslot < 16) (htracks : 1 ≤ tracks ∧ tracks ≤ 16)
    (hframes : 1 ≤ frames ∧ frames ≤ 64) (hrate : rate ≠ 0) (hvec : s.dev.devmode.vec = [])
    (hroom : tracks * frames * rate * 10 * 4 ≤ 2 ^ 32) (hlen : samples.length = tracks * frames * rate * 10 * 4)
    (hconf : s.dev.devmode.conf = []) :
    exec (.deviceConfVectorLoad r vslot tracks frames rate samples) s = .next { s with
      dev := answered s.clk w (rOk [(4, tracks * frames * rate * 10 * 4)]) (noted (s.dev.updDevmode fun m => { m with
        vec := tset {} m.vec vslot { tracks := tracks, frames := frames, rate := rate
                                     bytes := tracks * frames * rate * 10 * 4, data := samples } })) } := by
  refine onDev_serve_journalled hw (by decide) (.inl rfl) hfit rfl ?_
  have ht : ¬(tracks = 0 ∨ 16 < tracks) := by omega
  have hf : ¬(frames = 0 ∨ 64 < frames) := by omega
  have hr : ¬ 4294967296 < tracks * frames * rate * 10 * 4 := by omega
  simp [Nat.not_le.2 hslot, ht, hf, hrate, hr, hvec, hlen, hconf]

theorem exec_deviceConfCapture {s : State} {r : Req} {w : Waiting} {stream start frames : Nat} {y : Stream}
    (hw : Waits s r 0x010E w) (hfit : Fits w 12) (hy : s.dev.stream stream = some y) (hstart : start % 19660800 = 0)
    (hframes : 1 ≤ frames ∧ frames ≤ 16) (hmode : s.dev.devmode.mode = .conformance) (hlate : w.rung + 3932160 ≤ start) :
    exec (.deviceConfCapture r stream start frames) s = .next { s with
      dev := answered s.clk w (rAcc [(8, captureBase), (4, frames * y.fin * 10 * 4)]) (noted (s.dev.updDevmode fun m =>
        { m with capture := some { stream := stream, start := start, frames := frames, tag := w.tag } })) } := by
  refine onDev_serve_journalled hw (by decide) (.inr rfl) hfit rfl ?_
  have hf : ¬(frames = 0 ∨ 16 < frames) := by omega
  simp [hy, frameTc, hstart, hf, hmode, Nat.not_lt.2 hlate]

/-! ### Transmit symbols of LOOKASIDE (R30) -/

/-- LOOKASIDE runs with a transmit binding of stream `y`, and `q` is the next whole symbol (R29, R30). -/
structure LookSends (d : Dev) (stream : Nat) (y : Stream) (q : TxSym) (qs : List TxSym) : Prop where
  found : d.stream stream = some y
  next : (d.chain stream 0).syms = q :: qs
  mode : d.devmode.mode = .lookaside
  bound : (d.look stream 0).chan ≠ 0xFFFF

/-- The block once the next whole symbol has left stream `stream`. -/
def Dev.symTaken (d : Dev) (stream : Nat) (qs : List TxSym) : Dev := d.updChain stream 0 fun k => { k with syms := qs }

@[simp] theorem Dev.symTaken_carrierOf (d : Dev) (stream : Nat) (qs : List TxSym) (y : Stream) :
    (d.symTaken stream qs).carrierOf y = d.carrierOf y := rfl

@[simp] theorem Dev.symTaken_slotRuns (d : Dev) (stream : Nat) (qs : List TxSym) (car : Nat) (k : Carrier) (frame slot : Nat) :
    (d.symTaken stream qs).slotRuns car k frame slot = d.slotRuns car k frame slot := rfl

/-- The messages of symbol `q` for the binding's stream, and the block that has formed them (R30, R433). -/
def Dev.lookMessages (d : Dev) (stream : Nat) (y : Stream) (q : TxSym) (qs : List TxSym) : List (List Byte × Nat) × Dev :=
  (d.symTaken stream qs).symbolMessages 512 stream y
    { stream := stream, tx := true, rx := false, domain := (d.look stream 0).domain, pcid := stream } (q.samples.length + 65536) q

/-- The symbol lost for want of a descriptor is counted in LOOK_NOBUF (R30). -/
def Dev.lookLost (d : Dev) (stream : Nat) : Dev := d.updLook stream 0 fun b => { b with noBuf := satAdd 32 b.noBuf 1 }

section
variable {s : State} {stream : Nat} {y : Stream} {k : Carrier} {q : TxSym} {qs : List TxSym}

/-- A symbol of a stream without a carrier is dropped. -/
theorem exec_lookTxMessage_noCarrier (h : LookSends s.dev stream y q qs) (hk : s.dev.carrierOf y = none) :
    exec (.lookTxMessage stream) s = .next { s with dev := s.dev.symTaken stream qs } := by
  obtain ⟨hy, hsyms, hmode, hbound⟩ := h
  show execLookTxMessage stream s = _
  unfold execLookTxMessage
  simp [onDev_eq, ← Dev.symTaken.eq_def, hy, hsyms, hmode, hbound, hk]

/-- A symbol of a slot that runs, whose channel is not ready, is lost. -/
theorem exec_lookTxMessage_notReady {ms : List (List Byte × Nat)} {d : Dev} (h : LookSends s.dev stream y q qs)
    (hk : s.dev.carrierOf y = some k) (hrun : s.dev.slotRuns y.carrier k q.frame q.slot = true)
    (hd : s.dev.lookMessages stream y q qs = (ms, d)) (hready : d.chanReady (s.dev.look stream 0).chan = false) :
    exec (.lookTxMessage stream) s = .next { s with dev := d.lookLost stream } := by
  obtain ⟨hy, hsyms, hmode, hbound⟩ := h
  show execLookTxMessage stream s = _
  unfold execLookTxMessage
  simp [onDev_eq, ← Dev.symTaken.eq_def, ← Dev.lookMessages.eq_def, ← Dev.lookLost.eq_def, hy, hsyms, hmode, hbound, hk, hrun,
    hd, hready]

/-- A symbol of a slot that runs is written to the owned descriptor at the head of its channel, where it has room. -/
theorem exec_lookTxMessage_written {ms : List (List Byte × Nat)} {d : Dev} {n : Nat} {x : Desc} {bs : List Byte}
    (h : LookSends s.dev stream y q qs) (hk : s.dev.carrierOf y = some k)
    (hrun : s.dev.slotRuns y.carrier k q.frame q.slot = true) (hd : s.dev.lookMessages stream y q qs = (ms, d))
    (hn : (s.dev.look stream 0).chan = n) (hready : d.chanReady n = true) (hverdict : (d.chan n).verdict = none)
    (hx : ((d.lookLost stream).headDesc s.clk n).1 = .inr x) (hown : x.own = true)
    (hbs : (ms.flatMap fun m => ecpri 0 m.1) = bs) (hroom : bs.length ≤ x.len) :
    exec (.lookTxMessage stream) s = .next { s with
      dev := (((d.headDesc s.clk n).2.chanStore n x.dst bs).updLook stream 0
        fun b => { b with messages := (b.messages + 1) % 2 ^ 64 }).endDesc s.clk n x (d.headWord n) 0 0 0 x.arrive.toNat
          bs.length } := by
  obtain ⟨hy, hsyms, hmode, hbound⟩ := h
  rw [hn] at hbound
  show execLookTxMessage stream s = _
  unfold execLookTxMessage
  simp [-List.length_flatMap, onDev_eq, ← Dev.symTaken.eq_def, ← Dev.lookMessages.eq_def, ← Dev.lookLost.eq_def, hy, hsyms, hmode,
    hn, hbound, hk, hrun, hd, hready, hverdict, hx, hown, hbs, Nat.not_lt.2 hroom]

end

/-! ### Messages received in LOOKASIDE (R31) -/

/-- Descriptor `x` at the head of channel `chan` may be taken: LOOKASIDE runs, the channel is ready and the host has handed the
descriptor over (R31, R355). -/
structure LookTakes (s : State) (chan : Nat) (x : Desc) : Prop where
  head : (s.dev.headDesc s.clk chan).1 = .inr x
  mode : s.dev.devmode.mode = .lookaside
  ready : s.dev.chanReady chan = true
  sound : (s.dev.chan chan).verdict = none
  own : x.own = true

/-- `m` is a message of R30's form: an eCPRI header of type 0 whose size is that of its body, and a body that names a stream and
is as long as its samples need. -/
structure LookMessage (m body : List Byte) : Prop where
  header : m.take 2 = [0x10, 0]
  split : m = m.take 4 ++ body
  size : fieldBe m 2 2 = body.length
  room : 12 ≤ body.length
  stream : (Msg.of body).pcid < 2048
  samples : (Msg.of body).lengthOk
    (decompress (Msg.of body).mode (Msg.of body).m (Msg.of body).nsamp (Msg.of body).blocks) = true

/-- The bytes after the header are the body. -/
theorem LookMessage.body_eq {m body : List Byte} (h : LookMessage m body) : (m.drop 4).take body.length = body := by
  have hdrop : m.drop 4 = body := List.append_cancel_left ((List.take_append_drop 4 m).trans h.split)
  rw [hdrop, List.take_length]

theorem LookMessage.length_eq {m body : List Byte} (h : LookMessage m body) : m.length = body.length + 4 := by
  have hlen := congrArg List.length h.split
  have hroom := h.room
  rw [List.length_append, List.length_take] at hlen
  omega

section
variable {s : State} {chan : Nat} {e : Nat × LookBind} {x : Desc} {m body : List Byte}

/-- The block once a message has been fetched from the descriptor at the head of a channel. -/
def Dev.messageFetched (c : Clock) (d : Dev) (chan : Nat) (x : Desc) : Dev := ((d.headDesc c chan).2.chanFetch chan x.src x.len).2

theorem Dev.messageFetched_devmode (c : Clock) (d : Dev) (chan : Nat) (x : Desc) :
    (d.messageFetched c chan x).devmode = d.devmode := (d.headDesc_keeps c chan).1

/-- A message of the one stream bound to the channel is counted, used, and its descriptor ends. -/
theorem exec_lookRxMessage_used (hlook : s.dev.devmode.look = [e]) (hchan : e.2.chan = chan)
    (he : e.1 = 2 * (Msg.of body).pcid + 1) (htakes : LookTakes s chan x) (hm : m = readBytes s.dev.host.mem x.src x.len)
    (hmsg : LookMessage m body) :
    exec (.lookRxMessage chan) s = .next { s with
      dev := (((s.dev.messageFetched s.clk chan x).updLook (Msg.of body).pcid 1
        fun q => { q with messages := (q.messages + 1) % 2 ^ 64 }).useMessage s.clk (512 + (Msg.of body).pcid) (Msg.of body)
          (decompress (Msg.of body).mode (Msg.of body).m (Msg.of body).nsamp (Msg.of body).blocks) (Msg.of body).pcid).endDesc
            s.clk chan x (s.dev.headWord chan) 0 0 0 x.arrive.toNat x.len } := by
  obtain ⟨hhead, hmode, hready, hverdict, hown⟩ := htakes
  have hfetched : ((s.dev.headDesc s.clk chan).2.chanFetch chan x.src x.len).1 = m := by
    rw [Dev.chanFetch, (s.dev.headDesc_keeps s.clk chan).2 x hhead, hm]
  have hbound : ((s.dev.messageFetched s.clk chan x).look (Msg.of body).pcid 1).chan = chan := by
    rw [Dev.look_congr (Dev.messageFetched_devmode ..), Dev.look, hlook, ← he, ← hchan]
    simp [tget]
  show execLookRxMessage chan s = _
  unfold execLookRxMessage
  simp [onDev_eq, hlook, he, hchan, hhead, hmode, hready, hverdict, hown, hfetched, hmsg.size, hmsg.body_eq,
    ← Dev.messageFetched.eq_def, hmsg.header, hmsg.length_eq, Nat.not_lt.2 hmsg.room, Nat.not_le.2 hmsg.stream, hbound,
    hmsg.samples]

/-- The message counts for the stream it names. -/
theorem exec_lookRxMessage_counted (hlook : s.dev.devmode.look = [e]) (hchan : e.2.chan = chan)
    (he : e.1 = 2 * (Msg.of body).pcid + 1) (htakes : LookTakes s chan x) (hwake : x.wake = false)
    (hm : m = readBytes s.dev.host.mem x.src x.len) (hmsg : LookMessage m body) :
    ∃ t, exec (.lookRxMessage chan) s = .next t ∧
      (t.dev.look (Msg.of body).pcid 1).messages = (e.2.messages + 1) % 2 ^ 64 := by
  have hcount : ((s.dev.messageFetched s.clk chan x).look (Msg.of body).pcid 1) = e.2 := by
    rw [Dev.look_congr (Dev.messageFetched_devmode ..), Dev.look, hlook, ← he]
    simp [tget]
  refine ⟨_, exec_lookRxMessage_used hlook hchan he htakes hm hmsg, ?_⟩
  rw [Dev.look_congr (Dev.endDesc_devmode (h := hwake) ..), SameMessages.useMessage, Dev.look_updLook, if_pos rfl, hcount]

end

/-! ### Finished captures and plans of test models (R34, R36) -/

theorem exec_confCaptureDone_stored {s : State} {q : Capture} {y : Stream} (hq : s.dev.devmode.capture = some q)
    (hy : s.dev.stream q.stream = some y) (hstored : q.frames * y.fin * 10 * 4 ≤ q.stored) :
    exec .confCaptureDone s = .next { s with
      dev := (s.dev.updDevmode fun m => { m with capture := none }).evt0 s.clk 0x018B q.tag
        [(0, 2, q.stream), (2, 1, q.frames), (8, 8, q.first)] } := by
  show execConfCaptureDone s = _
  unfold execConfCaptureDone
  simp [onDev_eq, hq, hy, Nat.not_lt.2 hstored]

/-- A slot of a test-model carrier for which Breano forms a plan now: its source runs, it lies ahead, no mode change drains it,
and it has no plan (R34). -/
structure Formable (s : State) (carrier frame slot : Nat) (k : Carrier) : Prop where
  found : s.dev.carrier carrier = some k
  source : s.dev.sourceOf carrier = 1
  started : ((tget {} s.dev.devmode.conf carrier).start : Int) ≤ k.slotStart frame (slot : Int)
  inFrame : slot < k.slotsFrame
  ahead : (s.clk.atc : Int) ≤ k.slotStart frame ((slot : Int) - 2)
  idle : s.dev.devmode.pend = none
  unplanned : ∀ q ∈ s.dev.air.plans, ¬(q.carrier = carrier ∧ q.frame = frame ∧ q.slot = slot)

section
variable {s : State} {carrier frame slot : Nat} {k : Carrier} {threads jobs : List Nat}

theorem Formable.not_planned (h : Formable s carrier frame slot k) : s.dev.planned carrier frame slot = false := by
  simpa [Dev.planned, and_assoc] using h.unplanned

theorem Formable.not_drained (h : Formable s carrier frame slot k) (ends : Int) : s.dev.afterDrain ends = false := by
  simp [Dev.afterDrain, h.idle]

/-- The plan that Breano forms of the threads and jobs given (R34). -/
def Dev.formedPlan (c : Clock) (d : Dev) (carrier frame slot : Nat) (threads jobs : List Nat) : Plan :=
  { carrier := carrier, frame := frame, slot := slot, charges := d.planCharges c.atc 0 threads (jobs.map furtherJob)
    jobs := jobs.map furtherJob }

/-- The plan formed joins the plans where the ledger admits it; otherwise its slot is marked as refused. -/
theorem exec_confPlanForm_formable (h : Formable s carrier frame slot k) :
    exec (.confPlanForm carrier frame slot threads jobs) s = .next { s with
      dev := if s.dev.admission s.clk.atc (s.dev.planCharges s.clk.atc 0 threads (jobs.map furtherJob)) = stOK
        then s.dev.updAir fun a => { a with plans := a.plans ++ [s.dev.formedPlan s.clk carrier frame slot threads jobs] }
        else s.dev.updDevmode fun m => { m with refused := m.refused ++ [(carrier, frame, slot)] } } := by
  show execConfPlanForm carrier frame slot threads s jobs = _
  unfold execConfPlanForm
  simp [onDev_eq, h.found, h.source, Int.not_lt.2 h.started, Nat.not_le.2 h.inFrame, Int.not_lt.2 h.ahead, h.not_drained,
    h.not_planned, Dev.formedPlan]

end

/-- Settles O3: each command has its lemma above. -/
theorem lookasideAndConformance : Obligations.LookasideAndConformance := by
  unfold Obligations.LookasideAndConformance
  refine ⟨?bind, ?status, ?confSet, ?vector, ?capture, ?noCarrier, ?notReady, ?written, ?received, ?captured, ?admitted,
    ?refused⟩
  case bind =>
    intro s r w stream dir chan domain y hw hy hsees hdir hdomain hchan hmover howner hway hfree
    exact exec_deviceLookBind hw hy hsees hdir hdomain hchan hmover howner hway hfree
  case status =>
    intro s r w stream dir y hw hfit hy hsees hdir
    exact exec_deviceLookStatus hw hfit hy hsees hdir
  case confSet =>
    intro s r w carrier source model pci vslot start k hw hk hsource hstd hmodel hframe hplans hlate
    subst hsource
    exact exec_deviceConfSet_model hw hk hstd hmodel hframe hplans hlate
  case vector =>
    intro s r w vslot tracks frames rate samples hw hfit hslot htracks hframes hrate hvec hroom hlen hconf
    exact exec_deviceConfVectorLoad hw hfit hslot htracks hframes hrate hvec hroom hlen hconf
  case capture =>
    intro s r w stream start frames y hw hfit hy hstart hframes hmode hlate
    exact exec_deviceConfCapture hw hfit hy hstart hframes hmode hlate
  case noCarrier =>
    intro s stream y q qs hy hsyms hmode hbound hk
    exact exec_lookTxMessage_noCarrier ⟨hy, hsyms, hmode, hbound⟩ hk
  case notReady =>
    intro s stream y k q qs d hy hsyms hmode hbound hk hrun hd hready
    exact exec_lookTxMessage_notReady ⟨hy, hsyms, hmode, hbound⟩ hk hrun (Prod.ext rfl hd.symm) hready
  case written =>
    intro s stream y k q qs d ms x hy hsyms hmode hbound hk hrun hd hready hverdict hx hown hroom
    exact exec_lookTxMessage_written ⟨hy, hsyms, hmode, hbound⟩ hk hrun hd.symm rfl hready hverdict hx hown rfl hroom
  case received =>
    intro s chan e x m body hlook hchan he hhead hmode hready hverdict hown hwake hm hheader hsplit hsize hroom hstream hlen
    exact exec_lookRxMessage_counted hlook hchan he ⟨hhead, hmode, hready, hverdict, hown⟩ hwake hm
      ⟨hheader, hsplit, hsize, hroom, hstream, hlen⟩
  case captured =>
    intro s q y hq hy hstored
    exact exec_confCaptureDone_stored hq hy hstored
  case admitted =>
    intro s carrier frame slot threads jobs k hk hsource hstart hslot hahead hidle hplans hadmit
    rw [exec_confPlanForm_formable ⟨hk, hsource, hstart, hslot, hahead, hidle, hplans⟩, if_pos hadmit]
    rfl
  case refused =>
    intro s carrier frame slot threads jobs k hk hsource hstart hslot hahead hidle hplans hadmit
    rw [exec_confPlanForm_formable ⟨hk, hsource, hstart, hslot, hahead, hidle, hplans⟩, if_neg hadmit]

end Sys2Proof.Machine
end

section
/-! Statement O44: the block after power-on reset (R19, R495). -/
namespace Sys2Proof.Machine

/-- ATC 0 is the start of NTC second 315,964,819: time stands in the relation of R78 at reset (R495). -/
theorem reset_clock_wf : Clock.Wf State.reset.clk := by
  unfold Clock.Wf; decide

/-- Nothing is written at reset, so every byte memory is the empty table. -/
theorem reset_memWf : State.reset.MemWf := ⟨rfl, rfl, rfl, rfl, rfl⟩

/-- Settles O44: each register has its value in the reset state. -/
theorem resetIsSound : Obligations.ResetIsSound :=
  ⟨rfl, rfl, rfl, rfl, reset_clock_wf, rfl, rfl, rfl, reset_memWf⟩

end Sys2Proof.Machine
end

section
/-! Memory and the cores: a read of code words without an error changes nothing (R373), and no read or write of memory touches a
core. -/
namespace Sys2Proof.Machine

/-- A core reads back as it was set. -/
@[simp] theorem Dev.core_setCore_same (d : Dev) (n : Nat) (k : Core) : (d.setCore n k).core n = k := by
  simp [Dev.core, Dev.setCore, tget_tset]

theorem Dev.core_updCore_same (d : Dev) (n : Nat) (f : Core → Core) : (d.updCore n f).core n = f (d.core n) :=
  Dev.core_setCore_same d n _

/-- No error stands in the code words: a read marks nothing and changes nothing (R373). -/
theorem Dev.checkRead_of_noEcc {d : Dev} (h : d.mem.ecc = []) (c : Clock) (a n cls rid : Nat) :
    d.checkRead c a n cls rid = (false, d) := by
  have hword : ∀ cw, d.readWord c cw cls rid = (false, d) := fun cw => by
    unfold Dev.readWord; rw [h]; rfl
  unfold Dev.checkRead
  induction codeWords a n with
  | nil => rfl
  | cons cw l ih => rw [List.foldl_cons, hword]; exact ih

/-! ### Reads and writes leave the cores (R373, R374) -/

@[simp] theorem Dev.memStat_cores (d : Dev) (cls : Nat) (f : MemStats → MemStats) : (d.memStat cls f).cores = d.cores := rfl
@[simp] theorem Dev.trouble_cores (d : Dev) (w b : Nat) : (d.trouble w b).cores = d.cores := rfl
@[simp] theorem Dev.putCells_cores (d : Dev) (a : Nat) (bs : List Byte) : (d.putCells a bs).cores = d.cores := rfl
@[simp] theorem Dev.log_cores (c : Clock) (d : Dev) (w b code : Nat) (data : List Byte) :
    (d.log c w b code data).cores = d.cores := rfl
@[simp] theorem Dev.evt0_cores (c : Clock) (d : Dev) (code tag : Nat) (fs : List (Nat × Nat × Nat)) :
    (d.evt0 c code tag fs).cores = d.cores := (HostOnly.evt c d 0 0 code tag fs).cores

@[simp] theorem Dev.queueTest_cores (d : Dev) (a : Nat) : (d.queueTest a).cores = d.cores := by
  unfold Dev.queueTest; simp [apply_ite Dev.cores]

@[simp] theorem Dev.noteUe_cores (c : Clock) (d : Dev) (cls a : Nat) : (d.noteUe c cls a).cores = d.cores := by
  unfold Dev.noteUe; split <;> simp

@[simp] theorem Dev.readWord_cores (c : Clock) (d : Dev) (cw cls rid : Nat) :
    (d.readWord c cw cls rid).2.cores = d.cores := by
  unfold Dev.readWord
  dsimp only
  split
  · rfl
  · simp [apply_ite Dev.cores]
  · simp [apply_ite Dev.cores]

@[simp] theorem Dev.writeWord_cores (d : Dev) (cw a : Nat) (bs : List Byte) : (d.writeWord cw a bs).2.cores = d.cores := by
  unfold Dev.writeWord
  dsimp only
  split
  · simp
  · split <;> simp [apply_ite Dev.cores]

@[simp] theorem Dev.checkRead_cores (c : Clock) (d : Dev) (a n cls rid : Nat) :
    (d.checkRead c a n cls rid).2.cores = d.cores := by
  refine foldl_keeps (fun o : Bool × Dev => o.2.cores) (fun o cw => ?_) (codeWords a n) (false, d)
  exact Dev.readWord_cores c o.2 cw cls rid

@[simp] theorem Dev.memWrite_cores (d : Dev) (a : Nat) (bs : List Byte) : (d.memWrite a bs).2.cores = d.cores := by
  refine foldl_keeps (fun o : Bool × Dev => o.2.cores) (fun o cw => ?_) (codeWords a bs.length) (false, d)
  exact Dev.writeWord_cores o.2 cw a bs

end Sys2Proof.Machine
end

section
/-! What a core at rest finds when it issues the bundle of one syllable in slot V (R112-R126). -/
namespace Sys2Proof.Machine

/-! ### The bundle of one syllable in slot V (R112, R114) -/

/-- The bundle of one syllable, in slot V. -/
def onlyV (g : Guard) (y : Syl) : Bundle := { x := ({}, .nop), l0 := ({}, .nop), l1 := ({}, .nop), v := (g, y) }

/-- A word of zeros is NOP without a guard in every slot (R114). -/
theorem bundleOf_alone {b : BCtx} (h : Alone b) (g : Guard) (y : Syl) : bundleOf b .v g y = onlyV g y := by
  obtain ⟨h0, h1, hx, -, -⟩ := h
  unfold bundleOf
  rw [h0, h1, hx]
  rfl

@[simp] theorem Core.guard_default (k : Core) : k.guard {} = true := rfl

/-! ### A core at rest issues a bundle (R112-R126) -/

section
variable {s : State} {b : BCtx} {k : Core}

/-- Without writes in flight and without a beat to run, a bundle finds the core as it stands. -/
theorem Core.tick_of_rest (hfly : k.fly = []) (hvop : k.vop = none) (id : Nat) (c : Clock) : k.tick id c = k := by
  have hland : k.land id c = k := by
    unfold Core.land
    simp only [hfly, List.filter_nil, byAge, sortBy, List.foldr_nil, List.foldl_nil]
    rw [← hfly]
  unfold Core.tick Core.beat
  rw [hland, hvop]

/-- No wait for a coprocessor stands to be counted, and no iteration to be ended. -/
theorem Rests.beforeIssue (h : Rests s b k) : s.dev.beforeIssue b.core = (k, s.dev) := by
  obtain ⟨hcore, -, hstalled, hend, -, -, hwait, -⟩ := h
  have hsettled : k.settled = k := by unfold Core.settled; rw [hend]; rfl
  have hk : ({ k with stalled := none, copWait := false } : Core) = k := by rw [← hstalled, ← hwait]
  unfold Dev.beforeIssue
  simp only [hcore, hwait, hsettled, hk, Bool.false_eq_true, if_false]

theorem Rests.fly (h : Rests s b k) : k.fly = [] := by
  obtain ⟨-, -, -, -, -, -, -, hfly, -⟩ := h
  exact hfly

/-- The core may issue, and no interrupt comes first. -/
theorem Rests.canRun (h : Rests s b k) : s.dev.canRun b.core = true ∧ s.dev.intDue b.core = none := by
  obtain ⟨-, hissue, -⟩ := h
  simpa [Dev.canIssue, Option.isNone_iff_eq_none] using hissue

theorem Rests.not_waiting (h : Rests s b k) : k.waiting = false := by
  have ⟨hcore, _⟩ := h
  have ⟨hrun, _⟩ := h.canRun
  simp only [Dev.canRun, hcore, Bool.and_eq_true, Bool.not_eq_true'] at hrun
  obtain ⟨⟨⟨⟨⟨-, hwaiting⟩, -⟩, -⟩, -⟩, -⟩ := hrun
  exact hwaiting

/-- The bundle is there to fetch, and no code word of it is in error. -/
theorem Rests.fetch (h : Rests s b k) : s.dev.fetch s.clk b.core k = (none, s.dev) := by
  obtain ⟨-, -, -, -, -, hds, -, -, -, -, hpc, hecc⟩ := h
  unfold Dev.fetch
  rw [if_neg (by simp [Core.annulled, hds]), if_neg (by omega), Dev.checkRead_of_noEcc hecc]
  rfl

theorem clash_nil_left (l : List Reg) : clash [] l = false := rfl

/-- One legal syllable in slot V with the privilege it needs is a bundle without a decode exception (R114, R115). -/
theorem Core.decodeExc_alone (hds : k.ds = none) (hrep : k.rep.cnt = 0) {g : Guard} {y : Syl} (hlegal : k.legal y = true)
    (hpriv : k.privFault y = false) : k.decodeExc (onlyV g y) false false = none := by
  have hnop : k.legal .nop = true ∧ k.privFault .nop = false ∧ k.writes .nop = [] := ⟨rfl, rfl, rfl⟩
  obtain ⟨hl, hp, hw⟩ := hnop
  simp [Core.decodeExc, onlyV, hds, hrep, hlegal, hpriv, hl, hp, hw, clash_nil_left, isVmem]

/-- The other slots do nothing: the bundle does what its syllable does. -/
theorem slots_alone {g : Guard} (hg : k.guard g = true) (c : Clock) (id : Nat) (y : Syl) (ans : Option Peer) (d : Dev) :
    slots c id k (onlyV g y) ans { d := d, k := k } = execV c id k { d := d, k := k } y := by
  simp [slots, onlyV, hg, execX, execL, Acc.go]

end

end Sys2Proof.Machine
end

section
/-! Statement O14: the coprocessor syllables (R188-R192, R194, R198), and how a unit starts and finishes a command (R185, R186,
R195). -/
namespace Sys2Proof.Machine

/-! ### A coprocessor syllable issues (R188, R198) -/

section
variable {s : State} {b : BCtx} {k : Core}

section
variable {y : Syl} (hcop : isCop y = true)
include hcop

theorem isVec_of_isCop : isVec y = false := by cases y <;> cases hcop <;> rfl

theorem Core.privFault_of_isCop : k.privFault y = false := by cases y <;> cases hcop <;> rfl

theorem execV_of_isCop (c : Clock) (id : Nat) (x : Acc) : execV c id k x y = execCop c id k x y := by
  cases y <;> cases hcop <;> rfl

end

/-- No vector operation begins with a coprocessor syllable. -/
theorem startVec_of_isCop {y : Syl} (hcop : isCop y = true) (g : Guard) (x : Acc) : startVec k (onlyV g y) x = x := by
  unfold startVec onlyV
  dsimp only
  split
  · rfl
  · rw [if_neg (by simp [isVec_of_isCop hcop])]

/-- Outside a delay sequence and a REP a core whose queues and writes in flight alone have changed goes on at the next bundle. -/
theorem Core.advance_of_rest {k' : Core} (hds : k.ds = none) (hrep : k.rep.cnt = 0) (hstalled : k.stalled = none)
    (hk' : k' = { k with sfu := k'.sfu, mxu := k'.mxu, fly := k'.fly }) : k.advance k' none = k'.went := by
  rw [hk']
  unfold Core.advance Core.went
  simp [hds, hrep, hstalled]

/-- A coprocessor syllable that a core at rest issues alone, and that raises nothing and stalls on nothing, commits. -/
theorem Rests.tryBundle_cop {g : Guard} {y : Syl} {k' : Core} (h : Rests s b k) (hg : k.guard g = true)
    (hcop : isCop y = true) (hlegal : k.legal y = true)
    (hy : execCop s.clk b.core k { d := s.dev, k := k } y = { d := s.dev, k := k' })
    (hk' : k' = { k with sfu := k'.sfu, mxu := k'.mxu, fly := k'.fly }) :
    s.dev.tryBundle s.clk b.core (onlyV g y) none = .done (s.dev.setCore b.core k'.went) := by
  have hbefore := h.beforeIssue
  have hfetch := h.fetch
  have hrun : k'.went.waiting = false := by rw [hk']; exact h.not_waiting
  obtain ⟨-, -, hstalled, -, hrep, hds, -, hfly, hvop, -⟩ := h
  have hann : k.annulled = false := by rw [Core.annulled, hds]; rfl
  unfold Dev.tryBundle
  simp only [hbefore, Core.tick_of_rest hfly hvop, hfetch, hvop, hann, Option.isSome_none, Bool.false_eq_true, if_false,
    Core.decodeExc_alone hds hrep hlegal (Core.privFault_of_isCop hcop), slots_alone hg, execV_of_isCop hcop, hy,
    startVec_of_isCop hcop, Core.advance_of_rest hds hrep hstalled hk', hrun]
  rfl

/-- The meaning of such a syllable: the core has gone on, with what the syllable has done to its queues. -/
theorem Rests.issue_cop {g : Guard} {y : Syl} {k' : Core} (h : Rests s b k) (ha : Alone b) (hg : k.guard g = true)
    (hcop : isCop y = true) (hlegal : k.legal y = true)
    (hy : execCop s.clk b.core k { d := s.dev, k := k } y = { d := s.dev, k := k' })
    (hk' : k' = { k with sfu := k'.sfu, mxu := k'.mxu, fly := k'.fly }) :
    onDev (fun clk v => issue clk v b .v g y) s = .next { s with dev := s.dev.setCore b.core k'.went } := by
  have ⟨hcore, _, hstalled, _⟩ := h
  have ⟨_, _, _, _, hparity⟩ := ha
  have ⟨hrun, hint⟩ := h.canRun
  rw [onDev_eq]
  unfold issue
  rw [bundleOf_alone ha, hcore, hstalled, hrun, hparity, h.tryBundle_cop hg hcop hlegal hy hk', hint]
  rfl

/-! #### Legal operands (R188, R198) -/

theorem Core.legal_cop0 {fn : Nat} (himg : bit k.imgFlags 1 = true) (hfn : fn < 8) (a c tag : Nat) :
    k.legal (.cop0 fn a c tag) = true := by simp [Core.legal, isVec, isVmem, isCop, himg, hfn]

theorem Core.legal_cop1 {fn : Nat} (himg : bit k.imgFlags 1 = true) (hfn : fn < 8) (ps pd a : Nat) :
    k.legal (.cop1 fn ps pd a) = true := by simp [Core.legal, isVec, isVmem, isCop, himg, hfn]

theorem Core.legal_cop2 {fn : Nat} (himg : bit k.imgFlags 1 = true) (hfn : fn < 4) (ps pd a : Nat) :
    k.legal (.cop2 fn ps pd a) = true := by simp [Core.legal, isVec, isVmem, isCop, himg, hfn]

theorem Core.legal_cop3 {sd sub : Nat} {mxu : Bool} (himg : bit k.imgFlags 1 = true) (hsd : sd % 2 = 0)
    (hsub : (mxu && sub = 0) = false) : k.legal (.cop3 sd mxu sub) = true := by
  simp [Core.legal, isVec, isVmem, isCop, himg, hsd, hsub]

theorem Core.legal_copst (himg : bit k.imgFlags 1 = true) (qd test : Nat) (mxu : Bool) :
    k.legal (.copst qd mxu test) = true := by simp [Core.legal, isVec, isVmem, isCop, himg]

/-! ### What the coprocessor syllables do (R192, R194, R195, R198) -/

/-- A command enters its unit's queue where a slot is free. -/
theorem copIssue_free {mxu : Bool} {q : CopCmd} (hen : k.copEnabled mxu = true) (hslot : k.slotState mxu q.block = .free)
    (c : Clock) (id : Nat) (d : Dev) :
    copIssue c id k { d := d, k := k } mxu q = { d := d, k := k.setUnit mxu (k.unit mxu ++ [{ q with issued := k.n }]) } := by
  unfold copIssue; simp [hen, hslot]

/-- What a pop writes to its pair of registers: result with flags and tag, or tag and status (R189). -/
def CopCmd.pair (e : CopCmd) (sub : Nat) : Nat × Nat :=
  if sub = 0 then (e.result, e.flags % 256 * 65536 + e.tag % 65536) else (e.tag, e.result)

/-- The queue `l` with the entry `e` claimed by a pop. -/
def CopCmd.claimIn (e : CopCmd) (l : List CopCmd) : List CopCmd :=
  l.map fun y => if y.issued = e.issued then { y with claimed := true } else y

/-- A pop of a finished entry claims it, writes its two registers two bundles on and frees its place when it commits (log 152). -/
theorem execCop_pop {sd sub : Nat} {mxu : Bool} {e : CopCmd} (hen : k.copEnabled mxu = true) (hfly : k.fly = []) (hsub : sub < 2)
    (he : firstReady (sub = 1) (k.unit mxu) = some e) (c : Clock) (id : Nat) (d : Dev) :
    execCop c id k { d := d, k := k } (.cop3 sd mxu sub) = { d := d, k := { k.setUnit mxu (e.claimIn (k.unit mxu)) with
      fly := [⟨k.n + 2, .s (mapS k.rrb sd) (BitVec.ofNat 32 (e.pair sub).1), k.n⟩,
        ⟨k.n + 2, .s (mapS k.rrb (sd + 1)) (BitVec.ofNat 32 (e.pair sub).2), k.n⟩,
        ⟨k.n + 4, .popped mxu e.issued e.flags, k.n⟩] } } := by
  unfold execCop CopCmd.claimIn CopCmd.pair
  cases mxu <;> simp [hen, hsub, he, Acc.put, Core.addFly, Core.setUnit, hfly, copLat]

/-- A pop of an empty queue writes 0 and all ones (R194). -/
theorem execCop_pop_empty {sd sub : Nat} {mxu : Bool} (hen : k.copEnabled mxu = true) (hfly : k.fly = []) (hsub : sub < 2)
    (he : firstReady (sub = 1) (k.unit mxu) = none) (c : Clock) (id : Nat) (d : Dev) :
    execCop c id k { d := d, k := k } (.cop3 sd mxu sub) = { d := d, k := { k with
      fly := [⟨k.n + 2, .s (mapS k.rrb sd) 0, k.n⟩, ⟨k.n + 2, .s (mapS k.rrb (sd + 1)) 0xFFFFFFFF, k.n⟩] } } := by
  unfold execCop
  simp [hen, hsub, he, Acc.put, Core.addFly, hfly]

/-- QUIESCE passes once every command of the unit is finished and no pop is in flight. -/
theorem execCop_quiesce {mxu : Bool} (hen : k.copEnabled mxu = true) (hfly : k.fly = [])
    (hdone : ∀ e ∈ k.unit mxu, e.stage = .done) (c : Clock) (id : Nat) (d : Dev) :
    execCop c id k { d := d, k := k } (.cop3 0 mxu 2) = { d := d, k := k } := by
  unfold execCop
  simpa [hen, hfly] using hdone

/-- DISCARD acts when it commits (log 152). -/
theorem execCop_discard {mxu : Bool} (hen : k.copEnabled mxu = true) (hfly : k.fly = []) (c : Clock) (id : Nat) (d : Dev) :
    execCop c id k { d := d, k := k } (.cop3 0 mxu 3) =
      { d := d, k := { k with fly := [⟨k.n + 4, .discard mxu, k.n⟩] } } := by
  unfold execCop
  simp [hen, Acc.put, Core.addFly, hfly, copLat]

/-- What COPST writes to its predicate: a slot is free, or an entry is ready (R190). -/
theorem execCop_copst {qd test : Nat} {mxu : Bool} (hen : k.copEnabled mxu = true) (hfly : k.fly = []) (c : Clock) (id : Nat)
    (d : Dev) :
    execCop c id k { d := d, k := k } (.copst qd mxu test) = { d := d, k := { k with fly := [⟨k.n + 1, .q (mapQ k.rrb qd)
      (if test = 0 then !mxu && k.slotState mxu false = SlotSt.free else if test = 1 then k.slotState mxu true = SlotSt.free
        else (firstReady (test = 3) (k.unit mxu)).isSome), k.n⟩] } } := by
  unfold execCop
  simp [hen, Acc.put, Core.addFly, hfly]

end

/-! ### Units that start and finish a command (R185, R186, R195) -/

/-- With no bundle held in E1 there is none to wake. -/
theorem Dev.wakeStalled_of_none {d : Dev} {n : Nat} (h : (d.core n).stalled = none) (c : Clock) : d.wakeStalled c n = d := by
  unfold Dev.wakeStalled Dev.retry; rw [h]; exact ite_self d

/-- A unit that is free to start takes the oldest waiting command of the core whose turn it is (R186). -/
theorem execCopUnitStart_turn {s : State} {octet i : Nat} {mxu : Bool} (hoctet : octet < 128)
    (hawake : s.dev.awake (octet / 8) = true)
    (hfree : mxu = true → ((List.range 8).any fun i => (s.dev.core (8 * octet + i)).mxu.any CopCmd.isRunning) = false)
    (hturn : (((List.range 8).map fun i => (tget 0 s.dev.cores.copLast (2 * octet + mxu.toNat) + 1 + i) % 8).find? fun i =>
      ((s.dev.core (8 * octet + i)).unit mxu).any CopCmd.isWaiting) = some i) :
    execCopUnitStart octet mxu s = .next { s with dev :=
      (s.dev.updCore (8 * octet + i) fun k =>
        k.setUnit mxu (replFirst CopCmd.isWaiting (fun c => { c with stage := .running }) (k.unit mxu))).updCores fun x =>
          { x with copLast := tset 0 x.copLast (2 * octet + mxu.toNat) i } } := by
  have hbusy : (mxu && (List.range 8).any fun i => (s.dev.core (8 * octet + i)).mxu.any CopCmd.isRunning) = false := by
    cases mxu with
    | false => rfl
    | true => exact hfree rfl
  unfold execCopUnitStart
  rw [onDev_eq]
  simp only [hbusy, hawake, hturn, Nat.not_le.2 hoctet, decide_false, Bool.or_self, Bool.not_true, Bool.false_eq_true, if_false]

/-- The first command that a predicate selects, at the head of its queue. -/
theorem replFirst_head {p : CopCmd → Bool} {c : CopCmd} (h : p c = true) (f : CopCmd → CopCmd) (l : List CopCmd) :
    replFirst p f (c :: l) = f c :: l := by unfold replFirst; rw [if_pos h]

/-- A running scalar command at the head of the queue finishes with its function's value (R185, R200). -/
theorem execSfuResultReady_head {s : State} {core : Nat} {c : CopCmd} {l : List CopCmd}
    (hawake : s.dev.awake (core / 64) = true) (hsfu : (s.dev.core core).sfu = c :: l) (hblock : c.block = false)
    (hrunning : c.stage = .running) (hstalled : (s.dev.core core).stalled = none) :
    execSfuResultReady core s false = .next { s with dev := (draw s.dev).2.updCore core fun k => { k with
      sfu := { c with stage := .done, result := (sfuValue c.fn c.a c.b (Config.freeNat s.dev.free)).1 % 2 ^ 32
                      flags := (sfuValue c.fn c.a c.b (Config.freeNat s.dev.free)).2 } :: l } } := by
  have hsel : (!c.block && c.stage != .done) = true := by rw [hblock, hrunning]; rfl
  have hfirst : (c :: l).find? (fun x => !x.block && x.stage != .done) = some c := List.find?_cons_of_pos hsel
  have hcore : (draw s.dev).2.core core = s.dev.core core := rfl
  unfold execSfuResultReady
  rw [onDev_eq]
  simp only [hsfu, hfirst, hrunning, hawake, Bool.false_eq_true, if_false, Bool.not_true, Bool.or_false, bne_self_eq_false]
  rw [Dev.wakeStalled_of_none (by rw [Dev.core_updCore_same, hcore]; exact hstalled)]
  simp only [Dev.updCore, hcore]
  rw [hsfu, replFirst_head hsel]
  rfl

/-! ### The matrix unit (R201, R202) -/

@[simp] theorem drawN_cores (n : Nat) (d : Dev) : (drawN n d).2.cores = d.cores := by
  induction n generalizing d with
  | zero => rfl
  | succ n ih => exact ih (draw d).2

@[simp] theorem Dev.ldmWords_cores (c : Clock) (d : Dev) (core a n : Nat) : (d.ldmWords c core a n).2.cores = d.cores :=
  Dev.checkRead_cores c d (ldmKey core a) (4 * n) rqCop core

@[simp] theorem Dev.matWords_cores (c : Clock) (d : Dev) (core a n per : Nat) (lower : Bool) :
    (d.matWords c core a n per lower).2.cores = d.cores := by
  refine foldl_keeps (fun o : Option (List Nat) × Dev => o.2.cores) (fun o r => ?_) (List.range n) (some [], d)
  exact Dev.ldmWords_cores c o.2 core _ _

/-- A matrix command reads and writes memory, and no core. -/
theorem Dev.mxuBlock_cores (c : Clock) (d : Dev) (core : Nat) (x : CopCmd) : (d.mxuBlock c core x).2.cores = d.cores := by
  unfold Dev.mxuBlock
  extract_lets n in16 per dst
  split
  · rfl
  · split
    · rfl
    · split
      · exact Dev.matWords_cores ..
      · exact (Dev.memWrite_cores ..).trans ((drawN_cores ..).trans (Dev.matWords_cores ..))

/-- A running matrix command at the head of its queue finishes with its status; its results are in memory (R195, R201). -/
theorem execCopBlockDone_mxu_head {s : State} {core : Nat} {c : CopCmd} {l : List CopCmd}
    (hawake : s.dev.awake (core / 64) = true) (hmxu : (s.dev.core core).mxu = c :: l) (hblock : c.block = true)
    (hrunning : c.stage = .running) (hstalled : (s.dev.core core).stalled = none) :
    execCopBlockDone core true s false = .next { s with dev := (s.dev.mxuBlock s.clk core c).2.updCore core fun k => { k with
      mxu := { c with stage := .done, result := (s.dev.mxuBlock s.clk core c).1, flags := 0 } :: l } } := by
  have hsel : (c.block && c.stage != .done) = true := by rw [hblock, hrunning]; rfl
  have hfirst : (c :: l).find? (fun x => x.block && x.stage != .done) = some c := List.find?_cons_of_pos hsel
  have hunit : (s.dev.core core).unit true = c :: l := hmxu
  have hcore : (s.dev.mxuBlock s.clk core c).2.core core = s.dev.core core := by
    unfold Dev.core; rw [Dev.mxuBlock_cores]
  unfold execCopBlockDone
  rw [onDev_eq]
  simp only [hunit, hfirst, hrunning, hawake, Bool.false_eq_true, if_false, if_true, Bool.not_true, Bool.or_false,
    bne_self_eq_false]
  rw [Dev.wakeStalled_of_none (by rw [Dev.core_updCore_same, hcore]; exact hstalled)]
  simp only [Dev.updCore, hcore]
  rw [hunit, replFirst_head hsel]
  rfl

/-! ### The statement -/

/-- Settles O14: each syllable commits as a bundle of its own, and each unit has its lemma above. -/
theorem coprocessorSyllables : Obligations.CoprocessorSyllables := by
  unfold Obligations.CoprocessorSyllables
  refine ⟨?cop0, ?cop1, ?cop2, ?popR, ?popD, ?popEmpty, ?quiesce, ?discard, ?copst, ?unitStart, ?resultReady, ?blockDone⟩
  case cop0 =>
    intro s b k g fn a c tag h ha hg himg hfn hen hslot
    exact h.issue_cop ha hg rfl (Core.legal_cop0 himg hfn a c tag) (copIssue_free hen hslot _ _ _) rfl
  case cop1 =>
    intro s b k g fn ps pd a h ha hg himg hfn hen hslot
    exact h.issue_cop ha hg rfl (Core.legal_cop1 himg hfn ps pd a) (copIssue_free hen hslot _ _ _) rfl
  case cop2 =>
    intro s b k g fn ps pd a h ha hg himg hfn hen hslot
    exact h.issue_cop ha hg rfl (Core.legal_cop2 himg hfn ps pd a) (copIssue_free hen hslot _ _ _) rfl
  case popR =>
    intro s b k g d mxu e h ha hg himg hmxu hd hen he
    subst hmxu
    exact h.issue_cop ha hg rfl (Core.legal_cop3 himg hd rfl) (execCop_pop (sub := 0) hen h.fly (by decide) he _ _ _) rfl
  case popD =>
    intro s b k g d mxu e h ha hg himg hd hen he
    exact h.issue_cop ha hg rfl (Core.legal_cop3 himg hd (by simp)) (execCop_pop (sub := 1) hen h.fly (by decide) he _ _ _)
      (by cases mxu <;> rfl)
  case popEmpty =>
    intro s b k g d mxu h ha hg himg hd hen he
    exact h.issue_cop ha hg rfl (Core.legal_cop3 himg hd (by simp)) (execCop_pop_empty (sub := 1) hen h.fly (by decide) he _ _ _)
      rfl
  case quiesce =>
    intro s b k g mxu h ha hg himg hen hdone
    exact h.issue_cop ha hg rfl (Core.legal_cop3 himg rfl (by simp)) (execCop_quiesce hen h.fly hdone _ _ _) rfl
  case discard =>
    intro s b k g mxu h ha hg himg hen
    exact h.issue_cop ha hg rfl (Core.legal_cop3 himg rfl (by simp)) (execCop_discard hen h.fly _ _ _) rfl
  case copst =>
    intro s b k g qd mxu test h ha hg himg hen
    exact h.issue_cop ha hg rfl (Core.legal_copst himg qd test mxu) (execCop_copst hen h.fly _ _ _) rfl
  case unitStart =>
    intro s octet mxu i hoctet hawake hfree hturn
    exact execCopUnitStart_turn hoctet hawake hfree hturn
  case resultReady =>
    intro s core parity c l hawake hsfu hparity hblock hrunning hstalled
    subst hparity
    refine ⟨_, execSfuResultReady_head hawake hsfu hblock hrunning hstalled, ?_, rfl, rfl, rfl⟩
    rw [Dev.core_updCore_same]
  case blockDone =>
    intro s core mxu parity c l hawake hparity hm hmxu hblock hrunning hstalled
    subst hparity hm
    refine ⟨_, execCopBlockDone_mxu_head hawake hmxu hblock hrunning hstalled, ?_, ?_⟩ <;> rw [Dev.core_updCore_same]

end Sys2Proof.Machine
end

section
/-! Thread blocks beyond the thread table. R204 numbers threads 0-65,535 and R207 places their blocks in the table; a number of
2^40 or more puts its block at keys above the 48-bit address space, where the memories of the cores stand (log 31): what is
written to such a block goes to a core, and its fields stay as they read. -/
namespace Sys2Proof.Machine

/-! ### Fields of a thread block are read from device memory -/

theorem Dev.tb_congr {d e : Dev} (h : e.mem.cells = d.mem.cells) (t off n : Nat) : e.tb t off n = d.tb t off n := by
  unfold Dev.tb; rw [h]

theorem Dev.tState_congr {d e : Dev} (h : e.mem.cells = d.mem.cells) (t : Nat) : e.tState t = d.tState t :=
  Dev.tb_congr h t 4 1

theorem Dev.tFlag_congr {d e : Dev} (h : e.mem.cells = d.mem.cells) (t i : Nat) : e.tFlag t i = d.tFlag t i := by
  unfold Dev.tFlag; rw [Dev.tb_congr h]

/-! ### Writes beyond the 48-bit address space -/

/-- A write at a key of the cores' memories leaves device memory. -/
theorem Dev.putCells_cells_of_core {a : Nat} (ha : 2 ^ 48 ≤ a) (d : Dev) (bs : List Byte) :
    (d.putCells a bs).mem.cells = d.mem.cells := by
  unfold Dev.putCells
  rw [Dev.updMem_mem]
  split
  · rfl
  · rfl

section
variable {t : Nat} (ht : 2 ^ 40 ≤ t)
include ht

theorem le_tbAddr_of_beyond : 2 ^ 48 ≤ tbAddr t := by unfold tbAddr; omega

theorem Dev.setTb_cells_of_beyond (d : Dev) (off n v : Nat) : (d.setTb t off n v).mem.cells = d.mem.cells :=
  Dev.putCells_cells_of_core (Nat.le_add_right_of_le (le_tbAddr_of_beyond ht)) d _

theorem Dev.setFlag_cells_of_beyond (d : Dev) (i : Nat) (v : Bool) : (d.setFlag t i v).mem.cells = d.mem.cells :=
  Dev.setTb_cells_of_beyond ht d 6 1 _

end

end Sys2Proof.Machine
end

section
/-! Statement O16: the six Peloton operations, saddles, switches and misses (R204-R226). -/
namespace Sys2Proof.Machine

/-- BLOCK of a running thread whose block lies beyond the 48-bit space leaves device memory: its RESTART is not set there. -/
theorem Dev.opBlock_cells_of_beyond {d : Dev} {n th : Nat} (hth : (d.core n).thread = some th) (hbeyond : 2 ^ 40 ≤ th)
    (reset : Bool) : (d.opBlock n reset).2.mem.cells = d.mem.cells := by
  unfold Dev.opBlock
  simp only [hth]
  cases reset with
  | false => rfl
  | true => exact Dev.setFlag_cells_of_beyond hbeyond d 3 true

/-- A port operation leaves in device memory what its operation does (R214). -/
theorem Dev.portWrite_cells {d : Dev} {n : Nat} (hdone : (d.core n).portDone = true) (c : Clock) (priv op t : Nat) (flag : Bool) :
    (d.portWrite c n priv op flag t).mem.cells =
      (d.portOperation c n priv op flag t (d.core n).argDl (d.core n).arg0 (d.core n).arg1).2.2.mem.cells := by
  unfold Dev.portWrite
  simp only [hdone]
  rfl

/-- The meaning of BLOCK at a port that is ready for it. -/
theorem exec_block {s : State} {port : Nat} (hport : port < 1024) (hwbuf : (s.dev.core port).wbuf = []) (reset : Bool) :
    exec (.block port reset) s =
      .next { s with dev := s.dev.portWrite s.clk port (s.dev.core port).priv 3 reset 0 } := by
  have hown : s.dev.ownPort s.clk port 3 reset 0 = s.dev.portWrite s.clk port (s.dev.core port).priv 3 reset 0 := by
    unfold Dev.ownPort
    rw [hwbuf, if_pos (by simpa using hport)]
  rw [← hown]
  rfl

/-- Core 0 runs thread 2^40, and device memory is empty. -/
def runsBeyond : State := { dev := { cores := { core := [(0, { thread := some (2 ^ 40) })] } } }

/-- Refutes O16: its clauses do not bound the thread to R204's 65,536. Where core 0 runs thread 2^40, BLOCK with RESET goes to a
core's memory, and the RESTART flag that the clause of BLOCK names still reads 0. -/
theorem not_pelotonOperations : ¬ Obligations.PelotonOperations := by
  unfold Obligations.PelotonOperations
  rintro ⟨-, -, -, hblock, -⟩
  obtain ⟨t, hexec, -, hflag⟩ := hblock runsBeyond 0 (2 ^ 40) true (by decide) rfl rfl rfl rfl
  rw [exec_block (by decide) rfl true] at hexec
  cases hexec
  have hcells : (runsBeyond.dev.portWrite runsBeyond.clk 0 (runsBeyond.dev.core 0).priv 3 true 0).mem.cells =
      runsBeyond.dev.mem.cells :=
    (Dev.portWrite_cells rfl ..).trans (Dev.opBlock_cells_of_beyond (th := 2 ^ 40) rfl (Nat.le_refl _) true)
  have hclear : runsBeyond.dev.tFlag (2 ^ 40) 3 = false := by decide
  rw [Dev.tFlag_congr hcells, hclear] at hflag
  cases hflag

end Sys2Proof.Machine
end

section
/-! Statement O17: the Peloton commands (R238), and the ends of a resize and of a disable (R228, R230). -/
namespace Sys2Proof.Machine

/-- The block `d` with the fields `fs` (offset, length, value) written to the block of thread `t`. -/
def Dev.setFields (d : Dev) (t : Nat) (fs : List (Nat × Nat × Nat)) : Dev :=
  fs.foldl (fun d f => d.setTb t f.1 f.2.1 f.2.2) d

@[simp] theorem Dev.setFields_host (d : Dev) (t : Nat) (fs : List (Nat × Nat × Nat)) : (d.setFields t fs).host = d.host := by
  refine foldl_keeps Dev.host (fun d f => ?_) fs d
  rfl

theorem Dev.setFields_cells_of_beyond {t : Nat} (ht : 2 ^ 40 ≤ t) (d : Dev) (fs : List (Nat × Nat × Nat)) :
    (d.setFields t fs).mem.cells = d.mem.cells :=
  foldl_keeps (fun d : Dev => d.mem.cells) (fun d _ => Dev.setTb_cells_of_beyond ht d _ _ _) fs d

@[simp] theorem noted_mem (d : Dev) : (noted d).mem = d.mem := rfl

/-- An answer leaves device memory. -/
@[simp] theorem answered_mem (c : Clock) (w : Waiting) (r : Reply) (d : Dev) : (answered c w r d).mem = d.mem := by
  unfold answered; rw [Dev.respond_dev]; rfl

/-- PEL_THREAD_SET with good operands writes the definition fields of a thread that is FREE or IDLE (R208, R238). -/
theorem exec_pelThreadSet {s : State} {r : Req} {w : Waiting}
    {thread pool band misspol flags escband ctxHome entry arg0 arg1 est user : Nat} (hw : Waits s r 0x0303 w)
    (hpool : pool < 64) (hband : band < 16) (hmisspol : misspol < 3) (hflags : flags < 4) (hescband : escband < 16)
    (hhome : ctxHome % 64 = 0) (hstate : s.dev.tState thread ≤ 1) :
    exec (.pelThreadSet r thread pool band misspol flags escband ctxHome entry arg0 arg1 est user) s = .next { s with
      dev := answered s.clk w rOk (noted (s.dev.setFields thread
        [(0, 2, thread), (2, 1, pool), (3, 1, band), (4, 1, tsIDLE), (5, 1, misspol), (6, 1, flags + 8), (7, 1, escband),
          (24, 6, ctxHome), (32, 4, entry), (36, 4, arg0), (40, 4, arg1), (44, 4, est), (128, 128, user)])) } := by
  refine onDev_serve_journalled hw (by decide) (.inl rfl) (fits_zero w) (Dev.setFields_host ..) ?_
  simp only [Dev.setFields, tsIDLE, Nat.not_le.2 hpool, Nat.not_le.2 hband, Nat.not_lt.2 (Nat.le_of_lt_succ hmisspol),
    Nat.not_le.2 hflags, Nat.not_le.2 hescband, hhome, Nat.not_lt.2 hstate, bne_self_eq_false, Bool.false_eq_true, if_false]

/-- A request for PEL_THREAD_SET in slot 0 of page 0. -/
def threadSetWaits : Waiting :=
  { page := 0, slot := 0, code := 0x0303, tag := 0, flags := 0, func := 0, reqAddr := 0, reqLen := 0, respAddr := 0
    respLen := 0, rung := 0 }

/-- That request waits alone, and device memory is empty. -/
def awaitsThreadSet : State := { dev := { host := { waiting := [threadSetWaits] } } }

/-- Refutes O17: its clauses do not bound the thread to R204's 65,536. PEL_THREAD_SET of thread 2^40 is answered OK and writes to
the memories of the cores, and the STATE of that thread still reads FREE. -/
theorem not_pelotonCommands : ¬ Obligations.PelotonCommands := by
  unfold Obligations.PelotonCommands
  rintro ⟨-, -, -, -, hset, -⟩
  have hfree : awaitsThreadSet.dev.tState (2 ^ 40) = 0 := by decide
  have hle : awaitsThreadSet.dev.tState (2 ^ 40) ≤ 1 := by rw [hfree]; decide
  have hw : Waits awaitsThreadSet ⟨0, 0⟩ 0x0303 threadSetWaits := by decide
  obtain ⟨t, hexec, -, hidle, -⟩ := hset awaitsThreadSet ⟨0, 0⟩ threadSetWaits (2 ^ 40) 0 0 0 0 0 0 0 0 0 0 0 hw (by decide)
    hle (by decide)
  rw [exec_pelThreadSet hw (by decide) (by decide) (by decide) (by decide) (by decide) rfl hle] at hexec
  cases hexec
  rw [Dev.tState_congr (d := awaitsThreadSet.dev) ?cells, hfree] at hidle
  · cases hidle
  case cells =>
    rw [answered_mem, noted_mem]
    exact Dev.setFields_cells_of_beyond (Nat.le_refl _) ..

end Sys2Proof.Machine
end

section
/-! Engines and rings: reads after updates, and the operations that leave both tables alone. -/
namespace Sys2Proof.Machine

/-! ### Reads after updates -/

/-- Of two canonical writes to one key the second stands, where the first does not take the key away. -/
theorem tset_tset_of_ne {α : Type} [DecidableEq α] {d v : α} (hv : v ≠ d) (m : Tab α) (k : Nat) (w : α) :
    tset d (tset d m k v) k w = tset d m k w := by
  have hput : tput (tput m k v) k w = tput m k w := by
    induction m with
    | nil => simp [tput]
    | cons e m ih =>
      obtain ⟨k', v'⟩ := e
      rcases Nat.lt_trichotomy k k' with hlt | rfl | hgt
      · simp [tput, hlt]
      · simp [tput]
      · simp [tput, Nat.lt_asymm hgt, Nat.ne_of_gt hgt, ih]
  have hdel : tdel (tput m k v) k = tdel m k := by
    clear hput
    induction m with
    | nil => simp [tput, tdel]
    | cons e m ih =>
      obtain ⟨k', v'⟩ := e
      rcases Nat.lt_trichotomy k k' with hlt | rfl | hgt
      · simp [tput, tdel, hlt]
      · simp [tput, tdel]
      · simp [tput, tdel, Nat.lt_asymm hgt, Nat.ne_of_gt hgt, ih]
  unfold tset
  rw [if_neg hv, hput, hdel]

/-- Two updates of one key are one, where the first does not take the key away. -/
theorem tmod_tmod_of_ne {α : Type} [DecidableEq α] {d : α} {m : Tab α} {k : Nat} {f : α → α} (hf : f (tget d m k) ≠ d)
    (g : α → α) : tmod d (tmod d m k f) k g = tmod d m k fun x => g (f x) := by
  rw [tmod, tget_tmod, if_pos rfl, tmod, tset_tset_of_ne hf]; rfl

theorem Dev.ring_updRing (d : Dev) (r i : Nat) (f : Ring → Ring) :
    (d.updRing r f).ring i = if i = r then f (d.ring r) else d.ring i := by
  simp only [Dev.ring, Dev.updRing, Dev.updEng_eng, tget_tmod]

theorem Dev.engine_updEngine (d : Dev) (e i : Nat) (f : Engine → Engine) :
    (d.updEngine e f).engine i = if i = e then f (d.engine e) else d.engine i := by
  simp only [Dev.engine, Dev.updEngine, Dev.updEng_eng, tget_tmod]

@[simp] theorem Dev.engine_updRing (d : Dev) (r e : Nat) (f : Ring → Ring) : (d.updRing r f).engine e = d.engine e := rfl
@[simp] theorem Dev.ring_updEngine (d : Dev) (e r : Nat) (f : Engine → Engine) : (d.updEngine e f).ring r = d.ring r := rfl

theorem Dev.ring_congr {d e : Dev} (h : e.eng = d.eng) (r : Nat) : e.ring r = d.ring r := by unfold Dev.ring; rw [h]

theorem Dev.engine_congr {d e : Dev} (h : e.eng = d.eng) (n : Nat) : e.engine n = d.engine n := by unfold Dev.engine; rw [h]

/-- An update of a ring is what it makes of that ring. -/
theorem Dev.updRing_congr {d : Dev} {r : Nat} {f g : Ring → Ring} (h : f (d.ring r) = g (d.ring r)) :
    d.updRing r f = d.updRing r g := by
  have hmod : tmod {} d.eng.rings r f = tmod {} d.eng.rings r g := by
    unfold tmod; exact congrArg _ h
  simp only [Dev.updRing, Dev.updEng, hmod]

/-- Two updates of a ring are one, where the first does not leave it as it is after reset. -/
theorem Dev.updRing_updRing {d : Dev} {r : Nat} {f : Ring → Ring} (hf : f (d.ring r) ≠ {}) (g : Ring → Ring) :
    (d.updRing r f).updRing r g = d.updRing r fun x => g (f x) := by
  simp only [Dev.updRing, Dev.updEng, tmod_tmod_of_ne hf]

/-- The engines of a list, each updated once. -/
theorem Dev.engine_foldl_updEngine {es : List Nat} (h : es.Nodup) (f : Engine → Engine) (d : Dev) (e : Nat) :
    (es.foldl (fun d n => d.updEngine n f) d).engine e = if e ∈ es then f (d.engine e) else d.engine e := by
  induction es generalizing d with
  | nil => rfl
  | cons n es ih =>
    obtain ⟨hn, hes⟩ := List.nodup_cons.1 h
    rw [List.foldl_cons, ih hes, Dev.engine_updEngine]
    by_cases he : e = n
    · subst he; simp [hn]
    · simp [he]

theorem ones_nodup (n v : Nat) : (ones n v).Nodup := List.nodup_range.filter _

/-! ### Memory (R373, R374) -/

@[simp] theorem Dev.memStat_eng (d : Dev) (cls : Nat) (f : MemStats → MemStats) : (d.memStat cls f).eng = d.eng := rfl
@[simp] theorem Dev.trouble_eng (d : Dev) (w b : Nat) : (d.trouble w b).eng = d.eng := rfl
@[simp] theorem Dev.putCells_eng (d : Dev) (a : Nat) (bs : List Byte) : (d.putCells a bs).eng = d.eng := rfl
@[simp] theorem Dev.log_eng (c : Clock) (d : Dev) (w b code : Nat) (data : List Byte) : (d.log c w b code data).eng = d.eng := rfl
@[simp] theorem draw_eng (d : Dev) : (draw d).2.eng = d.eng := rfl

theorem HostOnly.eng {d e : Dev} (h : HostOnly d e) : e.eng = d.eng := by rw [h.dev]

@[simp] theorem Dev.evt0_eng (c : Clock) (d : Dev) (code tag : Nat) (fs : List (Nat × Nat × Nat)) :
    (d.evt0 c code tag fs).eng = d.eng := (HostOnly.evt c d 0 0 code tag fs).eng

@[simp] theorem Dev.queueTest_eng (d : Dev) (a : Nat) : (d.queueTest a).eng = d.eng := by
  unfold Dev.queueTest; simp [apply_ite Dev.eng]

@[simp] theorem Dev.noteUe_eng (c : Clock) (d : Dev) (cls a : Nat) : (d.noteUe c cls a).eng = d.eng := by
  unfold Dev.noteUe; split <;> simp

@[simp] theorem Dev.readWord_eng (c : Clock) (d : Dev) (cw cls rid : Nat) : (d.readWord c cw cls rid).2.eng = d.eng := by
  unfold Dev.readWord
  dsimp only
  split
  · rfl
  · simp [apply_ite Dev.eng]
  · simp [apply_ite Dev.eng]

@[simp] theorem Dev.writeWord_eng (d : Dev) (cw a : Nat) (bs : List Byte) : (d.writeWord cw a bs).2.eng = d.eng := by
  unfold Dev.writeWord
  dsimp only
  split
  · rfl
  · split <;> simp [apply_ite Dev.eng]

@[simp] theorem Dev.memWrite_eng (d : Dev) (a : Nat) (bs : List Byte) : (d.memWrite a bs).2.eng = d.eng := by
  refine foldl_keeps (fun o : Bool × Dev => o.2.eng) (fun o cw => ?_) (codeWords a bs.length) (false, d)
  exact Dev.writeWord_eng o.2 cw a bs

/-! ### READY of a thread (R216, R219) -/

@[simp] theorem Dev.setTb_eng (d : Dev) (t off n v : Nat) : (d.setTb t off n v).eng = d.eng := rfl
@[simp] theorem Dev.setFlag_eng (d : Dev) (t i : Nat) (v : Bool) : (d.setFlag t i v).eng = d.eng := rfl
@[simp] theorem Dev.bump_eng (d : Dev) (t off n v : Nat) : (d.bump t off n v).eng = d.eng := rfl
@[simp] theorem Dev.setCycle_eng (c : Clock) (d : Dev) (x : ThreadCycle) : (d.setCycle c x).eng = d.eng := rfl
@[simp] theorem Dev.release_eng (d : Dev) (t : Nat) : (d.release t).eng = d.eng := rfl

@[simp] theorem Dev.trace_eng (c : Clock) (d : Dev) (core thread pool ev detail aux : Nat) :
    (d.trace c core thread pool ev detail aux).eng = d.eng := by
  unfold Dev.trace; simp [apply_ite Dev.eng]

@[simp] theorem Dev.absorb_eng (c : Clock) (d : Dev) (t : Nat) (s : OpSrc) (disabled : Bool) :
    (d.absorb c t s disabled).eng = d.eng := by
  unfold Dev.absorb; simp

@[simp] theorem Dev.recode_eng (d : Dev) (s : OpSrc) (code : Nat) : (d.recode s code).eng = d.eng := by
  unfold Dev.recode; split <;> rfl

@[simp] theorem Dev.offerDeadline_eng (c : Clock) (d : Dev) (t : Nat) (s : OpSrc) (dl : Option Nat) :
    (d.offerDeadline c t s dl).eng = d.eng := by
  unfold Dev.offerDeadline; cases dl <;> simp [apply_ite Dev.eng]

@[simp] theorem Dev.offerPend_eng (c : Clock) (d : Dev) (t : Nat) (s : OpSrc) (dl : Option Nat) :
    (d.offerPend c t s dl).eng = d.eng := by
  unfold Dev.offerPend; cases dl <;> simp [apply_ite Dev.eng]

@[simp] theorem Dev.readyMove_eng (d : Dev) (t st : Nat) : (d.readyMove t st).eng = d.eng := by
  unfold Dev.readyMove; simp [apply_ite Dev.eng]

@[simp] theorem Dev.opReady_eng (c : Clock) (d : Dev) (t : Nat) (dl : Option Nat) (s : OpSrc) :
    (d.opReady c t dl s).2.eng = d.eng := by
  unfold Dev.opReady
  cases hr : (d.cycle c t).ready <;> simp [hr, apply_ite Dev.eng, apply_ite Prod.snd]

/-! ### What a job reads and writes (R251-R259, R262) -/

@[simp] theorem Dev.readUntil_eng (c : Clock) (eng : Nat) (ws : List Nat) (d : Dev) : (d.readUntil c eng ws).2.eng = d.eng := by
  induction ws generalizing d with
  | nil => rfl
  | cons w ws ih => unfold Dev.readUntil; simp [apply_ite Prod.snd, apply_ite Dev.eng, ih]

@[simp] theorem Dev.readAll_eng (c : Clock) (eng : Nat) (xs : List (Nat × Nat × Nat)) (d : Dev) :
    (d.readAll c eng xs).2.eng = d.eng := by
  induction xs generalizing d with
  | nil => rfl
  | cons x xs ih => unfold Dev.readAll; simp [apply_ite Prod.snd, apply_ite Dev.eng, ih]

@[simp] theorem Dev.writeFree_eng (d : Dev) (a n : Nat) : (d.writeFree a n).eng = d.eng := by
  unfold Dev.writeFree drawBytes; simp

@[simp] theorem Dev.putSymbols_eng (d : Dev) (a : Nat) (l : List (Int × Int)) : (d.putSymbols a l).eng = d.eng := by
  unfold Dev.putSymbols; simp

@[simp] theorem Dev.decodeStep_eng (d : Dev) (b : List Byte) (r : Nat) : (d.decodeStep b r).2.eng = d.eng := by
  unfold Dev.decodeStep; simp [apply_ite Dev.eng]

@[simp] theorem Dev.decodeOut_eng (d : Dev) (b : List Byte) : (d.decodeOut b).2.eng = d.eng := by
  unfold Dev.decodeOut
  extract_lets f fl o tb ob d₁ d₂ iters bad
  have ho : o.2.eng = d.eng :=
    foldl_keeps (fun o : List (Bool × Nat × List Bool) × Dev => o.2.eng) (fun o r => Dev.decodeStep_eng o.2 b r) _ ([], d)
  simp [d₂, d₁, apply_ite Dev.eng, ho]

@[simp] theorem Dev.polarOut_eng (d : Dev) (b : List Byte) : (d.polarOut b).2.eng = d.eng := by
  unfold Dev.polarOut; simp

@[simp] theorem Dev.encodeOut_eng (d : Dev) (b : List Byte) : (d.encodeOut b).eng = d.eng := by
  unfold Dev.encodeOut
  extract_lets f op input qpsk
  split
  · exact foldl_keeps Dev.eng (fun d _ => Dev.putSymbols_eng d _ _) _ d
  · simp [qpsk, apply_ite Dev.eng]

@[simp] theorem Dev.transformOut_eng (d : Dev) (b : List Byte) : (d.transformOut b).2.eng = d.eng := by
  unfold Dev.transformOut
  extract_lets f fr m x o bfp ys d₁
  split
  · exact foldl_keeps (fun o : Nat × Dev => o.2.eng) (fun o _ => Dev.putSymbols_eng o.2 _ _) _ (0, d)
  · have hd : d₁.eng = d.eng := foldl_keeps Dev.eng (fun d _ => Dev.putSymbols_eng d _ _) ys fr.2
    simp [apply_ite Prod.snd, apply_ite Dev.eng, hd]

@[simp] theorem Dev.mimoGroup_eng (d : Dev) (b : List Byte) (g : Nat) : (d.mimoGroup b g).2.2.eng = d.eng := by
  unfold Dev.mimoGroup
  extract_lets
  split
  · rfl
  · split <;> rfl

@[simp] theorem Dev.precode_eng (d : Dev) (b : List Byte) (g e : Nat) : (d.precode b g e).2.eng = d.eng := rfl

@[simp] theorem Dev.mimoOut_eng (d : Dev) (b : List Byte) : (d.mimoOut b).2.eng = d.eng := by
  refine (Dev.memWrite_eng ..).trans (foldl_keeps (fun o : Nat × List Byte × Dev => o.2.2.eng) (fun o g => ?_) _ (0, [], d))
  split
  · refine foldl_keeps (fun o : Nat × List Byte × Dev => o.2.2.eng) (fun o e => ?_) _ o
    exact Dev.precode_eng o.2.2 b g e
  · exact Dev.mimoGroup_eng o.2.2 b g

@[simp] theorem Dev.jobOut_eng (d : Dev) (cls : Nat) (b : List Byte) : (d.jobOut cls b).2.eng = d.eng := by
  unfold Dev.jobOut
  split <;> simp [apply_ite Prod.snd, apply_ite Dev.eng]

end Sys2Proof.Machine
end

section
/-! Statement O18: doorbells, fetches, the course of a job, and the end of a disable (R243-R250, R262, R268, R269, R271). -/
namespace Sys2Proof.Machine

/-! ### The end of a job (R246, R250) -/

/-- A ring once its job at `idx` has ended with status `st`: complete, counted where it was late, and DONE moved on. -/
def Ring.ended (r : Ring) (idx st : Nat) : Ring :=
  Ring.advance (r.fin ++ [idx]).length { r with fin := r.fin ++ [idx], late := if st = 1 then satAdd 32 r.late 1 else r.late }

/-- An engine with one more job counted, of status `st`. -/
def Engine.counted (x : Engine) (st : Nat) : Engine :=
  { x with jobs := (x.jobs + 1) % 2 ^ 64, byStatus := x.byStatus.mapIdx fun i n => if i = st then satAdd 32 n 1 else n }

/-- DONE moves and completed descriptors leave; nothing else of the ring changes. -/
theorem Ring.advance_eq (n : Nat) (r : Ring) : r.advance n = { r with done := (r.advance n).done, fin := (r.advance n).fin } := by
  induction n generalizing r with
  | zero => rfl
  | succ n ih =>
    unfold Ring.advance
    split
    · exact ih _
    · rfl

@[simp] theorem Ring.ended_queue (r : Ring) (idx st : Nat) : (r.ended idx st).queue = r.queue := by
  unfold Ring.ended; rw [Ring.advance_eq]

@[simp] theorem Ring.ended_prod (r : Ring) (idx st : Nat) : (r.ended idx st).prod = r.prod := by
  unfold Ring.ended; rw [Ring.advance_eq]

theorem Ring.ended_late (r : Ring) (idx st : Nat) :
    (r.ended idx st).late = if st = 1 then satAdd 32 r.late 1 else r.late := by
  unfold Ring.ended; rw [Ring.advance_eq]

section
variable (c : Clock) (d : Dev) (ri idx : Nat) (b : List Byte) (st eng detail result : Nat)

/-- What the end of a job does to the engines and their rings. -/
theorem Dev.endJob_eng : (d.endJob c ri idx b st eng detail result).eng =
    { d.eng with
      rings := tmod {} d.eng.rings ri fun r => r.ended idx st
      handles := d.eng.handles.filter fun x => (x.1, x.2.1) != (ri, idx)
      engines := if eng < 56 then tmod {} d.eng.engines eng fun x => x.counted st else d.eng.engines } := by
  unfold Dev.endJob Dev.jobEvent
  simp only [apply_ite Dev.eng, Dev.evt0_eng, Dev.opReady_eng, ite_self, Dev.updEngine, Dev.updRing, Dev.updEng_eng,
    Dev.memWrite_eng]
  split <;> rfl

theorem Dev.endJob_ring : (d.endJob c ri idx b st eng detail result).ring ri = (d.ring ri).ended idx st := by
  unfold Dev.ring; rw [Dev.endJob_eng, tget_tmod, if_pos rfl]

theorem Dev.endJob_engine (heng : eng < 56) :
    (d.endJob c ri idx b st eng detail result).engine eng = (d.engine eng).counted st := by
  unfold Dev.engine; rw [Dev.endJob_eng]; simp only [if_pos heng, tget_tmod, if_true]

end

/-! ### Doorbell and fetch (R243, R245) -/

section
variable {s : State} {ring : Nat}

/-- A doorbell of the owner, within the ring, sets PROD (R243). -/
theorem exec_engRingDoorbell_pf0 {prod : Nat} (howner : (s.dev.ring ring).owner = 1) (hon : (s.dev.ring ring).dis = .on)
    (hroom : (prod + 65536 - (s.dev.ring ring).done) % 65536 ≤ 2 ^ (s.dev.ring ring).log) :
    exec (.engRingDoorbell 1024 ring prod) s =
      .next { s with dev := s.dev.updRing ring fun r => { r with prod := prod, stall := false } } := by
  have hlen : ¬ (s.dev.ring ring).len < (prod + 65536 - (s.dev.ring ring).done) % 65536 := Nat.not_lt.2 hroom
  show execEngRingDoorbell 1024 ring prod s = _
  unfold execEngRingDoorbell Dev.ringDoorbell
  rw [onDev_eq]
  simp only [hon, Dev.ownsRing, howner, hlen]
  congr 2
  exact Dev.updRing_congr (by simp [hon])

/-- The next descriptor, owned and accepted, is read and waits (R245). -/
theorem exec_descriptorFetch_waits {x : Ring} {b : List Byte} (hx : s.dev.ring ring = x) (hon : x.dis = .on)
    (hstall : x.stall = false) (hmore : x.fetch ≠ x.prod) (hecc : s.dev.mem.ecc = [])
    (hb : b = s.dev.cellBytes (x.base + 128 * (x.fetch % 2 ^ x.log)) 128) (hown : dOwn b = true)
    (hserved : s.dev.noEngine x = false) (haccepted : x.accepted x.fetch = true) :
    exec (.descriptorFetch ring) s = .next { s with dev := s.dev.updRing ring fun r => { r with
      fetch := (r.fetch + 1) % 65536, refused := r.refused.filter (· != x.fetch), queue := r.queue ++ [⟨x.fetch, b⟩] } } := by
  have hread : s.dev.memRead s.clk (x.base + 128 * (x.fetch % x.len)) 128 rqEngine ring = (b, false, s.dev) := by
    unfold Dev.memRead; rw [Dev.checkRead_of_noEcc hecc, hb]; rfl
  have hnone : ∀ f, (s.dev.updRing ring f).noEngine x = s.dev.noEngine x := fun f => rfl
  show execDescriptorFetch ring s = _
  unfold execDescriptorFetch
  rw [onDev_eq]
  simp only [hx, hon, hstall, hmore, hread, hown, hnone, hserved, haccepted, decide_false, reduceCtorEq, Bool.or_self,
    Bool.not_true, Bool.false_eq_true, if_false]
  congr 2
  rw [Dev.updRing_updRing (by rw [hx]; intro h; exact absurd (congrArg Ring.dis h) (by simp [hon]))]

end

/-! ### The course of a job (R246-R249, R262) -/

section
variable {s : State}

/-- A free engine takes the head job that is its turn, and starts it where its descriptor is sound (R247, R261). -/
theorem exec_jobStart_sound {eng ri : Nat} {j : QueuedJob} (heng : eng < 56) (hidle : (s.dev.engine eng).job = none)
    (hon : (s.dev.engine eng).dis = .on) (hawake : s.dev.awake (engDomain eng) = true)
    (hasked : s.dev.asked (engDomain eng) = false) (hpick : s.dev.pickRing eng s.clk.atc = some (ri, j))
    (hdesc : descFault (s.dev.ring ri).cls j.desc = none) (haddr : s.dev.addrFault (s.dev.ring ri) j.desc = none) :
    exec (.jobStart eng) s = .next { s with dev :=
      (s.dev.updRing ri fun r => { r with queue := r.queue.drop 1 }).updEngine eng fun x =>
        { x with job := some { ring := ri, idx := j.idx, desc := j.desc, start := s.clk.atc } } } := by
  have haddr' : ∀ f, (s.dev.updRing ri f).addrFault (s.dev.ring ri) j.desc = none := fun f => haddr
  have hen : s.dev.enabled eng = true := by simpa [Dev.enabled] using hon
  show execJobStart eng s = _
  unfold execJobStart
  rw [onDev_eq]
  simp [Nat.not_le.2 heng, hidle, hen, hawake, hasked, hpick, hdesc, haddr']

/-- A job past its START_BY, the only one of its ring, leaves the queue and is counted (R249). -/
theorem exec_jobLate_only {ring : Nat} {j : QueuedJob} (hqueue : (s.dev.ring ring).queue = [j])
    (hlate : dStartKey j.desc ≤ s.clk.atc) :
    exec (.jobLate ring) s = .next { s with
      dev := (s.dev.updRing ring fun r => { r with queue := r.queue.filter fun q => q.idx != j.idx }).endJob s.clk ring j.idx
        j.desc jsLATE 0xFF 0 untouched } := by
  show execJobLate ring s = _
  unfold execJobLate
  rw [onDev_eq]
  simp [hqueue, hlate]

/-- Engine `y` is engine `x` once its job, of `ns` ns, has ended: free, with the job and its time counted (R250, R270). -/
structure JobCounted (x y : Engine) (ns : Nat) : Prop where
  free : y.job = none
  dis : y.dis = x.dis
  jobs : y.jobs = (x.jobs + 1) % 2 ^ 64
  busy : y.busy = (x.busy + ns) % 2 ^ 64

/-- Whatever its status, the end of a job counts it: the engine was freed before, and nothing since has touched it. -/
theorem JobCounted.endJob {x : Engine} {ns eng : Nat} {d : Dev} (heng : eng < 56)
    (hfree : d.engine eng = { x with job := none, busy := (x.busy + ns) % 2 ^ 64 }) (c : Clock) (ri idx : Nat) (b : List Byte)
    (st detail result : Nat) : JobCounted x ((d.endJob c ri idx b st eng detail result).engine eng) ns := by
  rw [Dev.endJob_engine c d ri idx b st eng detail result heng, hfree]
  exact ⟨rfl, rfl, rfl, rfl⟩

/-- The job of an engine in service ends: stopped, failed or whole, it is counted. -/
theorem exec_jobEnd_counted {eng : Nat} {j : RunJob} (heng : eng < 56) (hjob : (s.dev.engine eng).job = some j)
    (hon : (s.dev.engine eng).dis = .on) : ∃ t, exec (.jobEnd eng false) s = .next t ∧
      JobCounted (s.dev.engine eng) (t.dev.engine eng) (tcToNs (s.clk.atc - j.start)) := by
  refine ⟨_, rfl, ?_⟩
  simp -zeta only [hjob]
  extract_lets r outs d spoil rd o
  have hspoil : ∀ e, (spoil e).eng = e.eng := fun e =>
    foldl_keeps Dev.eng (fun d (x : JobRange) => Dev.writeFree_eng d x.addr x.len) _ e
  have hread : rd.2.eng = d.eng := Dev.readAll_eng ..
  have hfree : d.engine eng = { s.dev.engine eng with
      job := none, busy := ((s.dev.engine eng).busy + tcToNs (s.clk.atc - j.start)) % 2 ^ 64 } := by
    simp only [d, Dev.engine_updEngine, if_true, Engine.settle, hon]
  have ends : ∀ e : Dev, e.eng = d.eng → ∀ st detail result,
      JobCounted (s.dev.engine eng) ((e.endJob s.clk j.ring j.idx j.desc st eng detail result).engine eng)
        (tcToNs (s.clk.atc - j.start)) := fun e he st detail result =>
    JobCounted.endJob heng ((Dev.engine_congr he eng).trans hfree) ..
  split
  · exact ends _ (hspoil d) ..
  · rw [if_neg Bool.false_ne_true]
    split
    · exact ends _ ((hspoil _).trans hread) ..
    · exact ends _ ((hspoil _).trans hread) ..
    · exact ends _ ((Dev.jobOut_eng ..).trans hread) ..

end

/-! ### The end of a disable (R269, R271) -/

section
variable {s : State}

/-- A ring whose DONE has reached PROD at T_D is reported disabled (R269, R271). -/
theorem exec_engDisabled_ring {ring at_ tag : Nat} {ab : Bool} (hending : (s.dev.ring ring).dis = .ending ab at_ tag)
    (hdone : (s.dev.ring ring).done = (s.dev.ring ring).tdProd) :
    exec (.engDisabled true ring) s = .next { s with
      dev := (s.dev.updRing ring fun y => { y with dis := .disabled }).evt0 s.clk 0x0582 tag
        [(0, 1, 1), (1, 1, ab.toNat), (2, 1, ring)] } := by
  have hdrained : (s.dev.ring ring).drained = true := by simp [Ring.drained, hdone]
  show execEngDisabled true ring s = _
  unfold execEngDisabled
  rw [onDev_eq]
  simp [hending, hdrained]

/-- Engines without a job are reported disabled, and their command is over (R269, R271). -/
theorem exec_engDisabled_engines {ring : Nat} {q : EngDis} (hpend : s.dev.eng.pend = [q])
    (hidle : ∀ e ∈ ones 56 q.mask, (s.dev.engine e).job = none) :
    exec (.engDisabled false ring) s = .next { s with
      dev := (s.dev.updEng fun y => { y with pend := [] }).evt0 s.clk 0x0582 q.tag
        [(0, 1, 0), (1, 1, q.abort.toNat), (8, 8, q.mask)] } := by
  have hfree : (ones 56 q.mask).all (fun e => (s.dev.engine e).job.isNone) = true := by simpa using hidle
  show execEngDisabled false ring s = _
  unfold execEngDisabled
  rw [onDev_eq]
  simp [hpend, hfree, Dev.updEng]

end

/-- Settles O18: each event of an engine ring has its lemma above; a job that ends late is counted in its ring alone. -/
theorem engineJobs : Obligations.EngineJobs := by
  unfold Obligations.EngineJobs
  refine ⟨?doorbell, ?fetch, ?start, ?ends, ?late, ?ringDisabled, ?enginesDisabled⟩
  case doorbell =>
    intro s who ring prod hwho howner hon hroom
    subst hwho
    exact exec_engRingDoorbell_pf0 howner hon hroom
  case fetch =>
    intro s ring x b hx hon hstall hmore hecc hb hown hserved haccepted
    exact exec_descriptorFetch_waits hx hon hstall hmore hecc hb hown hserved haccepted
  case start =>
    intro s eng ri j heng hidle hon hawake hasked hpick hdesc haddr
    exact exec_jobStart_sound heng hidle hon hawake hasked hpick hdesc haddr
  case ends =>
    intro s eng parity j heng hjob hon hparity
    subst hparity
    obtain ⟨t, hexec, hcounted⟩ := exec_jobEnd_counted heng hjob hon
    exact ⟨t, hexec, hcounted.free, hcounted.dis.trans hon, hcounted.jobs, hcounted.busy⟩
  case late =>
    intro s ring j hqueue hlate _
    refine ⟨_, exec_jobLate_only hqueue hlate, ?_, ?_, ?_⟩ <;> rw [Dev.endJob_ring, Dev.ring_updRing, if_pos rfl]
    · rw [Ring.ended_queue]; simp [hqueue]
    · rw [Ring.ended_late]; rfl
    · rw [Ring.ended_prod]
  case ringDisabled =>
    intro s isRing ring at_ tag ab hring hending hdone _
    subst hring
    exact exec_engDisabled_ring hending hdone
  case enginesDisabled =>
    intro s isRing ring q hring hpend hidle
    subst hring
    exact exec_engDisabled_engines hpend hidle

end Sys2Proof.Machine
end

section
/-! Statement O19: the commands of engines and rings (R264, R265, R268-R270), and the microcode update (R579, R581). -/
namespace Sys2Proof.Machine

/-! ### Answers and events leave the engines, and a running update -/

@[simp] theorem noted_eng (d : Dev) : (noted d).eng = d.eng := rfl
@[simp] theorem noted_engUpd (d : Dev) : (noted d).mgmt.engUpd = d.mgmt.engUpd := rfl

@[simp] theorem answered_eng (c : Clock) (w : Waiting) (r : Reply) (d : Dev) : (answered c w r d).eng = d.eng := by
  unfold answered; rw [Dev.respond_dev]; rfl

@[simp] theorem noted_engine (d : Dev) (e : Nat) : (noted d).engine e = d.engine e := rfl

@[simp] theorem answered_engine (c : Clock) (w : Waiting) (r : Reply) (d : Dev) (e : Nat) :
    (answered c w r d).engine e = d.engine e := Dev.engine_congr (answered_eng c w r d) e

@[simp] theorem Dev.cause_mgmt (c : Clock) (d : Dev) (f v : Nat) : (d.cause c f v).mgmt = d.mgmt := by
  unfold Dev.cause Dev.tryVector
  dsimp only
  split
  · split
    · rfl
    · split
      · split <;> rfl
      · rfl
  · rfl

@[simp] theorem Dev.evt_engUpd (c : Clock) (d : Dev) (ring own code tag : Nat) (fs : List (Nat × Nat × Nat)) :
    (d.evt c ring own code tag fs).mgmt.engUpd = d.mgmt.engUpd := by
  unfold Dev.evt Dev.post
  dsimp only
  split
  · rfl
  · split
    · split <;> rfl
    · unfold Dev.writeEvent; rw [Dev.cause_mgmt]; rfl

@[simp] theorem answered_engUpd (c : Clock) (w : Waiting) (r : Reply) (d : Dev) :
    (answered c w r d).mgmt.engUpd = d.mgmt.engUpd := by
  unfold answered Dev.respond
  simp [apply_ite Dev.mgmt, apply_ite Mgmt.engUpd]

/-! ### Engines of a mask -/

@[simp] theorem Dev.engine_updMgmt (d : Dev) (f : Mgmt → Mgmt) (e : Nat) : (d.updMgmt f).engine e = d.engine e := rfl

/-- The list of pending disables is no engine's. -/
@[simp] theorem Dev.engine_updEng_pend (d : Dev) (f : Engines → List EngDis) (e : Nat) :
    (d.updEng fun y => { y with pend := f y }).engine e = d.engine e := rfl

/-- A mask of one engine names that engine. -/
theorem ones_two_pow {n e : Nat} (h : e < n) : ones n (2 ^ e) = [e] := by
  have hbit : ∀ i, bit (2 ^ e) i = decide (i = e) := fun i => by
    have htest : 2 ^ e / 2 ^ i % 2 = 1 ↔ e = i := by
      rw [← decide_eq_decide, ← Nat.testBit_eq_decide_div_mod_eq, Nat.testBit_two_pow]
    rw [bit, Bool.eq_iff_iff, beq_iff_eq, decide_eq_true_iff, htest]
    exact eq_comm
  unfold ones
  simp only [hbit]
  rw [List.filter_eq, List.count_range, if_pos h]
  rfl

/-- Updates of engines change the table of engines alone. -/
theorem Dev.foldl_updEngine_eq (es : List Nat) (f : Engine → Engine) (d : Dev) :
    es.foldl (fun d e => d.updEngine e f) d =
      d.updEng fun x => { x with engines := es.foldl (fun m e => tmod {} m e f) x.engines } := by
  induction es generalizing d with
  | nil => rfl
  | cons e es ih => rw [List.foldl_cons, ih]; rfl

/-- What a disable makes of an engine that it names (R268). -/
def Engine.disable (c : Clock) (abort : Bool) (tag : Nat) (x : Engine) : Engine :=
  ({ x with dis := .ending abort c.atc tag, job := x.job.map fun j => { j with stop := j.stop || abort } } : Engine).settle

/-- An idle engine is disabled at once (R268). -/
theorem Engine.disable_idle {x : Engine} (h : x.job = none) (c : Clock) (abort : Bool) (tag : Nat) :
    x.disable c abort tag = { x with dis := .disabled } := by
  unfold Engine.disable Engine.settle; simp [h]

/-- Without rings no job is stranded (R269). -/
theorem Dev.refuseStranded_of_noRings {d : Dev} (h : d.eng.rings = []) (c : Clock) : d.refuseStranded c = d := by
  unfold Dev.refuseStranded; rw [h]; rfl

/-- Without rings a disable changes the engines it names, and nothing else (R268, R269). -/
theorem Dev.disableEngines_of_noRings {d : Dev} (h : d.eng.rings = []) (c : Clock) (es : List Nat) (abort : Bool) (tag : Nat) :
    d.disableEngines c es abort tag = es.foldl (fun d e => d.updEngine e (Engine.disable c abort tag)) d :=
  Dev.refuseStranded_of_noRings (by rw [Dev.foldl_updEngine_eq]; exact h) c

/-- No disable is pending for an engine that no command names and that is not ending (R268). -/
theorem Dev.disPending_eq_false {d : Dev} {e : Nat} (hpend : d.eng.pend = []) (h : (d.engine e).dis.isEnding = false) :
    d.disPending e = false := by
  unfold Dev.disPending
  rw [hpend]
  cases hd : (d.engine e).dis with
  | ending abort at_ tag => rw [hd] at h; cases h
  | _ => rfl

theorem Dev.any_disPending_eq_false {d : Dev} {es : List Nat} (hpend : d.eng.pend = [])
    (h : ∀ e ∈ es, (d.engine e).dis.isEnding = false) : es.any d.disPending = false :=
  List.any_eq_false.2 fun e he => by simp [Dev.disPending_eq_false hpend (h e he)]

/-! ### The commands -/

section
variable {s : State} {r : Req} {w : Waiting}

/-- A ring that is off is set up for PF0 in DRAM (R270). -/
theorem exec_engRingSet_pf0 {ring cls mask prio pool base log2 : Nat} (hw : Waits s r 0x0501 w) (hring : 64 ≤ ring)
    (hcls : cls ≤ 3) (hmask : mask &&& classMask cls = mask) (hprio : prio ≤ 3) (hbase : regionOf base = .dram)
    (hmem : inMemory base (128 * 2 ^ log2) = true) (hlog : 3 ≤ log2 ∧ log2 ≤ 12) (hoff : (s.dev.ring ring).dis = .off) :
    exec (.engRingSet r ring cls mask prio 1 pool base log2) s = .next { s with
      dev := answered s.clk w rOk (noted (s.dev.updRing ring fun y => { y with
        dis := .on, cls := cls, mask := mask, prio := prio, owner := 1, pool := pool, base := base, log := log2
        stall := false })) } := by
  refine onDev_serve_journalled hw (by decide) (.inl rfl) (fits_zero w) rfl ?_
  obtain ⟨hlo, hhi⟩ := hlog
  simp [Nat.not_lt.2 hring, Nat.not_lt.2 hcls, hmask, Nat.not_lt.2 hprio, hbase, Nat.min_eq_left hhi, hmem,
    Nat.not_lt.2 hlo, Nat.not_lt.2 hhi, hoff]

theorem exec_engRingStatus {ring : Nat} (hw : Waits s r 0x0502 w) (hfit : Fits w 15) :
    exec (.engRingStatus r ring) s = .next { s with
      dev := answered s.clk w (rOk [(2, (s.dev.ring ring).prod), (2, (s.dev.ring ring).fetch), (2, (s.dev.ring ring).done),
        (1, (s.dev.ring ring).state), (4, (s.dev.ring ring).bad), (4, (s.dev.ring ring).late)]) s.dev } :=
  onDev_serve_noFx hw (by decide) hfit rfl

/-- Engines in service are disabled, and the command is pending until they have drained (R268). -/
theorem exec_engDisable_on {mask mode : Nat} (hw : Waits s r 0x0503 w) (hfit : Fits w 8) (hmask : mask < 2 ^ 56)
    (hmode : mode ≤ 1) (hpend : s.dev.eng.pend = []) (hrings : s.dev.eng.rings = [])
    (hon : ∀ e ∈ ones 56 mask, (s.dev.engine e).dis = .on) :
    exec (.engDisable r mask mode) s = .next { s with
      dev := answered s.clk w (rAcc [(8, s.clk.atc)]) (noted
        (((ones 56 mask).foldl (fun d e => d.updEngine e (Engine.disable s.clk (mode = 1) w.tag)) s.dev).updEng fun y =>
          { y with pend := y.pend ++ [⟨mask, mode = 1, w.tag⟩] })) } := by
  have hfree := Dev.any_disPending_eq_false hpend fun e he => by rw [hon e he]; rfl
  refine onDev_serve_journalled hw (by decide) (.inr rfl) hfit (by rw [Dev.foldl_updEngine_eq]; rfl) ?_
  simp only [Nat.not_le.2 hmask, Nat.not_lt.2 hmode, hfree, Dev.disableEngines_of_noRings hrings, Bool.false_eq_true,
    if_false]

/-- Engines for which no disable is pending are enabled (R268). -/
theorem exec_engEnable_settled {mask : Nat} (hw : Waits s r 0x0504 w) (hmask : mask < 2 ^ 56) (hpend : s.dev.eng.pend = [])
    (hsettled : ∀ e ∈ ones 56 mask, (s.dev.engine e).dis.isEnding = false) :
    exec (.engEnable r mask) s = .next { s with
      dev := answered s.clk w rOk (noted
        ((ones 56 mask).foldl (fun d e => d.updEngine e fun x => { x with dis := .on }) s.dev)) } := by
  refine onDev_serve_journalled hw (by decide) (.inl rfl) (fits_zero w) (by rw [Dev.foldl_updEngine_eq]; rfl) ?_
  simp only [Nat.not_le.2 hmask, Dev.any_disPending_eq_false hpend hsettled, Bool.false_eq_true, if_false]

/-- DRAIN of a ring in service notes PROD at T_D (R268, R269). -/
theorem exec_engRingDisable_drain {ring : Nat} (hw : Waits s r 0x0505 w) (hfit : Fits w 8)
    (hon : (s.dev.ring ring).dis = .on) :
    exec (.engRingDisable r ring 0) s = .next { s with
      dev := answered s.clk w (rAcc [(8, s.clk.atc)]) (noted (s.dev.updRing ring fun y =>
        { y with dis := .ending false s.clk.atc w.tag, tdProd := y.prod })) } := by
  refine onDev_serve_journalled hw (by decide) (.inr rfl) hfit rfl ?_
  simp [hon]

theorem exec_engRingEnable_disabled {ring : Nat} (hw : Waits s r 0x0506 w) (hoff : (s.dev.ring ring).dis = .disabled) :
    exec (.engRingEnable r ring) s = .next { s with
      dev := answered s.clk w rOk (noted (s.dev.updRing ring fun y => { y with dis := .on })) } := by
  refine onDev_serve_journalled hw (by decide) (.inl rfl) (fits_zero w) rfl ?_
  simp [hoff]

theorem exec_engGetStats {engine n0 n1 n2 n3 n4 n5 n6 n7 : Nat} (hw : Waits s r 0x0507 w) (hfit : Fits w 48)
    (heng : engine < 56) (hstats : (s.dev.engine engine).byStatus = [n0, n1, n2, n3, n4, n5, n6, n7]) :
    exec (.engGetStats r engine) s = .next { s with
      dev := answered s.clk w (rOk [(8, (s.dev.engine engine).jobs), (8, (s.dev.engine engine).busy), (4, n0), (4, n1),
        (4, n2), (4, n3), (4, n4), (4, n5), (4, n6), (4, n7)]) s.dev } := by
  refine onDev_serve_noFx hw (by decide) hfit ?_
  simp [Nat.not_le.2 heng, hstats]

/-- The first partition, within the HARQ pool, overlaps none and is in no use (R265). -/
theorem exec_engHarqConfig_first {func base size : Nat} (hw : Waits s r 0x0508 w) (hfunc : func < 16) (hsize : size ≠ 0)
    (hlo : (s.dev.mem.map.getD 5 (0, 0)).1 ≤ base)
    (hhi : base + size ≤ (s.dev.mem.map.getD 5 (0, 0)).1 + (s.dev.mem.map.getD 5 (0, 0)).2) (hnone : s.dev.eng.harq = []) :
    exec (.engHarqConfig r func base size) s = .next { s with
      dev := answered s.clk w rOk (noted (s.dev.updEng fun y => { y with harq := [(func, (base, size))] })) } := by
  refine onDev_serve_journalled hw (by decide) (.inl rfl) (fits_zero w) rfl ?_
  have hin : ¬ (base < (s.dev.mem.map.getD 5 (0, 0)).1 ∨
      (s.dev.mem.map.getD 5 (0, 0)).1 + (s.dev.mem.map.getD 5 (0, 0)).2 < base + size) := by omega
  simp only [Nat.not_le.2 hfunc, hsize, hnone, Dev.updEng, if_false, tput, tfind, List.any_nil, Option.any_none,
    Bool.false_eq_true, ← Bool.decide_or, decide_eq_true_eq, hin]

/-- Without plans nothing is charged, so every CAP fits (R264). -/
theorem exec_engClassConfig_noPlans {cls cap : Nat} (hw : Waits s r 0x0509 w) (hcls : cls ≤ 3) (hcap : 50 ≤ cap ∧ cap ≤ 100)
    (hplans : s.dev.air.plans = []) :
    exec (.engClassConfig r cls cap) s = .next { s with
      dev := answered s.clk w rOk (noted (s.dev.updEng fun y => { y with caps := tset 90 y.caps cls cap })) } := by
  obtain ⟨hlo, hhi⟩ := hcap
  have hcharges : s.dev.charges = [] := by unfold Dev.charges; rw [hplans]; rfl
  have hfits : ∀ (d : Dev) acct now, d.acctFits [] acct now = true := fun _ _ _ => rfl
  refine onDev_serve_journalled hw (by decide) (.inl rfl) (fits_zero w) rfl ?_
  simp [Nat.not_lt.2 hcls, Nat.not_lt.2 hlo, Nat.not_lt.2 hhi, hcharges, hfits]

/-- An update of one engine starts with its disable, and no engine is left to do (R579). -/
theorem exec_updEngMicrocode_one {cls force e : Nat} (hw : Waits s r 0x1004 w) (hcls : cls ≤ 3) (he : e < 56)
    (hmask : 2 ^ e &&& classMask cls = 2 ^ e) (hidle : s.dev.mgmt.engUpd = none) (hrings : s.dev.eng.rings = []) :
    exec (.updEngMicrocode r cls (2 ^ e) force) s = .next { s with
      dev := answered s.clk w rAcc (noted ((s.dev.updMgmt fun m => { m with
        engUpd := some { cls := cls, todo := 0, done := 0, force := force != 0, tag := w.tag, cur := 2 ^ e } }).updEngine e
        (Engine.disable s.clk false 0))) } := by
  have hnext : ∀ d : Dev, d.eng.rings = [] →
      d.disableEngines s.clk [e] false 0 = d.updEngine e (Engine.disable s.clk false 0) :=
    fun d hd => Dev.disableEngines_of_noRings hd ..
  refine onDev_serve_journalled hw (by decide) (.inr rfl) (fits_zero w) rfl ?_
  simp [Nat.not_lt.2 hcls, hmask, hidle, hrings, Dev.nextEngUpdate, ones_two_pow he, hnext, Dev.updMgmt]

/-- The last engine of an update has drained: it is enabled, and the update is over (R579, R581). -/
theorem exec_updEngDone_last {u : EngUpd} (hu : s.dev.mgmt.engUpd = some u) (hlast : u.todo = 0)
    (hidle : ∀ e ∈ ones 56 u.cur, (s.dev.engine e).job = none) :
    exec .updEngDone s = .next { s with
      dev := (((ones 56 u.cur).foldl (fun d e => d.updEngine e fun x => { x with dis := .on }) s.dev).updMgmt fun m =>
        { m with engUpd := none }).evt0 s.clk 0x1081 u.tag [(0, 1, u.cls), (8, 8, u.done ||| u.cur)] } := by
  have hfree : ((ones 56 u.cur).any fun e => (s.dev.engine e).job.isSome) = false := by simpa using hidle
  show execUpdEngDone s = _
  unfold execUpdEngDone
  rw [onDev_eq]
  simp [hu, hlast, hfree, Dev.updMgmt]

end

/-- Settles O19: each command has its lemma above, and what it did to the engines is read off the block it leaves. -/
theorem engineCommands : Obligations.EngineCommands := by
  unfold Obligations.EngineCommands
  refine ⟨?ringSet, ?ringStatus, ?disable, ?enable, ?ringDisable, ?ringEnable, ?stats, ?harq, ?cap, ?microcode, ?done⟩
  case ringSet =>
    intro s r w ring cls mask prio owner pool base log2 hw hring hcls hmask hprio howner hbase hmem hlog hoff
    subst howner
    exact exec_engRingSet_pf0 hw hring hcls hmask hprio hbase hmem hlog hoff
  case ringStatus =>
    intro s r w ring hw hfit
    exact exec_engRingStatus hw hfit
  case disable =>
    intro s r w mask mode hw hfit hmask hmode hpend hrings hengines
    refine ⟨_, exec_engDisable_on hw hfit hmask hmode hpend hrings fun e he => (hengines e he).1,
      answered_host_congr s.clk w _ (by rw [Dev.foldl_updEngine_eq]; rfl), fun e he => ?named, fun e he => ?others, ?pend⟩
    case named =>
      rw [answered_engine, noted_engine, Dev.engine_updEng_pend, Dev.engine_foldl_updEngine (ones_nodup _ _), if_pos he,
        Engine.disable_idle (hengines e he).2]
    case others =>
      rw [answered_engine, noted_engine, Dev.engine_updEng_pend, Dev.engine_foldl_updEngine (ones_nodup _ _), if_neg he]
    case pend => rw [answered_eng, noted_eng, Dev.foldl_updEngine_eq]; simp [hpend]
  case enable =>
    intro s r w mask hw hmask hpend hsettled
    refine ⟨_, exec_engEnable_settled hw hmask hpend hsettled,
      answered_host_congr s.clk w _ (by rw [Dev.foldl_updEngine_eq]; rfl), fun e he => ?named, fun e he => ?others⟩ <;>
      rw [answered_engine, noted_engine, Dev.engine_foldl_updEngine (ones_nodup _ _)]
    case named => rw [if_pos he]
    case others => rw [if_neg he]
  case ringDisable =>
    intro s r w ring mode hw hfit hmode hon
    subst hmode
    exact exec_engRingDisable_drain hw hfit hon
  case ringEnable =>
    intro s r w ring hw hoff
    exact exec_engRingEnable_disabled hw hoff
  case stats =>
    intro s r w engine n0 n1 n2 n3 n4 n5 n6 n7 hw hfit heng hstats
    exact exec_engGetStats hw hfit heng hstats
  case harq =>
    intro s r w func base size hw hfunc hsize hlo hhi hnone
    exact exec_engHarqConfig_first hw hfunc hsize hlo hhi hnone
  case cap =>
    intro s r w cls cap hw hcls hcap hplans
    exact exec_engClassConfig_noPlans hw hcls hcap hplans
  case microcode =>
    intro s r w cls mask force e hw hcls he hmask hclass hidle hrings hjob
    subst hmask
    refine ⟨_, exec_updEngMicrocode_one hw hcls he hclass hidle hrings, answered_host_congr s.clk w _ rfl, ?_, ?_⟩
    · rw [answered_engUpd]; rfl
    · rw [answered_engine, noted_engine, Dev.engine_updEngine, if_pos rfl]
      exact congrArg Engine.dis (Engine.disable_idle hjob ..)
  case done =>
    intro s u hu hlast hidle
    refine ⟨_, exec_updEngDone_last hu hlast hidle, Dev.evt_engUpd .., fun e he => ?_⟩
    rw [Dev.engine_congr (Dev.evt0_eng ..), Dev.engine_updMgmt, Dev.engine_foldl_updEngine (ones_nodup _ _), if_pos he]

end Sys2Proof.Machine
end

section
/-! Streams, chains and sets: reads after updates, and what accesses to device memory leave alone. -/
namespace Sys2Proof.Machine

/-! ### Listed entries after updates -/

theorem tfind_tput {α : Type} (m : Tab α) (k i : Nat) (v : α) :
    tfind (tput m k v) i = if i = k then some v else tfind m i := by
  induction m with
  | nil => simp [tput, tfind]
  | cons e m ih =>
    obtain ⟨k', v'⟩ := e
    rcases Nat.lt_trichotomy k k' with hlt | rfl | hgt
    · simp [tput, tfind, hlt]
    · by_cases hi : i = k <;> simp [tput, tfind, hi]
    · simp only [tput, Nat.lt_asymm hgt, Nat.ne_of_gt hgt, if_false, tfind, ih]
      by_cases hi : i = k'
      · subst hi; simp [Nat.ne_of_lt hgt]
      · simp [hi]

theorem tfind_tdel {α : Type} (m : Tab α) (k i : Nat) : tfind (tdel m k) i = if i = k then none else tfind m i := by
  induction m with
  | nil => simp [tdel, tfind]
  | cons e m ih =>
    obtain ⟨k', v'⟩ := e
    by_cases hk : k = k'
    · subst hk
      simp only [tdel, if_true, ih, tfind]
      by_cases hi : i = k <;> simp [hi]
    · simp only [tdel, hk, if_false, tfind, ih]
      by_cases hi : i = k'
      · subst hi; simp [Ne.symm hk]
      · simp [hi]

/-! ### Streams, chains and sets after updates -/

theorem Dev.stream_congr {d e : Dev} (h : e.fe = d.fe) (n : Nat) : e.stream n = d.stream n := by unfold Dev.stream; rw [h]

theorem Dev.chain_congr {d e : Dev} (h : e.fe = d.fe) (n dir : Nat) : e.chain n dir = d.chain n dir := by
  unfold Dev.chain; rw [h]

theorem Dev.feSet_congr {d e : Dev} (h : e.fe = d.fe) (n dir : Nat) : e.feSet n dir = d.feSet n dir := by
  unfold Dev.feSet; rw [h]

theorem Dev.cmpSet_congr {d e : Dev} (h : e.fe = d.fe) (n dir : Nat) : e.cmpSet n dir = d.cmpSet n dir := by
  unfold Dev.cmpSet; rw [h]

theorem Dev.chain_updChain_same (d : Dev) (n dir : Nat) (f : Chain → Chain) :
    (d.updChain n dir f).chain n dir = f (d.chain n dir) := by
  simp only [Dev.chain, Dev.updChain, Dev.updFe_fe, tget_tmod, if_true]

/-- An update of a chain is what it makes of that chain. -/
theorem Dev.updChain_congr {d : Dev} {n dir : Nat} {f g : Chain → Chain} (h : f (d.chain n dir) = g (d.chain n dir)) :
    d.updChain n dir f = d.updChain n dir g := by
  have hmod : tmod {} d.fe.chains (chainKey n dir) f = tmod {} d.fe.chains (chainKey n dir) g := by
    unfold tmod; exact congrArg _ h
  simp only [Dev.updChain, Dev.updFe, hmod]

/-- The control fields of a shadowed set after an update of some set's. -/
theorem Dev.shadow_updShadow (d : Dev) (cls inst c i : Nat) (f : Shadow → Shadow) : (d.updShadow cls inst f).shadow c i =
    if c * 2 ^ 28 + i = cls * 2 ^ 28 + inst then f (d.shadow cls inst) else d.shadow c i := by
  simp only [Dev.shadow, Dev.updShadow, Dev.updAir_air, tget_tmod]

@[simp] theorem Inst.act_write {α : Type} (now land : Nat) (f : α → α) (i : Inst α) : (i.write now land f).act = i.act := rfl

/-- An accepted write is the last to land (R99). -/
@[simp] theorem Inst.latest_write {α : Type} (now land : Nat) (f : α → α) (i : Inst α) :
    (i.write now land f).latest = f i.latest := by
  simp [Inst.latest, Inst.write, landed]

@[simp] theorem Shadow.latest_touched (s : Shadow) (now : Nat) (arm : Bool) : (s.touched now arm).latest = arm := by
  simp [Shadow.latest, Shadow.touched, landed]

/-- Both directions' entries of a table, each updated once. -/
theorem tget_tmod_dirs {α : Type} [DecidableEq α] (z : α) (m : Tab α) (g : Nat → α → α) {n dir : Nat} (h : dir ≤ 1) :
    tget z ([0, 1].foldl (fun m q => tmod z m (chainKey n q) (g q)) m) (chainKey n dir) =
      g dir (tget z m (chainKey n dir)) := by
  simp only [List.foldl_cons, List.foldl_nil, tget_tmod, chainKey]
  obtain rfl | rfl : dir = 0 ∨ dir = 1 := by omega
  · simp
  · simp

/-- A write of a front-end set, in the directions it names and in the other (R99). -/
theorem Dev.feSet_feWrite (c : Clock) (d : Dev) (n : Nat) (dirs : List Nat) (f : FeSet → FeSet) {dir : Nat} (h : dir ≤ 1) :
    (d.feWrite c n dirs f).feSet n dir =
      Inst.write c.atc ((d.shadow 1 n).landing c.atc) (if dirs.contains dir then f else id) (d.feSet n dir) :=
  tget_tmod_dirs fePass d.fe.sets
    (fun q => Inst.write c.atc ((d.shadow 1 n).landing c.atc) (if dirs.contains q then f else id)) h

/-- A write of a compression set, in the directions it names and in the other (R99, R310). -/
theorem Dev.cmpSet_cmpWrite (c : Clock) (d : Dev) (n : Nat) (dirs : List Nat) (f : CmpSet → CmpSet) {dir : Nat} (h : dir ≤ 1) :
    (d.cmpWrite c n dirs f).cmpSet n dir =
      Inst.write c.atc ((d.shadow 2 n).landing c.atc) (if dirs.contains dir then f else id) (d.cmpSet n dir) :=
  tget_tmod_dirs cmpPass d.fe.cmp
    (fun q => Inst.write c.atc ((d.shadow 2 n).landing c.atc) (if dirs.contains q then f else id)) h

/-- A write of a front-end set leaves ARM clear (R97). -/
theorem Dev.shadow_feWrite (c : Clock) (d : Dev) (n : Nat) (dirs : List Nat) (f : FeSet → FeSet) :
    (d.feWrite c n dirs f).shadow 1 n = (d.shadow 1 n).touched c.atc false := by
  unfold Dev.feWrite
  rw [Dev.shadow_updShadow, if_pos rfl]
  rfl

/-! ### Answers leave the front end and the carriers -/

@[simp] theorem noted_fe (d : Dev) : (noted d).fe = d.fe := rfl
@[simp] theorem noted_shadow (d : Dev) (cls inst : Nat) : (noted d).shadow cls inst = d.shadow cls inst := rfl

@[simp] theorem answered_fe (c : Clock) (w : Waiting) (r : Reply) (d : Dev) : (answered c w r d).fe = d.fe := by
  unfold answered; rw [Dev.respond_dev]; rfl

@[simp] theorem answered_shadow (c : Clock) (w : Waiting) (r : Reply) (d : Dev) (cls inst : Nat) :
    (answered c w r d).shadow cls inst = d.shadow cls inst := by
  unfold answered; rw [Dev.respond_dev]; rfl

/-- What the answer and the note of a journalled command leave of the front end. -/
theorem answered_noted_fe (c : Clock) (w : Waiting) (r : Reply) (d : Dev) : (answered c w r (noted d)).fe = d.fe := by
  rw [answered_fe, noted_fe]

/-! ### Accesses to device memory (R373, R374) -/

/-- `e` differs from `d` at most in memory, in the host interface and in the management record. -/
structure MemoryOnly (d e : Dev) : Prop where
  dev : e = { d with host := e.host, mem := e.mem, mgmt := e.mgmt, cyc := e.cyc }

theorem MemoryOnly.refl (d : Dev) : MemoryOnly d d := ⟨rfl⟩

theorem MemoryOnly.trans {a b c : Dev} (h : MemoryOnly a b) (k : MemoryOnly b c) : MemoryOnly a c := ⟨by rw [k.dev, h.dev]⟩

theorem MemoryOnly.ite {p : Prop} [Decidable p] {d a b : Dev} (h : MemoryOnly d a) (k : MemoryOnly d b) :
    MemoryOnly d (if p then a else b) := by
  split
  · exact h
  · exact k

theorem MemoryOnly.fe {d e : Dev} (h : MemoryOnly d e) : e.fe = d.fe := by rw [h.dev]
theorem MemoryOnly.spk {d e : Dev} (h : MemoryOnly d e) : e.spk = d.spk := by rw [h.dev]
theorem MemoryOnly.tnd {d e : Dev} (h : MemoryOnly d e) : e.tnd = d.tnd := by rw [h.dev]

theorem MemoryOnly.of_hostOnly {d e : Dev} (h : HostOnly d e) : MemoryOnly d e := ⟨by rw [h.dev]⟩

theorem MemoryOnly.log (c : Clock) (d : Dev) (w b code : Nat) (data : List Byte) : MemoryOnly d (d.log c w b code data) :=
  ⟨Dev.log_eq ..⟩

theorem MemoryOnly.queueTest (d : Dev) (a : Nat) : MemoryOnly d (d.queueTest a) := by
  unfold Dev.queueTest
  exact .ite (.refl d) (.ite ⟨rfl⟩ ⟨rfl⟩)

theorem MemoryOnly.noteUe (c : Clock) (d : Dev) (cls a : Nat) : MemoryOnly d (d.noteUe c cls a) := by
  unfold Dev.noteUe
  split
  · exact ⟨rfl⟩
  · exact .trans (b := d.updMem _) ⟨rfl⟩ (.of_hostOnly (.evt c _ 0 0 0x0E90 0 _))

theorem MemoryOnly.readWord (c : Clock) (d : Dev) (cw cls rid : Nat) : MemoryOnly d (d.readWord c cw cls rid).2 := by
  unfold Dev.readWord
  extract_lets e corrected counted poisoned logged reported
  split
  · exact .refl d
  · exact .ite ⟨rfl⟩ (.trans ⟨rfl⟩ (.queueTest counted cw))
  · have hreported : MemoryOnly d reported := .trans (.trans (b := poisoned) ⟨rfl⟩ (.log ..)) (.noteUe c logged cls cw)
    exact .ite hreported (.trans hreported (.queueTest reported cw))

theorem MemoryOnly.writeWord (d : Dev) (cw a : Nat) (bs : List Byte) : MemoryOnly d (d.writeWord cw a bs).2 := by
  unfold Dev.writeWord
  dsimp only
  split
  · exact ⟨rfl⟩
  · split
    · exact ⟨rfl⟩
    · exact .trans (.ite ⟨rfl⟩ (.trans ⟨rfl⟩ (.queueTest _ cw))) ⟨rfl⟩
    · exact .ite ⟨rfl⟩ (.trans ⟨rfl⟩ (.queueTest _ cw))

theorem MemoryOnly.foldl {β : Type} {f : Bool × Dev → β → Bool × Dev} (h : ∀ o b, MemoryOnly o.2 (f o b).2) (l : List β)
    (o : Bool × Dev) : MemoryOnly o.2 (l.foldl f o).2 := by
  induction l generalizing o with
  | nil => exact .refl o.2
  | cons b l ih => exact .trans (h o b) (ih (f o b))

theorem MemoryOnly.checkRead (c : Clock) (d : Dev) (a n cls rid : Nat) : MemoryOnly d (d.checkRead c a n cls rid).2 := by
  refine .foldl (fun o cw => ?_) (codeWords a n) (false, d)
  exact .readWord c o.2 cw cls rid

theorem MemoryOnly.memWrite (d : Dev) (a : Nat) (bs : List Byte) : MemoryOnly d (d.memWrite a bs).2 := by
  refine .foldl (fun o cw => ?_) (codeWords a bs.length) (false, d)
  exact .writeWord o.2 cw a bs

@[simp] theorem Dev.putCells_host (d : Dev) (a : Nat) (bs : List Byte) : (d.putCells a bs).host = d.host := rfl

@[simp] theorem Dev.writeWord_host (d : Dev) (cw a : Nat) (bs : List Byte) : (d.writeWord cw a bs).2.host = d.host := by
  unfold Dev.writeWord
  dsimp only
  split
  · rfl
  · split <;> simp [apply_ite Dev.host]

/-- Nothing of a write is told to the host (R374). -/
@[simp] theorem Dev.memWrite_host (d : Dev) (a : Nat) (bs : List Byte) : (d.memWrite a bs).2.host = d.host := by
  refine foldl_keeps (fun o : Bool × Dev => o.2.host) (fun o cw => ?_) (codeWords a bs.length) (false, d)
  exact Dev.writeWord_host o.2 cw a bs

end Sys2Proof.Machine
end

section
/-! The course of a sample (R272, R274): no stage moves the place of a chain's entry, and what leaves a chain touches device
memory and the capture alone. -/
namespace Sys2Proof.Machine

/-! ### The stages leave the place of entry -/

/-- Where a chain's entry stands: the frame whose samples now enter, and how many have entered (R274, R292). -/
def Chain.place (k : Chain) : Option Nat × Nat := (k.frame, k.nIn)

@[simp] theorem Chain.place_detect (k : Chain) (tap now : Nat) (v : Int × Int) : (k.detect tap now v).place = k.place := rfl

@[simp] theorem Chain.place_setSt (k : Chain) (n : Nat) (l : List SectSt) : (k.setSt n l).place = k.place := by
  unfold Chain.setSt; split <;> rfl

@[simp] theorem Chain.place_sectStage (k : Chain) (now en : Nat) (v : Int × Int) :
    (k.sectStage now en v).2.place = k.place := by
  unfold Chain.sectStage
  extract_lets old active k1 inc new faded
  have hactive : active.place = k.place := Chain.place_setSt ..
  have hfaded : faded.place = active.place := Chain.place_setSt k1 ..
  split
  · exact hactive
  · exact hfaded.trans hactive

@[simp] theorem Chain.place_changes (k : Chain) (sects line : Bool) (old : FeSet) (l : List FeSet) :
    (k.changes sects line old l).place = k.place := by
  induction l generalizing k old with
  | nil => rfl
  | cons s l ih => exact (ih ..).trans rfl

@[simp] theorem Chain.place_turnBefore (k : Chain) (y : Stream) (dir t : Nat) : (k.turnBefore y dir t).place = k.place :=
  Chain.place_changes k ..

@[simp] theorem Chain.place_turnAfter (k : Chain) (y : Stream) (dir t : Nat) : (k.turnAfter y dir t).place = k.place :=
  Chain.place_changes k ..

@[simp] theorem place_delayStage (k : Chain) (v : Int × Int) : (delayStage k v).2.place = k.place := by
  unfold delayStage; split <;> rfl

@[simp] theorem place_outStage (now : Nat) (k : Chain) (v : Int × Int) : (outStage now k v).2.place = k.place := rfl

@[simp] theorem Chain.place_take (y : Stream) (k : Chain) (v : Int × Int) : (k.take y v).place = k.place := rfl

@[simp] theorem Chain.place_resample (car : Carrier) (y : Stream) (dir n : Nat) (k : Chain) :
    (k.resample car y dir n).place = k.place := by
  induction n generalizing k with
  | zero => rfl
  | succ n ih =>
    unfold Chain.resample
    split
    · rfl
    · dsimp only
      split
      · rfl
      · exact (ih _).trans rfl

@[simp] theorem place_beforeResampler (y : Stream) (dir now : Nat) (v : Int × Int) (k : Chain) (d : Dev) :
    (beforeResampler y dir now v k d).2.1.place = k.place := by
  unfold beforeResampler
  split <;> split <;> simp

@[simp] theorem place_afterResampler (y : Stream) (dir now : Nat) (v : Int × Int) (k : Chain) (d : Dev) :
    (afterResampler y dir now v k d).2.1.place = k.place := by
  unfold afterResampler
  split <;> split <;> simp

@[simp] theorem Chain.place_collect (car : Carrier) (y : Stream) (k : Chain) (v : Int × Int) :
    (k.collect car y v).place = k.place := by
  unfold Chain.collect
  dsimp only
  split <;> rfl

@[simp] theorem Chain.place_counted (y : Stream) (dir : Nat) (relay : Bool) (k : Chain) :
    (k.counted y dir relay).place = k.place := by
  unfold Chain.counted; split <;> rfl

/-! ### The stages draw free values, and change nothing else of the block -/

/-- `e` is `d` with free values drawn. -/
def FreeOnly (d e : Dev) : Prop := e = { d with free := e.free }

theorem FreeOnly.refl (d : Dev) : FreeOnly d d := rfl

theorem FreeOnly.trans {a b c : Dev} (h : FreeOnly a b) (k : FreeOnly b c) : FreeOnly a c := by
  unfold FreeOnly at *; rw [k, h]

theorem FreeOnly.host {d e : Dev} (h : FreeOnly d e) : e.host = d.host := by rw [h]
theorem FreeOnly.fe {d e : Dev} (h : FreeOnly d e) : e.fe = d.fe := by rw [h]

theorem FreeOnly.draw (d : Dev) : FreeOnly d (draw d).2 := rfl

theorem FreeOnly.gainWord (num : Int) (err : Nat) (d : Dev) : FreeOnly d (gainWord num err d).2 := by
  unfold Machine.gainWord between
  dsimp only
  split
  · split
    · exact .refl d
    · exact .draw d
  · exact .draw d

theorem FreeOnly.gainStage (s : FeSet) (v : Int × Int) (d : Dev) : FreeOnly d (gainStage s v d).2 :=
  .trans (.gainWord _ _ d) (.gainWord _ _ _)

theorem FreeOnly.beforeResampler (y : Stream) (dir now : Nat) (v : Int × Int) (k : Chain) (d : Dev) :
    FreeOnly d (beforeResampler y dir now v k d).2.2 := by
  unfold Machine.beforeResampler
  split
  · exact .gainStage ..
  · exact .refl d

theorem FreeOnly.afterResampler (y : Stream) (dir now : Nat) (v : Int × Int) (k : Chain) (d : Dev) :
    FreeOnly d (afterResampler y dir now v k d).2.2 := by
  unfold Machine.afterResampler
  split
  · exact .refl d
  · exact .gainStage ..

theorem FreeOnly.ratioFree (n m : Nat) (d : Dev) : FreeOnly d (ratioFree n m d).2 := by
  unfold Machine.ratioFree
  split
  · exact .refl d
  · exact .draw d

/-! ### Samples leave (R272) -/

/-- From `d` to `e` no sample has entered the chain, and nothing has reached the host, the spokes or the tandem group. -/
structure EntryKept (stream dir : Nat) (d e : Dev) : Prop where
  place : (e.chain stream dir).place = (d.chain stream dir).place
  host : e.host = d.host
  spk : e.spk = d.spk
  tnd : e.tnd = d.tnd

section
variable {stream dir : Nat}

theorem EntryKept.refl (d : Dev) : EntryKept stream dir d d := ⟨rfl, rfl, rfl, rfl⟩

theorem EntryKept.trans {a b d : Dev} (h : EntryKept stream dir a b) (k : EntryKept stream dir b d) :
    EntryKept stream dir a d :=
  ⟨k.place.trans h.place, k.host.trans h.host, k.spk.trans h.spk, k.tnd.trans h.tnd⟩

theorem EntryKept.of_freeOnly {d e : Dev} (h : FreeOnly d e) : EntryKept stream dir d e := by rw [h]; exact ⟨rfl, rfl, rfl, rfl⟩

theorem EntryKept.updChain {d : Dev} {f : Chain → Chain} (h : (f (d.chain stream dir)).place = (d.chain stream dir).place) :
    EntryKept stream dir d (d.updChain stream dir f) := ⟨by rw [Dev.chain_updChain_same, h], rfl, rfl, rfl⟩

/-- A sample stored in a capture reaches device memory and the capture alone (R36). -/
theorem EntryKept.captureSample (d : Dev) (i t rate : Nat) (v : Int × Int) :
    EntryKept stream dir d (d.captureSample i t rate v) := by
  unfold Dev.captureSample
  split
  · next q _ =>
    dsimp only
    split
    · exact .refl d
    · have stored := MemoryOnly.memWrite d (captureBase + q.stored) ((iqBytes [v]).take (q.frames * rate * 10 * 4 - q.stored))
      exact ⟨congrArg Chain.place (Dev.chain_congr stored.fe ..), Dev.memWrite_host .., stored.spk, stored.tnd⟩
  · exact .refl d

theorem EntryKept.leave (c : Clock) (d : Dev) (y : Stream) (car : Carrier) (v : Int × Int) :
    EntryKept stream dir d (d.leave c stream dir y car v) := by
  unfold Dev.leave
  extract_lets k t r out k' d'
  have hr : r.2.1.place = k.place := (place_afterResampler ..).trans (Chain.place_turnAfter ..)
  have hk' : k'.place = k.place := by
    unfold k'
    split
    · exact (Chain.place_collect ..).trans hr
    · exact hr
  have hdrawn : EntryKept stream dir d r.2.2 := .of_freeOnly (.afterResampler ..)
  have hd' : EntryKept stream dir d d' :=
    hdrawn.trans (.updChain ((Chain.place_counted ..).trans (hk'.trans hdrawn.place.symm)))
  split
  · exact hd'
  · exact hd'.trans (.captureSample ..)

theorem EntryKept.leaveAll (c : Clock) (y : Stream) (car : Carrier) (n : Nat) (d : Dev) :
    EntryKept stream dir d (Dev.leaveAll c stream dir y car n d) := by
  induction n generalizing d with
  | zero => exact .refl d
  | succ n ih =>
    unfold Dev.leaveAll
    dsimp only
    split
    · exact .refl d
    · split
      · exact .refl d
      · exact .trans (.trans (.updChain rfl) (.leave ..)) (ih _)

end

/-! ### A sample enters (R274) -/

/-- The next sample of a chain, of frame `f`, is due, and nothing that comes before it is (R274, R284, R292, R295). -/
structure EntryDue (c : Clock) (d : Dev) (stream dir : Nat) (y : Stream) (car : Carrier) (f : Nat) : Prop where
  found : d.stream stream = some y
  carrier : d.carrierOf y = some car
  begun : (d.chain stream dir).frame = some f
  inFrame : (d.chain stream dir).nIn < y.rateIn dir * 10
  due : entryAt car y dir f (d.chain stream dir).nIn ≤ c.atc
  noEnd : (d.chain stream dir).endDue = false
  noAnchor : (d.chain stream dir).anchorDue y dir = false

/-- From `d` to `e` sample `n` of frame `f` has entered the chain. Only the read of a transmit sample can tell the host anything
(R376). -/
structure SampleEntered (stream dir f n : Nat) (d e : Dev) : Prop where
  place : (e.chain stream dir).place = (some f, n + 1)
  spk : e.spk = d.spk
  tnd : e.tnd = d.tnd
  host : dir ≠ 0 → e.host = d.host

theorem MemoryOnly.bufferRead (c : Clock) (d : Dev) (stream buf : Nat) : MemoryOnly d (d.bufferRead c stream buf).2 := by
  unfold Dev.bufferRead
  split
  · exact .refl d
  · split
    · exact .refl d
    · exact .checkRead ..

theorem SampleEntered.of_due {c : Clock} {d : Dev} {stream dir f : Nat} {y : Stream} {car : Carrier}
    (h : EntryDue c d stream dir y car f) (present : Bool) (re im buf : Nat) :
    SampleEntered stream dir f (d.chain stream dir).nIn d (d.sampleEntry c stream dir present re im buf) := by
  obtain ⟨hy, hcar, hf, hin, hdue, hend, hanchor⟩ := h
  unfold Dev.sampleEntry
  simp -zeta only [hy, hcar, hf]
  extract_lets k n t runs read present' d₁ v d₂ entered counted r half stages halved passed
  rw [if_neg (by simp [n, k, Nat.not_le.2 hin, Nat.not_lt.2 hdue, hend, hanchor])]
  have hread : MemoryOnly d d₁ := by
    unfold d₁ read
    rw [apply_ite Prod.snd]
    exact .ite (.bufferRead ..) (.refl d)
  have hsilent : dir ≠ 0 → d₁.host = d.host := fun hdir => by simp [d₁, read, hdir]
  have hd₂ : d₂ = { d₁ with fe := d₂.fe } := by unfold d₂; split <;> rfl
  have hplace : counted.place = (some f, n + 1) := by
    unfold counted
    split <;> exact Prod.ext hf rfl
  have hstages : stages.place = counted.place := (place_beforeResampler ..).trans (Chain.place_turnBefore ..)
  have hpassed : passed.place = stages.place := by
    unfold passed
    split
    · exact (Chain.place_resample ..).trans (Chain.place_take ..)
    · rfl
  have hdrawn : EntryKept stream dir d₂ r.2.2 := .of_freeOnly (.beforeResampler ..)
  have hleft := EntryKept.leaveAll (stream := stream) (dir := dir) c y car (passed.ready.length + 1)
    (r.2.2.updChain stream dir fun _ => passed)
  refine ⟨hleft.place.trans ?_, hleft.spk.trans (hdrawn.spk.trans ?_), hleft.tnd.trans (hdrawn.tnd.trans ?_),
    fun hdir => hleft.host.trans (hdrawn.host.trans ?_)⟩
  · rw [Dev.chain_updChain_same, hpassed, hstages, hplace]
  · exact (congrArg Dev.spk hd₂).trans hread.spk
  · exact (congrArg Dev.tnd hd₂).trans hread.tnd
  · exact (congrArg Dev.host hd₂).trans (hsilent hdir)

/-- A stream that no map names and that is no tandem stream has no spoke for its symbols (R408, R432, R555). -/
theorem Dev.sendSymbol_unmapped {d : Dev} {stream : Nat} (hmaps : d.spk.maps = [])
    (htandem : tfind d.tnd.streams stream = none) (c : Clock) (y : Stream) (q : TxSym) : d.sendSymbol c stream y q = d := by
  unfold Dev.sendSymbol
  simp only [hmaps, List.foldl_nil, htandem]

/-- A fold whose every step gives its start again gives its start. -/
theorem foldl_const {α β : Type} {f : α → β → α} {a : α} (h : ∀ b, f a b = a) (l : List β) : l.foldl f a = a := by
  induction l with
  | nil => rfl
  | cons b l ih => rw [List.foldl_cons, h b, ih]

/-- The finished symbols of such a stream leave its chain and reach nothing. -/
theorem EntryKept.flushSymbols_unmapped {d : Dev} {stream : Nat} (hmaps : d.spk.maps = [])
    (htandem : tfind d.tnd.streams stream = none) (c : Clock) : EntryKept stream 0 d (d.flushSymbols c stream) := by
  unfold Dev.flushSymbols
  split
  · exact .refl d
  · next y _ =>
    extract_lets qs d'
    have htaken : EntryKept stream 0 d d' := .updChain rfl
    have hsent : ∀ car : Carrier, qs.foldl (fun d q =>
        if d.slotRuns y.carrier car q.frame q.slot then d.sendSymbol c stream y q else d) d' = d' := fun car =>
      foldl_const (fun q => by rw [Dev.sendSymbol_unmapped (d := d') hmaps htandem, ite_self]) qs
    split
    · exact .refl d
    · split
      · exact htaken
      · split
        · exact htaken
        · rw [hsent]; exact htaken

end Sys2Proof.Machine
end

section
/-! Statement O20: the commands of streams, cassettes and compression, and the entry of samples (R274-R279, R284-R288, R293,
R298, R316). -/
namespace Sys2Proof.Machine

/-- A function that sees the owner of a stream sees the stream (R44, R639). -/
theorem Dev.seesStream_of_sees {d : Dev} {x : Ctx} {stream : Nat} {y : Stream} (hy : d.stream stream = some y)
    (h : Sees x.func y.owner) : d.seesStream x stream = true := by
  simp [Dev.seesStream, hy, Ctx.sees_of_sees h]

theorem dirsOf_of_le_one {dir : Nat} (h : dir ≤ 1) : dirsOf dir = [dir] := if_neg (by omega)

/-- A command that is not journalled has the effect of its handler alone (R563). -/
theorem onDev_serve_unjournalled {s : State} {r : Req} {code : Nat} {w : Waiting} {h : Ctx → Dev → Reply × Dev} {rep : Reply}
    {d : Dev} (hw : Waits s r code w) (hj : journalled code = false) (hfit : Fits w rep.payload.length)
    (hhost : d.host = s.dev.host)
    (ho : h { page := w.page, func := w.func, tag := w.tag, rung := w.rung, clk := s.clk } s.dev = (rep, d)) :
    onDev (serve code r h) s = .next { s with dev := answered s.clk w rep d } := by
  have he : effected code (rep, d) = d := by unfold effected; simp [hj]
  rw [onDev_serve_alone hw ho hfit hhost, he]

/-- Without a CASSETTE_SHIFT due for its stream a front-end command is served (R287). -/
theorem afterShifts_of_not_due {s : State} {stream : Nat} (h : s.dev.shiftDue s.clk stream = false) (f : State → Out) :
    afterShifts stream f s = f s := by
  unfold afterShifts; rw [h]; rfl

/-! ### Streams (R275-R277) -/

/-- The block with stream `y` configured as `stream`, its sets as after reset and its chains afresh (R277, R283). -/
def Dev.configured (d : Dev) (stream : Nat) (y : Stream) : Dev :=
  ((d.resetStreamSets stream).updFe fun f => { f with streams := tput f.streams stream y }).restartChains stream

theorem Dev.stream_configured (d : Dev) (stream : Nat) (y : Stream) (n : Nat) :
    (d.configured stream y).stream n = if n = stream then some y else d.stream n :=
  tfind_tput d.fe.streams stream n y

/-- Both classes of a stream's shadowed sets have their reset control fields (R277). -/
theorem Dev.shadow_resetStreamSets (d : Dev) (stream : Nat) :
    (d.resetStreamSets stream).shadow 1 stream = {} ∧ (d.resetStreamSets stream).shadow 2 stream = {} := by
  unfold Dev.resetStreamSets
  simp only [Dev.shadow_updShadow]
  exact ⟨by simp, by simp⟩

section
variable {s : State} {r : Req} {w : Waiting}

/-- A new stream of a carrier that its function owns, with room for it and for its charge (R276). -/
theorem exec_feStreamSet_new {stream carrier fin fout hb rs side leadTx lagRx : Nat} {k : Carrier} (hw : Waits s r 0x0601 w)
    (hstream : stream < 2048) (hnew : s.dev.stream stream = none) (hk : s.dev.carrier carrier = some k)
    (howner : k.owner = w.func) (hrates : rateFault fin fout hb rs = none) (hside : side ≤ 1)
    (hlead : 19661 ≤ leadTx ∧ leadTx ≤ 983040) (hlag : 9831 ≤ lagRx ∧ lagRx ≤ 983040)
    (hplans : s.dev.hasPlans carrier = false) (hroom : s.dev.fe.streams.length < 2048)
    (hcharge : s.dev.standing (fun _ => true) + k.charge ≤ 65536) :
    exec (.feStreamSet r stream carrier fin fout hb rs side leadTx lagRx) s = .next { s with
      dev := answered s.clk w rOk (noted (s.dev.configured stream
        { owner := w.func, carrier := carrier, fin := fin, fout := fout, hb := hb, rs := rs, side := side, leadTx := leadTx
          lagRx := lagRx })) } := by
  obtain ⟨hlead₁, hlead₂⟩ := hlead
  obtain ⟨hlag₁, hlag₂⟩ := hlag
  refine onDev_serve_journalled hw (by decide) (.inl rfl) (fits_zero w) rfl ?_
  simp [Nat.not_le.2 hstream, hnew, hk, howner, hrates, Nat.not_lt.2 hside, Nat.not_lt.2 hlead₁, Nat.not_lt.2 hlead₂,
    Nat.not_lt.2 hlag₁, Nat.not_lt.2 hlag₂, hplans, Nat.not_le.2 hroom, Nat.not_lt.2 hcharge, Dev.configured]

/-- The block without stream `stream`: neither its sets nor its LOOKASIDE bindings stay (R277). -/
def Dev.unconfigured (d : Dev) (stream : Nat) : Dev :=
  ((d.updFe fun f => { f with streams := tdel f.streams stream }).resetStreamSets stream).updDevmode fun m =>
    { m with look := tdel (tdel m.look (chainKey stream 0)) (chainKey stream 1) }

theorem Dev.stream_unconfigured (d : Dev) (stream n : Nat) :
    (d.unconfigured stream).stream n = if n = stream then none else d.stream n :=
  tfind_tdel d.fe.streams stream n

/-- In RELAY no charge is in force that a removal could release (R16, R276). -/
theorem exec_feStreamRemove_relay {stream : Nat} {y : Stream} (hw : Waits s r 0x0609 w) (hfit : Fits w 2)
    (hy : s.dev.stream stream = some y) (hsees : Sees w.func y.owner) (hrest : s.dev.streamBusy stream y = false)
    (hmode : s.dev.devmode.mode = .relay) :
    exec (.feStreamRemove r stream) s = .next { s with
      dev := answered s.clk w (rOk [(2, 0)]) (noted (s.dev.unconfigured stream)) } := by
  refine onDev_serve_journalled hw (by decide) (.inl rfl) hfit rfl ?_
  simp [hy, Ctx.sees_of_sees, hsees, hrest, hmode, Dev.unconfigured]

/-! ### Shadowed sets (R278, R310, R316) -/

/-- A write of GAIN alone (R278). -/
theorem exec_feShadowWrite_gain {stream dir sectEn gain phase dlyInt dlyFrac mute : Nat} {y : Stream}
    (hw : Waits s r 0x0602 w) (hy : s.dev.stream stream = some y) (hsees : Sees w.func y.owner) (hdir : dir ≤ 1) :
    exec (.feShadowWrite r stream dir 2 sectEn gain phase dlyInt dlyFrac mute) s = .next { s with
      dev := answered s.clk w rOk (noted (s.dev.feWrite s.clk stream [dir] fun x => { x with gain := gain })) } := by
  refine onDev_serve_journalled hw (by decide) (.inl rfl) (fits_zero w) rfl ?_
  simp [Dev.seesStream_of_sees hy, hsees, dirsOf_of_le_one hdir, bit, show ¬ 2 < dir by omega]

/-- A write of MODE alone, a mode that exists, breaks no range (R310, R640). -/
theorem cmpFault_mode {m : CmpSet} (h : m.mode ≤ 2) : cmpFault 1 m = none := by
  simp [cmpFault, bit, Nat.not_lt.2 h]

theorem exec_cmpShadowWrite_mode {stream dir mode m mMin mMax bound : Nat} {y : Stream} (hw : Waits s r 0x0690 w)
    (hy : s.dev.stream stream = some y) (hsees : Sees w.func y.owner) (hdir : dir ≤ 1) (hmode : mode ≤ 2) :
    exec (.cmpShadowWrite r stream dir 1 mode m mMin mMax bound) s = .next { s with
      dev := answered s.clk w rOk (noted (s.dev.cmpWrite s.clk stream [dir] fun x => { x with mode := mode })) } := by
  have hmerge : cmpMerge 1 mode m mMin mMax bound = fun x => { x with mode := mode } := by
    funext x; simp [cmpMerge, bit]
  have hfault : ∀ x : CmpSet, cmpFault 1 { x with mode := mode } = none := fun x => cmpFault_mode hmode
  refine onDev_serve_journalled hw (by decide) (.inl rfl) (fits_zero w) rfl ?_
  simp [Dev.seesStream_of_sees hy, hsees, dirsOf_of_le_one hdir, hmerge, hfault, show ¬ 2 < dir by omega]

/-! ### Cassettes (R283-R288) -/

/-- The cassette at rest takes its coefficients (R288). -/
theorem exec_feCassetteWrite_resting {stream dir mask : Nat} {coefs : List Nat} {y : Stream} (hw : Waits s r 0x0603 w)
    (hy : s.dev.stream stream = some y) (hsees : Sees w.func y.owner) (hdir : dir ≤ 1)
    (hdue : s.dev.shiftDue s.clk stream = false) (hlen : coefs.length = 5 * (ones 8 mask).length)
    (hactive : (s.dev.chain stream dir).active = 0) (hfade : (s.dev.chain stream dir).fade = none)
    (hheld : (s.dev.chain stream dir).held = none) :
    exec (.feCassetteWrite r stream dir 1 mask coefs) s = .next { s with
      dev := answered s.clk w rOk (noted (s.dev.updChain stream dir fun k =>
        { k with casB := putCoefs k.casB (ones 8 mask) coefs })) } := by
  refine (afterShifts_of_not_due hdue _).trans (onDev_serve_journalled hw (by decide) (.inl rfl) (fits_zero w) rfl ?_)
  simp [Dev.seesStream_of_sees hy, hsees, Nat.not_lt.2 hdir, hlen, hactive, hfade, hheld]

/-- A shift to the other cassette, where no fade is in progress, starts one (R284, R286). -/
theorem Chain.shift_starts {k : Chain} {now target len : Nat} {notify : Option Nat} (htarget : target ≤ 1)
    (hother : k.active ≠ target) (hfade : k.fade = none) (hheld : k.held = none) :
    k.shift now target len notify = some (0, k.startFade len notify (now + 2)) := by
  simp [Chain.shift, Chain.settled, hfade, hheld, hother.symm, show target ≠ 0xFF by omega]

theorem exec_feShift_starts {stream dir target len : Nat} {y : Stream} (hw : Waits s r 0x0604 w) (hfit : Fits w 1)
    (hy : s.dev.stream stream = some y) (hsees : Sees w.func y.owner) (hdir : dir ≤ 1) (htarget : target ≤ 1)
    (hlen : 16 ≤ len ∧ len ≤ 4096) (hdue : s.dev.shiftDue s.clk stream = false)
    (hfade : (s.dev.chain stream dir).fade = none) (hheld : (s.dev.chain stream dir).held = none)
    (hother : (s.dev.chain stream dir).active ≠ target) :
    exec (.feShift r stream dir target len 1) s = .next { s with
      dev := answered s.clk w (rOk [(1, 0)]) (noted (s.dev.updChain stream dir fun k =>
        k.startFade len (some w.tag) (s.clk.atc + 2))) } := by
  obtain ⟨hlen₁, hlen₂⟩ := hlen
  have hshift := Chain.shift_starts (now := s.clk.atc) (len := len) (notify := some w.tag) htarget hother hfade hheld
  have hupd : s.dev.updChain stream dir (fun _ => (s.dev.chain stream dir).startFade len (some w.tag) (s.clk.atc + 2)) =
      s.dev.updChain stream dir fun k => k.startFade len (some w.tag) (s.clk.atc + 2) := Dev.updChain_congr rfl
  refine (afterShifts_of_not_due hdue _).trans (onDev_serve_journalled hw (by decide) (.inl rfl) hfit rfl ?_)
  simp [Dev.seesStream_of_sees hy, hsees, dirsOf_of_le_one hdir, show ¬ 2 < dir by omega, Nat.not_lt.2 htarget,
    Nat.not_lt.2 hlen₁, Nat.not_lt.2 hlen₂, Dev.shiftAll, hshift, hupd]

/-- The end of a fade that nobody waits for makes the other cassette active (R284). -/
theorem exec_cassetteDone_quiet {stream dir : Nat} {f : Fade} (hf : (s.dev.chain stream dir).fade = some f)
    (hend : f.len ≤ f.n) (hquiet : f.notify = none) (hheld : (s.dev.chain stream dir).held = none) :
    exec (.cassetteDone stream dir) s = .next { s with dev := s.dev.updChain stream dir fun k =>
      { (k.setSt k.active zeroSect) with active := 1 - k.active, fade := none, held := none } } := by
  show execCassetteDone stream dir s = _
  unfold execCassetteDone
  rw [onDev_eq]
  simp only [hf, Nat.not_lt.2 hend, if_false, hheld, hquiet]
  rfl

/-! ### Status, delay and counts (R293, R298, R316) -/

theorem exec_feStatus_settled {stream dir : Nat} {y : Stream} (hw : Waits s r 0x0605 w) (hfit : Fits w 14)
    (hy : s.dev.stream stream = some y) (hsees : Sees w.func y.owner) (hdir : dir ≤ 1)
    (hfade : (s.dev.chain stream dir).fade = none) (hheld : (s.dev.chain stream dir).held = none) :
    exec (.feStatus r stream dir) s = .next { s with
      dev := answered s.clk w (rOk [(1, (s.dev.chain stream dir).active), (2, 0xFFFF), (1, 0xFF), (2, 0),
        (4, (s.dev.chain stream dir).sat), (4, (s.dev.chain stream dir).gaps)]) s.dev } := by
  refine onDev_serve_noFx hw (by decide) hfit ?_
  simp [Dev.seesStream_of_sees hy, hsees, Nat.not_lt.2 hdir, hfade, hheld]

/-- FE_GET_DELAY answers a fixed part, a configured part and their sum; only free values are drawn for it (R293). -/
theorem exec_feGetDelay_parts {stream dir : Nat} {y : Stream} (hw : Waits s r 0x0608 w) (hfit : Fits w 24)
    (hy : s.dev.stream stream = some y) (hsees : Sees w.func y.owner) (hdir : dir ≤ 1) :
    ∃ f g d, FreeOnly s.dev d ∧ exec (.feGetDelay r stream dir) s = .next { s with
      dev := answered s.clk w (rOk [(8, f), (8, g), (8, f + g)]) d } := by
  refine ⟨?fixed, ?configured, ?drawn, ?free, onDev_serve_unjournalled hw (by decide) hfit ?host ?delay⟩
  case delay =>
    simp only [Dev.seesStream_of_sees hy, hsees, Nat.not_lt.2 hdir, hy, Bool.not_true, Bool.false_eq_true, if_false]
    rfl
  case free => exact .trans (.ratioFree ..) (.ratioFree ..)
  case host => exact FreeOnly.host (.trans (.ratioFree ..) (.ratioFree ..))

theorem exec_cmpStatus {stream dir : Nat} {y : Stream} (hw : Waits s r 0x0691 w) (hfit : Fits w 34)
    (hy : s.dev.stream stream = some y) (hsees : Sees w.func y.owner) (hdir : dir ≤ 1) :
    exec (.cmpStatus r stream dir) s = .next { s with
      dev := answered s.clk w (rOk [(1, (s.dev.cmpSet stream dir).act.mode), (1, (s.dev.cmpSet stream dir).act.m),
        (1, (s.dev.cmpSet stream dir).act.mMin), (1, (s.dev.cmpSet stream dir).act.mMax),
        (2, (s.dev.cmpSet stream dir).act.bound), (8, (s.dev.chain stream dir).blocks), (8, (s.dev.chain stream dir).sumM),
        (4, (s.dev.chain stream dir).boundMiss), (4, (s.dev.chain stream dir).cmpSat),
        (4, (s.dev.chain stream dir).badHdr)]) s.dev } := by
  refine onDev_serve_noFx hw (by decide) hfit ?_
  simp [Dev.seesStream_of_sees hy, hsees, Nat.not_lt.2 hdir]

theorem exec_cmpClear {stream dir : Nat} {y : Stream} (hw : Waits s r 0x0692 w) (hy : s.dev.stream stream = some y)
    (hsees : Sees w.func y.owner) (hdir : dir ≤ 1) :
    exec (.cmpClear r stream dir) s = .next { s with
      dev := answered s.clk w rOk (noted (s.dev.updChain stream dir fun k =>
        { k with blocks := 0, sumM := 0, boundMiss := 0, cmpSat := 0, badHdr := 0 })) } := by
  refine onDev_serve_journalled hw (by decide) (.inl rfl) (fits_zero w) rfl ?_
  simp [Dev.seesStream_of_sees hy, hsees, dirsOf_of_le_one hdir, show ¬ 2 < dir by omega]

/-! ### Samples (R274) -/

theorem exec_chainSampleEntry_receive {stream re im buf f : Nat} {present : Bool} {y : Stream} {car : Carrier}
    (h : EntryDue s.clk s.dev stream 1 y car f) : ∃ t, exec (.chainSampleEntry stream 1 present re im buf) s = .next t ∧
      (t.dev.chain stream 1).place = (some f, (s.dev.chain stream 1).nIn + 1) ∧ t.dev.host = s.dev.host :=
  have entered := SampleEntered.of_due h present re im buf
  ⟨_, rfl, entered.place, entered.host Nat.one_ne_zero⟩

/-- What a transmit chain finishes with the sample leaves it, and reaches nothing where no spoke carries the stream. -/
theorem exec_chainSampleEntry_transmit {stream re im buf f : Nat} {present : Bool} {y : Stream} {car : Carrier}
    (h : EntryDue s.clk s.dev stream 0 y car f) (hmaps : s.dev.spk.maps = [])
    (htandem : tfind s.dev.tnd.streams stream = none) :
    ∃ t, exec (.chainSampleEntry stream 0 present re im buf) s = .next t ∧
      (t.dev.chain stream 0).place = (some f, (s.dev.chain stream 0).nIn + 1) :=
  have entered := SampleEntered.of_due h present re im buf
  have flushed := EntryKept.flushSymbols_unmapped (by rw [entered.spk]; exact hmaps) (by rw [entered.tnd]; exact htandem) s.clk
  ⟨_, rfl, flushed.place.trans entered.place⟩

end

/-- Settles O20: each command has its lemma above, and the sets it wrote are read off the block it leaves. -/
theorem frontEndStreams : Obligations.FrontEndStreams := by
  unfold Obligations.FrontEndStreams
  refine ⟨?set, ?remove, ?gain, ?cassette, ?shift, ?done, ?status, ?delay, ?receive, ?transmit, ?mode, ?counts, ?clear⟩
  case set =>
    intro s r w stream carrier fin fout hb rs side leadTx lagRx k hw hstream hnew hk howner hrates hside hlead hlag hplans hroom
      hcharge
    refine ⟨_, exec_feStreamSet_new hw hstream hnew hk howner hrates hside hlead hlag hplans hroom hcharge,
      answered_host_congr s.clk w _ rfl, ?_, fun n hn => ?_, ?_, ?_⟩
    · rw [Dev.stream_congr (answered_noted_fe ..), Dev.stream_configured, if_pos rfl]
    · rw [Dev.stream_congr (answered_noted_fe ..), Dev.stream_configured, if_neg hn]
    · rw [answered_shadow]; exact (s.dev.shadow_resetStreamSets stream).1
    · rw [answered_shadow]; exact (s.dev.shadow_resetStreamSets stream).2
  case remove =>
    intro s r w stream y hw hfit hy hsees hrest hmode
    refine ⟨_, exec_feStreamRemove_relay hw hfit hy hsees hrest hmode, answered_host_congr s.clk w _ rfl, ?_, fun n hn => ?_⟩
    · rw [Dev.stream_congr (answered_noted_fe ..), Dev.stream_unconfigured, if_pos rfl]
    · rw [Dev.stream_congr (answered_noted_fe ..), Dev.stream_unconfigured, if_neg hn]
  case gain =>
    intro s r w stream dir mask sectEn gain phase dlyInt dlyFrac mute y hw hy hsees hdir hmask
    subst hdir hmask
    refine ⟨_, exec_feShadowWrite_gain hw hy hsees (Nat.zero_le 1), answered_host_congr s.clk w _ rfl, ?_, ?_, ?_, ?_⟩
    · rw [Dev.feSet_congr (answered_noted_fe ..), Dev.feSet_feWrite _ _ _ _ _ (Nat.zero_le 1), Inst.latest_write]; rfl
    · rw [Dev.feSet_congr (answered_noted_fe ..), Dev.feSet_feWrite _ _ _ _ _ (Nat.zero_le 1), Inst.act_write]
    · rw [Dev.feSet_congr (answered_noted_fe ..), Dev.feSet_feWrite _ _ _ _ _ (Nat.le_refl 1), Inst.latest_write]; rfl
    · rw [answered_shadow, noted_shadow, Dev.shadow_feWrite, Shadow.latest_touched]
  case cassette =>
    intro s r w stream dir cas mask coefs y hw hy hsees hdir hcas hdue hlen hactive hfade hheld
    subst hcas
    exact exec_feCassetteWrite_resting hw hy hsees hdir hdue hlen hactive hfade hheld
  case shift =>
    intro s r w stream dir target len notify y hw hfit hy hsees hdir htarget hlen hnotify hdue hfade hheld hother
    subst hnotify
    exact exec_feShift_starts hw hfit hy hsees hdir htarget hlen hdue hfade hheld hother
  case done =>
    intro s stream dir f hf hend hquiet hheld
    exact exec_cassetteDone_quiet hf hend hquiet hheld
  case status =>
    intro s r w stream dir y k hw hfit hy hsees hdir hk hfade hheld
    subst hk
    exact exec_feStatus_settled hw hfit hy hsees hdir hfade hheld
  case delay =>
    intro s r w stream dir y hw hfit hy hsees hdir
    obtain ⟨f, g, d, hd, hexec⟩ := exec_feGetDelay_parts hw hfit hy hsees hdir
    have hhost : d.host = s.dev.host := hd.host
    refine ⟨_, hexec, answered_waiting (hhost.symm ▸ hw.1), ?_, f, g, answered_host_congr s.clk w _ hhost⟩
    rw [answered_fe, hd.fe]
  case receive =>
    intro s stream dir re im buf f present y car k hdir hy hcar hk hf hin hdue hend hanchor
    subst hdir hk
    obtain ⟨t, hexec, hplace, hhost⟩ := exec_chainSampleEntry_receive (re := re) (im := im) (buf := buf) (present := present)
      ⟨hy, hcar, hf, hin, hdue, hend, hanchor⟩
    exact ⟨t, hexec, congrArg Prod.snd hplace, congrArg Prod.fst hplace, hhost⟩
  case transmit =>
    intro s stream dir re im buf f present y car k hdir hy hcar hk hf hin hdue hend hanchor hmaps htandem
    subst hdir hk
    obtain ⟨t, hexec, hplace⟩ := exec_chainSampleEntry_transmit (re := re) (im := im) (buf := buf) (present := present)
      ⟨hy, hcar, hf, hin, hdue, hend, hanchor⟩ hmaps htandem
    exact ⟨t, hexec, congrArg Prod.snd hplace, congrArg Prod.fst hplace⟩
  case mode =>
    intro s r w stream dir mask mode m mMin mMax bound y hw hy hsees hdir hmask hmode
    subst hdir hmask
    refine ⟨_, exec_cmpShadowWrite_mode hw hy hsees (Nat.le_refl 1) hmode, answered_host_congr s.clk w _ rfl, ?_, ?_, ?_, ?_⟩
    · rw [Dev.cmpSet_congr (answered_noted_fe ..), Dev.cmpSet_cmpWrite _ _ _ _ _ (Nat.le_refl 1), Inst.latest_write]; rfl
    · rw [Dev.cmpSet_congr (answered_noted_fe ..), Dev.cmpSet_cmpWrite _ _ _ _ _ (Nat.le_refl 1), Inst.act_write]
    · rw [Dev.cmpSet_congr (answered_noted_fe ..), Dev.cmpSet_cmpWrite _ _ _ _ _ (Nat.zero_le 1), Inst.latest_write]; rfl
    · rw [answered_noted_fe]; rfl
  case counts =>
    intro s r w stream dir y a k hw hfit hy hsees hdir ha hk
    subst ha hk
    exact exec_cmpStatus hw hfit hy hsees hdir
  case clear =>
    intro s r w stream dir y hw hy hsees hdir
    exact exec_cmpClear hw hy hsees hdir

end Sys2Proof.Machine
end

section
/-! Statement O21: the detectors, and the frame boundary of a chain (R274, R292, R294-R296, R299). -/
namespace Sys2Proof.Machine

section
variable {s : State} {r : Req} {w : Waiting}

/-- The peak detector, whose window is not open, takes its settings at once (R295). -/
theorem exec_feDetectSet_idlePeak {stream dir tap k att dec hi lo : Nat} {y : Stream} (hw : Waits s r 0x0606 w)
    (hy : s.dev.stream stream = some y) (hsees : Sees w.func y.owner) (hdir : dir ≤ 1) (htap : tap ≤ 2) (hk : 4 ≤ k ∧ k ≤ 20)
    (hidle : (s.dev.chain stream dir).peak.count = 0) :
    exec (.feDetectSet r stream dir 0 tap k att dec hi lo) s = .next { s with
      dev := answered s.clk w rOk (noted (s.dev.updChain stream dir fun x =>
        { x with peak := { x.peak with tap := tap, k := k } })) } := by
  obtain ⟨hk₁, hk₂⟩ := hk
  have hupd : s.dev.updChain stream dir (fun x => { x with peak :=
      if x.peak.count = 0 then { x.peak with tap := tap, k := k } else { x.peak with next := some (tap, k) } }) =
      s.dev.updChain stream dir fun x => { x with peak := { x.peak with tap := tap, k := k } } :=
    Dev.updChain_congr (by simp [hidle])
  refine onDev_serve_journalled hw (by decide) (.inl rfl) (fits_zero w) rfl ?_
  simp [Dev.seesStream_of_sees hy, hsees, Nat.not_lt.2 hdir, Nat.not_lt.2 htap, Nat.not_lt.2 hk₁, Nat.not_lt.2 hk₂, hupd]

theorem exec_feDetectRead {stream dir : Nat} {y : Stream} {k : Chain} (hw : Waits s r 0x0607 w) (hfit : Fits w 42)
    (hy : s.dev.stream stream = some y) (hsees : Sees w.func y.owner) (hdir : dir ≤ 1) (hk : s.dev.chain stream dir = k) :
    exec (.feDetectRead r stream dir) s = .next { s with
      dev := answered s.clk w (rOk [(4, k.peak.p), (2, uns 16 (levelOf k.peak.p 0)), (8, k.peak.endAtc), (4, k.rms.p),
        (2, uns 16 (levelOf k.rms.p 0)), (8, k.rms.endAtc), (4, k.rms.samples), (4, k.env.e),
        (2, uns 16 (levelOf (k.env.e * k.env.e) 32)), (4, k.env.suppressed)]) s.dev } := by
  refine onDev_serve_noFx hw (by decide) hfit ?_
  simp [Dev.seesStream_of_sees hy, hsees, Nat.not_lt.2 hdir, hk]

/-- A full window of the RMS detector is latched, and the next begins with the settings it had (R295). -/
theorem Detector.close_full {x : Detector} (hfull : x.count = 2 ^ x.k) (hnext : x.next = none) :
    x.close true = { x with p := x.acc / x.count, endAtc := x.at_, samples := x.count, acc := 0, count := 0 } := by
  have hcount : x.count ≠ 0 := by rw [hfull]; exact Nat.ne_of_gt (Nat.two_pow_pos x.k)
  simp [Detector.close, hcount, hnext]

theorem exec_detectWindowEnd_rms {stream dir : Nat} {x : Detector} (hx : (s.dev.chain stream dir).rms = x)
    (hfull : x.count = 2 ^ x.k) (hnext : x.next = none) :
    exec (.detectWindowEnd stream dir true) s = .next { s with dev := s.dev.updChain stream dir fun k =>
      { k with rms := { x with p := x.acc / x.count, endAtc := x.at_, samples := x.count, acc := 0, count := 0 } } } := by
  have hfull' : x.full = true := decide_eq_true (Nat.le_of_eq hfull.symm)
  show execDetectWindowEnd stream dir true s = _
  unfold execDetectWindowEnd
  rw [onDev_eq]
  congr 2
  exact Dev.updChain_congr (by simp [hx, hfull', Detector.close_full hfull hnext])

/-- The crossing that waits is posted to the owner of the stream (R296, R299). -/
theorem exec_feEnvelope_posts {stream dir q : Nat} {lv : Int} {y : Stream}
    (hcross : (s.dev.chain stream dir).env.cross = some (q, lv)) (hy : s.dev.stream stream = some y) :
    exec (.feEnvelope stream dir) s = .next { s with
      dev := (s.dev.updChain stream dir fun k => { k with env := { k.env with cross := none, posted := s.clk.atc + 1 } }).evt
        s.clk y.owner y.owner 0x0682 0 [(0, 2, stream), (2, 1, dir), (3, 1, q), (4, 2, uns 16 lv)] } := by
  show execFeEnvelope stream dir s = _
  unfold execFeEnvelope
  rw [onDev_eq]
  simp only [hcross, hy]

/-! ### The frame boundary (R274, R292, R295) -/

section
variable {stream dir f : Nat} {y : Stream} {car : Carrier}

/-- A frame whose samples have all entered, none of them missing, gives way to the next. -/
theorem exec_resamplerReanchor_nextFrame (hy : s.dev.stream stream = some y) (hcar : s.dev.carrierOf y = some car)
    (hf : (s.dev.chain stream dir).frame = some f) (hall : y.rateIn dir * 10 ≤ (s.dev.chain stream dir).nIn)
    (hgaps : (s.dev.chain stream dir).frameGaps = 0) (hanchor : (s.dev.chain stream dir).anchorDue y dir = false) :
    exec (.resamplerReanchor stream dir) s = .next { s with dev := s.dev.updChain stream dir fun k =>
      { k.cutWindows dir false with frame := some (f + 1), nIn := 0, frameGaps := 0 } } := by
  show execResamplerReanchor stream dir s = _
  unfold execResamplerReanchor
  rw [onDev_eq]
  simp [hy, hcar, hf, hanchor, Nat.not_lt.2 hall, hgaps]

/-- A fractional stage that has given all outputs of its frame re-anchors, while samples of a frame still enter. -/
theorem exec_resamplerReanchor_anchors (hy : s.dev.stream stream = some y) (hcar : s.dev.carrierOf y = some car)
    (hf : (s.dev.chain stream dir).frame = some f) (hin : (s.dev.chain stream dir).nIn < y.rateIn dir * 10)
    (hanchor : (s.dev.chain stream dir).anchorDue y dir = true) :
    exec (.resamplerReanchor stream dir) s = .next { s with dev := s.dev.updChain stream dir fun k =>
      { k with anchors := k.anchors + 1, fracFrame := k.fracFrame + 1, nFrac := 0
               pos := y.anchored dir (k.anchors + 1) } } := by
  show execResamplerReanchor stream dir s = _
  unfold execResamplerReanchor
  rw [onDev_eq]
  simp [hy, hcar, hf, hanchor, hin]

end

end

/-- Settles O21: each command and each boundary has its lemma above. -/
theorem detectorsAndResampler : Obligations.DetectorsAndResampler := by
  unfold Obligations.DetectorsAndResampler
  refine ⟨?set, ?read, ?window, ?envelope, ?nextFrame, ?anchors⟩
  case set =>
    intro s r w stream dir det tap k att dec hi lo y hw hy hsees hdir hdet htap hk hidle
    subst hdet
    exact exec_feDetectSet_idlePeak hw hy hsees hdir htap hk hidle
  case read =>
    intro s r w stream dir y k hw hfit hy hsees hdir hk
    exact exec_feDetectRead hw hfit hy hsees hdir hk
  case window =>
    intro s stream dir rms x hrms hx hfull hnext
    subst hrms
    exact exec_detectWindowEnd_rms hx hfull hnext
  case envelope =>
    intro s stream dir q lv y hcross hy
    exact exec_feEnvelope_posts hcross hy
  case nextFrame =>
    intro s stream dir f y car hy hcar hf hall hgaps hanchor
    exact exec_resamplerReanchor_nextFrame hy hcar hf hall hgaps hanchor
  case anchors =>
    intro s stream dir f y car hy hcar hf hin hanchor
    exact exec_resamplerReanchor_anchors hy hcar hf hin hanchor

end Sys2Proof.Machine
end

section
/-! Bits and rounding under the block codec: fields written most significant bit first (R303), two's complement mantissas, and
the rounding shift of R133 that R305 codes with. -/
namespace Sys2Proof.Machine

/-! ### Fields, most significant bit first -/

@[simp] theorem msb_length (n v : Nat) : (msb n v).length = n := by simp [msb]

/-- A field begins with its highest bit. -/
theorem msb_succ (n v : Nat) : msb (n + 1) v = bit v n :: msb n v := by
  simp only [msb, List.range_succ_eq_map, List.map_cons, List.map_map]
  refine congrArg _ (List.map_congr_left fun i _ => ?_)
  rw [Function.comp_apply, show n + 1 - 1 - i.succ = n - 1 - i by omega]

/-- Bits read after a number put it that many places up. -/
theorem foldl_bits (l : List Bool) (a : Nat) :
    l.foldl (fun a b => 2 * a + b.toNat) a = a * 2 ^ l.length + ofMsb l := by
  induction l generalizing a with
  | nil => simp [ofMsb]
  | cons b l ih =>
    rw [ofMsb, List.foldl_cons, List.foldl_cons, ih, ih (2 * 0 + b.toNat), List.length_cons, Nat.pow_succ', Nat.add_mul,
      Nat.mul_zero, Nat.zero_add, Nat.mul_assoc, Nat.mul_left_comm a 2, Nat.add_assoc]

theorem ofMsb_append (l r : List Bool) : ofMsb (l ++ r) = ofMsb l * 2 ^ r.length + ofMsb r := by
  rw [ofMsb, List.foldl_append, foldl_bits r]; rfl

theorem ofMsb_cons (b : Bool) (l : List Bool) : ofMsb (b :: l) = b.toNat * 2 ^ l.length + ofMsb l := by
  rw [ofMsb, List.foldl_cons, foldl_bits, Nat.mul_zero, Nat.zero_add]

theorem toNat_bit (v i : Nat) : (bit v i).toNat = v / 2 ^ i % 2 := by
  unfold bit
  rcases Nat.mod_two_eq_zero_or_one (v / 2 ^ i) with h | h <;> rw [h] <;> rfl

/-- A field reads back as far as its width holds it (R303). -/
theorem ofMsb_msb (n v : Nat) : ofMsb (msb n v) = v % 2 ^ n := by
  induction n with
  | zero => exact (Nat.mod_one v).symm
  | succ n ih => rw [msb_succ, ofMsb_cons, msb_length, ih, toNat_bit, Nat.mod_pow_succ, Nat.mul_comm, Nat.add_comm]

theorem ofMsb_msb4 {v : Nat} (h : v < 16) : ofMsb (msb 4 v) = v := (ofMsb_msb 4 v).trans (Nat.mod_eq_of_lt h)

theorem uns_lt (w : Nat) (v : Int) : uns w v < 2 ^ w := by
  have hlt := Int.emod_lt_of_pos v (Int.natCast_pos.2 (Nat.two_pow_pos w))
  unfold uns
  omega

theorem natCast_two_pow (n : Nat) : ((2 ^ n : Nat) : Int) = 2 ^ n := Int.natCast_pow 2 n

theorem int_two_pow_pos (n : Nat) : (0 : Int) < 2 ^ n := Int.pow_pos (by decide)

/-- A value of `w` bits is the two's complement reading of its low bits. -/
theorem sgn_uns {w : Nat} {v : Int} (hw : 0 < w) (hlo : -(2 ^ (w - 1) : Int) ≤ v) (hhi : v ≤ 2 ^ (w - 1) - 1) :
    sgn w (uns w v) = v := by
  obtain ⟨n, rfl⟩ : ∃ n, w = n + 1 := ⟨w - 1, by omega⟩
  have hpow : (2 : Nat) ^ (n + 1) = 2 * 2 ^ n := Nat.pow_succ'
  rw [Nat.add_sub_cancel, ← natCast_two_pow] at hlo hhi
  simp only [sgn, uns, Nat.add_sub_cancel, hpow]
  generalize 2 ^ n = p at *
  rcases Int.lt_or_le v 0 with hv | hv
  · have hmod : v % (2 * p : Nat) = v + 2 * p := by
      rw [← Int.add_emod_right, Int.emod_eq_of_lt (by omega) (by omega)]; omega
    rw [hmod, Nat.mod_eq_of_lt (by omega), if_neg (by omega)]; omega
  · have hmod : v % (2 * p : Nat) = v := Int.emod_eq_of_lt hv (by omega)
    rw [hmod, Nat.mod_eq_of_lt (by omega), if_pos (by omega)]; omega

/-! ### Rounding (R133, R305) -/

/-- The rounding shift is off by at most half a step, either way. -/
theorem rsh_error (x : Int) (e : Nat) : 2 * (rsh x e * 2 ^ e - x) ≤ 2 ^ e ∧ 2 * (x - rsh x e * 2 ^ e) ≤ 2 ^ e := by
  have hpos := int_two_pow_pos e
  have hdiv := Int.mul_ediv_add_emod x (2 ^ e)
  have hnonneg := Int.emod_nonneg x (Int.ne_of_gt hpos)
  have hlt := Int.emod_lt_of_pos x hpos
  unfold rsh
  rw [Int.mul_comm] at hdiv
  dsimp only
  split <;> rename_i hround <;> simp only [Bool.or_eq_true, Bool.and_eq_true, decide_eq_true_eq] at hround
  · rw [Int.add_mul]; omega
  · omega

theorem quant_zero (x : Int) : quant x 0 = x := rfl

/-- So is q of R305, which at e = 0 is exact. -/
theorem quant_error (x : Int) (e : Nat) : 2 * (quant x e * 2 ^ e - x) ≤ 2 ^ e ∧ 2 * (x - quant x e * 2 ^ e) ≤ 2 ^ e := by
  unfold quant
  split <;> rename_i he
  · rw [he, show (2 : Int) ^ 0 = 1 from rfl]; omega
  · exact rsh_error x e

/-- Rounding passes no multiple of the step upward … -/
theorem quant_le {x k : Int} {e : Nat} (h : x ≤ k * 2 ^ e) : quant x e ≤ k := by
  refine Int.not_lt.1 fun hlt => ?_
  have hpos := int_two_pow_pos e
  have hnext : (k + 1) * 2 ^ e ≤ quant x e * 2 ^ e := Int.mul_le_mul_of_nonneg_right (by omega) (Int.le_of_lt hpos)
  have herr := (quant_error x e).1
  rw [Int.add_mul] at hnext
  omega

/-- … nor downward. -/
theorem le_quant {x k : Int} {e : Nat} (h : k * 2 ^ e ≤ x) : k ≤ quant x e := by
  refine Int.not_lt.1 fun hlt => ?_
  have hpos := int_two_pow_pos e
  have hprev : (quant x e + 1) * 2 ^ e ≤ k * 2 ^ e := Int.mul_le_mul_of_nonneg_right (by omega) (Int.le_of_lt hpos)
  have herr := (quant_error x e).2
  rw [Int.add_mul] at hprev
  omega

theorem int_two_pow_fifteen : (2 : Int) ^ (16 - 1) = 32768 := rfl

/-- Full scale is 2^15, however its bits divide between mantissa and exponent. -/
theorem pow_mul_pow_fullScale {a b : Nat} (h : a + b = 15) : (2 : Int) ^ a * 2 ^ b = 32768 := by
  rw [← Int.pow_add, h]; rfl

end Sys2Proof.Machine
end

section
/-! The encoder's choices: the exponent of a block (R305) and the width of BOUNDED mode (R308). -/
namespace Sys2Proof.Machine

/-! ### The exponent (R305) -/

theorem allFit_iff {c : List Int} {m e : Nat} :
    allFit c m e = true ↔ ∀ x ∈ c, -(2 ^ (m - 1) : Int) ≤ quant x e ∧ quant x e ≤ 2 ^ (m - 1) - 1 := by
  simp only [allFit, List.all_eq_true, Bool.and_eq_true, decide_eq_true_eq, and_comm]

theorem chooseE_lt (c : List Int) (m : Nat) : chooseE c m < 16 := by
  unfold chooseE
  cases hfind : (List.range 16).find? fun e => allFit c m e with
  | none => simp
  | some e => exact List.mem_range.1 (List.mem_of_find?_eq_some hfind)

/-- Where some exponent fits, the one chosen fits and is the smallest that does. -/
theorem chooseE_spec {c : List Int} {m e : Nat} (he : e < 16) (hfit : allFit c m e = true) :
    allFit c m (chooseE c m) = true ∧ chooseE c m ≤ e ∧ ∀ j < chooseE c m, allFit c m j = false := by
  unfold chooseE
  cases hfind : (List.range 16).find? fun e => allFit c m e with
  | none => exact absurd hfit (by simpa using List.find?_range_eq_none.1 hfind e he)
  | some i =>
    obtain ⟨hi, -, hleast⟩ := List.find?_range_eq_some.1 hfind
    have hleast' : ∀ j < i, allFit c m j = false := fun j hj => by simpa using hleast j hj
    refine ⟨hi, Nat.le_of_not_lt fun hlt => ?_, hleast'⟩
    exact absurd hfit (by simp [hleast' e hlt])

section
variable {c : List Int} (hc : ∀ x ∈ c, -32768 ≤ x ∧ x ≤ 32767)
include hc

/-- No 16-bit component rounds below the least mantissa at an exponent of 16 - m. -/
theorem neg_le_quant {m : Nat} (hlo : 1 ≤ m) (hhi : m ≤ 16) {x : Int} (hx : x ∈ c) :
    -(2 ^ (m - 1) : Int) ≤ quant x (16 - m) := by
  refine le_quant ?_
  rw [Int.neg_mul, pow_mul_pow_fullScale (by omega)]
  exact (hc x hx).1

/-- 16 bits hold every component as it is. -/
theorem allFit_sixteen : allFit c 16 0 = true :=
  allFit_iff.2 fun x hx => by
    have hx := hc x hx
    rw [quant_zero, int_two_pow_fifteen]
    omega

/-- Every block fits at e = 17 - m, where full scale is half the mantissa's range. -/
theorem allFit_top {m : Nat} (hlo : 2 ≤ m) (hhi : m ≤ 17) : allFit c m (17 - m) = true :=
  allFit_iff.2 fun x hx => by
    have hscale : (2 : Int) ^ (m - 2) * 2 ^ (17 - m) = 32768 := pow_mul_pow_fullScale (by omega)
    have hhalf : (2 : Int) ^ (m - 1) = 2 * 2 ^ (m - 2) := by rw [← Int.pow_succ', show m - 2 + 1 = m - 1 by omega]
    have hpos := int_two_pow_pos (m - 2)
    have hle : quant x (17 - m) ≤ 2 ^ (m - 2) := quant_le (by have := (hc x hx).2; omega)
    have hge : -(2 ^ (m - 2) : Int) ≤ quant x (17 - m) := le_quant (by rw [Int.neg_mul]; have := (hc x hx).1; omega)
    omega

theorem chooseE_sixteen : chooseE c 16 = 0 :=
  Nat.le_zero.1 (chooseE_spec (by omega) (allFit_sixteen hc)).2.1

/-- The loop of R305 always returns by 17 - m, with the smallest exponent that fits. -/
theorem chooseE_least {m : Nat} (hlo : 6 ≤ m) (hhi : m ≤ 16) :
    allFit c m (chooseE c m) = true ∧ chooseE c m ≤ 17 - m ∧ ∀ j < chooseE c m, allFit c m j = false :=
  chooseE_spec (by omega) (allFit_top hc (by omega) (by omega))

/-- The greatest exponent is taken only where a component rounds past the greatest mantissa at the next lower one (R307). -/
theorem exists_exceeds_of_chooseE {m : Nat} (hlo : 6 ≤ m) (hhi : m ≤ 16) (he : chooseE c m = 17 - m) :
    ∃ x ∈ c, 2 ^ (m - 1) - 1 < quant x (16 - m) := by
  refine Classical.byContradiction fun hnone => ?_
  have hle : ∀ x ∈ c, quant x (16 - m) ≤ 2 ^ (m - 1) - 1 := fun x hx => Int.not_lt.1 fun hlt => hnone ⟨x, hx, hlt⟩
  obtain ⟨-, -, hleast⟩ := chooseE_least hc hlo hhi
  have hfit : allFit c m (16 - m) = true :=
    allFit_iff.2 fun x hx => ⟨neg_le_quant hc (by omega) hhi hx, hle x hx⟩
  exact absurd hfit (by simp [hleast (16 - m) (by omega)])

end

/-! ### The width of BOUNDED mode (R308) -/

/-- BOUNDED mode keeps a width in range that meets the bound, or misses with M_MAX where none does. -/
theorem chooseM_cases (c : List Int) (s : CmpSet) :
    (∃ m, chooseM c s = (m, false) ∧ blockError c m ≤ s.bound ∧ s.mMin ≤ m ∧ m ≤ s.mMax) ∨
      (chooseM c s = (s.mMax, true) ∧ ∀ m, s.mMin ≤ m → m ≤ s.mMax → s.bound < blockError c m) := by
  unfold chooseM
  cases hfind : ((List.range (s.mMax + 1 - s.mMin)).map fun i => s.mMin + i).find? fun m => blockError c m ≤ s.bound with
  | none =>
    refine .inr ⟨rfl, fun m hlo hhi => ?_⟩
    have hmem : m ∈ (List.range (s.mMax + 1 - s.mMin)).map fun i => s.mMin + i :=
      List.mem_map.2 ⟨m - s.mMin, List.mem_range.2 (by omega), by omega⟩
    simpa using List.find?_eq_none.1 hfind m hmem
  | some m =>
    obtain ⟨i, hi, rfl⟩ := List.mem_map.1 (List.mem_of_find?_eq_some hfind)
    have hi := List.mem_range.1 hi
    exact .inl ⟨_, rfl, by simpa using List.find?_some hfind, by omega, by omega⟩

theorem chooseM_mem {c : List Int} {s : CmpSet} (h : s.mMin ≤ s.mMax) :
    s.mMin ≤ (chooseM c s).1 ∧ (chooseM c s).1 ≤ s.mMax := by
  obtain ⟨m, hm, -, hlo, hhi⟩ | ⟨hm, -⟩ := chooseM_cases c s <;> rw [hm]
  · exact ⟨hlo, hhi⟩
  · exact ⟨h, Nat.le_refl _⟩

end Sys2Proof.Machine
end

section
/-! Statement O55: the error of a block coded under R305 and decoded under R306 (R307, R308). -/
namespace Sys2Proof.Machine

/-! ### One component -/

section
variable {x : Int} {e : Nat} (hx : -32768 ≤ x ∧ x ≤ 32767) (he : e ≤ 15)
include hx he

/-- A coded component saturates upward only: what it stands for is never below -32,768. -/
theorem decodeComp_quant : decodeComp (quant x e) e = min (quant x e * 2 ^ e) 32767 := by
  have hpos := int_two_pow_pos e
  have hscale : (2 : Int) ^ (15 - e) * 2 ^ e = 32768 := pow_mul_pow_fullScale (by omega)
  have hge : -(2 ^ (15 - e) : Int) ≤ quant x e := le_quant (by rw [Int.neg_mul]; omega)
  have hmul := Int.mul_le_mul_of_nonneg_right hge (Int.le_of_lt hpos)
  rw [Int.neg_mul, hscale] at hmul
  rw [decodeComp, satS, int_two_pow_fifteen]
  omega

theorem decodeComp_error : 2 * (decodeComp (quant x e) e - x).natAbs ≤ 2 ^ e := by
  obtain ⟨habove, hbelow⟩ := quant_error x e
  have hcast := natCast_two_pow e
  rw [decodeComp_quant hx he]
  omega

theorem decodeComp_saturated (h : decodeComp (quant x e) e ≠ quant x e * 2 ^ e) :
    decodeComp (quant x e) e = 32767 ∧ 2 * (32768 - x) ≤ 2 ^ e := by
  have herr := (quant_error x e).1
  rw [decodeComp_quant hx he] at h ⊢
  omega

end

/-- Without an exponent a component decodes to itself. -/
theorem decodeComp_quant_zero {x : Int} (hx : -32768 ≤ x ∧ x ≤ 32767) : decodeComp (quant x 0) 0 = x := by
  have herr := decodeComp_error (e := 0) hx (by omega)
  omega

/-! ### A block -/

/-- m = 16 has no error (R307). -/
theorem blockError_sixteen {c : List Int} (hc : ∀ x ∈ c, -32768 ≤ x ∧ x ≤ 32767) : blockError c 16 = 0 := by
  unfold blockError
  rw [chooseE_sixteen hc]
  refine List.foldlRecOn (motive := (· = 0)) c _ rfl fun a ha x hx => ?_
  rw [ha, decodeComp_quant_zero (hc x hx), Int.sub_self]
  rfl

/-- Settles O55: q of R305 is off by half a step at most, which saturation only lessens; 17 - m always fits; 16 bits are exact. -/
theorem blockErrorBound : Obligations.BlockErrorBound := by
  unfold Obligations.BlockErrorBound
  refine ⟨?block, ?neverMisses, ?kept⟩
  case block =>
    intro c m hc hlo hhi
    obtain ⟨-, hleast, -⟩ := chooseE_least hc hlo hhi
    have he : chooseE c m ≤ 15 := Nat.le_of_lt_succ (chooseE_lt c m)
    refine ⟨fun x hx => decodeComp_error (hc x hx) he, fun _ => ⟨hleast, exists_exceeds_of_chooseE hc hlo hhi⟩, ?_,
      fun x hx => decodeComp_saturated (hc x hx) he⟩
    rintro rfl
    rw [chooseE_sixteen hc]
    exact ⟨rfl, fun x hx => decodeComp_quant_zero (hc x hx)⟩
  case neverMisses =>
    intro c s hc hmin hmax
    obtain ⟨m, hm, -⟩ | ⟨-, hmiss⟩ := chooseM_cases c s
    · rw [hm]
    · exact absurd (hmiss 16 hmin (Nat.le_of_eq hmax.symm)) (by simp [blockError_sixteen hc])
  case kept =>
    intro c s m hm
    obtain ⟨m', hm', hkept⟩ | ⟨hm', -⟩ := chooseM_cases c s <;> rw [hm', Prod.mk.injEq] at hm
    · exact hm.1 ▸ hkept
    · exact absurd hm.2 (by decide)

end Sys2Proof.Machine
end

section
/-! Statements O56 and O57: a block's bits and their decoding (R303, R304, R306). -/
namespace Sys2Proof.Machine

/-! ### Mantissas (R303, R306) -/

/-- The bits of a block's mantissas. -/
def mantBits (m e : Nat) (c : List Int) : List Bool := c.flatMap fun x => msb m (uns m (quant x e))

/-- Mantissa `i` of the bits that follow a header. -/
def mantAt (m : Nat) (bs : List Bool) (i : Nat) : Int := sgn m (ofMsb ((bs.drop (m * i)).take m))

/-- A mantissa saturates on decoding. -/
def saturates (e : Nat) (mant : Int) : Bool := decodeComp mant e != mant * 2 ^ e

@[simp] theorem mantBits_length (m e : Nat) (c : List Int) : (mantBits m e c).length = m * c.length := by
  induction c with
  | nil => rfl
  | cons x c ih =>
    rw [mantBits, List.flatMap_cons, ← mantBits, List.length_append, ih, msb_length, List.length_cons, Nat.mul_succ,
      Nat.add_comm]

/-- The bits `m * i` places on are those of component `i`. -/
theorem mantBits_field (m e : Nat) (l : List Int) (i : Nat) (h : i < l.length) :
    ((mantBits m e l).drop (m * i)).take m = msb m (uns m (quant l[i] e)) := by
  induction l generalizing i with
  | nil => exact absurd h (Nat.not_lt_zero i)
  | cons x l ih =>
    rw [mantBits, List.flatMap_cons, ← mantBits]
    cases i with
    | zero => exact List.take_left' (msb_length ..)
    | succ i =>
      rw [Nat.mul_succ, Nat.add_comm, ← List.drop_drop, List.drop_left' (msb_length ..)]
      exact ih i (Nat.lt_of_succ_lt_succ h)

/-- Mantissas that fit read back from their bits. -/
theorem map_mantAt_mantBits {m e : Nat} {l : List Int} (hm : 0 < m) (hfit : allFit l m e = true) :
    (List.range l.length).map (mantAt m (mantBits m e l)) = l.map (quant · e) := by
  refine List.ext_getElem (by simp) fun i _ hi => ?_
  rw [List.length_map] at hi
  obtain ⟨hlo, hhi⟩ := allFit_iff.1 hfit _ (List.getElem_mem hi)
  rw [List.getElem_map, List.getElem_range, List.getElem_map, mantAt, mantBits_field m e l i hi, ofMsb_msb,
    Nat.mod_eq_of_lt (uns_lt ..), sgn_uns hm hlo hhi]

/-- A fold that lists one value of each element and counts another. -/
theorem foldl_list_count {α β : Type} (f : α → β) (p : α → Bool) (l : List α) (o : List β × Nat) :
    l.foldl (fun o a => (o.1 ++ [f a], o.2 + (p a).toNat)) o = (o.1 ++ l.map f, o.2 + l.countP p) := by
  induction l generalizing o with
  | nil => rw [List.foldl_nil, List.map_nil, List.append_nil]; rfl
  | cons a l ih =>
    have hone : (p a).toNat = if p a = true then 1 else 0 := by cases p a <;> rfl
    rw [List.foldl_cons, ih, List.countP_cons, List.map_cons, hone, List.append_assoc, Nat.add_assoc,
      Nat.add_comm (ite ..), List.singleton_append]

/-- Decoding a block's mantissas lists their components and counts those that saturate (R306). -/
theorem decodeMants_eq (m e : Nat) (bs : List Bool) :
    decodeMants m e bs = (((List.range 32).map (mantAt m bs)).map (decodeComp · e),
      ((List.range 32).map (mantAt m bs)).countP (saturates e)) := by
  refine (foldl_list_count (fun i => decodeComp (mantAt m bs i) e) (fun i => saturates e (mantAt m bs i))
    (List.range 32) ([], 0)).trans ?_
  simp only [List.nil_append, Nat.zero_add, List.map_map, List.countP_map, Function.comp_def]

/-- A block's mantissas decode to its rounded components at their scale, the saturating ones counted. -/
theorem decodeMants_mantBits {m e : Nat} {c : List Int} (hlen : c.length = 32) (hm : 0 < m) (hfit : allFit c m e = true) :
    decodeMants m e (mantBits m e c) =
      (c.map fun x => decodeComp (quant x e) e, c.countP fun x => saturates e (quant x e)) := by
  rw [decodeMants_eq, ← hlen, map_mantAt_mantBits hm hfit, List.map_map, List.countP_map]
  rfl

/-! ### What the encoder writes (R303-R305, R308) -/

theorem encodeBlock_none {s : CmpSet} (h : s.mode = 0) (c : List Int) : (encodeBlock s c).1 = mantBits 16 0 c := by
  unfold encodeBlock; rw [if_pos h]; rfl

theorem encodeBlock_fixed {s : CmpSet} (h : s.mode = 1) (c : List Int) :
    (encodeBlock s c).1 = msb 4 (chooseE c s.m) ++ mantBits s.m (chooseE c s.m) c := by
  unfold encodeBlock; rw [if_neg (by omega), if_pos h]; rfl

theorem encodeBlock_bounded {s : CmpSet} (h : s.mode = 2) (c : List Int) :
    (encodeBlock s c).1 = msb 4 (chooseE c (chooseM c s).1) ++ msb 4 ((chooseM c s).1 % 16) ++
      mantBits (chooseM c s).1 (chooseE c (chooseM c s).1) c := by
  unfold encodeBlock; rw [if_neg (by omega), if_neg (by omega)]; rfl

/-! ### What the decoder makes of one block (R304, R306, R309) -/

/-- One block of width `w` and exponent `e` decoded after a header of `hdr` bits. -/
def oneBlock (hdr w e : Nat) (bs : List Bool) : Decoded :=
  { comps := (decodeMants w e (bs.drop hdr)).1, sat := (decodeMants w e (bs.drop hdr)).2, blocks := 1, sumM := w
    used := hdr + 32 * w, firstM := some w, short := decide (bs.length < hdr + 32 * w) }

/-- A block of whatever mode whose header gives a width is decoded by that width, and no block is left. -/
theorem decodeBlocks_one {mode m hdr e w : Nat} {bs : List Bool}
    (hhdr : (if mode = 0 then 0 else if mode = 1 then 4 else 8) = hdr)
    (hexp : (if mode = 0 then 0 else ofMsb (bs.take 4)) = e)
    (hwidth : (if mode = 0 then some 16 else if mode = 1 then some m else headerWidth (ofMsb ((bs.drop 4).take 4))) = some w) :
    decodeBlocks mode m 1 bs {} = oneBlock hdr w e bs := by
  simp only [decodeBlocks, hhdr, hexp, hwidth]
  simp [oneBlock]

/-- A header of four bits holds the exponent (R302). -/
theorem decodeBlocks_fixed {m e : Nat} (he : e < 16) (rest : List Bool) :
    decodeBlocks 1 m 1 (msb 4 e ++ rest) {} = oneBlock 4 m e (msb 4 e ++ rest) :=
  decodeBlocks_one rfl ((congrArg ofMsb (List.take_left' (msb_length ..))).trans (ofMsb_msb4 he)) rfl

section
variable {e code : Nat} (he : e < 16) (hcode : code < 16) (rest : List Bool)
include he hcode

/-- The eight bits of a BOUNDED header hold the exponent over the width's code (R304). -/
theorem ofMsb_header : ofMsb (msb 4 e ++ msb 4 code) = e * 16 + code := by
  have hval := ofMsb_append (msb 4 e) (msb 4 code)
  rw [msb_length, ofMsb_msb4 he, ofMsb_msb4 hcode] at hval
  exact hval

theorem header_fields : ofMsb ((msb 4 e ++ msb 4 code ++ rest).take 4) = e ∧
    ofMsb (((msb 4 e ++ msb 4 code ++ rest).drop 4).take 4) = code ∧
    (msb 4 e ++ msb 4 code ++ rest).take 8 = msb 4 e ++ msb 4 code := by
  refine ⟨?_, ?_, List.take_left' (by simp)⟩
  · rw [List.append_assoc, List.take_left' (msb_length ..), ofMsb_msb4 he]
  · rw [List.append_assoc, List.drop_left' (msb_length ..), List.take_left' (msb_length ..), ofMsb_msb4 hcode]

theorem decodeBlocks_bounded {w : Nat} (m : Nat) (hw : headerWidth code = some w) :
    decodeBlocks 2 m 1 (msb 4 e ++ msb 4 code ++ rest) {} = oneBlock 8 w e (msb 4 e ++ msb 4 code ++ rest) := by
  obtain ⟨hexp, hwidth, -⟩ := header_fields he hcode rest
  exact decodeBlocks_one rfl hexp ((congrArg headerWidth hwidth).trans hw)

theorem decodeBlocks_badHeader (m : Nat) (hw : headerWidth code = none) :
    (decodeBlocks 2 m 1 (msb 4 e ++ msb 4 code ++ rest) {}).bad = some (e * 16 + code) := by
  obtain ⟨hexp, hwidth, hheader⟩ := header_fields he hcode rest
  simp only [decodeBlocks, hexp, hwidth, hheader, ofMsb_header he hcode]
  simp [hw]

end

/-- The code of a width is its low four bits (R304). -/
theorem headerWidth_mod {m : Nat} (hlo : 6 ≤ m) (hhi : m ≤ 16) : headerWidth (m % 16) = some m := by
  unfold headerWidth
  rcases Nat.lt_or_eq_of_le hhi with h | rfl
  · rw [Nat.mod_eq_of_lt h, if_neg (by omega), if_neg (by omega)]
  · rfl

/-- What a block coded in `w` bits at exponent `e` decodes to after its header: its components, all its bits used. -/
def encodedBlock (header : List Bool) (w e : Nat) (c : List Int) : Decoded :=
  { comps := c.map fun x => decodeComp (quant x e) e, sat := c.countP fun x => saturates e (quant x e), blocks := 1
    sumM := w, used := (header ++ mantBits w e c).length, firstM := some w }

theorem oneBlock_encoded {hdr w e : Nat} {header : List Bool} {c : List Int} (hheader : header.length = hdr)
    (hlen : c.length = 32) (hw : 0 < w) (hfit : allFit c w e = true) :
    oneBlock hdr w e (header ++ mantBits w e c) = encodedBlock header w e c := by
  subst hheader
  have hall : (header ++ mantBits w e c).length = header.length + 32 * w := by
    rw [List.length_append, mantBits_length, hlen, Nat.mul_comm]
  simp [oneBlock, encodedBlock, hall, decodeMants_mantBits hlen hw hfit]

/-- In mode NONE each component decodes to itself … -/
theorem map_decodeComp_zero {c : List Int} (hc : ∀ x ∈ c, -32768 ≤ x ∧ x ≤ 32767) :
    c.map (fun x => decodeComp (quant x 0) 0) = c :=
  (List.map_congr_left fun x hx => decodeComp_quant_zero (hc x hx)).trans (List.map_id' c)

/-- … and none saturates. -/
theorem countP_saturates_zero {c : List Int} (hc : ∀ x ∈ c, -32768 ≤ x ∧ x ≤ 32767) :
    c.countP (fun x => saturates 0 (quant x 0)) = 0 :=
  List.countP_eq_zero.2 fun x hx => by simpa [saturates, quant] using decodeComp_quant_zero (hc x hx)

/-- Settles O56: the header gives the decoder the width and exponent of the mantissas, which fit and so read back. -/
theorem blockRoundTrip : Obligations.BlockRoundTrip := by
  unfold Obligations.BlockRoundTrip
  intro s c hlen hc
  refine ⟨fun hmode => ?none, fun hmode hlo hhi => ?fixed, fun hmode hlo hmid hhi => ?bounded⟩
  case none =>
    have hdec : decodeBlocks 0 s.m 1 (encodeBlock s c).1 {} = encodedBlock [] 16 0 c := by
      rw [encodeBlock_none hmode]
      exact (decodeBlocks_one rfl rfl rfl).trans (oneBlock_encoded (header := []) rfl hlen (by omega) (allFit_sixteen hc))
    rw [hdec]
    exact ⟨map_decodeComp_zero hc, countP_saturates_zero hc⟩
  case fixed =>
    have hfit := (chooseE_least hc hlo hhi).1
    have hdec : decodeBlocks 1 s.m 1 (encodeBlock s c).1 {} =
        encodedBlock (msb 4 (chooseE c s.m)) s.m (chooseE c s.m) c := by
      rw [encodeBlock_fixed hmode, decodeBlocks_fixed (chooseE_lt c s.m)]
      exact oneBlock_encoded (msb_length ..) hlen (by omega) hfit
    rw [hdec, encodeBlock_fixed hmode]
    exact ⟨rfl, rfl, rfl, rfl⟩
  case bounded =>
    obtain ⟨hmin, hmax⟩ := chooseM_mem (c := c) hmid
    have hlo' := Nat.le_trans hlo hmin
    have hhi' := Nat.le_trans hmax hhi
    have hw := headerWidth_mod hlo' hhi'
    have hfit := (chooseE_least hc hlo' hhi').1
    have hdec : decodeBlocks 2 s.m 1 (encodeBlock s c).1 {} =
        encodedBlock (msb 4 (chooseE c (chooseM c s).1) ++ msb 4 ((chooseM c s).1 % 16)) (chooseM c s).1
          (chooseE c (chooseM c s).1) c := by
      rw [encodeBlock_bounded hmode, decodeBlocks_bounded (chooseE_lt ..) (Nat.mod_lt _ (by omega)) _ _ hw]
      exact oneBlock_encoded (by simp) hlen (by omega) hfit
    rw [hdec, encodeBlock_bounded hmode]
    exact ⟨rfl, rfl, rfl, rfl, rfl⟩

/-- Settles O57: the header's two fields are four bits each, and the width's code decides alone whether it is valid. -/
theorem boundedHeader : Obligations.BoundedHeader := by
  unfold Obligations.BoundedHeader
  refine ⟨?encoded, ?invalid, ?valid⟩
  case encoded =>
    intro s c hmode _ _
    have hcode : (chooseM c s).1 % 16 < 16 := Nat.mod_lt _ (by omega)
    obtain ⟨-, -, hheader⟩ := header_fields (chooseE_lt c (chooseM c s).1) hcode
      (mantBits (chooseM c s).1 (chooseE c (chooseM c s).1) c)
    rw [encodeBlock_bounded hmode, hheader, ofMsb_header (chooseE_lt ..) hcode]
  case invalid =>
    rintro mode m e code rest rfl he hlo hhi
    rw [decodeBlocks_badHeader he (by omega) rest m (by unfold headerWidth; rw [if_neg (by omega), if_pos hhi]), Nat.mul_comm]
  case valid =>
    rintro mode m e code rest rfl he hcode hvalid
    have hw : headerWidth code = some (if code = 0 then 16 else code) := by
      unfold headerWidth
      split
      · rfl
      · exact if_neg (by omega)
    rw [decodeBlocks_bounded he hcode rest m hw]
    exact ⟨rfl, rfl⟩

end Sys2Proof.Machine
end

section
/-! Statement O58: soft buffers (R312-R315). A buffer's number is that whose digits of
`llrBits` bits are its entries. -/
namespace Sys2Proof.Machine

/-- A count of some of `n` indices is at most `n`. -/
theorem foldl_ite_succ_le (p : Nat → Nat → Bool) (n : Nat) :
    (List.range n).foldl (fun i j => if p i j then i + 1 else i) 0 ≤ n := by
  induction n with
  | zero => exact Nat.le_refl 0
  | succ n ih =>
    rw [List.range_succ, List.foldl_append, List.foldl_cons, List.foldl_nil]
    split <;> omega

/-- A code is a sign and the index of a level (R313). -/
theorem llrEnc_lt {lev : List Nat} (h : 0 < lev.length) (x : Int) : llrEnc lev x < 2 * lev.length := by
  have hidx := foldl_ite_succ_le
    (fun i j => decide (i = j) && decide (lev.getD j 0 + lev.getD (j + 1) 0 < 2 * x.natAbs)) (lev.length - 1)
  unfold llrEnc
  dsimp only
  split
  · omega
  · split <;> omega

/-- An entry fits its bits (R312). -/
theorem llrEntry_lt (code : Nat) (x : Int) : llrEntry code x < 2 ^ llrBits code := by
  unfold llrEntry llrBits
  split
  · exact llrEnc_lt (lev := llrLevels4) (by decide) x
  · split
    · exact llrEnc_lt (lev := llrLevels5) (by decide) x
    · exact uns_lt 8 x

/-- The number a buffer of these LLRs spells: each entry stands above those before it. -/
def llrNumber (code : Nat) : List Int → Nat
  | [] => 0
  | x :: xs => llrEntry code x + 2 ^ llrBits code * llrNumber code xs

theorem llrNumber_cons (code : Nat) (x : Int) (xs : List Int) :
    llrNumber code (x :: xs) = llrEntry code x + 2 ^ llrBits code * llrNumber code xs := rfl

/-- Placing the entries one after another adds up to that number. -/
theorem foldl_entries (code : Nat) (xs : List Int) (o : Nat × Nat) :
    (xs.foldl (fun o x => (o.1 + llrEntry code x * 2 ^ o.2, o.2 + llrBits code)) o).1 =
      o.1 + llrNumber code xs * 2 ^ o.2 := by
  induction xs generalizing o with
  | nil => exact (congrArg (o.1 + ·) (Nat.zero_mul (2 ^ o.2))).symm
  | cons x xs ih =>
    rw [List.foldl_cons, ih, llrNumber_cons, Nat.pow_add, Nat.add_mul, Nat.add_assoc, Nat.mul_comm (2 ^ o.2),
      ← Nat.mul_assoc, Nat.mul_comm (llrNumber code xs)]

theorem llrPack_eq (code len : Nat) (xs : List Int) : llrPack code len xs = le len (llrNumber code xs) := by
  rw [llrPack, foldl_entries, Nat.pow_zero, Nat.mul_one, Nat.zero_add]

/-- The number fits in as many bits as its entries take together. -/
theorem llrNumber_lt (code : Nat) (xs : List Int) : llrNumber code xs < 2 ^ (llrBits code * xs.length) := by
  induction xs with
  | nil => exact Nat.two_pow_pos _
  | cons x xs ih =>
    have hentry := llrEntry_lt code x
    have hrest := Nat.mul_le_mul_left (2 ^ llrBits code) (Nat.succ_le_of_lt ih)
    rw [Nat.mul_succ] at hrest
    rw [llrNumber_cons, List.length_cons, Nat.mul_succ, Nat.pow_add, Nat.mul_comm (2 ^ (llrBits code * xs.length))]
    omega

/-- Bits [bk + b - 1 : bk] of the number are entry `k`, whatever the others (R312). -/
theorem bits_llrNumber {code k : Nat} {xs : List Int} {x : Int} (h : xs[k]? = some x) :
    bits (llrNumber code xs) (llrBits code * k) (llrBits code) = llrEntry code x := by
  induction xs generalizing k with
  | nil => exact absurd h (by simp)
  | cons y ys ih =>
    have hentry := llrEntry_lt code y
    rw [llrNumber_cons]
    cases k with
    | zero =>
      obtain rfl : y = x := by simpa using h
      rw [bits, Nat.mul_zero, Nat.pow_zero, Nat.div_one, Nat.add_mul_mod_self_left, Nat.mod_eq_of_lt hentry]
    | succ k =>
      rw [← ih (k := k) (by simpa using h), bits, bits, Nat.mul_succ, Nat.add_comm (llrBits code * k), Nat.pow_add,
        ← Nat.div_div_eq_div_mul, Nat.add_mul_div_left _ _ (Nat.two_pow_pos _), Nat.div_eq_of_lt hentry, Nat.zero_add]

/-- An entry of a buffer with room for all reads as the level it stands for. -/
theorem llrAt_llrPack {code len k : Nat} {xs : List Int} {x : Int} (hroom : llrBits code * xs.length ≤ 8 * len)
    (h : xs[k]? = some x) : llrAt code (llrPack code len xs) k = llrValue code (llrEntry code x) := by
  have hlt : llrNumber code xs < 256 ^ len :=
    calc llrNumber code xs < 2 ^ (llrBits code * xs.length) := llrNumber_lt code xs
      _ ≤ 2 ^ (8 * len) := Nat.pow_le_pow_right (by omega) hroom
      _ = (2 ^ 8) ^ len := Nat.pow_mul 2 8 len
  rw [llrAt, llrPack_eq, leVal_le, Nat.mod_eq_of_lt hlt, bits_llrNumber h]

/-- Settles O58: entries are digits of the buffer's number; the two tables themselves say that
each level lies in its own interval. -/
theorem llrBuffers : Obligations.LlrBuffers := by
  unfold Obligations.LlrBuffers
  refine ⟨fun code len xs k x _ _ hroom h => llrAt_llrPack hroom h, ?levels4, ?levels5⟩
  case levels4 => decide
  case levels5 => decide

end Sys2Proof.Machine
end

section
/-! What answers, events and the trouble record leave alone of the parts that the statements of chapters 11 to 23 speak of, and
refused commands. -/
namespace Sys2Proof.Machine

/-- A refused command is answered and has no effect (R60, R563). -/
theorem onDev_serve_refused {s : State} {r : Req} {code : Nat} {w : Waiting} {h : Ctx → Dev → Reply × Dev} {rep : Reply}
    (hw : Waits s r code w) (hr : rep.status ≠ stOK ∧ rep.status ≠ stACCEPTED) (hfit : Fits w rep.payload.length)
    (ho : h { page := w.page, func := w.func, tag := w.tag, rung := w.rung, clk := s.clk } s.dev = (rep, s.dev)) :
    onDev (serve code r h) s = .next { s with dev := answered s.clk w rep s.dev } := by
  have he : effected code (rep, s.dev) = s.dev := by unfold effected; simp [hr.1, hr.2]
  rw [onDev_serve_alone hw ho hfit rfl, he]

end Sys2Proof.Machine
end

section
/-! Statement O42: a step runs the command at the front of the queue. -/
namespace Sys2Proof.Machine

/-- Settles O42: the two laws of `step`. -/
theorem stepRunsFront : Obligations.StepRunsFront := by
  unfold Obligations.StepRunsFront
  exact ⟨fun _ _ _ => step_cons, fun _ => step_nil⟩

end Sys2Proof.Machine
end

section
/-! Statement O22: packets of the fabric (R325, R328, R333, R336, R339, R340). -/
namespace Sys2Proof.Machine

/-! ### What probes, accesses to memory and ejections leave of the packets -/

theorem MemoryOnly.fab {d e : Dev} (h : MemoryOnly d e) : e.fab = d.fab := by rw [h.dev]

/-- Packets under way, gates and holds are the same in two blocks. -/
structure SamePackets (d e : Dev) : Prop where
  rsp : e.fab.rsp = d.fab.rsp
  atGate : e.fab.atGate = d.fab.atGate
  held : e.fab.held = d.fab.held
  flipStall : e.fab.flipStall = d.fab.flipStall
  gates : e.fab.gates = d.fab.gates

theorem SamePackets.refl (d : Dev) : SamePackets d d := ⟨rfl, rfl, rfl, rfl, rfl⟩

theorem SamePackets.trans {a b d : Dev} (h : SamePackets a b) (k : SamePackets b d) : SamePackets a d :=
  ⟨k.rsp.trans h.rsp, k.atGate.trans h.atGate, k.held.trans h.held, k.flipStall.trans h.flipStall, k.gates.trans h.gates⟩

theorem SamePackets.of_fab {d e : Dev} (h : e.fab = d.fab) : SamePackets d e := by
  constructor <;> rw [h]

theorem SamePackets.gate {d e : Dev} (h : SamePackets d e) (n : Nat) : e.gate n = d.gate n := by
  unfold Dev.gate; rw [h.gates]

theorem SamePackets.drainBy (d : Dev) (e : Nat) (by_ : Int) : SamePackets d (d.drainBy e by_) := by
  constructor <;> simp only [Dev.drainBy, Dev.updFab_fab] <;> split <;> rfl

theorem SamePackets.eject (d : Dev) (k : Packet) : SamePackets d (d.eject k) := by
  unfold Dev.eject
  split
  · exact .drainBy d _ _
  · exact .refl d

theorem SamePackets.traceOut (d : Dev) (bs : List Byte) : SamePackets d (d.traceOut bs) := by
  unfold Dev.traceOut
  dsimp only
  split
  · exact .refl d
  · split
    · exact ⟨rfl, rfl, rfl, rfl, rfl⟩
    · exact .trans (.of_fab (MemoryOnly.memWrite d _ bs).fab) ⟨rfl, rfl, rfl, rfl, rfl⟩

theorem SamePackets.ite {p : Prop} [Decidable p] {d a b : Dev} (h : SamePackets d a) (k : SamePackets d b) :
    SamePackets d (if p then a else b) := by
  split
  · exact h
  · exact k

theorem SamePackets.draw (d : Dev) : SamePackets d (draw d).2 := ⟨rfl, rfl, rfl, rfl, rfl⟩

theorem SamePackets.probeSees (c : Clock) (d : Dev) (i : Nat) (p : Probe) (k : Packet) :
    SamePackets d (d.probeSees c i p k) := by
  have counted : ∀ q, SamePackets d ((Machine.draw d).2.updFab fun f => { f with probes := tset {} f.probes i q }) := fun q =>
    ⟨rfl, rfl, rfl, rfl, rfl⟩
  exact .ite (.trans (counted _) (.traceOut _ _)) (counted _)

theorem SamePackets.foldl {β : Type} {f : Dev → β → Dev} (h : ∀ d b, SamePackets d (f d b)) (l : List β) (d : Dev) :
    SamePackets d (l.foldl f d) := by
  induction l generalizing d with
  | nil => exact .refl d
  | cons b l ih => exact .trans (h d b) (ih _)

/-- Probes count and trace; packets go on (R342). -/
theorem SamePackets.observe (c : Clock) (d : Dev) (k : Packet) : SamePackets d (d.observe c k) :=
  .foldl (fun d i => .ite (.probeSees c d i _ k) (.refl d)) _ d

/-- Without a trace, observation leaves memory and the domains as they are (R344). -/
structure Untraced (d e : Dev) : Prop where
  mem : e.mem = d.mem
  power : e.power = d.power
  trcMode : e.fab.trcMode = d.fab.trcMode

theorem Untraced.awake {d e : Dev} (h : Untraced d e) (n : Nat) : e.awake n = d.awake n := by
  unfold Dev.awake Dev.dom; rw [h.power]

theorem Untraced.trans {a b d : Dev} (h : Untraced a b) (k : Untraced b d) : Untraced a d :=
  ⟨k.mem.trans h.mem, k.power.trans h.power, k.trcMode.trans h.trcMode⟩

theorem Untraced.drainBy (d : Dev) (e : Nat) (by_ : Int) : Untraced d (d.drainBy e by_) := by
  constructor <;> simp only [Dev.drainBy, Dev.updFab_fab, Dev.updFab_mem, Dev.updFab_power]
  split <;> rfl

theorem Untraced.eject (d : Dev) (k : Packet) : Untraced d (d.eject k) := by
  unfold Dev.eject
  split
  · exact .drainBy d _ _
  · exact ⟨rfl, rfl, rfl⟩

theorem Untraced.probeSees {d : Dev} (h : d.fab.trcMode = 0) (c : Clock) (i : Nat) (p : Probe) (k : Packet) :
    Untraced d (d.probeSees c i p k) := by
  unfold Dev.probeSees Dev.traceOut
  simp only [draw, Dev.updFab_fab, h, if_true, ite_self]
  exact ⟨rfl, rfl, rfl⟩

theorem Untraced.ite {p : Prop} [Decidable p] {d e : Dev} (h : Untraced d e) : Untraced d (if p then e else d) := by
  split
  · exact h
  · exact ⟨rfl, rfl, rfl⟩

theorem Untraced.foldl {β : Type} {f : Dev → β → Dev} (h : ∀ d b, d.fab.trcMode = 0 → Untraced d (f d b)) (l : List β)
    {d : Dev} (hd : d.fab.trcMode = 0) : Untraced d (l.foldl f d) := by
  induction l generalizing d with
  | nil => exact ⟨rfl, rfl, rfl⟩
  | cons b l ih =>
    have hstep := h d b hd
    exact .trans hstep (ih (hstep.trcMode.trans hd))

theorem Untraced.observe {d : Dev} (h : d.fab.trcMode = 0) (c : Clock) (k : Packet) : Untraced d (d.observe c k) :=
  .foldl (fun _ i hd => .ite (.probeSees hd c i _ k)) _ h

/-! ### Answers of targets -/

/-- The response to request `k` (R325). -/
def Dev.response (d : Dev) (k : Packet) (r : Resp) (bs : List Byte) : Packet :=
  { k with src := k.dest, sport := localPort k.dest, dest := k.src, dport := k.sport, type := if k.type = 1 then 4 else 5
           epoch := d.fab.epoch, resp := r.code, injT := Config.freeNat d.free % 65536, counted := true
           data := if k.type = 1 then bs else [] }

/-- The block before response `p` joins those on their way: a free value drawn, the packet counted and observed. -/
def Dev.injected (c : Clock) (d : Dev) (p : Packet) : Dev := ((draw d).2.drainBy d.fab.epoch 1).observe c p

theorem SamePackets.injected (c : Clock) (d : Dev) (p : Packet) : SamePackets d (d.injected c p) :=
  .trans (.trans (.draw d) (.drainBy _ _ 1)) (.observe c _ p)

theorem Untraced.injected {d : Dev} (h : d.fab.trcMode = 0) (c : Clock) (p : Packet) : Untraced d (d.injected c p) := by
  have hdrain : Untraced d ((draw d).2.drainBy d.fab.epoch 1) := .trans (b := (draw d).2) ⟨rfl, rfl, rfl⟩ (.drainBy _ _ _)
  exact .trans hdrain (.observe (hdrain.trcMode.trans h) c _)

/-- The response to a request follows those on their way (R325). -/
theorem Dev.answer_eq (c : Clock) (d : Dev) (k : Packet) (r : Resp) (bs : List Byte) :
    d.answer c k r bs = (d.injected c (d.response k r bs)).updFab fun f => { f with rsp := f.rsp ++ [d.response k r bs] } := rfl

theorem Dev.answer_rsp (c : Clock) (d : Dev) (k : Packet) (r : Resp) (bs : List Byte) :
    (d.answer c k r bs).fab.rsp = d.fab.rsp ++ [d.response k r bs] := by
  simp only [Dev.answer_eq, Dev.updFab_fab, (SamePackets.injected c d _).rsp]

theorem Dev.answer_atGate (c : Clock) (d : Dev) (k : Packet) (r : Resp) (bs : List Byte) :
    (d.answer c k r bs).fab.atGate = d.fab.atGate := by
  simp only [Dev.answer_eq, Dev.updFab_fab, (SamePackets.injected c d _).atGate]

theorem Dev.answer_held (c : Clock) (d : Dev) (k : Packet) (r : Resp) (bs : List Byte) :
    (d.answer c k r bs).fab.held = d.fab.held := by
  simp only [Dev.answer_eq, Dev.updFab_fab, (SamePackets.injected c d _).held]

theorem Dev.answer_flipStall (c : Clock) (d : Dev) (k : Packet) (r : Resp) (bs : List Byte) :
    (d.answer c k r bs).fab.flipStall = d.fab.flipStall := by
  simp only [Dev.answer_eq, Dev.updFab_fab, (SamePackets.injected c d _).flipStall]

theorem Dev.answer_gate (c : Clock) (d : Dev) (k : Packet) (r : Resp) (bs : List Byte) (n : Nat) :
    (d.answer c k r bs).gate n = d.gate n := by
  simp only [Dev.gate, Dev.answer_eq, Dev.updFab_fab, (SamePackets.injected c d _).gates]

theorem Dev.answer_mem {d : Dev} (h : d.fab.trcMode = 0) (c : Clock) (k : Packet) (r : Resp) (bs : List Byte) :
    (d.answer c k r bs).mem = d.mem := by
  simp only [Dev.answer_eq, Dev.updFab_mem, (Untraced.injected h c _).mem]

/-! ### DRAM -/

theorem lt_of_regionOf_dram {a : Nat} (h : regionOf a = .dram) : a < 0x3000000000 := by
  unfold regionOf at h
  split at h
  · cases h
  split at h
  · cases h
  split at h
  · cases h
  split at h
  · next hin => simp only [Bool.and_eq_true, decide_eq_true_eq] at hin; omega
  split at h <;> cases h

/-- A read of awake, clean DRAM is answered DONE with its bytes, and changes nothing (R333, R373). -/
theorem Dev.busRead_dram {d : Dev} {a n : Nat} (hreg : regionOf a = .dram) (hin : inMemory a n = true)
    (hawake : (memDomain a).all d.awake = true) (hecc : d.mem.ecc = []) (c : Clock) (q : Requester) (cls : Nat) (peer : Peer) :
    d.busRead c q a n cls peer = (.done, readBytes d.mem.cells a n, d) := by
  have hlt := lt_of_regionOf_dram hreg
  unfold Dev.busRead
  rw [hreg]
  have hcells : d.cellBytes a n = readBytes d.mem.cells a n := by
    unfold Dev.cellBytes
    rw [if_neg (by omega), if_neg (by omega)]
  simp [hin, hawake, Dev.memRead, Dev.checkRead_of_noEcc hecc, hcells]

/-! ### Injection (R323, R333, R336) -/

/-- The request as it is injected: in the current epoch. -/
def Dev.inEpoch (d : Dev) (k : Packet) : Packet := { k with epoch := d.fab.epoch }

/-- The block that has counted and observed the request. -/
def Dev.entered (c : Clock) (d : Dev) (k : Packet) : Dev := (d.drainBy d.fab.epoch 1).observe c (d.inEpoch k)

theorem SamePackets.entered (c : Clock) (d : Dev) (k : Packet) : SamePackets d (d.entered c k) :=
  .trans (.drainBy d _ 1) (.observe c _ _)

theorem Untraced.entered {d : Dev} (h : d.fab.trcMode = 0) (c : Clock) (k : Packet) : Untraced d (d.entered c k) :=
  .trans (.drainBy d _ 1) (.observe ((Untraced.drainBy d d.fab.epoch 1).trcMode.trans h) c _)

theorem Dev.inject_eq (c : Clock) (d : Dev) (k : Packet) (q : Requester) (peer : Nat) :
    d.inject c k q peer = match memDomain k.addr with
      | some dom =>
        if ((d.entered c k).gate dom).st != 0 || !(d.entered c k).awake dom then
          (d.entered c k).updFab fun f => { f with atGate := f.atGate ++ [{ d.inEpoch k with dom := dom }] }
        else (d.entered c k).performAt c (d.inEpoch k) q peer
      | none => (d.entered c k).performAt c (d.inEpoch k) q peer := rfl

/-- Request `k` reads awake, clean DRAM behind an open gate, and no trace runs. -/
structure ReadsDram (d : Dev) (k : Packet) (dom : Nat) : Prop where
  read : k.type = 1
  region : regionOf k.addr = .dram
  within : inMemory k.addr (k.len + 1) = true
  domain : memDomain k.addr = some dom
  opened : (d.gate dom).st = 0
  awake : d.awake dom = true
  untraced : d.fab.trcMode = 0
  clean : d.mem.ecc = []

theorem ReadsDram.of_same {d e : Dev} {k : Packet} {dom : Nat} (h : ReadsDram d k dom) (hp : SamePackets d e)
    (hu : Untraced d e) : ReadsDram e k dom := by
  obtain ⟨hread, hregion, hwithin, hdomain, hopened, hawake, huntraced, hclean⟩ := h
  exact ⟨hread, hregion, hwithin, hdomain, by rw [hp.gate]; exact hopened, by rw [hu.awake]; exact hawake,
    hu.trcMode.trans huntraced, by rw [hu.mem]; exact hclean⟩

/-- The target answers the read DONE with the bytes it holds (R333). -/
theorem ReadsDram.performAt {d : Dev} {k : Packet} {dom : Nat} (h : ReadsDram d k dom) (c : Clock) (q : Requester) (peer : Nat) :
    d.performAt c k q peer = (d.eject k).answer c k .done (readBytes d.mem.cells k.addr (k.len + 1)) := by
  obtain ⟨hread, hregion, hwithin, hdomain, -, hawake, -, hclean⟩ := h.of_same (.eject d k) (.eject d k)
  unfold Dev.performAt
  simp [hread, Dev.busRead_dram hregion hwithin (by rw [hdomain]; exact hawake) hclean, (Untraced.eject d k).mem]

/-- A read of DRAM that is injected is answered at once: its response follows those on their way. -/
theorem ReadsDram.inject {d : Dev} {k : Packet} {dom : Nat} (h : ReadsDram d k dom) (c : Clock) (q : Requester) (peer : Nat) :
    (∃ p : Packet, (d.inject c k q peer).fab.rsp = d.fab.rsp ++ [p] ∧ p.resp = 0 ∧ p.dest = k.src ∧ p.tag = k.tag ∧
      p.type = 4 ∧ p.data = readBytes d.mem.cells k.addr (k.len + 1)) ∧ (d.inject c k q peer).mem = d.mem := by
  have hsame := SamePackets.entered c d k
  have hmem := Untraced.entered h.untraced c k
  have hentered : ReadsDram (d.entered c k) (d.inEpoch k) dom :=
    ReadsDram.of_same (k := d.inEpoch k) ⟨h.read, h.region, h.within, h.domain, h.opened, h.awake, h.untraced, h.clean⟩ hsame hmem
  have hread : k.type = 1 := h.read
  rw [Dev.inject_eq, h.domain]
  simp only [hentered.opened, hentered.awake, bne_self_eq_false, Bool.not_true, Bool.or_false, Bool.false_eq_true, if_false,
    hentered.performAt]
  refine ⟨⟨((d.entered c k).eject (d.inEpoch k)).response (d.inEpoch k) .done
    (readBytes (d.entered c k).mem.cells (d.inEpoch k).addr ((d.inEpoch k).len + 1)), ?rsp, rfl, rfl, rfl, if_pos hread,
    (if_pos hread).trans ?data⟩, ?mem⟩
  case rsp => rw [Dev.answer_rsp, (SamePackets.eject _ _).rsp, hsame.rsp]
  case data => rw [hmem.mem]; rfl
  case mem =>
    rw [Dev.answer_mem ((Untraced.eject _ _).trcMode.trans hentered.untraced), (Untraced.eject _ _).mem, hmem.mem]

theorem decodeNode_isSome_of_dram {a : Nat} (h : regionOf a = .dram) : (decodeNode a).isNone = false := by
  unfold decodeNode; rw [h]; rfl

/-- A core's read of DRAM, no flip being under way, is injected with PRI 1 (R328). -/
theorem exec_fabricRequest_coreRead {s : State} {src sport pri tag addr len peer idx priv errNode errPort : Nat}
    {data : List Byte} (hsrc : nodeExists src = true) (hlen : len < 512) (hpri : pri < 4) (hregion : regionOf addr = .dram)
    (hflip : s.dev.fab.flipping = none) :
    exec (.fabricRequest src sport 1 pri tag addr len data peer 0 idx priv errNode errPort 0) s = .next { s with
      dev := (draw s.dev).2.inject s.clk
        { src := src, sport := sport, dest := (decodeNode addr).getD 0, type := 1, pri := 1, epoch := s.dev.fab.epoch, tag := tag
          len := len, addr := addr, rid := (Requester.core idx priv).rid, dport := localPort ((decodeNode addr).getD 0)
          data := data, injT := Config.freeNat s.dev.free % 65536, dom := 32, priv := priv, peer := peer }
        (.core idx priv) peer } := by
  show execFabricRequest src sport 1 pri tag addr len data peer 0 idx priv errNode errPort 0 s = _
  unfold execFabricRequest
  simp [onDev_eq, hsrc, Nat.not_le.2 hlen, Nat.not_lt.2 (Nat.le_of_lt_succ hpri), requesterOf, Dev.priority,
    decodeNode_isSome_of_dram hregion, draw, hflip]

/-! ### Responses, gates and holds (R327, R333, R336, R339, R340) -/

/-- Arbitration counts grants and changes nothing else (R327). -/
theorem Fabric.arbitrate_eq (f : Fabric) (l : List Packet) (node : Nat) :
    (f.arbitrate l node).2 = { f with passed := (f.arbitrate l node).2.passed } := by
  unfold Fabric.arbitrate
  dsimp only
  split
  · rfl
  · split <;> rfl

theorem vcOf_mem_vcOrder (type pri : Nat) : vcOf type pri ∈ vcOrder := by
  unfold vcOf vcOrder
  repeat' split
  all_goals decide

/-- The one virtual channel that is ready, is the next. -/
theorem nextVc_one (passed : Nat → Nat) {v : Nat} (hv : v ∈ vcOrder) : nextVc passed (fun u => decide (v = u)) = some v := by
  unfold nextVc
  split
  · next u hfind =>
    have hu := List.find?_some hfind
    simp only [Bool.and_eq_true, decide_eq_true_eq] at hu
    rw [hu.1]
  · obtain ⟨u, hfind⟩ := Option.isSome_iff_exists.1
      (List.find?_isSome (p := fun u => decide (v = u)).2 ⟨v, hv, decide_eq_true rfl⟩)
    have hu : v = u := by simpa using List.find?_some hfind
    rw [hfind, hu]

/-- The one packet there is, is the next. -/
theorem Fabric.arbitrate_one (f : Fabric) (p : Packet) : (f.arbitrate [p] p.exit).1 = some p := by
  have hready : ∀ v, ([p].any fun q => decide (vcOf q.type q.pri = v)) = decide (vcOf p.type p.pri = v) := fun v => by simp
  unfold Fabric.arbitrate
  simp [hready, nextVc_one _ (vcOf_mem_vcOrder p.type p.pri)]

/-- A DONE response to a requester of the base leaves the fabric by the arbitrated port (R327, R333). -/
theorem exec_fabricResponse_done {s : State} {q : Packet}
    (hnext : (s.dev.fab.arbitrate s.dev.fab.rsp ((s.dev.fab.rsp.head?.map (·.exit)).getD 0)).1 = some q)
    (hcounted : q.counted = false) (hrid : q.rid.1 = 5) (hdone : q.resp = 0) :
    exec .fabricResponse s = .next { s with dev := s.dev.updFab fun _ =>
      { (s.dev.fab.arbitrate s.dev.fab.rsp q.exit).2 with rsp := s.dev.fab.rsp.erase q, got := some q } } := by
  have hdomain : ridDomain q.rid = none := by unfold ridDomain; simp [hrid]
  have hrsp : (s.dev.fab.arbitrate s.dev.fab.rsp q.exit).2.rsp = s.dev.fab.rsp := by rw [Fabric.arbitrate_eq]
  show execFabricResponse s = _
  unfold execFabricResponse
  simp [onDev_eq, hnext, Dev.eject, hcounted, hdomain, hdone, hrsp, Dev.updFab]

/-- A read at a closed gate is answered ASLEEP and counted (R339). -/
theorem exec_packetAtClosedGate_read {s : State} {q : Packet} {qs : List Packet} (hgate : s.dev.fab.atGate = q :: qs)
    (hread : q.type = 1) (hcounted : q.counted = false) :
    exec .packetAtClosedGate s = .next { s with
      dev := ((s.dev.updFab fun f => { f with atGate := qs }).updGate q.dom fun g =>
        { g with asleep := satAdd 32 g.asleep 1 }).answer s.clk q .asleep (ones8 (q.len + 1)) } := by
  show execPacketAtClosedGate s = _
  unfold execPacketAtClosedGate
  simp [onDev_eq, hgate, Dev.eject, hcounted, nonPosted, hread]

/-- With nothing outstanding a closed gate isolates its domain (R340). -/
theorem exec_gateIsolated_idle {s : State} {dom : Nat} (hclosed : (s.dev.gate dom).st = 1) (hrsp : s.dev.fab.rsp = [])
    (hgate : s.dev.fab.atGate = []) (hheld : s.dev.fab.held = []) :
    exec (.gateIsolated dom) s = .next { s with dev := s.dev.updGate dom fun g => { g with st := 2 } } := by
  show execGateIsolated dom s = _
  unfold execGateIsolated
  simp [onDev_eq, hclosed, hrsp, hgate, hheld]

/-- The holds are the same in two blocks. -/
structure SameHolds (d e : Dev) : Prop where
  held : e.fab.held = d.fab.held
  flipStall : e.fab.flipStall = d.fab.flipStall

theorem SameHolds.trans {a b d : Dev} (h : SameHolds a b) (k : SameHolds b d) : SameHolds a d :=
  ⟨k.held.trans h.held, k.flipStall.trans h.flipStall⟩

theorem SameHolds.of_fab {d e : Dev} (h : e.fab = d.fab) : SameHolds d e := by constructor <;> rw [h]

theorem SamePackets.holds {d e : Dev} (h : SamePackets d e) : SameHolds d e := ⟨h.held, h.flipStall⟩

theorem SameHolds.answer (c : Clock) (d : Dev) (k : Packet) (r : Resp) (bs : List Byte) : SameHolds d (d.answer c k r bs) :=
  ⟨Dev.answer_held .., Dev.answer_flipStall ..⟩

theorem SameHolds.gateAsleep (d : Dev) (a : Nat) : SameHolds d (d.gateAsleep a) := by
  unfold Dev.gateAsleep; split <;> exact ⟨rfl, rfl⟩

theorem SameHolds.busRead_dram {a : Nat} (h : regionOf a = .dram) (c : Clock) (d : Dev) (q : Requester) (n cls : Nat)
    (peer : Peer) : SameHolds d (d.busRead c q a n cls peer).2.2 := by
  unfold Dev.busRead
  rw [h]
  dsimp only
  split
  · exact ⟨rfl, rfl⟩
  split
  · exact .gateAsleep d a
  · exact .of_fab (MemoryOnly.checkRead c d a n cls _).fab

theorem SameHolds.busWrite_dram {a : Nat} (h : regionOf a = .dram) (c : Clock) (d : Dev) (q : Requester) (bs : List Byte)
    (peer : Peer) : SameHolds d (d.busWrite c q a bs peer).2 := by
  unfold Dev.busWrite
  rw [h]
  dsimp only
  split
  · exact ⟨rfl, rfl⟩
  split
  · exact .gateAsleep d a
  · exact .of_fab (MemoryOnly.memWrite d a bs).fab

/-- Whatever a request to DRAM asks, its target touches no hold. -/
theorem SameHolds.performAt {k : Packet} (h : regionOf k.addr = .dram) (c : Clock) (d : Dev) (q : Requester) (peer : Nat) :
    SameHolds d (d.performAt c k q peer) := by
  unfold Dev.performAt
  dsimp only
  refine .trans (SamePackets.eject d k).holds ?_
  split
  · exact .trans (.busRead_dram h ..) (.answer ..)
  split
  · exact .answer ..
  refine .trans (.busWrite_dram h c (d.eject k) q ((k.data ++ List.replicate (k.len + 1) 0).take (k.len + 1)) { resp := peer }) ?_
  split
  · exact .answer ..
  split
  · exact ⟨rfl, rfl⟩
  · exact ⟨rfl, rfl⟩

theorem SameHolds.meetGate (d : Dev) (k : Packet) : SameHolds d (d.updFab fun f => { f with atGate := f.atGate ++ [k] }) :=
  ⟨rfl, rfl⟩

theorem SameHolds.inject {k : Packet} (h : regionOf k.addr = .dram) (c : Clock) (d : Dev) (q : Requester) (peer : Nat) :
    SameHolds d (d.inject c k q peer) := by
  have hperform := SameHolds.performAt (k := d.inEpoch k) h c (d.entered c k) q peer
  rw [Dev.inject_eq]
  refine .trans (SamePackets.entered c d k).holds ?_
  split
  · split
    · exact .meetGate ..
    · exact hperform
  · exact hperform

/-- The one held request goes, and the cycles that it was held count (R336). -/
theorem exec_flipHoldRelease_one {s : State} {q : Packet} (hheld : s.dev.fab.held = [q]) (hgate : s.dev.fab.atGate = []) :
    exec .flipHoldRelease s = .next { s with
      dev := (s.dev.updFab fun f => { (f.arbitrate [q] q.exit).2 with
        held := [], flipStall := satAdd 32 f.flipStall (fabricCycles (s.clk.atc - q.heldAt)) }).inject s.clk
          { q with counted := true } (requesterOf q.rid.1 q.rid.2 q.priv) q.peer } := by
  have hkept := Fabric.arbitrate_eq s.dev.fab [q] q.exit
  have harb : (s.dev.fab.arbitrate [q] q.exit).2.held = [q] ∧
      (s.dev.fab.arbitrate [q] q.exit).2.flipStall = s.dev.fab.flipStall := by rw [hkept]; exact ⟨hheld, rfl⟩
  show execFlipHoldRelease s = _
  unfold execFlipHoldRelease
  simp [onDev_eq, hheld, hgate, Fabric.arbitrate_one, harb, Dev.updFab]

/-- Settles O22: what each packet meets on its way. -/
theorem fabricPackets : Obligations.FabricPackets := by
  unfold Obligations.FabricPackets
  refine ⟨?request, ?response, ?closedGate, ?release, ?isolated⟩
  case request =>
    intro s src sport type pri tag addr len peer kind idx priv errNode errPort replays data dom hsrc htype hreplays hkind hlen
      hpri hregion hwithin hdomain hopened hawake hflip htrace hecc
    subst htype hreplays hkind
    refine ⟨_, exec_fabricRequest_coreRead hsrc hlen hpri hregion hflip, ?_⟩
    exact ReadsDram.inject (d := (draw s.dev).2) ⟨rfl, hregion, hwithin, hdomain, hopened, hawake, htrace, hecc⟩ _ _ _
  case response =>
    intro s q hnext hcounted hrid hdone
    exact exec_fabricResponse_done hnext hcounted hrid hdone
  case closedGate =>
    intro s q qs hgate hread hcounted
    refine ⟨_, exec_packetAtClosedGate_read hgate hread hcounted, ?_, ?_, ⟨_, Dev.answer_rsp .., rfl, rfl⟩⟩
    · rw [Dev.answer_atGate]; rfl
    · rw [Dev.answer_gate]; simp [Dev.gate, Dev.updGate, tget_tmod]
  case release =>
    intro s q hheld hgate hregion
    refine ⟨_, exec_flipHoldRelease_one hheld hgate, ?_⟩
    obtain ⟨hnone, hstall⟩ := SameHolds.inject (k := { q with counted := true }) hregion s.clk
      (s.dev.updFab fun f => { (f.arbitrate [q] q.exit).2 with
        held := [], flipStall := satAdd 32 f.flipStall (fabricCycles (s.clk.atc - q.heldAt)) })
      (requesterOf q.rid.1 q.rid.2 q.priv) q.peer
    exact ⟨hnone, hstall⟩
  case isolated =>
    intro s dom hclosed hrsp hgate hheld
    exact exec_gateIsolated_idle hclosed hrsp hgate hheld

end Sys2Proof.Machine
end

section
/-! Statement O23: routes, epochs, links and probes of the fabric (R332, R334-R337, R342, R344, R345). -/
namespace Sys2Proof.Machine

theorem HostOnly.fab {d e : Dev} (h : HostOnly d e) : e.fab = d.fab := by rw [h.dev]

@[simp] theorem Dev.evt0_fab (c : Clock) (d : Dev) (code tag : Nat) (fs : List (Nat × Nat × Nat)) :
    (d.evt0 c code tag fs).fab = d.fab := (HostOnly.evt c d 0 0 code tag fs).fab

@[simp] theorem Dev.trouble_fab (d : Dev) (w b : Nat) : (d.trouble w b).fab = d.fab := rfl

/-! ### Links (R332) -/

theorem Dev.link_updLink {d : Dev} {node port k : Nat} (hk : linkKey node port = some k) (g : Link → Link) :
    (d.updLink node port g).fab.link node port = g (d.fab.link node port) := by
  simp [Dev.updLink, Fabric.link, hk, tget_tmod]

theorem Dev.routes_updLink (d : Dev) (node port : Nat) (g : Link → Link) : (d.updLink node port g).fab.routes = d.fab.routes := by
  unfold Dev.updLink; cases linkKey node port <;> rfl

/-- The eighth replay of a flit marks the link failed in the epoch of the moment (R332). -/
theorem exec_fabLinkFault_fails {s : State} {node port k : Nat} (hk : linkKey node port = some k)
    (hup : (s.dev.fab.link node port).failed = false) :
    exec (.fabLinkFault node port) s = .next { s with
      dev := ((s.dev.replay node port 8).updLink node port fun l =>
        { l with failed := true, epoch := (s.dev.replay node port 8).fab.epoch }).evt0 s.clk 0x0EE1 0
          [(0, 1, node), (1, 1, port)] } := by
  have hstill : ((s.dev.replay node port 8).fab.link node port).failed = false := by
    unfold Dev.replay; rw [Dev.link_updLink hk]; exact hup
  show execFabLinkFault node port s = _
  unfold execFabLinkFault
  simp [onDev_eq, hk, hup, Dev.replays, Dev.failLink, hstill]

/-- A failed link that no packet can reach returns after a clean self-test (R332, R382, R383). -/
theorem exec_linkSelftestDone_clean {s : State} {node port k : Nat} (hk : linkKey node port = some k)
    (hfailed : (s.dev.fab.link node port).failed = true) (hlasting : (s.dev.fab.link node port).lasting = false)
    (hepoch : (s.dev.fab.link node port).epoch ≠ s.dev.fab.epoch) (hdrained : s.dev.fab.oldDrained = true)
    (hfourth : fourth 4 k (recentTransients s.clk.atc 4 k s.dev.mem.transients) = false) :
    exec (.linkSelftestDone node port false) s = .next { s with
      dev := ((s.dev.updMem fun m => { m with transients := recentTransients s.clk.atc 4 k m.transients }).trouble 32
        trbTRANSIENT).updLink node port fun l => { l with failed := false } } := by
  show execLinkSelftestDone node port false s = _
  unfold execLinkSelftestDone
  simp [onDev_eq, hk, hfailed, hlasting, hepoch, hdrained, hfourth, Dev.updMem]

/-! ### Epochs (R334-R337) -/

/-- At T_F the new epoch is current, and the old one drains (R336). -/
theorem exec_routeFlip_due {s : State} {at_ tag : Nat} (hflip : s.dev.fab.flipAt = some (at_, tag)) (hdue : at_ ≤ s.clk.atc) :
    exec .routeFlip s = .next { s with
      dev := s.dev.updFab fun f => { f with epoch := 1 - f.epoch, flipAt := none, flipping := some tag, oldDrained := false } } := by
  show execRouteFlip s = _
  unfold execRouteFlip
  simp [onDev_eq, hflip, Nat.not_lt.2 hdue]

/-- The old epoch retires once it holds no packet (R337). -/
theorem exec_fabEpochRetired_drained {s : State} {tag : Nat} (hflip : s.dev.fab.flipping = some tag) (hheld : s.dev.fab.held = [])
    (hdrain : s.dev.fab.drain (1 - s.dev.fab.epoch) = 0) :
    exec .fabEpochRetired s = .next { s with
      dev := (s.dev.updFab fun f => { f with flipping := none, oldDrained := true, retiredAt := s.clk.atc }).evt0 s.clk 0x0EE0 tag
        [(0, 1, 1 - s.dev.fab.epoch), (8, 8, s.clk.atc)] } := by
  show execFabEpochRetired s = _
  unfold execFabEpochRetired
  simp [onDev_eq, hflip, hheld, hdrain]

section
variable {s : State} {r : Req} {w : Waiting}

/-- The first table of a commit is stored where all tables together keep R334, and refused elsewhere. -/
theorem exec_fabRouteWrite_first {node turns : Nat} {table : List Nat} (hw : Waits s r 0x0EC0 w) (hnode : nodeExists node = true)
    (hdrained : s.dev.fab.oldDrained = true) (hlen : table.length = 128)
    (hfirst : s.dev.fab.written = []) :
    exec (.fabRouteWrite r node (1 - s.dev.fab.epoch) turns table) s = .next { s with
      dev := if s.dev.fab.routesOk turns
          (fun n t => if n = node then table.getD (t % 128) 0xFF else s.dev.fab.route s.dev.fab.epoch n t) then
        answered s.clk w rOk (noted (s.dev.updFab fun f =>
          { f with routes := tput f.routes (256 * (1 - s.dev.fab.epoch) + node) table, turns := turns % 16, written := [node] }))
        else answered s.clk w (rBad 3) s.dev } := by
  have hbank : ¬ 1 < 1 - s.dev.fab.epoch := by omega
  split
  · next hok =>
    refine onDev_serve_journalled hw (by decide) (.inl rfl) (fits_zero w) rfl ?_
    simp [-List.getD_eq_getElem?_getD, hnode, hbank, hdrained, hlen, hfirst, hok, Dev.updFab]
  · next hok =>
    refine onDev_serve_refused hw (by decide) (fits_zero w) ?_
    simp [-List.getD_eq_getElem?_getD, hnode, hbank, hdrained, hlen, hfirst, hok]

/-- A commit in time, of tables written since the last, waits for its T_F (R336). -/
theorem exec_fabRouteCommit_accepted {at_ : Nat} (hw : Waits s r 0x0EC1 w) (hfit : Fits w 1) (hnone : s.dev.fab.flipAt = none)
    (hflip : s.dev.fab.flipping = none) (hdrained : s.dev.fab.oldDrained = true) (hwritten : s.dev.fab.written ≠ [])
    (htime : w.rung + 39322 ≤ at_) :
    exec (.fabRouteCommit r at_) s = .next { s with
      dev := answered s.clk w (rAcc [(1, 1 - s.dev.fab.epoch)])
        (noted (s.dev.updFab fun f => { f.fillBanks with flipAt := some (at_, w.tag), written := [] })) } := by
  refine onDev_serve_journalled hw (by decide) (.inr rfl) hfit (Dev.updFab_host ..) ?_
  simp [hnone, hflip, hdrained, hwritten, Nat.not_lt.2 htime]

/-- A disabled probe is set at the local port of a node (R342, R345). -/
theorem exec_fabProbeSet_local {probe enable node dir mode srcLo srcHi destLo destHi pri vc type addrLo addrHi : Nat}
    (hw : Waits s r 0x0EC3 w) (hprobe : probe < 32) (henable : enable ≤ 1) (hnode : nodeExists node = true) (hdir : dir ≤ 1)
    (hmode : mode ≤ 2) (hoff : (tget {} s.dev.fab.probes probe).en = false) :
    exec (.fabProbeSet r probe enable node (localPort node) dir mode srcLo srcHi destLo destHi pri vc type addrLo addrHi) s =
      .next { s with dev := answered s.clk w rOk (noted (s.dev.updFab fun f => { f with
        probes := tmod {} f.probes probe fun p => { p with
          en := enable = 1, node := node, port := localPort node, dir := dir, mode := mode, src := (srcLo, srcHi)
          dest := (destLo, destHi), pri := pri, vc := vc, type := type, addr := (addrLo, addrHi) } })) } := by
  refine onDev_serve_journalled hw (by decide) (.inl rfl) (fits_zero w) rfl ?_
  simp [Nat.not_le.2 hprobe, Nat.not_lt.2 henable, hnode, Nat.not_lt.2 hdir, Nat.not_lt.2 hmode, hoff]

/-- Without probes the trace is set to a ring in DRAM (R344). -/
theorem exec_fabTraceSet_dram {addr log mode : Nat} (hw : Waits s r 0x0EC4 w) (haddr : addr % 4096 = 0)
    (hfirst : regionOf addr = .dram) (hlast : regionOf (addr + 32 * 2 ^ log - 1) = .dram) (hlog : 8 ≤ log ∧ log ≤ 20)
    (hmode : mode ≤ 2) (hprobes : s.dev.fab.probes = []) :
    exec (.fabTraceSet r addr log mode) s = .next { s with
      dev := answered s.clk w rOk (noted (s.dev.updFab fun f => { f with trcAddr := addr, trcLog := log, trcMode := mode })) } := by
  refine onDev_serve_journalled hw (by decide) (.inl rfl) (fits_zero w) rfl ?_
  simp [haddr, hfirst, hlast, Nat.min_eq_left hlog.2, Nat.not_lt.2 hlog.1, Nat.not_lt.2 hlog.2, Nat.not_lt.2 hmode, hprobes]

theorem exec_fabGateStatus {dom : Nat} (hw : Waits s r 0x0EC5 w) (hfit : Fits w 9) (hdom : dom < 32) :
    exec (.fabGateStatus r dom) s = .next { s with
      dev := answered s.clk w (rOk [(1, (s.dev.gate dom).st), (4, (s.dev.gate dom).asleep), (4, (s.dev.gate dom).drop)]) s.dev } := by
  refine onDev_serve_noFx hw (by decide) hfit ?_
  simp [Nat.not_le.2 hdom]

theorem exec_fabLinkStatus_link {node port k : Nat} (hw : Waits s r 0x0EC6 w) (hfit : Fits w 9)
    (hk : linkKey node port = some k) :
    exec (.fabLinkStatus r node port) s = .next { s with
      dev := answered s.clk w (rOk [(1, (s.dev.fab.link node port).failed.toNat), (4, (s.dev.fab.link node port).replays),
        (4, (s.dev.fab.link node port).crc)]) s.dev } := by
  refine onDev_serve_noFx hw (by decide) hfit ?_
  simp [hk]

end

/-- Settles O23: each command has its lemma above. -/
theorem fabricRoutesAndProbes : Obligations.FabricRoutesAndProbes := by
  unfold Obligations.FabricRoutesAndProbes
  refine ⟨?write, ?commit, ?flip, ?retired, ?routeStatus, ?probe, ?trace, ?gateStatus, ?fault, ?selftest, ?linkStatus⟩
  case write =>
    intro s r w node bank turns table hw hnode hbank hepoch hdrained hlen hfirst
    subst hbank
    exact exec_fabRouteWrite_first hw hnode hdrained hlen hfirst
  case commit =>
    intro s r w at_ hw hfit hnone hflip hdrained hwritten htime
    exact exec_fabRouteCommit_accepted hw hfit hnone hflip hdrained hwritten htime
  case flip =>
    intro s at_ tag hflip hdue
    exact exec_routeFlip_due hflip hdue
  case retired =>
    intro s tag hflip hheld hdrain
    exact exec_fabEpochRetired_drained hflip hheld hdrain
  case routeStatus =>
    intro s r w hw hfit
    exact onDev_serve_noFx hw (by decide) hfit rfl
  case probe =>
    intro s r w probe enable node port dir mode srcLo srcHi destLo destHi pri vc type addrLo addrHi hw hprobe henable hnode hport
      hdir hmode hoff
    subst hport
    exact exec_fabProbeSet_local hw hprobe henable hnode hdir hmode hoff
  case trace =>
    intro s r w addr log mode hw haddr hfirst hlast hlog hmode hprobes
    exact exec_fabTraceSet_dram hw haddr hfirst hlast hlog hmode hprobes
  case gateStatus =>
    intro s r w dom hw hfit hdom
    exact exec_fabGateStatus hw hfit hdom
  case fault =>
    intro s node port k hk hup
    refine ⟨_, exec_fabLinkFault_fails hk hup, ?_⟩
    rw [Dev.evt0_fab, Dev.link_updLink hk, Dev.replay, Dev.link_updLink hk, Dev.updLink, hk]
    exact ⟨rfl, rfl, rfl⟩
  case selftest =>
    intro s node port k errors hk hfailed hlasting hepoch hdrained herrors hfourth
    subst herrors
    refine ⟨_, exec_linkSelftestDone_clean hk hfailed hlasting hepoch hdrained hfourth, ?_, ?_⟩
    · rw [Dev.link_updLink hk]
    · rw [Dev.routes_updLink, Dev.trouble_fab, Dev.updMem_fab]
  case linkStatus =>
    intro s r w node port k hw hfit hk
    exact exec_fabLinkStatus_link hw hfit hk

end Sys2Proof.Machine
end

section
/-! Statement O24: rings of mover channels, completion, halts, resume and disable (R351, R355-R357, R362-R364). -/
namespace Sys2Proof.Machine

/-! ### What accesses, events and READY leave of the movers -/

theorem MemoryOnly.mov {d e : Dev} (h : MemoryOnly d e) : e.mov = d.mov := by rw [h.dev]
theorem HostOnly.mov {d e : Dev} (h : HostOnly d e) : e.mov = d.mov := by rw [h.dev]

@[simp] theorem Dev.memWrite_mov (d : Dev) (a : Nat) (bs : List Byte) : (d.memWrite a bs).2.mov = d.mov :=
  (MemoryOnly.memWrite d a bs).mov
@[simp] theorem Dev.evt_mov (c : Clock) (d : Dev) (ring own code tag : Nat) (fs : List (Nat × Nat × Nat)) :
    (d.evt c ring own code tag fs).mov = d.mov := (HostOnly.evt c d ring own code tag fs).mov
@[simp] theorem Dev.evt0_mov (c : Clock) (d : Dev) (code tag : Nat) (fs : List (Nat × Nat × Nat)) :
    (d.evt0 c code tag fs).mov = d.mov := Dev.evt_mov c d 0 0 code tag fs
@[simp] theorem Dev.cause_mov (c : Clock) (d : Dev) (f v : Nat) : (d.cause c f v).mov = d.mov := (HostOnly.cause c d f v).mov
@[simp] theorem Dev.logDrop_mov (c : Clock) (d : Dev) (w addr rid why : Nat) : (d.logDrop c w addr rid why).mov = d.mov := rfl
@[simp] theorem Dev.chanFetch_mov (d : Dev) (n a len : Nat) : (d.chanFetch n a len).2.mov = d.mov := rfl
@[simp] theorem Dev.chanStore_mov (d : Dev) (n a : Nat) (bs : List Byte) : (d.chanStore n a bs).mov = d.mov := rfl
@[simp] theorem Dev.updGate_mov (d : Dev) (n : Nat) (f : Gate → Gate) : (d.updGate n f).mov = d.mov := rfl
@[simp] theorem drawBytes_mov (n : Nat) (d : Dev) : (drawBytes n d).2.mov = d.mov := rfl

@[simp] theorem Dev.flushPort_mov (d : Dev) (n : Nat) : (d.flushPort n).mov = d.mov := by
  unfold Dev.flushPort; split <;> rfl

@[simp] theorem Dev.gateDrop_mov (c : Clock) (d : Dev) (dom addr rid : Nat) : (d.gateDrop c dom addr rid).mov = d.mov := by
  unfold Dev.gateDrop; simp [apply_ite Dev.mov]

/-- A posted write leaves the channels as they are (R357). -/
@[simp] theorem Dev.writePlace_mov (c : Clock) (d : Dev) (n : Nat) (bs : List Byte) (p : Place) :
    (d.writePlace c n bs p).mov = d.mov := by
  cases p <;> simp [Dev.writePlace, apply_ite Dev.mov]

@[simp] theorem Dev.putDesc_mov (c : Clock) (d : Dev) (n off v : Nat) : (d.putDesc c n off v).mov = d.mov := by
  unfold Dev.putDesc; simp

@[simp] theorem Dev.spoilDest_mov (c : Clock) (d : Dev) (n : Nat) (x : Desc) : (d.spoilDest c n x).mov = d.mov := by
  refine foldl_keeps Dev.mov (fun d p => ?_) x.pieces d
  split
  · rfl
  · simp [apply_ite Dev.mov]

@[simp] theorem Dev.setTb_mov (d : Dev) (t off n v : Nat) : (d.setTb t off n v).mov = d.mov := rfl
@[simp] theorem Dev.setFlag_mov (d : Dev) (t i : Nat) (v : Bool) : (d.setFlag t i v).mov = d.mov := rfl
@[simp] theorem Dev.bump_mov (d : Dev) (t off n v : Nat) : (d.bump t off n v).mov = d.mov := rfl
@[simp] theorem Dev.setCycle_mov (c : Clock) (d : Dev) (x : ThreadCycle) : (d.setCycle c x).mov = d.mov := rfl
@[simp] theorem Dev.release_mov (d : Dev) (t : Nat) : (d.release t).mov = d.mov := rfl

@[simp] theorem Dev.absorb_mov (c : Clock) (d : Dev) (t : Nat) (s : OpSrc) (disabled : Bool) :
    (d.absorb c t s disabled).mov = d.mov := by
  unfold Dev.absorb Dev.trace; simp [apply_ite Dev.mov]

@[simp] theorem Dev.recode_mov (d : Dev) (s : OpSrc) (code : Nat) : (d.recode s code).mov = d.mov := by
  unfold Dev.recode; split <;> rfl

@[simp] theorem Dev.offerDeadline_mov (c : Clock) (d : Dev) (t : Nat) (s : OpSrc) (dl : Option Nat) :
    (d.offerDeadline c t s dl).mov = d.mov := by
  unfold Dev.offerDeadline; cases dl <;> simp [apply_ite Dev.mov]

@[simp] theorem Dev.offerPend_mov (c : Clock) (d : Dev) (t : Nat) (s : OpSrc) (dl : Option Nat) :
    (d.offerPend c t s dl).mov = d.mov := by
  unfold Dev.offerPend; cases dl <;> simp [apply_ite Dev.mov]

@[simp] theorem Dev.readyMove_mov (d : Dev) (t st : Nat) : (d.readyMove t st).mov = d.mov := by
  unfold Dev.readyMove; simp [apply_ite Dev.mov]

/-- A thread made READY is no mover's (R215). -/
@[simp] theorem Dev.opReady_mov (c : Clock) (d : Dev) (t : Nat) (dl : Option Nat) (s : OpSrc) :
    (d.opReady c t dl s).2.mov = d.mov := by
  unfold Dev.opReady
  cases hr : (d.cycle c t).ready <;> simp [hr, apply_ite Dev.mov, apply_ite Prod.snd]

/-! ### Channels -/

@[simp] theorem Dev.updChan_mem (d : Dev) (n : Nat) (f : Chan → Chan) : (d.updChan n f).mem = d.mem := rfl

theorem Dev.chan_congr {d e : Dev} (h : e.mov = d.mov) (n : Nat) : e.chan n = d.chan n := by unfold Dev.chan; rw [h]

theorem Dev.chan_updChan_same (d : Dev) (n : Nat) (f : Chan → Chan) : (d.updChan n f).chan n = f (d.chan n) := by
  simp [Dev.chan, Dev.updChan, tget_tmod]

/-- A channel once its head descriptor has ended (R357). -/
def Chan.stepped (k : Chan) : Chan :=
  { k with done := (k.done + 1) % 65536, fetch := (k.done + 1) % 65536, halted := false, from_ := 0, started := false, left := 0
           starts := k.starts - 1 }

/-- The end of a descriptor moves its channel on, whatever else it writes, wakes and reports. -/
theorem Dev.endDesc_mov (c : Clock) (d : Dev) (n : Nat) (x : Desc) (w0 status cause dir arrived result : Nat) :
    (d.endDesc c n x w0 status cause dir arrived result).mov = (d.updChan n Chan.stepped).mov := by
  unfold Dev.endDesc
  simp only [apply_ite Dev.mov, Dev.cause_mov, Dev.evt_mov, Dev.flushPort_mov, Dev.opReady_mov, ite_self]
  simp only [Dev.updChan, Dev.updMov_mov, Dev.putDesc_mov]
  rfl

theorem Dev.chan_endDesc (c : Clock) (d : Dev) (n : Nat) (x : Desc) (w0 status cause dir arrived result : Nat) :
    (d.endDesc c n x w0 status cause dir arrived result).chan n = (d.chan n).stepped := by
  rw [Dev.chan_congr (Dev.endDesc_mov ..), Dev.chan_updChan_same]

theorem moverOf_eq_host {n : Nat} (h : 512 ≤ n ∧ n < 576) : moverOf n = 24 := by
  unfold moverOf; rw [if_neg (by omega), if_neg (by omega), if_pos h.2]

theorem moverOf_lt_host {n : Nat} (h : n < 512) : moverOf n < 24 := by
  unfold moverOf
  split
  · omega
  · omega

/-- A descriptor of one row of at most 512 bytes is one piece (R349, R351). -/
theorem Desc.pieces_one {x : Desc} (hrows : x.rows = 1) (hpos : x.len ≠ 0) (hlen : x.len ≤ 512) :
    x.pieces = [(0, x.src % 2 ^ 64, x.dst % 2 ^ 64, x.len)] := by
  have hcount : cdiv x.len 512 = 1 := by unfold cdiv; omega
  unfold Desc.pieces
  simp [hrows, hcount]
  omega

theorem len_ne_zero_of_descBad {d : Dev} {n : Nat} {x : Desc} (h : d.descBad n x = false) : x.len ≠ 0 := by
  unfold Dev.descBad at h
  simp only [Bool.or_eq_false_iff, decide_eq_false_iff_not] at h
  obtain ⟨⟨⟨⟨⟨⟨⟨⟨-, -⟩, hlen⟩, -⟩, -⟩, -⟩, -⟩, -⟩, -⟩ := h
  exact hlen

/-! ### Transfers of one piece (R349, R354, R357, R362) -/

/-- A host-mover channel reads its head descriptor from host memory, and its channels stay. -/
theorem Dev.headDesc_host_chan {d : Dev} {n : Nat} (h : moverOf n = 24) (c : Clock) (i : Nat) :
    (d.headDesc c n).2.chan i = d.chan i := by
  unfold Dev.headDesc; rw [if_pos h]; rfl

theorem Dev.readBack_toHost {d : Dev} {n : Nat} (h : (d.chan n).toHost n = true) (c : Clock) (x : Desc) (l : List Nat) :
    d.readBack c n x l = (none, d) := by
  cases l with
  | nil => rfl
  | cons a l => unfold Dev.readBack; rw [if_pos h]

/-- A fill to the host is stored, and nothing stops it. -/
theorem Dev.transfer_fillHost {d : Dev} {n src : Nat} {x : Desc} (hhost : (d.chan n).toHost n = true) (hfrom : (d.chan n).from_ = 0)
    (hpieces : x.pieces = [(0, src, x.dst, x.len)]) (hfill : x.kind = 1) (c : Clock) (peer : List Byte) :
    d.transfer c n x peer =
      (none, d.chanStore n x.dst ((List.range x.len).map fun i => x.fill.getD (i % 4) 0)) := by
  have hback : ∀ bs l, (d.chanStore n x.dst bs).readBack c n x l = (none, d.chanStore n x.dst bs) := fun bs l =>
    Dev.readBack_toHost (by rw [Dev.chan_congr (Dev.chanStore_mov ..)]; exact hhost) c x l
  unfold Dev.transfer
  simp [-List.getD_eq_getElem?_getD, hpieces, hfrom, runPiece, hfill, Desc.fillBytes, Dev.placeOf, hhost, Dev.writePlace, hback]

/-- A source outside the channel's empty window is refused with cause DENIED at its first byte (R354, R362). -/
theorem Dev.transfer_outside {d : Dev} {n dst : Nat} {x : Desc} (hn : n < 512) (hfrom : (d.chan n).from_ = 0)
    (hpieces : x.pieces = [(0, x.src, dst, x.len)]) (hpos : x.len ≠ 0) (hcopy : x.kind = 0) (hldm : x.srcLdm = false)
    (hmem : inMemory x.src x.len = true) (hwin : (d.chan n).srcWin.2 = 0) (c : Clock) (peer : List Byte) :
    d.transfer c n x peer = (some (x.src, false, 4, 0, 0), d) := by
  have hmover := moverOf_lt_host hn
  have hhost : (d.chan n).fromHost n = false := by simp [Chan.fromHost, Nat.ne_of_lt hmover]
  have hout : ¬ ((d.chan n).srcWin.1 ≤ x.src ∧ x.src + x.len ≤ (d.chan n).srcWin.1) := by omega
  have hplace : d.placeOf n x false x.src x.len = .inl 4 := by
    unfold Dev.placeOf
    simp [hhost, hldm, Nat.ne_of_lt hmover, show moverOf n ≠ 25 by omega, hmem, hwin, hout]
  unfold Dev.transfer
  simp [hpieces, hfrom, runPiece, hcopy, hplace]

/-! ### The commands and events -/

section
variable {s : State} {chan : Nat}

/-- A PROD write that may be made, within the ring, sets PROD where no firing of its cycle waits for it (R355, R356, R358). -/
theorem Dev.ringProd_accepted {d : Dev} {n v : Nat} (hon : (d.chan n).dis = .on) (hmissed : d.cyc.missed = [])
    (hroom : (v % 65536 + 65536 - (d.chan n).done) % 65536 ≤ 2 ^ (d.chan n).log) :
    d.ringProd n v true = d.updChan n fun k => { k with prod := v % 65536, stall := false } := by
  unfold Dev.ringProd
  simp [hon, Nat.not_lt.2 hroom, hmissed, Dev.lateStarts]

theorem Dev.mayRing_pf0 (d : Dev) (n priv : Nat) : d.mayRing n (requesterOf 3 0 priv) = true := rfl

/-- A host fill of one piece writes its bytes and ends DONE (R357). -/
theorem exec_descriptorComplete_fill {src : Nat} {peer : List Byte} {x : Desc} (hchan : 512 ≤ chan ∧ chan < 576)
    (htx : s.dev.txPort chan = none) (hrx : s.dev.rxBound chan = false) (hlook : s.dev.lookBound chan = false)
    (hready : s.dev.chanReady chan = true) (hverdict : (s.dev.chan chan).verdict = none) (hdir : (s.dev.chan chan).dir = 1)
    (hfrom : (s.dev.chan chan).from_ = 0) (hx : (s.dev.headDesc s.clk chan).1 = .inr x) (hown : x.own = true)
    (hgood : (s.dev.headDesc s.clk chan).2.descBad chan x = false) (hfill : x.kind = 1) (hrows : x.rows = 1)
    (hpieces : x.pieces = [(0, src, x.dst, x.len)]) :
    exec (.descriptorComplete chan peer) s = .next { s with
      dev := ((s.dev.headDesc s.clk chan).2.chanStore chan x.dst
        ((List.range x.len).map fun i => x.fill.getD (i % 4) 0)).endDesc s.clk chan x (s.dev.headWord chan) 0 0 0 x.arrive.toNat
          x.len } := by
  have hmover := moverOf_eq_host hchan
  have hk := Dev.headDesc_host_chan (d := s.dev) hmover s.clk chan
  have hmoved := Dev.transfer_fillHost (d := (s.dev.headDesc s.clk chan).2) (n := chan)
    (by rw [hk]; simp [Chan.toHost, hmover, hdir]) (by rw [hk]; exact hfrom) hpieces hfill s.clk peer
  show execDescriptorComplete chan peer s = _
  unfold execDescriptorComplete Dev.completeDesc
  simp [onDev_eq, show ¬ 592 ≤ chan by omega, htx, hrx, hlook, hready, hx, hown, hverdict, hgood, hmoved, hrows]

/-- The channel of a descriptor whose source lies outside its window halts (R362). -/
theorem exec_movHalted_outside {cause at_ : Nat} {peer : List Byte} {write : Bool} {x : Desc} (hchan : chan < 512)
    (hready : s.dev.chanReady chan = true) (hverdict : (s.dev.chan chan).verdict = none)
    (hrun : (s.dev.chan chan).halted = false) (hx : s.dev.headDesc s.clk chan = (.inr x, s.dev)) (hown : x.own = true)
    (hgood : s.dev.descBad chan x = false) (hmoved : s.dev.transfer s.clk chan x peer = (some (x.src, false, 4, 0, 0), s.dev)) :
    exec (.movHalted chan peer cause at_ write) s = .next { s with dev := s.dev.haltChan s.clk chan x.src false 4 0 0 } := by
  have hmover := moverOf_lt_host hchan
  have hto : (s.dev.chan chan).toHost chan = false := by simp [Chan.toHost, Nat.ne_of_lt hmover]
  have hfrom : (s.dev.chan chan).fromHost chan = false := by simp [Chan.fromHost, Nat.ne_of_lt hmover]
  show execMovHalted chan peer cause at_ write s = _
  unfold execMovHalted
  simp [onDev_eq, hready, hverdict, hrun, hx, hown, hgood, hto, hfrom, show moverOf chan ≠ 25 by omega, hmoved]

/-- PF0 resumes a halted channel (R355, R363). -/
theorem Dev.resumeBy_pf0 {d : Dev} {n action : Nat} (hn : n < 592) (hhalted : (d.chan n).halted = true) (ha : action ≠ 0)
    (c : Clock) (priv : Nat) : d.resumeBy c n action 3 0 priv = d.resumeChan c n action := by
  unfold Dev.resumeBy Dev.ringResume
  simp [Nat.not_le.2 hn, Dev.mayRing_pf0, hhalted, ha]

/-- SKIP ends the descriptor with status SKIPPED (R363). -/
theorem Dev.chan_resumeChan_skip (c : Clock) (d : Dev) (n : Nat) : (d.resumeChan c n 2).chan n = (d.chan n).stepped := by
  unfold Dev.resumeChan
  simp only [Nat.reduceEqDiff, if_false, if_true]
  exact Dev.chan_endDesc ..

/-- ABORT ends the descriptor, and the channel's disable begins (R363, R364). -/
theorem Dev.chan_resumeChan_abort {d : Dev} {n : Nat} (hon : (d.chan n).dis = .on) (c : Clock) :
    (d.resumeChan c n 3).chan n = { (d.chan n).stepped with dis := .ending true c.atc 0, tdProd := (d.chan n).prod } := by
  unfold Dev.resumeChan
  simp only [Nat.reduceEqDiff, if_false, if_true]
  rw [Dev.chan_updChan_same, Dev.chan_endDesc, Dev.chan_congr (Dev.spoilDest_mov ..)]
  simp [Chan.stepped, hon]

/-- With no descriptor left a disable is done (R364). -/
theorem exec_movDisabled_empty {at_ tag : Nat} {abort : Bool} (hdis : (s.dev.chan chan).dis = .ending abort at_ tag)
    (hdone : (s.dev.chan chan).done = (s.dev.chan chan).prod) :
    exec (.movDisabled chan) s = .next { s with
      dev := ((s.dev.updChan chan fun k =>
        { k with dis := .disabled, done := k.prod, fetch := k.prod, starts := 0 }).flushPort chan).evt s.clk
          (s.dev.chanRing chan) (s.dev.chanRing chan) 0x0EA2 tag [(0, 2, chan), (2, 1, abort.toNat)] } := by
  show execMovDisabled chan s = _
  unfold execMovDisabled
  simp [onDev_eq, hdis, hdone]

end

/-- What a halt writes in its channel's registers (R362). -/
theorem Dev.chan_haltChan {d : Dev} {n : Nat} (c : Clock) (addr : Nat) (write : Bool) (cause done left : Nat) :
    (d.haltChan c n addr write cause done left).chan n = { d.chan n with
      halted := true, fetch := ((d.chan n).done + 1) % 65536, from_ := done, started := true, left := left, errAddr := addr
      errDesc := (d.chan n).done % 2 ^ (d.chan n).log, errDir := write.toNat, errCause := cause, errDone := done } := by
  unfold Dev.haltChan Dev.evtLog
  rw [Dev.log_eq]
  exact (Dev.chan_congr (by simp) n).trans (Dev.chan_updChan_same d n fun k => { k with
    halted := true, fetch := (k.done + 1) % 65536, from_ := done, started := true, left := left, errAddr := addr
    errDesc := (d.chan n).done % 2 ^ (d.chan n).log, errDir := write.toNat, errCause := cause, errDone := done })

theorem Dev.haltChan_mem {d : Dev} {n : Nat} (hn : n < 512) (c : Clock) (addr : Nat) (write : Bool) (cause done left : Nat) :
    (d.haltChan c n addr write cause done left).mem = d.mem := by
  have hmover := moverOf_lt_host hn
  unfold Dev.haltChan Dev.evtLog Dev.flushPort
  rw [Dev.log_eq]
  simp [Nat.ne_of_lt hmover, (HostOnly.evt ..).mem]

/-- Settles O24: each command and event has its lemma above. -/
theorem moverRings : Obligations.MoverRings := by
  unfold Obligations.MoverRings
  refine ⟨?doorbell, ?queueDoorbell, ?complete, ?halted, ?retry, ?skip, ?abort, ?disabled⟩
  case doorbell =>
    intro s chan prod kind idx priv hchan hkind hidx hon hmissed hroom
    subst hkind hidx
    show execMovDoorbell chan prod 3 0 priv s = _
    unfold execMovDoorbell
    simp only [onDev_eq, Nat.not_le.2 hchan, if_false, Dev.mayRing_pf0, Dev.ringProd_accepted hon hmissed hroom]
  case queueDoorbell =>
    intro s func queue value n hn hon hmissed hroom
    show execHostQueueDoorbell func queue value s = _
    unfold execHostQueueDoorbell
    simp only [onDev_eq, hn, Dev.ringProd_accepted hon hmissed hroom]
  case complete =>
    intro s chan peer x hchan htx hrx hlook hready hverdict hdir hfrom hx hown hgood hfill hrows hlen hdst _
    have hpieces := Desc.pieces_one hrows (len_ne_zero_of_descBad hgood) hlen
    rw [Nat.mod_eq_of_lt hdst] at hpieces
    exact exec_descriptorComplete_fill hchan htx hrx hlook hready hverdict hdir hfrom hx hown hgood hfill hrows
      hpieces
  case halted =>
    intro s chan cause at_ peer write x hchan hready hverdict hrun hfrom hx hown hgood hcopy hldm hsrc hlen hrows hmem hwin
    have hpieces := Desc.pieces_one hrows (len_ne_zero_of_descBad hgood) hlen
    rw [Nat.mod_eq_of_lt (a := x.src) (by omega)] at hpieces
    have hmoved := Dev.transfer_outside hchan hfrom hpieces (len_ne_zero_of_descBad hgood) hcopy hldm hmem hwin s.clk peer
    refine ⟨_, exec_movHalted_outside hchan hready hverdict hrun hx hown hgood hmoved, ?_⟩
    simp [Dev.chan_haltChan, Dev.haltChan_mem hchan]
  case retry =>
    intro s chan kind idx priv hchan hkind hidx hhalted
    subst hkind hidx
    show execResumeRetry chan 3 0 priv s = _
    unfold execResumeRetry
    rw [onDev_eq, Dev.resumeBy_pf0 hchan hhalted (by decide)]
    rfl
  case skip =>
    intro s chan kind idx priv hchan hkind hidx hhalted
    subst hkind hidx
    refine ⟨_, rfl, ?_⟩
    simp only [Dev.resumeBy_pf0 hchan hhalted (show 2 ≠ 0 by decide), Dev.chan_resumeChan_skip]
    exact ⟨rfl, rfl, rfl⟩
  case abort =>
    intro s chan kind idx priv hchan hkind hidx hhalted hon
    subst hkind hidx
    refine ⟨_, rfl, ?_⟩
    simp only [Dev.resumeBy_pf0 hchan hhalted (show 3 ≠ 0 by decide), Dev.chan_resumeChan_abort hon]
    exact ⟨rfl, rfl, trivial⟩
  case disabled =>
    intro s chan at_ tag abort hdis hdone
    exact exec_movDisabled_empty hdis hdone

end Sys2Proof.Machine
end

section
/-! Statement O25: the commands of mover channels (R350, R354, R355, R363-R365). -/
namespace Sys2Proof.Machine

/-- PF0 sees every channel (R44, R365). -/
theorem Dev.seesChan_pf0 {d : Dev} {x : Ctx} {n : Nat} (hn : n < 592) (h0 : x.func = 0) : d.seesChan x n = true := by
  simp [Dev.seesChan, hn, h0]

section
variable {s : State} {r : Req} {w : Waiting} {chan : Nat}

/-- A channel that is off is configured for PF0 or a pool, and enabled (R350, R365). -/
theorem Dev.chanSet_off {d : Dev} {owner pool base log prio timed deadline srcBase srcSize dstBase dstSize : Nat}
    (howner : owner = 1 ∨ owner = 2) (hpool : pool < 64) (hbase : inMemory base (64 * 2 ^ log) = true)
    (hlog : 3 ≤ log ∧ log ≤ 12) (hprio : prio ≤ 3) (htimed : timed ≤ 1) (hdeadline : deadline ≤ 1)
    (hoff : (d.chan chan).dis = .off) :
    d.chanSet chan owner pool base log prio timed deadline srcBase srcSize dstBase dstSize =
      (rOk, d.updChan chan fun k => { k with
        owner := owner, pool := pool, base := base, log := log, prio := prio, timed := timed = 1, deadline := deadline = 1
        srcWin := (srcBase, srcSize), dstWin := (dstBase, dstSize), dis := .on, stall := false, starts := 0 }) := by
  obtain ⟨hlo, hhi⟩ := hlog
  have hnobody : owner ≠ 0xFF := by omega
  have hknown : ¬ (owner ≠ 1 ∧ owner ≠ 2) := by omega
  simp [Dev.chanSet, hknown, hnobody, Nat.not_le.2 hpool, Nat.min_eq_left hhi, hbase, Nat.not_lt.2 hlo, Nat.not_lt.2 hhi,
    Nat.not_lt.2 hprio, Nat.not_lt.2 htimed, Nat.not_lt.2 hdeadline, hoff]

theorem exec_movChanSet_off {owner pool base log prio timed deadline srcBase srcSize dstBase dstSize : Nat}
    (hw : Waits s r 0x0E80 w) (hchan : chan < 512) (hfree : breanoChan chan = false) (howner : owner = 1 ∨ owner = 2)
    (hpool : pool < 64) (hbase : inMemory base (64 * 2 ^ log) = true) (hlog : 3 ≤ log ∧ log ≤ 12) (hprio : prio ≤ 3)
    (htimed : timed ≤ 1) (hdeadline : deadline ≤ 1) (hoff : (s.dev.chan chan).dis = .off) :
    exec (.movChanSet r chan owner pool base log prio timed deadline srcBase srcSize dstBase dstSize) s = .next { s with
      dev := answered s.clk w rOk (noted (s.dev.updChan chan fun k => { k with
        owner := owner, pool := pool, base := base, log := log, prio := prio, timed := timed = 1, deadline := deadline = 1
        srcWin := (srcBase, srcSize), dstWin := (dstBase, dstSize), dis := .on, stall := false, starts := 0 })) } := by
  refine onDev_serve_journalled hw (by decide) (.inl rfl) (fits_zero w) rfl ?_
  rw [if_neg (Nat.not_le.2 hchan), if_neg (by rw [hfree]; exact Bool.false_ne_true),
    Dev.chanSet_off howner hpool hbase hlog hprio htimed hdeadline hoff]

theorem exec_movChanStatus_pf0 (hw : Waits s r 0x0E81 w) (hfit : Fits w 31) (hchan : chan < 592) (h0 : w.func = 0) :
    exec (.movChanStatus r chan) s = .next { s with
      dev := answered s.clk w (rOk [(2, (s.dev.chan chan).prod), (2, (s.dev.chan chan).fetch), (2, (s.dev.chan chan).done),
        (1, (s.dev.chan chan).state), (8, (s.dev.chan chan).errAddr), (2, (s.dev.chan chan).errDesc),
        (1, (s.dev.chan chan).errDir), (1, (s.dev.chan chan).errCause), (4, (s.dev.chan chan).errDone),
        (4, (s.dev.chan chan).missed), (4, (s.dev.chan chan).bad)]) s.dev } := by
  refine onDev_serve_noFx hw (by decide) hfit ?_
  simp [Dev.seesChan_pf0 hchan, h0]

/-- A disable begins at the present ATC, which it answers (R364). -/
theorem exec_movDisable_pf0 {mode : Nat} (hw : Waits s r 0x0E82 w) (hfit : Fits w 8) (hchan : chan < 592) (hmode : mode ≤ 1)
    (h0 : w.func = 0) (hdis : (s.dev.chan chan).dis.isEnding = false) :
    exec (.movDisable r chan mode) s = .next { s with
      dev := answered s.clk w (rAcc [(8, s.clk.atc)]) (noted (s.dev.updChan chan fun k =>
        { k with dis := .ending (mode = 1) s.clk.atc w.tag, tdProd := k.prod })) } := by
  refine onDev_serve_journalled hw (by decide) (.inr rfl) hfit rfl ?_
  simp [Dev.seesChan_pf0 hchan, h0, Nat.not_lt.2 hmode, hdis]

theorem exec_movEnable_pf0 (hw : Waits s r 0x0E83 w) (hchan : chan < 592) (h0 : w.func = 0)
    (hdis : (s.dev.chan chan).dis = .disabled) :
    exec (.movEnable r chan) s = .next { s with
      dev := answered s.clk w rOk (noted (s.dev.updChan chan fun k => { k with dis := .on })) } := by
  refine onDev_serve_journalled hw (by decide) (.inl rfl) (fits_zero w) rfl ?_
  simp [Dev.seesChan_pf0 hchan, h0, hdis, Dis.isEnding]

/-- RETRY ends the halt (R363). -/
theorem exec_movResume_retry (hw : Waits s r 0x0E84 w) (hchan : chan < 592) (h0 : w.func = 0)
    (hhalted : (s.dev.chan chan).halted = true) :
    exec (.movResume r chan 1) s = .next { s with
      dev := answered s.clk w rOk (noted (s.dev.updChan chan fun k => { k with halted := false })) } := by
  refine onDev_serve_journalled hw (by decide) (.inl rfl) (fits_zero w) rfl ?_
  simp [Dev.seesChan_pf0 hchan, h0, hhalted, Dev.resumeChan]

/-- The first window, empty or in DRAM, of a function without a queue is stored (R354). -/
theorem exec_movFuncWindow_first {func base size : Nat} (hw : Waits s r 0x0E85 w) (hfunc : func < 16)
    (hdram : size = 0 ∨ (regionOf base = .dram ∧ regionOf (base + size - 1) = .dram)) (hnone : s.dev.mov.windows = [])
    (hqueues : ∀ q ∈ List.range 64, tget 0xFF s.dev.host.qOwner q ≠ func) :
    exec (.movFuncWindow r func base size) s = .next { s with
      dev := answered s.clk w rOk (noted (s.dev.updMov fun m =>
        { m with windows := tset (0, 0) m.windows func (base, size) })) } := by
  have hplace : (size != 0 && !(decide (regionOf base = .dram) && decide (regionOf (base + size - 1) = .dram))) = false := by
    obtain rfl | ⟨hfirst, hlast⟩ := hdram
    · rfl
    · simp [hfirst, hlast]
  have hidle : ((List.range 64).any fun q => decide (tget 0xFF s.dev.host.qOwner q = func) &&
      decide ((s.dev.chan (512 + q)).state = 1)) = false :=
    List.any_eq_false.2 fun q hq => by simp [hqueues q hq]
  refine onDev_serve_journalled hw (by decide) (.inl rfl) (fits_zero w) rfl ?_
  simp only [hidle, hplace]
  simp [Nat.not_le.2 hfunc, hnone]

end

/-- Settles O25: each command has its lemma above. -/
theorem moverCommands : Obligations.MoverCommands := by
  unfold Obligations.MoverCommands
  refine ⟨?chanSet, ?status, ?disable, ?enable, ?resume, ?window⟩
  case chanSet =>
    intro s r w chan owner pool base log prio timed deadline srcBase srcSize dstBase dstSize hw hchan hfree howner hpool hbase
      hlog hprio htimed hdeadline hoff
    exact exec_movChanSet_off hw hchan hfree howner hpool hbase hlog hprio htimed hdeadline hoff
  case status =>
    intro s r w chan hw hfit hchan h0
    exact exec_movChanStatus_pf0 hw hfit hchan h0
  case disable =>
    intro s r w chan mode hw hfit hchan hmode h0 hdis
    exact exec_movDisable_pf0 hw hfit hchan hmode h0 hdis
  case enable =>
    intro s r w chan hw hchan h0 hdis
    exact exec_movEnable_pf0 hw hchan h0 hdis
  case resume =>
    intro s r w chan action hw hchan haction h0 hhalted
    subst haction
    exact exec_movResume_retry hw hchan h0 hhalted
  case window =>
    intro s r w func base size hw hfunc hdram hnone hqueues
    exact exec_movFuncWindow_first hw hfunc hdram hnone hqueues

end Sys2Proof.Machine
end

section
/-! Statement O26: memory tests, splices, scrubbing and repair (R373, R379, R382-R384, R386, R388, R641). -/
namespace Sys2Proof.Machine

/-- A journalled command that reports an event as it runs is answered and noted all the same: only its slot must still wait. -/
theorem onDev_serve_reporting {s : State} {r : Req} {code : Nat} {w : Waiting} {h : Ctx → Dev → Reply × Dev} {rep : Reply}
    {d : Dev} (hw : Waits s r code w) (hj : journalled code = true) (hr : rep.status = stOK ∨ rep.status = stACCEPTED)
    (hfit : Fits w rep.payload.length) (hwait : d.host.waiting = s.dev.host.waiting)
    (ho : h { page := w.page, func := w.func, tag := w.tag, rung := w.rung, clk := s.clk } s.dev = (rep, d)) :
    onDev (serve code r h) s = .next { s with dev := answered s.clk w rep (noted d) } := by
  have hctx : h (w.ctx s.clk) s.dev = (rep, d) := ho
  have he : effected code (rep, d) = noted d := by unfold effected; simp [hr, hj]
  rw [onDev_eq, serve_alone hw (by rw [hctx]; exact misfit_of_fits hfit) (by rw [hctx]; exact hwait.trans hw.1), hctx, he]

/-! ### What events, tests and restored rows leave of memory -/

@[simp] theorem Dev.evt0_mem (c : Clock) (d : Dev) (code tag : Nat) (fs : List (Nat × Nat × Nat)) :
    (d.evt0 c code tag fs).mem = d.mem := (HostOnly.evt c d 0 0 code tag fs).mem

@[simp] theorem Dev.log_mem (c : Clock) (d : Dev) (w b code : Nat) (data : List Byte) : (d.log c w b code data).mem = d.mem := rfl
@[simp] theorem Dev.log_host (c : Clock) (d : Dev) (w b code : Nat) (data : List Byte) : (d.log c w b code data).host = d.host := rfl

@[simp] theorem Dev.evtLog_mem (c : Clock) (d : Dev) (ring own code tag w b : Nat) (fs : List (Nat × Nat × Nat)) :
    (d.evtLog c ring own code tag w b fs).mem = d.mem := by
  unfold Dev.evtLog; rw [Dev.log_mem]; exact (HostOnly.evt c d ring own code tag fs).mem

@[simp] theorem Dev.evtLog_waiting (c : Clock) (d : Dev) (ring own code tag w b : Nat) (fs : List (Nat × Nat × Nat)) :
    (d.evtLog c ring own code tag w b fs).host.waiting = d.host.waiting := by
  unfold Dev.evtLog; rw [Dev.log_host]; exact (HostOnly.evt c d ring own code tag fs).waiting

@[simp] theorem Dev.trouble_mem (d : Dev) (w b : Nat) : (d.trouble w b).mem = d.mem := rfl

/-- A counter of a class after an update of some class's. -/
theorem Dev.stats_memStat (d : Dev) (cls : Nat) (f : MemStats → MemStats) :
    tget {} (d.memStat cls f).mem.stats cls = f (tget {} d.mem.stats cls) := by
  simp [Dev.memStat, tget_tmod]

/-! A restored row changes the stored errors alone (R382). -/

@[simp] theorem Dev.restoreRow_tests (d : Dev) (row : Nat) : (d.restoreRow row).mem.tests = d.mem.tests := rfl
@[simp] theorem Dev.restoreRow_transients (d : Dev) (row : Nat) : (d.restoreRow row).mem.transients = d.mem.transients := rfl
@[simp] theorem Dev.restoreRow_repair (d : Dev) (row : Nat) : (d.restoreRow row).mem.repair = d.mem.repair := rfl
@[simp] theorem Dev.restoreRow_unrepairable (d : Dev) (row : Nat) :
    (d.restoreRow row).mem.unrepairable = d.mem.unrepairable := rfl
@[simp] theorem Dev.restoreRow_cells (d : Dev) (row : Nat) : (d.restoreRow row).mem.cells = d.mem.cells := rfl
@[simp] theorem Dev.restoreRow_stats (d : Dev) (row : Nat) : (d.restoreRow row).mem.stats = d.mem.stats := rfl
@[simp] theorem Dev.restoreRow_splices (d : Dev) (row : Nat) : (d.restoreRow row).mem.splices = d.mem.splices := rfl
@[simp] theorem Dev.restoreRow_spliceDue (d : Dev) (row : Nat) : (d.restoreRow row).mem.spliceDue = d.mem.spliceDue := rfl
@[simp] theorem Dev.restoreRow_host (d : Dev) (row : Nat) : (d.restoreRow row).host = d.host := rfl

/-- A queued test, or the count of one that finds no place, leaves bytes, errors and the scrub, and counts nothing corrected
(R382, R383). -/
structure TestQueued (d e : Dev) : Prop where
  cells : e.mem.cells = d.mem.cells
  ecc : e.mem.ecc = d.mem.ecc
  corrected : ∀ cls, (tget {} e.mem.stats cls).ce = (tget {} d.mem.stats cls).ce

theorem TestQueued.ite {p : Prop} [Decidable p] {d a b : Dev} (h : TestQueued d a) (k : TestQueued d b) :
    TestQueued d (if p then a else b) := by
  split
  · exact h
  · exact k

theorem TestQueued.unclassified (d : Dev) (a : Nat) : TestQueued d ((d.trouble (memBlock a) trbOVERFLOW).memStat (memClass a)
    fun s => { s with unclassified := satAdd 32 s.unclassified 1 }) := by
  refine ⟨rfl, rfl, fun cls => ?_⟩
  simp only [Dev.memStat, Dev.updMem_mem, tget_tmod]
  split
  · next h => rw [h]; rfl
  · rfl

theorem TestQueued.queueTest (d : Dev) (a : Nat) : TestQueued d (d.queueTest a) := by
  unfold Dev.queueTest
  exact .ite ⟨rfl, rfl, fun _ => rfl⟩ (.ite (.unclassified d a) ⟨rfl, rfl, fun _ => rfl⟩)

/-! ### Targeted tests (R382, R383, R386) -/

/-- A DRAM row whose test has passed is counted transient: the block before the event that reports it. -/
def Dev.transientRow (c : Clock) (d : Dev) (unit : Nat) : Dev :=
  (((d.updMem fun m => { m with tests := m.tests.erase { kind := 1, unit := unit } }).restoreRow unit).updMem fun m => { m with transients := [(1, unit, c.atc)] }).memStat 0
    fun s => { s with transient := satAdd 32 s.transient 1 }

theorem exec_memTested_passed {s : State} {unit : Nat} (htests : s.dev.mem.tests = [{ kind := 1, unit := unit }])
    (hfirst : s.dev.mem.transients = []) :
    exec (.memTested 1 unit false) s = .next { s with
      dev := (s.dev.transientRow s.clk unit).evtLog s.clk 0 0 0x0E91 0 (memBlock unit) trbTRANSIENT
        [(0, 1, 1), (1, 1, 0), (8, 8, unit)] } := by
  show execMemTested 1 unit false s = _
  unfold execMemTested
  simp [onDev_eq, htests, utCOP, utENGINE, hfirst, recentTransients, fourth, Dev.transientRow]

/-- A DRAM row whose test has failed is counted lasting: the block before the events that report it. -/
def Dev.lastingRow (d : Dev) (unit : Nat) : Dev :=
  ((d.updMem fun m => { m with tests := m.tests.erase { kind := 1, unit := unit } }).restoreRow unit).memStat 0 fun s => { s with lasting := satAdd 32 s.lasting 1 }

theorem exec_memTested_failed {s : State} {unit : Nat} (htests : s.dev.mem.tests = [{ kind := 1, unit := unit }])
    (hrepair : s.dev.mem.repair = []) (hunrepairable : s.dev.mem.unrepairable = []) :
    exec (.memTested 1 unit true) s = .next { s with
      dev := (((s.dev.lastingRow unit).evtLog s.clk 0 0 0x0E91 0 (memBlock unit) trbLASTING
        [(0, 1, 1), (1, 1, 1), (8, 8, unit)]).updMem fun m => { m with repair := m.repair ++ [unit] }).evt0 s.clk 0x0E94 0
          [(8, 8, unit)] } := by
  have hlist : (s.dev.lastingRow unit).mem.repair = [] := hrepair
  have hbad : (s.dev.lastingRow unit).mem.unrepairable = [] := hunrepairable
  show execMemTested 1 unit true s = _
  unfold execMemTested
  simp [onDev_eq, htests, utCOP, utENGINE, Dev.lastingFault, ← Dev.lastingRow.eq_def, hlist, hbad]

/-! ### Scrubbing (R379, R380) -/

/-- The DRAM scrubber runs on time over awake memory, and the word at its position holds no error. -/
structure ScrubsDram (s : State) (x : Scrub) : Prop where
  scrub : s.dev.mem.scrubD = x
  runs : x.period ≠ 0
  inside : x.pos + 1 < 2 ^ 32
  onTime : s.clk.atc ≤ x.start + 2 * periodTc 0 x.period
  awake : (memDomain (scrubAddr 0 x.pos)).all s.dev.awake = true
  alive : s.dev.mgmt.fatal = false
  clean : (tget {} s.dev.mem.ecc (scrubAddr 0 x.pos)).kind = .clean

theorem exec_scrubRead_dram {s : State} {x : Scrub} (h : ScrubsDram s x) (found : Nat) :
    exec (.scrubRead 0 found) s = .next { s with
      dev := ((s.dev.disturb (scrubAddr 0 x.pos) found).readWord s.clk (scrubAddr 0 x.pos) rqScrub 0).2.updMem fun m =>
        { m with scrubD := { x with pos := x.pos + 1 } } } := by
  obtain ⟨hscrub, hruns, hinside, hontime, hawake, halive, -⟩ := h
  have hlate : (!x.slow && decide (x.start + 2 * periodTc 0 x.period < s.clk.atc)) = false := by
    simp [Nat.not_lt.2 hontime]
  have hpass : ¬ x.pos + 1 = passWords 0 := Nat.ne_of_lt hinside
  show execScrubRead 0 found s = _
  unfold execScrubRead
  simp only [onDev_eq, Mem.scrub, if_true, hscrub, hlate]
  simp [hruns, halive, hawake, hpass, Mem.setScrub]

theorem ScrubsDram.found_nothing {s : State} {x : Scrub} (h : ScrubsDram s x) :
    ((s.dev.disturb (scrubAddr 0 x.pos) 0).readWord s.clk (scrubAddr 0 x.pos) rqScrub 0).2 = s.dev := by
  unfold Dev.readWord Dev.disturb
  simp [h.clean]

/-- A correctable disturbance of the word is corrected and counted, and the row is queued for its test (R373, R382). -/
theorem ScrubsDram.found_correctable {s : State} {x : Scrub} (h : ScrubsDram s x) {e : Dev}
    (he : e = ((s.dev.disturb (scrubAddr 0 x.pos) 1).readWord s.clk (scrubAddr 0 x.pos) rqScrub 0).2) :
    (tget {} e.mem.stats 0).ce = satAdd 32 (tget {} s.dev.mem.stats 0).ce 1 ∧
      (tget {} e.mem.ecc (scrubAddr 0 x.pos)).kind = .clean ∧ e.mem.cells = s.dev.mem.cells := by
  have hclass : memClass (scrubAddr 0 x.pos) = 0 := by
    have hin := h.inside
    unfold memClass scrubAddr
    simp only [if_true, Bool.and_eq_true, decide_eq_true_eq]
    rw [if_pos (by omega)]
  generalize ha : scrubAddr 0 x.pos = a at *
  have hclean := h.clean
  rw [ha] at hclean
  have hread : e = ((((s.dev.disturb a 1).updMem fun m => { m with ecc := tset {} m.ecc a {} }).memStat 0 fun s =>
      { s with ce := satAdd 32 s.ce 1 }).trouble (memBlock a) trbCE).queueTest a := by
    rw [he]
    unfold Dev.readWord Dev.disturb
    simp [hclean, tget_tset, hclass]
  obtain ⟨hcells, hecc, hce⟩ := TestQueued.queueTest ((((s.dev.disturb a 1).updMem fun m =>
    { m with ecc := tset {} m.ecc a {} }).memStat 0 fun s => { s with ce := satAdd 32 s.ce 1 }).trouble (memBlock a) trbCE) a
  rw [hread]
  refine ⟨(hce 0).trans ?ce, ?ecc, hcells.trans ?cells⟩
  case ce => rw [Dev.trouble_mem, Dev.stats_memStat]; unfold Dev.disturb; simp [hclean]
  case ecc => rw [hecc, Dev.trouble_mem]; simp [Dev.memStat, tget_tset]
  case cells => unfold Dev.disturb; simp [hclean, Dev.memStat]

/-! ### The splice table, error periods and repair (R384, R386, R388) -/

theorem exec_spliceFlashWrite_due {s : State} {at_ : Nat} (hdue : s.dev.mem.spliceDue = some at_) :
    exec .spliceFlashWrite s = .next { s with
      dev := s.dev.updMem fun m => { m with flashSplices := m.splices, spliceDue := none } } := by
  show execSpliceFlashWrite s = _
  unfold execSpliceFlashWrite
  simp [onDev_eq, hdue]

theorem exec_memUePeriodEnd_quiet {s : State} {cls : Nat} {q : UePeriod} (hq : tfind s.dev.mem.uePer cls = some q)
    (hend : q.start + 1966080 ≤ s.clk.atc) (hnone : q.count = 0) :
    exec (.memUePeriodEnd cls) s = .next { s with dev := s.dev.updMem fun m => { m with uePer := tdel m.uePer cls } } := by
  show execMemUePeriodEnd cls s = _
  unfold execMemUePeriodEnd
  simp [onDev_eq, hq, Nat.not_lt.2 hend, hnone]

/-- The block in which the listed rows have been repaired, before the event that reports it. -/
def Dev.repairedRows (d : Dev) (n : Nat) : Dev :=
  ((d.mem.repair.foldl Dev.restoreRow d).updMem fun m => { m with repair := m.repair.drop n, repairing := [] }).memStat 0 fun s =>
    { s with retired := satAdd 32 s.retired 0 }

theorem exec_memRepairDone_all {s : State} {tag n : Nat} (hrun : s.dev.mem.repairing = [(tag, n)])
    (hn : s.dev.mem.repair.length ≤ n) :
    exec (.memRepairDone []) s = .next { s with
      dev := (s.dev.repairedRows n).evt0 s.clk 0x0E95 tag [(0, 4, s.dev.mem.repair.length), (4, 4, 0)] } := by
  show execMemRepairDone [] s = _
  have hbad : s.dev.mem.repair.filter ([] : List Nat).contains = [] := List.filter_eq_nil_iff.2 fun _ _ => by simp
  unfold execMemRepairDone
  simp [onDev_eq, hrun, List.take_of_length_le hn, Dev.repairedRows, hbad, Nat.min_eq_right hn]

theorem Dev.repairedRows_repair (d : Dev) (n : Nat) : (d.repairedRows n).mem.repair = d.mem.repair.drop n :=
  congrArg (List.drop n) (foldl_keeps (fun d : Dev => d.mem.repair) Dev.restoreRow_repair _ _)

theorem Dev.repairedRows_unrepairable (d : Dev) (n : Nat) : (d.repairedRows n).mem.unrepairable = d.mem.unrepairable :=
  foldl_keeps (fun d : Dev => d.mem.unrepairable) Dev.restoreRow_unrepairable _ _

theorem Dev.repairedRows_cells (d : Dev) (n : Nat) : (d.repairedRows n).mem.cells = d.mem.cells :=
  foldl_keeps (fun d : Dev => d.mem.cells) Dev.restoreRow_cells _ _

section
variable {s : State} {r : Req} {w : Waiting}

/-! ### The map, the scrubber's settings and the counters (R370, R371, R379, R380, R387) -/

theorem Mem.mapReply_length (m : Mem) : m.mapReply.payload.length = 96 := by
  simp [Mem.mapReply, Mem.map, rOk, pk]

theorem exec_memGetMap_next (hw : Waits s r 0x0E01 w) (hfit : Fits w 96) :
    exec (.memGetMap r) s = .next { s with dev := answered s.clk w s.dev.mem.mapReply s.dev } :=
  onDev_serve_noFx hw (by decide) (by rw [Mem.mapReply_length]; exact hfit) rfl

theorem exec_memPartitionSet_idle {harq stream : Nat} (hw : Waits s r 0x0E02 w) (hfit : Fits w 96)
    (hharq : 8 ≤ harq ∧ harq ≤ 80) (hstream : 4 ≤ stream ∧ stream ≤ 32) (hcarriers : s.dev.air.carriers = [])
    (hbuffers : s.dev.eng.harq = []) :
    exec (.memPartitionSet r harq stream) s = .next { s with
      dev := answered s.clk w ({ s.dev.mem with harqGB := harq, streamGB := stream } : Mem).mapReply
        (noted (s.dev.updMem fun m => { m with harqGB := harq, streamGB := stream })) } := by
  refine onDev_serve_journalled hw (by decide) (.inl rfl) (by rw [Mem.mapReply_length]; exact hfit) rfl ?_
  simp [Nat.not_lt.2 hharq.1, Nat.not_lt.2 hharq.2, Nat.not_lt.2 hstream.1, Nat.not_lt.2 hstream.2, hcarriers, hbuffers]

theorem exec_memScrubSet_next {cls period : Nat} (hw : Waits s r 0x0E03 w) (hcls : cls ≤ 1)
    (hperiod : period ≤ if cls = 0 then 168 else 60) :
    exec (.memScrubSet r cls period) s = .next { s with
      dev := answered s.clk w rOk (noted (s.dev.updMem fun m => m.setScrub cls { m.scrub cls with period := period })) } := by
  refine onDev_serve_journalled hw (by decide) (.inl rfl) (fits_zero w) rfl ?_
  simp only [Nat.not_lt.2 hcls, Nat.not_lt.2 hperiod, if_false]

theorem exec_memScrubStatus_next {cls : Nat} (hw : Waits s r 0x0E04 w) (hfit : Fits w 12) (hcls : cls ≤ 1) :
    exec (.memScrubStatus r cls) s = .next { s with
      dev := answered s.clk w (rOk [(2, (s.dev.mem.scrub cls).period),
        (2, (s.dev.mem.scrub cls).pos * 1000 / passWords cls), (8, (s.dev.mem.scrub cls).last)]) s.dev } := by
  refine onDev_serve_noFx hw (by decide) hfit ?_
  simp [Nat.not_lt.2 hcls]

theorem exec_memErrStats_next {cls : Nat} {x : MemStats} (hw : Waits s r 0x0E05 w) (hfit : Fits w 36) (hcls : cls ≤ 2)
    (hx : tget {} s.dev.mem.stats cls = x) :
    exec (.memErrStats r cls) s = .next { s with
      dev := answered s.clk w (rOk [(4, x.ce), (4, x.ue), (4, x.transient), (4, x.lasting), (4, x.unclassified),
        (4, x.injected), (4, x.spliced), (4, x.retired), (4, if cls = 0 then s.dev.mem.repair.length else 0)]) s.dev } := by
  refine onDev_serve_noFx hw (by decide) hfit ?_
  simp [Nat.not_lt.2 hcls, hx]

/-! ### Injection (R641) -/

/-- The block in which the clean word that holds `addr` carries an injected correctable error. -/
def Dev.injectedCe (d : Dev) (addr : Nat) : Dev :=
  (d.updMem fun m =>
    { m with ecc := tset {} m.ecc (cwBase addr) { kind := .ce, injected := true, pending := true } }).memStat
      (memClass addr) fun s => { s with injected := satAdd 32 s.injected 1 }

theorem regionOf_dram_ge {a : Nat} (h : regionOf a = .dram) : 0x1000000000 ≤ a := by
  unfold regionOf at h
  split at h
  · cases h
  split at h
  · cases h
  split at h
  · cases h
  split at h
  · next hin => simp only [Bool.and_eq_true, decide_eq_true_eq] at hin; exact hin.1
  split at h <;> cases h

theorem memClass_of_dram {a : Nat} (h : regionOf a = .dram) : memClass a = 0 := by
  have hlo := regionOf_dram_ge h
  have hhi := lt_of_regionOf_dram h
  unfold memClass
  rw [if_pos (by simp only [Bool.and_eq_true, decide_eq_true_eq]; omega)]

theorem cwBase_of_dram {a : Nat} (h : regionOf a = .dram) : cwBase a = a / 32 * 32 := by
  have hlo := regionOf_dram_ge h
  have hhi := lt_of_regionOf_dram h
  unfold cwBase cwSize
  rw [if_pos (by simp only [Bool.and_eq_true, decide_eq_true_eq]; omega)]

theorem exec_memInject_ce {addr : Nat} (hw : Waits s r 0x0E06 w) (hregion : regionOf addr = .dram)
    (hclean : (tget {} s.dev.mem.ecc (cwBase addr)).kind = .clean) (hawake : (memDomain addr).all s.dev.awake = true)
    (hroom : s.dev.mem.injPending < 64) :
    exec (.memInject r addr 0) s = .next { s with dev := answered s.clk w rOk (noted (s.dev.injectedCe addr)) } := by
  refine onDev_serve_journalled hw (by decide) (.inl rfl) (fits_zero w) rfl ?_
  simp [hregion, hawake, Nat.not_le.2 hroom, hclean, Dev.injectedCe]

theorem Dev.injectedCe_ecc (d : Dev) (addr a : Nat) : tget {} (d.injectedCe addr).mem.ecc a =
    if a = cwBase addr then { kind := .ce, injected := true, pending := true } else tget {} d.mem.ecc a := by
  simp [Dev.injectedCe, Dev.memStat, tget_tset]

/-! ### Splices (R384) -/

theorem exec_memSpliceList_one {count : Nat} {x : Splice} (hw : Waits s r 0x0E07 w) (hfit : Fits w 8)
    (hcount : count ≠ 0 ∧ count ≤ 64) (hx : s.dev.mem.splices = [x]) :
    exec (.memSpliceList r 0 count) s = .next { s with
      dev := answered s.clk w (rOk [(8, x.macroNo % 2 ^ 20 + x.row % 2 ^ 12 * 2 ^ 20 + x.kind % 256 * 2 ^ 32 +
        x.spare % 256 * 2 ^ 40)]) s.dev } := by
  obtain ⟨hsome, hmax⟩ := hcount
  refine onDev_serve_noFx hw (by decide) hfit ?_
  simp [hsome, Nat.not_lt.2 hmax, hx, List.take_of_length_le (show [x].length ≤ count by simp; omega)]

theorem memDomain_of_sram {a : Nat} (h : regionOf a = .sram) : memDomain a = none := by
  unfold memDomain
  have hlow : ¬ 2 ^ 48 ≤ a := by
    intro hge
    unfold regionOf at h
    repeat' split at h
    all_goals simp_all <;> omega
  rw [if_neg (by omega), if_neg hlow, h]

/-- The next spare row of the static-RAM array that holds `addr`. -/
def Dev.rowSplice (d : Dev) (addr : Nat) : Splice :=
  { macroNo := macroOf addr, row := rowNo addr, kind := 0, spare := d.mem.sparesUsed (macroOf addr) }

/-- The block that has spliced the row of `addr`, before the event that reports it. -/
def Dev.splicedRow (c : Clock) (d : Dev) (addr : Nat) : Dev :=
  ((d.updMem fun m => { m with splices := m.splices ++ [d.rowSplice addr]
                               spliceDue := if m.spliceDue.isSome then m.spliceDue else some c.atc }).restoreRow
    (rowOf addr)).memStat 1 fun s => { s with spliced := satAdd 32 s.spliced 1 }

theorem Dev.splice_row {d : Dev} {addr : Nat} (hspare : d.mem.sparesUsed (macroOf addr) < 2)
    (hroom : d.mem.splices.length < 4096) (c : Clock) (col : Bool) :
    d.splice c addr col = some (d.mem.splices.length, (d.splicedRow c addr).evtLog c 0 0 0x0E92 0 (memBlock addr) trbSPLICED
      [(0, 2, d.mem.splices.length), (8, 8, rowOf addr)]) := by
  unfold Dev.splice Dev.freeSpare
  simp [hspare, Nat.not_le.2 hroom, Dev.splicedRow, Dev.rowSplice]

theorem exec_memSpliceAdd_sram {addr : Nat} (hw : Waits s r 0x0E08 w) (hfit : Fits w 2) (hregion : regionOf addr = .sram)
    (hspare : s.dev.mem.sparesUsed (macroOf addr) < 2) (hroom : s.dev.mem.splices.length < 4096) :
    exec (.memSpliceAdd r addr) s = .next { s with
      dev := answered s.clk w (rOk [(2, s.dev.mem.splices.length)]) (noted ((s.dev.splicedRow s.clk addr).evtLog s.clk 0 0
        0x0E92 0 (memBlock addr) trbSPLICED [(0, 2, s.dev.mem.splices.length), (8, 8, rowOf addr)])) } := by
  refine onDev_serve_reporting hw (by decide) (.inl rfl) hfit (Dev.evtLog_waiting ..) ?_
  simp [hregion, memDomain_of_sram hregion, Dev.splice_row hspare hroom]

/-! ### Repair and self-tests (R382, R386, R387) -/

theorem exec_memRepair_allowed (hw : Waits s r 0x0E09 w) (hfit : Fits w 4)
    (hmode : s.dev.devmode.mode = .dormant ∨ s.dev.devmode.mode = .linetest) :
    exec (.memRepair r) s = .next { s with
      dev := answered s.clk w (rAcc [(4, s.dev.mem.repair.length)]) (noted (s.dev.updMem fun m =>
        { m with repairing := m.repairing ++ [(w.tag, m.repair.length - (m.repairing.map (·.2)).sum)] })) } := by
  refine onDev_serve_journalled hw (by decide) (.inr rfl) hfit rfl ?_
  simp only [Bool.or_eq_true, decide_eq_true_eq, hmode, if_true]
  rfl

theorem exec_memSelftest_dram {addr core cls : Nat} (hw : Waits s r 0x0E0A w) (hcls : cls ≠ 3) (hregion : regionOf addr = .dram)
    (hawake : (memDomain addr).all s.dev.awake = true) :
    exec (.memSelftest r addr core cls) s = .next { s with
      dev := answered s.clk w rAcc (noted (s.dev.updMem fun m =>
        { m with tests := m.tests ++ [⟨1, addr / 256 * 256, some w.tag⟩] })) } := by
  refine onDev_serve_journalled hw (by decide) (.inr rfl) (fits_zero w) rfl ?_
  simp [hcls, hregion, hawake, rowOf, memClass_of_dram hregion]

theorem exec_memSelftest_core {addr core : Nat} (hw : Waits s r 0x0E0A w) (hcore : core < 1024)
    (hawake : s.dev.awake (core / 64) = true) :
    exec (.memSelftest r addr core 3) s = .next { s with
      dev := answered s.clk w rAcc (noted ((s.dev.startBist core).updMem fun m =>
        { m with tests := m.tests ++ [⟨2, core, some w.tag⟩] })) } := by
  refine onDev_serve_journalled hw (by decide) (.inr rfl) (fits_zero w) rfl ?_
  simp [Nat.not_le.2 hcore, hawake]

end

/-- Settles O26: each command has its lemma above. -/
theorem memoryErrors : Obligations.MemoryErrors := by
  unfold Obligations.MemoryErrors
  refine ⟨?passed, ?failed, ?flash, ?clean, ?corrected, ?period, ?repaired, ?map, ?partition, ?scrubDram, ?scrubStatic,
    ?scrubStatus, ?stats, ?inject, ?list, ?splice, ?repair, ?testRow, ?testCore⟩
  case passed =>
    intro s kind unit failed htests hkind hfailed hfirst
    subst hkind hfailed
    refine ⟨_, exec_memTested_passed htests hfirst, ?_, ?_, ?_, ?_, ?_⟩ <;> rw [Dev.evtLog_mem] <;>
      simp [Dev.transientRow, Dev.memStat, tget_tmod, htests]
  case failed =>
    intro s kind unit failed htests hkind hfailed hrepair hunrepairable
    subst hkind hfailed
    refine ⟨_, exec_memTested_failed htests hrepair hunrepairable, ?_, ?_, ?_⟩ <;>
      simp [Dev.lastingRow, Dev.memStat, tget_tmod, htests, hrepair]
  case flash =>
    intro s at_ hdue
    exact exec_spliceFlashWrite_due hdue
  case clean =>
    intro s cls found x hcls hscrub hruns hinside hontime hawake halive hclean hfound
    subst hcls hfound
    have h : ScrubsDram s x := ⟨hscrub, hruns, hinside, hontime, hawake, halive, hclean⟩
    rw [exec_scrubRead_dram h, h.found_nothing]
  case corrected =>
    intro s cls found x hcls hscrub hruns hinside hontime hawake halive hclean hfound
    subst hcls hfound
    have h : ScrubsDram s x := ⟨hscrub, hruns, hinside, hontime, hawake, halive, hclean⟩
    obtain ⟨hce, hecc, hcells⟩ := h.found_correctable rfl
    exact ⟨_, exec_scrubRead_dram h 1, rfl, hce, hecc, hcells⟩
  case period =>
    intro s cls q hq hend hnone
    exact exec_memUePeriodEnd_quiet hq hend hnone
  case repaired =>
    intro s unrepairable tag n hrun hn hnone
    subst hnone
    refine ⟨_, exec_memRepairDone_all hrun hn, ?_, ?_, ?_, ?_⟩ <;> rw [Dev.evt0_mem]
    · rw [Dev.repairedRows_repair, List.drop_eq_nil_of_le hn]
    · rfl
    · exact Dev.repairedRows_unrepairable s.dev n
    · exact Dev.repairedRows_cells s.dev n
  case map =>
    intro s r w hw hfit
    exact ⟨_, exec_memGetMap_next hw hfit, rfl⟩
  case partition =>
    intro s r w harq stream hw hfit hharq hstream hcarriers hbuffers
    refine ⟨_, exec_memPartitionSet_idle hw hfit hharq hstream hcarriers hbuffers, ?_, answered_host_congr s.clk w _ rfl⟩
    rw [answered_mem]
    rfl
  case scrubDram =>
    intro s r w cls period hw hcls hperiod
    subst hcls
    exact exec_memScrubSet_next hw (Nat.zero_le 1) hperiod
  case scrubStatic =>
    intro s r w cls period hw hcls hperiod
    subst hcls
    exact exec_memScrubSet_next hw (Nat.le_refl 1) hperiod
  case scrubStatus =>
    intro s r w cls hw hfit hcls
    exact exec_memScrubStatus_next hw hfit hcls
  case stats =>
    intro s r w cls x hw hfit hcls hx
    exact exec_memErrStats_next hw hfit hcls hx
  case inject =>
    intro s r w addr kind hw hregion hkind hclean hawake hroom
    subst hkind
    rw [← cwBase_of_dram hregion] at hclean ⊢
    refine ⟨_, exec_memInject_ce hw hregion hclean hawake hroom, answered_host_congr s.clk w _ rfl, ?_, ?_, fun a ha => ?_⟩ <;>
      rw [answered_mem, noted_mem]
    · rw [Dev.injectedCe_ecc, if_pos rfl]
    · rfl
    · rw [Dev.injectedCe_ecc, if_neg ha]
  case list =>
    intro s r w first count x hw hfit hcount hfirst hx
    subst hfirst
    exact exec_memSpliceList_one hw hfit hcount hx
  case splice =>
    intro s r w addr hw hfit hregion hspare hroom
    refine ⟨_, exec_memSpliceAdd_sram hw hfit hregion hspare hroom, ?_, ?_⟩ <;> rw [answered_mem, noted_mem, Dev.evtLog_mem]
    · rfl
    · simp only [Dev.splicedRow, Dev.memStat, Dev.updMem_mem, Dev.restoreRow_spliceDue]
      cases s.dev.mem.spliceDue <;> simp
  case repair =>
    intro s r w hw hfit hmode
    exact exec_memRepair_allowed hw hfit hmode
  case testRow =>
    intro s r w addr core cls hw hcls hregion hawake
    exact exec_memSelftest_dram hw (by omega) hregion hawake
  case testCore =>
    intro s r w addr core cls hw hcls hcore hawake
    subst hcls
    refine ⟨_, exec_memSelftest_core hw hcore hawake, ?_, answered_host_congr s.clk w _ rfl⟩
    rw [answered_mem]
    rfl

end Sys2Proof.Machine
end

section
/-! What the operations of spokes, lanes and ports leave alone and change (R389, R400, R406, R407). -/
namespace Sys2Proof.Machine

/-! ### Events, causes and trims leave spokes and ports -/

/-- `e` differs from `d` at most in the host interface and in the management record: events posted, causes logged. -/
structure Reported (d e : Dev) : Prop where
  dev : e = { d with host := e.host, mgmt := e.mgmt, cyc := e.cyc }

theorem Reported.trans {a b d : Dev} (h : Reported a b) (k : Reported b d) : Reported a d := ⟨by rw [k.dev, h.dev]⟩
theorem Reported.of_hostOnly {d e : Dev} (h : HostOnly d e) : Reported d e := ⟨h.dev⟩
theorem Reported.logOnly (c : Clock) (d : Dev) (w sev code : Nat) (data : List Byte) :
    Reported d (d.logOnly c w sev code data) := ⟨rfl⟩
theorem Reported.trouble (d : Dev) (w b : Nat) : Reported d (d.trouble w b) := ⟨rfl⟩
theorem Reported.log (c : Clock) (d : Dev) (w b code : Nat) (data : List Byte) : Reported d (d.log c w b code data) := ⟨rfl⟩
theorem Reported.evt (c : Clock) (d : Dev) (ring own code tag : Nat) (fs : List (Nat × Nat × Nat)) :
    Reported d (d.evt c ring own code tag fs) := .of_hostOnly (.evt ..)
theorem Reported.evtNote (c : Clock) (d : Dev) (code tag w : Nat) (fs : List (Nat × Nat × Nat)) :
    Reported d (d.evtNote c code tag w fs) := .trans (.evt c d 0 0 code tag fs) (.logOnly ..)
theorem Reported.evtLog (c : Clock) (d : Dev) (ring own code tag w b : Nat) (fs : List (Nat × Nat × Nat)) :
    Reported d (d.evtLog c ring own code tag w b fs) :=
  .trans (.evt c d ring own code tag fs) (.trans (.trouble _ w b) (.logOnly ..))

theorem Reported.spk {d e : Dev} (h : Reported d e) : e.spk = d.spk := by rw [h.dev]
theorem Reported.mac {d e : Dev} (h : Reported d e) : e.mac = d.mac := by rw [h.dev]

@[simp] theorem Dev.evt0_spk (c : Clock) (d : Dev) (code tag : Nat) (fs : List (Nat × Nat × Nat)) :
    (d.evt0 c code tag fs).spk = d.spk := (Reported.evt ..).spk
@[simp] theorem Dev.evtLog_spk (c : Clock) (d : Dev) (ring own code tag w b : Nat) (fs : List (Nat × Nat × Nat)) :
    (d.evtLog c ring own code tag w b fs).spk = d.spk := (Reported.evtLog ..).spk
@[simp] theorem Dev.trouble_spk (d : Dev) (w b : Nat) : (d.trouble w b).spk = d.spk := rfl
@[simp] theorem Dev.updPort_spk (d : Dev) (p : Nat) (f : Port → Port) : (d.updPort p f).spk = d.spk := rfl
@[simp] theorem Dev.updLane_mac (d : Dev) (n : Nat) (f : Lane → Lane) : (d.updLane n f).mac = d.mac := rfl
@[simp] theorem Dev.updLane_host (d : Dev) (n : Nat) (f : Lane → Lane) : (d.updLane n f).host = d.host := rfl

theorem Reported.spkDown (c : Clock) (d : Dev) (n reason fails tag : Nat) : Reported d (d.spkDown c n reason fails tag) := by
  unfold Dev.spkDown
  split <;> exact .evtNote ..

@[simp] theorem Dev.spkDown_spk (c : Clock) (d : Dev) (n reason fails tag : Nat) :
    (d.spkDown c n reason fails tag).spk = d.spk := (Reported.spkDown ..).spk
@[simp] theorem Dev.spkDown_mac (c : Clock) (d : Dev) (n reason fails tag : Nat) :
    (d.spkDown c n reason fails tag).mac = d.mac := (Reported.spkDown ..).mac

@[simp] theorem Dev.resetLaneTrims_spk (d : Dev) (n : Nat) (ls : List Nat) : (d.resetLaneTrims n ls).spk = d.spk := by
  unfold Dev.resetLaneTrims
  split
  · exact foldl_keeps Dev.spk (f := fun d l => d.resetTrims 0 l) (fun _ _ => rfl) ls d
  · rfl

/-! ### A spoke that leaves ACTIVE -/

theorem Dev.noteDown_keeps {α : Type} (p : Dev → α) (ht : ∀ (d : Dev) w b, p (d.trouble w b) = p d)
    (hl : ∀ (d : Dev) f, p (d.updTnd f) = p d) (c : Clock) (d : Dev) (n : Nat) : p (d.noteDown c n) = p d := by
  unfold Dev.noteDown
  dsimp only
  split
  · rfl
  · split
    · exact ht d _ _
    · exact (hl _ _).trans (ht d _ _)

@[simp] theorem Dev.noteDown_spk (c : Clock) (d : Dev) (n : Nat) : (d.noteDown c n).spk = d.spk :=
  Dev.noteDown_keeps Dev.spk (fun _ _ _ => rfl) (fun _ _ => rfl) c d n
@[simp] theorem Dev.noteDown_mac (c : Clock) (d : Dev) (n : Nat) : (d.noteDown c n).mac = d.mac :=
  Dev.noteDown_keeps Dev.mac (fun _ _ _ => rfl) (fun _ _ => rfl) c d n
@[simp] theorem Dev.noteDown_host (c : Clock) (d : Dev) (n : Nat) : (d.noteDown c n).host = d.host :=
  Dev.noteDown_keeps Dev.host (fun _ _ _ => rfl) (fun _ _ => rfl) c d n

/-! ### The spoke table -/

theorem Dev.spoke_congr {d e : Dev} (h : e.spk = d.spk) (n : Nat) : e.spoke n = d.spoke n := by unfold Dev.spoke; rw [h]
theorem Dev.lane_congr {d e : Dev} (h : e.spk = d.spk) (n : Nat) : e.lane n = d.lane n := by unfold Dev.lane; rw [h]
theorem Dev.port_congr {d e : Dev} (h : e.mac = d.mac) (n : Nat) : e.port n = d.port n := by unfold Dev.port; rw [h]

theorem Dev.updSpoke_eq {d : Dev} {n : Nat} {y : Spoke} (h : d.spoke n = some y) (f : Spoke → Spoke) :
    d.updSpoke n f = d.updSpk fun x => { x with spokes := tput x.spokes n (f y) } := by
  unfold Dev.updSpoke; rw [h]

/-- An update of a spoke depends on what it makes of the present entry alone. -/
theorem Dev.updSpoke_congr {d : Dev} {n : Nat} {y : Spoke} (h : d.spoke n = some y) {f g : Spoke → Spoke} (hf : f y = g y) :
    d.updSpoke n f = d.updSpoke n g := by rw [Dev.updSpoke_eq h, Dev.updSpoke_eq h, hf]

@[simp] theorem Dev.spoke_updSpoke (d : Dev) (n : Nat) (f : Spoke → Spoke) :
    (d.updSpoke n f).spoke n = (d.spoke n).map f := by
  cases h : d.spoke n with
  | none => unfold Dev.updSpoke; rw [h]; exact h
  | some y => rw [Dev.updSpoke_eq h]; simp [Dev.spoke, tfind_tput]

theorem Dev.updSpoke_keeps {α : Type} (p : Dev → α) (hp : ∀ (d : Dev) f, p (d.updSpk f) = p d) (d : Dev) (n : Nat)
    (f : Spoke → Spoke) : p (d.updSpoke n f) = p d := by
  unfold Dev.updSpoke
  split
  · exact hp d _
  · rfl

@[simp] theorem Dev.updSpoke_host (d : Dev) (n : Nat) (f : Spoke → Spoke) : (d.updSpoke n f).host = d.host :=
  Dev.updSpoke_keeps Dev.host (fun _ _ => rfl) d n f
@[simp] theorem Dev.updSpoke_mac (d : Dev) (n : Nat) (f : Spoke → Spoke) : (d.updSpoke n f).mac = d.mac :=
  Dev.updSpoke_keeps Dev.mac (fun _ _ => rfl) d n f
@[simp] theorem Dev.updSpoke_mgmt (d : Dev) (n : Nat) (f : Spoke → Spoke) : (d.updSpoke n f).mgmt = d.mgmt :=
  Dev.updSpoke_keeps Dev.mgmt (fun _ _ => rfl) d n f

/-- Spokes and lanes stand in tables of their own. -/
theorem Dev.updSpoke_lanes (d : Dev) (n : Nat) (f : Spoke → Spoke) : (d.updSpoke n f).spk.lanes = d.spk.lanes := by
  unfold Dev.updSpoke; split <;> rfl

theorem Dev.updSpoke_tables (d : Dev) (n : Nat) (f : Spoke → Spoke) :
    (d.updSpoke n f).spk.table = d.spk.table ∧ (d.updSpoke n f).spk.tandemTable = d.spk.tandemTable := by
  unfold Dev.updSpoke; split <;> exact ⟨rfl, rfl⟩

@[simp] theorem Dev.lane_updSpoke (d : Dev) (n l : Nat) (f : Spoke → Spoke) : (d.updSpoke n f).lane l = d.lane l := by
  unfold Dev.lane; rw [Dev.updSpoke_lanes]

@[simp] theorem Dev.laneOptical_updSpoke (d : Dev) (n l : Nat) (f : Spoke → Spoke) :
    (d.updSpoke n f).laneOptical l = d.laneOptical l := by
  unfold Dev.laneOptical Dev.laneEntry
  obtain ⟨htable, htandem⟩ := Dev.updSpoke_tables d n f
  rw [htable, htandem]

theorem Dev.laneOptical_congr {d e : Dev} (h : e.spk = d.spk) (l : Nat) : e.laneOptical l = d.laneOptical l := by
  unfold Dev.laneOptical Dev.laneEntry; rw [h]

/-! ### The lane table's state -/

@[simp] theorem Dev.lane_updLane (d : Dev) (l : Nat) (f : Lane → Lane) : (d.updLane l f).lane l = f (d.lane l) := by
  simp [Dev.lane, Dev.updLane, tget_tmod]

/-- An update of a lane depends on what it makes of the present state alone. -/
theorem Dev.updLane_congr {d : Dev} {l : Nat} {f g : Lane → Lane} (hf : f (d.lane l) = g (d.lane l)) :
    d.updLane l f = d.updLane l g := by
  unfold Dev.lane at hf
  simp only [Dev.updLane, Dev.updSpk, tmod, hf]

@[simp] theorem Dev.spoke_updLane (d : Dev) (l n : Nat) (f : Lane → Lane) : (d.updLane l f).spoke n = d.spoke n := rfl

theorem Dev.abortScans_keeps {α : Type} (p : Dev → α) (hp : ∀ (d : Dev) l f, p (d.updLane l f) = p d) (d : Dev)
    (ls : List Nat) : p (d.abortScans ls) = p d := by
  unfold Dev.abortScans
  exact foldl_keeps p (fun _ _ => hp ..) _ _

@[simp] theorem Dev.spoke_abortScans (d : Dev) (ls : List Nat) (n : Nat) : (d.abortScans ls).spoke n = d.spoke n :=
  Dev.abortScans_keeps (fun d : Dev => d.spoke n) (fun _ _ _ => rfl) d ls
@[simp] theorem Dev.abortScans_mac (d : Dev) (ls : List Nat) : (d.abortScans ls).mac = d.mac :=
  Dev.abortScans_keeps Dev.mac (fun _ _ _ => rfl) d ls
@[simp] theorem Dev.abortScans_host (d : Dev) (ls : List Nat) : (d.abortScans ls).host = d.host :=
  Dev.abortScans_keeps Dev.host (fun _ _ _ => rfl) d ls

@[simp] theorem Dev.port_updPort (d : Dev) (p : Nat) (f : Port → Port) : (d.updPort p f).port p = f (d.port p) := by
  simp [Dev.port, Dev.updPort, tget_tmod]

/-! ### Trouble bits (R572) -/

theorem bit_eq_testBit (v i : Nat) : bit v i = v.testBit i := by
  rw [Nat.testBit_eq_decide_div_mod_eq]; unfold bit; rw [beq_eq_decide]

/-- Bit `i` of trouble word `w` is set. -/
def Dev.troubled (d : Dev) (w i : Nat) : Prop := bit (tget 0 d.mgmt.trb w).toNat i = true

theorem Dev.troubled_trouble (d : Dev) (w : Nat) {b : Nat} (hb : b < 16) : (d.trouble w b).troubled w b := by
  have hword : tget 0 (d.trouble w b).mgmt.trb w = tget 0 d.mgmt.trb w ||| BitVec.ofNat 16 (2 ^ b) := by
    simp [Dev.trouble, tget_tmod]
  unfold Dev.troubled
  rw [hword, bit_eq_testBit, BitVec.toNat_or, Nat.testBit_or, BitVec.toNat_ofNat,
    Nat.mod_eq_of_lt (Nat.pow_lt_pow_right (by decide) hb), Nat.testBit_two_pow_self, Bool.or_true]

/-- A cause clears no trouble bit. -/
theorem Dev.troubled.trouble {d : Dev} {w i : Nat} (h : d.troubled w i) (w' b : Nat) : (d.trouble w' b).troubled w i := by
  unfold Dev.troubled at h ⊢
  rw [bit_eq_testBit] at h ⊢
  simp only [Dev.trouble, Dev.updCyc_mgmt, Dev.updMgmt_mgmt, tget_tmod]
  split
  · next hw => rw [BitVec.toNat_or, Nat.testBit_or, ← hw, h, Bool.true_or]
  · exact h

theorem Dev.troubled_congr {d e : Dev} {w i : Nat} (h : d.troubled w i) (he : e.mgmt.trb = d.mgmt.trb) : e.troubled w i := by
  unfold Dev.troubled; rw [he]; exact h

theorem Dev.logOnly_trb (c : Clock) (d : Dev) (w sev code : Nat) (data : List Byte) :
    (d.logOnly c w sev code data).mgmt.trb = d.mgmt.trb := by
  unfold Dev.logOnly
  dsimp only [Dev.updMgmt_mgmt]
  split <;> rfl

/-- An event that is a cause sets its trouble bit (R573). -/
theorem Dev.troubled_evtLog (c : Clock) (d : Dev) (ring own code tag w : Nat) {b : Nat} (hb : b < 16)
    (fs : List (Nat × Nat × Nat)) : (d.evtLog c ring own code tag w b fs).troubled w b :=
  Dev.troubled_congr (Dev.troubled_trouble (d.evt c ring own code tag fs) w hb) (Dev.logOnly_trb ..)

theorem Dev.troubled.noteDown {d : Dev} {w i : Nat} (h : d.troubled w i) (c : Clock) (n : Nat) :
    (d.noteDown c n).troubled w i := by
  unfold Dev.noteDown
  dsimp only
  split
  · exact h
  · split
    · exact h.trouble _ _
    · exact h.trouble _ _

/-! ### A spoke of port type 2 has one lane -/

theorem Spoke.lanes_port2 {y : Spoke} (h : y.port = 2) {n : Nat} (hn : n < 128) : y.lanes n = [n] := by
  simp [Spoke.lanes, Spoke.type, h, portType, firstLane, show n < 256 by omega]

end Sys2Proof.Machine
end

section
/-! Statement O27: bring-up, handshake and faults of serial spokes (R395, R398, R400-R404, R406, R407, R412, R413). -/
namespace Sys2Proof.Machine

section
variable {s : State} {spoke : Nat} {y : Spoke}

/-! ### Bring-up -/

theorem exec_detectPulse_first (hy : s.dev.spoke spoke = some y) (hst : y.st = .detect) (hfirst : y.pulse = 0) (hit : Bool) :
    exec (.detectPulse spoke hit) s = .next { s with dev := s.dev.updSpoke spoke fun y =>
      if hit then { y with st := .train, since := s.clk.atc } else { y with pulse := s.clk.atc + 1 } } := by
  show execDetectPulse spoke hit s = _
  unfold execDetectPulse
  simp [onDev_eq, hy, hst, hfirst, Spoke.enter]

theorem exec_cdrLockHeld_train (hy : s.dev.spoke spoke = some y) (hst : y.st = .train)
    (hheld : y.since + 1966080 ≤ s.clk.atc) :
    exec (.cdrLockHeld spoke) s = .next { s with dev := s.dev.updSpoke spoke fun y =>
      { y with st := .lock, since := s.clk.atc } } := by
  show execCdrLockHeld spoke s = _
  unfold execCdrLockHeld
  simp [onDev_eq, hy, hst, Nat.not_lt.2 hheld, Spoke.enter]

theorem exec_pcsLock_spokeProfile (hy : s.dev.spoke spoke = some y) (hst : y.st = .lock) (hprofile : y.profile = 1) :
    exec (.pcsLock spoke true) s = .next { s with dev := s.dev.updSpoke spoke fun y =>
      { y with st := .exchange, since := s.clk.atc, nextSend := s.clk.atc, peerCap := [], agreed := none } } := by
  show execPcsLock spoke true s = _
  unfold execPcsLock
  simp [onDev_eq, hy, hst, hprofile, Spoke.enter]

/-- A failure that is not the 16th in a row only starts the wait (R402). -/
theorem Dev.spkFail_wait {d : Dev} (hy : d.spoke spoke = some y) (hfails : y.fails < 15) (c : Clock) (reason : Nat) :
    d.spkFail c spoke reason = d.updSpoke spoke fun y =>
      { y with st := .wait, since := c.atc, waitEnd := c.atc + 19660800 * 2 ^ min (y.fails + 1) 7, fails := y.fails + 1
               reason := reason } := by
  unfold Dev.spkFail
  rw [hy]
  simp only [Nat.ne_of_lt hfails, if_false]
  refine Dev.updSpoke_congr hy ?_
  rw [Nat.min_eq_left (by omega : y.fails + 1 ≤ 255)]

/-- The first failure waits for 2 periods of 10 ms (R402). -/
theorem Dev.spkFail_first {d : Dev} (hy : d.spoke spoke = some y) (hfails : y.fails = 0) (c : Clock) (reason : Nat) :
    d.spkFail c spoke reason = d.updSpoke spoke fun y =>
      { y with st := .wait, since := c.atc, waitEnd := c.atc + 39321600, fails := 1, reason := reason } := by
  rw [Dev.spkFail_wait hy (by omega)]
  exact Dev.updSpoke_congr hy (by simp [hfails])

theorem exec_pcsLock_skew (hy : s.dev.spoke spoke = some y) (hst : y.st = .lock) (hfails : y.fails = 0) :
    exec (.pcsLock spoke false) s = .next { s with dev := s.dev.updSpoke spoke fun y =>
      { y with st := .wait, since := s.clk.atc, waitEnd := s.clk.atc + 39321600, fails := 1, reason := 4 } } := by
  rw [← Dev.spkFail_first hy hfails]
  show execPcsLock spoke false s = _
  unfold execPcsLock
  simp [onDev_eq, hy, hst]

theorem exec_bringupTimeout_lock (hy : s.dev.spoke spoke = some y) (hst : y.st = .lock)
    (hlate : y.since + 196608000 ≤ s.clk.atc) (hfails : y.fails < 15) :
    exec (.bringupTimeout spoke) s = .next { s with dev := s.dev.updSpoke spoke fun y =>
      { y with st := .wait, since := s.clk.atc, waitEnd := s.clk.atc + 19660800 * 2 ^ min (y.fails + 1) 7
               fails := y.fails + 1, reason := 3 } } := by
  rw [← Dev.spkFail_wait hy hfails]
  show execBringupTimeout spoke s = _
  unfold execBringupTimeout
  simp [onDev_eq, hy, hst, Nat.not_lt.2 hlate]

theorem exec_bringupTimeout_early (hy : s.dev.spoke spoke = some y) (hst : y.st = .lock)
    (hearly : s.clk.atc < y.since + 196608000) : exec (.bringupTimeout spoke) s = .next s := by
  show execBringupTimeout spoke s = _
  unfold execBringupTimeout
  simp [onDev_eq, hy, hst, hearly]

theorem exec_retryWaitEnd_due (hy : s.dev.spoke spoke = some y) (hst : y.st = .wait) (hdue : y.waitEnd ≤ s.clk.atc) :
    exec (.retryWaitEnd spoke) s = .next { s with dev := s.dev.restartSpoke s.clk spoke } := by
  show execRetryWaitEnd spoke s = _
  unfold execRetryWaitEnd
  simp [onDev_eq, hy, hst, Nat.not_lt.2 hdue]

/-- A spoke that starts again is in DETECT, or in TRAIN where it is optical, and has agreed nothing (R400). -/
def Spoke.restarted (y : Spoke) (c : Clock) (optical : Bool) : Spoke :=
  { y with st := if optical then .train else .detect, since := c.atc, told := false, pulse := 0, fast := false, first := none
           agreed := none, peerCap := [], window := false }

theorem Dev.spoke_restartSpoke {d : Dev} (hy : d.spoke spoke = some y) (hn : spoke < 128) (c : Clock) :
    (d.restartSpoke c spoke).spoke spoke = some (y.restarted c (d.laneOptical spoke)) := by
  have hfirst : firstLane spoke = spoke := if_pos (by omega)
  have htandem : decide (256 ≤ spoke) = false := decide_eq_false (by omega)
  have hkept : ∀ e : Dev, e.spk = d.spk → (((e.noteDown c spoke).abortScans (y.lanes spoke)).updSpoke spoke fun s =>
      { s with st := if e.laneOptical (firstLane spoke) then .train else .detect, since := c.atc, told := false, pulse := 0
               fast := decide (256 ≤ spoke), first := none, agreed := none, peerCap := [], window := false }).spoke spoke = some (y.restarted c (d.laneOptical spoke)) := by
    intro e he
    rw [Dev.spoke_updSpoke, Dev.spoke_abortScans, Dev.spoke_congr (Dev.noteDown_spk ..), Dev.spoke_congr he, hy, hfirst,
      htandem, Dev.laneOptical_congr he]
    rfl
  unfold Dev.restartSpoke
  rw [hy]
  dsimp only
  split
  · exact hkept _ (Dev.resetLaneTrims_spk ..)
  · exact hkept _ rfl

/-! ### The handshake -/

theorem exec_capFrameSend_due (hy : s.dev.spoke spoke = some y) (hn : spoke < 128) (hst : y.st = .exchange)
    (hdue : y.nextSend ≤ s.clk.atc) :
    exec (.capFrameSend spoke) s = .next { s with
      dev := (s.dev.updSpoke spoke fun y =>
        { y with seq := (y.seq + 1) % 256, nextSend := s.clk.atc + 196608, ownCap := s.dev.capBody spoke y }).updPort spoke
          fun p => { p with queue := p.queue ++ [{ cls := 3, bytes := be 6 (2 ^ 48 - 1) ++ be 6 (s.dev.port spoke).ownMac ++ be 2 0x88B5 ++ s.dev.handshakePayload spoke y
                                                   ready := s.clk.atc }] } } := by
  show execCapFrameSend spoke s = _
  unfold execCapFrameSend
  simp only [onDev_eq, hy, hst, Nat.not_lt.2 hdue, show ¬ 256 ≤ spoke by omega]
  rfl

theorem exec_cap_agree {payload : List Byte} {a : Agreement} (hy : s.dev.spoke spoke = some y) (hst : y.st = .exchange)
    (hnone : y.agreed = none) (hfirst : y.first = none) (hlen : payload.length = 64) (hkind : fieldAt payload 0 1 = 1)
    (hversion : fieldAt payload 1 1 = 1)
    (ha : agree y (s.dev.capBody spoke y) ((payload.drop 4).take 28) = some a) :
    exec (.cap spoke payload) s = .next { s with dev := s.dev.updSpoke spoke fun y =>
      { y with agreed := some a, peerCap := (payload.drop 4).take 28 } } := by
  show execCap spoke payload s = _
  unfold execCap Dev.onCap
  simp [onDev_eq, hy, hst, hnone, hfirst, hlen, hkind, hversion, ha]

/-- The spoke is in EXCHANGE with an agreement, and a CONFIRM has come. -/
structure Confirms (s : State) (spoke : Nat) (y : Spoke) (payload : List Byte) (a : Agreement) : Prop where
  spoke : s.dev.spoke spoke = some y
  exchange : y.st = .exchange
  agreed : y.agreed = some a
  length : payload.length = 64
  kind : fieldAt payload 0 1 = 2
  version : fieldAt payload 1 1 = 1

theorem exec_confirm_other {payload : List Byte} {a : Agreement} (h : Confirms s spoke y payload a)
    (hword : fieldAt payload 32 4 ≠ a.word) (hfails : y.fails = 0) :
    exec (.confirm spoke payload) s = .next { s with dev := s.dev.updSpoke spoke fun y =>
      { y with st := .wait, since := s.clk.atc, waitEnd := s.clk.atc + 39321600, fails := 1, reason := 6 } } := by
  obtain ⟨hy, hst, ha, hlen, hkind, hversion⟩ := h
  rw [← Dev.spkFail_first hy hfails]
  show execConfirm spoke payload s = _
  unfold execConfirm Dev.onConfirm
  simp [onDev_eq, hy, hst, ha, hlen, hkind, hversion, hword]

theorem exec_confirm_equal {payload : List Byte} {a : Agreement} (h : Confirms s spoke y payload a) (hn : spoke < 128)
    (hword : fieldAt payload 32 4 = a.word) (hdigest : fieldAt payload 36 4 = digest (s.dev.capBody spoke y) y.peerCap)
    (hrate : a.fast = false ∨ y.fast = true) :
    exec (.confirm spoke payload) s = .next { s with
      dev := (s.dev.updSpoke spoke fun y => { y with
        st := .active, since := s.clk.atc, agreed := some a, fails := 0, reason := 0, window := !y.timed }).evt0 s.clk 0x0780 0
          [(0, 1, spoke), (1, 1, a.fast.toNat), (2, 1, a.fec)] } := by
  obtain ⟨hy, hst, ha, hlen, hkind, hversion⟩ := h
  have hup : a.fast = true → y.fast = true := fun hfast => hrate.resolve_left (by simp [hfast])
  show execConfirm spoke payload s = _
  unfold execConfirm Dev.onConfirm Dev.spkUp
  simp [onDev_eq, hy, hst, ha, hlen, hkind, hversion, hword, hdigest, Spoke.enter, show spoke < 256 by omega]
  intro hfast hslow
  simp [hup hfast] at hslow

/-! ### Faults and self-tests -/

/-- An ACTIVE spoke with one lane after hi_ber: TEST, its traffic ended and its lane under test (R406, R407, R412). -/
def Dev.hiBer (c : Clock) (d : Dev) (spoke : Nat) (y : Spoke) : Dev :=
  ((((((d.noteDown c spoke).updPort spoke Port.abort).abortScans [spoke]).updSpoke spoke fun y =>
    { ((y.seeUe c.atc 0).enter c.atc .test) with reason := 9, window := false, ues := [] })).spkDown c spoke 9 y.fails).testLanes
      c [spoke] none

theorem exec_spokeFault_hiBer (hy : s.dev.spoke spoke = some y) (hn : spoke < 128) (hst : y.st = .active) (hport : y.port = 2)
    (ue : Nat) : exec (.spokeFault spoke 1 ue) s = .next { s with dev := s.dev.hiBer s.clk spoke y } := by
  show execSpokeFault spoke 1 ue s = _
  unfold execSpokeFault
  simp [onDev_eq, hy, hst, Spoke.lanes_port2 hport hn, Dev.hiBer]

theorem Dev.spoke_hiBer {d : Dev} (hy : d.spoke spoke = some y) (huncorr : y.uncorr < 2 ^ 64) (c : Clock) :
    (d.hiBer c spoke y).spoke spoke =
      some { y with st := .test, since := c.atc, reason := 9, window := false, ues := [] } := by
  have hcount : satAdd 64 y.uncorr 0 = y.uncorr := Nat.min_eq_left (by omega)
  show ((((((d.noteDown c spoke).updPort spoke Port.abort).abortScans [spoke]).updSpoke spoke _)).spkDown
    c spoke 9 y.fails).spoke spoke = _
  rw [Dev.spoke_congr (Dev.spkDown_spk ..), Dev.spoke_updSpoke, Dev.spoke_abortScans, Dev.spoke_congr (Dev.updPort_spk ..),
    Dev.spoke_congr (Dev.noteDown_spk ..), hy]
  simp [Spoke.seeUe, Spoke.enter, hcount]

theorem Dev.port_hiBer (d : Dev) (c : Clock) : (d.hiBer c spoke y).port spoke = (d.port spoke).abort := by
  show ((((((d.noteDown c spoke).updPort spoke Port.abort).abortScans [spoke]).updSpoke spoke _)).spkDown
    c spoke 9 y.fails).port spoke = _
  rw [Dev.port_congr (Dev.spkDown_mac ..), Dev.port_congr (Dev.updSpoke_mac ..), Dev.port_congr (Dev.abortScans_mac ..),
    Dev.port_updPort, Dev.port_congr (Dev.noteDown_mac ..)]

theorem exec_spokeFault_within {kind ue : Nat} (hy : s.dev.spoke spoke = some y)
    (hwithin : ((y.seeUe s.clk.atc ue).ues.map (·.2)).sum ≤ y.ueLimit) (hkind : kind = 2) :
    exec (.spokeFault spoke kind ue) s = .next s := by
  subst hkind
  show execSpokeFault spoke 2 ue s = _
  unfold execSpokeFault
  simp [onDev_eq, hy, hwithin]

end

/-! ### Lanes after their self-tests (R407) -/

/-- The block in which the self-test of lane `l` has ended with the verdict `bad`. -/
def Dev.laneTested (d : Dev) (l : Nat) (bad : Bool) : Dev :=
  d.updLane l fun x => { x with testAt := 0, asked := none, retired := bad }

/-- The block after a test of lane `l` that found nothing, its spoke not yet told. -/
def Dev.laneCleared (c : Clock) (d : Dev) (l : Nat) : Dev :=
  if (d.lane l).asked.isSome then d.laneTested l false
  else ((d.laneTested l false).updMem fun m =>
    { m with transients := recentTransients c.atc 3 l d.mem.transients }).trouble (20 + l / 32) trbTRANSIENT

theorem Dev.laneCleared_spk (c : Clock) (d : Dev) (l : Nat) : (d.laneCleared c l).spk = (d.laneTested l false).spk := by
  unfold Dev.laneCleared; split <;> rfl

theorem Dev.lane_laneTested (d : Dev) (l : Nat) (bad : Bool) :
    (d.laneTested l bad).lane l = { d.lane l with testAt := 0, asked := none, retired := bad } := Dev.lane_updLane ..

theorem exec_laneSelftestDone_clean {s : State} {lane : Nat} {y : Spoke} (hlane : lane < 128)
    (htest : (s.dev.lane lane).testAt ≠ 0) (hdone : (s.dev.lane lane).testAt + 19660800 ≤ s.clk.atc + 1)
    (hfirst : s.dev.mem.transients = []) (hspokes : s.dev.spk.spokes = [(lane, y)]) (hst : y.st = .test) (hport : y.port = 2) :
    exec (.laneSelftestDone lane false) s = .next { s with
      dev := (s.dev.laneCleared s.clk lane).updSpoke lane fun y =>
        { y with st := .wait, since := s.clk.atc, waitEnd := s.clk.atc + 19660800 * 2 ^ min y.fails 7 } } := by
  have hlanes := Spoke.lanes_port2 hport hlane
  have hown : s.dev.laneSpoke lane = some (lane, y) := by simp [Dev.laneSpoke, hspokes, hlanes]
  have hnot : fourth 3 lane (recentTransients s.clk.atc 3 lane s.dev.mem.transients) = false := by
    simp [hfirst, fourth, recentTransients]
  have hkept : (s.dev.laneCleared s.clk lane).lane lane =
      { s.dev.lane lane with testAt := 0, asked := none, retired := false } := by
    rw [Dev.lane_congr (Dev.laneCleared_spk ..), Dev.lane_laneTested]
  have hclear : ((s.dev.laneCleared s.clk lane).lane lane).testAt = 0 ∧
      ((s.dev.laneCleared s.clk lane).lane lane).retired = false := by rw [hkept]; exact ⟨rfl, rfl⟩
  show execLaneSelftestDone lane false s = _
  unfold execLaneSelftestDone
  simp only [onDev_eq, htest, Nat.not_lt.2 hdone, hown, hnot, hlane, if_true]
  simp only [Bool.false_or, Bool.and_false, decide_false, Bool.false_eq_true, if_false]
  rw [← Dev.laneTested.eq_def, ← Dev.laneCleared.eq_def]
  simp [hst, hlanes, hclear, Spoke.enter]

/-- What a lane's lasting fault makes of the spoke that owns it (R407). -/
def Dev.ownerToTest (c : Clock) (d : Dev) (own : Option (Nat × Spoke)) : Dev :=
  match own with
  | some (n, s) =>
    if s.st = .disabled then d
    else
      (if s.st = .active then (d.noteDown c n).updPort n Port.abort else d).updSpoke n fun s =>
        { (s.enter c.atc .test) with reason := 8, window := false }
  | none => d

theorem Dev.lane_ownerToTest (c : Clock) (d : Dev) (own : Option (Nat × Spoke)) (l : Nat) :
    (d.ownerToTest c own).lane l = d.lane l := by
  unfold Dev.ownerToTest
  split
  · split
    · rfl
    · rw [Dev.lane_updSpoke]
      split
      · exact Dev.lane_congr (Dev.noteDown_spk ..) l
      · rfl
  · rfl

theorem Dev.troubled.ownerToTest {d : Dev} {w i : Nat} (h : d.troubled w i) (c : Clock) (own : Option (Nat × Spoke)) :
    (d.ownerToTest c own).troubled w i := by
  unfold Dev.ownerToTest
  split
  · split
    · exact h
    · refine Dev.troubled_congr ?_ (congrArg Mgmt.trb (Dev.updSpoke_mgmt ..))
      split
      · exact Dev.troubled_congr (h.noteDown c _) rfl
      · exact h
  · exact h

/-- The block that has retired lane `l` and reported it, its spoke not yet told. -/
def Dev.laneRetired (c : Clock) (d : Dev) (l : Nat) : Dev :=
  (((d.laneTested l true).trouble (20 + l / 32) trbLASTING).abortScans [l]).evtLog c 0 0 0x0784 ((d.lane l).asked.getD 0)
    (20 + l / 32) trbRETIRED [(0, 1, l), (1, 1, ((d.laneSpoke l).map (·.1)).getD 0xFF)]

theorem Dev.lane_laneRetired (c : Clock) {d : Dev} {l : Nat} (hscan : (d.lane l).scan = none) :
    (d.laneRetired c l).lane l = { d.lane l with testAt := 0, asked := none, retired := true } := by
  have habort : ((((d.laneTested l true).trouble (20 + l / 32) trbLASTING).abortScans [l])).lane l =
      { (d.laneTested l true).lane l with scan := ((d.laneTested l true).lane l).scan.map fun s => { s with aborted := true } } :=
    Dev.lane_updLane ..
  unfold Dev.laneRetired
  rw [Dev.lane_congr (Dev.evtLog_spk ..), habort, Dev.lane_laneTested]
  simp [hscan]

theorem exec_laneSelftestDone_errors {s : State} {lane : Nat} (hlane : lane < 128)
    (htest : (s.dev.lane lane).testAt ≠ 0) (hdone : (s.dev.lane lane).testAt + 19660800 ≤ s.clk.atc + 1) :
    exec (.laneSelftestDone lane true) s = .next { s with
      dev := (s.dev.laneRetired s.clk lane).ownerToTest s.clk (s.dev.laneSpoke lane) } := by
  show execLaneSelftestDone lane true s = _
  unfold execLaneSelftestDone
  simp only [onDev_eq, htest, Nat.not_lt.2 hdone, hlane, if_true, Bool.true_or]
  rfl

/-! ### Disable and resize (R412, R413) -/

theorem exec_spkDisabled_idle {s : State} {spoke tD tag : Nat} {abort : Bool} {y : Spoke} (hy : s.dev.spoke spoke = some y)
    (hn : spoke < 128) (hdis : y.dis = .ending abort tD tag) (hresize : y.resize = none)
    (hidle : s.dev.portIdle spoke = true) :
    exec (.spkDisabled spoke) s = .next { s with
      dev := (((s.dev.noteDown s.clk spoke).abortScans (y.lanes spoke)).updSpoke spoke fun y =>
        { y with st := .disabled, since := s.clk.atc, dis := .disabled, window := false, fast := false, agreed := none }).evt0
          s.clk 0x0782 tag [(0, 1, spoke), (1, 1, abort.toNat)] } := by
  show execSpkDisabled spoke s = _
  unfold execSpkDisabled Dev.finishDisable
  simp [onDev_eq, hy, hdis, hresize, hidle, Spoke.enter, show spoke < 256 by omega]

theorem exec_spkResized_active {s : State} {spoke ty tag : Nat} {y : Spoke} (hy : s.dev.spoke spoke = some y)
    (hst : y.st = .active) (hresized : y.resized = some (ty, tag)) :
    exec (.spkResized spoke) s = .next { s with
      dev := (s.dev.updSpoke spoke fun y => { y with resized := none }).evt0 s.clk 0x0786 tag [(0, 1, spoke), (1, 1, ty)] } := by
  show execSpkResized spoke s = _
  unfold execSpkResized
  simp [onDev_eq, hy, hst, hresized]

/-- Settles O27: each command has its lemma above. -/
theorem spokeBringUp : Obligations.SpokeBringUp := by
  unfold Obligations.SpokeBringUp
  refine ⟨?pulse, ?cdr, ?lock, ?skew, ?coefficient, ?timeout, ?early, ?retry, ?send, ?cap, ?other, ?confirm, ?hiBer, ?within,
    ?clean, ?errors, ?disabled, ?resized⟩
  case pulse =>
    intro s spoke hit y hy hst hfirst
    exact exec_detectPulse_first hy hst hfirst hit
  case cdr =>
    intro s spoke y hy hst hheld
    exact exec_cdrLockHeld_train hy hst hheld
  case lock =>
    intro s spoke skewOk y hy hst hskew hprofile
    subst hskew
    exact exec_pcsLock_spokeProfile hy hst hprofile
  case skew =>
    intro s spoke skewOk y hy hst hskew hfails
    subst hskew
    exact exec_pcsLock_skew hy hst hfails
  case coefficient =>
    intro s lane
    rfl
  case timeout =>
    intro s spoke y hy hst hlate hfails
    exact exec_bringupTimeout_lock hy hst hlate hfails
  case early =>
    intro s spoke y hy hst hearly
    exact exec_bringupTimeout_early hy hst hearly
  case retry =>
    intro s spoke y hy hn ⟨hst, hdue⟩ hport hscan
    exact ⟨_, exec_retryWaitEnd_due hy hst hdue, Dev.spoke_restartSpoke hy hn s.clk⟩
  case send =>
    intro s spoke y hy hn hst hdue
    refine ⟨_, exec_capFrameSend_due hy hn hst hdue, ?_, ?_⟩
    · rw [Dev.spoke_congr (Dev.updPort_spk ..), Dev.spoke_updSpoke, hy]
      rfl
    · rw [Dev.port_updPort, Dev.port_congr (Dev.updSpoke_mac ..)]
  case cap =>
    intro s spoke payload y a hy hst hnone hfirst hlen hkind hversion ha
    exact exec_cap_agree hy hst hnone hfirst hlen hkind hversion ha
  case other =>
    intro s spoke payload y a hy hst ha hlen hkind hversion hword hfails
    exact exec_confirm_other ⟨hy, hst, ha, hlen, hkind, hversion⟩ hword hfails
  case confirm =>
    intro s spoke payload y a hy hn hst ha hlen hkind hversion hword hdigest hrate
    exact exec_confirm_equal ⟨hy, hst, ha, hlen, hkind, hversion⟩ hn hword hdigest hrate
  case hiBer =>
    intro s spoke kind ue y hy hn hst hport huncorr hkind
    subst hkind
    refine ⟨_, exec_spokeFault_hiBer hy hn hst hport ue, Dev.spoke_hiBer hy huncorr s.clk, ?_, ?_, ?_⟩
    · exact congrArg Lane.testAt (Dev.lane_updLane ..)
    · exact congrArg Lane.asked (Dev.lane_updLane ..)
    · exact congrArg Port.queue (Dev.port_hiBer ..)
  case within =>
    intro s spoke kind ue y hy hkind hwithin
    exact exec_spokeFault_within hy hwithin hkind
  case clean =>
    intro s lane errors x y hx hlane htest hdone herrors hfirst hspokes ⟨hst, hport⟩
    subst herrors hx
    refine ⟨_, exec_laneSelftestDone_clean hlane htest hdone hfirst hspokes hst hport, ?_, ?_⟩
    · rw [Dev.lane_updSpoke, Dev.lane_congr (Dev.laneCleared_spk ..), Dev.lane_laneTested]
    · rw [Dev.spoke_updSpoke, Dev.spoke_congr (Dev.laneCleared_spk ..)]
      simp [Dev.laneTested, Dev.spoke, Dev.updLane, hspokes, tfind]
  case errors =>
    intro s lane errors x hx hlane htest hdone hscan herrors
    subst herrors hx
    refine ⟨_, exec_laneSelftestDone_errors hlane htest hdone, ?_, ?_⟩
    · rw [Dev.lane_ownerToTest, Dev.lane_laneRetired s.clk hscan]
    · exact (Dev.troubled_evtLog s.clk _ 0 0 0x0784 _ (20 + lane / 32) (by decide) _).ownerToTest s.clk _
  case disabled =>
    intro s spoke tD tag abort y hy hn ⟨hst, hport⟩ hdis hresize hidle hscan
    refine ⟨_, exec_spkDisabled_idle hy hn hdis hresize hidle, ?_⟩
    rw [Dev.spoke_congr (Dev.evt0_spk ..), Dev.spoke_updSpoke, Dev.spoke_abortScans, Dev.spoke_congr (Dev.noteDown_spk ..), hy]
    rfl
  case resized =>
    intro s spoke ty tag y hy hst hresized
    exact exec_spkResized_active hy hst hresized

end Sys2Proof.Machine
end

section
/-! Statement O28: the commands of spokes and lanes (R389, R390, R396, R399, R408, R412, R413, R416-R423). -/
namespace Sys2Proof.Machine

/-! ### Commands that set something going once they are answered -/

/-- A command is answered as `serve` answers it where what follows its answer has no effect. -/
theorem onDev_serveThen_rest {s : State} {r : Req} {code : Nat} {h : Ctx → Dev → Reply × Dev} {post : Ctx → Dev → Dev} {e : Dev}
    (hserve : onDev (serve code r h) s = .next { s with dev := e }) (hpost : ∀ x, post x e = e) :
    onDev (serveThen code r h post) s = .next { s with dev := e } := by
  have he : serve code r h s.clk s.dev = e := congrArg State.dev (Host.Outcome.next.inj hserve)
  rw [onDev_eq]
  unfold serveThen
  split
  · next hnone => rw [← he, serve_none hnone]
  · simp only [he, hpost, ite_self]

@[simp] theorem noted_spk (d : Dev) : (noted d).spk = d.spk := rfl
@[simp] theorem answered_spk (c : Clock) (w : Waiting) (r : Reply) (d : Dev) : (answered c w r d).spk = d.spk := by
  unfold answered; rw [Dev.respond_dev]; rfl

/-! ### The only spoke of a device -/

/-- `y` is the only spoke that is configured, at number `n`. -/
def Dev.onlySpoke (d : Dev) (n : Nat) (y : Spoke) : Prop := d.spk.spokes = [(n, y)]

namespace Dev.onlySpoke
variable {d : Dev} {n : Nat} {y : Spoke}

theorem spoke (h : d.onlySpoke n y) : d.spoke n = some y := by
  unfold Dev.onlySpoke at h; simp [Dev.spoke, h, tfind]

theorem absorbed (h : d.onlySpoke n y) : d.absorbed n = false := by
  unfold Dev.onlySpoke at h; simp [Dev.absorbed, Dev.absorber, h]

theorem liveSpoke (h : d.onlySpoke n y) : d.liveSpoke n = some y := by
  unfold Dev.liveSpoke; rw [h.absorbed, h.spoke]; rfl

/-- A spoke of at most 25 Gb/s alone fits in its half (R392). -/
theorem halfFits (h : d.onlySpoke n y) {z : Spoke} (hz : z.type.mbps ≤ 25000) : d.halfFits n z = true := by
  unfold Dev.onlySpoke at h
  have hshare : d.halfShare n z ≤ 25000 * 204 := by
    unfold Dev.halfShare
    split
    · split <;> omega
    · omega
  simp only [Dev.halfFits, h]
  simp
  omega

end Dev.onlySpoke

theorem Spoke.mbps_le {y : Spoke} (h : y.port = 1 ∨ y.port = 2) : y.type.mbps ≤ 25000 := by
  obtain h | h := h <;> simp [Spoke.type, h, portType]

theorem portType_none {port : Nat} (h : port = 0 ∨ 10 < port) : portType port = none := by
  unfold portType
  split
  all_goals first | rfl | omega

/-! ### Configuration, enable, disable, resize -/

section
variable {s : State} {r : Req} {w : Waiting} {spoke : Nat} {y : Spoke}

theorem exec_spkConfig_resting {profile fec rate cmp domains timed ueLimit : Nat} (hw : Waits s r 0x0701 w) (hn : spoke < 128)
    (hprofile : profile ≤ 1) (hfec : fec ≤ 1) (hrate : rate ≤ 1) (hcmp : cmp < 8) (hdomains : domains < 4) (htimed : timed ≤ 1)
    (hy : s.dev.onlySpoke spoke y) (hrest : y.resting = true) :
    exec (.spkConfig r spoke 2 profile fec rate cmp 0xA0 domains timed ueLimit) s = .next { s with
      dev := answered s.clk w rOk (noted (s.dev.updSpk fun x => { x with
        spokes := tput x.spokes spoke {
          port := 2, profile := profile, fecPref := fec, fastOk := rate = 1, cmp := cmp, mRange := 0xA0, domains := domains
          timed := timed = 1, ueLimit := ueLimit } })) } := by
  have hlisted : s.dev.spk.spokes = [(spoke, y)] := hy
  have hchoice : fecOk ⟨1, 25000, 25781250, 28125000, false, [0, 1], [(0, 30, 42), (1, 60, 280)]⟩ 0 fec = true := by
    obtain rfl | rfl : fec = 0 ∨ fec = 1 := by omega
    · rfl
    · rfl
  have hfits : ∀ z : Spoke, z.port = 2 → s.dev.halfFits spoke z = true := fun z hz => hy.halfFits (Spoke.mbps_le (.inr hz))
  have hlanes : ∀ z : Spoke, z.port = 2 → z.lanes spoke = [spoke] := fun z hz => Spoke.lanes_port2 hz hn
  refine onDev_serve_journalled hw (by decide) (.inl rfl) (fits_zero w) rfl ?_
  simp [Nat.not_le.2 hn, portType, hlanes, Nat.mod_one, Nat.not_lt.2 hprofile, show ¬ 2 < fec by omega, hchoice,
    Nat.not_lt.2 hrate, Nat.not_le.2 hcmp, Nat.not_le.2 hdomains, Nat.not_lt.2 htimed, hy.absorbed, hlisted, hrest, hfits,
    hy.spoke]

theorem exec_spkConfig_noType {port profile fec rate cmp mRange domains timed ueLimit : Nat} (hw : Waits s r 0x0701 w)
    (hn : spoke < 128) (hport : port = 0 ∨ 10 < port) :
    exec (.spkConfig r spoke port profile fec rate cmp mRange domains timed ueLimit) s = .next { s with
      dev := answered s.clk w (rBad 1) s.dev } := by
  refine onDev_serve_refused hw (by decide) (fits_zero w) ?_
  simp [Nat.not_le.2 hn, portType_none hport]

/-! A spoke that comes up posts nothing. -/

@[simp] theorem Dev.resetLaneTrims_host (d : Dev) (n : Nat) (ls : List Nat) : (d.resetLaneTrims n ls).host = d.host := by
  unfold Dev.resetLaneTrims
  split
  · exact foldl_keeps Dev.host (f := fun d l => d.resetTrims 0 l) (fun _ _ => rfl) ls d
  · rfl

theorem Dev.restartSpoke_host (c : Clock) (d : Dev) (n : Nat) : (d.restartSpoke c n).host = d.host := by
  unfold Dev.restartSpoke
  split
  · rfl
  · simp [apply_ite Dev.host]

theorem Dev.laneBar_updSpoke (d : Dev) (n l need : Nat) (f : Spoke → Spoke) :
    (d.updSpoke n f).laneBar l need = d.laneBar l need := by
  have hentry : (d.updSpoke n f).laneEntry l = d.laneEntry l := by
    obtain ⟨htable, htandem⟩ := Dev.updSpoke_tables d n f
    unfold Dev.laneEntry
    rw [htable, htandem]
  unfold Dev.laneBar Dev.laneMax
  rw [hentry]

/-- The block in which spoke `n`, at rest, is enabled: the part before it starts (R398, R400, R402). -/
def Dev.clearedSpoke (d : Dev) (n : Nat) : Dev :=
  ((d.updSpoke n fun s => { s with fails := 0 }).updSpoke n fun s => { s with reason := 0 }).updSpoke n fun s =>
    { s with dis := .on }

theorem Dev.enableSpoke_port2 {d : Dev} (hy : d.spoke spoke = some y) (hn : spoke < 128) (hrest : y.resting = true)
    (hport : y.port = 2) (hbar : d.laneBar spoke 25781250 = none) (hretired : (d.lane spoke).retired = false) (c : Clock) :
    d.enableSpoke c spoke = (d.clearedSpoke spoke).restartSpoke c spoke := by
  have hlanes : ∀ z : Spoke, z.port = 2 → z.lanes spoke = [spoke] := fun z hz => Spoke.lanes_port2 hz hn
  have htype : ∀ z : Spoke, z.port = 2 → z.type.lane = 25781250 := fun z hz => by simp [Spoke.type, hz, portType]
  unfold Dev.enableSpoke Dev.bringUp Dev.clearedSpoke
  simp [hy, hrest, hlanes, htype, hport, Dev.laneBar_updSpoke, hbar, hretired, show spoke < 256 by omega]

theorem Dev.spoke_enabled {d : Dev} (hy : d.spoke spoke = some y) (hn : spoke < 128) (c : Clock) :
    ((d.clearedSpoke spoke).restartSpoke c spoke).spoke spoke =
      some ({ y with dis := .on, fails := 0, reason := 0 }.restarted c (d.laneOptical spoke)) := by
  have hcleared : (d.clearedSpoke spoke).spoke spoke = some { y with dis := .on, fails := 0, reason := 0 } := by
    simp [Dev.clearedSpoke, hy]
  rw [Dev.spoke_restartSpoke hcleared hn]
  simp [Dev.clearedSpoke]

theorem exec_spkEnable_resting (hw : Waits s r 0x0702 w) (hn : spoke < 128) (hy : s.dev.onlySpoke spoke y)
    (hrest : y.resting = true) (hport : y.port = 2) (hbar : s.dev.laneBar spoke 25781250 = none)
    (hretired : (s.dev.lane spoke).retired = false) :
    exec (.spkEnable r spoke) s = .next { s with
      dev := answered s.clk w rOk (noted ((s.dev.clearedSpoke spoke).restartSpoke s.clk spoke)) } := by
  have hquiet : y.dis.isEnding = false ∧ y.resize = none := by
    unfold Spoke.resting at hrest
    simp only [Bool.and_eq_true, Bool.not_eq_true', Option.isNone_iff_eq_none] at hrest
    exact ⟨hrest.1.2, hrest.2⟩
  refine onDev_serve_journalled hw (by decide) (.inl rfl) (fits_zero w) ?_ ?_
  · rw [Dev.restartSpoke_host]; simp [Dev.clearedSpoke]
  · simp [Nat.not_le.2 hn, hy.liveSpoke, hquiet, Dev.enableSpoke_port2 hy.spoke hn hrest hport hbar hretired]

theorem exec_spkEnable_unconfigured (hw : Waits s r 0x0702 w) (hn : spoke < 128) (hnone : s.dev.spk.spokes = []) :
    exec (.spkEnable r spoke) s = .next { s with dev := answered s.clk w (rSt stBADSTATE) s.dev } := by
  refine onDev_serve_refused hw (by decide) (fits_zero w) ?_
  simp [Nat.not_le.2 hn, Dev.liveSpoke, Dev.absorbed, Dev.absorber, Dev.spoke, hnone, tfind]

/-- A graceful disable of an ACTIVE spoke begins, and its traffic goes on (R412). -/
theorem Dev.disableSpoke_active {d : Dev} (hy : d.spoke spoke = some y) (hst : y.st = .active) (c : Clock) (tag : Nat) :
    d.disableSpoke c spoke false tag = d.updSpoke spoke fun y => { y with dis := .ending false c.atc tag } := by
  unfold Dev.disableSpoke
  exact Dev.updSpoke_congr hy (by simp [hst])

theorem exec_spkDisable_active (hw : Waits s r 0x0703 w) (hfit : Fits w 8) (hn : spoke < 128) (hy : s.dev.onlySpoke spoke y)
    (hst : y.st = .active) (hdis : y.dis = .on) :
    exec (.spkDisable r spoke 0) s = .next { s with
      dev := answered s.clk w (rAcc [(8, s.clk.atc)]) (noted (s.dev.updSpoke spoke fun y =>
        { y with dis := .ending false s.clk.atc w.tag })) } := by
  refine onDev_serveThen_rest (onDev_serve_journalled hw (by decide) (.inr rfl) hfit (Dev.updSpoke_host ..) ?handler) ?post
  case handler => simp [Nat.not_le.2 hn, hy.absorbed, hy.spoke, hdis, Dis.isEnding, Dev.disableSpoke_active hy.spoke hst]
  case post =>
    intro x
    rw [Dev.spoke_congr (answered_spk ..), Dev.spoke_congr (noted_spk _), Dev.spoke_updSpoke, hy.spoke]
    simp [hst]

theorem exec_spkResize_port1 (hw : Waits s r 0x0707 w) (hfit : Fits w 8) (hn : spoke < 128) (hy : s.dev.onlySpoke spoke y)
    (hst : y.st = .active) (hdis : y.dis = .on) (hprofile : y.profile = 1) :
    exec (.spkResize r spoke 1) s = .next { s with
      dev := answered s.clk w (rAcc [(8, s.clk.atc)]) (noted ((s.dev.updSpoke spoke fun y =>
        { y with dis := .ending false s.clk.atc w.tag }).updSpoke spoke fun y => { y with resize := some 1 })) } := by
  have hlisted : s.dev.spk.spokes = [(spoke, y)] := hy
  have hfits : ∀ z : Spoke, z.port = 1 → s.dev.halfFits spoke z = true := fun z hz => hy.halfFits (Spoke.mbps_le (.inl hz))
  have hlanes : ∀ z : Spoke, z.port = 1 → z.lanes spoke = [spoke] := fun z hz => by
    simp [Spoke.lanes, Spoke.type, hz, portType, firstLane, show spoke < 256 by omega]
  refine onDev_serve_journalled hw (by decide) (.inr rfl) hfit (by rw [Dev.updSpoke_host, Dev.updSpoke_host]) ?_
  simp [Nat.not_le.2 hn, hy.absorbed, hy.spoke, portType, hlanes, Nat.mod_one, hprofile, hfits, hdis, Dis.isEnding, hlisted,
    Dev.disableSpoke_active hy.spoke hst]

/-! ### Status, latency and maps -/

theorem exec_spkStatus_none (hw : Waits s r 0x0704 w) (hfit : Fits w 64) (hn : spoke < 128)
    (hnone : s.dev.liveSpoke spoke = none) :
    exec (.spkStatus r spoke) s = .next { s with dev := answered s.clk w (rOk [(64, 0)]) s.dev } := by
  refine onDev_serve_noFx hw (by decide) hfit ?_
  simp [Nat.not_le.2 hn, hnone]

theorem exec_spkStatus_agreed {a : Agreement} (hw : Waits s r 0x0704 w) (hfit : Fits w 64) (hn : spoke < 128)
    (hy : s.dev.liveSpoke spoke = some y) (ha : y.agreed = some a) :
    exec (.spkStatus r spoke) s = .next { s with
      dev := answered s.clk w (rOk [(1, y.st.code), (1, y.reason), (1, y.fails), (1, a.fast.toNat), (1, a.fec), (1, a.cmp),
        (1, a.mLo + 16 * a.mHi), (1, a.domains), (4, fieldAt y.peerCap 8 4), (4, fieldAt y.peerCap 12 4),
        (8, fieldAt y.peerCap 20 8), (8, y.corr), (8, y.uncorr), (8, y.mismatch), (8, y.winDrop), (8, y.winBad)]) s.dev } := by
  refine onDev_serve_noFx hw (by decide) hfit ?_
  simp [Nat.not_le.2 hn, hy, ha, Agreement.fields]

theorem Spoke.latency_port2 (hport : y.port = 2) (hfast : y.fast = false) (hfec : y.agreed.map (·.fec) = some 0) :
    y.latency = (roundEven (30 * 196608 * 65536) 100000, roundEven (42 * 196608 * 65536) 100000) := by
  simp [Spoke.latency, hfec, Spoke.latNs, Spoke.type, hport, portType, Spoke.latTc, hfast]

theorem exec_spkGetLatency_port2 (hw : Waits s r 0x0705 w) (hfit : Fits w 16) (hn : spoke < 128)
    (hy : s.dev.liveSpoke spoke = some y) (hst : y.st = .active) (hport : y.port = 2) (hfast : y.fast = false)
    (hfec : y.agreed.map (·.fec) = some 0) :
    exec (.spkGetLatency r spoke) s = .next { s with
      dev := answered s.clk w (rOk [(8, roundEven (30 * 196608 * 65536) 100000), (8, roundEven (42 * 196608 * 65536) 100000)])
        s.dev } := by
  refine onDev_serve_noFx hw (by decide) hfit ?_
  simp only [Nat.not_le.2 hn, if_false, hy, hst, Spoke.latency_port2 hport hfast hfec, bne_self_eq_false, Bool.false_eq_true]

/-- The block in which entry `first` of a spoke's map is written (R408). -/
def Dev.mapEntryWritten (c : Clock) (d : Dev) (n first : Nat) (e : MapEntry) : Dev :=
  (d.updSpk fun x => { x with maps := tmod mapEmpty x.maps n (Inst.write c.atc ((d.shadow 4 n).landing c.atc) fun l =>
    tput l first e) }).updShadow 4 n fun y => y.touched c.atc false

theorem Dev.mapOf_congr {d e : Dev} (h : e.spk = d.spk) (n : Nat) : e.mapOf n = d.mapOf n := by unfold Dev.mapOf; rw [h]

theorem Dev.mapOf_mapEntryWritten (c : Clock) (d : Dev) (n first : Nat) (e : MapEntry) :
    (d.mapEntryWritten c n first e).mapOf n =
      (d.mapOf n).write c.atc ((d.shadow 4 n).landing c.atc) fun l => tput l first e :=
  (tget_tmod ..).trans (if_pos rfl)

theorem exec_spkMapWrite_receive {first e : Nat} (hw : Waits s r 0x0706 w) (hn : spoke < 128) (hfirst : first < 256)
    (hzero : bits e 14 2 = 0) (hy : s.dev.liveSpoke spoke = some y)
    (hfault : s.dev.mapFault spoke [MapEntry.of e]
      (if y.profile = 1 && y.agreed.isNone then y.domains else (y.agreed.getD y.standard).domains) = none)
    (hrx : (MapEntry.of e).rx = true)
    (hload : (s.dev.mapLoad spoke (tput (s.dev.mapOf spoke).latest first (MapEntry.of e)) * 100) ≤
      y.rate.1 * 1000000 / max y.rate.2 1 * 95) :
    exec (.spkMapWrite r spoke first 1 [e]) s = .next { s with
      dev := answered s.clk w rOk (noted (s.dev.mapEntryWritten s.clk spoke first (MapEntry.of e))) } := by
  refine onDev_serve_journalled hw (by decide) (.inl rfl) (fits_zero w) rfl ?_
  simp only [hn, if_true, Dev.serialMap, hy, Dev.mapWrite, List.map_cons, List.map_nil, hfault]
  simp [show ¬ 256 < first + 1 by omega, hzero, hrx, hload, Dev.mapEntryWritten]

end

section
variable {s : State} {r : Req} {w : Waiting} {lane : Nat}

/-! ### The lane table (R399) -/

theorem Dev.resetTrims_of_none {d : Dev} (h : d.truing.units = []) (kind i : Nat) : d.resetTrims kind i = d := by
  have hunits : tmod {} d.truing.units (256 * kind + i) (fun u => { u with trims := [], last := 0xFF }) = d.truing.units := by
    rw [h]; rfl
  unfold Dev.resetTrims Dev.updUnit Dev.updTruing
  dsimp only
  rw [hunits]

theorem Dev.updPkg_blobFlash_of_none {d : Dev} (h : d.pkg.blobFlash = none) (f : List Byte → List Byte) :
    (d.updPkg fun p => { p with blobFlash := p.blobFlash.map f }) = d := by
  unfold Dev.updPkg
  dsimp only
  rw [h, Option.map_none, ← h]

theorem exec_laneTableApply_one {first : Nat} {entries : List Byte} (hw : Waits s r 0x0710 w) (hfirst : first < 128)
    (hlen : entries.length = 48) (hfault : laneEntryFault first entries = none) (hspokes : s.dev.spk.spokes = [])
    (hblob : s.dev.pkg.blobFlash = none) (hunits : s.dev.truing.units = []) :
    exec (.laneTableApply r first 1 entries) s = .next { s with
      dev := answered s.clk w rOk (noted (s.dev.updSpk fun x =>
        { x with table := x.table.take (48 * first) ++ entries ++ x.table.drop (48 * (first + 1)) })) } := by
  have hcut : entries.take 48 = entries := List.take_of_length_le (by omega)
  refine onDev_serve_journalled hw (by decide) (.inl rfl) (fits_zero w) rfl ?_
  simp only [Nat.not_le.2 hfirst, if_false, show ¬ 128 < first + 1 by omega, cutEntries, hcut, hspokes, List.filter_nil,
    List.foldl_nil, List.foldl_cons, hlen]
  rw [Dev.updPkg_blobFlash_of_none (by exact hblob), Dev.resetTrims_of_none (by exact hunits)]
  simp [hfault]

theorem exec_laneTableGet_next (hw : Waits s r 0x0711 w) (hfit : Fits w 48) (hlane : lane < 128) :
    exec (.laneTableGet r lane) s = .next { s with
      dev := answered s.clk w { status := stOK, payload := (s.dev.laneEntry lane ++ List.replicate 48 0).take 48 } s.dev } := by
  refine onDev_serve_noFx hw (by decide) ?_ ?_
  · simpa using hfit
  · simp [Nat.not_le.2 hlane]

/-! ### Loops, patterns, injection and self-tests (R415-R419) -/

theorem exec_laneLoop_free {loop echo : Nat} (hw : Waits s r 0x0712 w) (hlane : lane < 128) (hloop : loop ≤ 3) (hecho : echo ≤ 1)
    (hfree : s.dev.laneFree lane = true) :
    exec (.laneLoop r lane loop echo) s = .next { s with
      dev := answered s.clk w rOk (noted (s.dev.updLane lane fun x => { x with loop := loop, echo := echo = 1 })) } := by
  refine onDev_serve_journalled hw (by decide) (.inl rfl) (fits_zero w) rfl ?_
  simp [Nat.not_le.2 hlane, Nat.not_lt.2 hloop, Nat.not_lt.2 hecho, hfree]

theorem exec_laneLoop_busy {loop echo : Nat} (hw : Waits s r 0x0712 w) (hlane : lane < 128) (hloop : loop ≤ 3) (hecho : echo ≤ 1)
    (hfree : s.dev.laneFree lane = false) :
    exec (.laneLoop r lane loop echo) s = .next { s with dev := answered s.clk w (rSt stBADSTATE) s.dev } := by
  refine onDev_serve_refused hw (by decide) (fits_zero w) ?_
  simp [Nat.not_le.2 hlane, Nat.not_lt.2 hloop, Nat.not_lt.2 hecho, hfree]

theorem patFault_of_le {pat : Nat} (h : pat ≤ 6) (pam4 : Bool) : patFault pat pam4 = false := by
  simp [patFault, show pat ≤ 8 by omega, show pat ≠ 7 by omega]

theorem exec_lanePatgen_free {pat inv user : Nat} (hw : Waits s r 0x0713 w) (hlane : lane < 128) (hpat : pat ≤ 6)
    (hinv : inv ≤ 1) (hraw : (s.dev.lane lane).raw = 0) (hfree : s.dev.laneFree lane = true) :
    exec (.lanePatgen r lane pat inv user 0) s = .next { s with
      dev := answered s.clk w rOk (noted (s.dev.updLane lane fun x =>
        { x with gen := { pat := pat, inv := inv = 1, user := user } })) } := by
  refine onDev_serve_journalled hw (by decide) (.inl rfl) (fits_zero w) rfl ?_
  simp only [Nat.not_le.2 hlane, patFault_of_le hpat, Nat.not_lt.2 hinv, hfree, hraw]
  simp only [if_false, Bool.false_eq_true, bne_self_eq_false, Bool.false_and, Bool.not_true, Bool.false_or]
  refine congrArg (Prod.mk rOk) (Dev.updLane_congr ?_)
  rw [← hraw]

/-- A checker that is not locked counts nothing (R418). -/
theorem Dev.countChecker_unlocked {d : Dev} (h : (d.lane lane).locked = false) (c : Clock) : d.countChecker c lane = d := by
  simp [Dev.countChecker, h]

theorem exec_lanePatchk_free {pat inv user enable : Nat} (hw : Waits s r 0x0714 w) (hlane : lane < 128) (hpat : pat ≤ 6)
    (hinv : inv ≤ 1) (henable : enable ≤ 1) (hlocked : (s.dev.lane lane).locked = false) (hfree : s.dev.laneFree lane = true) :
    exec (.lanePatchk r lane pat inv user enable) s = .next { s with
      dev := answered s.clk w rOk (noted (s.dev.updLane lane fun x =>
        { x with chk := { pat := pat, inv := inv = 1, user := user }, chkOn := enable = 1, locked := false })) } := by
  refine onDev_serve_journalled hw (by decide) (.inl rfl) (fits_zero w) rfl ?_
  simp [Nat.not_le.2 hlane, patFault_of_le hpat, Nat.not_lt.2 hinv, Nat.not_lt.2 henable, hfree,
    Dev.countChecker_unlocked hlocked]

theorem exec_laneInject_free {len every : Nat} (hw : Waits s r 0x0715 w) (hlane : lane < 128) (hlen : 1 ≤ len ∧ len ≤ 64)
    (hevery : every = 0 ∨ 1024 ≤ every ∧ every ≤ 2 ^ 40) (hfree : s.dev.laneFree lane = true) :
    exec (.laneInject r lane 0 len every) s = .next { s with
      dev := answered s.clk w rOk (noted (s.dev.updLane lane fun x =>
        { x with injPoint := 0, injLen := len, injEvery := every, injected := x.injected + 1 })) } := by
  have hinterval : (every != 0 && (decide (every < 1024) || decide (2 ^ 40 < every))) = false := by
    obtain rfl | ⟨hlo, hhi⟩ := hevery
    · rfl
    · simp [Nat.not_lt.2 hlo]
      omega
  have hlength : (decide (len = 0) || decide (64 < len)) = false := by simp; omega
  refine onDev_serve_journalled hw (by decide) (.inl rfl) (fits_zero w) rfl ?_
  simp only [hinterval, hlength]
  simp [Nat.not_le.2 hlane, hfree]

theorem exec_injectInterval_running {overlap : Bool} (hlen : (s.dev.lane lane).injLen ≠ 0)
    (hevery : (s.dev.lane lane).injEvery ≠ 0) :
    exec (.injectInterval lane overlap) s = .next { s with dev := s.dev.updLane lane fun x =>
      if overlap then { x with skipped := min (x.skipped + 1) (2 ^ 32 - 1) } else { x with injected := x.injected + 1 } } := by
  show execInjectInterval lane overlap s = _
  unfold execInjectInterval
  rw [onDev_eq, Dev.updLane_congr (g := fun x => if overlap then { x with skipped := min (x.skipped + 1) (2 ^ 32 - 1) }
    else { x with injected := x.injected + 1 })]
  simp [hlen, hevery, satAdd]

theorem exec_laneSelftest_free (hw : Waits s r 0x0719 w) (hlane : lane < 128) (hfree : s.dev.laneFree lane = true) :
    exec (.laneSelftest r lane) s = .next { s with
      dev := answered s.clk w rAcc (noted (s.dev.updLane lane fun x =>
        { x with testAt := s.clk.atc + 1, asked := some w.tag })) } := by
  refine onDev_serve_journalled hw (by decide) (.inr rfl) (fits_zero w) rfl ?_
  simp [Nat.not_le.2 hlane, hfree, Dev.testLanes]

/-! ### The checker (R418) -/

theorem exec_checkerLock_on (hon : (s.dev.lane lane).chkOn = true) (hlocked : (s.dev.lane lane).locked = false) :
    exec (.checkerLock lane) s = .next { s with dev := s.dev.updLane lane fun x =>
      { x with locked := true, lockAt := s.clk.atc } } := by
  show execCheckerLock lane s = _
  unfold execCheckerLock
  rw [onDev_eq, Dev.updLane_congr (g := fun x => { x with locked := true, lockAt := s.clk.atc })]
  simp [hon, hlocked]

theorem exec_checkerLockLoss_locked (hlocked : (s.dev.lane lane).locked = true) :
    exec (.checkerLockLoss lane) s = .next { s with
      dev := (s.dev.countChecker s.clk lane).updLane lane fun x => { x with locked := false, nLoss := satAdd 48 x.nLoss 1 } } := by
  show execCheckerLockLoss lane s = _
  unfold execCheckerLockLoss
  simp [onDev_eq, hlocked]

/-- A locked checker counts the bits since it was last counted, and no lock loss (R418). -/
theorem Dev.lane_countChecker {d : Dev} (h : (d.lane lane).locked = true) (c : Clock) :
    ((d.countChecker c lane).lane lane).lockAt = c.atc ∧
      ((d.countChecker c lane).lane lane).nLoss = (d.lane lane).nLoss ∧
      ((d.countChecker c lane).lane lane).nBits =
        satAdd 48 (d.lane lane).nBits ((c.atc - (d.lane lane).lockAt) * (d.laneSpeed lane).1 / 1966080) := by
  have hdrawn : (draw (draw d).2).2.lane lane = d.lane lane := rfl
  unfold Dev.countChecker
  simp [h, hdrawn]

theorem exec_laneChkRead_clear {x : Lane} (hw : Waits s r 0x0716 w) (hfit : Fits w 37) (hlane : lane < 128)
    (hx : s.dev.lane lane = x) (hlocked : x.locked = false) :
    exec (.laneChkRead r lane 1) s = .next { s with
      dev := answered s.clk w (rOk [(1, 0), (8, x.nBits), (8, x.nErr), (8, x.nSym), (8, x.nLoss), (4, x.skipped)])
        (s.dev.updLane lane fun y => { y with nBits := 0, nErr := 0, nSym := 0, nLoss := 0 }) } := by
  refine onDev_serve_unjournalled hw (by decide) hfit rfl ?_
  simp [Nat.not_le.2 hlane, Dev.countChecker_unlocked (hx ▸ hlocked), hx, hlocked]

/-! ### Eye scans (R420-R422) -/

theorem cdiv_25781250 (a : Nat) : cdiv a 25781250 = (a + 25781249) / 25781250 := by
  have hsum : a + 25781250 - 1 = a + 25781249 := by omega
  unfold cdiv
  rw [hsum]

theorem exec_laneEyescan_25G {kind n : Nat} (hw : Waits s r 0x0717 w) (hlane : lane < 128) (hkind : kind ≤ 1)
    (hn : 6 ≤ n ∧ n ≤ 12) (hspeed : s.dev.laneSpeed lane = (25781250, false)) (hscan : (s.dev.lane lane).scan = none) :
    exec (.laneEyescan r lane kind n) s = .next { s with
      dev := answered s.clk w rAcc (noted (s.dev.updLane lane fun y => { y with
        scan := some { kind := kind, n := n, tag := w.tag, ends := s.clk.atc +
          ((if kind = 1 then 8192 else 192) * 3 * 10 ^ n * 1966080 + 25781249) / 25781250 } })) } := by
  refine onDev_serve_journalled hw (by decide) (.inr rfl) (fits_zero w) rfl ?_
  simp [Nat.not_le.2 hlane, Nat.not_lt.2 hkind, Nat.not_lt.2 hn.1, Nat.not_lt.2 hn.2, hspeed, hscan, cdiv_25781250]

theorem exec_eyeDone_aborted {x : Scan} (hx : (s.dev.lane lane).scan = some x) (haborted : x.aborted = true) :
    exec (.eyeDone lane) s = .next { s with
      dev := (s.dev.updLane lane fun y => { y with scan := none }).evt0 s.clk 0x0783 x.tag [(0, 1, lane), (1, 1, 1)] } := by
  show execEyeDone lane s = _
  unfold execEyeDone
  simp [onDev_eq, hx, haborted]

/-- What a scan saw: the sampler's map and the thresholds are free values (R421). -/
def Dev.seenEye (c : Clock) (d : Dev) (lane : Nat) (x : Scan) : Eye :=
  { kind := x.kind, atc := c.atc
    eyes := (List.range (if (d.laneSpeed lane).2 then 3 else 1)).map fun i =>
      eyeOf (draw d).1 ((draw (draw d).2).1 / 128 ^ i % 128)
    map := if x.kind = 1 then le 1024 (draw d).1 else [] }

theorem exec_eyeDone_ended {x : Scan} (hx : (s.dev.lane lane).scan = some x) (haborted : x.aborted = false)
    (hends : x.ends ≤ s.clk.atc) :
    exec (.eyeDone lane) s = .next { s with
      dev := ((draw (draw s.dev).2).2.updLane lane fun y =>
        { y with scan := none, eye := some (s.dev.seenEye s.clk lane x) }).evt0 s.clk 0x0783 x.tag [(0, 1, lane), (1, 1, 0)] } := by
  show execEyeDone lane s = _
  unfold execEyeDone
  simp only [onDev_eq, hx, haborted, Nat.not_lt.2 hends]
  rfl

theorem HostOnly.free {d e : Dev} (h : HostOnly d e) : e.free = d.free := by rw [h.dev]

theorem exec_laneEyeRead_one {e : Eye} (hw : Waits s r 0x0718 w) (hfit : Fits w 26) (hlane : lane < 128)
    (he : (s.dev.lane lane).eye = some e) (heyes : e.eyes = [(3, 4, 5, 6)]) (hinline : bit w.flags 0 = false) :
    exec (.laneEyeRead r lane) s = .next { s with
      dev := answered s.clk w (rOk [(2, 3), (2, 4), (1, 5), (1, 6), (6, 0), (6, 0), (8, e.atc)]) s.dev } := by
  have href : s.dev.isRef r = false := by
    obtain ⟨hwait, hpage, hslot, -⟩ := hw
    simp [Dev.isRef, hwait, hpage, hslot, hinline]
  refine onDev_serve_noFx hw (by decide) hfit ?_
  simp only [Nat.not_le.2 hlane, he, heyes, href]
  rfl

end

/-- Settles O28: each command has its lemma above. -/
theorem spokeCommands : Obligations.SpokeCommands := by
  unfold Obligations.SpokeCommands
  refine ⟨?config, ?noType, ?enable, ?unconfigured, ?disable, ?absent, ?status, ?latency, ?map, ?resize, ?apply, ?get, ?loop,
    ?notFree, ?generate, ?check, ?inject, ?interval, ?lock, ?loss, ?read, ?scan, ?aborted, ?ended, ?eye, ?test⟩
  case config =>
    intro s r w spoke port profile fec rate cmp mRange domains timed ueLimit y hw hn
      ⟨hport, hprofile, hfec, hrate, hcmp, hmRange, hdomains, htimed⟩ _ hy hrest _
    subst hport hmRange
    exact exec_spkConfig_resting hw hn hprofile hfec hrate hcmp hdomains htimed hy hrest
  case noType =>
    intro s r w spoke port profile fec rate cmp mRange domains timed ueLimit hw hn hport
    exact ⟨_, exec_spkConfig_noType hw hn hport, rfl⟩
  case enable =>
    intro s r w spoke y hw hn hy hrest hport hbar hretired hscan hfast
    have honly : s.dev.onlySpoke spoke y := hy
    refine ⟨_, exec_spkEnable_resting hw hn honly hrest hport hbar hretired, answered_host_congr s.clk w _ ?_, ?_⟩
    · rw [noted_host, Dev.restartSpoke_host]
      simp [Dev.clearedSpoke]
    · rw [Dev.spoke_congr (answered_spk ..), Dev.spoke_congr (noted_spk _), Dev.spoke_enabled honly.spoke hn]
      simp [Spoke.restarted, hfast]
  case unconfigured =>
    intro s r w spoke hw hn hnone
    exact exec_spkEnable_unconfigured hw hn hnone
  case disable =>
    intro s r w spoke mode y hw hfit hn hmode hy hst hdis hport
    subst hmode
    exact exec_spkDisable_active hw hfit hn hy hst hdis
  case absent =>
    intro s r w spoke hw hfit hn hnone
    exact exec_spkStatus_none hw hfit hn hnone
  case status =>
    intro s r w spoke y a hw hfit hn hy ha
    exact exec_spkStatus_agreed hw hfit hn hy ha
  case latency =>
    intro s r w spoke y hw hfit hn hy hst ⟨hport, hfast⟩ hfec
    exact exec_spkGetLatency_port2 hw hfit hn hy hst hport hfast hfec
  case map =>
    intro s r w spoke first count e entries y hw hn ⟨hfirst, hcount, hentries⟩ hzero hy hfault ⟨_, hrx⟩ hload
    subst hcount hentries
    refine ⟨_, exec_spkMapWrite_receive hw hn hfirst hzero hy hfault hrx hload, answered_host_congr s.clk w _ rfl, ?_, ?_⟩ <;>
      rw [Dev.mapOf_congr (answered_spk ..), Dev.mapOf_congr (noted_spk _), Dev.mapOf_mapEntryWritten]
    · exact Inst.latest_write ..
    · rfl
  case resize =>
    intro s r w spoke port y hw hfit hn hport hy ⟨hst, hdis, _, hprofile⟩ _
    subst hport
    have honly : s.dev.onlySpoke spoke y := hy
    refine ⟨_, exec_spkResize_port1 hw hfit hn honly hst hdis hprofile, answered_host_congr s.clk w _ ?_, ?_⟩
    · rw [noted_host, Dev.updSpoke_host, Dev.updSpoke_host]
    · rw [Dev.spoke_congr (answered_spk ..), Dev.spoke_congr (noted_spk _), Dev.spoke_updSpoke, Dev.spoke_updSpoke, honly.spoke]
      rfl
  case apply =>
    intro s r w first count entries hw ⟨_, hfirst⟩ hlen hcount hfault hspokes hblob hunits
    subst hcount
    exact exec_laneTableApply_one hw hfirst hlen hfault hspokes hblob hunits
  case get =>
    intro s r w lane hw hfit hlane
    exact ⟨_, exec_laneTableGet_next hw hfit hlane, rfl⟩
  case loop =>
    intro s r w lane loop echo hw ⟨hlane, hloop, hecho⟩ hfree
    exact exec_laneLoop_free hw hlane hloop hecho hfree
  case notFree =>
    intro s r w lane loop echo hw ⟨hlane, hloop, hecho⟩ hfree
    exact ⟨_, exec_laneLoop_busy hw hlane hloop hecho hfree, rfl⟩
  case generate =>
    intro s r w lane pat inv user raw hw ⟨hlane, hpat, hinv⟩ hzero hraw hfree
    subst hzero
    exact exec_lanePatgen_free hw hlane hpat hinv hraw hfree
  case check =>
    intro s r w lane pat inv user enable hw ⟨hlane, hpat, hinv, henable⟩ hlocked hfree
    exact exec_lanePatchk_free hw hlane hpat hinv henable hlocked hfree
  case inject =>
    intro s r w lane point len every hw ⟨hlane, hpoint, hlen⟩ hevery hfree
    subst hpoint
    exact exec_laneInject_free hw hlane hlen hevery hfree
  case interval =>
    intro s lane overlap hlen hevery
    exact exec_injectInterval_running hlen hevery
  case lock =>
    intro s lane hon hlocked
    exact exec_checkerLock_on hon hlocked
  case loss =>
    intro s lane hlocked
    obtain ⟨hat, hloss, hbits⟩ := Dev.lane_countChecker hlocked s.clk
    refine ⟨_, exec_checkerLockLoss_locked hlocked, ?_, ?_, ?_, ?_⟩ <;> rw [Dev.lane_updLane]
    · exact congrArg (satAdd 48 · 1) hloss
    · exact hat
    · exact hbits
  case read =>
    intro s r w lane clear x hw hfit hlane hclear hx hlocked
    subst hclear
    exact exec_laneChkRead_clear hw hfit hlane hx hlocked
  case scan =>
    intro s r w lane kind n hw ⟨hlane, hkind, hn⟩ hspeed hscan
    exact exec_laneEyescan_25G hw hlane hkind hn hspeed hscan
  case aborted =>
    intro s lane x hx haborted
    exact exec_eyeDone_aborted hx haborted
  case ended =>
    intro s lane x hx haborted hends hkind
    refine ⟨_, exec_eyeDone_ended hx haborted hends, ?_, ?_, (HostOnly.evt ..).free⟩ <;>
      rw [Dev.lane_congr (Dev.evt0_spk ..), Dev.lane_updLane]
    simp [Dev.seenEye, hkind]
  case eye =>
    intro s r w lane e hw hfit hlane he heyes hinline
    exact exec_laneEyeRead_one hw hfit hlane he heyes hinline
  case test =>
    intro s r w lane hw hlane hfree
    exact exec_laneSelftest_free hw hlane hfree

end Sys2Proof.Machine
end

section
/-! Statement O29: the events of the MAC ports (R426, R435, R436, R441, R444, R445, R447-R451). -/
namespace Sys2Proof.Machine

/-! ### Counters and pause accounting (R447, R452) -/

@[simp] theorem Port.stat_count (p : Port) (i n j : Nat) :
    tget 0 (p.count i n).stats j = if j = i then satAdd 64 (tget 0 p.stats i) n else tget 0 p.stats j :=
  tget_tmod 0 p.stats i j fun v => satAdd 64 v n

@[simp] theorem Port.count_pause (p : Port) (i n : Nat) : (p.count i n).pause = p.pause := rfl
@[simp] theorem Port.count_queue (p : Port) (i n : Nat) : (p.count i n).queue = p.queue := rfl
@[simp] theorem Port.count_rxPause (p : Port) (i n : Nat) : (p.count i n).rxPause = p.rxPause := rfl

theorem Port.tally_keeps {α : Type} (g : Port → α) (hs : ∀ (p : Port) v, g { p with stats := v } = g p)
    (hh : ∀ (p : Port) v, g { p with heldAt := v } = g p) (p : Port) (now : Nat) : g (p.tally now) = g p := by
  unfold Port.tally
  dsimp only
  rw [hh]
  split
  · rfl
  · exact hs p _

@[simp] theorem Port.tally_queue (p : Port) (now : Nat) : (p.tally now).queue = p.queue :=
  Port.tally_keeps Port.queue (fun _ _ => rfl) (fun _ _ => rfl) p now
@[simp] theorem Port.tally_pause (p : Port) (now : Nat) : (p.tally now).pause = p.pause :=
  Port.tally_keeps Port.pause (fun _ _ => rfl) (fun _ _ => rfl) p now
@[simp] theorem Port.tally_rxPause (p : Port) (now : Nat) : (p.tally now).rxPause = p.rxPause :=
  Port.tally_keeps Port.rxPause (fun _ _ => rfl) (fun _ _ => rfl) p now
@[simp] theorem Port.tally_sent (p : Port) (now : Nat) : (p.tally now).sent = p.sent :=
  Port.tally_keeps Port.sent (fun _ _ => rfl) (fun _ _ => rfl) p now
@[simp] theorem Port.tally_sentBad (p : Port) (now : Nat) : (p.tally now).sentBad = p.sentBad :=
  Port.tally_keeps Port.sentBad (fun _ _ => rfl) (fun _ _ => rfl) p now
@[simp] theorem Port.tally_busy (p : Port) (now : Nat) : (p.tally now).busy = p.busy :=
  Port.tally_keeps Port.busy (fun _ _ => rfl) (fun _ _ => rfl) p now
@[simp] theorem Port.tally_pfcAt (p : Port) (now : Nat) : (p.tally now).pfcAt = p.pfcAt :=
  Port.tally_keeps Port.pfcAt (fun _ _ => rfl) (fun _ _ => rfl) p now
@[simp] theorem Port.tally_meas (p : Port) (now : Nat) : (p.tally now).meas = p.meas :=
  Port.tally_keeps Port.meas (fun _ _ => rfl) (fun _ _ => rfl) p now

/-- Pause accounting counts pause time alone. -/
theorem Port.stat_tally (p : Port) (now : Nat) {i : Nat} (hi : i ≠ 18) : tget 0 (p.tally now).stats i = tget 0 p.stats i := by
  unfold Port.tally
  dsimp only
  split
  · rfl
  · simp [hi]

/-- With nothing held and nothing that pause would hold, there is nothing to account for. -/
theorem Port.tally_unheld {p : Port} {now : Nat} (hheld : p.heldAt = 0) (hfree : p.queue.any (fun f => p.paused now f) = false) :
    p.tally now = p := by
  have h : ∀ q : Port, q = p → ({ q with heldAt := if q.queue.any fun f => q.paused now f then now + 1 else 0 } : Port) = p := by
    intro q hq
    rw [hq, hfree, if_neg Bool.false_ne_true, ← hheld]
  exact h _ (if_pos hheld)

theorem Port.tally_empty {p : Port} (hheld : p.heldAt = 0) (hempty : p.queue = []) (now : Nat) : p.tally now = p :=
  Port.tally_unheld hheld (by rw [hempty]; rfl)

/-- An update of a port depends on what it makes of the present port alone. -/
theorem Dev.updPort_congr {d : Dev} {n : Nat} {f g : Port → Port} (h : f (d.port n) = g (d.port n)) :
    d.updPort n f = d.updPort n g := by
  unfold Dev.port at h
  simp only [Dev.updPort, Dev.updMac, tmod, h]

/-! ### What gaps and frames offered leave alone -/

theorem Dev.breakGaps_keeps {α : Type} (p : Dev → α) (hp : ∀ (d : Dev) f, p (d.updTruing f) = p d) (d : Dev) (n : Nat) :
    p (d.breakGaps n) = p d := by
  unfold Dev.breakGaps
  split
  · split
    · exact foldl_keeps p (f := fun d l => d.breakGap 0 l) (fun d _ => hp d fun _ => _) _ _
    · rfl
  · rfl

@[simp] theorem Dev.breakGaps_mac (d : Dev) (n : Nat) : (d.breakGaps n).mac = d.mac :=
  Dev.breakGaps_keeps Dev.mac (fun _ _ => rfl) d n
@[simp] theorem Dev.breakGaps_host (d : Dev) (n : Nat) : (d.breakGaps n).host = d.host :=
  Dev.breakGaps_keeps Dev.host (fun _ _ => rfl) d n

@[simp] theorem Dev.port_breakGaps (d : Dev) (n p : Nat) : (d.breakGaps n).port p = d.port p :=
  Dev.port_congr (Dev.breakGaps_mac ..) p

@[simp] theorem Dev.updPort_host (d : Dev) (p : Nat) (f : Port → Port) : (d.updPort p f).host = d.host := rfl

/-- The port takes frames: its spoke is configured with no disable, and its domain is awake (R412, R452). -/
structure TakesFrames (d : Dev) (port : Nat) : Prop where
  spoke : ∃ y, d.spoke port = some y ∧ y.dis = .on
  awake : d.awake (spkBlock port) = true

theorem TakesFrames.offer {d : Dev} {port : Nat} (h : TakesFrames d port) (c : Clock) (f : TxFrame) :
    d.offer c port f = (d.updPort port fun p =>
      ({ p with queue := p.queue ++ [{ f with ready := c.atc }] }).tally c.atc).breakGaps port := by
  obtain ⟨⟨y, hy, hdis⟩, hawake⟩ := h
  simp [Dev.offer, hy, hdis, hawake, Dis.isEnding]

theorem TakesFrames.updPort {d : Dev} {port : Nat} (h : TakesFrames d port) (f : Port → Port) :
    TakesFrames (d.updPort port f) port := ⟨h.spoke, h.awake⟩

theorem TakesFrames.port_offer {d : Dev} {port : Nat} (h : TakesFrames d port) (c : Clock) (f : TxFrame) :
    (d.offer c port f).port port =
      ({ d.port port with queue := (d.port port).queue ++ [{ f with ready := c.atc }] } : Port).tally c.atc := by
  rw [h.offer, Dev.port_breakGaps, Dev.port_updPort]

theorem TakesFrames.offer_host {d : Dev} {port : Nat} (h : TakesFrames d port) (c : Clock) (f : TxFrame) :
    (d.offer c port f).host = d.host := by
  rw [h.offer, Dev.breakGaps_host, Dev.updPort_host]

theorem Dev.spoke_of_liveSpoke {d : Dev} {n : Nat} {y : Spoke} (h : d.liveSpoke n = some y) : d.spoke n = some y := by
  unfold Dev.liveSpoke at h
  split at h
  · cases h
  · exact h

/-! ### Frames received (R436, R441, R447) -/

/-- A spoke that receives: ACTIVE, no disable, its domain awake. -/
structure Receives (s : State) (port : Nat) (y : Spoke) : Prop where
  serial : port < 128
  live : s.dev.liveSpoke port = some y
  active : y.st = .active
  enabled : y.dis.isEnding = false
  awake : s.dev.awake (spkBlock port) = true

/-- A frame's first counts: frames, bytes, bad FCS, short, long, and with a PCS error (R441, R452). -/
def Port.countFrame (p : Port) (n : Nat) (badFcs runt big symErr : Bool) : Port :=
  (((((p.count 0 1).count 1 n).count 4 badFcs.toNat).count 5 runt.toNat).count 6 big.toNat).count 7 symErr.toNat

section
variable (p : Port) (n : Nat) (badFcs runt big symErr : Bool)

theorem Port.countFrame_pause : (p.countFrame n badFcs runt big symErr).pause = p.pause := by
  simp only [Port.countFrame, Port.count_pause]
theorem Port.countFrame_queue : (p.countFrame n badFcs runt big symErr).queue = p.queue := by
  simp only [Port.countFrame, Port.count_queue]
theorem Port.countFrame_rxPause : (p.countFrame n badFcs runt big symErr).rxPause = p.rxPause := by
  simp only [Port.countFrame, Port.count_rxPause]

theorem Port.countFrame_frames :
    tget 0 (p.countFrame n badFcs runt big symErr).stats 0 = satAdd 64 (tget 0 p.stats 0) 1 := by
  simp only [Port.countFrame, Port.stat_count, Nat.reduceEqDiff, OfNat.zero_ne_ofNat, zero_ne_one, if_true, if_false]

theorem Port.countFrame_bytes :
    tget 0 (p.countFrame n badFcs runt big symErr).stats 1 = satAdd 64 (tget 0 p.stats 1) n := by
  simp only [Port.countFrame, Port.stat_count, Nat.reduceEqDiff, OfNat.one_ne_ofNat, one_ne_zero, if_true, if_false]

theorem Port.countFrame_badFcs :
    tget 0 (p.countFrame n true runt big symErr).stats 4 = satAdd 64 (tget 0 p.stats 4) 1 := by
  simp only [Port.countFrame, Port.stat_count, Nat.reduceEqDiff, OfNat.ofNat_ne_zero, OfNat.ofNat_ne_one, if_true, if_false]
  rfl

theorem Port.countFrame_control : tget 0 (p.countFrame n badFcs runt big symErr).stats 17 = tget 0 p.stats 17 := by
  simp only [Port.countFrame, Port.stat_count, Nat.reduceEqDiff, OfNat.ofNat_ne_zero, OfNat.ofNat_ne_one, if_false]

end

/-- The block that has counted a frame's codewords and the frame. -/
def Dev.frameCounted (c : Clock) (d : Dev) (port n fecCorr fecUe : Nat) (badFcs runt big symErr : Bool) : Dev :=
  ((d.updSpoke port fun s => { (s.seeUe c.atc fecUe) with corr := satAdd 64 s.corr fecCorr }).breakGaps port).updPort port
    fun p => p.countFrame n badFcs runt big symErr

theorem Dev.port_frameCounted (c : Clock) (d : Dev) (port n fecCorr fecUe : Nat) (badFcs runt big symErr : Bool) :
    (d.frameCounted c port n fecCorr fecUe badFcs runt big symErr).port port =
      (d.port port).countFrame n badFcs runt big symErr := by
  rw [Dev.frameCounted, Dev.port_updPort, Dev.port_breakGaps, Dev.port_congr (Dev.updSpoke_mac ..)]

theorem Dev.frameCounted_host (c : Clock) (d : Dev) (port n fecCorr fecUe : Nat) (badFcs runt big symErr : Bool) :
    (d.frameCounted c port n fecCorr fecUe badFcs runt big symErr).host = d.host := by
  rw [Dev.frameCounted, Dev.updPort_host, Dev.breakGaps_host, Dev.updSpoke_host]

/-- A frame with a bad FCS is only counted, where the port does not keep bad frames (R441). -/
theorem exec_frameReceive_badFcs {s : State} {port : Nat} {y : Spoke} (h : Receives s port y) {frame : List Byte}
    (hfcs : fcs (frame.take (frame.length - 4)) ≠ frame.drop (frame.length - 4)) (hkeep : (s.dev.port port).keepBad = false)
    (symErr : Bool) (fecCorr fecUe : Nat) :
    exec (.frameReceive port frame symErr fecCorr fecUe) s = .next { s with
      dev := s.dev.frameCounted s.clk port frame.length fecCorr fecUe true (decide (frame.length < 64))
        (decide ((s.dev.port port).maxFrame < frame.length)) symErr } := by
  obtain ⟨hserial, hlive, hactive, henabled, hawake⟩ := h
  have hbad : (fcs (frame.take (frame.length - 4)) != frame.drop (frame.length - 4)) = true := bne_iff_ne.2 hfcs
  have hport : ((s.dev.updSpoke port fun s' =>
      { (s'.seeUe s.clk.atc fecUe) with corr := satAdd 64 s'.corr fecCorr }).breakGaps port).port port = s.dev.port port := by
    rw [Dev.port_breakGaps, Dev.port_congr (Dev.updSpoke_mac ..)]
  show execFrameReceive port frame symErr fecCorr fecUe s = _
  unfold execFrameReceive
  simp only [onDev_eq, show ¬ 256 ≤ port by omega, hlive, hactive, henabled, hawake, hport, hbad, hkeep]
  rfl

/-- A good PAUSE frame stops the port for the time that it names (R447). -/
theorem exec_frameReceive_pause {s : State} {port : Nat} {y : Spoke} (h : Receives s port y) {frame : List Byte}
    (hlen : frame.length = 64) (hfcs : fcs (frame.take 60) = frame.drop 60) (hmax : 64 ≤ (s.dev.port port).maxFrame)
    (haccept : (s.dev.port port).accept (fieldBe frame 0 6) = .yes) (htype : fieldBe frame 12 2 = 0x8808)
    (hvlan : (s.dev.port port).vlanCheck = false) (fecCorr fecUe : Nat) :
    exec (.frameReceive port frame false fecCorr fecUe) s = .next { s with
      dev := (s.dev.frameCounted s.clk port 64 fecCorr fecUe false false false false).updPort port fun p =>
        p.onControl s.clk.atc y frame 14 } := by
  obtain ⟨hserial, hlive, hactive, henabled, hawake⟩ := h
  have hgood : (fcs (frame.take (64 - 4)) != frame.drop (64 - 4)) = false := by simp [hfcs]
  have hport : ((s.dev.updSpoke port fun s' =>
      { (s'.seeUe s.clk.atc fecUe) with corr := satAdd 64 s'.corr fecCorr }).breakGaps port).port port = s.dev.port port := by
    rw [Dev.port_breakGaps, Dev.port_congr (Dev.updSpoke_mac ..)]
  have huntagged : ¬ fieldBe frame 12 2 = 0x8100 := by rw [htype]; decide
  have hbig : decide ((s.dev.port port).maxFrame < 64) = false := decide_eq_false (by omega)
  show execFrameReceive port frame false fecCorr fecUe s = _
  unfold execFrameReceive
  simp only [onDev_eq, show ¬ 256 ≤ port by omega, hlive, hactive, henabled, hawake, hport, hlen, hgood, hbig, haccept,
    huntagged, hvlan]
  simp only [if_false, bne_self_eq_false, Bool.false_and, Bool.or_false, Bool.not_true, Bool.false_eq_true, Nat.lt_irrefl,
    decide_false, reduceCtorEq, if_true, htype]
  rfl

theorem Port.onControl_pause {p : Port} {b : List Byte} {o : Nat} (hop : fieldBe b o 2 = 1) (hrx : p.rxPause = true)
    (hq : fieldBe b (o + 2) 2 ≠ 0) (now : Nat) (y : Spoke) :
    (p.onControl now y b o).pause = p.pause.set 8 (now + y.bitsTc (512 * fieldBe b (o + 2) 2)) ∧
      tget 0 (p.onControl now y b o).stats 17 = satAdd 64 (tget 0 p.stats 17) 1 := by
  have hrx' : (p.count 17 1).rxPause = true := hrx
  unfold Port.onControl
  simp only [hop, Port.tally_rxPause, hrx', if_true, hq, if_false]
  refine ⟨?_, ?_⟩
  · rw [Port.tally_pause, Port.tally_pause]; rfl
  · rw [Port.stat_tally _ _ (by decide)]
    show tget 0 ((p.count 17 1).tally now).stats 17 = _
    rw [Port.stat_tally _ _ (by decide), Port.stat_count, if_pos rfl]

/-! ### Pauses and held frames (R447, R448) -/

section
variable {s : State} {port : Nat}

theorem exec_pauseExpire_over {prio : Nat} (hprio : prio < 9) (hover : (s.dev.port port).pause.getD prio 0 ≤ s.clk.atc)
    (hqueue : (s.dev.port port).queue = []) (hheld : (s.dev.port port).heldAt = 0) :
    exec (.pauseExpire port prio) s = .next { s with dev := s.dev.updPort port fun p =>
      { p with pause := p.pause.set prio 0 } } := by
  show execPauseExpire port prio s = _
  unfold execPauseExpire
  rw [onDev_eq, Dev.updPort_congr (g := fun p => { p with pause := p.pause.set prio 0 })]
  dsimp only
  rw [Port.tally_empty hheld hqueue]
  simp only [Nat.not_le.2 hprio, Nat.not_lt.2 hover, decide_false, Bool.or_false, Bool.false_eq_true, if_false]
  exact Port.tally_empty (p := { s.dev.port port with pause := (s.dev.port port).pause.set prio 0 }) hheld hqueue _

/-- The port that has dropped the stream frames held longer than STREAM_HOLD. -/
def Port.dropHeld (p : Port) (now : Nat) : Port :=
  ({ p with queue := p.queue.filter fun (f : TxFrame) => !(f.cls = 2 && p.hold * 196608 ≤ (now - f.ready) * 100) }.count 19
    (p.queue.filter fun (f : TxFrame) => f.cls = 2 && p.hold * 196608 ≤ (now - f.ready) * 100).length).tally now

theorem exec_streamHoldExpire : exec (.streamHoldExpire port) s = .next { s with
    dev := s.dev.updPort port fun p => p.dropHeld s.clk.atc } := rfl

/-! ### Transmit (R426, R444, R445) -/

theorem fcs_length (bs : List Byte) : (fcs bs).length = 4 := le_length ..

/-- The only frame of a port, of a class that pause does not hold, is the next to start (R444). -/
theorem Port.pick_only {p : Port} {f : TxFrame} (hqueue : p.queue = [f]) (hcls : f.cls = 1) (now : Nat) : p.pick now = some 0 := by
  simp [Port.pick, hqueue, launchHeld, hcls, Port.paused, List.range_succ]

/-- A frame as it leaves: padded to 60 bytes, with its FCS (R426). -/
def wireBytes (bs : List Byte) : List Byte := (bs ++ List.replicate (60 - bs.length) 0) ++ fcs (bs ++ List.replicate (60 - bs.length) 0)

theorem wireBytes_length (bs : List Byte) : (wireBytes bs).length = max bs.length 60 + 4 := by
  simp [wireBytes, fcs_length]
  omega

/-- The port that has started its only frame. -/
def Port.startFrame (p : Port) (c : Clock) (y : Spoke) (f : TxFrame) : Port :=
  { p with queue := [], sent := wireBytes f.bytes, sentBad := false
           busy := some ({ f with depart := c.instant + y.bitsFine 64 + y.lats.1 },
             c.atc + y.bitsTc (8 * ((wireBytes f.bytes).length + 20)))
           meas := p.meas.map fun m => if 2 ≤ f.insert && m.t1.isNone then
             { m with t1 := some (c.instant + y.bitsFine 64 + y.lats.1) } else m }

theorem exec_frameTransmit_only {y : Spoke} {f : TxFrame} (hy : s.dev.spoke port = some y) (hactive : y.st = .active)
    (hbusy : (s.dev.port port).busy = none) (hlpi : (s.dev.port port).lpi = 0) (hheld : (s.dev.port port).heldAt = 0)
    (hidle : s.dev.idleOnly = false) (hqueue : (s.dev.port port).queue = [f]) (hcls : f.cls = 1) (hinsert : f.insert = 0) :
    exec (.frameTransmit port) s = .next { s with
      dev := (s.dev.updPort port fun p => p.tally s.clk.atc).updPort port fun p => (p.startFrame s.clk y f).tally s.clk.atc } := by
  have hfree : (s.dev.port port).queue.any (fun g => (s.dev.port port).paused s.clk.atc g) = false := by
    simp [hqueue, Port.paused, hcls]
  have htally := Port.tally_unheld hheld hfree
  have hport : (s.dev.updPort port fun p => p.tally s.clk.atc).port port = s.dev.port port := by rw [Dev.port_updPort, htally]
  have hquiet : (s.dev.updPort port fun p => p.tally s.clk.atc).idleOnly = false := hidle
  have hbytes : departBytes f (s.clk.instant + y.bitsFine 64 + y.lats.1) = f.bytes := by simp [departBytes, hinsert]
  have hsends : y.sends f = true := by simp [Spoke.sends, hactive]
  show execFrameTransmit port s = _
  unfold execFrameTransmit
  simp only [onDev_eq, hy, hbusy, Bool.false_eq_true, if_false, hport, hlpi, hquiet, bne_self_eq_false, Bool.or_false]
  simp only [Port.pick_only hqueue hcls]
  simp [hqueue, hsends, hcls, hinsert, hbytes, Port.startFrame, wireBytes]

end

section
variable {s : State} {port : Nat}

/-- The port after an underrun of the frame in progress: it ends with an inverted FCS, and START_TH is 128 higher (R445). -/
def Port.underrun (p : Port) (now : Nat) : Port :=
  { p with
    busy := none, sentBad := true, startTh := p.startTh + 128, raisedAt := now + 1, lpiAt := now
    under := if p.under.1 = 0 || p.under.1 + 1966080 ≤ now + 1 then (now + 1, 0)
      else (p.under.1, p.under.2 + 1) }.count 16 1

/-- An underrun is counted and logged, and reported at most once a millisecond (R445). -/
theorem exec_txUnderrun_inFrame {e : Nat} {f : TxFrame} (hbusy : (s.dev.port port).busy = some (f, e)) (hrun : s.clk.atc < e)
    (hth : (s.dev.port port).startTh < (s.dev.port port).maxFrame) (hlong : (s.dev.port port).startTh < f.bytes.length) :
    ∃ t, exec (.txUnderrun port) s = .next t ∧ t.dev.port port = (s.dev.port port).underrun s.clk.atc := by
  have hkeep : (decide (e ≤ s.clk.atc) || decide ((s.dev.port port).maxFrame ≤ (s.dev.port port).startTh) ||
      decide (f.bytes.length ≤ (s.dev.port port).startTh)) = false := by simp; omega
  have hport : ∀ {d : Dev} (n : List (Nat × Nat × Nat)) (b : Bool),
      d.port port = (s.dev.port port).underrun s.clk.atc →
        (if b = true then d.evt0 s.clk 0x0880 0 n else d).port port = (s.dev.port port).underrun s.clk.atc := by
    intro d n b hd
    split
    · exact (Dev.port_congr (Reported.evt ..).mac port).trans hd
    · exact hd
  show ∃ t, execTxUnderrun port s = .next t ∧ _
  unfold execTxUnderrun
  simp only [onDev_eq, hbusy, hkeep]
  refine ⟨_, rfl, hport _ _ ((Dev.port_congr (Reported.log ..).mac port).trans ?_)⟩
  rw [Dev.port_updPort]
  simp [Port.underrun]

/-! ### Priority flow control (R449) -/

theorem exec_pfcSend_first {y : Spoke} (hlive : s.dev.liveSpoke port = some y) (hactive : y.st = .active)
    (hpfc : (s.dev.port port).txPfc ≠ 0) (hchan : (s.dev.port port).rxChan ≠ 0xFFFF)
    (hfew : s.dev.posted (s.dev.port port).rxChan < 8) (hfirst : (s.dev.port port).pfcAt = none) :
    exec (.pfcSend port) s = .next { s with
      dev := (s.dev.updPort port fun p => { p with pfcAt := some s.clk.atc }.count 20 1).offer s.clk port
        { cls := 1, bytes := (s.dev.port port).pfcFrame (s.dev.port port).txPfc 0xFFFF, ready := 0 } } := by
  show execPfcSend port s = _
  unfold execPfcSend
  simp [onDev_eq, hlive, hactive, hpfc, hchan, hfew, hfirst]

/-! ### Low-power idle (R450) -/

theorem exec_lpiEnter_idle {y : Spoke} (hlive : s.dev.liveSpoke port = some y) (hactive : y.st = .active)
    (hen : (s.dev.port port).lpiEn = true) (htw : (s.dev.port port).tw.isSome = true) (hawake : (s.dev.port port).lpi = 0)
    (hqueue : (s.dev.port port).queue = []) (hbusy : (s.dev.port port).busy = none)
    (hidle : (s.dev.port port).lpiAt + usTc (s.dev.port port).lpiIdle ≤ s.clk.atc) :
    exec (.lpiEnter port) s = .next { s with
      dev := s.dev.updPort port fun p => { p with lpi := 1, lpiAt := s.clk.atc }.count 21 1 } := by
  have hnegotiated : (s.dev.port port).tw ≠ none := Option.ne_none_iff_isSome.2 htw
  show execLpiEnter port s = _
  unfold execLpiEnter
  simp [onDev_eq, hlive, hactive, hen, hnegotiated, hawake, hqueue, hbusy, Nat.not_lt.2 hidle]

theorem exec_lpiWake_done (hlpi : (s.dev.port port).lpi = 2)
    (hdone : (s.dev.port port).lpiAt + usTc ((s.dev.port port).tw.getD 0) ≤ s.clk.atc) :
    exec (.lpiWake port) s = .next { s with dev := s.dev.updPort port fun p => { p with lpi := 0, lpiAt := s.clk.atc } } := by
  show execLpiWake port s = _
  unfold execLpiWake
  rw [onDev_eq, Dev.updPort_congr (g := fun p => { p with lpi := 0, lpiAt := s.clk.atc })]
  simp only [hlpi, hdone]
  rfl

/-! ### Delay measurement, steering and time messages (R435, R451, R505) -/

theorem exec_delayMeasurementTimeout_late {m : DelayMeas} (hm : (s.dev.port port).meas = some m)
    (hlate : m.start + 19660800 ≤ s.clk.atc) :
    exec (.delayMeasurementTimeout port) s = .next { s with
      dev := (s.dev.updPort port fun p => { p with meas := none }).evt0 s.clk 0x0881 m.tag
        [(0, 1, port), (1, 1, m.id), (2, 1, 1), (8, 8, 0)] } := by
  show execDelayMeasurementTimeout port s = _
  unfold execDelayMeasurementTimeout Dev.delayDone
  simp [onDev_eq, hm, Nat.not_lt.2 hlate, show uns 64 0 = 0 by decide]

theorem exec_steerKeepExpire_over {o : Nat × List (Nat × Nat × Nat)} (hport : port < 128)
    (ho : (s.dev.port port).oldSteer = some o) (hover : o.1 + 1966080 ≤ s.clk.atc) :
    exec (.steerKeepExpire port) s = .next { s with dev := s.dev.updPort port fun p => { p with oldSteer := none } } := by
  have hkept : ((s.dev.port port).oldSteer.any fun o => decide (o.1 + 1966080 ≤ s.clk.atc)) = true := by
    rw [ho, Option.any_some]; exact decide_eq_true hover
  show execSteerKeepExpire port s = _
  unfold execSteerKeepExpire
  simp only [onDev_eq, Nat.not_le.2 hport, if_false]
  refine congrArg (fun d => Host.Outcome.next { s with dev := d }) (Dev.updPort_congr ?_)
  exact if_pos hkept

theorem exec_ptpEventMessage_master {y : Spoke} {frame : List Byte} (hy : s.dev.spoke port = some y) (hactive : y.st = .active)
    (htiming : s.dev.time.tports = [port]) (hprofile : s.dev.time.set.profile ≠ 0) (hroles : s.dev.time.set.roles = [(1, 0)])
    (hmode : s.dev.devmode.mode ≠ .stoker) (hlen : 14 ≤ frame.length) (event : Bool) :
    exec (.ptpEventMessage port event frame) s = .next { s with
      dev := s.dev.breanoFrame s.clk port (if event then 1 else 0) frame } := by
  show execPtpEventMessage port event frame s = _
  unfold execPtpEventMessage
  simp [onDev_eq, htiming, hy, hprofile, hmode, hroles, hactive, Nat.not_lt.2 hlen]

end

/-- Settles O29: each event has its lemma above. -/
theorem macTraffic : Obligations.MacTraffic := by
  unfold Obligations.MacTraffic
  refine ⟨?badFcs, ?pause, ?expire, ?hold, ?transmit, ?underrun, ?pfc, ?enter, ?wake, ?measure, ?steer, ?ptp⟩
  case badFcs =>
    intro s port fecCorr fecUe frame symErr y hport hlive hactive henabled hawake hfcs hkeep
    have hcount := Dev.port_frameCounted s.clk s.dev port frame.length fecCorr fecUe true (decide (frame.length < 64))
      (decide ((s.dev.port port).maxFrame < frame.length)) symErr
    exact ⟨_, exec_frameReceive_badFcs ⟨hport, hlive, hactive, henabled, hawake⟩ hfcs hkeep symErr fecCorr fecUe,
      (congrArg (fun p : Port => tget 0 p.stats 0) hcount).trans (Port.countFrame_frames ..),
      (congrArg (fun p : Port => tget 0 p.stats 4) hcount).trans (Port.countFrame_badFcs ..),
      (congrArg (fun p : Port => tget 0 p.stats 1) hcount).trans (Port.countFrame_bytes ..),
      (congrArg Port.pause hcount).trans (Port.countFrame_pause ..),
      (congrArg Port.queue hcount).trans (Port.countFrame_queue ..), Dev.frameCounted_host ..⟩
  case pause =>
    intro s port fecCorr fecUe frame symErr y hport hlive hactive henabled hawake hlen hfcs hgood hmax haccept htype hop hrx
      hvlan _ hq
    subst hgood
    have hcounted : ((s.dev.port port).countFrame 64 false false false false).rxPause = true :=
      (Port.countFrame_rxPause ..).trans hrx
    obtain ⟨hpause, hstat⟩ := Port.onControl_pause (o := 14) hop hcounted hq s.clk.atc y
    refine ⟨_, exec_frameReceive_pause ⟨hport, hlive, hactive, henabled, hawake⟩ hlen hfcs hmax haccept htype hvlan fecCorr fecUe,
      ?_, ?_, (Dev.updPort_host ..).trans (Dev.frameCounted_host ..)⟩ <;> rw [Dev.port_updPort, Dev.port_frameCounted]
    · rw [hpause, Port.countFrame_pause]
    · rw [hstat, Port.countFrame_control]
  case expire =>
    intro s port prio hprio hover hqueue hheld
    exact exec_pauseExpire_over hprio hover hqueue hheld
  case hold =>
    intro s port
    refine ⟨_, exec_streamHoldExpire, ?_, ?_, ?_⟩ <;> rw [Dev.port_updPort, Port.dropHeld]
    · rw [Port.tally_queue]; rfl
    · rw [Port.tally_sent]; rfl
    · rw [Port.tally_busy]; rfl
  case transmit =>
    intro s port y f hy hactive hbusy hlpi hheld hidle hqueue hcls hinsert
    have hported := Port.tally_unheld (now := s.clk.atc) hheld
      (show (s.dev.port port).queue.any (fun g => (s.dev.port port).paused s.clk.atc g) = false by
        simp [hqueue, Port.paused, hcls])
    refine ⟨_, exec_frameTransmit_only hy hactive hbusy hlpi hheld hidle hqueue hcls hinsert, ?_, ?_, ?_, ?_⟩ <;>
      rw [Dev.port_updPort, Dev.port_updPort, hported]
    · rw [Port.tally_queue]; rfl
    · rw [Port.tally_sent]; rfl
    · rw [Port.tally_sentBad]; rfl
    · rw [Port.tally_busy, Port.startFrame, wireBytes_length]
  case underrun =>
    intro s port e f hbusy hrun hth hlong
    obtain ⟨t, ht, hport⟩ := exec_txUnderrun_inFrame hbusy hrun hth hlong
    refine ⟨t, ht, ?_, ?_, ?_, ?_, ?_⟩ <;> rw [hport]
    · rfl
    · rfl
    · rfl
    · exact (Port.stat_count ..).trans (if_pos rfl)
    · rfl
  case pfc =>
    intro s port y hlive ⟨hactive, hdis⟩ hawake hpfc hchan hfew hfirst
    have htakes : TakesFrames (s.dev.updPort port fun p => { p with pfcAt := some s.clk.atc }.count 20 1) port :=
      .updPort ⟨⟨y, Dev.spoke_of_liveSpoke hlive, hdis⟩, hawake⟩ _
    refine ⟨_, exec_pfcSend_first hlive hactive hpfc hchan hfew hfirst, ?_, ?_⟩ <;> rw [htakes.port_offer, Dev.port_updPort]
    · rw [Port.tally_queue]; rfl
    · rw [Port.tally_pfcAt]; rfl
  case enter =>
    intro s port y hlive hactive hen htw hawake hqueue hbusy hidle
    refine ⟨_, exec_lpiEnter_idle hlive hactive hen htw hawake hqueue hbusy hidle, ?_, ?_, ?_⟩ <;> rw [Dev.port_updPort]
    · rfl
    · rfl
    · rw [Port.stat_count, if_pos rfl]
  case wake =>
    intro s port hlpi hdone
    refine ⟨_, exec_lpiWake_done hlpi hdone, ?_, ?_, ?_⟩ <;> rw [Dev.port_updPort]
  case measure =>
    intro s port m hm hlate
    exact exec_delayMeasurementTimeout_late hm hlate
  case steer =>
    intro s port o hport ho hover
    exact exec_steerKeepExpire_over hport ho hover
  case ptp =>
    intro s port event frame y hy ⟨hactive, hdis⟩ hawake htiming hprofile hroles hmode hlen huntagged
    have htakes : TakesFrames s.dev port := ⟨⟨y, hy, hdis⟩, hawake⟩
    refine ⟨_, exec_ptpEventMessage_master hy hactive htiming hprofile hroles hmode hlen event, ?_⟩
    rw [Dev.breanoFrame, htakes.port_offer, Port.tally_queue, if_neg huntagged]

end Sys2Proof.Machine
end

section
/-! Statement O30: the commands of the MAC ports (R425, R428, R433, R435, R436, R442, R446, R450-R453). -/
namespace Sys2Proof.Machine

@[simp] theorem noted_mac (d : Dev) : (noted d).mac = d.mac := rfl
@[simp] theorem answered_mac (c : Clock) (w : Waiting) (r : Reply) (d : Dev) : (answered c w r d).mac = d.mac := by
  unfold answered; rw [Dev.respond_dev]; rfl

/-- A command for a port with a live spoke goes on (R425). -/
theorem Dev.onPort_live {d : Dev} {port : Nat} {y : Spoke} (hport : port < 128) (hy : d.liveSpoke port = some y)
    (k : Spoke → Reply × Dev) : d.onPort port k = k y := by
  simp [Dev.onPort, Nat.not_le.2 hport, hy]

section
variable {s : State} {r : Req} {w : Waiting} {port : Nat} {y : Spoke}

theorem exec_macPortSet_live {ownMac peerMac tci transport ownIp peerIp udp dscp maxFrame seg : Nat} (hw : Waits s r 0x0801 w)
    (hport : port < 128) (hy : s.dev.liveSpoke port = some y) (htransport : transport ≤ 2) (hdscp : dscp < 64)
    (hmax : 1518 ≤ maxFrame ∧ maxFrame ≤ 9600) (hseg : seg % 16 = 0 ∧ 16 ≤ seg ∧ seg ≤ 2048)
    (hfits : headerLen transport tci + seg / 16 * 65 ≤ maxFrame) (hmap : s.dev.mapActive port = false) :
    exec (.macPortSet r port ownMac peerMac tci transport ownIp peerIp udp dscp maxFrame seg) s = .next { s with
      dev := answered s.clk w rOk (noted (s.dev.updPort port fun p => { p with
        ownMac := ownMac, peerMac := peerMac, tci := tci, transport := transport, ownIp := ownIp, peerIp := peerIp
        udp := udp, dscp := dscp, maxFrame := maxFrame, seg := seg })) } := by
  refine onDev_serve_journalled hw (by decide) (.inl rfl) (fits_zero w) rfl ?_
  simp [Dev.onPort_live hport hy, Nat.not_lt.2 htransport, Nat.not_le.2 hdscp, Nat.not_lt.2 hmax.1, Nat.not_lt.2 hmax.2, hseg.1,
    Nat.not_lt.2 hseg.2.1, Nat.not_lt.2 hseg.2.2, Nat.not_lt.2 hfits, hmap]

theorem exec_macPortSet_noSpoke {ownMac peerMac tci transport ownIp peerIp udp dscp maxFrame seg : Nat}
    (hw : Waits s r 0x0801 w) (hport : port < 128) (hnone : s.dev.liveSpoke port = none) :
    exec (.macPortSet r port ownMac peerMac tci transport ownIp peerIp udp dscp maxFrame seg) s = .next { s with
      dev := answered s.clk w (rSt stBADSTATE) s.dev } := by
  refine onDev_serve_refused hw (by decide) (fits_zero w) ?_
  simp [Dev.onPort, Nat.not_le.2 hport, hnone]

theorem exec_macFilterSet_live {enable prom allmc keepBad vlanCheck : Nat} {addrs : List Nat} (hw : Waits s r 0x0802 w)
    (hport : port < 128) (hy : s.dev.liveSpoke port = some y) (hlen : addrs.length = 16) (hprom : prom ≤ 1) (hallmc : allmc ≤ 1)
    (hkeep : keepBad ≤ 1) (hvlan : vlanCheck ≤ 1) :
    exec (.macFilterSet r port enable addrs prom allmc keepBad vlanCheck) s = .next { s with
      dev := answered s.clk w rOk (noted (s.dev.updPort port fun p => { p with
        fltOn := enable, flt := addrs, prom := prom = 1, allmc := allmc = 1, keepBad := keepBad = 1
        vlanCheck := vlanCheck = 1 })) } := by
  refine onDev_serve_journalled hw (by decide) (.inl rfl) (fits_zero w) rfl ?_
  simp [Dev.onPort_live hport hy, hlen, Nat.not_lt.2 hprom, Nat.not_lt.2 hallmc, Nat.not_lt.2 hkeep, Nat.not_lt.2 hvlan]

theorem exec_macFlowSet_quiet {rxPause pfcRx txPfc hold : Nat} (hw : Waits s r 0x0803 w) (hport : port < 128)
    (hy : s.dev.liveSpoke port = some y) (hrx : rxPause ≤ 1) (hhold : hold ≤ 500)
    (hpfc : bit txPfc ((s.dev.port port).tci / 8192) = false) (hqueue : (s.dev.port port).queue = [])
    (hheld : (s.dev.port port).heldAt = 0) :
    exec (.macFlowSet r port rxPause pfcRx txPfc hold) s = .next { s with
      dev := answered s.clk w rOk (noted (s.dev.updPort port fun p =>
        { p with rxPause := rxPause = 1, pfcRx := pfcRx, txPfc := txPfc, hold := hold })) } := by
  refine onDev_serve_journalled hw (by decide) (.inl rfl) (fits_zero w) rfl ?_
  simp only [Dev.onPort_live hport hy, Nat.not_lt.2 hrx, Nat.not_lt.2 hhold, hpfc, if_false, Bool.false_eq_true]
  refine congrArg (Prod.mk rOk) (Dev.updPort_congr ?_)
  rw [Port.tally_empty hheld hqueue]

theorem exec_macLpiSet_on {idle : Nat} (hw : Waits s r 0x0804 w) (hport : port < 128) (hy : s.dev.liveSpoke port = some y)
    (htype : y.port = 2) (hidle : 1 ≤ idle ∧ idle ≤ 1000) :
    exec (.macLpiSet r port 1 idle) s = .next { s with
      dev := answered s.clk w rOk (noted (s.dev.updPort port fun p => { p with lpiEn := true, lpiIdle := idle })) } := by
  refine onDev_serve_journalled hw (by decide) (.inl rfl) (fits_zero w) rfl ?_
  simp [Dev.onPort_live hport hy, htype, Nat.not_lt.2 hidle.2, Nat.ne_of_gt hidle.1]

theorem exec_macQueueSet_receive {rx : Nat} (hw : Waits s r 0x0805 w) (hport : port < 128) (hy : s.dev.liveSpoke port = some y)
    (hrx : 512 ≤ rx ∧ rx < 576) (hfunc : s.dev.chanFunc rx = 0) (hoff : (s.dev.chan rx).dis = .off) :
    exec (.macQueueSet r port rx 0xFFFF) s = .next { s with
      dev := answered s.clk w rOk (noted (s.dev.updPort port fun p => { p with rxChan := rx, txChan := 0xFFFF })) } := by
  refine onDev_serve_journalled hw (by decide) (.inl rfl) (fits_zero w) rfl ?_
  simp [Dev.onPort_live hport hy, hrx, hfunc, hoff]

/-! ### Steering (R435) -/

/-- The block in which entry `first` of a port's steering is written to SHADOW. -/
def Dev.steerWritten (c : Clock) (d : Dev) (port first : Nat) (e : Nat × Nat) : Dev :=
  (d.updMac fun m => { m with steer := tmod steerEmpty m.steer port (Inst.write c.atc ((d.shadow 3 port).landing c.atc) fun l =>
    tput l first e) }).updShadow 3 port fun y => y.touched c.atc false

theorem Dev.steerOf_congr {d e : Dev} (h : e.mac = d.mac) (n : Nat) : e.steerOf n = d.steerOf n := by unfold Dev.steerOf; rw [h]

theorem Dev.steerOf_steerWritten (c : Clock) (d : Dev) (n first : Nat) (e : Nat × Nat) :
    (d.steerWritten c n first e).steerOf n =
      (d.steerOf n).write c.atc ((d.shadow 3 n).landing c.atc) fun l => tput l first e :=
  (tget_tmod ..).trans (if_pos rfl)

theorem exec_macSteerWrite_one {first e : Nat} (hw : Waits s r 0x0806 w) (hport : port < 128)
    (hy : s.dev.liveSpoke port = some y) (hfirst : first < 256) (hzero : bits e 27 5 = 0) :
    exec (.macSteerWrite r port first 1 [e]) s = .next { s with
      dev := answered s.clk w rOk (noted (s.dev.steerWritten s.clk port first (bits e 0 16, bits e 16 11))) } := by
  refine onDev_serve_journalled hw (by decide) (.inl rfl) (fits_zero w) rfl ?_
  simp [Dev.onPort_live hport hy, show ¬ 256 < first + 1 by omega, hzero, Dev.steerWritten]

/-! ### Thresholds, counters, delay and status (R446, R451-R453) -/

theorem exec_macTxthreshReset_quiet (hw : Waits s r 0x0807 w) (hfit : Fits w 2) (hport : port < 128)
    (hy : s.dev.liveSpoke port = some y) (hquiet : (s.dev.port port).raisedAt ≠ s.clk.atc + 1) :
    exec (.macTxthreshReset r port) s = .next { s with
      dev := answered s.clk w (rOk [(2, (s.dev.port port).startTh)]) (noted (s.dev.updPort port fun p =>
        { p with startTh := 256 })) } := by
  refine onDev_serve_journalled hw (by decide) (.inl rfl) hfit rfl ?_
  simp [Dev.onPort_live hport hy, hquiet]

/-- The block in which the counters of a port are up to date (R447, R450). -/
def Dev.tallied (c : Clock) (d : Dev) (port : Nat) : Dev :=
  d.updPort port fun p =>
    if (p.tally c.atc).lpi = 1 then { (p.tally c.atc).lpiNs c.atc with lpiAt := c.atc } else p.tally c.atc

theorem Dev.port_tallied (c : Clock) {d : Dev} {port : Nat} (hqueue : (d.port port).queue = []) (hheld : (d.port port).heldAt = 0)
    (hlpi : (d.port port).lpi ≠ 1) : (d.tallied c port).port port = d.port port := by
  rw [Dev.tallied, Dev.port_updPort, Port.tally_empty hheld hqueue, if_neg hlpi]

/-- The block in which the counters of a port are cleared, none of them changed by an event of this cycle. -/
def Dev.statsCleared (c : Clock) (d : Dev) (port : Nat) : Dev :=
  { ((d.tallied c port).updPort port fun p => { p with stats := [] }) with
    cyc := { d.cyc with mac := tdel d.cyc.mac port } }

theorem Dev.statsCleared_host (c : Clock) (d : Dev) (port : Nat) : (d.statsCleared c port).host = d.host := by
  unfold Dev.statsCleared
  dsimp only
  rw [Dev.updPort_host, Dev.tallied, Dev.updPort_host]

theorem length_pk_octets {α : Type} (f : α → Nat) (l : List α) : (pk (l.map fun i => (8, f i))).length = 8 * l.length := by
  induction l with
  | nil => rfl
  | cons i l ih =>
    simp only [pk, List.map_cons, List.flatMap_cons, List.length_append, le_length, List.length_cons] at ih ⊢
    omega

/-- A table in which nothing differs from the default is empty. -/
theorem foldl_tset_zero (l : List Nat) : l.foldl (fun t i => tset 0 t i 0) ([] : Tab Nat) = [] := by
  induction l with
  | nil => rfl
  | cons i l ih => exact ih

theorem exec_macGetStats_clear (hw : Waits s r 0x0808 w) (hfit : Fits w 224) (hport : port < 128)
    (hy : s.dev.liveSpoke port = some y) (hqueue : (s.dev.port port).queue = []) (hheld : (s.dev.port port).heldAt = 0)
    (hlpi : (s.dev.port port).lpi ≠ 1) (hcycle : tget [] s.dev.cyc.mac port = (s.dev.port port).stats) :
    exec (.macGetStats r port 1) s = .next { s with
      dev := answered s.clk w (rOk ((List.range 28).map fun i => (8, tget 0 (s.dev.port port).stats i)))
        (s.dev.statsCleared s.clk port) } := by
  have hport' : (s.dev.tallied s.clk port).port port = s.dev.port port := Dev.port_tallied s.clk hqueue hheld hlpi
  refine onDev_serve_unjournalled hw (by decide) ?fits (Dev.statsCleared_host ..) ?handler
  case fits =>
    unfold rOk
    dsimp only
    rw [length_pk_octets, List.length_range]
    exact hfit
  case handler =>
    simp only [Dev.onPort_live hport hy, ← Dev.tallied.eq_def, hport', Nat.lt_irrefl, if_false, one_ne_zero]
    show (_, _) = (_, _)
    simp only [show (s.dev.tallied s.clk port).cyc = s.dev.cyc from rfl, hcycle, Nat.sub_self, Nat.add_zero, foldl_tset_zero]
    rfl

theorem Port.wrap_meas (p : Port) (m : Option DelayMeas) (msg : List Byte) :
    ({ p with meas := m } : Port).wrap msg = p.wrap msg := rfl

/-- The request of a one-step measurement: a frame of Breano with t1 inserted at its departure (R451). -/
def Port.delayRequest (p : Port) (id : Nat) : TxFrame :=
  { cls := 3, bytes := p.wrap (delayMsg id 0 0 0), ready := 0, insert := 2
    pcp := if fieldBe (p.wrap (delayMsg id 0 0 0)) 12 2 = 0x8100 then fieldBe (p.wrap (delayMsg id 0 0 0)) 14 2 / 8192 else 0 }

theorem TakesFrames.port_startDelay {d : Dev} (h : TakesFrames d port) (c : Clock) (id tag : Nat) :
    (d.startDelay c port id false tag).port port =
      ({ d.port port with
        meas := some { id := id, two := false, start := c.atc, tag := tag }
        queue := (d.port port).queue ++ [{ (d.port port).delayRequest id with ready := c.atc }] } : Port).tally c.atc := by
  unfold Dev.startDelay Dev.breanoFrame
  rw [(h.updPort _).port_offer, Dev.port_updPort, Port.wrap_meas]
  rfl

theorem exec_macDelayMeasure_oneStep {id : Nat} (hw : Waits s r 0x0809 w) (hport : port < 128)
    (hy : s.dev.liveSpoke port = some y) (htakes : TakesFrames s.dev port) (hnone : (s.dev.port port).meas = none) :
    exec (.macDelayMeasure r port 0 id) s = .next { s with
      dev := answered s.clk w rAcc (noted (s.dev.startDelay s.clk port id false w.tag)) } := by
  refine onDev_serve_journalled hw (by decide) (.inr rfl) (fits_zero w) ?_ ?_
  · exact (htakes.updPort _).offer_host ..
  · simp [Dev.onPort_live hport hy, hnone]

theorem exec_macPortStatus_free (hw : Waits s r 0x080A w) (hfit : Fits w 8) (hport : port < 128)
    (hy : s.dev.liveSpoke port = some y) (hpause : (s.dev.port port).pause = List.replicate 9 0)
    (hlpi : (s.dev.port port).lpiEn = false) :
    exec (.macPortStatus r port) s = .next { s with
      dev := answered s.clk w (rOk [(2, (s.dev.port port).startTh), (1, 0), (1, 0), (2, (s.dev.port port).tw.getD 0),
        (2, (s.dev.shadow 3 port).seq)]) s.dev } := by
  refine onDev_serve_unjournalled hw (by decide) hfit rfl ?_
  simp [Dev.onPort_live hport hy, hpause, hlpi, List.range_succ, List.replicate]

end

/-- Settles O30: each command has its lemma above. -/
theorem macCommands : Obligations.MacCommands := by
  unfold Obligations.MacCommands
  refine ⟨?set, ?noSpoke, ?filter, ?flow, ?lpi, ?queue, ?steer, ?threshold, ?stats, ?delay, ?status⟩
  case set =>
    intro s r w port ownMac peerMac tci transport ownIp peerIp udp dscp maxFrame seg y hw hport hy
      ⟨htransport, hdscp, hmin, hmax, hseg⟩ hfits hmap
    exact exec_macPortSet_live hw hport hy htransport hdscp ⟨hmin, hmax⟩ hseg hfits hmap
  case noSpoke =>
    intro s r w port ownMac peerMac tci transport ownIp peerIp udp dscp maxFrame seg hw hport hnone
    exact exec_macPortSet_noSpoke hw hport hnone
  case filter =>
    intro s r w port enable prom allmc keepBad vlanCheck addrs y hw hport hy ⟨hlen, hprom, hallmc, hkeep, hvlan⟩
    exact exec_macFilterSet_live hw hport hy hlen hprom hallmc hkeep hvlan
  case flow =>
    intro s r w port rxPause pfcRx txPfc hold y hw hport hy ⟨hrx, hhold⟩ hpfc hqueue hheld
    exact exec_macFlowSet_quiet hw hport hy hrx hhold hpfc hqueue hheld
  case lpi =>
    intro s r w port en idle y hw hport hy htype hen hidle
    subst hen
    exact exec_macLpiSet_on hw hport hy htype hidle
  case queue =>
    intro s r w port rx tx y hw hport hy ⟨hlo, hhi, htx⟩ hfunc hoff
    subst htx
    exact exec_macQueueSet_receive hw hport hy ⟨hlo, hhi⟩ hfunc hoff
  case steer =>
    intro s r w port first count e entries y hw hport hy ⟨hfirst, hcount, hentries⟩ hzero
    subst hcount hentries
    refine ⟨_, exec_macSteerWrite_one hw hport hy hfirst hzero, answered_host_congr s.clk w _ rfl, ?_, ?_⟩ <;>
      rw [Dev.steerOf_congr (answered_mac ..), Dev.steerOf_congr (noted_mac _), Dev.steerOf_steerWritten]
    · exact Inst.latest_write ..
    · rfl
  case threshold =>
    intro s r w port y hw hfit hport hy hquiet
    exact exec_macTxthreshReset_quiet hw hfit hport hy hquiet
  case stats =>
    intro s r w port clear y hw hfit hport hy hclear hqueue hheld hlpi hcycle
    subst hclear
    refine ⟨_, exec_macGetStats_clear hw hfit hport hy hqueue hheld hlpi hcycle,
      answered_host_congr s.clk w _ (Dev.statsCleared_host ..), ?_⟩
    rw [Dev.port_congr (answered_mac ..)]
    refine (Dev.port_updPort ..).trans ?_
    rw [Dev.port_tallied s.clk hqueue hheld hlpi]
  case delay =>
    intro s r w port two id y hw hport hy hdis hawake htwo hnone
    subst htwo
    have htakes : TakesFrames s.dev port := ⟨⟨y, Dev.spoke_of_liveSpoke hy, hdis⟩, hawake⟩
    refine ⟨_, exec_macDelayMeasure_oneStep hw hport hy htakes hnone,
      answered_host_congr s.clk w _ ((htakes.updPort _).offer_host ..), ?_, ?_⟩ <;>
      rw [Dev.port_congr (answered_mac ..), Dev.port_congr (noted_mac _), htakes.port_startDelay]
    · exact Port.tally_meas ..
    · exact Port.tally_queue ..
  case status =>
    intro s r w port y hw hfit hport hy hpause hlpi
    exact exec_macPortStatus_free hw hfit hport hy hpause hlpi

end Sys2Proof.Machine
end

section
/-! What the operations of copper spokes and pairs leave alone and change (R456, R463, R482, R486). -/
namespace Sys2Proof.Machine

theorem Reported.cop {d e : Dev} (h : Reported d e) : e.cop = d.cop := by rw [h.dev]

@[simp] theorem Dev.evt0_cop (c : Clock) (d : Dev) (code tag : Nat) (fs : List (Nat × Nat × Nat)) :
    (d.evt0 c code tag fs).cop = d.cop := (Reported.evt ..).cop
@[simp] theorem Dev.trouble_cop (d : Dev) (w b : Nat) : (d.trouble w b).cop = d.cop := rfl
@[simp] theorem Dev.copDown_cop (c : Clock) (d : Dev) (n reason fails : Nat) : (d.copDown c n reason fails).cop = d.cop :=
  (Reported.evtNote ..).cop

theorem Dev.copper_congr {d e : Dev} (h : e.cop = d.cop) (n : Nat) : e.copper n = d.copper n := by unfold Dev.copper; rw [h]
theorem Dev.pair_congr {d e : Dev} (h : e.cop = d.cop) (n : Nat) : e.pair n = d.pair n := by unfold Dev.pair; rw [h]
theorem Dev.loadOf_congr {d e : Dev} (h : e.cop = d.cop) (n : Nat) : e.loadOf n = d.loadOf n := by unfold Dev.loadOf; rw [h]

/-! ### The spoke table -/

theorem Dev.updCopper_eq {d : Dev} {n : Nat} {y : CopSpoke} (h : d.copper n = some y) (f : CopSpoke → CopSpoke) :
    d.updCopper n f = d.updCop fun x => { x with spokes := tput x.spokes n (f y) } := by
  unfold Dev.updCopper; rw [h]

@[simp] theorem Dev.copper_updCopper (d : Dev) (n : Nat) (f : CopSpoke → CopSpoke) :
    (d.updCopper n f).copper n = (d.copper n).map f := by
  cases h : d.copper n with
  | none => unfold Dev.updCopper; rw [h]; exact h
  | some y => rw [Dev.updCopper_eq h]; simp [Dev.copper, tfind_tput]

/-- `p` reads nothing of the table of copper spokes. -/
def OffCopper {α : Type} (p : Dev → α) : Prop := ∀ (d : Dev) (t : Tab CopSpoke), p (d.updCop fun x => { x with spokes := t }) = p d

theorem Dev.updCopper_keeps {α : Type} (p : Dev → α) (hp : OffCopper p) (d : Dev) (n : Nat) (f : CopSpoke → CopSpoke) :
    p (d.updCopper n f) = p d := by
  unfold Dev.updCopper
  split
  · next y _ => exact hp d (tput d.cop.spokes n (f y))
  · rfl

@[simp] theorem Dev.updCopper_host (d : Dev) (n : Nat) (f : CopSpoke → CopSpoke) : (d.updCopper n f).host = d.host :=
  Dev.updCopper_keeps Dev.host (fun _ _ => rfl) d n f
@[simp] theorem Dev.updCopper_air (d : Dev) (n : Nat) (f : CopSpoke → CopSpoke) : (d.updCopper n f).air = d.air :=
  Dev.updCopper_keeps Dev.air (fun _ _ => rfl) d n f
@[simp] theorem Dev.updCopper_mem (d : Dev) (n : Nat) (f : CopSpoke → CopSpoke) : (d.updCopper n f).mem = d.mem :=
  Dev.updCopper_keeps Dev.mem (fun _ _ => rfl) d n f
@[simp] theorem Dev.updCopper_free (d : Dev) (n : Nat) (f : CopSpoke → CopSpoke) : (d.updCopper n f).free = d.free :=
  Dev.updCopper_keeps Dev.free (fun _ _ => rfl) d n f
@[simp] theorem Dev.updCopper_idleOnly (d : Dev) (n : Nat) (f : CopSpoke → CopSpoke) : (d.updCopper n f).idleOnly = d.idleOnly :=
  Dev.updCopper_keeps Dev.idleOnly (fun _ _ => rfl) d n f
@[simp] theorem Dev.pair_updCopper (d : Dev) (n p : Nat) (f : CopSpoke → CopSpoke) : (d.updCopper n f).pair p = d.pair p :=
  Dev.updCopper_keeps (fun d : Dev => d.pair p) (fun _ _ => rfl) d n f
@[simp] theorem Dev.loadOf_updCopper (d : Dev) (n p : Nat) (f : CopSpoke → CopSpoke) : (d.updCopper n f).loadOf p = d.loadOf p :=
  Dev.updCopper_keeps (fun d : Dev => d.loadOf p) (fun _ _ => rfl) d n f

/-! ### The pair table -/

@[simp] theorem Dev.pair_updPair (d : Dev) (p : Nat) (f : PairCh → PairCh) : (d.updPair p f).pair p = f (d.pair p) := by
  simp [Dev.pair, Dev.updPair, tget_tmod]

/-- An update of a pair depends on what it makes of the present state alone. -/
theorem Dev.updPair_congr {d : Dev} {p : Nat} {f g : PairCh → PairCh} (hf : f (d.pair p) = g (d.pair p)) :
    d.updPair p f = d.updPair p g := by
  unfold Dev.pair at hf
  simp only [Dev.updPair, Dev.updCop, tmod, hf]

@[simp] theorem Dev.copper_updPair (d : Dev) (p n : Nat) (f : PairCh → PairCh) : (d.updPair p f).copper n = d.copper n := rfl
@[simp] theorem Dev.loadOf_updPair (d : Dev) (p n : Nat) (f : PairCh → PairCh) : (d.updPair p f).loadOf n = d.loadOf n := rfl
@[simp] theorem Dev.shadow_updPair (d : Dev) (p cls n : Nat) (f : PairCh → PairCh) :
    (d.updPair p f).shadow cls n = d.shadow cls n := rfl
@[simp] theorem Dev.updPair_host (d : Dev) (p : Nat) (f : PairCh → PairCh) : (d.updPair p f).host = d.host := rfl
@[simp] theorem Dev.updPair_mem (d : Dev) (p : Nat) (f : PairCh → PairCh) : (d.updPair p f).mem = d.mem := rfl
@[simp] theorem Dev.updPair_free (d : Dev) (p : Nat) (f : PairCh → PairCh) : (d.updPair p f).free = d.free := rfl
@[simp] theorem Dev.updPair_idleOnly (d : Dev) (p : Nat) (f : PairCh → PairCh) : (d.updPair p f).idleOnly = d.idleOnly := rfl

@[simp] theorem PairCh.stat_count (p : PairCh) (i n j : Nat) :
    tget 0 (p.count i n).stats j = if j = i then satAdd 64 (tget 0 p.stats i) n else tget 0 p.stats j := by
  simp [PairCh.count, tget_tmod]

/-! ### A spoke whose mask is pair a alone -/

theorem maskPairs_one (n : Nat) : maskPairs n 1 = [4 * (n - 128)] := by
  simp [maskPairs, pairIdx, show ones 4 1 = [0] by decide]

theorem CopSpoke.livePairs_one {y : CopSpoke} (hmask : y.mask = 1) (hchange : y.change = none) (n : Nat) :
    y.livePairs n = [4 * (n - 128)] := by
  simp [CopSpoke.livePairs, CopSpoke.liveMask, hmask, hchange, maskPairs_one]

theorem pairSpokeNo_first {n : Nat} (h : 128 ≤ n) : pairSpokeNo (4 * (n - 128)) = n := by unfold pairSpokeNo; omega

/-- Traffic of a spoke stops. -/
def CopSpoke.stopped (y : CopSpoke) : CopSpoke :=
  { y with active := false, window := false, queue := [], crcWin := [], change := none }

/-- A spoke without a standing mark stops: its trouble bit is set if it was ACTIVE. -/
theorem Dev.copStop_unmarked {d : Dev} {n : Nat} {y : CopSpoke} (hy : d.copper n = some y) (hmark : y.mark = 0xFFFF) :
    d.copStop n = (if y.active then d.trouble (copBlock n) trbLINK else d).updCopper n CopSpoke.stopped := by
  have hsame : (if y.active then d.trouble (copBlock n) trbLINK else d).copper n = some y := by split <;> exact hy
  unfold Dev.copStop Dev.copUnmark
  simp only [hy, Option.any_some, hsame, if_pos hmark]
  rfl

theorem Dev.cop_ite_trouble (d : Dev) (b : Bool) (w i : Nat) : (if b then d.trouble w i else d).cop = d.cop := by
  split <;> rfl

theorem Dev.copper_copStop {d : Dev} {n : Nat} {y : CopSpoke} (hy : d.copper n = some y) (hmark : y.mark = 0xFFFF) :
    (d.copStop n).copper n = some y.stopped := by
  rw [Dev.copStop_unmarked hy hmark, Dev.copper_updCopper, Dev.copper_congr (Dev.cop_ite_trouble ..), hy]; rfl

/-! ### What the receiver measures (log 8) -/

@[simp] theorem measure_cop (d : Dev) : (measure d).2.cop = d.cop := rfl
@[simp] theorem measure_air (d : Dev) : (measure d).2.air = d.air := rfl
@[simp] theorem measure_mem (d : Dev) : (measure d).2.mem = d.mem := rfl
@[simp] theorem measure_free (d : Dev) : (measure d).2.free = d.free + 1 := rfl

/-! ### Writing a table (R482) -/

/-- The block in which a direction's table of a pair is written to SHADOW. -/
def Dev.tableWritten (c : Clock) (d : Dev) (p dir : Nat) (t : List Nat) : Dev :=
  (d.updCop fun x => { x with
    tables := tmod loadEmpty x.tables p (Inst.write c.atc ((d.shadow 5 p).landing c.atc) fun y => y.setDir dir t) }).updShadow 5 p
      fun y => y.touched c.atc false

theorem Dev.loadOf_tableWritten (c : Clock) (d : Dev) (p dir : Nat) (t : List Nat) :
    (d.tableWritten c p dir t).loadOf p =
      (d.loadOf p).write c.atc ((d.shadow 5 p).landing c.atc) fun y => y.setDir dir t := (tget_tmod ..).trans (if_pos rfl)

/-- A table sent on the line joins what waits for its spoke, and leaves everything but the spoke. -/
theorem Dev.sendTable_keeps {α : Type} (p : Dev → α) (hp : OffCopper p) (d : Dev) (q rp dir : Nat) : p (d.sendTable q rp dir) = p d := Dev.updCopper_keeps p hp _ _ _

/-- The tables sent to every radio point of `mask`. -/
def Dev.sendTables (d : Dev) (p dir mask : Nat) : Dev := (ones 16 mask).foldl (fun d rp => d.sendTable p rp dir) d

theorem Dev.sendTables_keeps {α : Type} (p : Dev → α) (hp : OffCopper p) (d : Dev) (q dir mask : Nat) : p (d.sendTables q dir mask) = p d :=
  foldl_keeps p (fun d rp => Dev.sendTable_keeps p hp d q rp dir) _ _

theorem Dev.pair_sendTables (d : Dev) (p q dir mask : Nat) : (d.sendTables q dir mask).pair p = d.pair p :=
  Dev.sendTables_keeps (fun d : Dev => d.pair p) (fun _ _ => rfl) d q dir mask
theorem Dev.loadOf_sendTables (d : Dev) (p q dir mask : Nat) : (d.sendTables q dir mask).loadOf p = d.loadOf p :=
  Dev.sendTables_keeps (fun d : Dev => d.loadOf p) (fun _ _ => rfl) d q dir mask

theorem Dev.writeTable_eq (c : Clock) (d : Dev) (p dir : Nat) (t : List Nat) (force : Bool) :
    d.writeTable c p dir t force =
      if force || (d.pair p).up = 0 then ((d.tableWritten c p dir t).sendTables p dir (d.pair p).up).armPair c p
      else ((d.tableWritten c p dir t).sendTables p dir (d.pair p).up).updPair p fun q =>
        { q with toArm := true, need := if dir = 0 then ((d.pair p).up, q.need.2) else (q.need.1, (d.pair p).up) } := rfl

theorem LoadTab.dir_setDir (t : LoadTab) (dir : Nat) (l : List Nat) : (t.setDir dir l).dir dir = l := by
  unfold LoadTab.dir LoadTab.setDir; split <;> rfl

end Sys2Proof.Machine
end

section
/-! Statement O31: what happens on a copper line (R466, R472, R478, R480-R482, R486-R490, R492). -/
namespace Sys2Proof.Machine

/-! ### Superframes (R457, R471, R472) -/

/-- The pair of a full-duplex spoke that has noted the start of a superframe. -/
def PairCh.superframe (q : PairCh) (now start : Nat) : PairCh :=
  { q with swapAt := q.swapAt.filter fun m => start ≤ m.1 + 19200, oldSeq := q.oldSeq.filter fun o => now < o.1 }

/-- The pair of a full-duplex spoke that begins the superframe under the table `seq`. -/
def PairCh.framed (q : PairCh) (seq : Nat) : PairCh :=
  { q with lost := if q.st != .active || q.synced then 0 else q.lost + 1, synced := false, cand := none, burst := none
           header := headerBits 0 0 (if q.st = .load || q.st = .active then 1022 else 510) seq seq }

/-- An ACTIVE pair of a full-duplex spoke gets its superframe's header and nothing else (R472). -/
theorem Dev.framePair_active {d : Dev} {p : Nat} {y : CopSpoke} (hmode : y.mode = 0) (hst : (d.pair p).st = .active)
    (c : Clock) (start : Nat) (echo : Bool) :
    d.framePair c y start p echo = (d.updPair p fun q => q.superframe c.atc start).updPair p fun q =>
      q.framed ((d.updPair p fun q => q.superframe c.atc start).seqInUse p start) := by
  unfold Dev.framePair
  simp only [hst, hmode, if_true, Nat.zero_ne_one, decide_false, Bool.false_and, Bool.false_eq_true, if_false]
  rfl

theorem Dev.pair_framePair_active {d : Dev} {p : Nat} {y : CopSpoke} (hmode : y.mode = 0) (hst : (d.pair p).st = .active)
    (hswap : (d.pair p).swapAt = none) (c : Clock) (start : Nat) (echo : Bool) :
    (d.framePair c y start p echo).pair p = ((d.pair p).superframe c.atc start).framed ((d.shadow 5 p).seq % 16) := by
  have hseq : (d.updPair p fun q => q.superframe c.atc start).seqInUse p start = (d.shadow 5 p).seq % 16 := by
    simp [Dev.seqInUse, PairCh.superframe, hswap]
  rw [Dev.framePair_active hmode hst, hseq, Dev.pair_updPair, Dev.pair_updPair]

theorem PairCh.framed_active {q : PairCh} (hst : q.st = .active) (seq : Nat) :
    (q.framed seq).st = .active ∧ (q.framed seq).header = headerBits 0 0 1022 seq seq := by
  simp [PairCh.framed, hst]

/-- A line stream with nothing waiting carries nothing. -/
theorem Dev.pump_idle {d : Dev} {n p cap : Nat} {y : CopSpoke} (hy : d.copper n = some y) (hqueue : y.queue = [])
    (hpart : y.part = []) : (d.pump n [p] cap).copper n = some y := by
  unfold Dev.pump
  rw [Dev.copper_updCopper, hy]
  cases y
  subst hqueue hpart
  simp [takeFrames, tset, tdel]

theorem Dev.pair_pump (d : Dev) (n : Nat) (ps : List Nat) (cap p : Nat) : (d.pump n ps cap).pair p = d.pair p :=
  Dev.pair_updCopper ..

/-- The block in which the only pair of a spoke has begun a superframe. -/
def Dev.superframed (c : Clock) (d : Dev) (n : Nat) (y : CopSpoke) (echo : Nat) : Dev :=
  (d.updCopper n fun y' => { y' with frame := (c.atc + y.lineAdv) / frameTc + 1, sent := [] }).framePair c y
    ((c.atc + y.lineAdv) / frameTc * frameTc - y.lineAdv) (4 * (n - 128)) (bit echo (4 * (n - 128) % 4))

theorem Dev.framePair_superframed (c : Clock) (d : Dev) (n : Nat) (y : CopSpoke) (echo : Nat) :
    (d.updCopper n fun y' => { y' with frame := (c.atc + y.lineAdv) / frameTc + 1, sent := [] }).framePair c y
      ((c.atc + y.lineAdv) / frameTc * frameTc - y.lineAdv) (4 * (n - 128)) (bit echo (4 * (n - 128) % 4)) =
        d.superframed c n y echo := rfl

/-- Bytes that the only pair of a spoke carries in a superframe (R472). -/
def Dev.superframeBytes (c : Clock) (d : Dev) (n : Nat) (y : CopSpoke) (echo : Nat) : Nat :=
  ((d.superframed c n y echo).lineBits [4 * (n - 128)] ((c.atc + y.lineAdv) / frameTc * frameTc - y.lineAdv) - 16) * 1022 / 8

section
variable {s : State} {spoke : Nat} {y : CopSpoke}

theorem exec_lineSuperframe_active {echo : Nat} (hy : s.dev.copper spoke = some y) (hon : y.dis = .on) (hmode : y.mode = 0)
    (hmask : y.mask = 1) (hchange : y.change = none) (hactive : y.active = false)
    (hst : (s.dev.pair (4 * (spoke - 128))).st = .active) (hswap : (s.dev.pair (4 * (spoke - 128))).swapAt = none)
    (hframe : y.frame ≠ (s.clk.atc + y.lineAdv) / 19660800 + 1) :
    exec (.lineSuperframe spoke echo) s = .next { s with
      dev := (s.dev.superframed s.clk spoke y echo).pump spoke [4 * (spoke - 128)]
        (s.dev.superframeBytes s.clk spoke y echo) } := by
  have hlive := CopSpoke.livePairs_one hmask hchange spoke
  have hpair : ((s.dev.superframed s.clk spoke y echo).pair (4 * (spoke - 128))).st = .active := by
    unfold Dev.superframed
    rw [Dev.pair_framePair_active hmode (by rw [Dev.pair_updCopper]; exact hst) (by rw [Dev.pair_updCopper]; exact hswap)]
    exact (PairCh.framed_active (by rw [Dev.pair_updCopper]; exact hst) _).1
  have hframe' : ¬ y.frame = (s.clk.atc + y.lineAdv) / frameTc + 1 := hframe
  have hrest : y.resting = false := by simp [CopSpoke.resting, hon]
  show execLineSuperframe spoke echo s = _
  unfold execLineSuperframe
  simp only [onDev_eq, hy, hrest, Bool.or_false, decide_eq_true_eq, if_neg hframe', hlive, List.foldl_cons, List.foldl_nil,
    Dev.framePair_superframed]
  simp [hmask, maskPairs_one, hactive, hmode, hpair, Dev.superframeBytes]

theorem Dev.copper_superframed {d : Dev} (hy : d.copper spoke = some y) (hmode : y.mode = 0)
    (hst : (d.pair (4 * (spoke - 128))).st = .active) (c : Clock) (echo : Nat) :
    (d.superframed c spoke y echo).copper spoke =
      some { y with frame := (c.atc + y.lineAdv) / frameTc + 1, sent := [] } := by
  unfold Dev.superframed
  rw [Dev.framePair_active hmode (by rw [Dev.pair_updCopper]; exact hst), Dev.copper_updPair, Dev.copper_updPair,
    Dev.copper_updCopper, hy]
  rfl

theorem Dev.header_superframed {d : Dev} (hmode : y.mode = 0) (hst : (d.pair (4 * (spoke - 128))).st = .active)
    (hswap : (d.pair (4 * (spoke - 128))).swapAt = none) (c : Clock) (echo : Nat) :
    ((d.superframed c spoke y echo).pair (4 * (spoke - 128))).header =
      headerBits 0 0 1022 ((d.shadow 5 (4 * (spoke - 128))).seq % 16) ((d.shadow 5 (4 * (spoke - 128))).seq % 16) := by
  unfold Dev.superframed
  rw [Dev.pair_framePair_active hmode (by rw [Dev.pair_updCopper]; exact hst) (by rw [Dev.pair_updCopper]; exact hswap)]
  refine (PairCh.framed_active (by rw [Dev.pair_updCopper]; exact hst) _).2.trans ?_
  unfold Dev.shadow
  rw [Dev.updCopper_air]

end

/-! ### Reception (R466, R477-R481) -/

section
variable {s : State} {pair : Nat} {y : CopSpoke}

theorem exec_syncMatch_within {q errs : Nat} (hy : s.dev.pairSpoke pair = some y) (hmode : y.mode = 0)
    (hboundary : (q + y.lineAdv) % 19660800 = 0) (hdue : q + 19200 ≤ s.clk.atc) (htol : errs ≤ y.syncTol)
    (hst : (s.dev.pair pair).st = .active) (power : Nat) :
    exec (.syncMatch pair q errs power) s = .next { s with dev := s.dev.updPair pair fun p =>
      { p with cand := some { q := q, errs := errs, strength := levelOf power 4 } } } := by
  have hplace : ((q + y.lineAdv) % frameTc != 0) = false := bne_eq_false_iff_eq.2 hboundary
  show execSyncMatch pair q errs power s = _
  unfold execSyncMatch
  simp only [onDev_eq, hy, hst, hmode, hplace, decide_eq_false (Nat.not_lt.2 hdue), decide_eq_false (Nat.not_lt.2 htol),
    reduceCtorEq, decide_false, Bool.or_false, Bool.false_eq_true, if_false, if_true]

theorem exec_syncMatch_beyond {errs : Nat} (hy : s.dev.pairSpoke pair = some y) (htol : y.syncTol < errs) (q power : Nat) :
    exec (.syncMatch pair q errs power) s = .next s := by
  show execSyncMatch pair q errs power s = _
  unfold execSyncMatch
  simp only [onDev_eq, hy, decide_eq_true htol, Bool.or_true, Bool.true_or, if_true]

theorem exec_headerDecision_good {header : Nat} {o : SyncCand} (hy : s.dev.pairSpoke pair = some y) (hmode : y.mode = 0)
    (hcand : (s.dev.pair pair).cand = some o) (hdue : o.q + 38400 ≤ s.clk.atc) (hst : (s.dev.pair pair).st = .load)
    (hcrc : bits header 48 16 = crc16 (bits header 0 48)) (hdir : bits header 4 1 = 1) :
    exec (.headerDecision pair header) s = .next { s with dev := s.dev.updPair pair fun p =>
      { p with cand := none, synced := true
               burst := some (o.q + 38400 + 19200 * bits header 5 10, bits header 0 4, true)
               strength := tput p.strength (bits header 0 4) (o.strength, o.q) } } := by
  show execHeaderDecision pair header s = _
  unfold execHeaderDecision
  have hused : ((s.dev.pair pair).st != .active || s.dev.tseqOk pair s.clk.atc (bits header 15 4)) = true := by simp [hst]
  simp only [onDev_eq, hy, hcand, if_neg (Nat.not_lt.2 hdue), hcrc, hdir, hmode, hused, bne_self_eq_false, Nat.zero_ne_one,
    decide_false, Bool.false_and, Bool.or_false, Bool.false_eq_true, if_false, if_true]

theorem exec_headerDecision_bad {header : Nat} {o : SyncCand} (hy : s.dev.pairSpoke pair = some y)
    (hcand : (s.dev.pair pair).cand = some o) (hdue : o.q + 38400 ≤ s.clk.atc)
    (hcrc : bits header 48 16 ≠ crc16 (bits header 0 48)) :
    exec (.headerDecision pair header) s = .next { s with dev := s.dev.updPair pair fun p =>
      { (p.count 1 1) with cand := none } } := by
  show execHeaderDecision pair header s = _
  unfold execHeaderDecision
  simp [onDev_eq, hy, hcand, Nat.not_lt.2 hdue, hcrc]

theorem exec_burstEnd_over {x : Nat × Nat × Bool} (hburst : (s.dev.pair pair).burst = some x) (hover : x.1 ≤ s.clk.atc) :
    exec (.burstEnd pair) s = .next { s with dev := s.dev.updPair pair fun p => { p with burst := none } } := by
  show execBurstEnd pair s = _
  unfold execBurstEnd
  rw [onDev_eq, Dev.updPair_congr (g := fun p => { p with burst := none })]
  simp [hburst, hover]

/-- A link frame whose length or CRC is bad is counted, and its time kept for CRC_LIMIT (R466, R487). -/
theorem exec_linkFrameReceive_bad {frame : List Byte} (hy : s.dev.copper (pairSpokeNo pair) = some y)
    (hst : (s.dev.pair pair).st = .load) (hawake : s.dev.awake (copBlock (pairSpokeNo pair)) = true)
    (hbad : frame.length ≠ 12 + fieldBe frame 2 2 ∨
      fieldBe frame (8 + fieldBe frame 2 2) 4 ≠ crc32 (frame.take (8 + fieldBe frame 2 2))) :
    exec (.linkFrameReceive pair frame) s = .next { s with
      dev := (s.dev.updPair pair fun p => p.count 0 1).updCopper (pairSpokeNo pair) fun y =>
        { y with crcWin := s.clk.atc :: y.crcWin.filter fun t => s.clk.atc < t + 1966080000 } } := by
  have hfault : (frame.length != 12 + fieldBe frame 2 2 || decide (16384 < fieldBe frame 2 2) ||
      fieldBe frame (8 + fieldBe frame 2 2) 4 != crc32 (frame.take (8 + fieldBe frame 2 2))) = true := by
    obtain h | h := hbad <;> simp [h]
  show execLinkFrameReceive pair frame s = _
  unfold execLinkFrameReceive
  simp only [onDev_eq, hy, hst, hawake, hfault, reduceCtorEq, decide_false, Bool.not_true, Bool.or_false, Bool.false_eq_true,
    if_false, Bool.false_and, if_true]

theorem fieldAt_take_drop {bs : List Byte} {o n i : Nat} (h : i < n) : fieldAt ((bs.drop o).take n) i 1 = fieldAt bs (o + i) 1 := by
  unfold fieldAt
  rw [List.drop_take, List.take_take, List.drop_drop, Nat.min_eq_left (by omega)]

/-- A DETECT_REPLY with the mode's capability takes a pair to PROBE (R486). -/
theorem exec_linkFrameReceive_detectReply {frame : List Byte} (hy : s.dev.copper (pairSpokeNo pair) = some y)
    (hmode : y.mode = 0) (hst : (s.dev.pair pair).st = .detect)
    (hawake : s.dev.awake (copBlock (pairSpokeNo pair)) = true) (hlen : frame.length = 12 + fieldBe frame 2 2)
    (hcrc : fieldBe frame (8 + fieldBe frame 2 2) 4 = crc32 (frame.take (8 + fieldBe frame 2 2)))
    (hsize : 11 ≤ fieldBe frame 2 2 ∧ fieldBe frame 2 2 ≤ 16384) (htype : fieldAt frame 0 1 = 1)
    (hsub : fieldAt frame 8 1 = 2) (hcap : bit (fieldAt frame 18 1) 0 = true) :
    exec (.linkFrameReceive pair frame) s = .next { s with dev := s.dev.updPair pair fun q =>
      { q with st := .probe, since := s.clk.atc, rp := 0, reported := false } } := by
  have hbody : ((frame.drop 8).take (fieldBe frame 2 2)).length = fieldBe frame 2 2 := by
    rw [List.length_take, List.length_drop]; omega
  have hkind : fieldAt ((frame.drop 8).take (fieldBe frame 2 2)) 0 1 = 2 := by
    rw [fieldAt_take_drop (by omega)]; exact hsub
  have hmodes : bit (fieldAt ((frame.drop 8).take (fieldBe frame 2 2)) 10 1) 0 = true := by
    rw [fieldAt_take_drop (by omega)]; exact hcap
  have hgood : (frame.length != 12 + fieldBe frame 2 2 || decide (16384 < fieldBe frame 2 2) ||
      fieldBe frame (8 + fieldBe frame 2 2) 4 != crc32 (frame.take (8 + fieldBe frame 2 2))) = false := by
    simp [hlen, hcrc, hsize.2]
  show execLinkFrameReceive pair frame s = _
  unfold execLinkFrameReceive
  simp only [onDev_eq, hy, hst, hawake, hgood, htype, Dev.copControl, hkind, Dev.onDetectReply, hbody, hmode, hmodes,
    decide_eq_false (Nat.not_lt.2 hsize.1)]
  simp [PairCh.enter]

/-! ### Bring-up, swaps and faults (R482, R486-R488) -/

/-- A failure that is not the 16th in a row only starts the wait (R486). -/
theorem Dev.copFail_wait {d : Dev} (hy : d.copper (pairSpokeNo pair) = some y) (hfails : y.fails < 15) (c : Clock) (reason : Nat) :
    d.copFail c pair reason = (d.updPair pair fun q => { q.fresh c.atc .wait with
      waitEnd := c.atc + 19660800 * 2 ^ min (y.fails + 1) 7 }).updCopper (pairSpokeNo pair) fun y' =>
        { y' with fails := y.fails + 1, reason := reason } := by
  unfold Dev.copFail
  dsimp only
  rw [hy]
  simp only [Nat.ne_of_lt hfails, if_false]
  rw [Nat.min_eq_left (by omega : y.fails + 1 ≤ 255)]

theorem exec_copBringupTimeout_echo (hy : s.dev.copper (pairSpokeNo pair) = some y)
    (hst : (s.dev.pair pair).st = .echo) (hlate : (s.dev.pair pair).since + 983040000 ≤ s.clk.atc) :
    exec (.copBringupTimeout pair) s = .next { s with dev := s.dev.copFail s.clk pair 3 } := by
  show execCopBringupTimeout pair s = _
  unfold execCopBringupTimeout
  simp [onDev_eq, hy, hst, hlate]

/-- The block in which a receiver's SNR for radio point `rp` in direction `dir` is measured anew (R463). -/
def Dev.measured (d : Dev) (p dir rp : Nat) : Dev :=
  (measure d).2.updPair p fun q =>
    { q with snr := tput q.snr (16 * dir + rp) ((measure d).1, (tget ([], []) q.snr (16 * dir + rp)).2) }

theorem exec_autoSwap_active {up : Bool} (hy : s.dev.copper (pairSpokeNo pair) = some y) (hauto : y.autoSwap = true)
    (hactive : y.active = true) (hhere : s.dev.breanoAway = false) (hst : (s.dev.pair pair).st = .active)
    (hup : (s.dev.pair pair).up = 1) :
    exec (.autoSwap pair up) s = .next { s with
      dev := (s.dev.measured pair up.toNat 0).writeTable s.clk pair up.toNat
        ((s.dev.measured pair up.toNat 0).formTable y (pairSpokeNo pair)
          (((s.dev.measured pair up.toNat 0).pair pair).snrOver up.toNat ((s.dev.measured pair up.toNat 0).pair pair).up))
        false } := by
  have hones : ones 16 1 = [0] := by decide
  show execAutoSwap pair up s = _
  unfold execAutoSwap
  simp [onDev_eq, hy, hauto, hactive, hhere, hst, hup, hones, Dev.measured]

end

section
variable {s : State} {spoke : Nat} {y : CopSpoke}

/-- The block in which a spoke whose margin fell below 0 dB has left ACTIVE (R487). -/
def Dev.marginLost (c : Clock) (d : Dev) (n : Nat) (y : CopSpoke) : Dev :=
  (((d.trouble (copBlock n) trbLINK).copStop n).updCopper n fun y => { y with reason := 7 }).copDown c n 7 y.fails

theorem exec_copDown_margin (hy : s.dev.copper spoke = some y) (hactive : y.active = true) (hmask : y.mask = 1)
    (hchange : y.change = none) (pair : Nat) :
    exec (.copDown spoke 2 pair) s = .next { s with
      dev := (s.dev.marginLost s.clk spoke y).updPair (4 * (spoke - 128)) fun q =>
        { q.fresh s.clk.atc .test with test := (s.clk.atc + 1, none) } } := by
  show execCopDown spoke 2 pair s = _
  unfold execCopDown
  simp [onDev_eq, hy, hactive, hmask, maskPairs_one, CopSpoke.livePairs_one hmask hchange, Dev.marginLost]

theorem Dev.copper_marginLost {d : Dev} (hy : d.copper spoke = some y) (hmark : y.mark = 0xFFFF) (c : Clock) :
    (d.marginLost c spoke y).copper spoke = some { y.stopped with reason := 7 } := by
  unfold Dev.marginLost
  rw [Dev.copper_congr (Dev.copDown_cop ..), Dev.copper_updCopper,
    Dev.copper_copStop (d := d.trouble (copBlock spoke) trbLINK) hy hmark]
  rfl

theorem CopSpoke.stopped_unchanged (hchange : y.change = none) :
    y.stopped = { y with active := false, window := false, queue := [], crcWin := [] } := by
  cases y; subst hchange; rfl

theorem CopSpoke.stopped_empty (hqueue : y.queue = []) (hchange : y.change = none) :
    { y.stopped with dis := .disabled } = { y with active := false, window := false, crcWin := [], dis := .disabled } := by
  cases y; subst hqueue hchange; rfl

/-- A transient fault alone is not the fourth within a day (R383). -/
theorem fourth_recent_nil (now kind unit : Nat) : fourth kind unit (recentTransients now kind unit []) = false := by
  simp [fourth, recentTransients]

/-- The block in which the first transient fault of a pair is counted (R488). -/
def Dev.pairTransient (c : Clock) (d : Dev) (pair : Nat) : Dev :=
  ((d.updPair pair fun q => { q with test := (0, none), retired := q.retired || false }).updMem fun m =>
    { m with transients := recentTransients c.atc kindPair pair [] }).trouble (copBlock (pairSpokeNo pair)) trbTRANSIENT

theorem Dev.pair_pairTransient (c : Clock) (d : Dev) (p : Nat) :
    (d.pairTransient c p).pair p = { d.pair p with test := (0, none) } := by
  unfold Dev.pairTransient
  rw [Dev.pair_congr (Dev.trouble_cop ..), Dev.pair_congr (Dev.updMem_cop ..), Dev.pair_updPair, Bool.or_false]

theorem exec_pairSelftestDone_pass {pair at_ : Nat} (hy : s.dev.copper (pairSpokeNo pair) = some y)
    (htest : (s.dev.pair pair).test = (at_, none)) (hat : at_ ≠ 0) (hdue : at_ + 19660800 ≤ s.clk.atc + 1)
    (hfirst : s.dev.mem.transients = []) (hst : (s.dev.pair pair).st = .test) :
    exec (.pairSelftestDone pair true) s = .next { s with dev := (s.dev.pairTransient s.clk pair).updPair pair fun q =>
      { q with st := .wait, since := s.clk.atc, waitEnd := s.clk.atc + 19660800 * 2 ^ min y.fails 7 } } := by
  have hcopper : (s.dev.pairTransient s.clk pair).copper (pairSpokeNo pair) = some y := by
    unfold Dev.pairTransient
    rw [Dev.copper_congr (Dev.trouble_cop ..), Dev.copper_congr (Dev.updMem_cop ..), Dev.copper_updPair, hy]
  unfold Dev.pairTransient at hcopper ⊢
  show execPairSelftestDone pair true s = _
  unfold execPairSelftestDone
  simp only [onDev_eq, htest, decide_eq_false hat, decide_eq_false (Nat.not_lt.2 hdue), hfirst, fourth_recent_nil, hst,
    Bool.or_false, Bool.not_true, Option.isNone_none, Option.isSome_none, Bool.and_false, Bool.false_eq_true, if_false]
  simp only [Bool.or_false] at hcopper
  simp only [hcopper, if_true, PairCh.enter]

theorem HostOnly.storeOne (d : Dev) (f a : Nat) (x : List Byte) : HostOnly d (d.updHost fun h => h.store f a x) := ⟨rfl, rfl⟩

/-! ### Disable, pair changes, qualification (R489, R490, R492) -/

theorem exec_copDisabled_drained {tD tag : Nat} {abort : Bool} (hy : s.dev.copper spoke = some y)
    (hdis : y.dis = .ending abort tD tag) (hqueue : y.queue = []) (hmask : y.mask = 1) (hchange : y.change = none) :
    exec (.copDisabled spoke) s = .next { s with
      dev := (((s.dev.copStop spoke).updCopper spoke fun y => { y with dis := .disabled }).updPair (4 * (spoke - 128)) fun q =>
        { q.fresh s.clk.atc .disabled with test := (0, none) }).evt0 s.clk 0x0982 tag [(0, 1, spoke), (1, 1, abort.toNat)] } := by
  show execCopDisabled spoke s = _
  unfold execCopDisabled Dev.copFinish
  simp [onDev_eq, hy, hdis, hqueue, CopSpoke.livePairs_one hmask hchange]

theorem exec_copPairsDone_same {tag : Nat} (hy : s.dev.copper spoke = some y) (hmask : y.mask = 1)
    (hchange : y.change = some (1, tag)) (hst : (s.dev.pair (4 * (spoke - 128))).st = .active) :
    exec (.copPairsDone spoke) s = .next { s with dev := (s.dev.updCopper spoke fun y =>
      { y.regroup spoke 1 with mask := 1, change := none }).evt0 s.clk 0x0986 tag [(0, 1, spoke), (1, 1, 1)] } := by
  have hones : ones 4 1 = [0] := by decide
  have hbit : bit 1 0 = true := by decide
  show execCopPairsDone spoke s = _
  unfold execCopPairsDone
  simp [onDev_eq, hy, hchange, hmask, hones, hbit, pairIdx, hst]

section
variable {pair tag margin addr len : Nat} (hasked : (s.dev.pair pair).qualify = some (tag, margin, addr, len))
include hasked

theorem exec_copQualifyDone_noPeer :
    exec (.copQualifyDone pair true) s = .next { s with
      dev := (s.dev.updPair pair fun q => { q with qualify := none }).evt0 s.clk 0x0987 tag [(0, 1, pair), (1, 1, 1)] } := by
  show execCopQualifyDone pair true s = _
  unfold execCopQualifyDone
  simp [onDev_eq, hasked]

/-- With a peer, what the line gives is measured twice; the rest happens in host memory. -/
theorem exec_copQualifyDone_peer : ∃ e, exec (.copQualifyDone pair false) s = .next { s with dev := e } ∧
    HostOnly (measure (measure (s.dev.updPair pair fun q => { q with qualify := none })).2).2 e := by
  refine ⟨?block, ?exec, ?host⟩
  case exec =>
    show execCopQualifyDone pair false s = _
    unfold execCopQualifyDone
    simp only [onDev_eq, hasked, Bool.false_eq_true, if_false]
    rfl
  case host => exact .trans (.storeOne ..) (.evt ..)

end

end

/-! ### A table that awaits its TABLE_ACK (R482) -/

section
variable {d : Dev} {p dir : Nat}

theorem Dev.writeTable_awaited (hup : (d.pair p).up ≠ 0) (c : Clock) (t : List Nat) :
    d.writeTable c p dir t false =
      ((d.tableWritten c p dir t).sendTables p dir (d.pair p).up).updPair p fun q =>
        { q with toArm := true, need := if dir = 0 then ((d.pair p).up, q.need.2) else (q.need.1, (d.pair p).up) } := by
  simp [Dev.writeTable_eq, hup]

theorem Dev.pair_writeTable_awaited (hup : (d.pair p).up ≠ 0) (c : Clock) (t : List Nat) :
    (d.writeTable c p dir t false).pair p =
      { d.pair p with toArm := true, need := if dir = 0 then ((d.pair p).up, (d.pair p).need.2) else
                        ((d.pair p).need.1, (d.pair p).up) } := by
  rw [Dev.writeTable_awaited hup, Dev.pair_updPair, Dev.pair_sendTables]
  rfl

theorem Dev.loadOf_writeTable_awaited (hup : (d.pair p).up ≠ 0) (c : Clock) (t : List Nat) :
    (d.writeTable c p dir t false).loadOf p =
      (d.loadOf p).write c.atc ((d.shadow 5 p).landing c.atc) fun y => y.setDir dir t := by
  rw [Dev.writeTable_awaited hup, Dev.loadOf_updPair, Dev.loadOf_sendTables, Dev.loadOf_tableWritten]

theorem Dev.free_writeTable_awaited (hup : (d.pair p).up ≠ 0) (c : Clock) (t : List Nat) :
    (d.writeTable c p dir t false).free = d.free := by
  rw [Dev.writeTable_awaited hup, Dev.updPair_free, Dev.sendTables_keeps Dev.free (fun _ _ => rfl)]
  rfl

theorem LoadTab.dir_setDir_other (t : LoadTab) (up : Bool) (l : List Nat) : (t.setDir up.toNat l).dir (!up).toNat = t.dir (!up).toNat := by
  cases up <;> rfl

end

theorem HostOnly.cop {d e : Dev} (h : HostOnly d e) : e.cop = d.cop := by rw [h.dev]

/-- Settles O31: each event has its lemma above. -/
theorem copperLine : Obligations.CopperLine := by
  unfold Obligations.CopperLine
  refine ⟨?superframe, ?within, ?beyond, ?good, ?bad, ?ended, ?badFrame, ?reply, ?echo, ?swap, ?down, ?pass, ?disabled, ?pairs,
    ?noPeer, ?peer⟩
  case superframe =>
    intro s spoke echo y hspoke hy hrest hst hswap hframe
    obtain ⟨hon, hmode, hmask, hchange, hactive, hqueue, hpart⟩ := hrest
    refine ⟨_, exec_lineSuperframe_active hy hon hmode hmask hchange hactive hst hswap hframe, ?_, ?_⟩
    · exact Dev.pump_idle (Dev.copper_superframed hy hmode hst s.clk echo) hqueue hpart
    · rw [Dev.pair_pump]
      exact Dev.header_superframed hmode hst hswap s.clk echo
  case within =>
    intro s pair q errs power y hy hmode hboundary hdue htol hst
    exact exec_syncMatch_within hy hmode hboundary hdue htol hst power
  case beyond =>
    intro s pair q errs power y hy htol
    exact exec_syncMatch_beyond hy htol q power
  case good =>
    intro s pair header y o hy hmode hcand hdue hst hcrc hdir
    exact exec_headerDecision_good hy hmode hcand hdue hst hcrc hdir
  case bad =>
    intro s pair header y o hy hcand hdue hcrc
    refine ⟨_, exec_headerDecision_bad hy hcand hdue hcrc, ?_, ?_, ?_⟩ <;> rw [Dev.pair_updPair]
    · rfl
    · exact (PairCh.stat_count ..).trans (if_pos rfl)
  case ended =>
    intro s pair x hburst hended
    exact exec_burstEnd_over hburst hended
  case badFrame =>
    intro s pair frame y hy hst hawake hbad
    refine ⟨_, exec_linkFrameReceive_bad hy hst hawake hbad, ?_, ?_, Dev.updCopper_host .., Dev.updCopper_mem ..⟩ <;>
      rw [Dev.pair_updCopper, Dev.pair_updPair]
    · exact (PairCh.stat_count ..).trans (if_pos rfl)
    · exact hst
  case reply =>
    intro s pair frame y hy hmode hst hawake hlen hcrc hsize htype hsub hcap
    exact exec_linkFrameReceive_detectReply hy hmode hst hawake hlen hcrc hsize htype hsub hcap
  case echo =>
    intro s pair y hy hmode hst hlate hfails
    refine ⟨_, exec_copBringupTimeout_echo hy hst hlate, ?_, ?_, ?_⟩ <;> rw [Dev.copFail_wait hy hfails]
    · rw [Dev.copper_updCopper, Dev.copper_updPair, hy]; rfl
    · rw [Dev.pair_updCopper, Dev.pair_updPair]; rfl
    · rw [Dev.pair_updCopper, Dev.pair_updPair]
  case swap =>
    intro s pair up y hy hauto hactive hhere hst hup
    have hup' : ((s.dev.measured pair up.toNat 0).pair pair).up ≠ 0 := by
      rw [Dev.measured, Dev.pair_updPair, Dev.pair_congr (measure_cop _)]
      simp [hup]
    refine ⟨_, exec_autoSwap_active hy hauto hactive hhere hst hup, Dev.free_writeTable_awaited hup' .., ?_, ?_, ?_, ?_⟩
    · rw [Dev.pair_writeTable_awaited hup']
    · rw [Dev.pair_writeTable_awaited hup', Dev.measured, Dev.pair_updPair, Dev.pair_congr (measure_cop _)]
      cases up <;> simp [hup]
    · rw [Dev.loadOf_writeTable_awaited hup']; rfl
    · rw [Dev.loadOf_writeTable_awaited hup', Inst.latest_write, LoadTab.dir_setDir_other]; rfl
  case down =>
    intro s spoke kind pair y hy hstate hkind
    obtain ⟨hactive, hmask, hchange, hmark⟩ := hstate
    subst hkind
    refine ⟨_, exec_copDown_margin hy hactive hmask hchange pair, ?_, ?_, ?_⟩
    · rw [Dev.copper_updPair, Dev.copper_marginLost hy hmark, CopSpoke.stopped_unchanged hchange]
    · rw [Dev.pair_updPair]; rfl
    · rw [Dev.pair_updPair]
  case pass =>
    intro s pair at_ pass y hy htest hat hpass hfirst hst
    subst hpass
    refine ⟨_, exec_pairSelftestDone_pass hy htest hat.1 hat.2 hfirst hst, ?_, ?_⟩
    · rw [Dev.pair_updPair, Dev.pair_pairTransient]
    · exact Dev.troubled_trouble _ _ (by decide)
  case disabled =>
    intro s spoke tD tag abort y hy hdis hstate
    obtain ⟨hqueue, hmark, hmask, hchange⟩ := hstate
    refine ⟨_, exec_copDisabled_drained hy hdis hqueue hmask hchange, ?_, ?_, ?_⟩
    · rw [Dev.copper_congr (Dev.evt0_cop ..), Dev.copper_updPair, Dev.copper_updCopper, Dev.copper_copStop hy hmark,
        Option.map_some, CopSpoke.stopped_empty hqueue hchange]
    · rw [Dev.pair_congr (Dev.evt0_cop ..), Dev.pair_updPair]; rfl
    · rw [Dev.pair_congr (Dev.evt0_cop ..), Dev.pair_updPair]
  case pairs =>
    intro s spoke tag y hy hmask hchange hst
    exact exec_copPairsDone_same hy hmask hchange hst
  case noPeer =>
    intro s pair tag margin addr len noPeer hasked hpeer
    subst hpeer
    exact exec_copQualifyDone_noPeer hasked
  case peer =>
    intro s pair tag margin addr len noPeer hasked hpeer
    subst hpeer
    obtain ⟨e, hexec, hhost⟩ := exec_copQualifyDone_peer hasked
    refine ⟨_, hexec, hhost.free, ?_, hhost.mem⟩
    rw [Dev.pair_congr hhost.cop, Dev.pair_congr ((measure_cop _).trans (measure_cop _)), Dev.pair_updPair]

end Sys2Proof.Machine
end

section
/-! Statement O32: the commands of copper spokes and pairs (R456, R460, R461, R476, R482, R483, R488-R490, R492, R493). -/
namespace Sys2Proof.Machine

@[simp] theorem noted_cop (d : Dev) : (noted d).cop = d.cop := rfl
@[simp] theorem answered_cop (c : Clock) (w : Waiting) (r : Reply) (d : Dev) : (answered c w r d).cop = d.cop := by
  unfold answered; rw [Dev.respond_dev]; rfl
@[simp] theorem noted_air (d : Dev) : (noted d).air = d.air := rfl
@[simp] theorem answered_air (c : Clock) (w : Waiting) (r : Reply) (d : Dev) : (answered c w r d).air = d.air := by
  unfold answered; rw [Dev.respond_dev]; rfl
@[simp] theorem answered_free (c : Clock) (w : Waiting) (r : Reply) (d : Dev) : (answered c w r d).free = d.free := by
  unfold answered; rw [Dev.respond_dev]; rfl

theorem copBad_of_lt {n : Nat} (h : 128 ≤ n ∧ n < 144) : copBad n = false := by
  simp [copBad, Nat.not_lt.2 h.1, Nat.not_le.2 h.2]

/-- The slot of a command says whether it is by reference (R57). -/
theorem Waits.isRef {s : State} {r : Req} {code : Nat} {w : Waiting} (hw : Waits s r code w) : s.dev.isRef r = bit w.flags 0 := by
  obtain ⟨hwait, hpage, hslot, -⟩ := hw
  simp [Dev.isRef, hwait, hpage, hslot]

section
variable {s : State} {r : Req} {w : Waiting} {spoke : Nat} {y : CopSpoke}

/-! ### Configuration, enable, disable, status (R456, R486, R489, R493) -/

theorem exec_copConfig_resting {mode mask lineAdv timed margin minMargin autoSwap syncWord syncTol syncBase syncStep ramp
    crcLimit : Nat} (hw : Waits s r 0x0901 w) (hn : 128 ≤ spoke ∧ spoke < 144) (hmode : mode ≤ 1) (hmask : mask ≠ 0 ∧ mask < 16)
    (hadv : lineAdv ≤ 983040 ∧ lineAdv % 2 = 0) (htimed : timed ≤ 1) (hauto : autoSwap ≤ 1) (htol : syncTol ≤ 12)
    (hramp : 8 ≤ ramp ∧ ramp ≤ 256)
    (hpairs : ((maskPairs spoke mask).any fun p => (s.dev.pair p).retired || !s.dev.pairFitted p) = false)
    (hplace : placementOk (s.dev.copMask spoke) syncBase syncStep = true) (hy : s.dev.copper spoke = some y)
    (hrest : y.resting = true) :
    exec (.copConfig r spoke mode mask lineAdv timed margin minMargin autoSwap syncWord syncTol syncBase syncStep ramp crcLimit)
      s = .next { s with dev := answered s.clk w rOk (noted (s.dev.updCop fun x => { x with
        spokes := tput x.spokes spoke {
          mode := mode, mask := mask, lineAdv := lineAdv, timed := timed = 1, margin := margin, minMargin := minMargin
          autoSwap := autoSwap = 1, syncWord := syncWord, syncTol := syncTol, syncBase := syncBase, syncStep := syncStep
          ramp := ramp, crcLimit := crcLimit } })) } := by
  refine onDev_serve_journalled hw (by decide) (.inl rfl) (fits_zero w) rfl ?_
  simp only [copBad_of_lt hn, Nat.not_lt.2 hmode, decide_eq_false hmask.1, decide_eq_false (Nat.not_le.2 hmask.2), hpairs,
    decide_eq_false (Nat.not_lt.2 hadv.1), show decide (lineAdv % 2 = 1) = false by simp [hadv.2], Nat.not_lt.2 htimed,
    Nat.not_lt.2 hauto, Nat.not_lt.2 htol, hplace, decide_eq_false (Nat.not_lt.2 hramp.1),
    decide_eq_false (Nat.not_lt.2 hramp.2), hy, Option.any_some, hrest, Option.isSome_some, Bool.or_false, Bool.not_true,
    Bool.false_eq_true, if_false, if_true]

theorem exec_copEnable_resting (hw : Waits s r 0x0902 w) (hn : 128 ≤ spoke ∧ spoke < 144) (hy : s.dev.copper spoke = some y)
    (hrest : y.resting = true) (hmask : y.mask = 1) (hkept : (s.dev.pair (4 * (spoke - 128))).retired = false) :
    exec (.copEnable r spoke) s = .next { s with dev := answered s.clk w rOk (noted
      ((s.dev.updCopper spoke fun y => { y with dis := .on, fails := 0, reason := 0 }).startPair s.clk (4 * (spoke - 128)))) } := by
  have hidle : y.dis.isEnding = false := by
    cases h : y.dis <;> simp_all [CopSpoke.resting, Dis.isEnding]
  refine onDev_serve_journalled hw (by decide) (.inl rfl) (fits_zero w) ?_ ?_
  · exact (Dev.updCopper_host ..).trans (Dev.updCopper_host ..)
  · simp [copBad_of_lt hn, hy, hidle, hrest, hmask, maskPairs_one, hkept]

theorem exec_copEnable_unconfigured (hw : Waits s r 0x0902 w) (hn : 128 ≤ spoke ∧ spoke < 144)
    (hnone : s.dev.copper spoke = none) :
    exec (.copEnable r spoke) s = .next { s with dev := answered s.clk w (rSt stBADSTATE) s.dev } := by
  refine onDev_serve_refused hw (by decide) (fits_zero w) ?_
  simp [copBad_of_lt hn, hnone]

theorem exec_copDisable_on {mode : Nat} (hw : Waits s r 0x0903 w) (hfit : Fits w 8) (hn : 128 ≤ spoke ∧ spoke < 144)
    (hmode : mode ≤ 1) (hy : s.dev.copper spoke = some y) (hidle : y.dis.isEnding = false) :
    exec (.copDisable r spoke mode) s = .next { s with
      dev := answered s.clk w (rAcc [(8, s.clk.atc)]) (noted (s.dev.updCopper spoke fun y =>
        { y with dis := .ending (mode = 1) s.clk.atc w.tag, queue := if mode = 1 then [] else y.queue })) } := by
  refine onDev_serve_journalled hw (by decide) (.inr rfl) hfit (Dev.updCopper_host ..) ?_
  simp [copBad_of_lt hn, Nat.not_lt.2 hmode, hy, hidle]

theorem Dev.pairBits_nil (d : Dev) (dir : Nat) : d.pairBits [] dir = 0 := rfl

theorem exec_copStatus_down (hw : Waits s r 0x0904 w) (hfit : Fits w 34) (hn : 128 ≤ spoke ∧ spoke < 144)
    (hy : s.dev.copper spoke = some y) (hmask : y.mask = 1) (hdown : (s.dev.pair (4 * (spoke - 128))).st ≠ .active) :
    exec (.copStatus r spoke) s = .next { s with
      dev := answered s.clk w (rOk (((List.range 4).map fun x => (1, (s.dev.pair (4 * (spoke - 128) + x)).st.code)) ++
        [(1, y.reason), (1, y.fails), (4, 0), (4, 0), (2, Config.freeNat s.dev.free), (2, Config.freeNat (s.dev.free + 1))] ++
        ((List.range 4).flatMap fun x => [(2, (s.dev.shadow 5 (4 * (spoke - 128) + x)).seq),
          (2, (s.dev.shadow 5 (4 * (spoke - 128) + x)).seq)]))) { s.dev with free := s.dev.free + 2 } } := by
  refine onDev_serve_unjournalled hw (by decide) hfit rfl ?_
  simp only [copBad_of_lt hn, hy, hmask, maskPairs_one, Bool.false_eq_true, if_false]
  simp [hdown, Dev.pairBits_nil, netRate, draw, pairIdx, List.flatMap_map]
  rfl

theorem exec_copMaskSet_resting {nguard : Nat} {points notches : List Nat} (hw : Waits s r 0x0905 w)
    (hn : 128 ≤ spoke ∧ spoke < 144) (hguard : nguard ≤ 64) (hpoints : 2 ≤ points.length ∧ points.length ≤ 64)
    (hnotches : notches.length ≤ 32) (hfault : pointsFault (points.map breakpoint) = none)
    (horder : (notches.all fun v => v % 65536 ≤ v / 65536 && v / 65536 < 4096) = true)
    (hweak : (CopMask.mk (points.map breakpoint) nguard (notches.map fun v => (v % 65536, v / 65536))).tooStrong = false)
    (hrest : ((s.dev.copper spoke).all fun y => y.resting) = true) :
    exec (.copMaskSet r spoke nguard points notches) s = .next { s with
      dev := answered s.clk w rOk (noted (s.dev.updCop fun x => { x with
        masks := tset {} x.masks spoke {
          points := points.map breakpoint, nguard := nguard, notches := notches.map fun v => (v % 65536, v / 65536) } })) } := by
  have hplaced : ((notches.map fun v => (v % 65536, v / 65536)).findIdx? fun e => e.2 < e.1 || 4096 ≤ e.2) = none := by
    simpa [List.findIdx?_eq_none_iff] using horder
  have hidle : ((s.dev.copper spoke).any fun y => !y.resting) = false := by
    cases h : s.dev.copper spoke with
    | none => rfl
    | some y => simpa [h] using hrest
  refine onDev_serve_journalled hw (by decide) (.inl rfl) (fits_zero w) rfl ?_
  simp only [decide_eq_false (Nat.not_lt.2 hn.1), decide_eq_false (Nat.not_le.2 hn.2), Nat.not_lt.2 hguard,
    decide_eq_false (Nat.not_lt.2 hpoints.1), decide_eq_false (Nat.not_lt.2 hpoints.2), hfault, hplaced,
    Nat.not_lt.2 hnotches, hweak, hidle, Bool.or_false, Bool.false_eq_true, if_false]

end

section
variable {s : State} {r : Req} {w : Waiting} {spoke pair : Nat} {y : CopSpoke}

/-! ### Tables (R482, R483) -/

/-- The block in which a table is written, sent and armed at once (FORCE). -/
def Dev.tableForced (c : Clock) (d : Dev) (p dir : Nat) (t : List Nat) : Dev :=
  ((d.tableWritten c p dir t).sendTables p dir (d.pair p).up).armPair c p

theorem exec_copLoadWrite_force {dir : Nat} {table : List Nat} (hw : Waits s r 0x0906 w) (hpair : pair < 64) (hdir : dir ≤ 1)
    (hlen : table.length = 4096) (hy : s.dev.pairSpoke pair = some y) (hauto : y.autoSwap = false)
    (hfault : s.dev.tableFault (pairSpokeNo pair) table = none) :
    exec (.copLoadWrite r pair dir 1 table) s = .next { s with
      dev := answered s.clk w rOk (noted (s.dev.tableForced s.clk pair dir table)) } := by
  refine onDev_serve_journalled hw (by decide) (.inl rfl) (fits_zero w) ?_ ?_
  · exact Dev.sendTables_keeps Dev.host (fun _ _ => rfl) (s.dev.tableWritten s.clk pair dir table) pair dir _
  · simp [Nat.not_le.2 hpair, Nat.not_lt.2 hdir, hlen, hy, hauto, hfault, Dev.writeTable_eq, Dev.tableForced]

theorem Dev.cop_armPair (c : Clock) (d : Dev) (p : Nat) : (d.armPair c p).cop = d.cop := rfl

theorem Dev.loadOf_tableForced (c : Clock) (d : Dev) (p dir : Nat) (t : List Nat) :
    (d.tableForced c p dir t).loadOf p =
      (d.loadOf p).write c.atc ((d.shadow 5 p).landing c.atc) fun y => y.setDir dir t := by
  unfold Dev.tableForced
  rw [Dev.loadOf_congr (Dev.cop_armPair ..), Dev.loadOf_sendTables, Dev.loadOf_tableWritten]

theorem Dev.pair_tableForced (c : Clock) (d : Dev) (p dir : Nat) (t : List Nat) : (d.tableForced c p dir t).pair p = d.pair p := by
  unfold Dev.tableForced
  rw [Dev.pair_congr (Dev.cop_armPair ..), Dev.pair_sendTables]
  rfl

theorem Dev.armed_tableForced (c : Clock) (d : Dev) (p dir : Nat) (t : List Nat) :
    ((d.tableForced c p dir t).shadow 5 p).latest = true := by
  unfold Dev.tableForced Dev.armPair
  rw [Dev.shadow_updShadow, if_pos rfl, Shadow.latest_touched]

theorem exec_copLoadRead_inline {dir set : Nat} (hw : Waits s r 0x0907 w) (hfit : Fits w 2) (hpair : pair < 64) (hdir : dir ≤ 1)
    (hset : set ≤ 1) (hinline : bit w.flags 0 = false) :
    exec (.copLoadRead r pair dir set) s = .next { s with
      dev := answered s.clk w { status := stOK, payload := le 2 (s.dev.shadow 5 pair).seq } s.dev } := by
  refine onDev_serve_noFx hw (by decide) hfit ?_
  simp [Nat.not_le.2 hpair, Nat.not_lt.2 hdir, Nat.not_lt.2 hset, hw.isRef, hinline]

/-! ### Measurements, plans, pairs and counters (R463, R476, R488-R490, R492, R493) -/

/-- The SNR and the noise of each sub-carrier, as they are read. -/
def snrBytes (v : List Nat × List Nat) : List Byte :=
  (List.range 4096).flatMap fun i => le 2 (v.1.getD i 0) ++ le 2 (v.2.getD i 0)

theorem length_snrBytes (v : List Nat × List Nat) : (snrBytes v).length = 16384 := by
  simp only [snrBytes, List.length_flatMap, List.length_append, le_length, List.map_const', List.sum_replicate,
    List.length_range, smul_eq_mul]

theorem exec_copSnrRead_active {dir rp : Nat} (hw : Waits s r 0x0908 w) (hfit : Fits w 16384) (hpair : pair < 64) (hdir : dir ≤ 1)
    (hrp : rp < 16) (hst : (s.dev.pair pair).st = .active) :
    exec (.copSnrRead r pair dir rp) s = .next { s with
      dev := answered s.clk w { status := stOK, payload := snrBytes (tget ([], []) (s.dev.pair pair).snr (16 * dir + rp)) } s.dev } := by
  refine onDev_serve_noFx hw (by decide) ?_ ?_
  · rw [length_snrBytes]; exact hfit
  · simp [-List.getD_eq_getElem?_getD, Nat.not_le.2 hpair, Nat.not_lt.2 hdir, Nat.not_le.2 hrp, hst, snrBytes]

/-- The start symbol and largest LEN of each radio point of a plan (R476). -/
def planOf (rpMask : Nat) (l : List (Nat × Nat)) : List (Nat × Nat) :=
  (List.range (ones 16 rpMask).length).foldl (fun p i => p.set ((ones 16 rpMask).getD i 0) (l.getD i (0, 0)))
    (List.replicate 16 (0, 0))

theorem exec_copBurstSet_idle {rpMask down up : Nat} {plan : List Nat} (hw : Waits s r 0x0909 w) (hpair : pair < 64)
    (hlen : plan.length = (ones 16 rpMask).length) (hmax : (plan.all fun v => v / 65536 ≤ 1023) = true)
    (hapart : planOverlap (plan.map fun v => (v % 65536, v / 65536)) = false) (hy : s.dev.pairSpoke pair = some y)
    (hmode : y.mode ≠ 0) (hst : (s.dev.pair pair).st ≠ .active) :
    exec (.copBurstSet r pair rpMask plan down up) s = .next { s with
      dev := answered s.clk w rOk (noted (s.dev.updPair pair fun q =>
        { q with rpMask := rpMask, plan := planOf rpMask (plan.map fun v => (v % 65536, v / 65536)), share := (down, up)
                 up := q.up &&& rpMask })) } := by
  have hshort : ((plan.map fun v => (v % 65536, v / 65536)).findIdx? fun e => 1023 < e.2) = none := by
    simpa [List.findIdx?_eq_none_iff] using hmax
  refine onDev_serve_journalled hw (by decide) (.inl rfl) (fits_zero w) rfl ?_
  simp only [Nat.not_le.2 hpair, hlen, bne_self_eq_false, hshort, hapart, hy, hmode, Dev.pair_updPair, hst, if_false,
    Bool.false_eq_true, planOf]

theorem exec_copPairsSet_second (hw : Waits s r 0x090A w) (hn : 128 ≤ spoke ∧ spoke < 144) (hy : s.dev.copper spoke = some y)
    (hmask : y.mask = 1) (hactive : y.active = true) (hon : y.dis = .on) (hchange : y.change = none)
    (hkept : (s.dev.pair (4 * (spoke - 128) + 1)).retired = false) (hfitted : s.dev.pairFitted (4 * (spoke - 128) + 1) = true) :
    exec (.copPairsSet r spoke 3) s = .next { s with dev := answered s.clk w rAcc (noted
      ((s.dev.updCopper spoke fun y => { y with change := some (3, w.tag) }).startPair s.clk (4 * (spoke - 128) + 1))) } := by
  have hnew : ((ones 4 3).filter fun i => !bit 1 i) = [1] := by decide
  have hgone : ((ones 4 1).filter fun i => !bit 3 i) = [] := by decide
  refine onDev_serve_journalled hw (by decide) (.inr rfl) (fits_zero w) ?_ ?_
  · exact (Dev.updCopper_host ..).trans (Dev.updCopper_host ..)
  · simp [copBad_of_lt hn, hy, hactive, hon, Dis.isEnding, hmask, hnew, hgone, hchange, pairIdx, hkept, hfitted]

theorem exec_copGetLatency (hw : Waits s r 0x090B w) (hfit : Fits w 16) (hn : 128 ≤ spoke ∧ spoke < 144) :
    exec (.copGetLatency r spoke) s = .next { s with
      dev := answered s.clk w (rOk [(8, 38912 * 65536), (8, 39936 * 65536)]) s.dev } := by
  refine onDev_serve_noFx hw (by decide) hfit ?_
  simp only [copBad_of_lt hn, Bool.false_eq_true, if_false]

theorem exec_copGetStats_clear {rp : Nat} (hw : Waits s r 0x090C w) (hfit : Fits w 66) (hpair : pair < 64) (hrp : rp < 16)
    (hcycle : tget [] s.dev.cyc.cop pair = (s.dev.pair pair).stats) :
    exec (.copGetStats r pair rp 1) s = .next { s with
      dev := answered s.clk w (rOk (((List.range 7).map fun i => (8, tget 0 (s.dev.pair pair).stats i)) ++
        [(2, uns 16 (tget (0, 0) (s.dev.pair pair).strength rp).1), (8, (tget (0, 0) (s.dev.pair pair).strength rp).2)]))
          ({ s.dev.updPair pair (fun q => { q with stats := [] }) with
            cyc := { s.dev.cyc with cop := tdel s.dev.cyc.cop pair } }) } := by
  refine onDev_serve_unjournalled hw (by decide) hfit rfl ?_
  simp only [Nat.not_le.2 hpair, Nat.not_le.2 hrp, Nat.lt_irrefl, one_ne_zero, if_false, hcycle]
  rw [Dev.updPair_congr (g := fun q => { q with stats := [] })]
  simp only [Nat.sub_self, foldl_tset_zero]

theorem exec_copSelftest_resting (hw : Waits s r 0x090D w) (hpair : pair < 64) (hy : s.dev.pairSpoke pair = some y)
    (hrest : y.resting = true) :
    exec (.copSelftest r pair) s = .next { s with
      dev := answered s.clk w rAcc (noted (s.dev.updPair pair fun q => { q with test := (s.clk.atc + 1, some w.tag) })) } := by
  refine onDev_serve_journalled hw (by decide) (.inr rfl) (fits_zero w) rfl ?_
  simp [Nat.not_le.2 hpair, hy, hrest]

theorem exec_copQualify_linetest {margin : Nat} (hw : Waits s r 0x090E w) (hpair : pair < 64) (href : bit w.flags 0 = true)
    (hbuffer : 16384 ≤ w.respLen) (hmode : s.dev.devmode.mode = .linetest) :
    exec (.copQualify r pair margin) s = .next { s with
      dev := answered s.clk w rAcc (noted (s.dev.updPair pair fun q =>
        { q with qualify := some (w.tag, margin, w.respAddr, w.respLen) })) } := by
  have hfind : s.dev.host.waiting.find? (fun w => w.page = r.page && w.slot = r.slot) = some w := by
    obtain ⟨hwait, hpage, hslot, -⟩ := hw
    simp [hwait, hpage, hslot]
  refine onDev_serve_journalled hw (by decide) (.inr rfl) (fits_zero w) rfl ?_
  simp only [Nat.not_le.2 hpair, hw.isRef, href, hfind, hmode, Option.map_some, Option.getD_some, Nat.not_lt.2 hbuffer,
    Bool.not_true, bne_self_eq_false, Bool.false_eq_true, if_false]

end

/-- Settles O32: each command has its lemma above. -/
theorem copperCommands : Obligations.CopperCommands := by
  unfold Obligations.CopperCommands
  refine ⟨?config, ?enable, ?unconfigured, ?disable, ?status, ?mask, ?write, ?read, ?snr, ?burst, ?pairs, ?latency, ?stats,
    ?selftest, ?qualify⟩
  case config =>
    intro s r w spoke mode mask lineAdv timed margin minMargin autoSwap syncWord syncTol syncBase syncStep ramp crcLimit y hw hn
      ⟨hmode, hsome, hmask, hadv, heven, htimed, hauto, htol, hlo, hhi⟩ hpairs hplace hy hrest
    exact exec_copConfig_resting hw hn hmode ⟨hsome, hmask⟩ ⟨hadv, heven⟩ htimed hauto htol ⟨hlo, hhi⟩ hpairs hplace hy hrest
  case enable =>
    intro s r w spoke y hw hn hy hrest hmask hkept
    refine ⟨_, exec_copEnable_resting hw hn hy hrest hmask hkept, ?_, ?_, ?_, ?_⟩
    · exact answered_host_congr s.clk w _ ((Dev.updCopper_host ..).trans (Dev.updCopper_host ..))
    · rw [Dev.copper_congr (answered_cop ..), Dev.copper_congr (noted_cop _), Dev.startPair, pairSpokeNo_first hn.1,
        Dev.copper_updCopper, Dev.copper_updPair, Dev.copper_updCopper, hy]
      rfl
    all_goals
      rw [Dev.pair_congr (answered_cop ..), Dev.pair_congr (noted_cop _), Dev.startPair, Dev.pair_updCopper, Dev.pair_updPair]
      rfl
  case unconfigured =>
    intro s r w spoke hw hn hnone
    exact exec_copEnable_unconfigured hw hn hnone
  case disable =>
    intro s r w spoke mode y hw hfit hn hmode hy hidle
    exact exec_copDisable_on hw hfit hn hmode hy hidle
  case status =>
    intro s r w spoke y hw hfit hn hy hmask hdown
    exact ⟨_, exec_copStatus_down hw hfit hn hy hmask hdown, answered_host_congr s.clk w _ rfl, answered_free ..⟩
  case mask =>
    intro s r w spoke nguard points notches hw hn ⟨hguard, hlo, hhi, hnotches⟩ hfault horder hweak hrest
    exact exec_copMaskSet_resting hw hn hguard ⟨hlo, hhi⟩ hnotches hfault horder hweak hrest
  case write =>
    intro s r w pair dir force table y hw ⟨hpair, hdir, _, hlen⟩ hy hauto hfault hforce
    subst hforce
    refine ⟨_, exec_copLoadWrite_force hw hpair hdir hlen hy hauto hfault, ?_, ?_, ?_, ?_, ?_⟩
    · exact answered_host_congr s.clk w _
        (Dev.sendTables_keeps Dev.host (fun _ _ => rfl) (s.dev.tableWritten s.clk pair dir table) pair dir _)
    · rw [Dev.loadOf_congr (answered_cop ..), Dev.loadOf_congr (noted_cop _), Dev.loadOf_tableForced, Inst.latest_write,
        LoadTab.dir_setDir]
    · rw [Dev.loadOf_congr (answered_cop ..), Dev.loadOf_congr (noted_cop _), Dev.loadOf_tableForced, Inst.act_write]
    · rw [Dev.shadow, answered_air, noted_air]
      exact Dev.armed_tableForced ..
    · rw [Dev.pair_congr (answered_cop ..), Dev.pair_congr (noted_cop _), Dev.pair_tableForced]
  case read =>
    intro s r w pair dir set hw hfit ⟨hpair, hdir, hset⟩ hinline
    exact ⟨_, exec_copLoadRead_inline hw hfit hpair hdir hset hinline, rfl⟩
  case snr =>
    intro s r w pair dir rp hw hfit ⟨hpair, hdir, hrp⟩ hst
    exact ⟨_, exec_copSnrRead_active hw hfit hpair hdir hrp hst, rfl⟩
  case burst =>
    intro s r w pair rpMask down up plan y hw hpair hlen hmax hapart hy hmode hst
    exact exec_copBurstSet_idle hw hpair hlen hmax hapart hy hmode hst
  case pairs =>
    intro s r w spoke mask y hw hn hy ⟨hmask, hactive, hon, hchange⟩ hthree hkept hfitted
    subst hthree
    refine ⟨_, exec_copPairsSet_second hw hn hy hmask hactive hon hchange hkept hfitted, ?_, ?_, ?_⟩
    · exact answered_host_congr s.clk w _ ((Dev.updCopper_host ..).trans (Dev.updCopper_host ..))
    · have hspoke : pairSpokeNo (4 * (spoke - 128) + 1) = spoke := by unfold pairSpokeNo; omega
      rw [Dev.copper_congr (answered_cop ..), Dev.copper_congr (noted_cop _), Dev.startPair, hspoke,
        Dev.copper_updCopper, Dev.copper_updPair, Dev.copper_updCopper, hy]
      rfl
    · rw [Dev.pair_congr (answered_cop ..), Dev.pair_congr (noted_cop _), Dev.startPair, Dev.pair_updCopper, Dev.pair_updPair]
      rfl
  case latency =>
    intro s r w spoke hw hfit hn
    exact exec_copGetLatency hw hfit hn
  case stats =>
    intro s r w pair rp clear hw hfit ⟨hpair, hrp⟩ hclear hcycle
    subst hclear
    exact exec_copGetStats_clear hw hfit hpair hrp hcycle
  case selftest =>
    intro s r w pair y hw hpair hy hrest
    exact exec_copSelftest_resting hw hpair hy hrest
  case qualify =>
    intro s r w pair margin hw hpair href hbuffer hmode
    exact exec_copQualify_linetest hw hpair href hbuffer hmode

end Sys2Proof.Machine
end

section
/-! Statement O33: network time, its servo, stamps, edges, pulses and recovered clocks (R497-R520). -/
namespace Sys2Proof.Machine

/-! ### What leaves network time alone -/

theorem HostOnly.time {d e : Dev} (h : HostOnly d e) : e.time = d.time := by rw [h.dev]

@[simp] theorem Dev.evt0_time (c : Clock) (d : Dev) (code tag : Nat) (fs : List (Nat × Nat × Nat)) :
    (d.evt0 c code tag fs).time = d.time := (HostOnly.evt ..).time
@[simp] theorem Dev.stepCadence_time (d : Dev) (now : Nat) : (d.stepCadence now).time = d.time := by
  unfold Dev.stepCadence Dev.newCycle Dev.settleSets
  simp only [Dev.updAir_time, Dev.updCop_time, Dev.updSpk_time, Dev.updMac_time, Dev.updFe_time]
@[simp] theorem Dev.stepCadence_host (d : Dev) (now : Nat) : (d.stepCadence now).host = d.host := by
  unfold Dev.stepCadence Dev.newCycle Dev.settleSets
  simp only [Dev.updAir_host, Dev.updCop_host, Dev.updSpk_host, Dev.updMac_host, Dev.updFe_host]
@[simp] theorem noted_time (d : Dev) : (noted d).time = d.time := rfl
@[simp] theorem answered_time (c : Clock) (w : Waiting) (r : Reply) (d : Dev) : (answered c w r d).time = d.time := by
  unfold answered; rw [Dev.respond_dev]; rfl

/-! ### The servo's states (R518) -/

/-- The events of a change of servo state touch the host alone. -/
theorem Dev.setServo_posts {d : Dev} {st : Nat} (h : d.time.st ≠ st) (c : Clock) :
    HostOnly (d.updTime fun t => { t with st := st, since := c.atc }) (d.setServo c st) := by
  unfold Dev.setServo
  dsimp only
  rw [if_neg h]
  refine List.foldlRecOn (motive := HostOnly _) _ _ (.refl _) fun e he f _ => .trans he (.evt ..)

theorem Dev.setServo_time {d : Dev} {st : Nat} (h : d.time.st ≠ st) (c : Clock) :
    (d.setServo c st).time = { d.time with st := st, since := c.atc } := (Dev.setServo_posts h c).time

/-- Entering a state that the servo is in already changes nothing. -/
theorem Dev.setServo_same {d : Dev} {st : Nat} (h : d.time.st = st) (c : Clock) : d.setServo c st = d := by
  unfold Dev.setServo; simp [h]

theorem Dev.setServo_waiting (c : Clock) (d : Dev) (st : Nat) : (d.setServo c st).host.waiting = d.host.waiting := by
  by_cases h : d.time.st = st
  · rw [Dev.setServo_same h]
  · exact (Dev.setServo_posts h c).waiting

theorem Dev.setServo_st (c : Clock) (d : Dev) (st : Nat) : (d.setServo c st).time.st = st := by
  by_cases h : d.time.st = st
  · rw [Dev.setServo_same h, h]
  · rw [Dev.setServo_time h]

/-- A change of servo state leaves what `p` reads of network time, where `p` reads neither the state nor its beginning. -/
theorem Dev.setServo_keeps {α : Type} (p : NetTime → α) (hp : ∀ t st since, p { t with st := st, since := since } = p t) (c : Clock)
    (d : Dev) (st : Nat) : p (d.setServo c st).time = p d.time := by
  by_cases h : d.time.st = st
  · rw [Dev.setServo_same h]
  · rw [Dev.setServo_time h, hp]

theorem Dev.servoBusy_of_free {d : Dev} (hprofile : d.time.set.profile = 0) (hmode : d.devmode.mode ≠ .stoker) :
    d.servoBusy = false := by simp [Dev.servoBusy, hprofile, hmode]

section
variable {s : State} {r : Req} {w : Waiting}

theorem exec_timeGet (hw : Waits s r 0x0A01 w) (hfit : Fits w 51) (hmode : s.dev.devmode.mode ≠ .stoker) :
    exec (.timeGet r) s = .next { s with
      dev := answered s.clk w (rOk [(8, s.clk.sec), (4, s.clk.ns), (2, s.clk.frac), (8, s.clk.atc), (1, s.dev.time.st),
        (1, s.dev.time.source), (1, s.dev.time.parent), (8, uns 64 s.dev.time.offset), (8, uns 64 s.dev.time.ftrim),
        (8, uns 64 s.dev.time.fslew), (2, s.dev.time.utc)]) s.dev } := by
  refine onDev_serve_noFx hw (by decide) hfit ?_
  simp only [hmode, if_false]

/-! ### Servo settings and steering (R497, R515-R518) -/

/-- The settings that TIME_SERVO_SET stores. -/
def servoSetOf (profile domain : Nat) (roles : List Nat) (tsin lane lockTh hold : Nat) : ServoSet :=
  { profile := profile, domain := domain
    roles := (List.range 8).map fun i => (roles.getD (2 * i) 0, roles.getD (2 * i + 1) 0)
    tsin := tsin, lane := lane, lockTh := lockTh, hold := hold }

theorem rolesFault_none {roles : List Nat} (h : ((List.range 8).all fun i => roles.getD (2 * i) 0 ≤ 3) = true) :
    ((List.range 8).find? fun i => 3 < roles.getD (2 * i) 0) = none := by
  simpa [-List.getD_eq_getElem?_getD, List.find?_eq_none] using h

/-- A number below `m`, or 0xFF for none. -/
theorem numbered_or_none {n m : Nat} (h : n < m ∨ n = 0xFF) : (decide (m ≤ n) && n != 0xFF) = false := by
  obtain h | h := h <;> simp [h]

section
variable {domain tsin lane lockTh hold : Nat} {roles : List Nat} (hw : Waits s r 0x0A02 w)
  (hroles : ((List.range 8).all fun i => roles.getD (2 * i) 0 ≤ 3) = true) (htsin : tsin < 8 ∨ tsin = 0xFF)
  (hlane : lane < 128 ∨ lane = 0xFF) (hmode : s.dev.devmode.mode ≠ .stoker)
include hw hroles htsin hlane hmode

theorem exec_timeServoSet_same {profile : Nat} (hprofile : profile ≤ 2) (hsame : profile = s.dev.time.set.profile) :
    exec (.timeServoSet r profile domain roles tsin lane lockTh hold) s = .next { s with
      dev := answered s.clk w rOk (noted (s.dev.updTime fun t =>
        { t with set := servoSetOf profile domain roles tsin lane lockTh hold })) } := by
  refine onDev_serve_journalled hw (by decide) (.inl rfl) (fits_zero w) rfl ?_
  simp only [Nat.not_lt.2 hprofile, rolesFault_none hroles, numbered_or_none htsin, numbered_or_none hlane, hmode, ← hsame,
    decide_true, Bool.true_or, if_true, if_false, Bool.false_eq_true]
  rfl

theorem exec_timeServoSet_free (hwas : s.dev.time.set.profile = 1) :
    exec (.timeServoSet r 0 domain roles tsin lane lockTh hold) s = .next { s with
      dev := answered s.clk w rOk (noted ((s.dev.updTime fun t =>
        { t with set := servoSetOf 0 domain roles tsin lane lockTh hold, source := 0, slew := none
                 fslew := 0 }).setServo s.clk 5)) } := by
  refine onDev_serve_reporting hw (by decide) (.inl rfl) (fits_zero w) (Dev.setServo_waiting ..) ?_
  simp only [Nat.not_lt_zero, rolesFault_none hroles, numbered_or_none htsin, numbered_or_none hlane, hmode, hwas, Nat.zero_ne_one,
    decide_false, Bool.false_or, if_false, Bool.false_eq_true, decide_true, if_true]
  rfl

end

theorem exec_timeAdjFreq_within {ftrim : Int} (hw : Waits s r 0x0A03 w) (hprofile : s.dev.time.set.profile = 0)
    (hmode : s.dev.devmode.mode ≠ .stoker) (hok : freqOk ftrim s.dev.time.fslew = true) :
    exec (.timeAdjFreq r ftrim) s = .next { s with
      dev := answered s.clk w rOk (noted (s.dev.updTime fun t => { t with ftrim := ftrim })) } := by
  refine onDev_serve_journalled hw (by decide) (.inl rfl) (fits_zero w) rfl ?_
  simp [Dev.servoBusy_of_free hprofile hmode, hok]

theorem exec_timeAdjFreq_beyond {ftrim : Int} (hw : Waits s r 0x0A03 w) (hprofile : s.dev.time.set.profile = 0)
    (hmode : s.dev.devmode.mode ≠ .stoker) (hover : freqOk ftrim s.dev.time.fslew = false) :
    exec (.timeAdjFreq r ftrim) s = .next { s with dev := answered s.clk w (rBad 0) s.dev } := by
  refine onDev_serve_refused hw (by decide) (fits_zero w) ?_
  simp [Dev.servoBusy_of_free hprofile hmode, hover]

theorem exec_timeSlew_back {off f : Int} {rate : Nat} (hw : Waits s r 0x0A04 w) (hprofile : s.dev.time.set.profile = 0)
    (hmode : s.dev.devmode.mode ≠ .stoker) (hoff : off < 0) (hrate : 1 ≤ rate ∧ rate ≤ 10) (hf : -(slewOf rate : Nat) = f)
    (hok : freqOk s.dev.time.ftrim f = true) :
    exec (.timeSlew r off rate) s = .next { s with
      dev := answered s.clk w rAcc (noted (s.dev.updTime fun t =>
        { t with fslew := f, slew := some { off := off, rate := rate, start := s.clk.atc, tag := w.tag } })) } := by
  have hrange : (decide (rate = 0) || decide (10000 < rate) || (s.dev.anyCarrier && decide (10 < rate))) = false := by
    rw [decide_eq_false (by omega : ¬ rate = 0), decide_eq_false (by omega : ¬ 10000 < rate),
      decide_eq_false (by omega : ¬ 10 < rate), Bool.and_false, Bool.or_false, Bool.or_false]
  refine onDev_serve_journalled hw (by decide) (.inr rfl) (fits_zero w) rfl ?_
  simp only [Dev.servoBusy_of_free hprofile hmode, hoff, Int.ne_of_lt hoff, hf, hrange, hok, if_true, if_false,
    Bool.false_eq_true, Bool.not_true]

theorem exec_slewDone_whole {y : Slew} (hy : s.dev.time.slew = some y)
    (hwhole : y.off.natAbs * 1966080000 ≤ y.rate * (s.clk.atc - y.start) * 65536) :
    exec .slewDone s = .next { s with
      dev := (s.dev.updTime fun t => { t with fslew := 0, slew := none }).evt0 s.clk 0x0A84 y.tag [(8, 8, s.clk.atc)] } := by
  show execSlewDone s = _
  unfold execSlewDone
  simp only [onDev_eq, hy, Nat.not_lt.2 hwhole, if_false]

/-! ### Steps of network time (R515) -/

theorem timeStepReply_steps {x : Ctx} {d : Dev} {arg ns frac a : Nat} (hprofile : d.time.set.profile = 0)
    (hmode : d.devmode.mode ≠ .stoker) (hnone : d.air.carriers = [])
    (ha : steppedAtc x.clk.atc (roundEvenS (3 * sgn 64 arg) 200000) = some a) :
    timeStepReply x d 0 arg ns frac = (rOk [(8, a)], some a) := by
  simp [timeStepReply, Dev.servoBusy_of_free hprofile hmode, Dev.anyCarrier, hnone, stepAsked, ha]

theorem timeStepReply_carriers {x : Ctx} {d : Dev} (hsome : d.air.carriers ≠ []) (arg ns frac : Nat) :
    timeStepReply x d 0 arg ns frac = (rSt stBADSTATE, none) := by
  have h : d.anyCarrier = true := by simpa [Dev.anyCarrier] using hsome
  simp [timeStepReply, h]

/-- The block in which TIME_STEP has been answered. -/
def Dev.stepAnswered (c : Clock) (d : Dev) (w : Waiting) (rep : Reply) : Dev := answered c w rep (effected 0x0A05 (rep, d))

theorem Dev.stepAnswered_host (c : Clock) (d : Dev) (w : Waiting) (rep : Reply) :
    (d.stepAnswered c w rep).host = (answered c w rep d).host := by
  refine answered_host_congr c w rep ?_
  unfold effected
  split <;> rfl

theorem Dev.stepAnswered_time (c : Clock) (d : Dev) (w : Waiting) (rep : Reply) : (d.stepAnswered c w rep).time = d.time := by
  unfold Dev.stepAnswered effected
  rw [answered_time]
  split <;> rfl

section
variable {mode arg ns frac : Nat} (hw : Waits s r 0x0A05 w) {rep : Reply} (hfit : Fits w rep.payload.length)
include hw hfit

theorem serve_timeStep (hreply : (timeStepReply (w.ctx s.clk) s.dev mode arg ns frac).1 = rep) :
    serve 0x0A05 r (fun x d => ((timeStepReply x d mode arg ns frac).1, d)) s.clk s.dev = s.dev.stepAnswered s.clk w rep := by
  rw [serve_alone hw (by rw [hreply]; exact misfit_of_fits hfit) hw.1, hreply]
  rfl

theorem execTimeStep_eq {target : Option Nat}
    (hreply : timeStepReply (w.ctx s.clk) s.dev mode arg ns frac = (rep, target)) :
    exec (.timeStep r mode arg ns frac) s = .next { s with
      clk := (target.map s.clk.atAtc).getD s.clk
      dev := (target.map fun a => (s.dev.stepAnswered s.clk w rep).stepCadence a).getD (s.dev.stepAnswered s.clk w rep) } := by
  have hpick : s.dev.pick r 0x0A05 = some w := by
    obtain ⟨hwait, hpage, hslot, hcode, hrefuse, hlow, -⟩ := hw
    exact pick_alone hwait hpage hslot hcode hrefuse (hpage ▸ hlow)
  have hserve := serve_timeStep hw hfit (congrArg Prod.fst hreply)
  have hctx : timeStepReply { page := w.page, func := w.func, tag := w.tag, rung := w.rung, clk := s.clk } s.dev mode arg ns
    frac = (rep, target) := hreply
  show execTimeStep r mode arg ns frac s = _
  unfold execTimeStep
  simp only [onBoth_eq, hpick, hserve, hctx, misfit_of_fits hfit]
  cases target <;> rfl

end

/-- Without carriers the clock moves with the answer. -/
theorem exec_timeStep_steps {arg ns frac a : Nat} (hw : Waits s r 0x0A05 w) (hfit : Fits w 8) (hprofile : s.dev.time.set.profile = 0)
    (hmode : s.dev.devmode.mode ≠ .stoker) (hnone : s.dev.air.carriers = [])
    (ha : steppedAtc s.clk.atc (roundEvenS (3 * sgn 64 arg) 200000) = some a) :
    exec (.timeStep r 0 arg ns frac) s = .next { s with
      clk := s.clk.atAtc a, dev := (s.dev.stepAnswered s.clk w (rOk [(8, a)])).stepCadence a } :=
  execTimeStep_eq hw (rep := rOk [(8, a)]) hfit (timeStepReply_steps (x := w.ctx s.clk) hprofile hmode hnone ha)

theorem exec_timeStep_carriers {arg ns frac : Nat} (hw : Waits s r 0x0A05 w) (hsome : s.dev.air.carriers ≠ []) :
    exec (.timeStep r 0 arg ns frac) s = .next { s with dev := answered s.clk w (rSt stBADSTATE) s.dev } :=
  execTimeStep_eq hw (rep := rSt stBADSTATE) (fits_zero w) (timeStepReply_carriers hsome ..)

end

section
variable {s : State} {r : Req} {w : Waiting}

/-! ### Ports, stamps and edges (R500-R504, R509, R510) -/

theorem exec_timePortSet_noSpokes {ports : List Nat} (hw : Waits s r 0x0A06 w) (hlen : ports.length = 8)
    (hports : (ports.all fun p => p = 0xFF || (p < 128 && !s.dev.absorbed p)) = true) (hnone : s.dev.spk.spokes = []) :
    exec (.timePortSet r ports) s = .next { s with
      dev := answered s.clk w rOk (noted (s.dev.updTime fun t => { t with tports := ports })) } := by
  have hfault : ((List.range 8).find? fun i =>
      ports.getD i 0xFF != 0xFF && (decide (128 ≤ ports.getD i 0xFF) || s.dev.absorbed (ports.getD i 0xFF))) = none := by
    rw [List.find?_eq_none]
    intro i hi
    have hin : i < ports.length := by rw [hlen]; exact List.mem_range.1 hi
    have hp := List.all_eq_true.1 hports ports[i] (List.getElem_mem hin)
    rw [List.getD_eq_getElem ports 0xFF hin]
    simp only [Bool.or_eq_true, Bool.and_eq_true, decide_eq_true_eq, Bool.not_eq_true', bne_iff_ne] at hp ⊢
    obtain h | ⟨hlow, hown⟩ := hp
    · exact fun hbad => hbad.1 h
    · intro hbad
      obtain h | h := hbad.2
      · omega
      · rw [hown] at h; exact Bool.false_ne_true h
  have hidle : ∀ p, s.dev.spoke p = none := fun p => by simp [Dev.spoke, hnone, tfind]
  refine onDev_serve_journalled hw (by decide) (.inl rfl) (fits_zero w) rfl ?_
  simp only [hfault, hlen, hidle, Option.any_none, bne_self_eq_false, Bool.false_eq_true, if_false]
  simp

/-- A read in a cycle without a loss sees OVF and LOST as they stand (R502). -/
theorem StampQ.began_quiet {q : StampQ} {now : Nat} (h : q.lostAt ≠ now + 1) : q.began now = (q.ovf, q.lost) := if_neg h

section
variable {q : StampQ} {now : Nat} (hempty : q.q = []) (hquiet : q.lostAt ≠ now + 1)
include hempty hquiet

/-- A read of an empty queue (R502). -/
theorem StampQ.read_empty (n clear : Nat) :
    q.read now n clear = (rOk [(1, 0), (1, q.ovf.toNat), (2, 0), (4, q.lost)],
      { (if clear = 0 then q else q.clear now) with q := [], emptied := true }) := by
  simp [StampQ.read, StampQ.ready, hempty, StampQ.began_quiet hquiet, rOk]

theorem StampQ.read_empty_keep (n : Nat) :
    q.read now n 0 = (rOk [(1, 0), (1, q.ovf.toNat), (2, 0), (4, q.lost)], { q with emptied := true }) := by
  rw [StampQ.read_empty hempty hquiet, if_pos rfl]
  cases q; subst hempty; rfl

theorem StampQ.read_empty_clear (n : Nat) :
    q.read now n 1 = (rOk [(1, 0), (1, q.ovf.toNat), (2, 0), (4, q.lost)],
      { q with emptied := true, ovf := false, lost := 0, was := (false, 0) }) := by
  have hclear : q.clear now = { q with ovf := false, lost := 0, was := (false, 0) } := by
    simp [StampQ.clear, StampQ.began_quiet hquiet, hquiet]
  rw [StampQ.read_empty hempty hquiet, if_neg one_ne_zero, hclear]
  cases q; subst hempty; rfl

end

/-- A read of a queue with one entry from an earlier cycle (R502). -/
theorem StampQ.read_one {q : StampQ} {now n : Nat} {e : List Byte} (hone : q.q = [e]) (hearlier : q.lastAt ≠ now)
    (hquiet : q.lostAt ≠ now + 1) (hn : 1 ≤ n) :
    q.read now n 0 = ({ status := stOK, payload := pk [(1, 1), (1, q.ovf.toNat), (2, 0), (4, q.lost)] ++ e },
      { q with q := [], emptied := true }) := by
  simp [StampQ.read, StampQ.ready, hone, hearlier, StampQ.began_quiet hquiet, Nat.min_eq_right hn]

section
variable {port n : Nat} (hw : Waits s r 0x0A07 w) (hport : port < 128) (hn : 1 ≤ n ∧ n ≤ 14)
  (hlive : (s.dev.liveSpoke port).isSome = true)
include hw hport hn hlive

/-- TIME_STAMP_READ answers what the read of the port's queue gives and keeps what it leaves (R502). -/
theorem exec_timeStampRead {clear : Nat} (hclear : clear ≤ 1) {rep : Reply} {left : StampQ}
    (hread : (tget {} s.dev.time.stamps port).read s.clk.atc n clear = (rep, left)) (hfit : Fits w rep.payload.length) :
    exec (.timeStampRead r port n clear) s = .next { s with
      dev := answered s.clk w rep (s.dev.updTime fun t => { t with stamps := tset {} t.stamps port left }) } := by
  have hlive' : (s.dev.liveSpoke port).isNone = false := by simpa using hlive
  refine onDev_serve_unjournalled hw (by decide) hfit rfl ?_
  simp only [Nat.not_le.2 hport, decide_eq_false (Nat.ne_of_gt hn.1), decide_eq_false (Nat.not_lt.2 hn.2), Nat.not_lt.2 hclear,
    hlive', hread, Bool.or_false, Bool.false_eq_true, if_false]

end

section
variable {port n : Nat} {q : StampQ} (hw : Waits s r 0x0A07 w) (hport : port < 128) (hn : 1 ≤ n ∧ n ≤ 14)
  (hlive : (s.dev.liveSpoke port).isSome = true) (hq : tget {} s.dev.time.stamps port = q) (hquiet : q.lostAt ≠ s.clk.atc + 1)
include hw hport hn hlive hq hquiet

theorem exec_timeStampRead_emptyClear (hfit : Fits w 8) (hempty : q.q = []) :
    exec (.timeStampRead r port n 1) s = .next { s with
      dev := answered s.clk w (rOk [(1, 0), (1, q.ovf.toNat), (2, 0), (4, q.lost)]) (s.dev.updTime fun t => { t with
        stamps := tset {} t.stamps port { q with emptied := true, ovf := false, lost := 0, was := (false, 0) } }) } := by
  refine exec_timeStampRead hw hport hn hlive (Nat.le_refl 1) ?read hfit
  case read => rw [hq, StampQ.read_empty_clear hempty hquiet]

theorem exec_timeStampRead_one {e : List Byte} (hfit : Fits w 24) (hone : q.q = [e]) (hlen : e.length = 16)
    (hearlier : q.lastAt ≠ s.clk.atc) :
    exec (.timeStampRead r port n 0) s = .next { s with
      dev := answered s.clk w { status := stOK, payload := pk [(1, 1), (1, q.ovf.toNat), (2, 0), (4, q.lost)] ++ e }
        (s.dev.updTime fun t => { t with stamps := tset {} t.stamps port { q with q := [], emptied := true } }) } := by
  refine exec_timeStampRead hw hport hn hlive (Nat.zero_le 1) ?read ?fits
  case read => rw [hq, StampQ.read_one hone hearlier hquiet hn.1]
  case fits =>
    rw [List.length_append, hlen]
    exact hfit

end

theorem exec_timeTsinSet {input edges wake : Nat} (hw : Waits s r 0x0A08 w) (hinput : input < 8) (hedges : edges ≤ 3)
    (hwake : wake ≤ 1) :
    exec (.timeTsinSet r input edges wake) s = .next { s with
      dev := answered s.clk w rOk (noted (s.dev.setTsin input
        { s.dev.tsin input with edges := edges, wake := wake = 1 })) } := by
  refine onDev_serve_journalled hw (by decide) (.inl rfl) (fits_zero w) rfl ?_
  simp [Nat.not_le.2 hinput, Nat.not_lt.2 hedges, Nat.not_lt.2 hwake]

theorem exec_timeTsinRead_empty {input n : Nat} (hw : Waits s r 0x0A09 w) (hfit : Fits w 8) (hinput : input < 8)
    (hn : 1 ≤ n ∧ n ≤ 14) (hempty : (s.dev.tsin input).q.q = []) (hquiet : (s.dev.tsin input).q.lostAt ≠ s.clk.atc + 1) :
    exec (.timeTsinRead r input n 0) s = .next { s with
      dev := answered s.clk w (rOk [(1, 0), (1, (s.dev.tsin input).q.ovf.toNat), (2, 0), (4, (s.dev.tsin input).q.lost)])
        (s.dev.setTsin input
          { s.dev.tsin input with q := { (s.dev.tsin input).q with emptied := true } }) } := by
  refine onDev_serve_unjournalled hw (by decide) hfit rfl ?_
  simp [Nat.not_le.2 hinput, Nat.ne_of_gt hn.1, Nat.not_lt.2 hn.2, StampQ.read_empty_keep hempty hquiet]

/-- The input that has captured an edge at the instant `t` as its first entry (R509). -/
def Tsin.captured (x : Tsin) (now t : Nat) (stamp : List Byte) : Tsin :=
  { x with seq := (x.seq + 1) % 65536, last := t + 1, q := (x.q.push now stamp).1 }

/-- The first edge of an input that selects both is kept; its event touches the host alone (R509, R510). -/
theorem Dev.captureEdge_first {d : Dev} {input : Nat} (hedges : (d.tsin input).edges = 3) (hfirst : (d.tsin input).last = 0)
    (hempty : (d.tsin input).q.q = []) (c : Clock) (falling : Bool) (sub : Nat) :
    HostOnly (d.setTsin input ((d.tsin input).captured c.atc (c.instant + min sub 66666)
        (stampBytes (c.instant + min sub 66666) (d.tsin input).seq (d.stampFlags false falling))))
      (d.captureEdge c input falling sub) := by
  unfold Dev.captureEdge Tsin.captured
  simp only [Tsin.selects, hedges, decide_true, Bool.true_or, Bool.not_true, Bool.false_eq_true, if_false, hfirst, hempty,
    bne_self_eq_false, Bool.false_and, List.length_nil, show ¬ 64 ≤ 0 by decide]
  split
  · exact HostOnly.evt c _ 0 0 0x0A83 0 _
  · exact .refl _

theorem StampQ.push_empty {q : StampQ} (h : q.q = []) (now : Nat) (e : List Byte) : (q.push now e).1.q = [e] := by
  simp [StampQ.push, h]

theorem Dev.tsin_setTsin (d : Dev) (i : Nat) (x : Tsin) : (d.setTsin i x).tsin i = x := by
  simp [Dev.tsin, Dev.setTsin, tget_tset]

theorem exec_tsinEdge_service {input : Nat} (hsvc : s.dev.mgmt.svc = true) (hmode : s.dev.devmode.mode ≠ .dormant)
    (falling : Bool) (sub : Nat) :
    exec (.tsinEdge input falling sub) s = .next { s with dev := s.dev.captureEdge s.clk input falling sub } := by
  show execTsinEdge input falling sub s = _
  unfold execTsinEdge
  simp [onDev_eq, hsvc, hmode]

theorem exec_tsinEdge_noService (hsvc : s.dev.mgmt.svc = false) (input sub : Nat) (falling : Bool) :
    exec (.tsinEdge input falling sub) s = .next s := by
  show execTsinEdge input falling sub s = _
  unfold execTsinEdge
  simp [onDev_eq, hsvc]

/-! ### Pulse outputs and recovered clocks (R512-R514, R520) -/

theorem exec_timeTsoutSet_on {output mode pol ppsW : Nat} (hw : Waits s r 0x0A0A w) (houtput : output < 8) (hmode : mode ≤ 2)
    (hpol : pol ≤ 1) (hwidth : 8 ≤ ppsW ∧ ppsW ≤ 500000000) (hon : mode ≠ 0) :
    exec (.timeTsoutSet r output mode pol ppsW) s = .next { s with
      dev := answered s.clk w rOk (noted (s.dev.setTsout output
        { s.dev.tsout output with mode := mode, pol := pol, ppsW := ppsW })) } := by
  have hwide : widthOk ppsW = true := by
    unfold widthOk; rw [decide_eq_true hwidth.1, decide_eq_true hwidth.2]; rfl
  refine onDev_serve_journalled hw (by decide) (.inl rfl) (fits_zero w) rfl ?_
  simp [Nat.not_le.2 houtput, Nat.not_lt.2 hmode, Nat.not_lt.2 hpol, hwide, hon]

theorem exec_ppsPulse_second {output : Nat} (hmode : (s.dev.tsout output).mode = 2) (hns : s.clk.ns = 0) (hrem : s.clk.rem = 0)
    (hrun : s.clk.run = true) :
    exec (.ppsPulse output) s = .next { s with
      dev := s.dev.setTsout output { s.dev.tsout output with edge := s.clk.instant, until_ := s.clk.instant + (s.dev.tsout output).ppsW * 65536 } } := by
  show execPpsPulse output s = _
  unfold execPpsPulse
  simp [onDev_eq, hmode, hns, hrem, hrun, Tsout.pulse]

theorem exec_pulseEnd_due {output : Nat} (hopen : (s.dev.tsout output).until_ ≠ 0)
    (hdue : (s.dev.tsout output).until_ ≤ s.clk.instant) :
    exec (.pulseEnd output) s = .next { s with dev := s.dev.setTsout output { s.dev.tsout output with until_ := 0 } } := by
  show execPulseEnd output s = _
  unfold execPulseEnd
  simp [onDev_eq, hopen, Nat.not_lt.2 hdue]

theorem exec_timeSynceSet_lane {output lane div : Nat} (hw : Waits s r 0x0A0B w) (hfit : Fits w 4) (houtput : output < 2)
    (hlane : lane < 128) (hdiv : 16 ≤ div) (hspeed : (s.dev.laneSpeed lane).1 ≤ 200000 * div) :
    exec (.timeSynceSet r output lane div) s = .next { s with
      dev := answered s.clk w (rOk [(4, (s.dev.laneSpeed lane).1 * 1000 / div)]) (noted (s.dev.setSynce output
        { lane := lane, div := div, squelched := !s.dev.laneActive lane })) } := by
  have hreal : lane ≠ 0xFF := by omega
  refine onDev_serve_journalled hw (by decide) (.inl rfl) hfit rfl ?_
  simp only [Nat.not_le.2 houtput, decide_eq_false (Nat.not_le.2 hlane), decide_eq_false (Nat.not_lt.2 hdiv),
    decide_eq_false (Nat.not_lt.2 hspeed), decide_eq_false hreal, decide_eq_false (by omega : ¬ div = 0), Bool.false_and,
    Bool.and_false, Bool.or_false, Bool.false_or, Bool.false_eq_true, if_false]

theorem exec_synceSquelch_resumes {output : Nat} (hlane : (s.dev.synce output).lane ≠ 0xFF)
    (hactive : s.dev.laneActive (s.dev.synce output).lane = true) (hsquelched : (s.dev.synce output).squelched = true) :
    exec (.synceSquelch output) s = .next { s with
      dev := (s.dev.setSynce output { s.dev.synce output with squelched := false }).evt0 s.clk 0x0A86 0
        [(0, 1, output), (1, 1, (s.dev.synce output).lane), (2, 1, 0)] } := by
  show execSynceSquelch output s = _
  unfold execSynceSquelch
  simp [onDev_eq, hlane, hactive, hsquelched]

/-! ### UTC (R519) -/

theorem exec_timeUtcSet_ahead {utc leap second : Nat} (hw : Waits s r 0x0A0C w) (hleap : leap ≤ 2)
    (hahead : leap = 0 ∨ s.clk.sec < second) :
    exec (.timeUtcSet r utc leap second) s = .next { s with
      dev := answered s.clk w rOk (noted (s.dev.updTime fun t =>
        { t with utc := utc, leap := if leap = 0 then none else some (leap, second) })) } := by
  have hfuture : (leap != 0 && decide (second ≤ s.clk.sec)) = false := by
    obtain h | h := hahead
    · simp [h]
    · rw [decide_eq_false (Nat.not_le.2 h), Bool.and_false]
  refine onDev_serve_journalled hw (by decide) (.inl rfl) (fits_zero w) rfl ?_
  simp only [Nat.not_lt.2 hleap, hfuture, Bool.false_eq_true, if_false]

theorem exec_leapSecond_due {k x : Nat} (hleap : s.dev.time.leap = some (k, x)) (hdue : x ≤ s.clk.sec) :
    exec .leapSecond s = .next { s with dev := s.dev.updTime fun t =>
      { t with leap := none, utc := (t.utc + (if k = 1 then 1 else 65535)) % 65536 } } := by
  show execLeapSecond s = _
  unfold execLeapSecond
  simp [onDev_eq, hleap, Nat.not_lt.2 hdue]

/-! ### The servo's events (R518) -/

section
variable (hhere : s.dev.breanoAway = false)
include hhere

section
variable {source parent : Nat} {off : Int} (hsource : source = 1 ∨ source = 2) (hprofile : s.dev.time.set.profile ≠ 0)
  (hmode : s.dev.devmode.mode ≠ .stoker) (hst : s.dev.time.st = 0)
include hsource hprofile hmode hst

/-- The servo takes a source that qualifies. -/
theorem servoSource_taken :
    (s.dev.breanoAway || decide (s.dev.time.set.profile = 0) || decide (s.dev.devmode.mode = .stoker) || decide (source = 0) ||
      decide (2 < source) || decide (s.dev.time.st = 1) || decide (s.dev.time.st = 2)) = false := by
  obtain h | h := hsource <;> simp [hhere, hprofile, hmode, hst, h]

theorem exec_servoSourceQualify_slews (hsome : s.dev.air.carriers ≠ []) (hoff : off < 0) {f : Int} (hf : (slewOf 10 : Nat) = f) :
    exec (.servoSourceQualify source parent off) s = .next { s with
      dev := (s.dev.updTime fun t => { t with source := source, parent := parent, offset := off, fslew := f }).setServo
        s.clk 1 } := by
  have hcarrier : s.dev.anyCarrier = true := by simpa [Dev.anyCarrier] using hsome
  have hcarrier' : (s.dev.updTime fun t => { t with source := source, parent := parent, offset := off }).anyCarrier = true :=
    hcarrier
  show execServoSourceQualify source parent off s = _
  unfold execServoSourceQualify
  simp only [onBoth_eq, servoSource_taken hhere hsource hprofile hmode hst, hcarrier', Bool.not_true, Bool.false_and,
    Bool.false_eq_true, if_false, if_true, Int.ne_of_lt hoff, Int.not_lt.2 (Int.le_of_lt hoff), hf]
  rfl

theorem exec_servoSourceQualify_steps (hnone : s.dev.air.carriers = []) (hfar : 65536000 < off.natAbs) {a : Nat}
    (ha : steppedAtc s.clk.atc (roundEvenS (-3 * off) 200000) = some a) :
    exec (.servoSourceQualify source parent off) s = .next { s with
      clk := s.clk.atAtc a
      dev := (((s.dev.updTime fun t => { t with source := source, parent := parent, offset := off }).stepCadence a).updTime
        fun t => { t with fslew := 0, offset := 0 }).setServo (s.clk.atAtc a) 1 } := by
  have hcarrier : (s.dev.updTime fun t => { t with source := source, parent := parent, offset := off }).anyCarrier = false := by
    simp [Dev.anyCarrier, hnone]
  show execServoSourceQualify source parent off s = _
  unfold execServoSourceQualify
  simp only [onBoth_eq, servoSource_taken hhere hsource hprofile hmode hst, hcarrier, Bool.not_false, Bool.true_and,
    decide_eq_true hfar, ha, Bool.false_eq_true, if_false, if_true]

end

theorem exec_servoLock_held {off : Int} (hst : s.dev.time.st = 1) (hwithin : off.natAbs ≤ s.dev.time.set.lockTh * 65536)
    (hheld : s.dev.time.since + 117964800000 ≤ s.clk.atc) :
    exec (.servoLock off) s = .next { s with
      dev := (s.dev.updTime fun t => { t with offset := off, fslew := 0 }).setServo s.clk 2 } := by
  have hguard : (s.dev.breanoAway || s.dev.time.st != 1 || decide (s.dev.time.set.lockTh * 65536 < off.natAbs) ||
      decide (s.clk.atc < s.dev.time.since + 60 * 1966080000)) = false := by
    rw [hhere, hst, decide_eq_false (Nat.not_lt.2 hwithin), decide_eq_false (Nat.not_lt.2 hheld)]; rfl
  show execServoLock off s = _
  unfold execServoLock
  simp only [onDev_eq, hguard, Bool.false_eq_true, if_false]

theorem exec_servoHoldover_within {mean : Int} (hst : s.dev.time.st = 1 ∨ s.dev.time.st = 2) (hok : freqOk mean 0 = true) :
    exec (.servoHoldover mean) s = .next { s with
      dev := (s.dev.updTime fun t => { t with ftrim := mean, fslew := 0, source := 0 }).setServo s.clk 3 } := by
  have hguard : (s.dev.breanoAway || (s.dev.time.st != 1 && s.dev.time.st != 2)) = false := by
    obtain h | h := hst <;> simp [hhere, h]
  show execServoHoldover mean s = _
  unfold execServoHoldover
  simp only [onDev_eq, hguard, hok, Bool.false_eq_true, if_false, if_true]

theorem exec_servoHoldoverExpire_over (hst : s.dev.time.st = 3)
    (hover : s.dev.time.since + s.dev.time.set.hold * 1966080000 < s.clk.atc) :
    exec .servoHoldoverExpire s = .next { s with dev := s.dev.setServo s.clk 4 } := by
  have hguard : (s.dev.breanoAway || s.dev.time.st != 3 ||
      decide (s.clk.atc ≤ s.dev.time.since + s.dev.time.set.hold * 1966080000)) = false := by
    rw [hhere, hst, decide_eq_false (Nat.not_le.2 hover)]; rfl
  show execServoHoldoverExpire s = _
  unfold execServoHoldoverExpire
  simp only [onDev_eq, hguard, Bool.false_eq_true, if_false]

end

end

/-- Settles O33: each command has its lemma above. -/
theorem networkTime : Obligations.NetworkTime := by
  unfold Obligations.NetworkTime
  refine ⟨?get, ?same, ?free, ?within, ?beyond, ?slew, ?slewDone, ?step, ?carriers, ?ports, ?stampEmpty, ?stampOne, ?tsin,
    ?tsinRead, ?edge, ?noService, ?tsout, ?pps, ?pulseEnd, ?synce, ?squelch, ?utc, ?leap, ?slews, ?steps, ?lock, ?holdover,
    ?expire⟩
  case get =>
    intro s r w hw hfit hmode
    exact exec_timeGet hw hfit hmode
  case same =>
    intro s r w profile domain tsin lane lockTh hold roles hw hprofile hroles htsin hlane hmode hsame
    exact exec_timeServoSet_same hw hroles htsin hlane hmode hprofile hsame
  case free =>
    intro s r w profile domain tsin lane lockTh hold roles hw hzero hroles ⟨htsin, hlane⟩ hmode hwas
    subst hzero
    refine ⟨_, exec_timeServoSet_free hw hroles (.inr htsin) (.inr hlane) hmode hwas, ?_, ?_, ?_, ?_, ?_⟩ <;>
      rw [answered_time, noted_time]
    · exact Dev.setServo_st ..
    · exact Dev.setServo_keeps (fun t => t.set.profile) (fun _ _ _ => rfl) ..
    · exact Dev.setServo_keeps NetTime.source (fun _ _ _ => rfl) ..
    · exact Dev.setServo_keeps NetTime.fslew (fun _ _ _ => rfl) ..
    · exact Dev.setServo_keeps NetTime.ftrim (fun _ _ _ => rfl) ..
  case within =>
    intro s r w ftrim hw ⟨hprofile, hmode⟩ hok
    exact exec_timeAdjFreq_within hw hprofile hmode (decide_eq_true hok)
  case beyond =>
    intro s r w ftrim hw ⟨hprofile, hmode⟩ hover
    exact ⟨_, exec_timeAdjFreq_beyond hw hprofile hmode (decide_eq_false (Nat.not_le.2 hover)), rfl⟩
  case slew =>
    intro s r w off rate hw ⟨hprofile, hmode⟩ hoff hrate hok
    exact exec_timeSlew_back hw hprofile hmode hoff hrate rfl hok
  case slewDone =>
    intro s y hy hwhole
    exact exec_slewDone_whole hy hwhole
  case step =>
    intro s r w mode arg ns frac a hw hfit hmode ⟨hprofile, hservo⟩ hnone ha
    subst hmode
    refine ⟨_, exec_timeStep_steps hw hfit hprofile hservo hnone ha, ?_, rfl, rfl, rfl, rfl, rfl, ?_⟩
    · exact (Dev.stepCadence_host ..).trans (Dev.stepAnswered_host ..)
    · exact (Dev.stepCadence_time ..).trans (Dev.stepAnswered_time ..)
  case carriers =>
    intro s r w mode arg ns frac hw hle hmode hsome hprofile
    subst hmode
    exact exec_timeStep_carriers hw hsome
  case ports =>
    intro s r w ports hw hlen hports hnone
    exact exec_timePortSet_noSpokes hw hlen hports hnone
  case stampEmpty =>
    intro s r w port n clear q hw hfit ⟨hport, hlo, hhi, hclear⟩ hlive hq hempty hquiet hone
    subst hone
    exact exec_timeStampRead_emptyClear hw hport ⟨hlo, hhi⟩ hlive hq hquiet hfit hempty
  case stampOne =>
    intro s r w port n clear q e hw hfit ⟨hport, hlo, hhi, hclear⟩ hlive hq hone hlen hearlier hquiet
    subst hclear
    exact ⟨_, exec_timeStampRead_one hw hport ⟨hlo, hhi⟩ hlive hq hquiet hfit hone hlen hearlier, rfl⟩
  case tsin =>
    intro s r w input edges wake hw ⟨hinput, hedges, hwake⟩
    exact exec_timeTsinSet hw hinput hedges hwake
  case tsinRead =>
    intro s r w input n clear hw hfit ⟨hinput, hlo, hhi, hclear⟩ hempty hquiet
    subst hclear
    exact exec_timeTsinRead_empty hw hfit hinput ⟨hlo, hhi⟩ hempty hquiet
  case edge =>
    intro s input sub falling hsvc hmode hedges hfirst hempty
    have htime := (Dev.captureEdge_first hedges hfirst hempty s.clk falling sub).time
    have htsin : (s.dev.captureEdge s.clk input falling sub).tsin input = (s.dev.tsin input).captured s.clk.atc
        (s.clk.instant + min sub 66666) (stampBytes (s.clk.instant + min sub 66666) (s.dev.tsin input).seq
          (s.dev.stampFlags false falling)) := by
      rw [Dev.tsin, htime]
      exact Dev.tsin_setTsin ..
    refine ⟨_, exec_tsinEdge_service hsvc hmode falling sub, ?_, ?_⟩ <;> rw [htsin]
    · rfl
    · exact StampQ.push_empty hempty ..
  case noService =>
    intro s input sub falling hsvc
    exact exec_tsinEdge_noService hsvc ..
  case tsout =>
    intro s r w output mode pol ppsW hw ⟨houtput, hmode, hpol, hlo, hhi⟩ hon
    exact exec_timeTsoutSet_on hw houtput hmode hpol ⟨hlo, hhi⟩ hon
  case pps =>
    intro s output hmode ⟨hns, hrem, hrun⟩
    exact exec_ppsPulse_second hmode hns hrem hrun
  case pulseEnd =>
    intro s output hopen hdue
    exact exec_pulseEnd_due hopen hdue
  case synce =>
    intro s r w output lane div hw hfit ⟨houtput, hlane, hdiv⟩ hspeed
    exact exec_timeSynceSet_lane hw hfit houtput hlane hdiv hspeed
  case squelch =>
    intro s output hlane hactive hsquelched
    exact exec_synceSquelch_resumes hlane hactive hsquelched
  case utc =>
    intro s r w utc leap second hw hleap hahead
    exact exec_timeUtcSet_ahead hw hleap hahead
  case leap =>
    intro s k x hleap hdue
    exact exec_leapSecond_due hleap hdue
  case slews =>
    intro s source parent off hhere hsource hprofile hmode hst hsome hoff
    refine ⟨_, exec_servoSourceQualify_slews hhere hsource hprofile hmode hst hsome hoff rfl, rfl, ?_⟩
    exact Dev.setServo_time (by rw [Dev.updTime_time]; exact hst ▸ Nat.zero_ne_one) s.clk
  case steps =>
    intro s source parent a off hhere hsource hprofile hmode hst hnone hfar ha
    refine ⟨_, exec_servoSourceQualify_steps hhere hsource hprofile hmode hst hnone hfar ha, rfl, ?_⟩
    exact Dev.setServo_time (by rw [Dev.updTime_time]; exact hst ▸ Nat.zero_ne_one) (s.clk.atAtc a)
  case lock =>
    intro s off hhere hst hwithin hheld
    refine ⟨_, exec_servoLock_held hhere hst hwithin hheld, ?_⟩
    exact Dev.setServo_time (by rw [Dev.updTime_time]; simp [hst]) s.clk
  case holdover =>
    intro s mean hhere hst hwithin
    refine ⟨_, exec_servoHoldover_within hhere hst (by simpa [freqOk] using hwithin), ?_⟩
    exact Dev.setServo_time (by rw [Dev.updTime_time]; obtain h | h := hst <;> simp [h]) s.clk
  case expire =>
    intro s hhere hst hover
    exact ⟨_, exec_servoHoldoverExpire_over hhere hst hover, Dev.setServo_time (by simp [hst]) s.clk⟩

end Sys2Proof.Machine
end

section
/-! Statement O34: truing's measurements, gaps, stores and commands (R525-R536). -/
namespace Sys2Proof.Machine

@[simp] theorem Dev.unit_updUnit (d : Dev) (kind i : Nat) (f : TrueUnit → TrueUnit) :
    (d.updUnit kind i f).unit kind i = f (d.unit kind i) := by
  simp [Dev.unit, Dev.updUnit, tget_tmod]

theorem TrueUnit.trim_tput (u : TrueUnit) (kind id : Nat) (x : Trim) :
    ({ u with trims := tput u.trims id x } : TrueUnit).trim kind id = x := by
  simp [TrueUnit.trim, tfind_tput]

/-- A trim that has not been within CONV four times in a row is not converged (R532). -/
theorem TrueUnit.converged_few {u : TrueUnit} {kind id : Nat} (h : (u.trim kind id).count < 4) (now : Nat) :
    u.converged now kind id = false := by
  simp [TrueUnit.converged, Nat.not_le.2 h]

/-- The latency figures of a lane (R535). -/
theorem Dev.figures_latTx (d : Dev) (i : Nat) (residual : Int) (moved : Bool) :
    d.figures 0 i 4 residual moved = d.updUnit 0 i fun u => { u with figures := u.figures.set 6 residual } := rfl
theorem Dev.figures_latRx (d : Dev) (i : Nat) (residual : Int) (moved : Bool) :
    d.figures 0 i 5 residual moved = d.updUnit 0 i fun u => { u with figures := u.figures.set 7 residual } := rfl

/-- A measurement of a unit is kept: its trim, and the gap it used (R529). -/
def TrueUnit.measured (u : TrueUnit) (id gap : Nat) (x : Trim) : TrueUnit :=
  { u with trims := tput u.trims id x, last := id, gapLen := if gap = 2 then 0 else u.gapLen }

section
variable {s : State} {r : Req} {w : Waiting} {kind index : Nat}

/-! ### Measurements (R529, R530, R532) -/

theorem measurable_lane {gap : Nat} (hindex : index < 128) (hgap : s.dev.gapOpen s.clk.atc 0 index gap = true) :
    (decide (2 < 0) || decide (unitCount 0 ≤ index) || !s.dev.gapOpen s.clk.atc 0 index gap) = false := by
  rw [hgap, decide_eq_false (Nat.not_le.2 hindex : ¬ unitCount 0 ≤ index)]; rfl

section
variable {gap : Nat} {residual : Int} {x : Trim} (hindex : index < 128) (hgap : s.dev.gapOpen s.clk.atc 0 index gap = true)
  (hstuck : x.stuck = false)
include hindex hgap hstuck

theorem exec_trueMeasure_latTx (hchoose : s.dev.chooseTrim 0 index gap = some 4) (hx : (s.dev.unit 0 index).trim 0 4 = x)
    (hcode : -64 < x.code ∧ x.code ≤ 64) (hpos : 0 < residual) (hfar : 1500000 < residual.natAbs * 10000) (hcount : x.count < 4)
    (toward : Int) :
    exec (.trueMeasure 0 index gap residual toward) s = .next { s with
      dev := (s.dev.updUnit 0 index fun u => u.measured 4 gap
        { x with code := x.code - 1, count := 0, residual := residual, at_ := s.clk.atc, seen := true }).updUnit 0 index
          fun u => { u with figures := u.figures.set 6 residual } } := by
  have hwas := TrueUnit.converged_few (u := s.dev.unit 0 index) (by rw [hx]; exact hcount) s.clk.atc
  have hkind : trimKind 0 4 = some ⟨-64, 64, 1967, 78125, 1500000, [0, 2]⟩ := rfl
  have hlane : (decide (0 = 1) && decide (4 = 10)) = false := rfl
  have hrange : (decide (-64 ≤ x.code + -1) && decide (x.code + -1 ≤ 64)) = true := by
    rw [decide_eq_true (by omega), decide_eq_true (by omega)]; rfl
  have hdown : ((-1 : Int) != 0) = true := rfl
  show execTrueMeasure 0 index gap residual toward s = _
  unfold execTrueMeasure
  simp only [onDev_eq, measurable_lane hindex hgap, hchoose, hkind, hx, hwas, hstuck, hlane, if_pos hpos,
    if_pos (show 78125 < residual.natAbs * 10000 by omega), Nat.not_le.2 hfar, hrange, hdown, Dev.figures_latTx, decide_false,
    Bool.false_eq_true, if_false, Bool.not_true, Bool.not_false, Bool.and_false, Bool.false_and, Bool.or_false, Bool.true_and,
    if_true, TrueUnit.measured, Int.sub_eq_add_neg]

theorem exec_trueMeasure_latRx (hchoose : s.dev.chooseTrim 0 index gap = some 5) (hx : (s.dev.unit 0 index).trim 0 5 = x)
    (hnear : residual.natAbs * 10000 ≤ 78125) (hcount : x.count < 3)
    (hfresh : s.clk.atc ≤ x.at_ + (s.dev.unit 0 index).stale * 1966080) (toward : Int) :
    exec (.trueMeasure 0 index gap residual toward) s = .next { s with
      dev := (s.dev.updUnit 0 index fun u => u.measured 5 gap
        { x with count := x.count + 1, residual := residual, at_ := s.clk.atc, seen := true }).updUnit 0 index
          fun u => { u with figures := u.figures.set 7 residual } } := by
  have hwas := TrueUnit.converged_few (u := s.dev.unit 0 index) (by rw [hx]; omega) s.clk.atc
  have hkind : trimKind 0 5 = some ⟨-64, 64, 1967, 78125, 1500000, [1, 2]⟩ := rfl
  have hlane : (decide (0 = 1) && decide (5 = 10)) = false := rfl
  have hstay : ((0 : Int) != 0) = false := rfl
  show execTrueMeasure 0 index gap residual toward s = _
  unfold execTrueMeasure
  simp only [onDev_eq, measurable_lane hindex hgap, hchoose, hkind, hx, hwas, hstuck, hlane, Nat.not_lt.2 hnear,
    if_pos (show residual.natAbs * 10000 ≤ 1500000 by omega), hstay, if_pos hfresh,
    decide_eq_false (show ¬ 4 ≤ x.count + 1 by omega), Nat.min_eq_left (show x.count + 1 ≤ 255 by omega), Dev.figures_latRx,
    Bool.false_eq_true, if_false, Bool.not_false, Bool.and_false, Bool.false_and, Bool.or_false, Int.add_zero, TrueUnit.measured]

end

/-! ### Gaps, ages and stores (R527, R532, R533) -/

theorem exec_trueGapExpire_due (hkind : kind ≤ 2) (hindex : index < unitCount kind) (hopen : (s.dev.unit kind index).gap ≠ 0)
    (hdue : (s.dev.unit kind index).gap ≤ s.clk.atc) :
    exec (.trueGapExpire kind index) s = .next { s with dev := s.dev.updUnit kind index fun u => { u with gap := 0 } } := by
  show execTrueGapExpire kind index s = _
  unfold execTrueGapExpire
  simp [onDev_eq, Nat.not_lt.2 hkind, Nat.not_le.2 hindex, hopen, Nat.not_lt.2 hdue]

theorem exec_trueStale_few {trim : Nat} {x : Trim} (hkind : kind ≤ 2) (hindex : index < unitCount kind)
    (htrim : trim < trimCount kind) (hx : (s.dev.unit kind index).trim kind trim = x) (hcount : 0 < x.count ∧ x.count < 4)
    (hold : x.at_ + (s.dev.unit kind index).stale * 1966080 < s.clk.atc) :
    exec (.trueStale kind index trim) s = .next { s with dev := s.dev.updUnit kind index fun u =>
      { u with trims := tput u.trims trim { x with count := 0 } } } := by
  show execTrueStale kind index trim s = _
  unfold execTrueStale
  simp only [onDev_eq, hx, decide_eq_false (Nat.not_lt.2 hkind), decide_eq_false (Nat.not_le.2 hindex),
    decide_eq_false (Nat.not_le.2 htrim), decide_eq_false (Nat.ne_of_gt hcount.1), decide_eq_false (Nat.not_le.2 hold),
    Nat.not_le.2 hcount.2, Bool.or_false, Bool.false_eq_true, if_false]

theorem exec_trimStore_hour (hsvc : s.dev.mgmt.svc = true) (hhour : s.dev.truing.storedAt + 7077888000000 ≤ s.clk.atc) :
    exec .trimStore s = .next { s with dev := s.dev.updTruing fun t =>
      { t with storedAt := s.clk.atc
               flash := t.units.foldl (fun m u => u.2.trims.foldl (fun m e => tset 0 m (16 * u.1 + e.1) e.2.code) m)
                 t.flash } } := by
  have hdue : (!s.dev.mgmt.svc || decide (s.clk.atc < s.dev.truing.storedAt + 3600 * 1966080000)) = false := by
    rw [hsvc, decide_eq_false (Nat.not_lt.2 hhour)]; rfl
  show execTrimStore s = _
  unfold execTrimStore
  simp only [onDev_eq, hdue, Bool.false_eq_true, if_false]

/-! ### Commands (R535, R536) -/

theorem exec_trueSet_one {enable stale : Nat} (hw : Waits s r 0x0B01 w) (hkind : kind ≤ 2) (hindex : index < unitCount kind)
    (hstale : 10 ≤ stale ∧ stale ≤ 1000) (hone : index ≠ 0xFF) :
    exec (.trueSet r kind index enable stale) s = .next { s with
      dev := answered s.clk w rOk (noted (s.dev.updUnit kind index fun u => { u with enable := enable, stale := stale })) } := by
  refine onDev_serve_journalled hw (by decide) (.inl rfl) (fits_zero w) rfl ?_
  simp only [Nat.not_lt.2 hkind, decide_eq_false (Nat.not_le.2 hindex), decide_eq_false (Nat.not_lt.2 hstale.1),
    decide_eq_false (Nat.not_lt.2 hstale.2), hone, Bool.false_and, Bool.or_false, Bool.false_eq_true, if_false, List.foldl_cons,
    List.foldl_nil]

theorem exec_trueStatus_link {u : TrueUnit} {x : Trim} (hw : Waits s r 0x0B02 w) (hfit : Fits w 79) (hindex : index < 8)
    (hu : s.dev.unit 2 index = u) (hx : u.trim 2 0 = x) (hnone : u.figures = List.replicate 17 0) :
    exec (.trueStatus r 2 index) s = .next { s with
      dev := answered s.clk w (rOk [(1, 1), (2, uns 16 x.code), (1, x.count), (1, (u.converged s.clk.atc 2 0).toNat),
        (4, uns 32 x.residual), (8, x.at_), (2, 0), (2, 0), (2, 0), (2, 0), (2, 0), (2, 0), (4, 0), (4, 0), (4, 0), (4, 0),
        (4, 0), (4, 0), (4, 0), (4, 0), (4, 0), (4, 0), (2, 0), (4, u.ignored), (4, u.broken)]) s.dev } := by
  refine onDev_serve_noFx hw (by decide) hfit ?_
  simp only [Nat.lt_irrefl, Nat.not_le.2 (show index < unitCount 2 from hindex), if_false, hu, hnone]
  rw [← hx]
  rfl

theorem exec_trueReset_disabled (hw : Waits s r 0x0B03 w) (hkind : kind ≤ 2) (hindex : index < unitCount kind)
    (hdisabled : s.dev.unitDisabled kind index = true) :
    exec (.trueReset r kind index) s = .next { s with
      dev := answered s.clk w rOk (noted (s.dev.updUnit kind index fun u => { u with trims := [], last := 0xFF })) } := by
  refine onDev_serve_journalled hw (by decide) (.inl rfl) (fits_zero w) rfl ?_
  simp only [Nat.not_lt.2 hkind, Nat.not_le.2 hindex, hdisabled, Bool.not_true, Bool.and_false, Bool.false_eq_true, if_false,
    Dev.resetTrims]

end

/-- Settles O34: each command has its lemma above. -/
theorem truingSteps : Obligations.TruingSteps := by
  unfold Obligations.TruingSteps
  refine ⟨?latTx, ?latRx, ?gap, ?stale, ?store, ?set, ?status, ?reset⟩
  case latTx =>
    intro s kind index gap id residual toward x ⟨hkind, hindex⟩ hgap hchoose hid hx hstuck hcode hpos hfar hcount
    subst hkind hid
    refine ⟨_, exec_trueMeasure_latTx hindex hgap hstuck hchoose hx hcode hpos hfar hcount toward, ?_, ?_, ?_⟩ <;>
      rw [Dev.unit_updUnit, Dev.unit_updUnit]
    · exact TrueUnit.trim_tput ..
    · rfl
    · rfl
  case latRx =>
    intro s kind index gap id residual toward x ⟨hkind, hindex⟩ hgap hchoose hid hx hstuck hnear hcount hfresh
    subst hkind hid
    refine ⟨_, exec_trueMeasure_latRx hindex hgap hstuck hchoose hx hnear hcount hfresh toward, ?_, ?_⟩ <;>
      rw [Dev.unit_updUnit, Dev.unit_updUnit]
    · exact TrueUnit.trim_tput ..
    · rfl
  case gap =>
    intro s kind index ⟨hkind, hindex⟩ hopen hdue
    exact exec_trueGapExpire_due hkind hindex hopen hdue
  case stale =>
    intro s kind index trim x ⟨hkind, hindex, htrim⟩ hx hcount hold
    exact exec_trueStale_few hkind hindex htrim hx hcount hold
  case store =>
    intro s hsvc hhour
    exact ⟨_, exec_trimStore_hour hsvc hhour, rfl, rfl⟩
  case set =>
    intro s r w kind index enable stale hw ⟨hkind, hindex, hlo, hhi⟩ hone
    exact exec_trueSet_one hw hkind hindex ⟨hlo, hhi⟩ hone
  case status =>
    intro s r w kind index u x hw hfit ⟨hkind, hindex⟩ hu hx hnone
    subst hkind
    exact exec_trueStatus_link hw hfit hindex hu hx hnone
  case reset =>
    intro s r w kind index hw ⟨hkind, hindex⟩ hdisabled
    exact exec_trueReset_disabled hw hkind hindex hdisabled

end Sys2Proof.Machine
end

section
/-! Statement O36: the tandem commands (R540, R543, R544, R554-R557, R559). -/
namespace Sys2Proof.Machine

@[simp] theorem noted_tnd (d : Dev) : (noted d).tnd = d.tnd := rfl
@[simp] theorem answered_tnd (c : Clock) (w : Waiting) (r : Reply) (d : Dev) : (answered c w r d).tnd = d.tnd := by
  unfold answered; rw [Dev.respond_dev]; rfl

section
variable {s : State} {r : Req} {w : Waiting} {link : Nat} {y : Spoke}

/-! ### The group, links, windows, exports and streams (R540, R544, R555-R557) -/

theorem exec_tndGroupSet_few {group topology n : Nat} (hw : Waits s r 0x0C01 w) (htop : topology ≤ 1) (hn : 2 ≤ n ∧ n ≤ 3)
    (hmode : s.dev.devmode.mode ≠ .captain ∧ s.dev.devmode.mode ≠ .stoker) :
    exec (.tndGroupSet r group topology n) s = .next { s with
      dev := answered s.clk w rOk (noted (s.dev.updTnd fun y => { y with group := some (group, topology, n) })) } := by
  have hsize : ¬ (if topology = 0 then 3 < n else 8 < n) := by split <;> omega
  refine onDev_serve_journalled hw (by decide) (.inl rfl) (fits_zero w) rfl ?_
  simp [Nat.not_lt.2 htop, Nat.not_lt.2 hn.1, hsize, hmode]

theorem exec_tndLinkSet_link {asym : Int} (hw : Waits s r 0x0C02 w) (hlink : link < 8) :
    exec (.tndLinkSet r link asym) s = .next { s with
      dev := answered s.clk w rOk (noted (s.dev.updTndLink link fun l => { l with asym := asym })) } := by
  refine onDev_serve_journalled hw (by decide) (.inl rfl) (fits_zero w) rfl ?_
  simp [Nat.not_le.2 hlink]

theorem exec_tndWindowSet_dram {window peer base : Nat} (hw : Waits s r 0x0C06 w) (hwindow : window < 8) (hpeer : peer < 8)
    (halign : base % 0x10000000 = 0) (hregion : regionOf base = .dram) :
    exec (.tndWindowSet r window peer base) s = .next { s with
      dev := answered s.clk w rOk (noted (s.dev.updTnd fun y =>
        { y with windows := tput y.windows window (peer, base) })) } := by
  refine onDev_serve_journalled hw (by decide) (.inl rfl) (fits_zero w) rfl ?_
  simp [Nat.not_le.2 hwindow, Nat.not_le.2 hpeer, show peer ≠ 0xFF by omega, halign, hregion]

theorem exec_tndExportSet_dram {range base size mask : Nat} (hw : Waits s r 0x0C07 w) (hrange : range < 8) (hsize : size ≠ 0)
    (hfirst : regionOf base = .dram) (hlast : regionOf (base + size - 1) = .dram) :
    exec (.tndExportSet r range base size mask) s = .next { s with
      dev := answered s.clk w rOk (noted (s.dev.updTnd fun y =>
        { y with exports := tput y.exports range (base, size, mask) })) } := by
  refine onDev_serve_journalled hw (by decide) (.inl rfl) (fits_zero w) rfl ?_
  simp [Nat.not_le.2 hrange, hsize, hfirst, hlast]

theorem exec_tndStreamSet_enable {stream outlet spoke dirs pcid : Nat} {y : Stream} (hw : Waits s r 0x0C08 w)
    (hy : s.dev.stream stream = some y) (hsees : Sees w.func y.owner) (houtlet : outlet < 8)
    (hother : outlet ≠ s.dev.pkg.tandemId) (hspoke : spoke < 144) (hdirs : 1 ≤ dirs ∧ dirs ≤ 3)
    (hrest : s.dev.streamBusy stream y = false) :
    exec (.tndStreamSet r stream outlet spoke dirs pcid 1 true) s = .next { s with
      dev := answered s.clk w rOk (noted (s.dev.updTnd fun z => { z with
        streams := tput z.streams stream { outlet := outlet, spoke := spoke, dirs := dirs, pcid := pcid } })) } := by
  refine onDev_serve_journalled hw (by decide) (.inl rfl) (fits_zero w) rfl ?_
  simp [hy, Ctx.sees_of_sees, hsees, Nat.not_le.2 houtlet, hother, Nat.not_le.2 hspoke, show dirs ≠ 0 by omega,
    Nat.not_lt.2 hdirs.2, hrest]

theorem exec_tndXchgSet_off {chan owner pool base log prio timed deadline srcBase srcSize dstBase dstSize : Nat}
    (hw : Waits s r 0x0C09 w) (hchan : 576 ≤ chan ∧ chan < 592) (howner : owner = 1 ∨ owner = 2) (hpool : pool < 64)
    (hbase : inMemory base (64 * 2 ^ log) = true) (hlog : 3 ≤ log ∧ log ≤ 12) (hprio : prio ≤ 3) (htimed : timed ≤ 1)
    (hdeadline : deadline ≤ 1) (hoff : (s.dev.chan chan).dis = .off) :
    exec (.tndXchgSet r chan owner pool base log prio timed deadline srcBase srcSize dstBase dstSize) s = .next { s with
      dev := answered s.clk w rOk (noted (s.dev.updChan chan fun k => { k with
        owner := owner, pool := pool, base := base, log := log, prio := prio, timed := timed = 1, deadline := deadline = 1
        srcWin := (srcBase, srcSize), dstWin := (dstBase, dstSize), dis := .on, stall := false, starts := 0 })) } := by
  refine onDev_serve_journalled hw (by decide) (.inl rfl) (fits_zero w) rfl ?_
  rw [if_neg (by simp [Nat.not_lt.2 hchan.1, Nat.not_le.2 hchan.2]),
    Dev.chanSet_off howner hpool hbase hlog hprio htimed hdeadline hoff]

/-! ### Status and handback (R554, R559) -/

theorem exec_tndStatus_next (hw : Waits s r 0x0C03 w) (hfit : Fits w 93) :
    exec (.tndStatus r) s = .next { s with
      dev := answered s.clk w (rOk ([(1, s.dev.pkg.tandemId), (1, s.dev.tnd.epoch), (1, s.dev.tnd.following.toNat),
        (1, s.dev.upstream.getD 0xFF), (8, uns 64 s.dev.tnd.offset), (1, s.dev.tnd.members)] ++
          (List.range 8).flatMap fun k => [(1, ((s.dev.spoke (256 + k)).map fun z => z.st.code).getD 0),
            (1, s.dev.linkReason k), (8, (s.dev.tndLink k).delay)])) s.dev } :=
  onDev_serve_noFx hw (by decide) hfit rfl

section
variable {boundary : Nat} (hw : Waits s r 0x0C0A w) (haligned : boundary % 19660800 = 0) (hmode : s.dev.devmode.mode = .captain)
  (hacting : s.dev.pkg.tandemId ≠ 0) (hpend : s.dev.devmode.pend = none) (hnone : s.dev.tnd.handback = none)
include hw haligned hmode hacting hpend hnone

theorem exec_tndHandback_ahead (hahead : s.clk.atc + 39321600 ≤ boundary) :
    exec (.tndHandback r boundary) s = .next { s with
      dev := answered s.clk w rAcc (noted (s.dev.updTnd fun y => { y with handback := some (boundary, w.tag) })) } := by
  refine onDev_serve_journalled hw (by decide) (.inr rfl) (fits_zero w) rfl ?_
  simp [haligned, hmode, hacting, hpend, hnone, Nat.not_lt.2 hahead]

theorem exec_tndHandback_near (hnear : boundary < s.clk.atc + 39321600) :
    exec (.tndHandback r boundary) s = .next { s with dev := answered s.clk w (rSt 0x0032) s.dev } := by
  refine onDev_serve_refused hw (by decide) (fits_zero w) ?_
  simp [haligned, hmode, hacting, hpend, hnone, hnear, stLATE]

end

/-! ### Links: disable, enable and self-test (R412, R540, R543) -/

theorem exec_tndLinkDisable_active (hw : Waits s r 0x0C04 w) (hfit : Fits w 8) (hlink : link < 8)
    (hy : s.dev.spoke (256 + link) = some y) (hst : y.st = .active) (hdis : y.dis = .on) :
    exec (.tndLinkDisable r link 0) s = .next { s with
      dev := answered s.clk w (rAcc [(8, s.clk.atc)]) (noted (s.dev.updSpoke (256 + link) fun y =>
        { y with dis := .ending false s.clk.atc w.tag })) } := by
  refine onDev_serveThen_rest (onDev_serve_journalled hw (by decide) (.inr rfl) hfit (Dev.updSpoke_host ..) ?handler) ?post
  case handler => simp [Nat.not_le.2 hlink, hy, hdis, Dis.isEnding, Dev.disableSpoke_active hy hst]
  case post =>
    intro x
    rw [Dev.spoke_congr (answered_spk ..), Dev.spoke_congr (noted_spk _), Dev.spoke_updSpoke, hy]
    simp [hst]

/-- The lanes of a tandem link (R389, R540). -/
theorem Spoke.lanes_link (h : y.port = 8) (link : Nat) : y.lanes (256 + link) = [256 + 2 * link, 257 + 2 * link] := by
  simp [Spoke.lanes, Spoke.type, h, portType, firstLane, List.range_succ]
  omega

/-- A tandem link starts again with the SPOKE rate (R400, R540). -/
theorem Dev.spoke_restartSpoke_link {d : Dev} (hy : d.spoke (256 + link) = some y) (c : Clock) :
    (d.restartSpoke c (256 + link)).spoke (256 + link) = some { y.restarted c (d.laneOptical (256 + 2 * link)) with
      fast := true } := by
  have hfirst : firstLane (256 + link) = 256 + 2 * link := by unfold firstLane; rw [if_neg (by omega)]; omega
  have hserial : (decide (256 + link < 128) && y.fast) = false := by
    rw [decide_eq_false (by omega)]; rfl
  unfold Dev.restartSpoke
  rw [hy]
  dsimp only
  rw [hserial, if_neg Bool.false_ne_true, Dev.spoke_updSpoke, Dev.spoke_abortScans, Dev.spoke_congr (Dev.noteDown_spk ..), hy,
    hfirst]
  simp [Spoke.restarted]

theorem Dev.spoke_enabled_link {d : Dev} (hy : d.spoke (256 + link) = some y) (c : Clock) :
    ((d.clearedSpoke (256 + link)).restartSpoke c (256 + link)).spoke (256 + link) =
      some { { y with dis := .on, fails := 0, reason := 0 }.restarted c (d.laneOptical (256 + 2 * link)) with fast := true } := by
  have hcleared : (d.clearedSpoke (256 + link)).spoke (256 + link) = some { y with dis := .on, fails := 0, reason := 0 } := by
    simp [Dev.clearedSpoke, hy]
  rw [Dev.spoke_restartSpoke_link hcleared]
  simp [Dev.clearedSpoke]

theorem Dev.enableSpoke_link {d : Dev} (hy : d.spoke (256 + link) = some y) (hrest : y.resting = true) (hport : y.port = 8)
    (hbar : d.laneBar (256 + 2 * link) 112500000 = none ∧ d.laneBar (257 + 2 * link) 112500000 = none)
    (hretired : (d.lane (256 + 2 * link)).retired = false ∧ (d.lane (257 + 2 * link)).retired = false) (c : Clock) :
    d.enableSpoke c (256 + link) = (d.clearedSpoke (256 + link)).restartSpoke c (256 + link) := by
  have hlanes : ∀ z : Spoke, z.port = 8 → z.lanes (256 + link) = [256 + 2 * link, 257 + 2 * link] :=
    fun z hz => Spoke.lanes_link hz link
  have htype : ∀ z : Spoke, z.port = 8 → z.type.fast = 112500000 := fun z hz => by simp [Spoke.type, hz, portType]
  unfold Dev.enableSpoke Dev.bringUp Dev.clearedSpoke
  simp [hy, hrest, hlanes, htype, hport, Dev.laneBar_updSpoke, hbar, hretired]

theorem exec_tndLinkEnable_resting (hw : Waits s r 0x0C05 w) (hlink : link < 8) (hused : (s.dev.linkPeer link).isSome = true)
    (hy : s.dev.spoke (256 + link) = some y) (hrest : y.resting = true) (hport : y.port = 8)
    (hbar : s.dev.laneBar (256 + 2 * link) 112500000 = none ∧ s.dev.laneBar (257 + 2 * link) 112500000 = none)
    (hretired : (s.dev.lane (256 + 2 * link)).retired = false ∧ (s.dev.lane (257 + 2 * link)).retired = false) :
    exec (.tndLinkEnable r link) s = .next { s with
      dev := answered s.clk w rOk (noted ((s.dev.clearedSpoke (256 + link)).restartSpoke s.clk (256 + link))) } := by
  have hquiet : y.dis.isEnding = false := by
    unfold Spoke.resting at hrest
    simp only [Bool.and_eq_true, Bool.not_eq_true'] at hrest
    exact hrest.1.2
  refine onDev_serve_journalled hw (by decide) (.inl rfl) (fits_zero w) ?_ ?_
  · rw [Dev.restartSpoke_host]; simp [Dev.clearedSpoke]
  · simp [Nat.not_le.2 hlink, Option.isNone_eq_false_iff.2 hused, hy, hquiet, Dev.enableSpoke_link hy hrest hport hbar hretired]

theorem exec_tndLinkSelftest_disabled (hw : Waits s r 0x0C0B w) (hlink : link < 8) (hy : s.dev.spoke (256 + link) = some y)
    (hst : y.st = .disabled) :
    exec (.tndLinkSelftest r link) s = .next { s with
      dev := answered s.clk w rAcc (noted (s.dev.testLanes s.clk [256 + 2 * link, 257 + 2 * link] (some w.tag))) } := by
  refine onDev_serve_journalled hw (by decide) (.inr rfl) (fits_zero w) rfl ?_
  simp [Nat.not_le.2 hlink, hy, hst]

/-- Each of two lanes under test has its time and its command (R407). -/
theorem Dev.lane_testLanes {d : Dev} {a b : Nat} (hne : a ≠ b) (c : Clock) (tag : Option Nat) :
    (d.testLanes c [a, b] tag).lane a = { d.lane a with testAt := c.atc + 1, asked := tag } ∧
      (d.testLanes c [a, b] tag).lane b = { d.lane b with testAt := c.atc + 1, asked := tag } := by
  simp [Dev.testLanes, Dev.lane, Dev.updLane, tget_tmod, hne, hne.symm]

end

/-- Settles O36: each command has its lemma above. -/
theorem tandemCommands : Obligations.TandemCommands := by
  unfold Obligations.TandemCommands
  refine ⟨?group, ?link, ?status, ?disable, ?enable, ?window, ?exported, ?stream, ?exchange, ?ahead, ?near, ?test⟩
  case group =>
    intro s r w group topology n hw ⟨htop, hn⟩ hmode
    exact exec_tndGroupSet_few hw htop hn hmode
  case link =>
    intro s r w link asym hw hlink
    exact exec_tndLinkSet_link hw hlink
  case status =>
    intro s r w hw hfit
    exact ⟨_, exec_tndStatus_next hw hfit, answered_host_congr s.clk w _ rfl, answered_tnd ..⟩
  case disable =>
    intro s r w link mode y hw hfit hlink hmode hy hst hdis
    subst hmode
    exact exec_tndLinkDisable_active hw hfit hlink hy hst hdis
  case enable =>
    intro s r w link y hw hlink hused hy hrest hbar hretired
    subst hrest
    refine ⟨_, exec_tndLinkEnable_resting hw hlink hused hy rfl rfl hbar hretired, answered_host_congr s.clk w _ ?_, ?_, ?_⟩
    · rw [noted_host, Dev.restartSpoke_host]
      simp [Dev.clearedSpoke]
    all_goals
      rw [Dev.spoke_congr (answered_spk ..), Dev.spoke_congr (noted_spk _), Dev.spoke_enabled_link hy]
      simp [Spoke.restarted]
  case window =>
    intro s r w window peer base hw ⟨hwindow, hpeer⟩ halign hregion
    exact exec_tndWindowSet_dram hw hwindow hpeer halign hregion
  case exported =>
    intro s r w range base size mask hw hrange hsize hfirst hlast
    exact exec_tndExportSet_dram hw hrange hsize hfirst hlast
  case stream =>
    intro s r w stream outlet spoke dirs pcid enable fits y hw hy hsees ⟨houtlet, hother, hspoke, hdirs⟩ henable hrest hfits
    subst henable hfits
    exact exec_tndStreamSet_enable hw hy hsees houtlet hother hspoke hdirs hrest
  case exchange =>
    intro s r w chan owner pool base log prio timed deadline srcBase srcSize dstBase dstSize hw hchan howner
      ⟨hpool, hlo, hhi, hprio, htimed, hdeadline⟩ hbase hoff
    exact exec_tndXchgSet_off hw hchan howner hpool hbase ⟨hlo, hhi⟩ hprio htimed hdeadline hoff
  case ahead =>
    intro s r w boundary hw haligned hmode hacting hpend hnone hahead
    exact exec_tndHandback_ahead hw haligned hmode hacting hpend hnone hahead
  case near =>
    intro s r w boundary hw haligned hmode hacting hpend hnone hnear
    exact exec_tndHandback_near hw haligned hmode hacting hpend hnone hnear
  case test =>
    intro s r w link y hw hlink hy hst
    have hlanes := Dev.lane_testLanes (d := s.dev) (show 256 + 2 * link ≠ 257 + 2 * link by omega) s.clk (some w.tag)
    refine ⟨_, exec_tndLinkSelftest_disabled hw hlink hy hst, answered_host_congr s.clk w _ rfl, ?_, ?_, ?_⟩ <;>
      rw [Dev.lane_congr (answered_spk ..), Dev.lane_congr (noted_spk _)]
    · rw [hlanes.1]
    · rw [hlanes.2]
    · rw [hlanes.2]

end Sys2Proof.Machine
end

section
/-! What events and answers leave of the management record (R67, R68, R562, R567): a lost event may set a trouble bit. -/
namespace Sys2Proof.Machine

/-- `e` differs from `d` at most in the host interface and in trouble bits that have been set. -/
structure SameMgmt (d e : Dev) : Prop where
  dev : e = { d with host := e.host, mgmt := e.mgmt, cyc := e.cyc }
  mgmt : e.mgmt = { d.mgmt with trb := e.mgmt.trb }
  kept : ∀ {w i}, d.troubled w i → e.troubled w i

namespace SameMgmt
variable {d e f : Dev}

theorem refl (d : Dev) : SameMgmt d d := ⟨rfl, rfl, id⟩

theorem trans (h : SameMgmt d e) (k : SameMgmt e f) : SameMgmt d f :=
  ⟨by rw [k.dev, h.dev], by rw [k.mgmt, h.mgmt], fun hd => k.kept (h.kept hd)⟩

theorem of_hostOnly (h : HostOnly d e) (hm : e.mgmt = d.mgmt) : SameMgmt d e :=
  ⟨h.dev, by rw [hm], fun hd => Dev.troubled_congr hd (by rw [hm])⟩

theorem trouble (d : Dev) (w b : Nat) : SameMgmt d (d.trouble w b) := ⟨rfl, rfl, fun hd => hd.trouble w b⟩

theorem updFunc (d : Dev) (f : Nat) (g : Func → Func) : SameMgmt d (d.updFunc f g) := of_hostOnly (.updFunc d f g) rfl

theorem cause (c : Clock) (d : Dev) (f v : Nat) : SameMgmt d (d.cause c f v) := of_hostOnly (.cause c d f v) (Dev.cause_mgmt c d f v)

theorem post (c : Clock) (d : Dev) (f : Nat) (e : Event) : SameMgmt d (d.post c f e) := by
  unfold Dev.post
  dsimp only
  split
  · exact .refl d
  · split
    · split
      · exact .updFunc d f _
      · exact .trans (.trouble d 33 trbOVERFLOW) (.updFunc _ f _)
    · exact of_hostOnly (.writeEvent c d f e) (by unfold Dev.writeEvent; rw [Dev.cause_mgmt]; rfl)

theorem evt (c : Clock) (d : Dev) (ring own code tag : Nat) (fs : List (Nat × Nat × Nat)) :
    SameMgmt d (d.evt c ring own code tag fs) := .post c d ring _

theorem evt0 (c : Clock) (d : Dev) (code tag : Nat) (fs : List (Nat × Nat × Nat)) : SameMgmt d (d.evt0 c code tag fs) :=
  .evt c d 0 0 code tag fs

theorem respond (c : Clock) (d : Dev) (w : Waiting) (r : Reply) : SameMgmt d (d.respond c w r) := by
  have hanswer : ∀ g : Func → Func, SameMgmt d ((d.updHost fun h => h.answer w r).updFunc w.page g) :=
    fun _ => ⟨rfl, rfl, id⟩
  unfold Dev.respond
  dsimp only
  split <;> split
  · exact .trans (hanswer _) (.evt ..)
  · exact hanswer _
  · exact .trans (.trans (hanswer _) (.evt ..)) (.cause ..)
  · exact .trans (hanswer _) (.cause ..)

theorem answered (c : Clock) (w : Waiting) (r : Reply) (d : Dev) : SameMgmt d (answered c w r d) :=
  .trans (e := d.updHost fun h => { h with lastServed := w.page }) ⟨rfl, rfl, id⟩ (.respond c _ w r)

theorem foldl {α : Type} {g : Dev → α → Dev} (hg : ∀ d a, SameMgmt d (g d a)) (l : List α) (d : Dev) : SameMgmt d (l.foldl g d) := by
  induction l generalizing d with
  | nil => exact .refl d
  | cons a l ih => exact .trans (hg d a) (ih _)

theorem answerAll (c : Clock) (d : Dev) (status : Nat) : SameMgmt d (d.answerAll c status) :=
  foldl (fun d w => .respond c d w (rSt status)) _ d

theorem evtAll (c : Clock) (d : Dev) (code : Nat) (fs : List (Nat × Nat × Nat)) : SameMgmt d (d.evtAll c code fs) :=
  foldl (fun d f => .evt c d f f code 0 fs) _ d

end SameMgmt

end Sys2Proof.Machine
end

section
/-! Statement O37: heartbeats, takeover, coast, supervisor and restart of the management processor (R562-R577). -/
namespace Sys2Proof.Machine

/-! ### What limp, the coast and a cause make of the management record (R562, R564, R567, R573) -/

/-- The record of a device in limp: the failed pair is in reset (R562, R564). -/
def Mgmt.limping (m : Mgmt) (now cause tag : Nat) : Mgmt :=
  { m.setPair m.activeB .testing with limp := true, limpCause := some (cause, now, tag), lastTakeover := now }

theorem Mgmt.setPair_trb (m : Mgmt) (b : Bool) (p : PairSt) (t : Tab (BitVec 16)) :
    ({ m with trb := t } : Mgmt).setPair b p = { m.setPair b p with trb := t } := by
  unfold Mgmt.setPair; split <;> rfl

theorem Dev.startLimp_mgmt (c : Clock) (cause : Nat) (d : Dev) (tag : Nat) :
    (d.startLimp c cause tag).mgmt =
      { d.mgmt.limping c.atc cause tag with trb := (d.startLimp c cause tag).mgmt.trb } := by
  have hanswers := (SameMgmt.answerAll c d stNOTREADY).mgmt
  unfold Dev.startLimp
  rw [(SameMgmt.evtAll ..).mgmt]
  dsimp only [Dev.updMgmt_mgmt]
  rw [hanswers, Mgmt.setPair_trb]
  rfl

/-- Limp after a failure of pair A (R562, R564). -/
theorem Dev.startLimp_first {d : Dev} (hactive : d.mgmt.activeB = false) (c : Clock) (cause tag : Nat) :
    (d.startLimp c cause tag).mgmt.limp = true ∧ (d.startLimp c cause tag).mgmt.limpCause = some (cause, c.atc, tag) ∧
      (d.startLimp c cause tag).mgmt.pairA = .testing ∧ (d.startLimp c cause tag).mgmt.activeB = false := by
  rw [Dev.startLimp_mgmt]
  simp [Mgmt.limping, Mgmt.setPair, hactive]

theorem Dev.troubled.startLimp {d : Dev} {w i : Nat} (h : d.troubled w i) (c : Clock) (cause tag : Nat) :
    (d.startLimp c cause tag).troubled w i := by
  have hanswers := (SameMgmt.answerAll c d stNOTREADY).kept h
  unfold Dev.startLimp
  refine (SameMgmt.evtAll ..).kept (Dev.troubled_congr hanswers ?_)
  dsimp only [Dev.updMgmt_mgmt]
  unfold Mgmt.setPair
  split <;> rfl

theorem Dev.trouble_coastMs (d : Dev) (w b : Nat) : (d.trouble w b).mgmt.coastMs = d.mgmt.coastMs := rfl

theorem Dev.startCoast_mgmt (c : Clock) (cause : Nat) (d : Dev) :
    (d.startCoast c cause).mgmt = { d.mgmt with
      coasting := true, coastEnd := some (upTo (c.atc + d.mgmt.coastMs * 1966080) 19660800, cause)
      trb := (d.startCoast c cause).mgmt.trb } := by
  unfold Dev.startCoast
  rw [(SameMgmt.answerAll ..).mgmt]
  rfl

/-- A cause is logged: the log and the trouble words change alone (R573, R574). -/
theorem Dev.log_mgmt (c : Clock) (d : Dev) (w b code : Nat) (data : List Byte) :
    (d.log c w b code data).mgmt = { d.mgmt with
      trb := (d.log c w b code data).mgmt.trb, log := (d.log c w b code data).mgmt.log
      logProd := (d.log c w b code data).mgmt.logProd, logLost := (d.log c w b code data).mgmt.logLost } := by
  unfold Dev.log Dev.logOnly
  dsimp only [Dev.updMgmt_mgmt]
  split <;> rfl

section
variable {s : State}

/-! ### A pair fails (R562, R564, R567) -/

theorem exec_pairFailed_standby (hup : s.dev.mgmt.svc = true ∧ s.dev.mgmt.fatal = false ∧ s.dev.mgmt.coasting = false ∧
    s.dev.mgmt.limp = false ∧ s.dev.mgmt.supHeld = false) (hactive : s.dev.mgmt.activeB = false)
    (hready : s.dev.mgmt.pairB = .ready) (hrun : s.dev.mgmt.fwRun = none) :
    exec (.pairFailed 0 2) s = .next { s with dev := (s.dev.trouble 34 trbUE).startLimp s.clk 2 } := by
  obtain ⟨hsvc, hfatal, hcoast, hlimp, hheld⟩ := hup
  have hok : s.dev.mgmt.standbyOk = true := by simp [Mgmt.standbyOk, Mgmt.standby, Mgmt.pair, hactive, hready]
  show execPairFailed 0 2 s = _
  unfold execPairFailed
  simp [onDev_eq, hsvc, hfatal, hcoast, hlimp, hheld, hactive, hok, hrun, pairBlock]

theorem exec_pairFailed_alone (hup : s.dev.mgmt.svc = true ∧ s.dev.mgmt.fatal = false ∧ s.dev.mgmt.coasting = false ∧
    s.dev.mgmt.limp = false ∧ s.dev.mgmt.supHeld = false) (hactive : s.dev.mgmt.activeB = false)
    (hretired : s.dev.mgmt.pairB = .retired) :
    exec (.pairFailed 0 2) s = .next { s with dev := (s.dev.trouble 34 trbUE).startCoast s.clk 1 } := by
  obtain ⟨hsvc, hfatal, hcoast, hlimp, hheld⟩ := hup
  have hok : s.dev.mgmt.standbyOk = false := by simp [Mgmt.standbyOk, Mgmt.standby, Mgmt.pair, hactive, hretired]
  show execPairFailed 0 2 s = _
  unfold execPairFailed
  simp [onDev_eq, hsvc, hfatal, hcoast, hlimp, hheld, hactive, hok, pairBlock]

/-! ### The standby takes over (R563, R564, R566) -/

/-- The record after pair B has taken over from a failed pair A (R564). -/
def Mgmt.takenOver (m : Mgmt) (now : Nat) : Mgmt :=
  { m with pairA := .testing, pairB := .active, activeB := true, limp := false, limpCause := none
           takeovers := (m.takeovers + 1) % 2 ^ 32, beat := (now, now) }

/-- The block of which pair B has taken over, its events posted (R564, R566). -/
def Dev.takenOver (c : Clock) (d : Dev) (at_ tag : Nat) : Dev :=
  (((d.updMgmt fun m => m.takenOver c.atc).evtAll c 0x0182 [(0, 1, 2)]).evt0 c 0x0F80 tag
    [(0, 1, 1), (1, 1, 2), (8, 8, at_)]).evt0 c 0x0F81 0 [(0, 1, PairSt.testing.code)]

theorem SameMgmt.takenOver (c : Clock) (d : Dev) (at_ tag : Nat) :
    SameMgmt (d.updMgmt fun m => m.takenOver c.atc) (d.takenOver c at_ tag) :=
  .trans (.trans (.evtAll ..) (.evt0 ..)) (.evt0 ..)

theorem Dev.updMgmt_congr {d : Dev} {f g : Mgmt → Mgmt} (h : f d.mgmt = g d.mgmt) : d.updMgmt f = d.updMgmt g := by
  unfold Dev.updMgmt; rw [h]

theorem exec_mgmtTakeover_failed {at_ tag : Nat} (hlimp : s.dev.mgmt.limp = true)
    (hcause : s.dev.mgmt.limpCause = some (2, at_, tag)) (hactive : s.dev.mgmt.activeB = false)
    (hheld : s.dev.mgmt.limpHeld = []) :
    exec .mgmtTakeover s = .next { s with
      dev := (s.dev.takenOver s.clk at_ tag).updMgmt fun m => { m with limpHeld := [] } } := by
  have hrecord : ((((s.dev.updMgmt fun m => m.takenOver s.clk.atc).evtAll s.clk 0x0182 [(0, 1, 2)]).evt0 s.clk 0x0F80 tag
      [(0, 1, 1), (1, 1, 2), (8, 8, at_)])).mgmt.standby = .testing := by
    rw [(SameMgmt.trans (.evtAll ..) (.evt0 ..)).mgmt]; rfl
  have hnone : (s.dev.takenOver s.clk at_ tag).mgmt.limpHeld = [] := by
    rw [(SameMgmt.takenOver ..).mgmt]; exact hheld
  show execMgmtTakeover s = _
  unfold execMgmtTakeover
  simp only [onDev_eq, hlimp, hcause]
  rw [Dev.updMgmt_congr (d := s.dev) (g := fun m => m.takenOver s.clk.atc) ?record]
  case record => simp [hactive, Mgmt.setPair, Mgmt.takenOver]
  simp only [hactive, Bool.not_false, Bool.toNat_true, hrecord, reduceCtorEq, if_false]
  unfold Dev.takenOver at hnone ⊢
  rw [hnone]
  rfl

theorem exec_checkpoint_next (hup : s.dev.mgmt.limp = false ∧ s.dev.mgmt.fatal = false ∧ s.dev.mgmt.coasting = false)
    (hrun : s.dev.mgmt.fwRun = none) :
    exec .checkpoint s = .next { s with
      dev := s.dev.updMgmt fun m => { m with ckptAt := s.clk.atc, journal := 0 } } := by
  obtain ⟨hlimp, hfatal, hcoast⟩ := hup
  show execCheckpoint s = _
  unfold execCheckpoint
  simp [onDev_eq, hlimp, hfatal, hcoast, hrun]

theorem exec_mgmtStandby_ready (hup : s.dev.mgmt.limp = false ∧ s.dev.mgmt.fatal = false ∧ s.dev.mgmt.activeB = false)
    (hloading : s.dev.mgmt.pairB = .loading) (hrun : s.dev.mgmt.fwRun = none) :
    exec (.mgmtStandby true) s = .next { s with
      dev := (s.dev.updMgmt fun m => { m with pairB := .ready }).evt0 s.clk 0x0F81 0 [(0, 1, 0)] } := by
  obtain ⟨hlimp, hfatal, hactive⟩ := hup
  have hstandby : s.dev.mgmt.standby = .loading := by simp [Mgmt.standby, Mgmt.pair, hactive, hloading]
  have hset : (s.dev.updMgmt fun m => m.setPair (!m.activeB) .ready) = s.dev.updMgmt fun m => { m with pairB := .ready } := by
    simp [Dev.updMgmt, Mgmt.setPair, hactive]
  show execMgmtStandby true s = _
  unfold execMgmtStandby Dev.setStandby
  simp only [onDev_eq, hlimp, hfatal, hstandby, hrun, hset, Bool.or_self, Bool.not_true, Bool.false_eq_true, if_false]
  rfl

/-! ### Fatal (R567) and the supervisor (R569) -/

/-- The block that has gone fatal at `q`, its event not yet posted (R567). -/
def Dev.goneFatal (c : Clock) (d : Dev) (q cause : Nat) : Dev :=
  (((d.log c 36 trbFATAL 0x0F82 (evd [(0, 1, cause), (8, 8, q)])).updMgmt fun m =>
    { m with fatal := true, fatalCause := cause, fatalAt := q, coastEnd := none }).updMgmt fun m =>
      { m with logFlash := some m.log }).updAir fun a =>
        { a with carriers := a.carriers.map fun e => (e.1, { e.2 with stopped := true }) }

theorem exec_mgmtFatal_due {q cause : Nat} (hcoast : s.dev.mgmt.coasting = true) (hend : s.dev.mgmt.coastEnd = some (q, cause))
    (hdue : q ≤ s.clk.atc) (hfatal : s.dev.mgmt.fatal = false) :
    exec .mgmtFatal s = .next { s with
      dev := (s.dev.goneFatal s.clk q cause).evtAll s.clk 0x0F82 [(0, 1, cause), (8, 8, q)] } := by
  show execMgmtFatal s = _
  unfold execMgmtFatal
  simp only [onDev_eq, hcoast, hend, hfatal, decide_eq_false (Nat.not_lt.2 hdue), Bool.or_self, Bool.false_eq_true, if_false]
  rfl

/-- The block of which the supervisor has been restarted, the restarts of the last second at `times` (R569). -/
def Dev.supRestarted (c : Clock) (d : Dev) (times : List Nat) : Dev :=
  ((d.updMgmt fun m => { m with
    supRestarts := (m.supRestarts + 1) % 2 ^ 32, supTimes := times, supHeld := 3 ≤ times.length }).log c 36 trbHALT 0x0F47
      (le 1 times.length)).evt0 c 0x0F83 0 [(0, 1, times.length), (1, 1, (decide (3 ≤ times.length)).toNat)]

theorem exec_mgmtSupervisor_restart (hheld : s.dev.mgmt.supHeld = false) :
    exec .mgmtSupervisor s = .next { s with
      dev := s.dev.supRestarted s.clk (s.clk.atc :: s.dev.mgmt.supTimes.filter fun t => s.clk.atc < t + 1966080000) } := by
  show execMgmtSupervisor s = _
  unfold execMgmtSupervisor
  simp only [onDev_eq, hheld, Bool.false_eq_true, if_false]
  rfl

theorem Dev.supRestarted_mgmt (c : Clock) (d : Dev) (times : List Nat) :
    (d.supRestarted c times).mgmt.supRestarts = (d.mgmt.supRestarts + 1) % 2 ^ 32 ∧
      (d.supRestarted c times).mgmt.supTimes = times ∧
      (d.supRestarted c times).mgmt.supHeld = decide (3 ≤ times.length) := by
  unfold Dev.supRestarted
  rw [(SameMgmt.evt0 ..).mgmt, Dev.log_mgmt]
  exact ⟨rfl, rfl, rfl⟩

/-! ### Restart (R570) -/

theorem exec_warmRestart_keyed (hphase : s.dev.startup.phase = .service) (hrun : s.clk.run = true) :
    exec (.warmRestart 0xA5 true) s = .next { s with dev := s.dev.warmRestart s.clk } := by
  show execWarmRestart 0xA5 true s = _
  unfold execWarmRestart Dev.restartWrite
  simp [onDev_eq, hphase, hrun]

theorem exec_warmRestart_other {key : Nat} {go : Bool} (h : key ≠ 0xA5 ∨ go = false) :
    exec (.warmRestart key go) s = .next s := by
  have hkey : (decide (key = 0xA5) && go) = false := by
    obtain h | h := h
    · rw [decide_eq_false h]; rfl
    · rw [h, Bool.and_false]
  show execWarmRestart key go s = _
  unfold execWarmRestart Dev.restartWrite
  simp only [onDev_eq, hkey, Bool.false_and, Bool.false_eq_true, if_false]

end

/-- Settles O37: each command has its lemma above. -/
theorem managementEvents : Obligations.ManagementEvents := by
  unfold Obligations.ManagementEvents
  refine ⟨?beat, ?limp, ?coast, ?takeover, ?checkpoint, ?standby, ?fatal, ?restart, ?third, ?warm, ?unkeyed, ?clear⟩
  case beat =>
    intro s pair
    rfl
  case limp =>
    intro s pair cause hup hpair hactive hcause hready hrun
    subst hpair hcause
    have hbit : ((s.dev.trouble 34 trbUE).startLimp s.clk 2).troubled 34 1 :=
      (Dev.troubled_trouble s.dev 34 (b := 1) (by decide)).startLimp s.clk 2 0
    obtain ⟨hlimp, hcause, hpair, hkept⟩ := Dev.startLimp_first (d := s.dev.trouble 34 trbUE) hactive s.clk 2 0
    refine ⟨_, exec_pairFailed_standby hup hactive hready hrun, ?_⟩
    dsimp only
    exact ⟨hlimp, hcause, hpair, hkept, hbit⟩
  case coast =>
    intro s pair cause hup hpair hactive hcause hretired
    subst hpair hcause
    refine ⟨_, exec_pairFailed_alone hup hactive hretired, ?_⟩
    rw [Dev.startCoast_mgmt]
    exact ⟨rfl, congrArg (fun n => some (upTo (s.clk.atc + n * 1966080) 19660800, 1)) (Dev.trouble_coastMs ..), hup.2.2.2.1⟩
  case takeover =>
    intro s at_ tag hlimp hcause hactive hheld
    refine ⟨_, exec_mgmtTakeover_failed hlimp hcause hactive hheld, ?_, ?_, ?_, ?_, ?_, ?_⟩ <;>
      rw [Dev.updMgmt_mgmt, (SameMgmt.takenOver ..).mgmt, Dev.updMgmt_mgmt, Mgmt.takenOver]
  case checkpoint =>
    intro s hup hrun
    exact exec_checkpoint_next hup hrun
  case standby =>
    intro s pass hup hloading hpass hrun
    subst hpass
    exact exec_mgmtStandby_ready hup hloading hrun
  case fatal =>
    intro s q cause hcoast hend hdue hfatal
    have hevents := SameMgmt.evtAll s.clk (s.dev.goneFatal s.clk q cause) 0x0F82 [(0, 1, cause), (8, 8, q)]
    refine ⟨_, exec_mgmtFatal_due hcoast hend hdue hfatal, ?_, ?_, ?_, ?_, ?_⟩
    · rw [hevents.mgmt]; rfl
    · rw [hevents.mgmt]; rfl
    · rw [hevents.mgmt]; rfl
    · rw [hevents.mgmt]; rfl
    · rw [hevents.dev]; rfl
  case restart =>
    intro s hheld hnone
    obtain ⟨hcount, htimes, hstop⟩ := Dev.supRestarted_mgmt s.clk s.dev
      (s.clk.atc :: s.dev.mgmt.supTimes.filter fun t => s.clk.atc < t + 1966080000)
    refine ⟨_, exec_mgmtSupervisor_restart hheld, hcount, ?_, ?_⟩
    · rw [htimes, hnone]; rfl
    · rw [hstop, hnone]; rfl
  case third =>
    intro s a c hheld htwo hrecent
    obtain ⟨hcount, -, hstop⟩ := Dev.supRestarted_mgmt s.clk s.dev
      (s.clk.atc :: s.dev.mgmt.supTimes.filter fun t => s.clk.atc < t + 1966080000)
    refine ⟨_, exec_mgmtSupervisor_restart hheld, hcount, ?_⟩
    rw [hstop, htwo]
    simp [hrecent]
  case warm =>
    intro s key go ⟨hkey, hgo⟩ hphase hrun
    subst hkey hgo
    exact ⟨_, exec_warmRestart_keyed hphase hrun, rfl, rfl, rfl, rfl, rfl, rfl, rfl, rfl, rfl, rfl, rfl, rfl⟩
  case unkeyed =>
    intro s key go h
    exact exec_warmRestart_other h
  case clear =>
    intro s v mask hv
    show execTrbClear v mask s = _
    unfold execTrbClear Dev.trbWrite
    rw [onDev_eq, if_pos hv]

end Sys2Proof.Machine
end

section
/-! Statement O38: the commands of management, of the trouble log and of firmware (R564, R571-R580). An answer that reports a
lost event touches the management record (R68, R572). -/
namespace Sys2Proof.Machine

/-- An event for a ring that already holds 256 back is lost, and that is a cause (R68, R572). -/
theorem Dev.troubled_post {d : Dev} {f : Nat} (hring : (d.func f).ringAddr ≠ 0) (hheld : 256 ≤ (d.func f).held.length) (c : Clock)
    (e : Event) : (d.post c f e).troubled 33 trbOVERFLOW := by
  have hsome : (d.func f).held ≠ [] := by intro h; rw [h] at hheld; exact absurd hheld (by decide)
  unfold Dev.post
  dsimp only
  rw [if_neg hring, if_pos (by simp [hsome]), if_neg (Nat.not_lt.2 hheld)]
  exact (SameMgmt.updFunc ..).kept (Dev.troubled_trouble d 33 (by decide))

theorem HostIf.answer_funcs (h : HostIf) (w : Waiting) (r : Reply) : (h.answer w r).funcs = h.funcs := by
  unfold HostIf.answer; dsimp only; split <;> rfl

/-- An answer whose event is lost sets the trouble bit of lost events (R60, R68). -/
theorem troubled_answered {d : Dev} {w : Waiting} (hevent : bit w.flags 1 = true) (hring : (d.func w.page).ringAddr ≠ 0)
    (hheld : 256 ≤ (d.func w.page).held.length) (c : Clock) (r : Reply) : (answered c w r d).troubled 33 trbOVERFLOW := by
  have hfunc : ((d.updHost fun h => { h with lastServed := w.page }).updHost fun h => h.answer w r).func w.page =
      d.func w.page := by
    unfold Dev.func
    rw [Dev.updHost_host, HostIf.answer_funcs]
    rfl
  have hlost : ∀ (e : Dev) (x : Event), (e.func w.page).ringAddr = (d.func w.page).ringAddr →
      (e.func w.page).held = (d.func w.page).held → (e.post c w.page x).troubled 33 trbOVERFLOW :=
    fun e x ha hh => Dev.troubled_post (by rw [ha]; exact hring) (by rw [hh]; exact hheld) c x
  unfold answered Dev.respond Dev.evt
  dsimp only
  rw [if_pos hevent]
  split
  · exact hlost _ _ (by rw [Dev.func_updFunc, if_pos rfl, hfunc]) (by rw [Dev.func_updFunc, if_pos rfl, hfunc])
  · refine (SameMgmt.cause ..).kept (hlost _ _ ?_ ?_) <;> rw [Dev.func_updFunc, if_pos rfl, hfunc]

/-- UPD_FW_LOAD of an image that is not signed is refused (R576). -/
theorem exec_updFwLoad_unsigned {s : State} {r : Req} {w : Waiting} {release ckptVer : Nat} (hw : Waits s r 0x1001 w)
    (hidle : s.dev.mgmt.updating = false) :
    exec (.updFwLoad r false release ckptVer) s = .next { s with dev := answered s.clk w (rBad 0) s.dev } := by
  refine onDev_serve_refused hw (by decide) (fits_zero w) ?_
  simp [hidle]

/-- A request for UPD_FW_LOAD in slot 0 of page 0 that asks for an event with its answer. -/
def fwLoadWaits : Waiting :=
  { page := 0, slot := 0, code := 0x1001, tag := 0, flags := 2, func := 0, reqAddr := 0, reqLen := 0, respAddr := 0
    respLen := 0, rung := 0 }

/-- That request waits alone, and the ring of its function holds 256 events back. -/
def awaitsFwLoad : State :=
  { dev := { host := {
      waiting := [fwLoadWaits]
      funcs := [(0, { ringAddr := 64, held := List.replicate 256 { code := 0x0180, func := 0, tag := 0, atc := 0, data := [] } })]
    } } }

/-- Refutes O38: its clause of unsigned firmware has the management record unchanged. Where the function's ring holds 256 events
back and the request asks for an event, the event of its answer is lost, and that sets a trouble bit. -/
theorem not_managementCommands : ¬ Obligations.ManagementCommands := by
  unfold Obligations.ManagementCommands
  rintro ⟨-, -, -, -, -, -, -, -, -, hload, -⟩
  have hw : Waits awaitsFwLoad ⟨0, 0⟩ 0x1001 fwLoadWaits := ⟨rfl, rfl, rfl, rfl, rfl, by decide, by decide⟩
  obtain ⟨t, hexec, -, hmgmt⟩ := hload awaitsFwLoad ⟨0, 0⟩ fwLoadWaits 0 0 false hw rfl rfl
  rw [exec_updFwLoad_unsigned hw rfl] at hexec
  cases hexec
  have hlost := troubled_answered (d := awaitsFwLoad.dev) (w := fwLoadWaits) rfl (by decide)
    (Nat.le_of_eq List.length_replicate.symm) awaitsFwLoad.clk (rBad 0)
  have hquiet : ¬ awaitsFwLoad.dev.troubled 33 trbOVERFLOW := by unfold Dev.troubled; decide
  exact hquiet (Dev.troubled_congr hlost (congrArg Mgmt.trb hmgmt.symm))

end Sys2Proof.Machine
end

section
/-! Statement O39: levels, sleep and wakes of the power domains (R584-R600). -/
namespace Sys2Proof.Machine

/-! ### The ledger of a device without charges (R587) -/

theorem Dev.allFit_of_charges {d : Dev} (h : d.charges = []) (now : Nat) : d.allFit now = true := by
  unfold Dev.allFit; rw [h]; rfl

theorem Dev.levelFits_of_charges {d : Dev} (h : d.charges = []) (now mask level at_ : Nat) :
    d.levelFits now mask level at_ = true := by
  unfold Dev.levelFits
  refine Dev.allFit_of_charges ((foldl_keeps Dev.charges (fun d n => ?_) _ d).trans h) _
  rfl

theorem Dev.sleepFits_of_charges {d : Dev} (h : d.charges = []) (now mask depth wake : Nat) :
    d.sleepFits now mask depth wake = true := by
  unfold Dev.sleepFits
  refine Dev.allFit_of_charges ((foldl_keeps Dev.charges (fun d n => ?_) _ d).trans h) _
  dsimp only
  split <;> rfl

/-! ### Reads of domains and gates after updates -/

@[simp] theorem Dev.dom_updDom (d : Dev) (n : Nat) (f : Dom → Dom) : (d.updDom n f).dom n = f (d.dom n) := by
  simp [Dev.dom, Dev.updDom, tget_tmod]

theorem Dev.dom_congr {d e : Dev} (h : e.power.doms = d.power.doms) (n : Nat) : e.dom n = d.dom n := by
  unfold Dev.dom; rw [h]

@[simp] theorem Dev.gate_updGate (d : Dev) (n : Nat) (f : Gate → Gate) : (d.updGate n f).gate n = f (d.gate n) := by
  simp [Dev.gate, Dev.updGate, tget_tmod]

theorem Dev.dom_updPower_group (d : Dev) (g : Option SleepGroup) (n : Nat) :
    (d.updPower fun p => { p with group := g }).dom n = d.dom n := rfl
theorem Dev.dom_closeGate (d : Dev) (n i : Nat) : (d.closeGate n).dom i = d.dom i := rfl

theorem Dev.gate_congr {d e : Dev} (h : e.fab = d.fab) (n : Nat) : e.gate n = d.gate n := by unfold Dev.gate; rw [h]

theorem Dev.updPower_congr {d : Dev} {f g : Power → Power} (h : f d.power = g d.power) : d.updPower f = d.updPower g := by
  unfold Dev.updPower; rw [h]

theorem Dev.openGate_devmode (d : Dev) (n : Nat) : (d.openGate n).devmode = d.devmode := rfl
theorem Dev.updDom_devmode (d : Dev) (n : Nat) (f : Dom → Dom) : (d.updDom n f).devmode = d.devmode := rfl

/-- Out of limp an event of Breano is posted at once (R565). -/
theorem Dev.evtBreano_of_up {d : Dev} (h : d.mgmt.limp = false) (c : Clock) (code tag : Nat) (fs : List (Nat × Nat × Nat)) :
    d.evtBreano c 0 0 code tag fs = d.evt0 c code tag fs := by
  unfold Dev.evtBreano; rw [h]; rfl

theorem HostOnly.power {d e : Dev} (h : HostOnly d e) : e.power = d.power := by rw [h.dev]

@[simp] theorem noted_power (d : Dev) : (noted d).power = d.power := rfl
@[simp] theorem answered_power (c : Clock) (w : Waiting) (r : Reply) (d : Dev) : (answered c w r d).power = d.power := by
  unfold answered; rw [Dev.respond_dev]; rfl

section
variable {s : State} {r : Req} {w : Waiting} {dom mask : Nat} {g : SleepGroup}

/-! ### Levels (R584, R586) -/

theorem exec_pwrLevelSet_one {level at_ n i : Nat} {e : Dev} (hw : Waits s r 0x0D01 w) (hfit : Fits w 40)
    (hmask : mask < 2 ^ 20) (hlevel : level ≤ 7) (hone : ones 20 mask = [n]) (hahead : s.clk.atc + 3932 < at_)
    (hcharges : s.dev.charges = [])
    (hpost : s.dev.breanoPost s.clk { trigger := at_, period := 0, count := 0, action := 7, flags := 0, target := n, arg := level } =
      some (i, e)) (hhost : e.host = s.dev.host) :
    exec (.pwrLevelSet r mask level at_ 0) s = .next { s with
      dev := answered s.clk w (rOk ((List.range 20).map fun k => (2, if k = n then i else 0xFFFF))) (noted e) } := by
  have hplaced : at_ ≠ 0 := by omega
  have hearly : (at_ != 0 && decide (at_ ≤ s.clk.atc + 3932)) = false := by
    rw [decide_eq_false (Nat.not_le.2 hahead), Bool.and_false]
  have hposted : postLevels { page := w.page, func := w.func, tag := w.tag, rung := w.rung, clk := s.clk } level at_ 0 [n] []
      s.dev = some ([i], e) := by
    simp [postLevels, hplaced, hpost]
  refine onDev_serve_journalled hw (by decide) (.inl rfl) hfit hhost ?_
  simp only [Nat.not_le.2 hmask, Nat.not_lt.2 hlevel, hearly, Dev.levelFits_of_charges hcharges, hone, hposted,
    if_false, Bool.false_eq_true, Bool.not_true]
  refine congrArg (fun l => (rOk l, e)) (List.map_congr_left fun k _ => ?_)
  by_cases hk : k = n
  · simp [hk, List.idxOf?]
  · simp [hk, List.idxOf?, Ne.symm hk]

theorem exec_pwrLevelSet_late {level at_ notify : Nat} (hw : Waits s r 0x0D01 w) (hmask : mask < 2 ^ 20) (hlevel : level ≤ 7)
    (hplaced : at_ ≠ 0) (hlate : at_ ≤ s.clk.atc + 3932) :
    exec (.pwrLevelSet r mask level at_ notify) s = .next { s with dev := answered s.clk w (rSt 0x0032) s.dev } := by
  refine onDev_serve_refused hw (by decide) (fits_zero w) ?_
  simp only [Nat.not_le.2 hmask, Nat.not_lt.2 hlevel, bne_iff_ne.2 hplaced, hlate, stLATE, decide_true, Bool.and_self, if_false,
    if_true]

theorem exec_pwrLevelDone_silent {at_ : Nat} (hfired : (s.dev.dom dom).firedAt = some at_) (hnone : (s.dev.dom dom).notify = none) :
    exec (.pwrLevelDone dom) s = .next { s with
      dev := s.dev.updDom dom fun x => { x with level := x.target, firedAt := none, notify := none } } := by
  show execPwrLevelDone dom s = _
  unfold execPwrLevelDone
  simp [onDev_eq, hfired, hnone]

theorem exec_pwrLevelDone_notify {at_ tag : Nat} (hfired : (s.dev.dom dom).firedAt = some at_)
    (htag : (s.dev.dom dom).notify = some tag) :
    exec (.pwrLevelDone dom) s = .next { s with
      dev := (s.dev.updDom dom fun x => { x with level := x.target, firedAt := none, notify := none }).evt0 s.clk 0x0D82 tag
        [(0, 1, dom), (1, 1, (s.dev.dom dom).target), (8, 8, s.clk.atc)] } := by
  show execPwrLevelDone dom s = _
  unfold execPwrLevelDone
  simp [onDev_eq, hfired, htag]

/-! ### Entering sleep (R590, R591, R593, R595) -/

/-- A mask of no bit names no domain. -/
theorem ones_zero (n : Nat) : ones n 0 = [] := by
  unfold ones; simp [bit]

theorem exec_pwrSleep_one {depth wake n : Nat} (hw : Waits s r 0x0D02 w) (hfit : Fits w 2) (hone : ones 32 mask = [n])
    (hdepth : 1 ≤ depth ∧ depth ≤ 3) (hawake : (s.dev.dom n).st = .awake) (hgroup : s.dev.power.group = none)
    (hcharges : s.dev.charges = []) :
    exec (.pwrSleep r mask depth wake) s = .next { s with
      dev := answered s.clk w (rAcc [(1, 0xFF), (1, 0)]) (noted (s.dev.updPower fun p => { p with
        group := some { mask := mask, depth := depth, wake := wake, tag := w.tag, asking := some (n, false)
                        askedAt := s.clk.atc } })) } := by
  have hsome : mask ≠ 0 := by rintro rfl; rw [ones_zero] at hone; cases hone
  refine onDev_serve_journalled hw (by decide) (.inr rfl) hfit rfl ?_
  simp [hsome, show depth ≠ 0 by omega, Nat.not_lt.2 hdepth.2, hone, hawake, hgroup, Dev.sleepFits_of_charges hcharges,
    Dev.startGroup, SleepGroup.askNext, SleepGroup.order]

theorem exec_pwrSleep_asleep {depth wake : Nat} (hw : Waits s r 0x0D02 w) (hsome : mask ≠ 0) (hdepth : 1 ≤ depth ∧ depth ≤ 3)
    (hasleep : ((ones 32 mask).any fun n => (s.dev.dom n).st != .awake) = true) :
    exec (.pwrSleep r mask depth wake) s = .next { s with dev := answered s.clk w (rSt 0x0022) s.dev } := by
  have hbounds : (decide (depth = 0) || decide (3 < depth)) = false := by simp; omega
  refine onDev_serve_refused hw (by decide) (fits_zero w) ?_
  simp only [hsome, hbounds, hasleep, stBADSTATE, if_false, if_true, Bool.false_eq_true]

section
variable (hgroup : s.dev.power.group = some g) (hasking : g.asking = some (dom, false)) (hasked : g.askedAt + 2 ≤ s.clk.atc)
  (hgoing : g.refusal = none)
include hgroup hasking hasked hgoing

theorem exec_domainAck_enter (hfree : s.dev.refusal g dom = none) :
    exec (.domainAck dom) s = .next { s with
      dev := ((s.dev.updDom dom fun x => { x with st := .entering, depth := g.depthOf dom }).closeGate dom).updPower fun p =>
        { p with group := some { g with asking := some (dom, true) } } } := by
  show execDomainAck dom s = _
  unfold execDomainAck
  simp [onDev_eq, hgroup, hasking, hasked, hgoing, hfree]

theorem exec_domainAck_refuse {why : Nat} (hwhy : s.dev.refusal g dom = some why) (hnone : g.stopped = []) :
    exec (.domainAck dom) s = .next { s with
      dev := s.dev.updPower fun p => { p with group := some { g with asking := none, refusal := some (dom, why) } } } := by
  show execDomainAck dom s = _
  unfold execDomainAck
  simp [onDev_eq, hgroup, hasking, hasked, hgoing, hwhy, hnone]

end

theorem exec_domainStopped_only (hgroup : s.dev.power.group = some g) (hasking : g.asking = some (dom, true))
    (hisolated : s.dev.gateIsolated dom = true) (hplain : g.dormant = false) (hone : ones 32 g.mask = [dom])
    (hnone : g.stopped = []) :
    exec (.domainStopped dom) s = .next { s with
      dev := (s.dev.updDom dom fun x => { x with st := .asleep }).updPower fun p =>
        { p with group := some { g with stopped := [dom], asking := none } } } := by
  show execDomainStopped dom s = _
  unfold execDomainStopped
  simp [onDev_eq, hgroup, hasking, hisolated, hnone, SleepGroup.askNext, SleepGroup.order, hplain, hone]

theorem exec_pwrSlept_all (hgroup : s.dev.power.group = some g) (hgoing : g.refusal = none)
    (hall : ((ones 32 g.mask).all fun n => g.stopped.contains n) = true) (hwake : g.wake = 0) (hlatched : g.latched = [])
    (hmode : s.dev.devmode.mode ≠ .dormant ∨ g.dormant = true) (hlimp : s.dev.mgmt.limp = false)
    (hcount : s.dev.power.replayed < 2 ^ 32) :
    exec .pwrSlept s = .next { s with
      dev := (s.dev.updPower fun p => { p with group := none }).evt0 s.clk 0x0D80 g.tag
        [(0, 4, g.mask), (4, 1, g.depth), (5, 1, 0), (6, 1, 0xFF), (7, 1, 0)] } := by
  have hpower : (s.dev.updPower fun p => { p with group := none, replayed := (p.replayed + 0) % 2 ^ 32 }) =
      s.dev.updPower fun p => { p with group := none } :=
    Dev.updPower_congr (by rw [Nat.add_zero, Nat.mod_eq_of_lt hcount])
  have hended : (decide (s.dev.devmode.mode = .dormant) && !g.dormant) = false := by
    obtain h | h := hmode <;> simp [h]
  show execPwrSlept s = _
  unfold execPwrSlept
  simp only [onDev_eq, hgroup, hgoing, hall, if_true, hwake, hlatched, List.length_nil, hpower, List.foldl_nil,
    Dev.evtBreano_of_up (d := s.dev.updPower _) hlimp]
  unfold Dev.groupEnded
  simp only [Dev.evt0_devmode, Dev.updPower_devmode, hended, Bool.false_eq_true, if_false]

/-! ### Waking (R588, R596, R598, R600) -/

theorem exec_pwrWake_one {n : Nat} (hw : Waits s r 0x0D03 w) (hmode : s.dev.devmode.mode ≠ .dormant) (hone : ones 32 mask = [n])
    (hgroup : s.dev.power.group = none) (hasleep : (s.dev.dom n).st = .asleep) (hdown : s.dev.power.down = []) :
    exec (.pwrWake r mask) s = .next { s with
      dev := answered s.clk w rAcc (noted (s.dev.updDom n fun x =>
        { x with st := .waking, wakeAt := s.clk.atc, wakeCause := 1, wakeTag := w.tag })) } := by
  refine onDev_serve_journalled hw (by decide) (.inr rfl) (fits_zero w) rfl ?_
  simp [hmode, hone, Dev.wakeEvent, hgroup, Dev.beginWake, hasleep, hdown]

theorem exec_pwrWoke_light (hwaking : (s.dev.dom dom).st = .waking) (hdepth : (s.dev.dom dom).depth ≠ 3)
    (hpend : s.dev.devmode.pend = none) (hgroup : s.dev.power.group = none) (hlimp : s.dev.mgmt.limp = false) :
    exec (.pwrWoke dom) s = .next { s with
      dev := ((s.dev.updDom dom fun x => { x with st := .awake, depth := 0 }).openGate dom).evt0 s.clk 0x0D81
        (s.dev.dom dom).wakeTag [(0, 1, dom), (1, 1, (s.dev.dom dom).wakeCause), (8, 8, s.clk.atc)] } := by
  have hevent : ∀ tag fs, (((s.dev.updDom dom fun x => { x with st := .awake, depth := 0 }).openGate dom).evt0 s.clk 0x0D81
      tag fs).power.group = none := fun _ _ => (congrArg Power.group (HostOnly.evt ..).power).trans hgroup
  show execPwrWoke dom s = _
  unfold execPwrWoke
  simp only [onDev_eq, hwaking, hdepth, bne_self_eq_false, Bool.false_eq_true, if_false, Dev.openGate_devmode,
    Dev.updDom_devmode, hpend, Dev.evtBreano_of_up (d := (s.dev.updDom _ _).openGate _) hlimp, hevent]

theorem exec_pwrStatus_next (hw : Waits s r 0x0D04 w) (hfit : Fits w 136) :
    exec (.pwrStatus r) s = .next { s with
      dev := answered s.clk w (rOk ((List.range 32).flatMap (fun n => [(1, (s.dev.dom n).st.code), (1, (s.dev.dom n).depth),
        (1, if n < 20 then (s.dev.dom n).level else 0), (1, if n < 20 then (s.dev.dom n).target else 0)]) ++
          [(4, s.dev.power.replayed), (4, s.dev.power.discarded)])) s.dev } :=
  onDev_serve_noFx hw (by decide) hfit rfl

theorem exec_pwrDormantSet_next {mode wake : Nat} (hw : Waits s r 0x0D05 w) (hlo : 1 ≤ mode) (hhi : mode ≤ 7) (hother : mode ≠ 2) :
    exec (.pwrDormantSet r mode wake) s = .next { s with
      dev := answered s.clk w rOk (noted (s.dev.updPower fun p => { p with wakeMode := mode, wakeAtc := wake })) } := by
  refine onDev_serve_journalled hw (by decide) (.inl rfl) (fits_zero w) rfl ?_
  simp [show mode ≠ 0 by omega, show ¬ 8 ≤ mode by omega, hother]

theorem exec_dormantWake_due (hmode : s.dev.devmode.mode = .dormant) (hpend : s.dev.devmode.pend = none)
    (hset : s.dev.power.wakeAtc ≠ 0) (hdue : s.dev.power.wakeAtc ≤ s.clk.atc) :
    exec .dormantWake s = .next { s with
      dev := (s.dev.updPower fun p => { p with wakeAtc := 0 }).dormantWake s.clk none } := by
  show execDormantWake s = _
  unfold execDormantWake
  simp [onDev_eq, hmode, hpend, hset, hdue]

end

theorem Dev.acceptDrained_power (c : Clock) (m : Mode) (tag : Nat) (auto : Bool) (d : Dev) :
    (d.acceptDrained c m tag auto).power = d.power := by
  unfold Dev.acceptDrained; dsimp only; split <;> rfl

/-- Wake events leave the wake ATC (R594, R598). -/
theorem Dev.wakeEvent_wakeAtc (c : Clock) (d : Dev) (n cause tag : Nat) :
    (d.wakeEvent c n cause tag).power.wakeAtc = d.power.wakeAtc := by
  have hbegin : (d.beginWake c n cause tag).power.wakeAtc = d.power.wakeAtc := by
    unfold Dev.beginWake; split <;> rfl
  unfold Dev.wakeEvent
  split
  · split
    · rfl
    · exact hbegin
  · exact hbegin

/-- A wake of DORMANT without a request leaves the wake ATC, and asks for the wake mode (R598). -/
theorem Dev.dormantWake_asks (c : Clock) (d : Dev) :
    (d.dormantWake c none).power.wakeAtc = d.power.wakeAtc ∧
      ((d.dormantWake c none).devmode.pend.map fun q => q.target) = some ((Mode.ofCode d.power.wakeMode).getD .hub) := by
  unfold Dev.dormantWake
  refine ⟨?_, ?_⟩
  · rw [Dev.acceptDrained_power]
    exact foldl_keeps (fun d : Dev => d.power.wakeAtc) (fun d n => Dev.wakeEvent_wakeAtc c d n 4 0) _ d
  · rw [Dev.acceptDrained_devmode]
    rfl

/-- Settles O39: each command has its lemma above. -/
theorem powerDomains : Obligations.PowerDomains := by
  unfold Obligations.PowerDomains
  refine ⟨?level, ?late, ?silent, ?notify, ?sleep, ?asleep, ?enter, ?refuse, ?stopped, ?slept, ?wake, ?woke, ?status, ?dormant,
    ?dormantWake⟩
  case level =>
    intro s r w mask level at_ notify n i e hw hfit ⟨hmask, hlevel⟩ hone hahead hcharges hnotify hpost hhost
    subst hnotify
    exact exec_pwrLevelSet_one hw hfit hmask hlevel hone hahead hcharges hpost hhost
  case late =>
    intro s r w mask level at_ notify hw ⟨hmask, hlevel⟩ ⟨hplaced, hlate⟩
    exact exec_pwrLevelSet_late hw hmask hlevel hplaced hlate
  case silent =>
    intro s dom at_ hfired hnone
    exact exec_pwrLevelDone_silent hfired hnone
  case notify =>
    intro s dom at_ tag hfired htag
    exact exec_pwrLevelDone_notify hfired htag
  case sleep =>
    intro s r w mask depth wake n hw hfit hone _ hdepth hawake hgroup hcharges
    exact exec_pwrSleep_one hw hfit hone hdepth hawake hgroup hcharges
  case asleep =>
    intro s r w mask depth wake hw hsome hdepth hasleep
    exact exec_pwrSleep_asleep hw hsome hdepth hasleep
  case enter =>
    intro s dom g hgroup hasking hasked hgoing hfree
    refine ⟨_, exec_domainAck_enter hgroup hasking hasked hgoing hfree, ?_, ?_, rfl, ?_⟩
    · rw [Dev.dom_updPower_group, Dev.dom_closeGate, Dev.dom_updDom]
    · rw [Dev.dom_updPower_group, Dev.dom_closeGate, Dev.dom_updDom]
    · exact congrArg Gate.st ((Dev.gate_congr rfl dom).trans (Dev.gate_updGate _ dom _))
  case refuse =>
    intro s dom why g hgroup hasking hasked hgoing hwhy hnone
    exact exec_domainAck_refuse hgroup hasking hasked hgoing hwhy hnone
  case stopped =>
    intro s dom g hgroup hasking hisolated ⟨hplain, hone, hnone⟩
    refine ⟨_, exec_domainStopped_only hgroup hasking hisolated hplain hone hnone, ?_, rfl, rfl⟩
    rw [Dev.dom_updPower_group, Dev.dom_updDom]
  case slept =>
    intro s g hgroup hgoing hall ⟨hwake, hlatched⟩ hmode hlimp hcount
    exact exec_pwrSlept_all hgroup hgoing hall hwake hlatched hmode hlimp hcount
  case wake =>
    intro s r w mask n hw hmode hone hgroup hasleep hdown
    exact exec_pwrWake_one hw hmode hone hgroup hasleep hdown
  case woke =>
    intro s dom hwaking hdepth hpend hgroup hlimp
    refine ⟨_, exec_pwrWoke_light hwaking hdepth hpend hgroup hlimp, ?_, ?_, ?_⟩
    · exact (Dev.dom_congr (congrArg Power.doms (HostOnly.evt ..).power) dom).trans (Dev.dom_updDom ..)
    · exact congrArg Gate.st ((Dev.gate_congr (HostOnly.evt ..).fab dom).trans (Dev.gate_updGate _ dom _))
    · exact Dev.evt0_mem ..
  case status =>
    intro s r w hw hfit
    exact ⟨_, exec_pwrStatus_next hw hfit, answered_host_congr s.clk w _ rfl, answered_power ..⟩
  case dormant =>
    intro s r w mode wake hw ⟨hlo, hhi, hother⟩
    exact exec_pwrDormantSet_next hw hlo hhi hother
  case dormantWake =>
    intro s hmode hpend ⟨hset, hdue⟩
    exact ⟨_, exec_dormantWake_due hmode hpend hset hdue, Dev.dormantWake_asks ..⟩

end Sys2Proof.Machine
end

section
/-! Statement O40: start-up from reset to service, its stops, the stored profile and auto-resume (R602-R612). -/
namespace Sys2Proof.Machine

/-! ### Links that train, causes and steps leave the course of start-up -/

/-- A port that trains changes the host link, and draws free values. -/
theorem Dev.trainPort_eq (port : Nat) (d : Dev) :
    d.trainPort port = { d with host := (d.trainPort port).host, free := (d.trainPort port).free } := by
  unfold Dev.trainPort
  generalize ((if port = 0 then d.host.linkUp.1 else d.host.linkUp.2) || !d.mayTrain port) = stays
  cases stays <;> rfl

theorem Dev.train_eq (d : Dev) : d.train = { d with host := d.train.host, free := d.train.free } := by
  unfold Dev.train; rw [Dev.trainPort_eq 1, Dev.trainPort_eq 0]

/-- A device that stops in start-up is fatal with cause 3, and drives DEV_FAULT (R605). -/
theorem Dev.stopStartup_stopped (c : Clock) (d : Dev) (step reason : Nat) :
    (d.stopStartup c step reason).startup.phase = .stopped ∧ (d.stopStartup c step reason).startup.stop = (step, reason) ∧
      (d.stopStartup c step reason).mgmt.fatal = true ∧ (d.stopStartup c step reason).mgmt.fatalCause = 3 ∧
      (d.stopStartup c step reason).pkg.devFault = true := by
  unfold Dev.stopStartup
  rw [Dev.train_eq]
  exact ⟨rfl, rfl, rfl, rfl, rfl⟩

theorem Dev.stopStartup_activeB (c : Clock) (d : Dev) (step reason : Nat) :
    (d.stopStartup c step reason).mgmt.activeB = d.mgmt.activeB := by
  have hlog : (d.log c 36 trbFATAL 0x0F48 (pk [(1, step), (1, reason)])).mgmt.activeB = d.mgmt.activeB := by rw [Dev.log_mgmt]
  unfold Dev.stopStartup
  rw [Dev.train_eq]
  exact hlog

/-! ### A core that fails its test (R381, R603) -/

/-- Core `n` is retired. -/
def Dev.coreRetired (d : Dev) (n : Nat) : Prop := (d.core n).st = .retired

theorem Dev.core_congr {d e : Dev} (h : e.cores = d.cores) (n : Nat) : e.core n = d.core n := by unfold Dev.core; rw [h]

theorem Reported.cores {d e : Dev} (h : Reported d e) : e.cores = d.cores := by rw [h.dev]

theorem Dev.setFlag_cores (d : Dev) (t i : Nat) (v : Bool) : (d.setFlag t i v).cores = d.cores := rfl
theorem Dev.moveState_cores (c : Clock) (d : Dev) (t st : Nat) : (d.moveState c t st).cores = d.cores := rfl
theorem Dev.forgetOld_cores (d : Dev) (t : Nat) : (d.forgetOld t).cores = d.cores := rfl

namespace Dev.coreRetired
variable {d e : Dev} {n : Nat}

theorem congr (h : d.coreRetired n) (he : e.cores = d.cores) : e.coreRetired n := by
  unfold Dev.coreRetired; rw [Dev.core_congr he]; exact h

theorem setCore (h : d.coreRetired n) {k : Core} (hk : k.st = (d.core n).st) : (d.setCore n k).coreRetired n := by
  unfold Dev.coreRetired; rw [Dev.core_setCore_same, hk]; exact h

theorem trace (h : d.coreRetired n) (c : Clock) (core thread pool ev detail aux : Nat) :
    (d.trace c core thread pool ev detail aux).coreRetired n := by
  refine h.congr ?_
  unfold Dev.trace
  dsimp only
  split
  · rfl
  · split
    · rfl
    · exact Dev.memWrite_cores ..

theorem unsaddle (h : d.coreRetired n) (c : Clock) : (d.unsaddle c n).coreRetired n := by
  unfold Dev.unsaddle
  dsimp only
  split
  · exact (h.setCore (k := { d.core n with saddle := .empty }) rfl).congr rfl
  · exact (h.setCore (k := { d.core n with saddle := .empty }) rfl).congr rfl
  · exact h

theorem settle (h : d.coreRetired n) (c : Clock) : (d.settle c n).coreRetired n := by
  have hst : (if (d.core n).st = .running then CoreSt.idle else (d.core n).st) = (d.core n).st := by
    rw [show (d.core n).st = .retired from h]; rfl
  unfold Dev.settle
  dsimp only
  split
  · split
    · exact (h.setCore (k := { d.core n with
        pool := none, leaving := none, st := if (d.core n).st = .running then CoreSt.idle else (d.core n).st }) hst).trace ..
    · exact h
  · exact h

theorem poolShort (h : d.coreRetired n) (c : Clock) (p : Nat) : (d.poolShort c p).coreRetired n := by
  unfold Dev.poolShort
  split
  · exact h.congr (Dev.evt0_cores ..)
  · exact h

theorem loseCore (h : d.coreRetired n) (c : Clock) : (d.loseCore c n).coreRetired n := by
  have hleft : ∀ e : Dev, e.coreRetired n → (match (e.core n).pool with
      | some p => ((e.updCore n fun k => { k with leaving := some true, leftPool := some p }).settle c n).poolShort c p
      | none => e).coreRetired n := by
    intro e he
    split
    · exact ((he.setCore (k := { e.core n with leaving := some true, leftPool := _ }) rfl).settle c).poolShort c _
    · exact he
  unfold Dev.loseCore
  dsimp only
  refine hleft _ ?_
  split
  · refine Dev.coreRetired.setCore (.trace ((h.unsaddle c).congr ?_) ..) rfl
    rw [Dev.forgetOld_cores, Dev.moveState_cores, Dev.setFlag_cores, Dev.setFlag_cores]
  · exact h.unsaddle c

end Dev.coreRetired

theorem Dev.coreRetired_retireCore (c : Clock) (d : Dev) (n : Nat) : (d.retireCore c n).coreRetired n := by
  unfold Dev.retireCore
  split
  · next h => exact h
  · have hset : (d.updCore n fun k => { k with st := .retired, stalled := none, waiting := false }).coreRetired n := by
      unfold Dev.coreRetired; rw [Dev.core_updCore_same]
    exact (hset.loseCore c).congr (Reported.evtLog ..).cores

section
variable {s : State}

/-! ### Steps (R602, R603, R605) -/

theorem exec_powerOnReset_spliced (hphase : s.dev.startup.phase = .held) :
    exec (.powerOnReset true) s = .next { s with
      dev := (((s.dev.updPkg fun p => { p with tandemId := p.tandemStrap % 8, blobForce := p.blobForceStrap }).updMem fun m =>
        { m with splices := m.flashSplices }).endStep s.clk 0).toPhase .reset } := by
  show execPowerOnReset true s = _
  unfold execPowerOnReset
  simp [onDev_eq, hphase]

theorem exec_clockLock_reset (hphase : s.dev.startup.phase = .reset) :
    exec .clockLock s = .next { s with
      clk := { s.clk with run := true }
      dev := (s.dev.endStep s.clk 1).toPhase .clocks } := by
  show execClockLock s = _
  unfold execClockLock onBoth
  simp [hphase]

theorem exec_clockLock_other (hphase : s.dev.startup.phase ≠ .reset) : exec .clockLock s = .next s := by
  show execClockLock s = _
  unfold execClockLock onBoth
  simp [hphase]

theorem exec_startupStop_fits {step reason : Nat} (hfits : stopFits s.dev.startup.phase step reason = true) :
    exec (.startupStop step reason) s = .next { s with dev := s.dev.stopStartup s.clk step reason } := by
  show execStartupStop step reason s = _
  unfold execStartupStop
  rw [onDev_eq, if_pos hfits]

theorem exec_startupTimeout_tested (hphase : s.dev.startup.phase = .tested) (hlate : s.dev.startup.deadline ≤ s.clk.atc) :
    exec .startupTimeout s = .next { s with dev := s.dev.stopStartup s.clk 6 8 } := by
  show execStartupTimeout s = _
  unfold execStartupTimeout
  rw [onDev_eq, hphase, if_pos]
  simpa [Phase.starting] using hlate

/-! ### Breano's boot (R602, R603, R630) -/

/-- The block in which Breano boots the image of the booted slot, on the pair that keeps lockstep (R602, R603). -/
def Dev.booting (c : Clock) (d : Dev) (pairOk : Bool) : Dev :=
  ((if pairOk then d else
    (d.updMgmt fun m => { m with pairA := .retired, activeB := true }).trouble 34 trbRETIRED).updMgmt fun m =>
      { m with running := m.bootedFw.release }).endStep c 2

theorem Reported.pkg {d e : Dev} (h : Reported d e) : e.pkg = d.pkg := by rw [h.dev]

theorem Dev.booting_pkg (c : Clock) (d : Dev) (pairOk : Bool) : (d.booting c pairOk).pkg = d.pkg := by
  unfold Dev.booting Dev.endStep
  rw [Dev.updStartup_pkg, Dev.updMgmt_pkg]
  split
  · rfl
  · exact (Reported.trouble ..).pkg.trans (Dev.updMgmt_pkg ..)

theorem exec_breanoBoot_noBlob {pairOk : Bool} (hphase : s.dev.startup.phase = .clocks) (hnone : s.dev.pkg.chooseBlob = none) :
    exec (.breanoBoot true pairOk) s = .next { s with dev := (s.dev.booting s.clk pairOk).stopStartup s.clk 3 5 } := by
  have hchoose : (s.dev.booting s.clk pairOk).pkg.chooseBlob = none := by rw [Dev.booting_pkg, hnone]
  show execBreanoBoot true pairOk s = _
  unfold execBreanoBoot
  unfold Dev.booting at hchoose ⊢
  simp only [onDev_eq, hphase, bne_self_eq_false, Bool.not_true, Bool.false_and, Bool.false_eq_true, if_false, if_true, hchoose]

theorem exec_breanoBoot_blob {pairOk board : Bool} {b : List Byte} (hphase : s.dev.startup.phase = .clocks)
    (hblob : s.dev.pkg.chooseBlob = some (b, board)) :
    exec (.breanoBoot true pairOk) s = .next { s with
      dev := ((((s.dev.booting s.clk pairOk).useBlob b board).endStep s.clk 3).toPhase .boot).train } := by
  have hchoose : (s.dev.booting s.clk pairOk).pkg.chooseBlob = some (b, board) := by rw [Dev.booting_pkg, hblob]
  show execBreanoBoot true pairOk s = _
  unfold execBreanoBoot
  unfold Dev.booting at hchoose ⊢
  simp only [onDev_eq, hphase, bne_self_eq_false, Bool.not_true, Bool.false_and, Bool.false_eq_true, if_false, if_true, hchoose]

/-- With two ports of 8 lanes each has 64 vectors (R70). -/
def Dev.vectored (d : Dev) : Dev :=
  if d.host.twoX8 then (d.updFunc 0 fun g => { g with vectors := 64 }).updFunc 16 fun g => { g with vectors := 64 } else d

/-- A blob in force gives the lane tables (R630). -/
def Dev.blobTables (d : Dev) (b : List Byte) (board : Bool) : Dev :=
  (d.updPkg fun p => { p with blob := b, blobFlash := if board then some b else p.blobFlash }).updSpk fun x =>
    { x with table := blobLanes b, tandemTable := blobTandem b }

theorem Dev.useBlob_eq (d : Dev) (b : List Byte) (board : Bool) :
    ∃ h, d.useBlob b board = { d.blobTables b board with host := h } := by
  have hvectored : ∀ e : Dev, e.vectored = { e with host := e.vectored.host } := fun e => by
    unfold Dev.vectored; split <;> rfl
  show ∃ h, (if (d.blobTables b board).startup.warm.isSome then d.blobTables b board else
    (d.blobTables b board).updHost fun h => { h with twoX8 := bit (fieldAt b 6 1) 0 }).vectored = _
  split
  · exact ⟨_, hvectored _⟩
  · exact ⟨_, hvectored _⟩

theorem Pkg.chooseBlob_none {p : Pkg} (hflash : p.blobFlash = none) (hboard : p.blobBoard = none) : p.chooseBlob = none := by
  simp [Pkg.chooseBlob, hflash, hboard]

/-! ### Self-tests (R603) -/

theorem exec_startupSelftestDone_clean (hphase : s.dev.startup.phase = .boot) :
    exec (.startupSelftestDone [] [] [] []) s = .next { s with
      dev := s.dev.updStartup fun u => { u with ends := (u.ends.set 4 s.clk.atc).set 5 s.clk.atc, phase := .tested } } := by
  show execStartupSelftestDone [] [] [] [] s = _
  unfold execStartupSelftestDone
  simp only [onDev_eq, hphase, bne_self_eq_false, Bool.false_eq_true, if_false]
  rfl

theorem exec_startupSelftestDone_core {n : Nat} (hphase : s.dev.startup.phase = .boot) (hn : n < 1024) :
    exec (.startupSelftestDone [n] [] [] []) s = .next { s with
      dev := (((s.dev.retireCore s.clk n).endStep s.clk 4).endStep s.clk 5).toPhase .tested } := by
  show execStartupSelftestDone [n] [] [] [] s = _
  unfold execStartupSelftestDone
  simp only [onDev_eq, hphase, bne_self_eq_false, Bool.false_eq_true, if_false, List.foldl_cons, List.foldl_nil, if_pos hn]

/-! ### Service (R607) -/

/-- The block at service-ready before its servo runs: pair A is active, and the mode is DORMANT (R607). -/
def Dev.inService (c : Clock) (d : Dev) (standby : Bool) : Dev :=
  (((d.updMgmt fun m => { m with
    pairA := .active, pairB := if standby then .ready else .testing
    svc := true, beat := (c.atc, c.atc), ckptAt := c.atc, coastMs := d.startup.profCoast.getD 32 }).updDevmode fun m =>
      { m with mode := .dormant, since := c.atc }).endStep c 5).updStartup fun u =>
        { u with phase := .service, cfgOk := true, readyAt := c.atc }

/-- Breano has configured its rings and channels, and posted the standing mark of class 0x9 (R101, R243). -/
def Dev.ringed (c : Clock) (d : Dev) : Dev :=
  match d.setBreanoRings.setBreanoChans.freeCad with
  | some i => d.setBreanoRings.setBreanoChans.addStanding i (upTo (c.atc + 2) frameTc) (9 * 2 ^ 28)
  | none => d.setBreanoRings.setBreanoChans

theorem Dev.breano_keeps {α : Type} (p : Dev → α) (heng : ∀ (d : Dev) f, p (d.updEng f) = p d)
    (hmov : ∀ (d : Dev) f, p (d.updMov f) = p d) (d : Dev) : p d.setBreanoRings.setBreanoChans = p d :=
  (foldl_keeps p (fun d _ => hmov d _) _ _).trans (foldl_keeps p (fun d _ => heng d _) _ d)

theorem Dev.addStanding_startup (d : Dev) (i trigger target : Nat) : (d.addStanding i trigger target).startup = d.startup := rfl

theorem Dev.ringed_keeps {α : Type} (p : Dev → α) (heng : ∀ (d : Dev) f, p (d.updEng f) = p d)
    (hmov : ∀ (d : Dev) f, p (d.updMov f) = p d) (hair : ∀ (d : Dev) f, p (d.updAir f) = p d) (c : Clock) (d : Dev) :
    p (d.ringed c) = p d := by
  unfold Dev.ringed
  split
  · exact (hair _ _).trans (Dev.breano_keeps p heng hmov d)
  · exact Dev.breano_keeps p heng hmov d

theorem Dev.ringed_startup (c : Clock) (d : Dev) : (d.ringed c).startup = d.startup :=
  Dev.ringed_keeps Dev.startup (fun _ _ => rfl) (fun _ _ => rfl) (fun _ _ => rfl) c d
theorem Dev.ringed_mgmt (c : Clock) (d : Dev) : (d.ringed c).mgmt = d.mgmt :=
  Dev.ringed_keeps Dev.mgmt (fun _ _ => rfl) (fun _ _ => rfl) (fun _ _ => rfl) c d
theorem Dev.ringed_devmode (c : Clock) (d : Dev) : (d.ringed c).devmode = d.devmode :=
  Dev.ringed_keeps Dev.devmode (fun _ _ => rfl) (fun _ _ => rfl) (fun _ _ => rfl) c d
theorem Dev.ringed_time (c : Clock) (d : Dev) : (d.ringed c).time = d.time :=
  Dev.ringed_keeps Dev.time (fun _ _ => rfl) (fun _ _ => rfl) (fun _ _ => rfl) c d
theorem Dev.ringed_power (c : Clock) (d : Dev) : (d.ringed c).power = d.power :=
  Dev.ringed_keeps Dev.power (fun _ _ => rfl) (fun _ _ => rfl) (fun _ _ => rfl) c d

theorem SameMgmt.startup {d e : Dev} (h : SameMgmt d e) : e.startup = d.startup := by rw [h.dev]
theorem SameMgmt.devmode {d e : Dev} (h : SameMgmt d e) : e.devmode = d.devmode := by rw [h.dev]
theorem SameMgmt.time {d e : Dev} (h : SameMgmt d e) : e.time = d.time := by rw [h.dev]
theorem SameMgmt.power {d e : Dev} (h : SameMgmt d e) : e.power = d.power := by rw [h.dev]

/-- A change of servo state, in network time and in the events posted. -/
theorem Dev.setServo_sameMgmt (c : Clock) (d : Dev) (st : Nat) :
    ∃ at_, SameMgmt (d.updTime fun t => { t with st := st, since := at_ }) (d.setServo c st) := by
  by_cases h : d.time.st = st
  · refine ⟨d.time.since, ?_⟩
    rw [Dev.setServo_same h, ← h]
    exact .refl d
  · refine ⟨c.atc, ?_⟩
    unfold Dev.setServo
    dsimp only
    rw [if_neg h]
    exact .foldl (fun e f => .evt ..) _ _

theorem exec_serviceReady_plain {standby : Bool} (hphase : s.dev.startup.phase = .tested)
    (hearly : s.clk.atc < s.dev.startup.deadline) (hprofile : s.dev.startup.profile = none)
    (hactive : s.dev.mgmt.activeB = false) :
    exec (.serviceReady standby) s = .next { s with
      dev := ((s.dev.inService s.clk standby).setServo s.clk 5).ringed s.clk } := by
  have hgoes : (s.dev.startup.phase != .tested || decide (s.dev.startup.deadline ≤ s.clk.atc)) = false := by
    rw [hphase, decide_eq_false (Nat.not_le.2 hearly)]; rfl
  show execServiceReady standby s = _
  unfold execServiceReady
  simp only [onDev_eq, hgoes, Bool.false_eq_true, if_false]
  rw [Dev.updMgmt_congr (d := s.dev) (g := fun m => { m with
    pairA := .active, pairB := if standby then .ready else .testing
    svc := true, beat := (s.clk.atc, s.clk.atc), ckptAt := s.clk.atc, coastMs := s.dev.startup.profCoast.getD 32 }) ?record]
  case record => simp [hactive]
  rw [← Dev.inService.eq_def]
  have hservo : (s.dev.inService s.clk standby).startServo s.clk = (s.dev.inService s.clk standby).setServo s.clk 5 := by
    unfold Dev.startServo
    rw [show (s.dev.inService s.clk standby).startup.profile = none from hprofile]
  have hnone : ((s.dev.inService s.clk standby).setServo s.clk 5).setBreanoRings.setBreanoChans.startup.profile = none := by
    obtain ⟨_, hposted⟩ := Dev.setServo_sameMgmt s.clk (s.dev.inService s.clk standby) 5
    rw [Dev.breano_keeps Dev.startup (fun _ _ => rfl) (fun _ _ => rfl), hposted.startup]
    exact hprofile
  rw [hservo]
  unfold Dev.ringed
  cases ((s.dev.inService s.clk standby).setServo s.clk 5).setBreanoRings.setBreanoChans.freeCad with
  | none => simp only [hnone]
  | some i => simp only [Dev.addStanding_startup, hnone]

/-- The instances `ks` of class `cls` are armed (R99, R609). -/
def Dev.armed (c : Clock) (cls : Nat) (ks : List Nat) (d : Dev) : Dev :=
  ks.foldl (fun d k => d.updShadow cls k fun y => y.touched c.atc true) d

/-- The streams, sets, maps and steering of a profile, armed at the next standing mark (R609). -/
def Dev.heldSets (c : Clock) (d : Dev) (p : Profile) : Dev :=
  ((((((d.updFe fun _ =>
    { streams := p.fe.streams
      chains := p.fe.chains.map fun e => (e.1, e.2.settings)
      sets := p.fe.sets.map fun e => (e.1, Inst.stored {} e.2)
      cmp := p.fe.cmp.map fun e => (e.1, Inst.stored {} e.2) }).updSpk fun x =>
    { x with maps := p.spk.maps.map fun e => (e.1, Inst.stored [] e.2) }).updMac fun x =>
    { x with steer := p.mac.steer.map fun e => (e.1, Inst.stored [] e.2) }).armed c 4 (p.spk.maps.map (·.1))).armed c 3
      (p.mac.steer.map (·.1))).armed c 2 (p.fe.cmp.map (·.1))).armed c 1 (p.fe.sets.map (·.1))

theorem Dev.addHeld_none {p : Profile} (hnone : p.carriers = []) (c : Clock) (d : Dev) : d.addHeld c p = (0, d.heldSets c p) := by
  unfold Dev.addHeld
  rw [hnone]
  rfl

theorem Dev.armed_keeps {α : Type} (q : Dev → α) (hq : ∀ (d : Dev) cls k f, q (d.updShadow cls k f) = q d) (c : Clock) (cls : Nat)
    (ks : List Nat) (d : Dev) : q (d.armed c cls ks) = q d := foldl_keeps q (fun d k => hq d cls k _) ks d

theorem Dev.heldSets_keeps {α : Type} (q : Dev → α) (hq : ∀ (d : Dev) cls k f, q (d.updShadow cls k f) = q d)
    (hfe : ∀ (d : Dev) f, q (d.updFe f) = q d) (hspk : ∀ (d : Dev) f, q (d.updSpk f) = q d)
    (hmac : ∀ (d : Dev) f, q (d.updMac f) = q d) (c : Clock) (d : Dev) (p : Profile) : q (d.heldSets c p) = q d := by
  unfold Dev.heldSets
  rw [Dev.armed_keeps q hq, Dev.armed_keeps q hq, Dev.armed_keeps q hq, Dev.armed_keeps q hq, hmac, hspk, hfe]

theorem Dev.heldSets_streams (c : Clock) (d : Dev) (p : Profile) : (d.heldSets c p).fe.streams = p.fe.streams := by
  unfold Dev.heldSets
  rw [Dev.armed_keeps Dev.fe fun _ _ _ _ => rfl, Dev.armed_keeps Dev.fe fun _ _ _ _ => rfl,
    Dev.armed_keeps Dev.fe fun _ _ _ _ => rfl, Dev.armed_keeps Dev.fe fun _ _ _ _ => rfl]
  rfl

end

/-! ### Events of Breano, in limp or out of it (R565) -/

theorem Reported.evtBreano (c : Clock) (d : Dev) (ring own code tag : Nat) (fs : List (Nat × Nat × Nat)) :
    Reported d (d.evtBreano c ring own code tag fs) := by
  unfold Dev.evtBreano
  split
  · exact ⟨rfl⟩
  · exact .evt ..

theorem Dev.evtBreano_waiting (c : Clock) (d : Dev) (ring own code tag : Nat) (fs : List (Nat × Nat × Nat)) :
    (d.evtBreano c ring own code tag fs).host.waiting = d.host.waiting := by
  unfold Dev.evtBreano
  split
  · rfl
  · exact (HostOnly.evt ..).waiting

theorem Reported.startup {d e : Dev} (h : Reported d e) : e.startup = d.startup := by rw [h.dev]
theorem Reported.fe {d e : Dev} (h : Reported d e) : e.fe = d.fe := by rw [h.dev]
theorem Reported.air {d e : Dev} (h : Reported d e) : e.air = d.air := by rw [h.dev]

@[simp] theorem noted_startup (d : Dev) : (noted d).startup = d.startup := rfl
@[simp] theorem answered_startup (c : Clock) (w : Waiting) (r : Reply) (d : Dev) : (answered c w r d).startup = d.startup := by
  unfold answered; rw [Dev.respond_dev]; rfl

section
variable {s : State} {r : Req} {w : Waiting} {q : Profile}

/-! ### Auto-resume (R609, R612) -/

/-- The block in which a profile without carriers has been resumed for the cause given (R609, R612). -/
def Dev.resumed (c : Clock) (d : Dev) (p : Profile) (cause : Nat) : Dev :=
  ((d.heldSets c p).updStartup fun u => { u with resume := 2 }).evtBreano c 0 0 0x0188 0 [(0, 1, 0), (1, 1, cause), (2, 2, 0)]

theorem Dev.resume_none {d : Dev} (hprofile : d.startup.profile = some q) (hnone : q.carriers = []) (c : Clock) (cause : Nat) :
    d.resume c cause = (0, d.resumed c q cause) := by
  unfold Dev.resume
  simp only [hprofile, Dev.addHeld_none hnone]
  rfl

/-- What a resume without carriers leaves: the streams of the profile, and the carriers that were there. -/
theorem Dev.resumed_fields (c : Clock) (d : Dev) (p : Profile) (cause : Nat) :
    (d.resumed c p cause).startup.resume = 2 ∧ (d.resumed c p cause).fe.streams = p.fe.streams ∧
      (d.resumed c p cause).air.carriers = d.air.carriers := by
  unfold Dev.resumed
  refine ⟨?_, ?_, ?_⟩
  · rw [(Reported.evtBreano ..).startup]
    rfl
  · rw [(Reported.evtBreano ..).fe]
    exact Dev.heldSets_streams c d p
  · rw [(Reported.evtBreano ..).air]
    exact Dev.heldSets_keeps (fun d => d.air.carriers) (fun _ _ _ _ => rfl) (fun _ _ => rfl) (fun _ _ => rfl) (fun _ _ => rfl) c d p

theorem Dev.resumed_waiting (c : Clock) (d : Dev) (p : Profile) (cause : Nat) :
    (d.resumed c p cause).host.waiting = d.host.waiting := by
  unfold Dev.resumed
  rw [Dev.evtBreano_waiting]
  exact Dev.heldSets_keeps (fun d => d.host.waiting) (fun _ _ _ _ => rfl) (fun _ _ => rfl) (fun _ _ => rfl) (fun _ _ => rfl) c d p

theorem exec_resumeDone_locked (hresume : s.dev.startup.resume = 1) (hfatal : s.dev.mgmt.fatal = false)
    (hcoast : s.dev.mgmt.coasting = false) (hst : s.dev.time.st = 2) (hservo : s.dev.time.set.profile ≠ 0)
    (hprofile : s.dev.startup.profile = some q) (hnone : q.carriers = []) :
    exec .resumeDone s = .next { s with dev := s.dev.resumed s.clk q 0 } := by
  have hcause : s.dev.resumeCause = some 0 := by simp [Dev.resumeCause, hresume, hfatal, hcoast, hst, hservo]
  show execResumeDone s = _
  unfold execResumeDone
  simp only [onDev_eq, hcause, Dev.resume_none hprofile hnone]

theorem exec_resumeTimeout_due (hprofile : s.dev.startup.profile = some q) (hresume : s.dev.startup.resume = 1)
    (hdue : s.dev.startup.readyAt + q.wait * 1966080000 ≤ s.clk.atc) (hlimp : s.dev.mgmt.limp = false) :
    exec .resumeTimeout s = .next { s with
      dev := (s.dev.updStartup fun u => { u with resume := 3, stokerWait := false }).evt0 s.clk 0x0188 0
        [(0, 1, 1), (1, 1, 0), (2, 2, 0)] } := by
  have hwaited : (s.dev.startup.resume != 1 || decide (s.clk.atc < s.dev.startup.readyAt + q.wait * 1966080000)) = false := by
    rw [hresume, decide_eq_false (Nat.not_lt.2 hdue)]; rfl
  show execResumeTimeout s = _
  unfold execResumeTimeout
  simp only [onDev_eq, hprofile, hwaited, Bool.false_eq_true, if_false, Dev.evtBreano_of_up (d := s.dev.updStartup _) hlimp]

/-! ### Commands (R608, R611) -/

theorem exec_deviceProfileSave_idle {auto wait : Nat} (hw : Waits s r 0x0104 w) (hfit : Fits w 12) (hauto : auto ≤ 1)
    (hwait : wait ≤ 3600) (hidle : s.dev.mgmt.updating = false) (hpend : s.dev.devmode.pend = none) :
    exec (.deviceProfileSave r auto wait) s = .next { s with
      dev := answered s.clk w (rOk [(8, s.clk.atc), (4, Config.freeNat s.dev.free % 2 ^ 32)]) (noted
        ((draw s.dev).2.updStartup fun u =>
          { u with profile := some (s.dev.profile (auto = 1) wait), profCoast := some s.dev.mgmt.coastMs })) } := by
  refine onDev_serve_journalled hw (by decide) (.inl rfl) hfit rfl ?_
  simp only [Nat.not_lt.2 hauto, Nat.not_lt.2 hwait, hidle, hpend, if_false, Bool.false_eq_true, Option.isSome_none]
  rfl

/-- What start-up status answers (R611). -/
def Dev.startupFields (d : Dev) : List (Nat × Nat) :=
  d.startup.ends.map (fun e => (8, e)) ++ [(1, d.startup.stop.1), (1, d.startup.stop.2),
    (2, (d.cores.core.filter fun e => e.2.st = .retired).length), (2, d.mem.retiredPages.length), (2, d.mem.repair.length),
    (1, d.startup.resume)]

theorem length_pk_append (a b : List (Nat × Nat)) : (pk (a ++ b)).length = (pk a).length + (pk b).length := by
  unfold pk; rw [List.flatMap_append, List.length_append]

theorem exec_deviceStartupStatus_next (hw : Waits s r 0x0105 w) (hfit : Fits w 57) (hends : s.dev.startup.ends.length = 6) :
    exec (.deviceStartupStatus r) s = .next { s with dev := answered s.clk w (rOk s.dev.startupFields) s.dev } := by
  refine onDev_serve_noFx hw (by decide) ?fits rfl
  have hlen : (rOk s.dev.startupFields).payload.length = 57 := by
    unfold rOk Dev.startupFields
    rw [length_pk_append, length_pk_octets, hends]
    rfl
  rw [hlen]
  exact hfit

theorem exec_deviceResume_held (hw : Waits s r 0x0106 w) (hfit : Fits w 2) (hresume : s.dev.startup.resume = 1)
    (hprofile : s.dev.startup.profile = some q) (hnone : q.carriers = []) :
    exec (.deviceResume r) s = .next { s with
      dev := answered s.clk w (rOk [(2, 0)]) (noted (s.dev.resumed s.clk q 2)) } := by
  refine onDev_serve_reporting hw (by decide) (.inl rfl) hfit (Dev.resumed_waiting ..) ?_
  simp only [hresume, bne_self_eq_false, Bool.false_eq_true, if_false, Dev.resume_none hprofile hnone]

theorem exec_deviceResume_none (hw : Waits s r 0x0106 w) (hresume : s.dev.startup.resume ≠ 1) :
    exec (.deviceResume r) s = .next { s with dev := answered s.clk w (rSt 0x0022) s.dev } := by
  refine onDev_serve_refused hw (by decide) (fits_zero w) ?_
  simp only [bne_iff_ne.2 hresume, if_true, stBADSTATE]

/-- Ending the self-tests keeps a core retired. -/
theorem Dev.coreRetired.tested {d : Dev} {n : Nat} (h : d.coreRetired n) (c : Clock) :
    (((d.endStep c 4).endStep c 5).toPhase .tested).startup.phase = .tested ∧
      ((((d.endStep c 4).endStep c 5).toPhase .tested).core n).st = .retired :=
  ⟨rfl, h⟩

end

/-- Settles O40: each command has its lemma above. -/
theorem startUpSteps : Obligations.StartUpSteps := by
  unfold Obligations.StartUpSteps
  refine ⟨?reset, ?lock, ?notReset, ?boot, ?noBlob, ?clean, ?core, ?ready, ?stop, ?timeout, ?resume, ?resumeTimeout, ?save, ?status,
    ?held, ?none⟩
  case reset =>
    intro s spliceOk hphase hok
    subst hok
    exact ⟨_, exec_powerOnReset_spliced hphase, rfl, rfl, rfl, rfl, rfl⟩
  case lock =>
    intro s hphase
    exact ⟨_, exec_clockLock_reset hphase, rfl, rfl, rfl⟩
  case notReset =>
    intro s hphase
    exact exec_clockLock_other hphase
  case boot =>
    intro s imgOk pairOk hphase ⟨himg, hpair⟩ _
    subst himg hpair
    cases hblob : s.dev.pkg.chooseBlob with
    | none =>
      obtain ⟨hstopped, hreason, -⟩ := Dev.stopStartup_stopped s.clk (s.dev.booting s.clk true) 3 5
      have hactive := Dev.stopStartup_activeB s.clk (s.dev.booting s.clk true) 3 5
      refine ⟨_, exec_breanoBoot_noBlob hphase hblob, ?_⟩
      dsimp only
      exact ⟨hactive, hstopped, hreason⟩
    | some b =>
      obtain ⟨b, board⟩ := b
      obtain ⟨h, hused⟩ := Dev.useBlob_eq (s.dev.booting s.clk true) b board
      refine ⟨_, exec_breanoBoot_blob hphase hblob, ?_⟩
      rw [hused, Dev.train_eq]
      exact ⟨rfl, rfl, rfl, rfl, rfl⟩
  case noBlob =>
    intro s imgOk pairOk hphase himg ⟨hflash, hboard⟩
    subst himg
    exact ⟨_, exec_breanoBoot_noBlob hphase (Pkg.chooseBlob_none hflash hboard), Dev.stopStartup_stopped ..⟩
  case clean =>
    intro s cores clusters rows rams hphase ⟨hcores, hclusters, hrows, hrams⟩
    subst hcores hclusters hrows hrams
    exact exec_startupSelftestDone_clean hphase
  case core =>
    intro s cores clusters rows rams n hphase hn ⟨hcores, hclusters, hrows, hrams⟩ _
    subst hcores hclusters hrows hrams
    refine ⟨_, exec_startupSelftestDone_core hphase hn, ?_⟩
    dsimp only
    exact Dev.coreRetired.tested (Dev.coreRetired_retireCore s.clk s.dev n) s.clk
  case ready =>
    intro s standby hphase hearly hprofile hactive
    obtain ⟨_, hposted⟩ := Dev.setServo_sameMgmt s.clk (s.dev.inService s.clk standby) 5
    refine ⟨_, exec_serviceReady_plain hphase hearly hprofile hactive, ?_⟩
    dsimp only
    rw [Dev.ringed_startup, Dev.ringed_mgmt, Dev.ringed_devmode, Dev.ringed_time, Dev.ringed_power, hposted.startup, hposted.mgmt,
      hposted.devmode, hposted.time, hposted.power]
    exact ⟨rfl, rfl, rfl, rfl, rfl, rfl, rfl, rfl, rfl, rfl⟩
  case stop =>
    intro s step reason hphase ⟨hstep, hreason⟩
    subst hstep hreason
    obtain ⟨hstopped, hwhy, hfatal, -, hfault⟩ := Dev.stopStartup_stopped s.clk s.dev 4 6
    refine ⟨_, exec_startupStop_fits (by rw [hphase]; rfl), ?_⟩
    dsimp only
    exact ⟨hstopped, hwhy, hfatal, hfault⟩
  case timeout =>
    intro s hphase hlate
    obtain ⟨hstopped, hwhy, hfatal, -, hfault⟩ := Dev.stopStartup_stopped s.clk s.dev 6 8
    refine ⟨_, exec_startupTimeout_tested hphase hlate, ?_⟩
    dsimp only
    exact ⟨hstopped, hwhy, hfatal, hfault⟩
  case resume =>
    intro s q hresume ⟨hfatal, hcoast, _⟩ hst hservo hprofile hnone
    exact ⟨_, exec_resumeDone_locked hresume hfatal hcoast hst hservo hprofile hnone, Dev.resumed_fields ..⟩
  case resumeTimeout =>
    intro s q hprofile hresume hdue hlimp
    exact exec_resumeTimeout_due hprofile hresume hdue hlimp
  case save =>
    intro s r w auto wait hw hfit ⟨hauto, hwait⟩ hidle hpend
    refine ⟨_, exec_deviceProfileSave_idle hw hfit hauto hwait hidle hpend, answered_host_congr s.clk w _ rfl, ?_, ?_, ?_⟩
    · rw [answered_free]; rfl
    · rw [answered_startup]; rfl
    · rw [answered_startup]; rfl
  case status =>
    intro s r w hw hfit hends
    exact ⟨_, exec_deviceStartupStatus_next hw hfit hends, answered_host_congr s.clk w _ rfl, answered_startup ..⟩
  case held =>
    intro s r w q hw hfit hresume hprofile hnone
    obtain ⟨hdone, hstreams, hcarriers⟩ := Dev.resumed_fields s.clk s.dev q 2
    refine ⟨_, exec_deviceResume_held hw hfit hresume hprofile hnone, ?_, ?_, ?_, ?_⟩
    · rw [answered_startup, noted_startup, hdone]
    · rw [answered_fe, noted_fe, hstreams]
    · rw [answered_air, noted_air, hcarriers]
    · exact answered_waiting ((Dev.resumed_waiting ..).trans hw.1)
  case none =>
    intro s r w hw hresume
    exact exec_deviceResume_none hw hresume

end Sys2Proof.Machine
end

section
/-! Statement O41: supplies, the power-fail input, sensors, thermal shutdown and the blob (R617-R633). -/
namespace Sys2Proof.Machine

/-! ### VIN (R617) -/

section
variable {s : State} {mv : Nat}

theorem exec_vinRise_off (hoff : s.dev.startup.phase = .off) (hlow : s.dev.pkg.vin < 5800) (hmv : 5800 ≤ mv ∧ mv ≤ 62000) :
    exec (.vinRise mv) s = .next { s with
      dev := (s.dev.updPkg fun p => { p with vin := mv }).updStartup fun u => { u with phase := .held } } := by
  show execVinRise mv s = _
  unfold execVinRise Dev.setVin
  simp only [onDev_eq, Nat.not_lt.2 hmv.1, Nat.not_lt.2 hmv.2, Nat.not_le.2 hlow, decide_false, Bool.or_false, Bool.false_eq_true,
    if_false, Dev.updPkg_startup, hoff, if_true]
  rfl

theorem exec_vinRise_low (hmv : mv < 5800) : exec (.vinRise mv) s = .next s := by
  show execVinRise mv s = _
  unfold execVinRise
  simp only [onDev_eq, hmv, decide_true, Bool.true_or, if_true]

theorem exec_vinFall_off (hmv : mv < 5400) :
    exec (.vinFall mv) s = .next { s with clk := {}, dev := (s.dev.setVin mv).powerOff .off } := by
  show execVinFall mv s = _
  unfold execVinFall
  simp only [onBoth_eq, Nat.not_le.2 hmv, if_false]
  rfl

theorem exec_vinFall_high (hmv : 5400 ≤ mv) : exec (.vinFall mv) s = .next s := by
  show execVinFall mv s = _
  unfold execVinFall
  simp only [onBoth_eq, hmv, if_true]

theorem exec_vinOvervoltage_off (hmv : 62000 < mv) (hphase : s.dev.startup.phase ≠ .thermal) :
    exec (.vinOvervoltage mv) s = .next { s with clk := {}, dev := (s.dev.setVin mv).powerOff .off } := by
  show execVinOvervoltage mv s = _
  unfold execVinOvervoltage
  simp only [onBoth_eq, Nat.not_le.2 hmv, hphase, if_false]
  rfl

theorem exec_vinOvervoltageClear_off (hmv : 5400 ≤ mv ∧ mv < 60500) (hhigh : 62000 < s.dev.pkg.vin)
    (hoff : s.dev.startup.phase = .off) :
    exec (.vinOvervoltageClear mv) s = .next { s with
      dev := (s.dev.updPkg fun p => { p with vin := mv }).updStartup fun u => { u with phase := .held } } := by
  show execVinOvervoltageClear mv s = _
  unfold execVinOvervoltageClear Dev.setVin
  simp only [onDev_eq, Nat.not_lt.2 hmv.1, Nat.not_le.2 hmv.2, Nat.not_le.2 hhigh, decide_false, Bool.or_false, Bool.false_eq_true,
    if_false, Dev.updPkg_startup, hoff, if_true]
  rfl

end

/-! ### The power-fail input (R619) -/

/-- `e` differs from `d` at most in the copper spokes, the host interface, trouble bits and the MAC ports. -/
structure LinesStopped (d e : Dev) : Prop where
  startup : e.startup = d.startup
  pkg : e.pkg = d.pkg
  mem : e.mem = d.mem
  log : e.mgmt.log = d.mgmt.log

theorem LinesStopped.refl (d : Dev) : LinesStopped d d := ⟨rfl, rfl, rfl, rfl⟩

theorem LinesStopped.trans {d e f : Dev} (h : LinesStopped d e) (k : LinesStopped e f) : LinesStopped d f :=
  ⟨k.startup.trans h.startup, k.pkg.trans h.pkg, k.mem.trans h.mem, k.log.trans h.log⟩

theorem LinesStopped.of_sameMgmt {d e : Dev} (h : SameMgmt d e) : LinesStopped d e :=
  ⟨by rw [h.dev], by rw [h.dev], by rw [h.dev], by rw [h.mgmt]⟩

theorem LinesStopped.updCopper (d : Dev) (n : Nat) (f : CopSpoke → CopSpoke) : LinesStopped d (d.updCopper n f) := by
  unfold Dev.updCopper
  split
  · exact ⟨rfl, rfl, rfl, rfl⟩
  · exact .refl d

theorem LinesStopped.delStanding (d : Dev) (i : Nat) : LinesStopped d (d.delStanding i) := ⟨rfl, rfl, rfl, rfl⟩

theorem LinesStopped.copUnmark (d : Dev) (n : Nat) : LinesStopped d (d.copUnmark n) := by
  unfold Dev.copUnmark
  split
  · split
    · exact .refl d
    · exact .trans (.delStanding ..) (.updCopper ..)
  · exact .refl d

theorem LinesStopped.copStop (d : Dev) (n : Nat) : LinesStopped d (d.copStop n) := by
  unfold Dev.copStop
  refine .trans (.trans ?_ (.copUnmark _ n)) (.updCopper ..)
  split
  · exact .of_sameMgmt (.trouble ..)
  · exact .refl d

theorem LinesStopped.foldl {α : Type} {g : Dev → α → Dev} (hg : ∀ d a, LinesStopped d (g d a)) (l : List α) (d : Dev) :
    LinesStopped d (l.foldl g d) := by
  induction l generalizing d with
  | nil => exact .refl d
  | cons a l ih => exact .trans (hg d a) (ih _)

/-- The block as PFAIL_N falls, before its lines stop (R619). -/
def Dev.failing (d : Dev) : Dev :=
  (((d.updPkg fun p => { p with pfail := true }).toPhase .powerFail).updPkg fun p => { p with devFault := true }).updMac fun x =>
    { x with ports := x.ports.map fun e => (e.1, e.2.abort) }

/-- The block once PFAIL_N has stopped its lines and answered its commands (R619). -/
def Dev.failed (c : Clock) (d : Dev) : Dev :=
  ((d.failing.cop.spokes.map (·.1)).foldl (fun d n => d.copStop n) d.failing).answerAll c stFAULT

theorem LinesStopped.failed (c : Clock) (d : Dev) : LinesStopped d.failing (d.failed c) :=
  .trans (.foldl .copStop _ _) (.of_sameMgmt (.answerAll ..))

theorem Dev.failed_phase (c : Clock) (d : Dev) : (d.failed c).startup.phase = .powerFail := by
  rw [(LinesStopped.failed c d).startup]; rfl

theorem Dev.failed_pkg (c : Clock) (d : Dev) : (d.failed c).pkg = { d.pkg with pfail := true, devFault := true } := by
  rw [(LinesStopped.failed c d).pkg]; rfl

theorem Dev.failed_mem (c : Clock) (d : Dev) : (d.failed c).mem = d.mem := by
  rw [(LinesStopped.failed c d).mem]; rfl

theorem Dev.failed_log (c : Clock) (d : Dev) : (d.failed c).mgmt.log = d.mgmt.log := by
  rw [(LinesStopped.failed c d).log]; rfl

theorem exec_pfail_service {s : State} (hphase : s.dev.startup.phase = .service) :
    exec .pfail s = .next { s with
      dev := (s.dev.failed s.clk).updMgmt fun m => { m with logFlash := some (m.log.take 512) } } := by
  show execPfail s = _
  unfold execPfail Dev.failed Dev.failing
  simp only [onDev_eq, Dev.updPkg_startup, hphase, Phase.powered, Bool.not_true, Bool.false_or, reduceCtorEq, decide_false,
    Bool.false_eq_true, if_false]

/-! ### Sensors (R626, R627, R633) -/

section
variable {s : State} {vin iin pin : Nat} {junction dramTemps : List Int}

/-- The block with the readings stored (R626). -/
def Dev.sensed (c : Clock) (d : Dev) (vin iin pin : Nat) (junction dramTemps : List Int) : Dev :=
  d.updPkg fun p =>
    { p with vin := vin, iin := iin, pin := pin, junction := junction, dramTemps := dramTemps, readAt := c.atc
             over115 := over115 c.atc p.over115 junction }

theorem exec_sensorRefresh_service (hphase : s.dev.startup.phase = .service)
    (hlen : junction.length = 24 ∧ dramTemps.length = 4) :
    exec (.sensorRefresh vin iin pin junction dramTemps) s = .next { s with
      dev := (s.dev.sensed s.clk vin iin pin junction dramTemps).thermalWarn s.clk } := by
  show execSensorRefresh vin iin pin junction dramTemps s = _
  unfold execSensorRefresh Dev.sensed
  simp only [onDev_eq, hphase, hlen.1, hlen.2, Phase.powered, Bool.not_true, bne_self_eq_false, Bool.or_false, Bool.false_eq_true,
    if_false]

theorem Dev.thermalWarn_cool {c : Clock} {d : Dev} (hcool : (hottest d.pkg.junction).2 < 1000) (hhot : d.pkg.hot = false) :
    d.thermalWarn c = d := by
  have hbelow : ¬ 1050 ≤ (hottest d.pkg.junction).2 := by omega
  unfold Dev.thermalWarn
  simp only [hhot, hbelow, decide_false, Bool.and_false, Bool.false_and, Bool.false_eq_true, if_false]

theorem Dev.evt0_pkg (c : Clock) (d : Dev) (code tag : Nat) (fs : List (Nat × Nat × Nat)) : (d.evt0 c code tag fs).pkg = d.pkg :=
  (Reported.of_hostOnly (.evt ..)).pkg

/-- A junction that has become hot is marked, with the time of its THERMAL_WARN (R627). -/
theorem Dev.thermalWarn_hot_pkg {c : Clock} {d : Dev} (hover : 1050 ≤ (hottest d.pkg.junction).2) (hhot : d.pkg.hot = false)
    (hwarn : d.pkg.warnAt = (0, 0)) : (d.thermalWarn c).pkg = { d.pkg with hot := true, warnAt := (0, c.atc + 1) } := by
  unfold Dev.thermalWarn
  simp only [hhot, hover, hwarn, Bool.not_false, decide_true, Bool.and_self, Bool.true_or, if_true]
  rw [Dev.evt0_pkg, Dev.updPkg_pkg, hwarn]

/-- The shutdown of a sensor that has read 115 C for 1 ms: logged, and saved (R627). -/
def Dev.overheated (c : Clock) (d : Dev) (sensor : Nat) : Dev :=
  (d.logOnly c sensor 3 0x0F49 (pk [(1, sensor), (1, 0), (2, uns 16 (d.pkg.junction.getD sensor 0))])).updMgmt fun m =>
    { m with logFlash := some m.log }

/-- The block after a thermal shutdown: AON keeps its record (R627). -/
def Dev.shut (d : Dev) : Dev :=
  (((d.powerOff .thermal).updMgmt fun _ => d.mgmt.warm).updMem fun m =>
    { m with splices := d.mem.splices, spliceDue := d.mem.spliceDue }).updPkg fun p =>
      { p with devFault := true, tandemId := d.pkg.tandemId, blobForce := d.pkg.blobForce }

theorem exec_thermalShutdown_due {sensor at_ : Nat} (hover : tfind s.dev.pkg.over115 sensor = some at_)
    (hphase : s.dev.startup.phase = .service) (hdue : at_ + 1966080 ≤ s.clk.atc + 1) :
    exec (.thermalShutdown sensor) s = .next { s with dev := (s.dev.overheated s.clk sensor).shut } := by
  show execThermalShutdown sensor s = _
  unfold execThermalShutdown Dev.shut Dev.overheated
  simp only [onDev_eq, hover, hphase, Phase.powered, Bool.not_true, Bool.false_or, decide_eq_false (Nat.not_lt.2 hdue),
    Bool.false_eq_true, if_false]

theorem Dev.overheated_trb (c : Clock) (d : Dev) (sensor : Nat) : (d.overheated c sensor).mgmt.trb = d.mgmt.trb :=
  Dev.logOnly_trb ..

theorem Dev.overheated_pkg (c : Clock) (d : Dev) (sensor : Nat) : (d.overheated c sensor).pkg = d.pkg := rfl

theorem Dev.overheated_saved (c : Clock) (d : Dev) (sensor : Nat) :
    (d.overheated c sensor).mgmt.logFlash = some (d.overheated c sensor).mgmt.log := rfl

end

/-! ### Commands (R630, R633) -/

section
variable {s : State} {r : Req} {w : Waiting}

theorem answered_pkg (c : Clock) (w : Waiting) (r : Reply) (d : Dev) : (answered c w r d).pkg = d.pkg := by
  unfold answered; rw [Dev.respond_dev]; rfl

/-- What the sensors answer (R633). -/
def Pkg.readings (p : Pkg) : List (Nat × Nat) :=
  [(4, p.vin), (4, p.iin), (4, p.pin)] ++ (p.junction ++ p.dramTemps).map (fun v => (2, uns 16 v)) ++ [(8, p.readAt)]

theorem length_pk_halves {α : Type} (f : α → Nat) (l : List α) : (pk (l.map fun a => (2, f a))).length = 2 * l.length := by
  unfold pk
  induction l with
  | nil => rfl
  | cons a l ih =>
    rw [List.map_cons, List.flatMap_cons, List.length_append, ih, List.length_cons]
    simp [le_length]
    omega

theorem exec_deviceGetSensors_all (hw : Waits s r 0x0107 w) (hfit : Fits w 76)
    (hlen : s.dev.pkg.junction.length = 24 ∧ s.dev.pkg.dramTemps.length = 4) :
    exec (.deviceGetSensors r) s = .next { s with dev := answered s.clk w (rOk s.dev.pkg.readings) s.dev } := by
  refine onDev_serve_noFx hw (by decide) ?fits rfl
  have hsize : (rOk s.dev.pkg.readings).payload.length = 76 := by
    unfold rOk Pkg.readings
    rw [length_pk_append, length_pk_append, length_pk_halves, List.length_append, hlen.1, hlen.2]
    rfl
  rw [hsize]
  exact hfit

theorem exec_deviceBlobWrite_sound {blob : List Byte} (hw : Waits s r 0x0108 w) (hlen : blob.length = 8192)
    (hidle : s.dev.mgmt.updating = false) (hnone : blobFault blob = none) :
    exec (.deviceBlobWrite r blob) s = .next { s with
      dev := answered s.clk w rOk (noted (s.dev.updPkg fun p => { p with blobFlash := some blob })) } := by
  refine onDev_serve_journalled hw (by decide) (.inl rfl) (fits_zero w) rfl ?_
  rw [List.take_of_length_le (Nat.le_of_eq hlen)]
  simp only [hnone, hidle, Bool.false_eq_true, if_false]

theorem exec_deviceBlobWrite_faulty {blob : List Byte} {o : Nat} (hw : Waits s r 0x0108 w) (hlen : blob.length ≤ 8192)
    (hfault : blobFault blob = some o) :
    exec (.deviceBlobWrite r blob) s = .next { s with dev := answered s.clk w (rBad o) s.dev } := by
  refine onDev_serve_refused hw ⟨(by decide : stBADARG ≠ stOK), (by decide : stBADARG ≠ stACCEPTED)⟩ (fits_zero w) ?_
  rw [List.take_of_length_le hlen]
  simp only [hfault]

theorem blobFault_of_short {blob : List Byte} (hlen : blob.length < 8192) : blobFault blob = some 8 := by
  have hhead : blobHeadFault blob = some 8 := by
    unfold blobHeadFault
    rw [if_pos (bne_iff_ne.2 (Nat.ne_of_lt hlen))]
  unfold blobFault
  rw [hhead, Option.orElse_some]

theorem exec_deviceBlobRead_flash {q : List Byte} (hw : Waits s r 0x0109 w) (hfit : Fits w 8193)
    (hflash : s.dev.pkg.blobFlash = some q) (hlen : q.length = 8192) :
    exec (.deviceBlobRead r 0) s = .next { s with
      dev := answered s.clk w { status := stOK, payload := pk [(1, (blobValid q).toNat)] ++ q } s.dev } := by
  refine onDev_serve_noFx (rep := { status := stOK, payload := pk [(1, (blobValid q).toNat)] ++ q }) hw (by decide) ?fits ?_
  case fits =>
    have hsize : (pk [(1, (blobValid q).toNat)] ++ q).length = 8193 := by
      have hone : (pk [(1, (blobValid q).toNat)]).length = 1 := rfl
      rw [List.length_append, hlen, hone]
    dsimp only
    rw [hsize]
    exact hfit
  · simp only [Nat.not_lt_zero, if_false, if_true, hflash]

end

/-- Settles O41: each command has its lemma above. -/
theorem packageAndSupplies : Obligations.PackageAndSupplies := by
  unfold Obligations.PackageAndSupplies
  refine ⟨?rise, ?low, ?fall, ?high, ?overvoltage, ?clear, ?pfail, ?cool, ?hot, ?thermal, ?sensors, ?write, ?short, ?read⟩
  case rise =>
    intro s mv hoff hlow hmv
    exact exec_vinRise_off hoff hlow hmv
  case low =>
    intro s mv hmv
    exact exec_vinRise_low hmv
  case fall =>
    intro s mv hmv
    exact ⟨_, exec_vinFall_off hmv, rfl, rfl, rfl, rfl, rfl, rfl, rfl, rfl, rfl, rfl, rfl⟩
  case high =>
    intro s mv hmv
    exact exec_vinFall_high hmv
  case overvoltage =>
    intro s mv hmv hphase
    exact ⟨_, exec_vinOvervoltage_off hmv hphase, rfl, rfl, rfl, rfl, rfl⟩
  case clear =>
    intro s mv hmv hhigh hoff
    exact exec_vinOvervoltageClear_off hmv hhigh hoff
  case pfail =>
    intro s hphase
    refine ⟨_, exec_pfail_service hphase, ?_⟩
    simp only [Dev.updMgmt_startup, Dev.updMgmt_pkg, Dev.updMgmt_mgmt, Dev.updMgmt_mem, Dev.failed_phase, Dev.failed_pkg,
      Dev.failed_mem, Dev.failed_log, and_self]
  case cool =>
    intro s vin iin pin junction dramTemps hphase hlen hcool hhot
    rw [exec_sensorRefresh_service hphase hlen,
      Dev.thermalWarn_cool (d := s.dev.sensed s.clk vin iin pin junction dramTemps) hcool hhot]
    rfl
  case hot =>
    intro s vin iin pin junction dramTemps hphase hlen hover hhot hwarn
    have hpkg := Dev.thermalWarn_hot_pkg (c := s.clk) (d := s.dev.sensed s.clk vin iin pin junction dramTemps) hover hhot hwarn
    refine ⟨_, exec_sensorRefresh_service hphase hlen, ?_⟩
    dsimp only
    rw [hpkg]
    exact ⟨rfl, rfl, rfl, rfl⟩
  case thermal =>
    intro s sensor at_ hover hphase hdue
    refine ⟨_, exec_thermalShutdown_due hover hphase hdue, ?_⟩
    dsimp only
    refine ⟨rfl, rfl, rfl, ?saved, rfl, rfl, Dev.overheated_trb .., ?id⟩
    case saved => exact Dev.overheated_saved ..
    case id => exact (congrArg Pkg.tandemId (Dev.overheated_pkg s.clk s.dev sensor) :)
  case sensors =>
    intro s r w hw hfit hlen
    exact ⟨_, exec_deviceGetSensors_all hw hfit hlen, answered_host_congr s.clk w _ rfl, answered_pkg ..⟩
  case write =>
    intro s r w blob hw hlen hidle
    cases hfault : blobFault blob with
    | none => exact exec_deviceBlobWrite_sound hw hlen hidle hfault
    | some o => exact exec_deviceBlobWrite_faulty hw (Nat.le_of_eq hlen) hfault
  case short =>
    intro s r w blob hw hlen
    exact ⟨_, exec_deviceBlobWrite_faulty hw (Nat.le_of_lt hlen) (blobFault_of_short hlen), answered_host_congr s.clk w _ rfl,
      answered_pkg ..⟩
  case read =>
    intro s r w source q hw hfit hsource hflash hlen
    subst hsource
    exact ⟨_, exec_deviceBlobRead_flash hw hfit hflash hlen, rfl⟩

end Sys2Proof.Machine
end

section
/-! Statement O35: what commands a tandem group through an entry into a mode, and writes of memory without an error in any code word
(R374, R552, R554, R557). -/
namespace Sys2Proof.Machine

/-! ### The group's epoch and captain, and a pending handback (R552, R554) -/

/-- Who commands the group, under which epoch, and the handback that is due. -/
def Dev.command (d : Dev) : Nat × Nat × Option (Nat × Nat) := (d.tnd.epoch, d.tnd.captain, d.tnd.handback)

theorem Dev.command_congr {d e : Dev} (h : e.tnd = d.tnd) : e.command = d.command := by unfold Dev.command; rw [h]

theorem Reported.command {d e : Dev} (h : Reported d e) : e.command = d.command := Dev.command_congr (by rw [h.dev])

theorem Dev.updSpoke_command (d : Dev) (n : Nat) (f : Spoke → Spoke) : (d.updSpoke n f).command = d.command :=
  Dev.updSpoke_keeps Dev.command (fun _ _ => rfl) d n f

theorem Dev.updCopper_command (d : Dev) (n : Nat) (f : CopSpoke → CopSpoke) : (d.updCopper n f).command = d.command := by
  unfold Dev.updCopper; split <;> rfl

theorem Dev.noteDown_command (c : Clock) (d : Dev) (n : Nat) : (d.noteDown c n).command = d.command := by
  unfold Dev.noteDown
  dsimp only
  split
  · rfl
  · split <;> rfl

theorem Dev.abortScans_command (d : Dev) (ls : List Nat) : (d.abortScans ls).command = d.command :=
  Dev.abortScans_keeps Dev.command (fun _ _ _ => rfl) d ls

theorem Dev.reportTable_command (c : Clock) (d : Dev) (n : Nat) (bad : List (Nat × Nat)) :
    (d.reportTable c n bad).command = d.command := by
  unfold Dev.reportTable
  rw [foldl_keeps Dev.command fun _ _ => (Reported.evtLog ..).command, Dev.updSpoke_command]

theorem Dev.resetLaneTrims_command (d : Dev) (n : Nat) (ls : List Nat) : (d.resetLaneTrims n ls).command = d.command := by
  unfold Dev.resetLaneTrims
  split
  · exact foldl_keeps Dev.command (f := fun d l => d.resetTrims 0 l) (fun _ _ => rfl) ls d
  · rfl

theorem Dev.restartSpoke_command (c : Clock) (d : Dev) (n : Nat) : (d.restartSpoke c n).command = d.command := by
  unfold Dev.restartSpoke
  split
  · rfl
  · dsimp only
    rw [Dev.updSpoke_command, Dev.abortScans_command, Dev.noteDown_command]
    split
    · exact Dev.resetLaneTrims_command ..
    · rfl

theorem Dev.bringUp_command (c : Clock) (d : Dev) (n : Nat) : (d.bringUp c n).command = d.command := by
  unfold Dev.bringUp
  split
  · rfl
  · simp only [apply_ite Dev.command, Dev.reportTable_command, Dev.restartSpoke_command, Dev.updSpoke_command,
      Dev.abortScans_command, Dev.noteDown_command, ite_self]

theorem Dev.enableSpoke_command (c : Clock) (d : Dev) (n : Nat) : (d.enableSpoke c n).command = d.command := by
  unfold Dev.enableSpoke
  split
  · rfl
  · dsimp only
    split
    · rw [Dev.bringUp_command, Dev.updSpoke_command, Dev.updSpoke_command]
    · rw [Dev.updSpoke_command]

theorem Dev.startPair_command (c : Clock) (d : Dev) (p : Nat) : (d.startPair c p).command = d.command := by
  unfold Dev.startPair; rw [Dev.updCopper_command]; rfl

theorem Dev.enableUnit_command (c : Clock) (d : Dev) (u : Nat × Nat) : (d.enableUnit c u).command = d.command := by
  unfold Dev.enableUnit
  split
  · rfl
  split
  · rfl
  split
  · rfl
  split
  · exact Dev.enableSpoke_command ..
  split
  · split
    · rfl
    · rw [foldl_keeps Dev.command fun _ _ => Dev.startPair_command .., Dev.updCopper_command]
  · rfl

theorem Dev.reviveUnits_command (c : Clock) (p : Nat × Nat → Bool) (d : Dev) : (d.reviveUnits c p).command = d.command := by
  unfold Dev.reviveUnits
  rw [foldl_keeps Dev.command fun _ _ => Dev.enableUnit_command ..]
  rfl

theorem Dev.setServo_command (c : Clock) (d : Dev) (st : Nat) : (d.setServo c st).command = d.command := by
  by_cases h : d.time.st = st
  · rw [Dev.setServo_same h]
  · exact Dev.command_congr (Dev.setServo_posts h c).tnd

theorem Dev.servoBack_command (c : Clock) (d : Dev) : (d.servoBack c).command = d.command := by
  unfold Dev.servoBack; rw [Dev.setServo_command]; rfl

theorem Dev.dormantEntry_command (c : Clock) (d : Dev) (tag : Nat) : (d.dormantEntry c tag).command = d.command := by
  unfold Dev.dormantEntry; split <;> rfl

theorem Dev.command_ite {d e : Dev} {p : Prop} [Decidable p] (he : e.command = d.command) :
    (if p then e else d).command = d.command := by
  split
  · exact he
  · rfl

/-- An entry into a mode changes neither the epoch, nor the captain, nor a pending handback. -/
theorem Dev.enterMode_command (c : Clock) (m : Mode) (status tag : Nat) (d : Dev) :
    (d.enterMode c m status tag).command = d.command := by
  unfold Dev.enterMode
  refine (Reported.evtBreano ..).command.trans ?_
  refine Eq.trans (Dev.command_ite (Dev.dormantEntry_command ..)) ?_
  refine Eq.trans (Dev.command_ite rfl) ?_
  refine Eq.trans (Dev.command_ite rfl) ?_
  refine Eq.trans (Dev.command_ite (Dev.servoBack_command ..)) ?_
  exact Dev.reviveUnits_command ..

/-! ### Writes of memory whose code words hold no error (R372, R374) -/

theorem writeBytes_append (m : Tab Byte) (a : Nat) (xs ys : List Byte) :
    writeBytes m a (xs ++ ys) = writeBytes (writeBytes m a xs) (a + xs.length) ys := by
  induction xs generalizing m a with
  | nil => rfl
  | cons x xs ih => rw [List.cons_append, List.length_cons, Nat.add_comm xs.length, ← Nat.add_assoc]; exact ih ..

/-- The block with `bs` written to its device memory at `a`. -/
def Dev.stored (d : Dev) (a : Nat) (bs : List Byte) : Dev := d.updMem fun m => { m with cells := writeBytes m.cells a bs }

theorem Dev.putCells_low {a : Nat} (h : a < 2 ^ 48) (d : Dev) (bs : List Byte) : d.putCells a bs = d.stored a bs := by
  have hhigh : ¬ 2 ^ 49 ≤ a := by omega
  unfold Dev.putCells Dev.stored
  simp only [hhigh, Nat.not_le.2 h, if_false]

/-- A word that holds no error takes its part of a write. -/
theorem Dev.writeWord_noEcc {d : Dev} {cw a : Nat} {bs : List Byte} (hecc : d.mem.ecc = []) (hlow : max a cw < 2 ^ 48) :
    d.writeWord cw a bs = (false, d.stored (max a cw)
      ((bs.drop (max a cw - a)).take (min (a + bs.length) (cw + cwSize cw) - max a cw))) := by
  have hnone : (d.updMem fun m => { m with ecc := tset {} m.ecc cw {} }) = d := by
    have hclear : tset {} d.mem.ecc cw {} = d.mem.ecc := by rw [hecc]; rfl
    show ({ d with mem := { d.mem with ecc := tset {} d.mem.ecc cw {} } } : Dev) = d
    rw [hclear]
  have hclean : (tget {} d.mem.ecc cw).kind = .clean := by rw [hecc]; rfl
  unfold Dev.writeWord
  dsimp only
  rw [hnone, hclean, Dev.putCells_low hlow]
  split <;> rfl

theorem cwSize_of_ge {a : Nat} (h : 0x1000000000 ≤ a) (hlow : a < 2 ^ 48) : cwSize a = 32 := by
  unfold cwSize; simp only [h, hlow, decide_true, Bool.and_self, if_true]

theorem Dev.stored_stored (d : Dev) (a : Nat) (xs ys : List Byte) :
    (d.stored a xs).stored (a + xs.length) ys = d.stored a (xs ++ ys) := by
  show ({ d with mem := { d.mem with cells := writeBytes (writeBytes d.mem.cells a xs) (a + xs.length) ys } } : Dev) = _
  rw [← writeBytes_append]
  rfl

/-- A word takes the bytes of a write that lie in it, after those below it. -/
theorem Dev.writeWord_stored {d : Dev} {cw a : Nat} {bs : List Byte} (hecc : d.mem.ecc = []) (hcw : 0x1000000000 ≤ cw)
    (ha : a < cw + 32) (hin : cw < a + bs.length) (hend : a + bs.length < 2 ^ 48) :
    (d.stored a (bs.take (cw - a))).writeWord cw a bs = (false, d.stored a (bs.take (cw + 32 - a))) := by
  have hsize : cwSize cw = 32 := cwSize_of_ge hcw (by omega)
  have hlo : max a cw - a = cw - a := by omega
  have hlen : a + (bs.take (cw - a)).length = max a cw := by rw [List.length_take]; omega
  rw [Dev.writeWord_noEcc (d := d.stored a (bs.take (cw - a))) hecc (by omega), hsize, hlo, ← hlen, Dev.stored_stored, ← List.take_add]
  congr 2
  rw [List.take_eq_take_iff]
  omega

/-- The words of a row from `a` on take the bytes up to their end. -/
theorem Dev.foldl_writeWord {d : Dev} {a b : Nat} {bs : List Byte} (hecc : d.mem.ecc = []) (hb : 0x1000000000 ≤ b)
    (hba : b ≤ a) (hab : a < b + 32) (hend : a + bs.length < 2 ^ 48) :
    ∀ k, b + k * 32 < a + bs.length + 32 →
      ((List.range k).map fun i => b + i * 32).foldl (fun (o : Bool × Dev) cw =>
        let r := o.2.writeWord cw a bs; (o.1 || r.1, r.2)) (false, d) = (false, d.stored a (bs.take (b + k * 32 - a))) := by
  intro k
  induction k with
  | zero =>
    intro _
    rw [show b + 0 * 32 - a = 0 by omega]
    rfl
  | succ k ih =>
    intro hk
    rw [List.range_succ, List.map_append, List.foldl_append, ih (by omega)]
    have hword := Dev.writeWord_stored (d := d) (cw := b + k * 32) (a := a) (bs := bs) hecc (by omega) (by omega) (by omega) hend
    simp only [List.map_cons, List.map_nil, List.foldl_cons, List.foldl_nil, hword, Bool.or_self]
    rw [show b + k * 32 + 32 - a = b + (k + 1) * 32 - a by omega]

/-- A write of DRAM whose words hold no error stores its bytes, and loses none (R374). -/
theorem Dev.memWrite_noEcc {d : Dev} {a : Nat} {bs : List Byte} (hecc : d.mem.ecc = []) (ha : 0x1000000000 ≤ a)
    (hend : a + bs.length < 2 ^ 48) : d.memWrite a bs = (false, d.stored a bs) := by
  unfold Dev.memWrite codeWords
  split
  · next hnil => rw [List.length_eq_zero_iff.1 hnil]; rfl
  · next hlen =>
    have hfirst : cwSize a = 32 := cwSize_of_ge ha (by omega)
    have hlast : cwSize (a + bs.length - 1) = 32 := cwSize_of_ge (by omega) (by omega)
    have hwords := Dev.foldl_writeWord (b := a / 32 * 32) hecc (by omega) (by omega) (by omega) hend
      (((a + bs.length - 1) / 32 * 32 - a / 32 * 32) / 32 + 1) (by omega)
    unfold cwBase
    rw [hfirst, hlast, hwords, List.take_of_length_le (by omega)]

section
variable {s : State}

/-! ### HELLO, heartbeats sent, and the delay (R541, R544) -/

theorem exec_hello_agreed {link group id peerLink epoch ident : Nat} {y : Spoke} (hy : s.dev.spoke (256 + link) = some y)
    (hst : y.st = .exchange) (hgroup : (s.dev.tnd.group.map (·.1)) = some group)
    (hpeer : s.dev.linkPeer link = some (id, peerLink)) :
    exec (.hello link group id peerLink epoch ident) s = .next { s with
      dev := (s.dev.updTndLink link fun l => { l with peer := id }).spkUp s.clk (256 + link) } := by
  show execHello link group id peerLink epoch ident s = _
  unfold execHello
  simp only [onDev_eq, hy, hst, hgroup, hpeer, bne_self_eq_false, Bool.false_eq_true, if_false, decide_true, Bool.and_self, if_true]

theorem Dev.updSpoke_tnd (d : Dev) (n : Nat) (f : Spoke → Spoke) : (d.updSpoke n f).tnd = d.tnd :=
  Dev.updSpoke_keeps Dev.tnd (fun _ _ => rfl) d n f

/-- A link that becomes ACTIVE: its entry, with no failures counted; the tandem group is as it was (R400, R541). -/
theorem Dev.spkUp_link {d : Dev} {n : Nat} {y : Spoke} (hn : 256 ≤ n) (hy : d.spoke n = some y) (c : Clock) :
    (d.spkUp c n).tnd = d.tnd ∧ (d.spkUp c n).spoke n = some { (y.enter c.atc .active) with
      agreed := some (y.agreed.getD y.standard), fails := 0, reason := 0, window := !y.timed } := by
  have hlink : ¬ n < 256 := Nat.not_lt.2 hn
  unfold Dev.spkUp
  rw [hy]
  simp only [hlink, if_false]
  rw [Dev.evt0_tnd, Dev.updSpoke_tnd, Dev.spoke_congr (Dev.evt0_spk ..), Dev.spoke_updSpoke, hy]
  exact ⟨rfl, rfl⟩

theorem Dev.tndLink_updTndLink (d : Dev) (k : Nat) (f : TndLink → TndLink) :
    (d.updTndLink k f).tndLink k = f (d.tndLink k) := by
  simp [Dev.tndLink, Dev.updTndLink, tget_tmod]

theorem Dev.tndLink_congr {d e : Dev} (h : e.tnd = d.tnd) (k : Nat) : e.tndLink k = d.tndLink k := by unfold Dev.tndLink; rw [h]

theorem exec_heartbeatSend_boundary (hmode : s.dev.devmode.mode = .captain) (hms : s.clk.atc % 1966080 = 0)
    (hactive : ((List.range 8).any s.dev.linkActive) = true) :
    exec .heartbeatSend s = .next { s with
      dev := s.dev.updTnd fun y => { y with sent := s.dev.heartbeat s.clk, seq := (y.seq + 1) % 2 ^ 32 } } := by
  show execHeartbeatSend s = _
  unfold execHeartbeatSend
  simp only [onDev_eq, hmode, hms, hactive, bne_self_eq_false, Bool.not_true, Bool.or_self, Bool.false_eq_true, if_false]

theorem exec_heartbeatSend_between (hms : s.clk.atc % 1966080 ≠ 0) : exec .heartbeatSend s = .next s := by
  show execHeartbeatSend s = _
  unfold execHeartbeatSend
  simp only [onDev_eq, bne_iff_ne.2 hms, Bool.or_true, Bool.true_or, if_true]

theorem exec_echoExchange_active {link rtt turn : Nat} (hactive : s.dev.linkActive link = true) :
    exec (.echoExchange link rtt turn) s = .next { s with
      dev := s.dev.updTndLink link fun l => { l with delay := (((rtt : Int) - turn) / 2 + l.asym * 65536 / 2000).toNat } } := by
  show execEchoExchange link rtt turn s = _
  unfold execEchoExchange
  simp only [onDev_eq, hactive, Bool.not_true, Bool.false_eq_true, if_false]

/-! ### Heartbeats received (R545, R547, R554) -/

/-- The block of a stoker that has taken in its captain's heartbeat, before it steers: no offset is left. -/
def Dev.heard (c : Clock) (d : Dev) (servo seq : Nat) : Dev :=
  d.updTnd fun t =>
    { t with capEpoch := t.epoch, beatAt := c.atc + 1, beatSeq := seq, capServo := servo, missed := 0, offset := 0
             good := min (t.good + 1) 16 }

theorem exec_heartbeatReceive_captain {link group servo boundary : Nat} {raw : Int} (hactive : s.dev.linkActive link = true)
    (hgroup : (s.dev.tnd.group.map (·.1)) = some group) (hmode : s.dev.devmode.mode = .stoker)
    (hpeer : (s.dev.tndLink link).peer = s.dev.tnd.captain)
    (hup : (s.dev.updTnd fun y => { y with capEpoch := y.epoch }).upstream = some link) (hbeat : s.dev.tnd.beatAt ≠ 0)
    (hmissed : s.dev.tnd.missed = 0) :
    exec (.heartbeatReceive link group s.dev.tnd.epoch servo true false boundary ((s.dev.tnd.beatSeq + 1) % 2 ^ 32) raw 0) s =
      .next { s with
        dev := ((s.dev.heard s.clk servo ((s.dev.tnd.beatSeq + 1) % 2 ^ 32)).steer false
          (raw - ((s.dev.tndLink link).delay : Int))).setFollowing s.clk
            (min (s.dev.tnd.good + 1) 16 = 16 && (s.dev.unit 2 link).converged s.clk.atc 2 0) } := by
  have hadopt : (s.dev.updTnd fun t => { t with
      epoch := s.dev.tnd.epoch, capEpoch := s.dev.tnd.epoch, captain := s.dev.tnd.captain }) =
      s.dev.updTnd fun y => { y with capEpoch := y.epoch } := rfl
  have hnone : within50ps 0 = true := rfl
  show execHeartbeatReceive link group s.dev.tnd.epoch servo true false boundary _ raw 0 s = _
  unfold execHeartbeatReceive
  simp only [onDev_eq, hactive, hgroup, hmode, hadopt, hup, hpeer, hbeat, hmissed, hnone, Nat.lt_irrefl, bne_self_eq_false, reduceCtorEq,
    decide_false, Bool.not_true, Bool.and_false, Bool.or_self, Bool.false_eq_true, if_false, if_true, Dev.updTnd_devmode]
  rfl

theorem Dev.setFollowing_same {d : Dev} {on : Bool} (h : d.tnd.following = on) (c : Clock) : d.setFollowing c on = d := by
  unfold Dev.setFollowing; rw [if_pos h]

theorem Dev.setFollowing_tnd (c : Clock) (d : Dev) (on : Bool) : (d.setFollowing c on).tnd = { d.tnd with following := on } := by
  unfold Dev.setFollowing
  split
  · next h => rw [← h]
  · rw [Dev.evt0_tnd]; rfl

/-- A change of FOLLOWING leaves whatever the tandem state and an event leave. -/
theorem Dev.setFollowing_keeps {α : Type} (p : Dev → α) (ht : ∀ (d : Dev) f, p (d.updTnd f) = p d)
    (hr : ∀ {d e : Dev}, Reported d e → p e = p d) (c : Clock) (d : Dev) (on : Bool) : p (d.setFollowing c on) = p d := by
  unfold Dev.setFollowing
  split
  · rfl
  · exact (hr (.of_hostOnly (.evt ..))).trans (ht ..)

theorem Dev.setFollowing_pkg (c : Clock) (d : Dev) (on : Bool) : (d.setFollowing c on).pkg = d.pkg :=
  Dev.setFollowing_keeps Dev.pkg (fun _ _ => rfl) Reported.pkg c d on

theorem Dev.setFollowing_free (c : Clock) (d : Dev) (on : Bool) : (d.setFollowing c on).free = d.free :=
  Dev.setFollowing_keeps Dev.free (fun _ _ => rfl) (fun h => by rw [h.dev]) c d on

theorem Dev.setFollowing_time (c : Clock) (d : Dev) (on : Bool) : (d.setFollowing c on).time = d.time :=
  Dev.setFollowing_keeps Dev.time (fun _ _ => rfl) (fun h => by rw [h.dev]) c d on

/-- The frequency that a stoker steers to is a free value within 500 ppm (R545, R547; log 8). -/
theorem Dev.steer_steady {d : Dev} (hup : d.breanoAway = false) (off : Int) :
    (d.steer false off).tnd = d.tnd ∧ (d.steer false off).free = d.free + 2 ∧
      ((d.steer false off).time.ftrim + (d.steer false off).time.fslew).natAbs ≤ 8796093022 := by
  unfold Dev.steer
  simp only [hup, Bool.false_eq_true, if_false, Dev.updTime_tnd, Dev.updTime_free, Dev.updTime_time, Int.sub_add_cancel]
  refine ⟨rfl, rfl, ?_⟩
  have hlt := Nat.mod_lt (draw (draw d).2).1 (show 0 < 2 * 8796093022 + 1 by decide)
  omega

theorem exec_heartbeatReceive_older {link group epoch servo boundary seq : Nat} {captain dissolve : Bool} {raw filtered : Int}
    (hold : epoch < s.dev.tnd.epoch) :
    exec (.heartbeatReceive link group epoch servo captain dissolve boundary seq raw filtered) s = .next s := by
  show execHeartbeatReceive link group epoch servo captain dissolve boundary seq raw filtered s = _
  unfold execHeartbeatReceive
  simp only [onDev_eq, hold, decide_true, Bool.or_true, if_true]

/-! ### Misses and takeover (R547, R551, R552) -/

/-- The block of a stoker that has missed the heartbeat of boundary `m`. -/
def Dev.missing (d : Dev) (m : Nat) : Dev :=
  (d.updTnd fun t => { t with missed := t.missed + 1, missAt := m + 1, good := 0 }).updTime fun t => { t with fslew := 0 }

theorem exec_heartbeatMiss_member {mean : Int} {m : Nat} (hmode : s.dev.devmode.mode = .stoker)
    (hdue : s.dev.missDue s.clk = some m) (hid : s.dev.pkg.tandemId ≠ 1) (hfollow : s.dev.tnd.following = false) :
    exec (.heartbeatMiss mean) s = .next { s with dev := s.dev.missing m } := by
  have hsame := Dev.setFollowing_same (d := s.dev.missing m) hfollow s.clk
  have hother : (s.dev.missing m).pkg.tandemId ≠ 1 := hid
  show execHeartbeatMiss mean s = _
  unfold execHeartbeatMiss
  unfold Dev.missing at hsame hother ⊢
  simp only [onDev_eq, hmode, bne_self_eq_false, Bool.false_eq_true, if_false, hdue, hsame, bne_iff_ne.2 hother, Bool.true_or,
    if_true]

theorem exec_heartbeatMiss_vice {mean : Int} {m : Nat} (hmode : s.dev.devmode.mode = .stoker)
    (hdue : s.dev.missDue s.clk = some m) (hid : s.dev.pkg.tandemId = 1) (hmissed : s.dev.tnd.missed = 2)
    (hreport : s.dev.tnd.reportAt = 0) (hdissolve : s.dev.tnd.dissolve = none) :
    exec (.heartbeatMiss mean) s = .next { s with dev := ((s.dev.missing m).setFollowing s.clk false).takeOver s.clk mean } := by
  have htnd : ((s.dev.missing m).setFollowing s.clk false).tnd =
      { s.dev.tnd with missed := 3, missAt := m + 1, good := 0, following := false } := by
    have hcount : s.dev.tnd.missed + 1 = 3 := by rw [hmissed]
    rw [Dev.setFollowing_tnd, ← hcount]; rfl
  have hpkg : ((s.dev.missing m).setFollowing s.clk false).pkg.tandemId = 1 := by rw [Dev.setFollowing_pkg]; exact hid
  show execHeartbeatMiss mean s = _
  unfold execHeartbeatMiss
  unfold Dev.missing at htnd hpkg ⊢
  simp only [onDev_eq, hmode, bne_self_eq_false, Bool.false_eq_true, if_false, hdue, htnd, hpkg, hreport, hdissolve, Nat.lt_irrefl,
    decide_false, Option.any_none, Bool.or_self, Bool.false_and, Bool.not_false, if_true]

/-! ### Status frames, members and handback (R549, R551, R554) -/

theorem exec_statusFrame_joins {member boundary : Nat} {received : Bool} (hmode : s.dev.devmode.mode = .captain) :
    exec (.statusFrame member received true false boundary) s = .next { s with
      dev := s.dev.updTnd fun y => { y with joining := y.joining ++ [(member, boundary)] } } := by
  show execStatusFrame member received true false boundary s = _
  unfold execStatusFrame
  simp only [onDev_eq, hmode, reduceCtorEq, decide_false, Bool.false_and, Bool.false_eq_true, if_false, if_true]

theorem exec_memberTimeout_lost {member : Nat} (hmode : s.dev.devmode.mode = .captain) (hlisted : bit s.dev.tnd.members member = true)
    (hdown : (((List.range 8).filter fun k => (s.dev.tndLink k).peer = member).any fun k =>
      s.dev.linkActive k || s.clk.atc < (s.dev.tndLink k).downAt + 19660800) = false) :
    exec (.memberTimeout member) s = .next { s with
      dev := (s.dev.updTnd fun y => { y with members := y.members &&& (255 - 2 ^ member) }).evt0 s.clk 0x0C86 0
        [(0, 1, member), (1, 1, 0), (2, 1, s.dev.tnd.members &&& (255 - 2 ^ member))] } := by
  show execMemberTimeout member s = _
  unfold execMemberTimeout
  simp only [onDev_eq, hmode, hlisted, hdown, bne_self_eq_false, Bool.not_true, Bool.or_self, Bool.false_eq_true, if_false]
  rfl

theorem exec_handbackBoundary_due {at_ q tag : Nat} (hmode : s.dev.devmode.mode = .captain)
    (hback : s.dev.tnd.handback = some (q, tag)) (hdue : q ≤ s.clk.atc) :
    exec (.handbackBoundary at_) s = .next { s with
      dev := (s.dev.updTnd fun t => { t with handback := none, captain := 0 }).enterMode s.clk .stoker 0 tag } := by
  show execHandbackBoundary at_ s = _
  unfold execHandbackBoundary
  simp only [onDev_eq, hmode, hback, Nat.not_lt.2 hdue, if_false]

/-! ### Windows and a link that rests (R412, R557) -/

theorem exec_tandemWindowAccess_denied {member kind idx priv addr len peer : Nat} {data : List Byte}
    (hexport : s.dev.exported member addr data.length = false) :
    exec (.tandemWindowAccess true member true kind idx priv addr len data peer) s = .next { s with
      dev := s.dev.updTnd fun y => { y with sent := [4] } } := by
  show execTandemWindowAccess true member true kind idx priv addr len data peer s = _
  unfold execTandemWindowAccess
  simp only [onDev_eq, if_true, hexport, Bool.not_false]
  rfl

theorem inMemory_dram_end {a n : Nat} (hreg : regionOf a = .dram) (hin : inMemory a n = true) : a + n < 2 ^ 48 := by
  have hlast : regionOf (a + n - 1) = .dram := by simpa [inMemory, hreg] using hin
  have hlt := lt_of_regionOf_dram hlast
  omega

theorem Dev.busWrite_dram {d : Dev} {a : Nat} {bs : List Byte} (hreg : regionOf a = .dram) (hin : inMemory a bs.length = true)
    (hawake : ((memDomain a).all d.awake) = true) (hecc : d.mem.ecc = []) (c : Clock) (q : Requester) (peer : Peer) :
    d.busWrite c q a bs peer = (.done, d.stored a bs) := by
  unfold Dev.busWrite
  rw [hreg]
  simp only [hin, hawake, Dev.memWrite_noEcc hecc (regionOf_dram_ge hreg) (inMemory_dram_end hreg hin), Bool.not_true,
    Bool.false_eq_true, if_false]

theorem exec_tandemWindowAccess_stored {member kind idx priv addr len peer : Nat} {data : List Byte}
    (hexport : s.dev.exported member addr data.length = true) (hreg : regionOf addr = .dram)
    (hin : inMemory addr data.length = true) (hawake : ((memDomain addr).all s.dev.awake) = true) (hecc : s.dev.mem.ecc = []) :
    exec (.tandemWindowAccess true member true kind idx priv addr len data peer) s = .next { s with
      dev := (s.dev.stored addr data).updTnd fun y => { y with sent := [0] } } := by
  show execTandemWindowAccess true member true kind idx priv addr len data peer s = _
  unfold execTandemWindowAccess
  simp only [onDev_eq, if_true, hexport, Bool.not_true, Bool.false_eq_true, if_false, Dev.busWrite_dram hreg hin hawake hecc]
  rfl

theorem Dev.noteDown_of_down {d : Dev} {n : Nat} {y : Spoke} (hy : d.spoke n = some y) (hst : y.st ≠ .active) (c : Clock) :
    d.noteDown c n = d := by
  unfold Dev.noteDown
  simp only [hy, Option.any_some, hst, decide_false, Bool.not_false, if_true]

theorem exec_tndLinkDisabled_down {link tD tag : Nat} {abort : Bool} {y : Spoke} (hy : s.dev.spoke (256 + link) = some y)
    (hst : y.st ≠ .active) (hdis : y.dis = .ending abort tD tag) (hresize : y.resize = none) :
    exec (.tndLinkDisabled link) s = .next { s with
      dev := ((s.dev.abortScans (y.lanes (256 + link))).updSpoke (256 + link) fun y =>
        { y with st := .disabled, since := s.clk.atc, dis := .disabled, window := false, fast := false, agreed := none }).evt0
          s.clk 0x0C85 tag [(0, 1, link), (1, 1, abort.toNat)] } := by
  have hlink : ¬ 256 + link < 256 := by omega
  show execTndLinkDisabled link s = _
  unfold execTndLinkDisabled Dev.finishDisable
  simp only [onDev_eq, hy, hdis, hresize, hst, decide_false, Bool.false_and, Bool.false_eq_true, if_false, hlink,
    Dev.noteDown_of_down hy hst, Nat.add_sub_cancel_left, Spoke.enter]

/-- The block of a vice-captain that takes over, before it enters CAPTAIN (R552). -/
def Dev.succeeding (c : Clock) (mean : Int) (d : Dev) : Dev :=
  let told := (d.updTnd fun t => { t with epoch := (d.tnd.epoch + 1) % 256, captain := 0xFF, beatAt := 0 }).evt0 c 0x0C83 0
    [(0, 1, (d.tnd.epoch + 1) % 256), (8, 8, c.atc)]
  if told.time.set.profile != 0 && told.time.source = 0 && freqOk mean 0 then told.updTime fun t => { t with ftrim := mean } else told

theorem Dev.succeeding_command (c : Clock) (mean : Int) (d : Dev) :
    (d.succeeding c mean).command = ((d.tnd.epoch + 1) % 256, 0xFF, d.tnd.handback) := by
  unfold Dev.succeeding
  exact Eq.trans (Dev.command_ite rfl) (Dev.command_congr (Dev.evt0_tnd ..))

/-- A vice-captain that takes over is captain of the next epoch, with the members that it knew (R552). -/
theorem Dev.takeOver_captain (c : Clock) (mean : Int) (d : Dev) :
    InMode c .captain (d.takeOver c mean) ∧ (d.takeOver c mean).tnd.epoch = (d.tnd.epoch + 1) % 256 ∧
      (d.takeOver c mean).tnd.captain = 0xFF ∧ (d.takeOver c mean).tnd.members = d.tnd.members := by
  have hcommand := (Dev.enterMode_command c .captain 0 0 (d.succeeding c mean)).trans (d.succeeding_command c mean)
  rw [show d.takeOver c mean = ((d.succeeding c mean).enterMode c .captain 0 0).updTnd fun t => { t with members := d.tnd.members }
    from rfl]
  exact ⟨.of_devmode (Dev.enterMode_inMode c .captain 0 0 _) rfl, congrArg (·.1) hcommand, congrArg (·.2.1) hcommand, rfl⟩

end

/-- Settles O35: each command has its lemma above. -/
theorem tandemEvents : Obligations.TandemEvents := by
  unfold Obligations.TandemEvents
  refine ⟨?hello, ?send, ?between, ?echo, ?receive, ?older, ?member, ?vice, ?joins, ?lost, ?handback, ?stored, ?denied, ?rests⟩
  case hello =>
    intro s link group id peerLink epoch ident y hy hst hgroup hpeer
    obtain ⟨htnd, hspoke⟩ := Dev.spkUp_link (d := s.dev.updTndLink link fun l => { l with peer := id })
      (Nat.le_add_right 256 link) hy s.clk
    refine ⟨_, exec_hello_agreed hy hst hgroup hpeer, ?_⟩
    dsimp only
    rw [Dev.tndLink_congr htnd, Dev.tndLink_updTndLink, hspoke]
    exact ⟨rfl, rfl, rfl⟩
  case send =>
    intro s hmode hms hactive
    exact exec_heartbeatSend_boundary hmode hms hactive
  case between =>
    intro s hms
    exact exec_heartbeatSend_between hms
  case echo =>
    intro s link rtt turn hactive
    exact exec_echoExchange_active hactive
  case receive =>
    intro s link group epoch servo boundary seq captain dissolve raw filtered hactive hcaptain hgroup hmode hepoch hpeer hup
      ⟨hbeat, hmissed⟩ hseq haway hfiltered hdissolve
    subst hcaptain hepoch hseq hfiltered hdissolve
    obtain ⟨htnd, hfree, hfreq⟩ := Dev.steer_steady
      (d := s.dev.heard s.clk servo ((s.dev.tnd.beatSeq + 1) % 2 ^ 32)) haway (raw - ((s.dev.tndLink link).delay : Int))
    refine ⟨_, exec_heartbeatReceive_captain hactive hgroup hmode hpeer hup hbeat hmissed, ?_⟩
    dsimp only
    rw [Dev.setFollowing_tnd, Dev.setFollowing_free, Dev.setFollowing_time, htnd, hfree]
    exact ⟨rfl, rfl, rfl, rfl, rfl, rfl, rfl, hfreq⟩
  case older =>
    intro s link group epoch servo boundary seq captain dissolve raw filtered hold
    exact exec_heartbeatReceive_older hold
  case member =>
    intro s mean m hmode hdue hid hfollow
    exact ⟨_, exec_heartbeatMiss_member hmode hdue hid hfollow, rfl, rfl, rfl⟩
  case vice =>
    intro s mean m hmode hdue hid hmissed hreport hdissolve
    obtain ⟨⟨hcaptain, hsince, -⟩, hepoch, hown, hmembers⟩ :=
      Dev.takeOver_captain s.clk mean ((s.dev.missing m).setFollowing s.clk false)
    rw [Dev.setFollowing_tnd] at hepoch hmembers
    exact ⟨_, exec_heartbeatMiss_vice hmode hdue hid hmissed hreport hdissolve, hcaptain, hsince, hepoch, hown, hmembers⟩
  case joins =>
    intro s member boundary received joins leaves hmode ⟨hjoins, hleaves⟩
    subst hjoins hleaves
    exact exec_statusFrame_joins hmode
  case lost =>
    intro s member hmode hlisted hdown
    exact exec_memberTimeout_lost hmode hlisted hdown
  case handback =>
    intro s at_ q tag hmode hback hdue
    obtain ⟨hstoker, hsince, -⟩ := Dev.enterMode_inMode s.clk .stoker 0 tag
      (s.dev.updTnd fun t => { t with handback := none, captain := 0 })
    have hcommand := Dev.enterMode_command s.clk .stoker 0 tag (s.dev.updTnd fun t => { t with handback := none, captain := 0 })
    exact ⟨_, exec_handbackBoundary_due hmode hback hdue, hstoker, congrArg (·.2.2) hcommand, congrArg (·.2.1) hcommand, hsince⟩
  case stored =>
    intro s member kind idx priv addr len peer incoming write data hin hwrite hexport hreg hinside hawake hecc
    subst hin hwrite
    exact exec_tandemWindowAccess_stored hexport hreg hinside hawake hecc
  case denied =>
    intro s member kind idx priv addr len peer incoming write data hin hwrite hexport
    subst hin hwrite
    exact exec_tandemWindowAccess_denied hexport
  case rests =>
    intro s link tD tag abort y _ hy hst hdis hresize
    refine ⟨_, exec_tndLinkDisabled_down hy hst hdis hresize, ?_⟩
    rw [Dev.spoke_congr (Dev.evt0_spk ..), Dev.spoke_updSpoke, Dev.spoke_abortScans, hy]
    rfl

end Sys2Proof.Machine
end
